-- ==== Sys2Proof/Syntax.lean ====
section
/-! DEFINITION. The commands of the block: the rows of the operation table with their operands, and the types of
those operands. A command that is a register write carries the word written; a command that happens at an instance
carries its number; what comes from outside (a frame, a level, a sampled value) is an operand. -/
namespace Sys2Proof

/-- Who starts an access on the interconnect (R12). -/
inductive Initiator where
  | qe (n : Fin 24)
  | hm
  | dmaRead (ch : Fin 32)
  | dmaWrite (ch : Fin 32)
  | pcie
  | hostBus
  | qspi
  | debug
  | lhPort
  deriving DecidableEq, Repr

/-- What an interconnect access does; `bytes` is its width (R13), `atomic` the operations of R16. -/
inductive BusOp where
  | read (bytes : Nat)
  | write (bytes : Nat) (data : BitVec 128)
  | swap (bytes : Nat) (data : BitVec 128)
  | tas (bytes : Nat)
  | cas (bytes : Nat) (old new : BitVec 128)
  deriving DecidableEq, Repr

/-- How a reception ends (R142): well, or in error by kind. -/
inductive RxEnd where
  | ok | error | align | symbol | assembly | smd
  deriving DecidableEq, Repr

/-- What arrives at a port: a frame from its timestamp point on (`quarter` of the tick in quarters of a ns, R43; `frags` continuation
fragments, 0 for a frame not preempted), further bytes of it, its end; or a frame as a whole. `hand`: switch port P6 (0) or P7 (1) takes the
next frame of its output queues into its ferry queue (R106, R247), whatever the port number. -/
inductive RxPart where
  | start (quarter : Fin 16) (bytes : List Nat) (frags : Nat)
  | more (bytes : List Nat)
  | finish (fin : RxEnd)
  | whole (quarter : Fin 16) (bytes : List Nat) (frags : Nat) (fin : RxEnd)
  | hand (e : Fin 2)
  deriving DecidableEq, Repr

/-- What a transmission does: it starts with its preamble (`bad`: 16-byte lines of the frame's cells, descriptor first, that are found
uncorrectable, R28), its timestamp point
passes (R43), its first k bytes have left (R83), it finishes, is cut after `sent` bytes for
an express frame or a hold (R141), or its remainder is taken up. -/
inductive TxPart where
  | start (bad : List Nat)
  | sfd (quarter : Fin 16)
  | sent (k : Nat)
  | finish
  | cut (sent : Nat)
  | resume
  deriving DecidableEq, Repr

/-- A cut-through transmission starts (`bad` as in TxPart), passes its timestamp point, has sent its first k bytes, or has sent all that it will send (R111, R112). -/
inductive CtPart where
  | start (bad : List Nat)
  | sfd (quarter : Fin 16)
  | sent (k : Nat)
  | finish
  deriving DecidableEq, Repr

/-- What a start of link comes to (R130, R131): up at a speed code with the partner's abilities, by parallel detection or
not; or only half duplex. -/
inductive LinkEnd where
  | up (speed : Fin 4) (ability : Nat) (parallel : Bool)
  | halfDuplex (ability : Nat)
  deriving DecidableEq, Repr

/-- A frame on a CAN bus (R268): identifier, extended, remote, FD, data length code, bit-rate switch, error state
indicator, data bytes. -/
structure CanFrame where
  id   : Fin 536870912
  ide  : Bool
  rtr  : Bool
  fdf  : Bool
  dlc  : Fin 16
  brs  : Bool
  esi  : Bool
  data : List Nat
  deriving DecidableEq, Repr

/-- What a controller sees of another node's frame: its start, with the identifier it turns out to carry; its validity
at the last but one bit of its end (R278); or an error (`primary`: a dominant bit follows the own error flag,
ISO 11898-1). -/
inductive CanRx where
  | start (id : Fin 536870912) (ide : Bool)
  | valid (f : CanFrame)
  | error (primary : Bool)
  deriving DecidableEq, Repr

/-- A transmission of a controller: it starts; it succeeds; arbitration is lost to a frame with the given identifier; an error ends it (`exempt`: one of the cases in
which ISO 11898-1 leaves TEC as it is). `delay` is the transceiver delay measured in an FD frame, in CAN clock periods (R270). -/
inductive CanTx where
  | start
  | sent (delay : Nat)
  | lost (id : Fin 536870912) (ide : Bool)
  | error (exempt : Bool) (delay : Option Nat)
  deriving DecidableEq, Repr

/-- A PCIe request that the endpoint does not support (R377). -/
inductive UrKind where
  | lockedRead | io | configType1 | wideAtomic | outsideBars | vendorMessage0 | vendorMessage1
  deriving DecidableEq, Repr

/-- What an AtomicOp does (R377). -/
inductive AtomicKind where
  | fetchAdd | swap | cas
  deriving DecidableEq, Repr

/-- What resets the PCIe interface alone (R381, R472). -/
inductive PcieReset where
  | hotReset | linkDown | functionLevel | perstnLow
  deriving DecidableEq, Repr

/-- The errors of requester and completer that the endpoint reports in its AER capability (R380). -/
inductive AerErr where
  | unsupportedRequest | completerAbort | poisonedTlp | completionTimeout | unexpectedCompletion | ecrc | malformedTlp
  deriving DecidableEq, Repr

/-- What is wrong with a packet that arrives on the link (R375, R380): its ECRC, or its form. -/
inductive TlpFlaw where
  | ecrc | malformed
  deriving DecidableEq, Repr

/-- An operand that a packet on the link brings, with what is wrong with the packet, if anything. -/
structure Tlp (α : Type) where
  val  : α
  flaw : Option TlpFlaw := none
  deriving DecidableEq, Repr

/-- An operand of a host's read cycle, with whether the interconnect brings the data within the cycle (R385, R388). -/
structure Cyc (α : Type) where
  val   : α
  quick : Bool := false
  deriving DecidableEq, Repr

/-- What a configuration write of the host changes: Bus Master Enable, MSI-X enable, the function mask, the controls, masks and severities of the
AER capability and a cleared bit of its status (R375, R380), or another field of configuration space. -/
inductive CfgField where
  | busMaster (on : Bool)
  | msixEnable (on : Bool)
  | functionMask (on : Bool)
  | ecrcGenerate (on : Bool)
  | ecrcCheck (on : Bool)
  | aerMask (e : AerErr) (on : Bool)
  | aerFatal (e : AerErr) (on : Bool)
  | aerClear (e : AerErr)
  | other (dw : Fin 1024) (w : BitVec 32)
  deriving DecidableEq, Repr

/-- How the completion of an outbound read ends (R396): data, poisoned or not, or an error status. -/
inductive OutEnd where
  | data (v : BitVec 128) (poison : Bool)
  | unsupported
  | abort
  deriving DecidableEq, Repr

/-- A frame on the lighthouse port (R446): its clocks, and the whole bytes that they brought on LH_MOSI. -/
structure LhFrame where
  clocks : Nat
  bytes  : List (BitVec 8)
  deriving DecidableEq, Repr

/-- The commands: one constructor per row of the operation table. -/
inductive Instr where
  /-- REGISTER_WRITE (R8): A write to a register that has no row of its own sets its fields by their access codes, or is discarded whole on a reserved encoding or locked RWL field. -/
  | registerWrite (who : Initiator) (a w : Word)
  /-- INTERCONNECT_ACCESS (R12): An initiator's read, write or atomic operation is arbitrated round robin at its target and served under the address map and its attributes. -/
  | interconnectAccess (who : Initiator) (a : Word) (op : BusOp) (lanes : BitVec 16) (upset : Fin 3)
  /-- BUS_TIMEOUT (R13): A target that has not responded within 4,096 core cycles ends the access with a bus error. -/
  | busTimeout (who : Initiator) (a : Word) (op : BusOp)
  /-- CORRECTION_WRITE_BACK (R27): A corrected word is written back at the next cycle in which its memory is free. -/
  | correctionWriteBack (line : Nat)
  /-- DREDGER_PASS (R448): The dredger reads, corrects and writes back every word of each symbol-coded memory once per pass. -/
  | dredgerPass (soft hard : List Nat)
  /-- DREDGE_LATE (R448): A pass not finished within PASS_MS sets DREDGE_LATE and raises logbook code 0x12. -/
  | dredgeLate
  /-- TIME_ADVANCE (R32): On every TSCLK tick the time of day advances by the increment in force, with the hidden residue carrying into FRAC. -/
  | timeAdvance
  /-- TIME_CMD_STEP (R34): A write of STEP to TIME_CMD makes a step pending until its tick of application. -/
  | timeCmdStep (who : Initiator) (w : Word)
  /-- TIME_CMD_SET (R34): A write of SET to TIME_CMD makes a set pending until its tick of application. -/
  | timeCmdSet (who : Initiator) (w : Word)
  /-- TIME_CMD_INC (R34): A write of INC to TIME_CMD, with TIME_INC in range, makes an increment load pending until its tick of application. -/
  | timeCmdInc (who : Initiator) (w : Word)
  /-- TIME_CMD_KICK (R34): A write of KICK to TIME_CMD schedules a restart of the state watchdog at its own tick of application. -/
  | timeCmdKick (who : Initiator) (w : Word)
  /-- FORCE_JUMP (R36): A write of FORCE_JUMP arms a one-shot permission for the next STEP or SET to pass the jump limit or the state gate. -/
  | forceJump (who : Initiator) (w : Word)
  /-- DISARM (R36): A write of DISARM clears an armed FORCE_JUMP without consuming it. -/
  | disarm (who : Initiator) (w : Word)
  /-- STEP_APPLY (R35): At its tick of application a pending STEP adds TIME_STEP to the time, or is refused beyond TIME_JUMP_LIMIT without FORCE_JUMP. -/
  | stepApply
  /-- SET_APPLY (R37): At its tick of application a pending SET loads the time from TIME_SET when STATE is FREE or FORCE_JUMP is armed, and is refused otherwise. -/
  | setApply
  /-- INC_APPLY (R32): At its tick of application a pending INC loads the increment in force from TIME_INC and restarts the state watchdog. -/
  | incApply
  /-- KICK_APPLY (R40): At its tick of application a KICK restarts the state watchdog. -/
  | kickApply
  /-- TIME_CTL_STATE (R39): A write of STATE in TIME_CTL moves the synchronisation state, restarting the state watchdog when it writes SYNC. -/
  | timeCtlState (who : Initiator) (w : Word)
  /-- TIME_WDOG (R40): A write of TIME_WDOG sets the state watchdog interval and restarts or stops the watchdog when the write lands. -/
  | timeWdog (who : Initiator) (w : Word)
  /-- STATE_WATCHDOG_EXPIRY (R40): Expiry of the state watchdog in SYNC moves STATE to HOLDOVER, sets HOLDOVER_ENTERED and counts logbook code 0x22. -/
  | stateWatchdogExpiry
  /-- TIME_NOW_FRAC (R33): A read of TIME_NOW_FRAC latches NS and SEC of the same tick for the following reads. -/
  | timeNowFrac (who : Initiator)
  /-- TIME_PTP_TXTS_KEY (R46): A read of TIME_PTPn_TXTS_KEY pops the head of the egress timestamp FIFO and latches its NS and SEC. -/
  | timePtpTxtsKey (who : Initiator) (n : Fin 6)
  /-- TRIGGER_MODE (R52): A write of MODE in TTRIGn_CTL selects OFF, TIDE, PERIODIC or SOFT, after checks on WIDTH, PERIOD and START. -/
  | triggerMode (who : Initiator) (n : Fin 16) (w : Word)
  /-- PERIODIC_RISE (R51): At each START + k × PERIOD a PERIODIC trigger starts a pulse of WIDTH ticks. -/
  | periodicRise (n : Fin 16)
  /-- PULSE (R51): A write of PULSE in SOFT mode starts or restarts one pulse of WIDTH. -/
  | pulse (who : Initiator) (n : Fin 16) (w : Word)
  /-- PULSE_END (R52): WIDTH ticks after its latest rise a trigger pulse ends and the output goes inactive. -/
  | pulseEnd (n : Fin 16)
  /-- CAPTURE_EDGE (R54): A selected edge on a TCAP input, in CONTINUOUS mode or inside an open window, is timestamped into the unit's FIFO or dropped with OVERFLOW. -/
  | captureEdge (n : Fin 16) (rising : Bool)
  /-- TCAP_TS_NS (R55): A read of TCAPn_TS_NS pops the head of the capture FIFO and latches its SEC. -/
  | tcapTsNs (who : Initiator) (n : Fin 16)
  /-- RUN_START (R63): A write of RUN = 1 while stopped starts the tide engine at TIDE_BASE if the start bank is VALID and the base lies far enough ahead. -/
  | runStart (who : Initiator) (w : Word)
  /-- RUN_STOP (R63): A write of RUN = 0 requests the tide engine to stop at the next cycle boundary. -/
  | runStop (who : Initiator) (w : Word)
  /-- CYCLE_BOUNDARY (R62): At each boundary a new tide cycle begins, TIDE_CYCLE_CNT advances, and any landed stop or committed swap takes effect. -/
  | cycleBoundary
  /-- ENTRY_ISSUE (R68): The tide engine issues an entry its action lead before OFFSET, subject to PARITY, so that its effect lands at OFFSET. -/
  | entryIssue
  /-- TIDE_NOP (R67): A NOP entry lands with no effect. -/
  | tideNop
  /-- GATE (R71): A GATE action lands and sets the port's eight transmission gates and its preemption hold or release. -/
  | gate
  /-- STOW (R73): A STOW action lands, copies the plan into the port's plan store, arms the window and acquires the plan's INSERT buffers. -/
  | stow
  /-- HAND_PUBLISH (R81): A HAND PUBLISH action lands and exchanges W and P of a written buffer, or is skipped as empty or tainted. -/
  | handPublish
  /-- HAND_ACQUIRE (R82): A HAND ACQUIRE action lands and exchanges R and P when FRESH, or sets STALE. -/
  | handAcquire
  /-- TRIG (R51): A TRIG action lands and pulses, drives active or drives inactive a trigger in MODE TIDE, or opens or closes a capture window. -/
  | trig
  /-- CAPT (R84): A CAPT action latches the selected encoder counters, and optionally the status word, into the buffer's writer slot. -/
  | capt
  /-- MOTN (R315): A MOTN action acquires a buffer and hands its setpoints to a cyclic group. -/
  | motn
  /-- DMAS (R260): A DMAS action starts a DMA channel on its programmed chain, or is dropped BUSY. -/
  | dmas
  /-- EVNT (R182): An EVNT action raises tide event line k in a quay engine or the harbourmaster. -/
  | evnt
  /-- WAKE (R140): A WAKE action brings a port out of low-power idle. -/
  | wake
  /-- ADCS (R343): An ADCS action starts an ADC sequence, or is dropped BUSY. -/
  | adcs
  /-- VALIDATE_A (R85): A write of VALIDATE_A starts validation of bank A if it is not ACTIVE. -/
  | validateA (who : Initiator) (w : Word)
  /-- VALIDATE_B (R85): A write of VALIDATE_B starts validation of bank B if it is not ACTIVE. -/
  | validateB (who : Initiator) (w : Word)
  /-- VALIDATION_END (R85): A validation finishes with the bank VALID and VALID_DONE, or FAILED with VALID_FAIL and the first failing entry. -/
  | validationEnd (b : Fin 2)
  /-- TIDE_BANK_WRITE (R86): A write to a non-active bank's memory or its CYCLE or LEN returns it to EMPTY and abandons any validation. -/
  | tideBankWrite (who : Initiator) (a w : Word)
  /-- SWAP_ARM (R87): A write of SWAP_ARM arms a swap to the bank that is not active. -/
  | swapArm (who : Initiator) (w : Word)
  /-- SWAP_DISARM (R88): A write of SWAP_DISARM cancels an armed swap. -/
  | swapDisarm (who : Initiator) (w : Word)
  /-- SWAP_DECISION (R87): 400 ns before the swap boundary the swap is committed if the shadow bank is VALID, or refused with SWAP_REFUSED. -/
  | swapDecision
  /-- TIDE_HB_CFG (R78): A write of TIDE_HBn_CFG places or disables a handover buffer, resetting its slot roles on enable. -/
  | tideHbCfg (who : Initiator) (n : Fin 256) (w : Word)
  /-- HB_CMD_PUBLISH (R81): A TIDE_HB_CMD PUBLISH exchanges W and P of a buffer whatever WRITTEN and TAINT hold. -/
  | hbCmdPublish (who : Initiator) (w : Word)
  /-- HB_CMD_ACQUIRE (R82): A TIDE_HB_CMD ACQUIRE exchanges R and P when FRESH, or sets STALE. -/
  | hbCmdAcquire (who : Initiator) (w : Word)
  /-- HELD_OPERATION_APPLY (R83): A publish or acquire held behind a line-side write or insertion is applied in order when that hold ends. -/
  | heldOperationApply (n : Fin 256)
  /-- WINDOW_EXPIRY (R73): An armed stowage window whose tolerance ends unconsumed is dropped. -/
  | windowExpiry (n : Fin 6)
  /-- FRAME_RECEIVE (R98): A frame arriving at a switch port is parsed, classified, windowed, filtered, metered, checked and resolved to its egress queues. -/
  | frameReceive (n : Fin 6) (part : RxPart)
  /-- CUT_THROUGH (R111): A processed class 7 frame starts at its egress as soon as its first bytes are in memory with its gate open and the line idle. -/
  | cutThrough (n : Fin 6) (part : CtPart)
  /-- FRAME_TRANSMIT (R106): An egress port starts the highest eligible class's head frame and sends it with its tag changes and stowage egress operations. -/
  | frameTransmit (n : Fin 6) (part : TxPart)
  /-- LOOKUP (R105): The MAC LOOKUP operation searches the key and loads SW_MAC_DATA. -/
  | lookup (who : Initiator) (w : Word)
  /-- MAC_WRITE (R105): The MAC WRITE operation installs or removes the entry for the key. -/
  | macWrite (who : Initiator) (w : Word)
  /-- MAC_DELETE (R105): The MAC DELETE operation removes the key and reports whether it was present. -/
  | macDelete (who : Initiator) (w : Word)
  /-- MAC_FLUSH (R105): The MAC FLUSH operation removes every dynamic entry on the named ports. -/
  | macFlush (who : Initiator) (w : Word)
  /-- READ_INDEX (R105): The MAC READ_INDEX operation loads the entry at INDEX into the key and data registers. -/
  | readIndex (who : Initiator) (w : Word)
  /-- MAC_OPERATION_END (R105): A MAC table operation completes within 64 core cycles and BUSY clears. -/
  | macOperationEnd
  /-- AGEING_PASS (R103): Once per second every dynamic MAC entry ages by 1 and those reaching SW_AGE_TIME are removed. -/
  | ageingPass
  /-- VLAN_READ (R124): SW_VLAN_CMD READ loads the VLAN entry into SW_VLAN_DATA. -/
  | vlanRead (who : Initiator) (w : Word)
  /-- VLAN_WRITE (R101): SW_VLAN_CMD WRITE stores SW_VLAN_DATA in the VLAN entry. -/
  | vlanWrite (who : Initiator) (w : Word)
  /-- STREAM_READ (R126): STREAM_CMD READ copies a context's configuration and counter snapshot into the window. -/
  | streamRead (who : Initiator) (w : Word)
  /-- STREAM_WRITE (R126): STREAM_CMD WRITE copies the window into a context, refilling buckets and emptying redundancy history. -/
  | streamWrite (who : Initiator) (w : Word)
  /-- STREAM_CLEAR (R126): STREAM_CMD CLEAR clears the context's counters. -/
  | streamClear (who : Initiator) (w : Word)
  /-- UNBLOCK (R126): STREAM_CMD UNBLOCK clears SDU_BLOCKED and RED_BLOCKED. -/
  | unblock (who : Initiator) (w : Word)
  /-- STREAM_OPERATION_END (R126): A stream window operation completes within 64 core cycles and BUSY clears. -/
  | streamOperationEnd
  /-- PORT_MODE (R129): A write of MODE in PORTn_CTL selects OFF, SGMII, 1000BASE-X, 2500BASE-X or PHY operation. -/
  | portMode (who : Initiator) (n : Fin 6) (w : Word)
  /-- PORT_CTL_RESET (R138): A write of RESET holds port n in PORT reset for 1 µs, flushing its queues and dropping its window and tide actions. -/
  | portCtlReset (who : Initiator) (n : Fin 6) (w : Word)
  /-- PORT_RESET_END (R138): 1 µs after the reset write the port leaves reset and retrains. -/
  | portResetEnd (n : Fin 6)
  /-- RESTART_AN (R130): A write of RESTART_AN restarts link and negotiation, reading PORTn_AN_ADV. -/
  | restartAn (who : Initiator) (n : Fin 6) (w : Word)
  /-- LINK_UP (R137): The link comes up, setting UP and LINK_UP and starting preemption verification. -/
  | linkUp (n : Fin 6) (fin : LinkEnd)
  /-- LINK_LOSS (R137): Loss of link abandons the frame in transmission, ends the frame in reception in error and stops new frames. -/
  | linkLoss (n : Fin 6)
  /-- LINK_FILTER_EXPIRY (R137): When LINK_FILTER expires the link is declared down, counted, and queues are flushed if FLUSH_ON_DOWN is set. -/
  | linkFilterExpiry (n : Fin 6)
  /-- PAUSE_FRAME (R135): A received PAUSE frame with PAUSE_EN stops the starting of frames for its pause time. -/
  | pauseFrame (n : Fin 6) (quanta : BitVec 16)
  /-- PFC_FRAME (R135): A received PFC frame with PFC_EN stops the mapped classes for their times. -/
  | pfcFrame (n : Fin 6) (vec : BitVec 16) (times : List (BitVec 16))
  /-- UNSUP_OPCODE (R136): A MAC control frame of another opcode, or with its enable clear, is counted and ignored. -/
  | unsupOpcode (n : Fin 6)
  /-- PAUSE_EXPIRY (R135): A pause timer runs out and the paused classes may start frames again. -/
  | pauseExpiry (n : Fin 6) (prio : Option (Fin 8))
  /-- SEND (R136): A write of SEND in PORTn_FC_TX sends one PAUSE or PFC frame ahead of classes 0 to 6. -/
  | send (who : Initiator) (n : Fin 6) (w : Word)
  /-- LPI_ENTRY (R139): After EEE_IDLE microseconds with empty queues the port enters low-power idle. -/
  | lpiEntry (n : Fin 6)
  /-- WAKE_ON_QUEUE (R140): With WAKE_ON_QUEUE set, a frame queued for a sleeping port wakes it. -/
  | wakeOnQueue (n : Fin 6)
  /-- WAKE_COMPLETE (R140): TW_EFF after a wake the port can start frames again. -/
  | wakeComplete (n : Fin 6)
  /-- VERIFY_TIMER_EXPIRY (R141): Each VERIFY_TIME a verify mPacket is resent, and after three unanswered attempts verification FAILS. -/
  | verifyTimerExpiry (n : Fin 6)
  /-- VERIFY_RESPONSE (R141): A response mPacket sets VERIFY_STATE to SUCCEEDED and MM_VERIFY_OK. -/
  | verifyResponse (n : Fin 6)
  /-- PORT_MM_CTL (R141): A write of PORTn_MM_CTL restarts preemption verification from INIT. -/
  | portMmCtl (who : Initiator) (n : Fin 6) (w : Word)
  /-- PORT_MDIO_CMD (R132): A write of PORT_MDIO_CMD starts a clause 22 or 45 MDIO operation. -/
  | portMdioCmd (who : Initiator) (w : Word)
  /-- MDIO_OPERATION_END (R132): An MDIO operation ends and BUSY clears. -/
  | mdioOperationEnd (data : BitVec 16)
  /-- COMMIT (R165): STOW_CMD COMMIT starts checking the staged header and entries of plan p. -/
  | commit (who : Initiator) (w : Word)
  /-- COMMIT_END (R165): A commit completes, installing plan p with COMMIT_DONE, or refusing it with COMMIT_FAIL and STOW_FAIL. -/
  | commitEnd
  /-- STOW_CLEAR (R166): STOW_CMD CLEAR sets plan p invalid and frees its range. -/
  | stowClear (who : Initiator) (w : Word)
  /-- NOP (R220): The NOP instruction does nothing. -/
  | nop (n : Fin 25)
  /-- MOV (R220): MOV copies B to A. -/
  | mov (n : Fin 25)
  /-- SEXT (R220): SEXT sign-extends B to 64 bits into A. -/
  | sext (n : Fin 25)
  /-- ZEXT (R220): ZEXT zero-extends B to 64 bits into A. -/
  | zext (n : Fin 25)
  /-- LEA (R220): LEA writes the address of B into A. -/
  | lea (n : Fin 25)
  /-- BSWAP (R220): BSWAP writes B with its byte order reversed into A. -/
  | bswap (n : Fin 25)
  /-- ADD (R220): ADD writes B + C into A and sets the add flags. -/
  | add (n : Fin 25)
  /-- ADC (R220): ADC writes B + C + carry into A. -/
  | adc (n : Fin 25)
  /-- SUB (R220): SUB writes B − C into A and sets the subtract flags. -/
  | sub (n : Fin 25)
  /-- SBB (R220): SBB writes B − C − carry into A. -/
  | sbb (n : Fin 25)
  /-- NEG (R220): NEG writes 0 − B into A. -/
  | neg (n : Fin 25)
  /-- MUL (R220): MUL writes the low s bits of B × C into A. -/
  | mul (n : Fin 25)
  /-- MULHU (R220): MULHU writes the high s bits of the unsigned product into A. -/
  | mulhu (n : Fin 25)
  /-- MULHS (R220): MULHS writes the high s bits of the signed product into A. -/
  | mulhs (n : Fin 25)
  /-- MAC (R220): MAC adds the low s bits of B × C to A. -/
  | mac (n : Fin 25)
  /-- AND (R220): AND writes B AND C into A. -/
  | and (n : Fin 25)
  /-- OR (R220): OR writes B OR C into A. -/
  | or (n : Fin 25)
  /-- XOR (R220): XOR writes B XOR C into A. -/
  | xor (n : Fin 25)
  /-- ANDN (R220): ANDN writes B AND NOT C into A. -/
  | andn (n : Fin 25)
  /-- NOT (R220): NOT writes NOT B into A. -/
  | not (n : Fin 25)
  /-- SHL (R220): SHL shifts B left by C mod s into A. -/
  | shl (n : Fin 25)
  /-- SHR (R220): SHR shifts B logically right into A. -/
  | shr (n : Fin 25)
  /-- SAR (R220): SAR shifts B arithmetically right into A. -/
  | sar (n : Fin 25)
  /-- ROL (R220): ROL rotates B left into A. -/
  | rol (n : Fin 25)
  /-- ROR (R220): ROR rotates B right into A. -/
  | ror (n : Fin 25)
  /-- BFX (R224): BFX extracts a bit field of B, zero-extended, into A. -/
  | bfx (n : Fin 25)
  /-- BFXS (R224): BFXS extracts a bit field of B, sign-extended, into A. -/
  | bfxs (n : Fin 25)
  /-- BFI (R224): BFI inserts the low bits of B into a field of A. -/
  | bfi (n : Fin 25)
  /-- BSET (R220): BSET writes B with bit C mod s set into A. -/
  | bset (n : Fin 25)
  /-- BCLR (R220): BCLR writes B with bit C mod s cleared into A. -/
  | bclr (n : Fin 25)
  /-- BEQ (R222): BEQ branches if A equals B. -/
  | beq (n : Fin 25)
  /-- BNE (R222): BNE branches if A differs from B. -/
  | bne (n : Fin 25)
  /-- BLT (R222): BLT branches if A is less than B, signed. -/
  | blt (n : Fin 25)
  /-- BGE (R222): BGE branches if A is at least B, signed. -/
  | bge (n : Fin 25)
  /-- BLTU (R222): BLTU branches if A is less than B, unsigned. -/
  | bltu (n : Fin 25)
  /-- BGEU (R222): BGEU branches if A is at least B, unsigned. -/
  | bgeu (n : Fin 25)
  /-- BBS (R222): BBS branches if bit B mod s of A is 1. -/
  | bbs (n : Fin 25)
  /-- BBC (R222): BBC branches if bit B mod s of A is 0. -/
  | bbc (n : Fin 25)
  /-- JMP (R222): JMP branches to its target. -/
  | jmp (n : Fin 25)
  /-- BF (R223): BF branches on the flag condition named by A. -/
  | bf (n : Fin 25)
  /-- DJNZ (R220): DJNZ decrements A and branches if it is not zero. -/
  | djnz (n : Fin 25)
  /-- CALL (R227): CALL pushes the return index at SP − 8 and branches, trapping STACK below STACK_LIMIT. -/
  | call (n : Fin 25)
  /-- RET (R227): RET pops the return index and continues there. -/
  | ret (n : Fin 25)
  /-- TRAP (R228): The TRAP instruction traps with cause 0x08 through vector 8. -/
  | trap (n : Fin 25)
  /-- RETT (R188): RETT returns from a trap, restoring the PC from TRAP_PC and IE from PIE. -/
  | rett (n : Fin 25)
  /-- CRC32 (R225): CRC32 updates the 32-bit CRC in A with the bytes of B. -/
  | crc32 (n : Fin 25)
  /-- CRC16R (R225): CRC16R updates a reflected table CRC-16 in A with the bytes of B. -/
  | crc16r (n : Fin 25)
  /-- CRC16N (R225): CRC16N updates a non-reflected table CRC-16 in A with the bytes of B. -/
  | crc16n (n : Fin 25)
  /-- CSUM (R226): CSUM adds B to A as a ones' complement sum. -/
  | csum (n : Fin 25)
  /-- REP (R229): REP repeats the next instruction B + 1 times without interruption. -/
  | rep (n : Fin 25)
  /-- REPI (R229): REPI repeats the next instruction B times, checking for interrupts between iterations. -/
  | repi (n : Fin 25)
  /-- FQPUSH (R231): FQPUSH pushes one word into a ferry queue, or sets Z if there is no room. -/
  | fqpush (n : Fin 25)
  /-- FQPOP (R231): FQPOP pops one word with its tags from a ferry queue, or sets Z if empty. -/
  | fqpop (n : Fin 25)
  /-- FQPKT (R220): FQPKT reads a queue's packet counter into A. -/
  | fqpkt (n : Fin 25)
  /-- SNEXT (R232): SNEXT discards the rest of the receive stream's packet and clears ENDED and TRUNC. -/
  | snext (n : Fin 25)
  /-- SCLOSE (R217): SCLOSE pushes the held or partial transmit word tagged END. -/
  | sclose (n : Fin 25)
  /-- SSTAT (R232): SSTAT writes the stream state into A. -/
  | sstat (n : Fin 25)
  /-- WAITE (R233): WAITE begins waiting for masked events or a timeout, completing at once for B = 0. -/
  | waite (n : Fin 25)
  /-- WAITE_COMPLETE (R233): A masked event arrives and WAITE writes the events to A and clears their edge bits. -/
  | waiteComplete (n : Fin 25)
  /-- WAITE_TIMEOUT (R233): C core cycles pass and WAITE completes with A = 0 and Z set. -/
  | waiteTimeout (n : Fin 25)
  /-- WAITT (R234): WAITT begins waiting until the time of day reaches the instant in B. -/
  | waitt (n : Fin 25)
  /-- WAITT_COMPLETE (R234): The time of day reaches the instant, or a forward step passes it, and WAITT completes. -/
  | waittComplete (n : Fin 25)
  /-- YIELD (R234): YIELD leaves every bank and the mooring port idle for B + 1 cycles. -/
  | yield (n : Fin 25)
  /-- SWAP (R235): The SWAP instruction atomically reads B into A and writes C into B. -/
  | swap (n : Fin 25)
  /-- TAS (R235): TAS atomically reads B into A and writes 1 into B. -/
  | tas (n : Fin 25)
  /-- CAS (R235): CAS atomically compares and swaps its operand. -/
  | cas (n : Fin 25)
  /-- SCOPE (R236): The harbourmaster SCOPE instruction requests a reset of the named scope and instance. -/
  | scope (n : Fin 25)
  /-- LOGEV (R236): LOGEV counts a logbook event of code 0x80 to 0xFF with its value. -/
  | logev (n : Fin 25)
  /-- IFENCE (R236): IFENCE waits for earlier IRAM writes to land and discards later fetches. -/
  | ifence (n : Fin 25)
  /-- STREAM_WAIT_END (R215): Bytes or room that a waiting stream operand needs become available and the instruction proceeds. -/
  | streamWaitEnd (n : Fin 25)
  /-- EVENT_INTERRUPT (R184): At a boundary with IE set an enabled pending event is taken through its vector. -/
  | eventInterrupt (n : Fin 25)
  /-- BREAKPOINT (R195): Reaching a breakpoint PC traps BREAK or halts the engine before the instruction executes. -/
  | breakpoint (n : Fin 25)
  /-- EVENT_SET (R182): A write of QEn_EVENT_SET sets SOFT event bits of an engine. -/
  | eventSet (who : Initiator) (n : Fin 25) (w : Word)
  /-- QE_TIMER (R183): Every PERIOD core cycles the engine timer sets its TIMER event. -/
  | qeTimer (n : Fin 25)
  /-- QE_START (R191): QEn_CTL START clears events and STATUS, records RESET and starts a stopped engine at ENTRY. -/
  | qeStart (who : Initiator) (n : Fin 25) (w : Word)
  /-- QE_STOP (R191): QEn_CTL STOP moves a running engine to STOPPING, or a halted one to STOPPED. -/
  | qeStop (who : Initiator) (n : Fin 25) (w : Word)
  /-- QE_STOP_LANDS (R192): A pending stop lands at the next instruction boundary and the engine reads STOPPED. -/
  | qeStopLands (n : Fin 25)
  /-- QE_HALT (R191): QEn_CTL HALT halts a running engine at the next boundary. -/
  | qeHalt (who : Initiator) (n : Fin 25) (w : Word)
  /-- QE_RESUME (R191): QEn_CTL RESUME runs a halted engine from its PC. -/
  | qeResume (who : Initiator) (n : Fin 25) (w : Word)
  /-- QE_STEP (R191): QEn_CTL STEP executes one instruction of a halted engine and halts again. -/
  | qeStep (who : Initiator) (n : Fin 25) (w : Word)
  /-- QE_WATCHDOG_EXPIRY (R194): The engine watchdog expires, trapping WATCHDOG or on a second expiry halting with WDOG. -/
  | qeWatchdogExpiry (n : Fin 25)
  /-- KICK (R194): A write of KICK to QEn_WDOG restarts the engine watchdog. -/
  | kick (who : Initiator) (n : Fin 25) (w : Word)
  /-- BERTH_CTL_START (R199): BERTHb_CTL START starts every engine of a fully stopped berth in one clock. -/
  | berthCtlStart (who : Initiator) (b : Fin 24) (w : Word)
  /-- BERTH_CTL_STOP (R199): BERTHb_CTL STOP stops each engine of the berth. -/
  | berthCtlStop (who : Initiator) (b : Fin 24) (w : Word)
  /-- NOTIFY (R199): BERTHb_CTL NOTIFY sets STOP_REQ in each engine of the berth. -/
  | notify (who : Initiator) (b : Fin 24) (w : Word)
  /-- BERTH_CTL_RESET (R199): BERTHb_CTL RESET starts a BERTH reset that stops the engines, clears events and flushes the berth's queues. -/
  | berthCtlReset (who : Initiator) (b : Fin 24) (w : Word)
  /-- BERTH_RESET_END (R199): The BERTH reset finishes when the berth reads STOPPED. -/
  | berthResetEnd (b : Fin 24)
  /-- FQ_DATA_WRITE (R243): A write of FQn_DATA pushes a word without END, or ends with a bus error when there is no room. -/
  | fqDataWrite (who : Initiator) (q : Fin 512) (w : Word)
  /-- FQ_TAG_WRITE (R243): A write of FQn_TAG pushes a word with END. -/
  | fqTagWrite (who : Initiator) (q : Fin 512) (w : Word)
  /-- FQ_DATA_READ (R243): A read of FQn_DATA pops a word and loads its tags into FQn_TAG. -/
  | fqDataRead (who : Initiator) (q : Fin 512)
  /-- FERRY_FLUSH (R245): A write of FERRY_FLUSH empties a queue, leaving a terminator for a cut head packet and discarding an open tail. -/
  | ferryFlush (who : Initiator) (w : Word)
  /-- FERRY_Q_CTL_FLUSH (R245): FLUSH in FERRY_Q_CTL flushes the queue selected by FERRY_SEL. -/
  | ferryQCtlFlush (who : Initiator) (w : Word)
  /-- SWITCH_PORT_TRANSMIT (R249): P6 or P7 takes a complete packet round robin from its queues and sends it into the switch, or discards a bad one. -/
  | switchPortTransmit (p : Fin 2)
  /-- DMA_START (R260): DMAn_CTL START starts an idle or halted channel at DMAn_NEXT. -/
  | dmaStart (who : Initiator) (ch : Fin 32) (w : Word)
  /-- ABORT (R260): DMAn_CTL ABORT halts a running or waiting channel. -/
  | abort (who : Initiator) (ch : Fin 32) (w : Word)
  /-- DESCRIPTOR_FETCH (R254): A channel fetches and checks a descriptor, halting with DESC on any violation. -/
  | descriptorFetch (ch : Fin 32)
  /-- SEGMENT_TRANSFER (R251): A channel that wins a buffer region reads a segment and writes it, reshuffling as its mode gives. -/
  | segmentTransfer (ch : Fin 32)
  /-- BURST_GRANT (R257): A pending request is granted one burst when the channel wins a region. -/
  | burstGrant (ch : Fin 32)
  /-- DREQ (R257): A DREQ input from the sound asserts or withdraws a level request. -/
  | dreq (k : Fin 8) (on : Bool)
  /-- DESCRIPTOR_COMPLETE (R255): A descriptor completes: writes land, status is written back, NOTIFY and LAST act, and the next descriptor is fetched. -/
  | descriptorComplete (ch : Fin 32) (late : Bool)
  /-- CAN_MODE (R268): A write of MODE in CANn_CTL requests INIT, NORMAL or RESTRICTED operation. -/
  | canMode (who : Initiator) (n : Fin 4) (w : Word)
  /-- CAN_MODE_EFFECT (R268): The requested CAN mode takes effect after 11 recessive bits, or at the end of the frame in progress. -/
  | canModeEffect (n : Fin 4)
  /-- TX_BUFFER_LOAD (R272): A complete transmit packet is popped into a free transmit buffer, or discarded whole as bad. -/
  | txBufferLoad (n : Fin 4)
  /-- CAN_TRANSMIT (R273): A controller transmits the buffer that would win arbitration and records success, lost arbitration or error. -/
  | canTransmit (n : Fin 4) (part : CanTx)
  /-- BUS_OFF_RECOVERY (R271): The recovery sequence of 128 × 11 recessive bits completes and the controller returns error active. -/
  | busOffRecovery (n : Fin 4)
  /-- CAN_TX_CANCEL (R275): A write to CANn_TX_CANCEL cancels transmit buffers, or reports the cancel late. -/
  | canTxCancel (who : Initiator) (n : Fin 4) (w : Word)
  /-- CAN_RECEIVE (R278): A valid received frame is filtered and pushed into RXQ0 or RXQ1, or discarded. -/
  | canReceive (n : Fin 4) (part : CanRx)
  /-- TT_ENABLE (R284): A write of EN = 1 to TT_CTL validates the trigger list and enables the time-triggered unit or sets CFG_FAIL. -/
  | ttEnable (who : Initiator) (w : Word)
  /-- TT_CYCLE_START (R281): A basic cycle of the system matrix begins and the cycle count advances. -/
  | ttCycleStart (level : Fin 4)
  /-- TT_TRIGGER (R283): At its time mark a trigger acts: reference, exclusive send, arbitrating window, receive check or watch. -/
  | ttTrigger
  /-- BACKUP_REFERENCE (R287): A backup whose delay passes without a reference message sends its own and takes over. -/
  | backupReference
  /-- UPDATE (R288): A write of UPDATE checks an application buffer image and requests its exchange. -/
  | update (who : Initiator) (m : Fin 16) (w : Word)
  /-- ABUF_EXCHANGE (R288): At the first clock with no TX_EXCL reading the buffer the application and active images are exchanged. -/
  | abufExchange (m : Fin 16)
  /-- PROFILE_TICK (R295): Every 1 µs tick each axis and group updates its profile, issues steps and tests completion and limits. -/
  | profileTick
  /-- AXIS_CMD_START (R299): AXn_CMD START starts a position or velocity move, or is refused with a reason. -/
  | axisCmdStart (who : Initiator) (n : Fin 32) (w : Word)
  /-- AXIS_CMD_STOP (R299): AXn_CMD STOP decelerates a moving or homing axis, or its group, to standstill. -/
  | axisCmdStop (who : Initiator) (n : Fin 32) (w : Word)
  /-- ESTOP (R299): AXn_CMD ESTOP decelerates at EDEC ignoring jerk. -/
  | estop (who : Initiator) (n : Fin 32) (w : Word)
  /-- HOME (R317): AXn_CMD HOME starts the homing method. -/
  | home (who : Initiator) (n : Fin 32) (w : Word)
  /-- ARM_NEXT (R303): AXn_CMD ARM_NEXT queues a next move, or in IDLE starts it. -/
  | armNext (who : Initiator) (n : Fin 32) (w : Word)
  /-- AXIS_CMD_CLEAR (R299): AXn_CMD CLEAR returns a faulted axis to IDLE. -/
  | axisCmdClear (who : Initiator) (n : Fin 32) (w : Word)
  /-- GRP_START (R313): GRPg_CMD START starts a linear move or puts a cyclic group in RUNNING. -/
  | grpStart (who : Initiator) (g : Fin 8) (w : Word)
  /-- GRP_STOP (R314): GRPg_CMD STOP decelerates the group to standstill. -/
  | grpStop (who : Initiator) (g : Fin 8) (w : Word)
  /-- GRP_ESTOP (R314): GRPg_CMD ESTOP decelerates the group at its emergency deceleration. -/
  | grpEstop (who : Initiator) (g : Fin 8) (w : Word)
  /-- LATCH (R315): GRPg_CMD LATCH performs a MOTN on the buffer and offset in GRPg_SRC. -/
  | latch (who : Initiator) (g : Fin 8) (w : Word)
  /-- GRP_CLEAR (R326): GRPg_CMD CLEAR returns a faulted group to IDLE. -/
  | grpClear (who : Initiator) (g : Fin 8) (w : Word)
  /-- AX_POS_LO_WRITE (R325): A write of AXn_POS_LO is held until AXn_POS_HI is written. -/
  | axPosLoWrite (who : Initiator) (n : Fin 32) (w : Word)
  /-- AX_POS_HI_WRITE (R322): A write of AXn_POS_HI loads both halves, redefining the position without moving the motor and clearing HOMED. -/
  | axPosHiWrite (who : Initiator) (n : Fin 32) (w : Word)
  /-- AX_POS_LO_READ (R325): A read of AXn_POS_LO latches the high word for the next read of AXn_POS_HI. -/
  | axPosLoRead (who : Initiator) (n : Fin 32)
  /-- RAW_INPUT_EDGE (R309): A raw edge of a limit or home input is timestamped and latches the commanded position. -/
  | rawInputEdge (n : Fin 32) (k : Fin 3) (level : Bool)
  /-- DEBOUNCE_EXPIRY (R309): A raw level held for FILT microseconds becomes the filtered level. -/
  | debounceExpiry (n : Fin 32) (k : Fin 3)
  /-- CHOP_CYCLE_START (R333): A chopping cycle begins, taking changing half-bridges off for the dead time. -/
  | chopCycleStart (n : Fin 8) (ph : Fin 2)
  /-- DEAD_TIME_END (R333): After DEAD the new IN is applied, the coil is driven and blanking starts. -/
  | deadTimeEnd (n : Fin 8) (ph : Fin 2)
  /-- BLANK_END (R333): After BLANK the threshold comparator is enabled, ending the on phase at once if already tripped;
  `v` is CSk_P − CSk_N in nanovolts. -/
  | blankEnd (n : Fin 8) (ph : Fin 2) (v : Int)
  /-- COMPARATOR_TRIP (R333): The threshold comparator trips, the trip time is recorded and decay begins; `v` is CSk_P − CSk_N in
  nanovolts. -/
  | comparatorTrip (n : Fin 8) (ph : Fin 2) (v : Int)
  /-- OFF_TIME_END (R333): TOFF after the trip the decay ends and the next chopping cycle begins. -/
  | offTimeEnd (n : Fin 8) (ph : Fin 2)
  /-- OVER_CURRENT (R335): An over-current trip takes the axis's bridges off, sets OC_A or OC_B and faults the axis; `va` and
  `vb` are CSk_P − CSk_N of the two phases in nanovolts, held for 12 ns. -/
  | overCurrent (n : Fin 8) (va vb : Int)
  /-- REST_DELAY_EXPIRY (R332): After REST_DELAY of standstill the current falls to I_REST. -/
  | restDelayExpiry (n : Fin 8)
  /-- ENCODER_EDGE (R338): A filtered encoder input edge counts the counter up or down, or sets QERR; `a` and `b` are the
  levels at the pins, which the filter takes after FILT motion clocks. -/
  | encoderEdge (n : Fin 32) (a b : Bool)
  /-- INDEX_EDGE (R340): An index edge latches the count and time, sets INDEX and zeroes the count by IDX_MODE. -/
  | indexEdge (n : Fin 32) (z : Bool)
  /-- ENC_COUNT_LO_WRITE (R339): A write of ENCn_COUNT_LO is held until ENCn_COUNT_HI is written. -/
  | encCountLoWrite (who : Initiator) (n : Fin 32) (w : Word)
  /-- ENC_COUNT_HI_WRITE (R339): A write of ENCn_COUNT_HI loads both halves of the count at one motion clock. -/
  | encCountHiWrite (who : Initiator) (n : Fin 32) (w : Word)
  /-- ENC_COUNT_LO_READ (R339): A read of ENCn_COUNT_LO latches the high word. -/
  | encCountLoRead (who : Initiator) (n : Fin 32)
  /-- ADC_START (R343): START in ADCc_CMD starts a sequence, or sets START_REFUSED while BUSY. -/
  | adcStart (who : Initiator) (c : Fin 2) (w : Word)
  /-- CONVERSION (R343): Every 100 ns of a running sequence the converter samples its next channel; `v` is the voltage there in
  nanovolts, CSk_P − CSk_N for channels 0 to 15. -/
  | conversion (c : Fin 2) (v : Int)
  /-- ADC_RESULTS (R344): Within 400 ns of the last sample the results go to a handover buffer or a ferry packet, or are dropped. -/
  | adcResults (c : Fin 2)
  /-- SOUND_SEL (R329): A write of SOUND_SELi changes an input's source at one tick without producing an edge. -/
  | soundSel (who : Initiator) (k : Fin 216) (pin : Bool) (w : Word)
  /-- DRIVE (R356): The pilot DRIVE instruction drives the OUT group from SHIFT, by exchange, or with zeros or ones. -/
  | drive (n : Fin 32) (ext clash : BitVec 8) (parity : Bool)
  /-- SAMPLE (R356): The pilot SAMPLE instruction inserts the IN group into SHIFT or WA. -/
  | sample (n : Fin 32) (ext clash : BitVec 8) (parity : Bool)
  /-- LOAD (R360): The pilot LOAD instruction pops a word from the transmit queue, waiting or underrunning when empty. -/
  | load (n : Fin 32) (ext clash : BitVec 8) (parity : Bool)
  /-- STORE (R360): The pilot STORE instruction pushes a word to the receive queue, waiting or overrunning when full. -/
  | store (n : Fin 32) (ext clash : BitVec 8) (parity : Bool)
  /-- AWAIT (R358): The pilot AWAIT instruction begins waiting for a pin condition, timer or KICK. -/
  | await (n : Fin 32) (ext clash : BitVec 8) (parity : Bool)
  /-- AWAIT_COMPLETE (R358): The awaited condition holds and the pilot completes at the next pilot clock. -/
  | awaitComplete (n : Fin 32) (ext : List (BitVec 8))
  /-- COUNT (R356): The pilot COUNT instruction decrements WA or WB or tests BCNT and chooses LOOP or NEXT. -/
  | count (n : Fin 32) (ext clash : BitVec 8) (parity : Bool)
  /-- SIGNAL (R356): The pilot SIGNAL instruction raises a DMA request, PSIG events or the SIG flag. -/
  | signal (n : Fin 32) (ext clash : BitVec 8) (parity : Bool)
  /-- MOVE (R356): The pilot MOVE instruction copies between registers, constants and pins. -/
  | move (n : Fin 32) (ext clash : BitVec 8) (parity : Bool)
  /-- PILOT_QUEUE_WAIT_END (R360): A waiting LOAD or STORE finds its word or room and completes. -/
  | pilotQueueWaitEnd (n : Fin 32)
  /-- DWELL_END (R354): The dwell count runs out and the successor instruction executes. -/
  | dwellEnd (n : Fin 32)
  /-- PILOT_START (R365): PLn_CTL START runs a stopped pilot from ENTRY, or sets START_REFUSED. -/
  | pilotStart (who : Initiator) (n : Fin 32) (w : Word)
  /-- PILOT_STOP (R366): PLn_CTL STOP stops a running or halted pilot between pilot clocks. -/
  | pilotStop (who : Initiator) (n : Fin 32) (w : Word)
  /-- PILOT_KICK (R358): PLn_CTL KICK releases a pilot waiting on AWAIT KICK. -/
  | pilotKick (who : Initiator) (n : Fin 32) (w : Word)
  /-- PILOT_FLUSH (R361): PLn_CTL FLUSH empties both pilot queues. -/
  | pilotFlush (who : Initiator) (n : Fin 32) (w : Word)
  /-- PS_START (R365): PSs_CTL START starts several pilots of a set in the same clock. -/
  | psStart (who : Initiator) (k : Fin 8) (w : Word)
  /-- PS_STOP (R365): PSs_CTL STOP stops several pilots of a set in the same clock. -/
  | psStop (who : Initiator) (k : Fin 8) (w : Word)
  /-- PL_TXDATA (R359): A write of PLn_TXDATA pushes a word to the pilot's transmit queue, or ends with a bus error when full. -/
  | plTxdata (who : Initiator) (n : Fin 32) (w : Word)
  /-- PL_RXDATA (R359): A read of PLn_RXDATA pops the oldest received word, or sets EMPTY_READ. -/
  | plRxdata (who : Initiator) (n : Fin 32)
  /-- PCIE_MWR (R377): An inbound PCIe memory write is split and posted as its target region requires; `bar` is the number of
  the BAR register whose range it hits. -/
  | pcieMwr (bar : Fin 6) (dw : Nat) (dws : List (BitVec 4 × Word)) (ep : Tlp Bool)
  /-- PCIE_MRD (R377): An inbound PCIe memory read is issued after earlier writes, or completed with Completer Abort. -/
  | pcieMrd (bar : Fin 6) (dw : Nat) (bes : Tlp (List (BitVec 4)))
  /-- PCIE_ATOMICOP (R377): An inbound PCIe AtomicOp is performed on PIM or completed with an error. -/
  | pcieAtomicop (bar : Fin 6) (dw bytes : Nat) (kind : Tlp AtomicKind) (x y : BitVec 64)
  /-- UNSUPPORTED_REQUEST (R377): An inbound PCIe request the endpoint does not support is answered Unsupported Request. -/
  | unsupportedRequest (kind : UrKind)
  /-- PCIE_COMPLETION (R373): Read data arrives from the interconnect and the endpoint sends its completions. -/
  | pcieCompletion
  /-- MSIX_MESSAGE (R378): A vector becoming pending, or its conditions coming to hold, sends one MSI-X message. -/
  | msixMessage (v : Fin 64)
  /-- HOSTIF_MSIX_REARM (R378): A write of a vector number to HOSTIF_MSIX_REARM resends it if pending and unmasked. -/
  | hostifMsixRearm (who : Initiator) (w : Word)
  /-- PCIE_INTERFACE_RESET (R381): A hot reset, link down or Function Level Reset resets the PCIe interface only. -/
  | pcieInterfaceReset (kind : PcieReset)
  /-- OUTBOUND_REQUEST (R396): An access to an outbound window is sent as a PCIe request, or ends with a bus error. -/
  | outboundRequest (who : Initiator) (a : Word) (op : BusOp)
  /-- OUTBOUND_COMPLETION (R396): A completion for an outbound read arrives and is delivered, or is unexpected and sets LATE_CPL. -/
  | outboundCompletion (who : Initiator) (a : Word) (fin : Tlp OutEnd)
  /-- COMPLETION_TIMEOUT (R380): An outbound read unanswered within 4,096 core cycles ends with a bus error. -/
  | completionTimeout (who : Initiator) (a : Word)
  /-- OUT_STARVED (R397): An outbound request not accepted within 4,096 core cycles ends with a bus error and sets OUT_STARVED. -/
  | outStarved (who : Initiator) (a : Word)
  /-- HB_READ_CYCLE (R385): A host bus read cycle ends done with data, in retry with a delayed read, or in error; `quick`: the
  interconnect brings the data by event 2. -/
  | hbReadCycle (a : Word) (ben : BitVec 4) (lockn : Cyc Bool)
  /-- HB_WRITE_CYCLE (R385): A host bus write cycle is posted, delayed or retried. -/
  | hbWriteCycle (a : Word) (ben : BitVec 4) (data : Word) (lockn : Bool)
  /-- HB_CONTROL_PAGE (R383): An access at the top 16 bytes of the window reaches HOSTIF_HB_PAGE within its cycle. -/
  | hbControlPage (a : Word) (write : Bool) (ben : BitVec 4) (data : Word)
  /-- LOCK_BROKEN (R387): A host bus lock held for 2 µs is broken, releasing the target and erroring later accesses. -/
  | lockBroken
  /-- QSPI_WRITE (R390): A QSPI WRITE frame posts 1 to 16 words, or is discarded with OVERRUN. -/
  | qspiWrite (a : Word) (ws : List Word)
  /-- QSPI_READ (R388): A QSPI READ frame returns a word with READY, RETRY or ERROR status; `quick`: the interconnect brings the data
  within the turnaround. -/
  | qspiRead (a : Cyc Word)
  /-- QSPI_STATUS (R389): A QSPI STATUS frame returns the interface state. -/
  | qspiStatus
  /-- QSPI_ID (R388): A QSPI ID frame returns SYS_ID. -/
  | qspiId
  /-- QST_BADCMD (R388): A QSPI frame with an unknown command byte is discarded and sets QST_BADCMD. -/
  | qstBadcmd (code : BitVec 8)
  /-- DELAYED_RESULT (R391): The result of a delayed read or write arrives and is held for the matching reissue. -/
  | delayedResult (k : Fin 2)
  /-- DELAYED_EXPIRY (R392): A delayed transaction expires 64 µs after its result and is discarded, kept in CW_LOST_DATA or failed. -/
  | delayedExpiry (k : Fin 2)
  /-- PREFETCH_EXPIRY (R393): Prefetched lines are discarded 64 µs after they were fetched. -/
  | prefetchExpiry (k : Fin 2)
  /-- POSTED_WRITE_FAILURE (R394): A posted write failing at its target is logged and sets the interface's read fence. -/
  | postedWriteFailure (k : Fin 3)
  /-- CLEAR (R394): CLEAR in CW_PWLOG_CTL frees every posted-write error log entry. -/
  | clear (who : Initiator) (w : Word)
  /-- MAILBOX_DATA_WRITE (R403): A write to a mailbox data word claims or fills the mailbox, or is rejected. -/
  | mailboxDataWrite (who : Initiator) (m : Fin 32) (k : Fin 16) (w : Word)
  /-- GO (R404): GO fills a mailbox, stamps it and queues its arrival or sets RESPONSE. -/
  | go (who : Initiator) (m : Fin 32) (w : Word)
  /-- RELEASE (R404): RELEASE clears FULL of a mailbox, raising SOFT6 for an outbound one. -/
  | release (who : Initiator) (m : Fin 32) (w : Word)
  /-- CLAIM_LAPSED (R403): A claim lapses MB_CLAIM_TIME after the owner's last write and sets CLAIM_LAPSED. -/
  | claimLapsed (m : Fin 32)
  /-- MB_ARRIVAL (R407): A harbourmaster read of MB_ARRIVAL pops the head of the arrival queue. -/
  | mbArrival (who : Initiator)
  /-- MB_DB_IN_SET (R410): A write of MB_DB_IN_SET sets inbound doorbell bits and raises SOFT5. -/
  | mbDbInSet (who : Initiator) (w : Word)
  /-- MB_DB_OUT_SET (R410): A write of MB_DB_OUT_SET sets outbound doorbell bits, which are interrupt sources. -/
  | mbDbOutSet (who : Initiator) (w : Word)
  /-- IDENTIFY (R417): IDENTIFY answers SYS_ID, the firmware version and the security state. -/
  | identify (m : Fin 16)
  /-- ECHO (R417): ECHO answers with its request words. -/
  | echo (m : Fin 16)
  /-- RESET (R418): The RESET command performs a reset of the named scope, answering before or after it. -/
  | reset (m : Fin 16)
  /-- RESET_BEGIN (R418): A posted CHIP, CORE or CAUSEWAY reset begins at the response's release or 1 ms after it. -/
  | resetBegin (m : Fin 16)
  /-- MB_ABORT (R416): ABORT ends a long command at its next abort point, or answers LATE or NOT_FOUND. -/
  | mbAbort (m : Fin 16)
  /-- SECURITY_SET (R423): SECURITY_SET stores ENFORCE and a public key in MRAM. -/
  | securitySet (m : Fin 16)
  /-- IMAGE_LOAD (R421): IMAGE_LOAD reads, checks and places an image of its type. -/
  | imageLoad (m : Fin 16) (ext : Option (List (BitVec 8)))
  /-- IMAGE_VERIFY (R422): IMAGE_VERIFY reads and checks an image without placing it. -/
  | imageVerify (m : Fin 16) (ext : Option (List (BitVec 8)))
  /-- MRAM_STORE (R485): MRAM_STORE writes an image into an MRAM slot atomically. -/
  | mramStore (m : Fin 16) (ext : Option (List (BitVec 8)))
  /-- MRAM_ERASE (R417): MRAM_ERASE empties an MRAM slot. -/
  | mramErase (m : Fin 16)
  /-- MRAM_LIST (R417): MRAM_LIST answers the type, version, target and length of a slot. -/
  | mramList (m : Fin 16)
  /-- BERTH_CREATE (R424): BERTH_CREATE writes a berth's engines and queues. -/
  | berthCreate (m : Fin 16)
  /-- BERTH_ASSIGN (R424): BERTH_ASSIGN writes a berth's binding. -/
  | berthAssign (m : Fin 16)
  /-- BERTH_START (R424): BERTH_START starts a berth, answering STATE if refused. -/
  | berthStart (m : Fin 16)
  /-- BERTH_STOP (R425): BERTH_STOP notifies a berth and waits GRACE for it to stop. -/
  | berthStop (m : Fin 16)
  /-- GRACE_EXPIRY (R425): A berth not stopped within GRACE is reset and RESET_USED is set. -/
  | graceExpiry (m : Fin 16)
  /-- BERTH_RELOAD (R426): BERTH_RELOAD checks a QE_CODE image, stops the berth, places the image and restarts it. -/
  | berthReload (m : Fin 16) (ext : Option (List (BitVec 8)))
  /-- TIDE_VALIDATE (R417): TIDE_VALIDATE validates a tide bank and answers its result. -/
  | tideValidate (m : Fin 16)
  /-- TIDE_SWAP (R417): TIDE_SWAP arms a swap at the given instant and answers after it. -/
  | tideSwap (m : Fin 16)
  /-- TIDE_START (R417): TIDE_START writes the base and starts the tide engine. -/
  | tideStart (m : Fin 16)
  /-- TIDE_STOP (R417): TIDE_STOP stops the tide engine. -/
  | tideStop (m : Fin 16)
  /-- PORT_SET (R417): PORT_SET writes a port's configuration and restarts negotiation. -/
  | portSet (m : Fin 16)
  /-- PORT_STATUS (R417): PORT_STATUS answers a port's link, status and preemption status. -/
  | portStatus (m : Fin 16)
  /-- STREAM_SET (R417): STREAM_SET writes a stream context through the STREAM window. -/
  | streamSet (m : Fin 16)
  /-- STREAM_GET (R417): STREAM_GET answers a stream context's counters. -/
  | streamGet (m : Fin 16)
  /-- TIME_GET (R417): TIME_GET answers the time, state and increment. -/
  | timeGet (m : Fin 16)
  /-- TIME_CORRECT (R417): TIME_CORRECT writes correction operands and TIME_CMD and answers TIME_STATUS. -/
  | timeCorrect (m : Fin 16)
  /-- TIME_STATE (R417): TIME_STATE writes TIME_CTL and TIME_WDOG. -/
  | timeState (m : Fin 16)
  /-- AXIS_MOVE (R417): AXIS_MOVE writes an axis's target and profile and starts it, answering when idle. -/
  | axisMove (m : Fin 16)
  /-- AXIS_HOME (R417): AXIS_HOME starts homing and answers when it ends. -/
  | axisHome (m : Fin 16)
  /-- AXIS_STOP (R415): AXIS_STOP writes STOP or ESTOP to an axis, always accepted. -/
  | axisStop (m : Fin 16)
  /-- GROUP_MOVE (R417): GROUP_MOVE starts a group with its members' targets and answers at its end. -/
  | groupMove (m : Fin 16)
  /-- LOG_FREEZE (R417): The LOG_FREEZE command freezes the logbook. -/
  | logFreeze (m : Fin 16)
  /-- LOG_READ (R417): The LOG_READ command answers up to 15 record words. -/
  | logRead (m : Fin 16)
  /-- LOG_THAW (R417): The LOG_THAW command ends the core-side freeze. -/
  | logThaw (m : Fin 16)
  /-- TEST_PATTERN (R449): TEST_PATTERN writes a test link's control word. -/
  | testPattern (m : Fin 16)
  /-- TEST_RESULT (R417): TEST_RESULT answers a test link's checker state and error count. -/
  | testResult (m : Fin 16)
  /-- LONG_COMMAND_END (R414): A long command ends and its response is posted in the matching outbound mailbox. -/
  | longCommandEnd (m : Fin 16)
  /-- LOG_EVENT (R431): A write of LOG_EVENT raises a firmware logbook event of code 0x80 to 0xFF. -/
  | logEvent (who : Initiator) (w : Word)
  /-- RECORD_WRITE (R437): A changed record is written to both MRAM copies within 10 ms. -/
  | recordWrite (c : BitVec 8)
  /-- BREAKWATER_WINDOW_END (R436): A breakwater window closes after BW_WIN ms. -/
  | breakwaterWindowEnd (c : BitVec 8)
  /-- FREEZE (R438): A write of FREEZE in LOG_CTL starts or ends the core-side freeze. -/
  | freeze (who : Initiator) (w : Word)
  /-- FROZEN (R438): Once every changed record is in MRAM the freeze holds and FROZEN reads 1. -/
  | frozen
  /-- STAGED_EVENTS_APPLY (R438): When the last freeze ends the staged events are applied in order. -/
  | stagedEventsApply
  /-- LOG_CMD_READ (R439): LOG_CMD READ loads a record's working copy into LOG_REC0 to LOG_REC27. -/
  | logCmdRead (who : Initiator) (w : Word)
  /-- WRITE_CFG (R439): LOG_CMD WRITE_CFG writes LOG_REC7 to LOG_REC9 into a record. -/
  | writeCfg (who : Initiator) (w : Word)
  /-- LOG_CMD_CLEAR (R439): LOG_CMD CLEAR resets a record's counts and bins, keeping its configuration. -/
  | logCmdClear (who : Initiator) (w : Word)
  /-- OPSEC_SAVE (R435): Every 16 s the lighthouse writes the operating-second count to MRAM. -/
  | opsecSave
  /-- LH_SAFEN (R441): A filtered fall or rise of LH_SAFEN enters or leaves safe state. -/
  | lhSafen (low : Bool)
  /-- SAFE_REQ (R441): A write of SAFE_REQ in LH_CTL sets LATCH. -/
  | safeReq (who : Initiator) (w : Word)
  /-- LH_CTL_RELEASE (R441): RELEASE in LH_CTL clears LATCH while HOST_RELEASE is set. -/
  | lhCtlRelease (who : Initiator) (w : Word)
  /-- SAFE_STATE_ENTRY (R442): Safe state takes effect on bridges, steps, axes, triggers and pilot pins within 2 µs. -/
  | safeStateEntry
  /-- SAFE_STATE_RELEASE (R441): Safe state ends and triggers and pilot pins return to their states. -/
  | safeStateRelease
  /-- LH_WATCHDOG_EXPIRY (R443): A lighthouse watchdog expires, raising its code and taking its ACTION. -/
  | lhWatchdogExpiry (k : Fin 25)
  /-- LH_KICK (R444): A write of LH_KICK restarts a lighthouse watchdog, or ends with a bus error. -/
  | lhKick (who : Initiator) (w : Word)
  /-- LH_FRAME_REFUSED (R446): A lighthouse port frame with a wrong CRC or length, or arriving while a request is pending, is not executed. -/
  | lhFrameRefused (f : LhFrame)
  /-- LH_NOP (R447): The lighthouse port NOP command does nothing. -/
  | lhNop (a : BitVec 16) (data : Word)
  /-- READ_LH (R447): READ_LH reads a LIGHTHOUSE register. -/
  | readLh (a : BitVec 16) (data : Word)
  /-- WRITE_LH (R447): WRITE_LH writes a LIGHTHOUSE register. -/
  | writeLh (a : BitVec 16) (data : Word)
  /-- READ_MB (R447): READ_MB reads a MAILBOX register through the core island. -/
  | readMb (a : BitVec 16) (data : Word)
  /-- WRITE_MB (R447): WRITE_MB writes a MAILBOX register as sender class 0x3. -/
  | writeMb (a : BitVec 16) (data : Word)
  /-- LH_SAFE (R447): The lighthouse port SAFE command sets LATCH. -/
  | lhSafe (a : BitVec 16) (data : Word)
  /-- LH_RELEASE (R447): The lighthouse port RELEASE command clears LATCH. -/
  | lhRelease (a : BitVec 16) (data : Word)
  /-- LH_CHIP_RESET (R447): The lighthouse port CHIP_RESET command with its key requests a CHIP reset. -/
  | lhChipReset (a : BitVec 16) (data : Word)
  /-- LH_LOG_FREEZE (R447): The lighthouse port LOG_FREEZE freezes the logbook within 1 ms. -/
  | lhLogFreeze (a : BitVec 16) (data : Word)
  /-- LH_LOG_THAW (R447): The lighthouse port LOG_THAW ends its own freeze. -/
  | lhLogThaw (a : BitVec 16) (data : Word)
  /-- LH_LOG_READ (R447): The lighthouse port LOG_READ reads a record word from MRAM. -/
  | lhLogRead (a : BitVec 16) (data : Word)
  /-- XTAL_SWITCH (R470): After 1 s of crystal oscillation lighthouse timing switches to the crystal, and back when it stops. -/
  | xtalSwitch (on : Bool)
  /-- TEST_LINK_CTL (R449): A write of TEST_LINKL_CTL restarts a link's generator and checker and takes the link from its function. -/
  | testLinkCtl (who : Initiator) (l : Fin 64) (w : Word)
  /-- LOCK_LOST (R451): A lane seeing 32 wrong bits in 64 loses lock and sets LOCK_LOST. -/
  | lockLost (l : Fin 64) (lane : Fin 8) (n : Nat)
  /-- TAP_RESET (R453): TRSTN or five TCK cycles with TMS high reset the TAP. -/
  | tapReset
  /-- EXTEST (R454): EXTEST makes the balls follow the boundary register. -/
  | extest
  /-- IDCODE (R453): IDCODE selects the identification register. -/
  | idcode
  /-- SAMPLE_PRELOAD (R453): SAMPLE/PRELOAD captures and loads the boundary register. -/
  | samplePreload (l : List Bool)
  /-- EXTEST_PULSE (R454): EXTEST_PULSE tests AC-coupled lanes with pulses. -/
  | extestPulse
  /-- EXTEST_TRAIN (R454): EXTEST_TRAIN tests AC-coupled lanes with trains. -/
  | extestTrain
  /-- CLAMP (R454): CLAMP holds the balls from the boundary register with the bypass path selected. -/
  | clamp
  /-- HIGHZ (R453): HIGHZ places the outputs at high impedance. -/
  | highz
  /-- DEBUG (R455): DEBUG selects the ACCESS register of the debug port. -/
  | debug
  /-- BYPASS (R453): BYPASS selects the one-bit bypass register. -/
  | bypass
  /-- ACCESS_UPDATE (R455): Update-DR of ACCESS starts a debug read or write on the interconnect. -/
  | accessUpdate (op size : Fin 4) (a : Word) (data : BitVec 64)
  /-- SYS_RESET_CHIP (R493): SYS_RESET CHIP from the debug port requests a CHIP reset. -/
  | sysResetChip (who : Initiator) (w : Word)
  /-- SYS_RESET_CORE (R493): SYS_RESET CORE from the debug port requests a CORE reset. -/
  | sysResetCore (who : Initiator) (w : Word)
  /-- VIN_VALID (R461): VIN rising through 2.65 V starts the lighthouse and the power-up sequence. -/
  | vinValid
  /-- VIN_INVALID (R461): VIN falling below 2.55 V stops the bucks and holds the device in CHIP reset. -/
  | vinInvalid
  /-- RAIL_OUT_OF_REGULATION (R464): VCORE or VANA leaving regulation enters CHIP reset and restarts the bucks. -/
  | railOutOfRegulation
  /-- BANK_DOWN (R463): A VDDIO bank falling or rising changes BANK_UP and, when falling after release, sets BANK_DOWN. -/
  | bankDown (b : Fin 8) (up : Bool)
  /-- REFCLK_FAILURE (R469): REFCLK lost for 10 µs or core PLL unlock enters CHIP reset. -/
  | refclkFailure
  /-- TSREF_LOST (R467): TSREF without an edge for 2 µs makes the time PLL fall back to REFCLK. -/
  | tsrefLost
  /-- CANREF_LOST (R468): CAN_REF without an edge for 1 µs switches the CAN island to the pilot PLL. -/
  | canrefLost
  /-- TS_SRC (R467): A write of TS_SRC switches the time PLL reference without losing a tick. -/
  | tsSrc (who : Initiator) (w : Word)
  /-- RESETN (R474): RESETN held low starts and holds a CHIP reset. -/
  | resetn (low : Bool)
  /-- CHIP_RESET (R471): A CHIP reset returns every block except MRAM, lighthouse and TAP to reset and initialises every RAM. -/
  | chipReset
  /-- CHIP_RESET_RELEASE (R478): CHIP reset is released, straps are sampled and the boot ROM starts. -/
  | chipResetRelease (boot : BitVec 3) (mode : BitVec 2) (wide : Bool)
  /-- CORE_RESET (R471): A CORE reset returns the engines, ferry, DMA and mailboxes to reset for 20 µs. -/
  | coreReset
  /-- CORE_RESET_END (R471): The CORE reset ends and the boot ROM runs again. -/
  | coreResetEnd
  /-- CAUSEWAY_RESET (R471): A CAUSEWAY reset resets all three host interfaces for 2 µs. -/
  | causewayReset
  /-- BOOT_IMAGE_START (R479): The boot ROM checks and places a harbourmaster image and starts it. -/
  | bootImageStart
  /-- AUTOLOAD (R481): Started firmware applies the valid MRAM slots and stream images, then rings doorbell bit 16. -/
  | autoload
  /-- MUSTER_COUNT (R488): A COUNT frame from the adopted or preferred originator sets the node's address and is forwarded with the counter raised. -/
  | musterCount (q : Fin 6) (bytes : List (BitVec 8))
  /-- MUSTER_BLOCK (R490): A BLOCK frame from upstream is staged in PIM and forwarded downstream, locking the address. -/
  | musterBlock (q : Fin 6) (bytes : List (BitVec 8))
  /-- MUSTER_DONE (R491): A DONE frame triggers the CRC check and start, or a REQUEST for missing blocks. -/
  | musterDone (q : Fin 6) (bytes : List (BitVec 8))
  /-- MUSTER_REQUEST (R491): A REQUEST frame from downstream is forwarded upstream unchanged. -/
  | musterRequest (q : Fin 6) (bytes : List (BitVec 8))
  /-- EMU (R221): A quay engine or the harbourmaster executes a word whose BASE is reserved, including never-written IRAM and the division codes, and traps EMU. -/
  | emu (n : Fin 25)
  /-- ILLEGAL (R367): A pilot executes a word with a reserved OP, such as the zero word left by CHIP reset, and halts with ILLEGAL. -/
  | illegal (n : Fin 32) (parity : Bool)
  /-- LPI_RX (R139): The link partner enters or leaves low-power idle, changing LPI_RX and counting the receive LPI transitions and microseconds. -/
  | lpiRx (n : Fin 6) (idle : Bool)
  /-- PCIE_PERSTN_RISING (R482): PCIE_PERSTN rises and link training starts within 1 ms. -/
  | pciePerstnRising
  /-- PCIE_LINK_UP (R375): PCIe link training completes at the highest common speed and width, and LINK_UP, SPEED and WIDTH are set;
  `speed` and `width` are the partner's best, from 2.5 GT/s and ×1 upward. -/
  | pcieLinkUp (speed : Fin 4) (width : Fin 4)
  /-- CONFIGURATION_WRITE (R378): A host configuration write sets Bus Master Enable, MSI-X enable, the function mask or other configuration space fields. -/
  | configurationWrite (f : CfgField)
  /-- CAUSEWAY_RESET_END (R471): After 2 µs the CAUSEWAY reset ends and the three host interfaces run again. -/
  | causewayResetEnd
  /-- TIME_PLL_LOCKED (R467): The time PLL locks to the newly selected reference within 200 µs and TS_ACTIVE reads 1. -/
  | timePllLocked
  /-- CHECKER_LOCKED (R451): A test lane's checker locks after 64 consecutive correct bits and sets its LOCKED bit. -/
  | checkerLocked (l : Fin 64) (lane : Fin 8)
  /-- LANE_ERR (R451): A wrong bit on a locked test lane counts in TEST_LINKL_ERR and sets the lane's LANE_ERR bit. -/
  | laneErr (l : Fin 64) (lane : Fin 8) (n : Nat)
  /-- LOG_OPERATION_END (R439): A LOG_CMD operation ends within 1 µs and BUSY clears. -/
  | logOperationEnd
  /-- LH_FREEZE_TIMEOUT (R447): If MRAM is not current 1 ms after a lighthouse port LOG_FREEZE, the freeze holds at that instant with MRAM as it stands. -/
  | lhFreezeTimeout
  /-- OPERATING_SECOND (R435): Each second of the lighthouse clock with VIN in range raises LH_OPSEC by 1, saturating. -/
  | operatingSecond
  /-- LIGHTHOUSE_POWER_LOSS (R461): VIN falling below 2.0 V holds the lighthouse and the whole device in reset, so that the lighthouse state is lost until it powers up again. -/
  | lighthousePowerLoss
  deriving DecidableEq, Repr

end Sys2Proof
end

