-- ==== Sys2Proof/WellFormed.lean ====
section
/-! DEFINITION. Well-formed commands: what an operand may be beyond its type. A command from outside carries bytes as numbers, a width, a
count or a list; these are the values that the spec's interfaces can produce. -/
namespace Sys2Proof

/-- A list of bytes. -/
def bytesOk (l : List Nat) : Bool := l.all (· < 256)

/-- The width of a memory access (R13). -/
def widthOk (n : Nat) : Bool := [1, 2, 4, 8, 16].contains n
/-- The width of an atomic operand (R16, R235, R377). -/
def atomOk (n : Nat) : Bool := n == 4 || n == 8

/-- An operation on the interconnect. -/
def BusOp.wf : BusOp → Bool
  | .read n => widthOk n
  | .write n _ => widthOk n
  | .swap n _ => atomOk n
  | .tas n => atomOk n
  | .cas n _ _ => atomOk n

/-- A memory line: the addresses are 32 bits wide. -/
def lineOk (l : Nat) : Bool := l < 2 ^ 28

/-- What arrives at a port. -/
def RxPart.wf : RxPart → Bool
  | .start _ b _ => bytesOk b
  | .more b => bytesOk b
  | .finish _ => true
  | .whole _ b _ _ => bytesOk b
  | .hand _ => true

/-- What a start of link comes to: abilities are one register's field. -/
def LinkEnd.wf : LinkEnd → Bool
  | .up _ a _ => a < 2 ^ 16
  | .halfDuplex a => a < 2 ^ 16

/-- Data bytes of a data length code (R268, ISO 11898-1). -/
def dlcBytes (fdf : Bool) (dlc : Nat) : Nat :=
  if dlc ≤ 8 then dlc else if fdf then [12, 16, 20, 24, 32, 48, 64].getD (dlc - 9) 64 else 8

/-- A CAN frame: its data as its code says; a remote frame is classic and carries none; the bit-rate switch and the error state
indicator are of FD frames; a standard identifier has 11 bits. -/
def CanFrame.wf (f : CanFrame) : Bool :=
  bytesOk f.data && f.data.length == (if f.rtr then 0 else dlcBytes f.fdf f.dlc.val) && !(f.rtr && f.fdf)
    && (f.fdf || (!f.brs && !f.esi)) && (f.ide || f.id.val < 2048)

/-- What a controller sees of a frame. -/
def CanRx.wf : CanRx → Bool
  | .start id ide => ide || id.val < 2048
  | .valid f => f.wf
  | .error _ => true

/-- A transmission. -/
def CanTx.wf : CanTx → Bool
  | .lost id ide => ide || id.val < 2048
  | _ => true

/-- A frame of the lighthouse port: eight clocks a byte. -/
def LhFrame.wf (f : LhFrame) : Bool := f.bytes.length == f.clocks / 8

/-- A command is well formed. -/
def Instr.wf : Instr → Bool
  | .interconnectAccess _ _ op _ _ => op.wf
  | .busTimeout _ _ op => op.wf
  | .outboundRequest _ a op => op.wf && 2 ^ 31 ≤ a.toNat
  | .correctionWriteBack l => lineOk l
  | .dredgerPass soft hard => soft.all lineOk && hard.all lineOk
  | .frameReceive _ part => part.wf
  | .linkUp _ fin => fin.wf
  | .lhFrameRefused f => f.wf
  | .pfcFrame _ _ times => times.length == 8
  | .canTransmit _ part => part.wf
  | .canReceive _ part => part.wf
  | .pcieMwr _ _ dws _ => 1 ≤ dws.length && dws.length ≤ 64
  | .pcieMrd _ _ bes => 1 ≤ bes.val.length && bes.val.length ≤ 1024
  | .pcieAtomicop _ _ bytes _ _ _ => atomOk bytes
  | .musterCount _ b => b.length ≤ 1500
  | .musterBlock _ b => b.length ≤ 1500
  | .musterDone _ b => b.length ≤ 1500
  | .musterRequest _ b => b.length ≤ 1500
  | _ => true

end Sys2Proof
end

