-- ==== Sys2Proof/Decode.lean ====
section
/-! DEFINITION. The operation table gives its rows no bits: the block has no instruction words, and its commands come with their operands. -/
namespace Sys2Proof

/-- The command that a word of the operation table spells: none, since no row of the table has bits. -/
def decodeTableWord (_nbits _w : Nat) : Option Instr := none

end Sys2Proof
end

