-- ==== Sys2Proof/Config.lean ====
section
/-! DEFINITION. What the spec leaves open: free values, opaque constants that nothing can evaluate. Each is applied to
a counter of the state (`State.free`) or to the operands it depends on, and is named in the assumption log. -/
namespace Sys2Proof.Config

/-- A byte of a setting or count that the system record of MRAM holds (R435, R483): byte k of the operating seconds and of the power cycles,
ENFORCE, byte k of key i, bytes of the MAC address and of MUSTER_ETYPE, MUSTER_PAIR, MUSTER_MODE. -/
inductive NvCell where
  | ops (k : Nat) | pcc (k : Nat) | enforce | key (i k : Nat) | mac (k : Nat) | etype (k : Nat) | pair | mode
  deriving DecidableEq, Repr

/-- What a byte of the system record holds, none where it is plain memory: the record's layout is not stated (log 116). -/
opaque sysCell : Nat → Option NvCell

/-- A 32-bit value the spec does not state (log 2). -/
opaque freeWord : Nat → BitVec 32

/-- A number the spec does not state: a choice the spec leaves to the hardware (log 2). -/
opaque freeNat : Nat → Nat

/-- A byte the spec does not state (log 2). -/
opaque freeByte : Nat → BitVec 8

/-- A byte of the frame descriptor that the switch keeps ahead of a frame, by the frame's number and the byte's place (log 2). -/
opaque descByte : Nat → Nat → BitVec 8

/-- The level that the generator of a link test gives a lane at a tick where no pattern is selected, PATTERN being 0 (log 60). -/
opaque testPin : Nat → Nat → Nat → Bool

/-- The register from which a lane's pseudo-random pattern starts: link and lane (log 60). -/
opaque prbsSeed : Nat → Nat → Nat

/-- The bit of TEST_LINKL_USER that a generator sends n bits after its restart, by n mod 32 (log 60). -/
opaque userBit : Nat → Nat

/-- The upper four bits that Capture-IR loads: the spec states none (log 72). -/
opaque irCapture : Nat → Bool

/-- How many cells the boundary register has (log 110). -/
opaque boundaryLength : Nat

/-- The ball whose level a cell of the boundary register captures, none for a cell that captures none (log 110). -/
opaque cellBall : Nat → Option Nat

/-- The place in the boundary register of the cell that gives a ball its level: the order is the BSDL file's (R453, log 110). -/
opaque boundaryCell : Nat → Nat

/-- The boundary register drives a ball, as its output cells stand (log 110). -/
opaque boundaryDrives : List Bool → Nat → Bool

/-- A truth value the spec does not state (log 2). -/
opaque freeBool : Nat → Bool

end Sys2Proof.Config
end

