-- ==== Sys2Proof/Machine/Fld.lean ====
section
/-! DEFINITION. Bit fields of a register, its access codes (R8) and the row of a register map. Helpers on
natural numbers read as bits and as signed numbers stand here too. -/
namespace Sys2Proof.Machine

/-- A bit range [hi:lo] of a register. -/
structure Fld where
  hi : Nat
  lo : Nat
  deriving DecidableEq, Repr

/-- The access codes of R8; `cnt` is the counter of R22, RW in its table and cleared only by a write of zero. -/
inductive Acc where
  | rw | ro | w1c | w1s | wo | rwl | cnt
  deriving DecidableEq, Repr

/-- One field row of a register table. -/
structure FldRow where
  fld : Fld
  acc : Acc
  rst : Nat
  deriving DecidableEq, Repr

/-- One register row: block offset, instance strides and counts, fields. -/
structure RegRow where
  off  : Nat
  dims : List (Nat × Nat)
  flds : List FldRow
  deriving DecidableEq, Repr

/-- Bits [hi:lo] of a natural number. -/
def bitsOf (hi lo n : Nat) : Nat := (n >>> lo) % 2 ^ (hi - lo + 1)

/-- Bit i of a natural number. -/
def bitOf (i n : Nat) : Bool := n.testBit i

/-- The field's value in a word. -/
def Fld.get (f : Fld) (w : Word) : Nat := bitsOf f.hi f.lo w.toNat

/-- Replace bits [hi:lo] of `n` by the low bits of `v`. -/
def putBits (hi lo n v : Nat) : Nat :=
  (n >>> (hi + 1)) <<< (hi + 1) + (v % 2 ^ (hi - lo + 1)) <<< lo + n % 2 ^ lo

/-- The word with the field set to `v` modulo its width. -/
def Fld.put (f : Fld) (w : Word) (v : Nat) : Word := w32 (putBits f.hi f.lo w.toNat v)

/-- The bits of the field, as a mask. -/
def Fld.mask (f : Fld) : Word := w32 ((2 ^ (f.hi - f.lo + 1) - 1) <<< f.lo)

/-- A natural number below 2^n read as a signed n-bit number. -/
def sgn (n v : Nat) : Int := let u := v % 2 ^ n; if u < 2 ^ (n - 1) then (u : Int) else (u : Int) - (2 ^ n : Nat)

/-- A signed number modulo 2^n. -/
def unsgn (n : Nat) (v : Int) : Nat := (v % ((2 ^ n : Nat) : Int)).toNat

/-- 1 for true. -/
def b2n (b : Bool) : Nat := if b then 1 else 0

end Sys2Proof.Machine
end

