-- ==== Sys2Proof/Machine/Crc.lean ====
section
/-! DEFINITION. Check sums the chapters use: CRC-32 of IEEE 802.3 (R225, R433, R485), the CRC-16 forms of R225,
CRC-8 of the lighthouse port (R446), the ones' complement sum (R226), and little- and big-endian byte lists (R7). -/
namespace Sys2Proof.Machine

/-- One bit of a reflected CRC with polynomial `p`. -/
def crcStepR (p c : Nat) : Nat := if c % 2 = 1 then (c / 2) ^^^ p else c / 2

/-- One byte of a reflected CRC. -/
def crcByteR (p c b : Nat) : Nat :=
  crcStepR p (crcStepR p (crcStepR p (crcStepR p (crcStepR p (crcStepR p (crcStepR p (crcStepR p (c ^^^ b))))))))

/-- CRC-32 of IEEE 802.3 carried on from the running value `c`, in the form without complements. -/
def crc32On (c : Nat) (bs : List Nat) : Nat := bs.foldl (crcByteR 0xEDB88320) c

/-- CRC-32 of IEEE 802.3 over bytes. -/
def crc32 (bs : List Nat) : Nat := (crc32On 0xFFFFFFFF bs) ^^^ 0xFFFFFFFF

/-- One bit of a CRC-8 with polynomial 0x07, most significant bit first. -/
def crc8Step (c : Nat) : Nat := if c ≥ 128 then ((c * 2) % 256) ^^^ 0x07 else c * 2

/-- One byte of that CRC-8. -/
def crc8Byte (c b : Nat) : Nat :=
  crc8Step (crc8Step (crc8Step (crc8Step (crc8Step (crc8Step (crc8Step (crc8Step (c ^^^ b))))))))

/-- CRC-8 of R446. -/
def crc8 (bs : List Nat) : Nat := bs.foldl crc8Byte 0

/-- `n` bytes of `v`, least significant first (R7). -/
def leBytes : Nat → Nat → List Nat
  | 0, _ => []
  | n + 1, v => v % 256 :: leBytes n (v / 256)

/-- The number whose bytes, least significant first, are given. -/
def ofLe : List Nat → Nat
  | [] => 0
  | b :: t => b % 256 + 256 * ofLe t

/-- `n` bytes of `v`, most significant first. -/
def beBytes (n v : Nat) : List Nat := (leBytes n v).reverse

/-- The number whose bytes, most significant first, are given. -/
def ofBe (bs : List Nat) : Nat := bs.foldl (fun a b => a * 256 + b % 256) 0

/-- `n` elements from position `i`, missing ones read 0. -/
def slice (bs : List Nat) (i n : Nat) : List Nat := (List.range n).map (fun k => bs.getD (i + k) 0)

/-- A big-endian field of `n` bytes at offset `i`. -/
def beAt (bs : List Nat) (i n : Nat) : Nat := ofBe (slice bs i n)

/-- A little-endian field of `n` bytes at offset `i`. -/
def leAt (bs : List Nat) (i n : Nat) : Nat := ofLe (slice bs i n)

/-- Replace the bytes from `i` on by `v`, as far as the list reaches. -/
def splice (bs : List Nat) (i : Nat) (v : List Nat) : List Nat :=
  bs.take i ++ (v.take (bs.length - i)) ++ bs.drop (i + v.length)

end Sys2Proof.Machine
end

