-- ==== Sys2Proof/Machine/Regs.lean ====
section
/-! DEFINITION. The address of every register (R9, R17 and the chapters' register tables) and the place of every field in it. A register repeated per instance takes the instance numbers. -/
namespace Sys2Proof.Machine

/-- SYS_ID (00 R3). -/
def SYS_ID : Nat := 0x40000000
def SYS_ID_PART : Fld := ⟨31, 16⟩
def SYS_ID_REV_MAJOR : Fld := ⟨15, 12⟩
def SYS_ID_REV_MINOR : Fld := ⟨11, 8⟩
def SYS_ID_GRADE : Fld := ⟨7, 4⟩
/-- SYS_STATUS (17 R493). -/
def SYS_STATUS : Nat := 0x40000004
def SYS_STATUS_CFG_REJECT : Fld := ⟨0, 0⟩
def SYS_STATUS_TSREF_LOST : Fld := ⟨1, 1⟩
def SYS_STATUS_CANREF_LOST : Fld := ⟨2, 2⟩
def SYS_STATUS_BANK_DOWN : Fld := ⟨3, 3⟩
def SYS_STATUS_MUSTER_OVF : Fld := ⟨4, 4⟩
def SYS_STATUS_MUSTER_CLASH : Fld := ⟨5, 5⟩
def SYS_STATUS_FALLBACK : Fld := ⟨6, 6⟩
/-- SYS_REJECT_ADDR (17 R493). -/
def SYS_REJECT_ADDR : Nat := 0x40000008
def SYS_REJECT_ADDR_ADDR : Fld := ⟨31, 0⟩
/-- SYS_EVENT (17 R493). -/
def SYS_EVENT : Nat := 0x4000000C
def SYS_EVENT_BLOCK : Fld := ⟨23, 0⟩
/-- SYS_STRAPS (17 R493). -/
def SYS_STRAPS : Nat := 0x40000010
def SYS_STRAPS_BOOT : Fld := ⟨2, 0⟩
def SYS_STRAPS_ADDR_MODE : Fld := ⟨5, 4⟩
def SYS_STRAPS_HB_WIDTH : Fld := ⟨6, 6⟩
/-- SYS_BOOT (17 R493). -/
def SYS_BOOT : Nat := 0x40000014
def SYS_BOOT_STAGE : Fld := ⟨3, 0⟩
def SYS_BOOT_ERROR : Fld := ⟨15, 8⟩
def SYS_BOOT_SLOT : Fld := ⟨21, 16⟩
/-- SYS_CLK_CFG (17 R493). -/
def SYS_CLK_CFG : Nat := 0x40000018
def SYS_CLK_CFG_TS_SRC : Fld := ⟨1, 0⟩
def SYS_CLK_CFG_TS_ACTIVE : Fld := ⟨4, 4⟩
def SYS_CLK_CFG_CAN_SRC : Fld := ⟨8, 8⟩
def SYS_CLK_CFG_CAN_ACTIVE : Fld := ⟨12, 12⟩
/-- SYS_CLK_STATUS (17 R493). -/
def SYS_CLK_STATUS : Nat := 0x4000001C
def SYS_CLK_STATUS_LOCK : Fld := ⟨4, 0⟩
/-- SYS_PWR (17 R493). -/
def SYS_PWR : Nat := 0x40000020
def SYS_PWR_VCORE_PG : Fld := ⟨0, 0⟩
def SYS_PWR_VANA_PG : Fld := ⟨1, 1⟩
def SYS_PWR_BANK_UP : Fld := ⟨15, 8⟩
/-- SYS_RESET (17 R493). -/
def SYS_RESET : Nat := 0x40000024
def SYS_RESET_CHIP : Fld := ⟨0, 0⟩
def SYS_RESET_CORE : Fld := ⟨1, 1⟩
/-- SYS_UID_LO (17 R493). -/
def SYS_UID_LO : Nat := 0x40000028
def SYS_UID_LO_UID : Fld := ⟨31, 0⟩
/-- SYS_UID_HI (17 R493). -/
def SYS_UID_HI : Nat := 0x4000002C
def SYS_UID_HI_UID : Fld := ⟨15, 0⟩
/-- SYS_NODE_ADDR (17 R493). -/
def SYS_NODE_ADDR : Nat := 0x40000030
def SYS_NODE_ADDR_ADDR : Fld := ⟨15, 0⟩
def SYS_NODE_ADDR_VALID : Fld := ⟨16, 16⟩
def SYS_NODE_ADDR_LOCKED : Fld := ⟨17, 17⟩
def SYS_NODE_ADDR_UPSTREAM : Fld := ⟨18, 18⟩
/-- SYS_MUSTER (17 R493). -/
def SYS_MUSTER : Nat := 0x40000034
def SYS_MUSTER_ETYPE : Fld := ⟨15, 0⟩
def SYS_MUSTER_PAIR : Fld := ⟨17, 16⟩
def SYS_MUSTER_MODE : Fld := ⟨22, 20⟩
/-- LH_CTL (16 R457). -/
def LH_CTL : Nat := 0x40010000
def LH_CTL_SAFE_REQ : Fld := ⟨0, 0⟩
def LH_CTL_RELEASE : Fld := ⟨1, 1⟩
/-- LH_STATE (16 R457). -/
def LH_STATE : Nat := 0x40010004
def LH_STATE_SAFE : Fld := ⟨0, 0⟩
def LH_STATE_LATCH : Fld := ⟨1, 1⟩
def LH_STATE_SAFEN : Fld := ⟨2, 2⟩
def LH_STATE_XTAL : Fld := ⟨3, 3⟩
/-- LH_FAULT (16 R457). -/
def LH_FAULT : Nat := 0x40010008
def LH_FAULT_SAFE_PIN : Fld := ⟨0, 0⟩
def LH_FAULT_SAFE_WDOG : Fld := ⟨1, 1⟩
def LH_FAULT_SAFE_CMD : Fld := ⟨2, 2⟩
def LH_FAULT_WDOG_HM : Fld := ⟨3, 3⟩
def LH_FAULT_WDOG_BERTH : Fld := ⟨4, 4⟩
def LH_FAULT_FRAME : Fld := ⟨5, 5⟩
/-- LH_FAULT_MASK (16 R457). -/
def LH_FAULT_MASK : Nat := 0x4001000C
def LH_FAULT_MASK_EN : Fld := ⟨5, 0⟩
/-- LH_CFG (16 R457). -/
def LH_CFG : Nat := 0x40010010
def LH_CFG_HOST_RELEASE : Fld := ⟨0, 0⟩
/-- LH_RESET_CAUSE (16 R457). -/
def LH_RESET_CAUSE : Nat := 0x40010014
def LH_RESET_CAUSE_SCOPE : Fld := ⟨3, 0⟩
def LH_RESET_CAUSE_SOURCE : Fld := ⟨7, 4⟩
/-- LH_RESET_HIST (16 R457). -/
def LH_RESET_HIST : Nat := 0x40010018
def LH_RESET_HIST_SEEN : Fld := ⟨6, 0⟩
/-- LH_OPSEC (16 R457). -/
def LH_OPSEC : Nat := 0x4001001C
def LH_OPSEC_SECONDS : Fld := ⟨31, 0⟩
/-- LH_PCC (16 R457). -/
def LH_PCC : Nat := 0x40010020
def LH_PCC_COUNT : Fld := ⟨31, 0⟩
/-- LH_KICK (16 R457). -/
def LH_KICK : Nat := 0x40010024
def LH_KICK_INDEX : Fld := ⟨4, 0⟩
/-- LH_WDOG_EXP (16 R457). -/
def LH_WDOG_EXP : Nat := 0x40010028
def LH_WDOG_EXP_EXPIRED : Fld := ⟨24, 0⟩
/-- LH_WDOGw (16 R457). -/
def LH_WDOG (i : Nat) : Nat := 0x40010100 + i * 0x4
def LH_WDOG_TIMEOUT : Fld := ⟨13, 0⟩
def LH_WDOG_ACTION : Fld := ⟨18, 16⟩
def LH_WDOG_LOCK : Fld := ⟨24, 24⟩
/-- MBm_DATAw (15 R429). -/
def MB_DATA (i : Nat) (j : Nat) : Nat := 0x40020000 + i * 0x80 + j * 0x4
def MB_DATA_DATA : Fld := ⟨31, 0⟩
/-- MBm_CTL (15 R429). -/
def MB_CTL (i : Nat) : Nat := 0x40020040 + i * 0x80
def MB_CTL_GO : Fld := ⟨0, 0⟩
def MB_CTL_RELEASE : Fld := ⟨1, 1⟩
def MB_CTL_FULL : Fld := ⟨8, 8⟩
def MB_CTL_CLAIMED : Fld := ⟨9, 9⟩
/-- MBm_STAMP (15 R429). -/
def MB_STAMP (i : Nat) : Nat := 0x40020044 + i * 0x80
def MB_STAMP_CLASS : Fld := ⟨31, 28⟩
def MB_STAMP_INSTANCE : Fld := ⟨27, 16⟩
def MB_STAMP_SEQ : Fld := ⟨15, 0⟩
/-- MB_STATUS (15 R429). -/
def MB_STATUS : Nat := 0x40021000
def MB_STATUS_REJECT : Fld := ⟨0, 0⟩
def MB_STATUS_CLAIM_LAPSED : Fld := ⟨1, 1⟩
def MB_STATUS_ARRIVED : Fld := ⟨2, 2⟩
def MB_STATUS_RESPONSE : Fld := ⟨3, 3⟩
def MB_STATUS_DB_IN : Fld := ⟨4, 4⟩
/-- MB_ARRIVAL (15 R429). -/
def MB_ARRIVAL : Nat := 0x40021004
def MB_ARRIVAL_MAILBOX : Fld := ⟨3, 0⟩
def MB_ARRIVAL_VALID : Fld := ⟨31, 31⟩
/-- MB_FULL (15 R429). -/
def MB_FULL : Nat := 0x40021008
def MB_FULL_FULL : Fld := ⟨31, 0⟩
/-- MB_CLAIMED (15 R429). -/
def MB_CLAIMED : Nat := 0x4002100C
def MB_CLAIMED_CLAIMED : Fld := ⟨31, 0⟩
/-- MB_CLAIM_TIME (15 R429). -/
def MB_CLAIM_TIME : Nat := 0x40021010
def MB_CLAIM_TIME_US : Fld := ⟨15, 0⟩
/-- MB_REJECT_CNT (15 R429). -/
def MB_REJECT_CNT : Nat := 0x40021014
def MB_REJECT_CNT_COUNT : Fld := ⟨31, 0⟩
/-- MB_REJECT_INFO (15 R429). -/
def MB_REJECT_INFO : Nat := 0x40021018
def MB_REJECT_INFO_MAILBOX : Fld := ⟨4, 0⟩
def MB_REJECT_INFO_CAUSE : Fld := ⟨9, 8⟩
def MB_REJECT_INFO_INSTANCE : Fld := ⟨27, 16⟩
def MB_REJECT_INFO_CLASS : Fld := ⟨31, 28⟩
/-- MB_DB_IN (15 R429). -/
def MB_DB_IN : Nat := 0x40021020
def MB_DB_IN_BELL : Fld := ⟨31, 0⟩
/-- MB_DB_IN_SET (15 R429). -/
def MB_DB_IN_SET : Nat := 0x40021024
def MB_DB_IN_SET_SET : Fld := ⟨31, 0⟩
/-- MB_DB_OUT (15 R429). -/
def MB_DB_OUT : Nat := 0x40021028
def MB_DB_OUT_BELL : Fld := ⟨31, 0⟩
/-- MB_DB_OUT_SET (15 R429). -/
def MB_DB_OUT_SET : Nat := 0x4002102C
def MB_DB_OUT_SET_SET : Fld := ⟨31, 0⟩
/-- CW_STATUS (14 R399). -/
def CW_STATUS : Nat := 0x40030000
def CW_STATUS_PW_FAIL : Fld := ⟨0, 0⟩
def CW_STATUS_LOG_OVF : Fld := ⟨1, 1⟩
def CW_STATUS_DISCARD_SE : Fld := ⟨2, 2⟩
def CW_STATUS_LOCK_BROKEN : Fld := ⟨3, 3⟩
def CW_STATUS_OUT_STARVED : Fld := ⟨4, 4⟩
def CW_STATUS_LATE_CPL : Fld := ⟨5, 5⟩
/-- CW_FENCE (14 R399). -/
def CW_FENCE : Nat := 0x40030004
def CW_FENCE_PCIE : Fld := ⟨0, 0⟩
def CW_FENCE_HB : Fld := ⟨1, 1⟩
def CW_FENCE_QSPI : Fld := ⟨2, 2⟩
/-- CW_LOST_DATA (14 R399). -/
def CW_LOST_DATA : Nat := 0x40030010
def CW_LOST_DATA_DATA : Fld := ⟨31, 0⟩
/-- CW_LOST_ADDR (14 R399). -/
def CW_LOST_ADDR : Nat := 0x40030014
def CW_LOST_ADDR_ADDR : Fld := ⟨31, 0⟩
/-- CW_LOST_INFO (14 R399). -/
def CW_LOST_INFO : Nat := 0x40030018
def CW_LOST_INFO_BEN : Fld := ⟨3, 0⟩
def CW_LOST_INFO_IF : Fld := ⟨17, 16⟩
/-- CW_LOST_CNT (14 R399). -/
def CW_LOST_CNT : Nat := 0x4003001C
def CW_LOST_CNT_COUNT : Fld := ⟨31, 0⟩
/-- CW_DR_EXPIRED (14 R399). -/
def CW_DR_EXPIRED : Nat := 0x40030020
def CW_DR_EXPIRED_COUNT : Fld := ⟨31, 0⟩
/-- CW_LOCK_BROKEN (14 R399). -/
def CW_LOCK_BROKEN : Nat := 0x40030024
def CW_LOCK_BROKEN_COUNT : Fld := ⟨31, 0⟩
/-- CW_OUT_RETRY (14 R399). -/
def CW_OUT_RETRY : Nat := 0x40030028
def CW_OUT_RETRY_COUNT : Fld := ⟨31, 0⟩
/-- CW_PWLOG_CTL (14 R399). -/
def CW_PWLOG_CTL : Nat := 0x40030030
def CW_PWLOG_CTL_CLEAR : Fld := ⟨0, 0⟩
def CW_PWLOG_CTL_COUNT : Fld := ⟨20, 16⟩
/-- CW_PWLOGi_ADDR (14 R399). -/
def CW_PWLOG_ADDR (i : Nat) : Nat := 0x40030040 + i * 0x8
def CW_PWLOG_ADDR_ADDR : Fld := ⟨31, 0⟩
/-- CW_PWLOGi_INFO (14 R399). -/
def CW_PWLOG_INFO (i : Nat) : Nat := 0x40030044 + i * 0x8
def CW_PWLOG_INFO_SEQ : Fld := ⟨15, 0⟩
def CW_PWLOG_INFO_IF : Fld := ⟨17, 16⟩
def CW_PWLOG_INFO_CAUSE : Fld := ⟨23, 20⟩
def CW_PWLOG_INFO_VALID : Fld := ⟨31, 31⟩
/-- CW_OWINw_CTL (14 R399). -/
def CW_OWIN_CTL (i : Nat) : Nat := 0x40030100 + i * 0x10
def CW_OWIN_CTL_EN : Fld := ⟨0, 0⟩
def CW_OWIN_CTL_PREF : Fld := ⟨1, 1⟩
/-- CW_OWINw_LO (14 R399). -/
def CW_OWIN_LO (i : Nat) : Nat := 0x40030104 + i * 0x10
def CW_OWIN_LO_ADDR : Fld := ⟨31, 28⟩
/-- CW_OWINw_HI (14 R399). -/
def CW_OWIN_HI (i : Nat) : Nat := 0x40030108 + i * 0x10
def CW_OWIN_HI_ADDR : Fld := ⟨31, 0⟩
/-- TIME_CTL (02 R58). -/
def TIME_CTL : Nat := 0x40040000
def TIME_CTL_STATE : Fld := ⟨1, 0⟩
/-- TIME_CMD (02 R58). -/
def TIME_CMD : Nat := 0x40040004
def TIME_CMD_STEP : Fld := ⟨0, 0⟩
def TIME_CMD_SET : Fld := ⟨1, 1⟩
def TIME_CMD_INC : Fld := ⟨2, 2⟩
def TIME_CMD_KICK : Fld := ⟨3, 3⟩
def TIME_CMD_FORCE_JUMP : Fld := ⟨8, 8⟩
def TIME_CMD_DISARM : Fld := ⟨9, 9⟩
/-- TIME_STATUS (02 R58). -/
def TIME_STATUS : Nat := 0x40040008
def TIME_STATUS_JUMP_REFUSED : Fld := ⟨0, 0⟩
def TIME_STATUS_HOLDOVER_ENTERED : Fld := ⟨1, 1⟩
/-- TIME_NOW_FRAC (02 R57). -/
def TIME_NOW_FRAC : Nat := 0x40040010
def TIME_NOW_FRAC_FRAC : Fld := ⟨15, 0⟩
/-- TIME_NOW_NS (02 R57). -/
def TIME_NOW_NS : Nat := 0x40040014
def TIME_NOW_NS_NS : Fld := ⟨29, 0⟩
/-- TIME_NOW_SEC_LO (02 R57). -/
def TIME_NOW_SEC_LO : Nat := 0x40040018
def TIME_NOW_SEC_LO_SEC : Fld := ⟨31, 0⟩
/-- TIME_NOW_SEC_HI (02 R57). -/
def TIME_NOW_SEC_HI : Nat := 0x4004001C
def TIME_NOW_SEC_HI_SEC : Fld := ⟨15, 0⟩
/-- TIME_INC_LO (02 R57). -/
def TIME_INC_LO : Nat := 0x40040020
def TIME_INC_LO_FRAC : Fld := ⟨31, 0⟩
/-- TIME_INC_HI (02 R57). -/
def TIME_INC_HI : Nat := 0x40040024
def TIME_INC_HI_INT : Fld := ⟨7, 0⟩
/-- TIME_STEP_LO (02 R57). -/
def TIME_STEP_LO : Nat := 0x40040028
def TIME_STEP_LO_STEP : Fld := ⟨31, 0⟩
/-- TIME_STEP_HI (02 R57). -/
def TIME_STEP_HI : Nat := 0x4004002C
def TIME_STEP_HI_STEP : Fld := ⟨15, 0⟩
/-- TIME_SET_FRAC (02 R57). -/
def TIME_SET_FRAC : Nat := 0x40040030
def TIME_SET_FRAC_FRAC : Fld := ⟨15, 0⟩
/-- TIME_SET_NS (02 R57). -/
def TIME_SET_NS : Nat := 0x40040034
def TIME_SET_NS_NS : Fld := ⟨29, 0⟩
/-- TIME_SET_SEC_LO (02 R57). -/
def TIME_SET_SEC_LO : Nat := 0x40040038
def TIME_SET_SEC_LO_SEC : Fld := ⟨31, 0⟩
/-- TIME_SET_SEC_HI (02 R57). -/
def TIME_SET_SEC_HI : Nat := 0x4004003C
def TIME_SET_SEC_HI_SEC : Fld := ⟨15, 0⟩
/-- TIME_JUMP_LIMIT (02 R57). -/
def TIME_JUMP_LIMIT : Nat := 0x40040040
def TIME_JUMP_LIMIT_LIMIT : Fld := ⟨29, 0⟩
/-- TIME_REFUSED_LO (02 R57). -/
def TIME_REFUSED_LO : Nat := 0x40040044
def TIME_REFUSED_LO_VALUE : Fld := ⟨31, 0⟩
/-- TIME_REFUSED_HI (02 R57). -/
def TIME_REFUSED_HI : Nat := 0x40040048
def TIME_REFUSED_HI_VALUE : Fld := ⟨15, 0⟩
def TIME_REFUSED_HI_KIND : Fld := ⟨31, 31⟩
/-- TIME_REFUSED_CNT (02 R57). -/
def TIME_REFUSED_CNT : Nat := 0x4004004C
def TIME_REFUSED_CNT_COUNT : Fld := ⟨31, 0⟩
/-- TIME_WDOG (02 R57). -/
def TIME_WDOG : Nat := 0x40040050
def TIME_WDOG_INTERVAL : Fld := ⟨23, 0⟩
/-- TIME_PTPn_CTL (02 R59). -/
def TIME_PTP_CTL (i : Nat) : Nat := 0x40040100 + i * 0x20
def TIME_PTP_CTL_TC_MODE : Fld := ⟨1, 0⟩
def TIME_PTP_CTL_ONE_STEP : Fld := ⟨2, 2⟩
def TIME_PTP_CTL_TXTS_EN : Fld := ⟨3, 3⟩
def TIME_PTP_CTL_L2_EN : Fld := ⟨4, 4⟩
def TIME_PTP_CTL_UDP4_EN : Fld := ⟨5, 5⟩
def TIME_PTP_CTL_UDP6_EN : Fld := ⟨6, 6⟩
/-- TIME_PTPn_LINK_DELAY (02 R59). -/
def TIME_PTP_LINK_DELAY (i : Nat) : Nat := 0x40040104 + i * 0x20
def TIME_PTP_LINK_DELAY_DELAY : Fld := ⟨31, 0⟩
/-- TIME_PTPn_TXTS_KEY (02 R59). -/
def TIME_PTP_TXTS_KEY (i : Nat) : Nat := 0x40040108 + i * 0x20
def TIME_PTP_TXTS_KEY_VALID : Fld := ⟨31, 31⟩
def TIME_PTP_TXTS_KEY_MSG_TYPE : Fld := ⟨27, 24⟩
def TIME_PTP_TXTS_KEY_DOMAIN : Fld := ⟨23, 16⟩
def TIME_PTP_TXTS_KEY_SEQ_ID : Fld := ⟨15, 0⟩
/-- TIME_PTPn_TXTS_NS (02 R59). -/
def TIME_PTP_TXTS_NS (i : Nat) : Nat := 0x4004010C + i * 0x20
def TIME_PTP_TXTS_NS_NS : Fld := ⟨31, 2⟩
def TIME_PTP_TXTS_NS_QUARTER : Fld := ⟨1, 0⟩
/-- TIME_PTPn_TXTS_SEC (02 R59). -/
def TIME_PTP_TXTS_SEC (i : Nat) : Nat := 0x40040110 + i * 0x20
def TIME_PTP_TXTS_SEC_SEC : Fld := ⟨31, 0⟩
/-- TIME_PTPn_STATUS (02 R59). -/
def TIME_PTP_STATUS (i : Nat) : Nat := 0x40040114 + i * 0x20
def TIME_PTP_STATUS_TXTS_OVERFLOW : Fld := ⟨0, 0⟩
def TIME_PTP_STATUS_CORR_SAT : Fld := ⟨1, 1⟩
def TIME_PTP_STATUS_TXTS_READY : Fld := ⟨2, 2⟩
def TIME_PTP_STATUS_TXTS_LEVEL : Fld := ⟨12, 8⟩
/-- TIME_PTPn_TXTS_LOST (02 R59). -/
def TIME_PTP_TXTS_LOST (i : Nat) : Nat := 0x40040118 + i * 0x20
def TIME_PTP_TXTS_LOST_COUNT : Fld := ⟨31, 0⟩
/-- TTRIGn_CTL (02 R60). -/
def TTRIG_CTL (i : Nat) : Nat := 0x40040200 + i * 0x20
def TTRIG_CTL_MODE : Fld := ⟨1, 0⟩
def TTRIG_CTL_POLARITY : Fld := ⟨2, 2⟩
def TTRIG_CTL_SAFE_LEVEL : Fld := ⟨3, 3⟩
def TTRIG_CTL_PULSE : Fld := ⟨4, 4⟩
def TTRIG_CTL_SKIP : Fld := ⟨16, 16⟩
/-- TTRIGn_START_NS (02 R60). -/
def TTRIG_START_NS (i : Nat) : Nat := 0x40040204 + i * 0x20
def TTRIG_START_NS_NS : Fld := ⟨29, 0⟩
/-- TTRIGn_START_SEC (02 R60). -/
def TTRIG_START_SEC (i : Nat) : Nat := 0x40040208 + i * 0x20
def TTRIG_START_SEC_SEC : Fld := ⟨31, 0⟩
/-- TTRIGn_PERIOD (02 R60). -/
def TTRIG_PERIOD (i : Nat) : Nat := 0x4004020C + i * 0x20
def TTRIG_PERIOD_PERIOD : Fld := ⟨31, 0⟩
/-- TTRIGn_WIDTH (02 R60). -/
def TTRIG_WIDTH (i : Nat) : Nat := 0x40040210 + i * 0x20
def TTRIG_WIDTH_WIDTH : Fld := ⟨15, 0⟩
/-- TCAPn_CTL (02 R60). -/
def TCAP_CTL (i : Nat) : Nat := 0x40040400 + i * 0x20
def TCAP_CTL_EDGE : Fld := ⟨1, 0⟩
def TCAP_CTL_MODE : Fld := ⟨3, 2⟩
/-- TCAPn_TS_NS (02 R60). -/
def TCAP_TS_NS (i : Nat) : Nat := 0x40040404 + i * 0x20
def TCAP_TS_NS_VALID : Fld := ⟨31, 31⟩
def TCAP_TS_NS_EDGE : Fld := ⟨30, 30⟩
def TCAP_TS_NS_NS : Fld := ⟨29, 0⟩
/-- TCAPn_TS_SEC (02 R60). -/
def TCAP_TS_SEC (i : Nat) : Nat := 0x40040408 + i * 0x20
def TCAP_TS_SEC_SEC : Fld := ⟨31, 0⟩
/-- TCAPn_STATUS (02 R60). -/
def TCAP_STATUS (i : Nat) : Nat := 0x4004040C + i * 0x20
def TCAP_STATUS_CAPTURED : Fld := ⟨0, 0⟩
def TCAP_STATUS_OVERFLOW : Fld := ⟨1, 1⟩
def TCAP_STATUS_WINDOW_OPEN : Fld := ⟨2, 2⟩
def TCAP_STATUS_LEVEL : Fld := ⟨11, 8⟩
/-- TCAPn_LOST (02 R60). -/
def TCAP_LOST (i : Nat) : Nat := 0x40040410 + i * 0x20
def TCAP_LOST_COUNT : Fld := ⟨31, 0⟩
/-- TIDE_CTL (03 R92). -/
def TIDE_CTL : Nat := 0x40050000
def TIDE_CTL_RUN : Fld := ⟨0, 0⟩
def TIDE_CTL_START_BANK : Fld := ⟨1, 1⟩
def TIDE_CTL_ACTIVE_BANK : Fld := ⟨4, 4⟩
def TIDE_CTL_RUNNING : Fld := ⟨5, 5⟩
/-- TIDE_CMD (03 R92). -/
def TIDE_CMD : Nat := 0x40050004
def TIDE_CMD_VALIDATE_A : Fld := ⟨0, 0⟩
def TIDE_CMD_VALIDATE_B : Fld := ⟨1, 1⟩
def TIDE_CMD_SWAP_ARM : Fld := ⟨4, 4⟩
def TIDE_CMD_SWAP_DISARM : Fld := ⟨5, 5⟩
/-- TIDE_STATUS (03 R92). -/
def TIDE_STATUS : Nat := 0x40050008
def TIDE_STATUS_WRAP : Fld := ⟨0, 0⟩
def TIDE_STATUS_SWAP_DONE : Fld := ⟨1, 1⟩
def TIDE_STATUS_SWAP_REFUSED : Fld := ⟨2, 2⟩
def TIDE_STATUS_DISARM_LATE : Fld := ⟨3, 3⟩
def TIDE_STATUS_VALID_FAIL : Fld := ⟨4, 4⟩
def TIDE_STATUS_VALID_DONE : Fld := ⟨5, 5⟩
def TIDE_STATUS_START_REFUSED : Fld := ⟨6, 6⟩
def TIDE_STATUS_HAND_EMPTY : Fld := ⟨7, 7⟩
def TIDE_STATUS_HAND_TAINT : Fld := ⟨8, 8⟩
def TIDE_STATUS_HAND_DEFER : Fld := ⟨9, 9⟩
def TIDE_STATUS_STALE : Fld := ⟨10, 10⟩
def TIDE_STATUS_DROP : Fld := ⟨11, 11⟩
def TIDE_STATUS_STEP_CATCHUP : Fld := ⟨12, 12⟩
def TIDE_STATUS_MARK : Fld := ⟨13, 13⟩
def TIDE_STATUS_DEMOTED : Fld := ⟨14, 14⟩
def TIDE_STATUS_OVERRUN : Fld := ⟨15, 15⟩
/-- TIDE_BASE_NS (03 R92). -/
def TIDE_BASE_NS : Nat := 0x40050010
def TIDE_BASE_NS_NS : Fld := ⟨29, 0⟩
/-- TIDE_BASE_SEC (03 R92). -/
def TIDE_BASE_SEC : Nat := 0x40050014
def TIDE_BASE_SEC_SEC : Fld := ⟨31, 0⟩
/-- TIDE_BASE_CNT (03 R92). -/
def TIDE_BASE_CNT : Nat := 0x40050018
def TIDE_BASE_CNT_COUNT : Fld := ⟨31, 0⟩
/-- TIDE_CYCLE_CNT (03 R92). -/
def TIDE_CYCLE_CNT : Nat := 0x4005001C
def TIDE_CYCLE_CNT_COUNT : Fld := ⟨31, 0⟩
/-- TIDE_CYCLE (03 R92). -/
def TIDE_CYCLE : Nat := 0x40050020
def TIDE_CYCLE_LENGTH : Fld := ⟨29, 0⟩
/-- TIDE_SWAP_AT_NS (03 R92). -/
def TIDE_SWAP_AT_NS : Nat := 0x40050024
def TIDE_SWAP_AT_NS_NS : Fld := ⟨29, 0⟩
/-- TIDE_SWAP_AT_SEC (03 R92). -/
def TIDE_SWAP_AT_SEC : Nat := 0x40050028
def TIDE_SWAP_AT_SEC_SEC : Fld := ⟨31, 0⟩
/-- TIDE_WIN_TOL (03 R92). -/
def TIDE_WIN_TOL : Nat := 0x4005002C
def TIDE_WIN_TOL_TOL : Fld := ⟨12, 0⟩
/-- TIDE_MARK_IDX (03 R92). -/
def TIDE_MARK_IDX : Nat := 0x40050030
def TIDE_MARK_IDX_INDEX : Fld := ⟨12, 0⟩
def TIDE_MARK_IDX_BANK : Fld := ⟨13, 13⟩
/-- TIDE_DROP_LAST (03 R92). -/
def TIDE_DROP_LAST : Nat := 0x40050034
def TIDE_DROP_LAST_INDEX : Fld := ⟨12, 0⟩
def TIDE_DROP_LAST_BANK : Fld := ⟨13, 13⟩
def TIDE_DROP_LAST_REASON : Fld := ⟨19, 16⟩
/-- TIDE_BANKn_CYCLE (03 R92). -/
def TIDE_BANK_CYCLE (i : Nat) : Nat := 0x40050040 + i * 0x10
def TIDE_BANK_CYCLE_LENGTH : Fld := ⟨29, 0⟩
/-- TIDE_BANKn_LEN (03 R92). -/
def TIDE_BANK_LEN (i : Nat) : Nat := 0x40050044 + i * 0x10
def TIDE_BANK_LEN_LEN : Fld := ⟨13, 0⟩
/-- TIDE_BANKn_STATE (03 R92). -/
def TIDE_BANK_STATE (i : Nat) : Nat := 0x40050048 + i * 0x10
def TIDE_BANK_STATE_STATE : Fld := ⟨2, 0⟩
/-- TIDE_BANKn_FAIL (03 R92). -/
def TIDE_BANK_FAIL (i : Nat) : Nat := 0x4005004C + i * 0x10
def TIDE_BANK_FAIL_INDEX : Fld := ⟨12, 0⟩
def TIDE_BANK_FAIL_REASON : Fld := ⟨23, 16⟩
/-- TIDE_GUARDn (03 R92). -/
def TIDE_GUARD (i : Nat) : Nat := 0x40050060 + i * 0x4
def TIDE_GUARD_GUARD : Fld := ⟨15, 0⟩
/-- TIDE_HB_CMD (03 R92). -/
def TIDE_HB_CMD : Nat := 0x40050080
def TIDE_HB_CMD_BUFFER : Fld := ⟨7, 0⟩
def TIDE_HB_CMD_OP : Fld := ⟨9, 8⟩
/-- TIDE_WINn_EARLY (03 R92). -/
def TIDE_WIN_EARLY (i : Nat) : Nat := 0x40050100 + i * 0x20
def TIDE_WIN_EARLY_COUNT : Fld := ⟨31, 0⟩
/-- TIDE_WINn_LATE (03 R92). -/
def TIDE_WIN_LATE (i : Nat) : Nat := 0x40050104 + i * 0x20
def TIDE_WIN_LATE_COUNT : Fld := ⟨31, 0⟩
/-- TIDE_WINn_STOW_EARLY (03 R92). -/
def TIDE_WIN_STOW_EARLY (i : Nat) : Nat := 0x40050108 + i * 0x20
def TIDE_WIN_STOW_EARLY_COUNT : Fld := ⟨31, 0⟩
/-- TIDE_WINn_STOW_LATE (03 R92). -/
def TIDE_WIN_STOW_LATE (i : Nat) : Nat := 0x4005010C + i * 0x20
def TIDE_WIN_STOW_LATE_COUNT : Fld := ⟨31, 0⟩
/-- TIDE_WINn_EXTRA (03 R92). -/
def TIDE_WIN_EXTRA (i : Nat) : Nat := 0x40050110 + i * 0x20
def TIDE_WIN_EXTRA_COUNT : Fld := ⟨31, 0⟩
/-- TIDE_WINn_OVERRUN (03 R92). -/
def TIDE_WIN_OVERRUN (i : Nat) : Nat := 0x40050114 + i * 0x20
def TIDE_WIN_OVERRUN_COUNT : Fld := ⟨31, 0⟩
/-- TIDE_WINn_DEV (03 R92). -/
def TIDE_WIN_DEV (i : Nat) : Nat := 0x40050118 + i * 0x20
def TIDE_WIN_DEV_DEV : Fld := ⟨31, 0⟩
/-- TIDE_HAND_SKIP (03 R92). -/
def TIDE_HAND_SKIP : Nat := 0x40050200
def TIDE_HAND_SKIP_COUNT : Fld := ⟨31, 0⟩
/-- TIDE_STALE (03 R92). -/
def TIDE_STALE : Nat := 0x40050204
def TIDE_STALE_COUNT : Fld := ⟨31, 0⟩
/-- TIDE_DROP (03 R92). -/
def TIDE_DROP : Nat := 0x40050208
def TIDE_DROP_COUNT : Fld := ⟨31, 0⟩
/-- TIDE_CATCHUP (03 R92). -/
def TIDE_CATCHUP : Nat := 0x4005020C
def TIDE_CATCHUP_COUNT : Fld := ⟨31, 0⟩
/-- TIDE_CYCLES_SKIPPED (03 R92). -/
def TIDE_CYCLES_SKIPPED : Nat := 0x40050210
def TIDE_CYCLES_SKIPPED_COUNT : Fld := ⟨31, 0⟩
/-- TIDE_HBn_CFG (03 R93). -/
def TIDE_HB_CFG (i : Nat) : Nat := 0x40051000 + i * 0x8
def TIDE_HB_CFG_BASE : Fld := ⟨15, 0⟩
def TIDE_HB_CFG_SIZE_M1 : Fld := ⟨23, 16⟩
def TIDE_HB_CFG_WRITER : Fld := ⟨24, 24⟩
def TIDE_HB_CFG_READER : Fld := ⟨25, 25⟩
def TIDE_HB_CFG_EN : Fld := ⟨31, 31⟩
/-- TIDE_HBn_STATE (03 R93). -/
def TIDE_HB_STATE (i : Nat) : Nat := 0x40051004 + i * 0x8
def TIDE_HB_STATE_W : Fld := ⟨1, 0⟩
def TIDE_HB_STATE_P : Fld := ⟨3, 2⟩
def TIDE_HB_STATE_R : Fld := ⟨5, 4⟩
def TIDE_HB_STATE_FRESH : Fld := ⟨8, 8⟩
def TIDE_HB_STATE_WRITTEN : Fld := ⟨9, 9⟩
def TIDE_HB_STATE_TAINT : Fld := ⟨10, 10⟩
def TIDE_HB_STATE_SEQ : Fld := ⟨31, 16⟩
/-- SW_STATUS (04 R124). -/
def SW_STATUS : Nat := 0x40060000
def SW_STATUS_LEARN_FULL : Fld := ⟨0, 0⟩
def SW_STATUS_MOVE : Fld := ⟨1, 1⟩
def SW_STATUS_POOL_EMPTY : Fld := ⟨2, 2⟩
def SW_STATUS_C7_NOCELL : Fld := ⟨3, 3⟩
def SW_STATUS_CT_OVERSIZE : Fld := ⟨4, 4⟩
def SW_STATUS_FCS_STOMP : Fld := ⟨5, 5⟩
def SW_STATUS_THRESH_DROP : Fld := ⟨6, 6⟩
def SW_STATUS_RED_TX_DROP : Fld := ⟨7, 7⟩
/-- SW_C7_RESERVE (04 R124). -/
def SW_C7_RESERVE : Nat := 0x40060004
def SW_C7_RESERVE_CELLS : Fld := ⟨11, 0⟩
/-- SW_POOL_FREE (04 R124). -/
def SW_POOL_FREE : Nat := 0x40060008
def SW_POOL_FREE_SHARED : Fld := ⟨13, 0⟩
def SW_POOL_FREE_RESERVE : Fld := ⟨27, 16⟩
/-- SW_AGE_TIME (04 R124). -/
def SW_AGE_TIME : Nat := 0x4006000C
def SW_AGE_TIME_SECONDS : Fld := ⟨19, 0⟩
/-- SW_RED_CTL (04 R124). -/
def SW_RED_CTL : Nat := 0x40060010
def SW_RED_CTL_PAIR0 : Fld := ⟨1, 0⟩
def SW_RED_CTL_PAIR1 : Fld := ⟨3, 2⟩
def SW_RED_CTL_PAIR2 : Fld := ⟨5, 4⟩
def SW_RED_CTL_REMOVE_RCT : Fld := ⟨8, 8⟩
/-- SW_NODE_MAC_LO (04 R124). -/
def SW_NODE_MAC_LO : Nat := 0x40060014
def SW_NODE_MAC_LO_MAC : Fld := ⟨31, 0⟩
/-- SW_NODE_MAC_HI (04 R124). -/
def SW_NODE_MAC_HI : Nat := 0x40060018
def SW_NODE_MAC_HI_MAC : Fld := ⟨15, 0⟩
/-- SW_REDn_TXSEQ (04 R124). -/
def SW_RED_TXSEQ (i : Nat) : Nat := 0x40060020 + i * 0x4
def SW_RED_TXSEQ_SEQ : Fld := ⟨15, 0⟩
/-- SW_RED_UNMATCHED (04 R124). -/
def SW_RED_UNMATCHED : Nat := 0x40060030
def SW_RED_UNMATCHED_COUNT : Fld := ⟨31, 0⟩
/-- SW_MAC_CMD (04 R124). -/
def SW_MAC_CMD : Nat := 0x40060040
def SW_MAC_CMD_OP : Fld := ⟨2, 0⟩
def SW_MAC_CMD_INDEX : Fld := ⟨27, 16⟩
def SW_MAC_CMD_FULL : Fld := ⟨29, 29⟩
def SW_MAC_CMD_FOUND : Fld := ⟨30, 30⟩
def SW_MAC_CMD_BUSY : Fld := ⟨31, 31⟩
/-- SW_MAC_KEY_LO (04 R124). -/
def SW_MAC_KEY_LO : Nat := 0x40060044
def SW_MAC_KEY_LO_MAC : Fld := ⟨31, 0⟩
/-- SW_MAC_KEY_HI (04 R124). -/
def SW_MAC_KEY_HI : Nat := 0x40060048
def SW_MAC_KEY_HI_MAC : Fld := ⟨15, 0⟩
def SW_MAC_KEY_HI_FID : Fld := ⟨27, 16⟩
/-- SW_MAC_DATA (04 R124). -/
def SW_MAC_DATA : Nat := 0x4006004C
def SW_MAC_DATA_PORTS : Fld := ⟨7, 0⟩
def SW_MAC_DATA_STATIC : Fld := ⟨8, 8⟩
def SW_MAC_DATA_VALID : Fld := ⟨9, 9⟩
def SW_MAC_DATA_AGE : Fld := ⟨31, 16⟩
/-- SW_VLAN_CMD (04 R124). -/
def SW_VLAN_CMD : Nat := 0x40060050
def SW_VLAN_CMD_VID : Fld := ⟨11, 0⟩
def SW_VLAN_CMD_OP : Fld := ⟨17, 16⟩
/-- SW_VLAN_DATA (04 R124). -/
def SW_VLAN_DATA : Nat := 0x40060054
def SW_VLAN_DATA_MEMBER : Fld := ⟨7, 0⟩
def SW_VLAN_DATA_UNTAG : Fld := ⟨15, 8⟩
def SW_VLAN_DATA_FID : Fld := ⟨27, 16⟩
def SW_VLAN_DATA_LEARN : Fld := ⟨28, 28⟩
def SW_VLAN_DATA_VALID : Fld := ⟨31, 31⟩
/-- SW_PORTn_CFG (04 R124). -/
def SW_PORT_CFG (i : Nat) : Nat := 0x40060100 + i * 0x10
def SW_PORT_CFG_PVID : Fld := ⟨11, 0⟩
def SW_PORT_CFG_DEF_CLASS : Fld := ⟨14, 12⟩
def SW_PORT_CFG_LEARN : Fld := ⟨16, 16⟩
def SW_PORT_CFG_INGRESS_FILTER : Fld := ⟨17, 17⟩
def SW_PORT_CFG_DROP_UNTAGGED : Fld := ⟨18, 18⟩
/-- SW_PORTn_PCP_MAP (04 R124). -/
def SW_PORT_PCP_MAP (i : Nat) : Nat := 0x40060104 + i * 0x10
def SW_PORT_PCP_MAP_CLASS0 : Fld := ⟨2, 0⟩
def SW_PORT_PCP_MAP_CLASS1 : Fld := ⟨5, 3⟩
def SW_PORT_PCP_MAP_CLASS2 : Fld := ⟨8, 6⟩
def SW_PORT_PCP_MAP_CLASS3 : Fld := ⟨11, 9⟩
def SW_PORT_PCP_MAP_CLASS4 : Fld := ⟨14, 12⟩
def SW_PORT_PCP_MAP_CLASS5 : Fld := ⟨17, 15⟩
def SW_PORT_PCP_MAP_CLASS6 : Fld := ⟨20, 18⟩
def SW_PORT_PCP_MAP_CLASS7 : Fld := ⟨23, 21⟩
/-- SW_PORTn_FCS_STOMPED (04 R124). -/
def SW_PORT_FCS_STOMPED (i : Nat) : Nat := 0x40060200 + i * 0x20
def SW_PORT_FCS_STOMPED_COUNT : Fld := ⟨31, 0⟩
/-- SW_PORTn_FCS_DROP (04 R124). -/
def SW_PORT_FCS_DROP (i : Nat) : Nat := 0x40060204 + i * 0x20
def SW_PORT_FCS_DROP_COUNT : Fld := ⟨31, 0⟩
/-- SW_PORTn_VLAN_DROP (04 R124). -/
def SW_PORT_VLAN_DROP (i : Nat) : Nat := 0x40060208 + i * 0x20
def SW_PORT_VLAN_DROP_COUNT : Fld := ⟨31, 0⟩
/-- SW_PORTn_NOCELL (04 R124). -/
def SW_PORT_NOCELL (i : Nat) : Nat := 0x4006020C + i * 0x20
def SW_PORT_NOCELL_COUNT : Fld := ⟨31, 0⟩
/-- SW_PORTn_CT_OVERSIZE (04 R124). -/
def SW_PORT_CT_OVERSIZE (i : Nat) : Nat := 0x40060210 + i * 0x20
def SW_PORT_CT_OVERSIZE_COUNT : Fld := ⟨31, 0⟩
/-- SW_Qn_ECN_MARK (04 R124). -/
def SW_Q_ECN_MARK (i : Nat) : Nat := 0x40060800 + i * 0x20
def SW_Q_ECN_MARK_CELLS : Fld := ⟨13, 0⟩
/-- SW_Qn_DROP (04 R124). -/
def SW_Q_DROP (i : Nat) : Nat := 0x40060804 + i * 0x20
def SW_Q_DROP_CELLS : Fld := ⟨13, 0⟩
/-- SW_Qn_DEPTH (04 R124). -/
def SW_Q_DEPTH (i : Nat) : Nat := 0x40060808 + i * 0x20
def SW_Q_DEPTH_CELLS : Fld := ⟨13, 0⟩
/-- SW_Qn_DROPPED (04 R124). -/
def SW_Q_DROPPED (i : Nat) : Nat := 0x4006080C + i * 0x20
def SW_Q_DROPPED_COUNT : Fld := ⟨31, 0⟩
/-- SW_Qn_MARKED (04 R124). -/
def SW_Q_MARKED (i : Nat) : Nat := 0x40060810 + i * 0x20
def SW_Q_MARKED_COUNT : Fld := ⟨31, 0⟩
/-- STREAM_SEL (04 R127). -/
def STREAM_SEL : Nat := 0x40070000
def STREAM_SEL_CONTEXT : Fld := ⟨9, 0⟩
/-- STREAM_CMD (04 R127). -/
def STREAM_CMD : Nat := 0x40070004
def STREAM_CMD_OP : Fld := ⟨2, 0⟩
def STREAM_CMD_BUSY : Fld := ⟨31, 31⟩
/-- STREAM_STATUS (04 R127). -/
def STREAM_STATUS : Nat := 0x40070008
def STREAM_STATUS_BLOCKED : Fld := ⟨0, 0⟩
def STREAM_STATUS_DUP : Fld := ⟨1, 1⟩
def STREAM_STATUS_OUT_OF_WINDOW : Fld := ⟨2, 2⟩
/-- STREAM_KEY_LO (04 R127). -/
def STREAM_KEY_LO : Nat := 0x40070010
def STREAM_KEY_LO_MAC : Fld := ⟨31, 0⟩
/-- STREAM_KEY_HI (04 R127). -/
def STREAM_KEY_HI : Nat := 0x40070014
def STREAM_KEY_HI_MAC : Fld := ⟨15, 0⟩
def STREAM_KEY_HI_VID : Fld := ⟨27, 16⟩
def STREAM_KEY_HI_ID_TYPE : Fld := ⟨29, 28⟩
def STREAM_KEY_HI_ANY_VID : Fld := ⟨30, 30⟩
/-- STREAM_FILTER (04 R127). -/
def STREAM_FILTER : Nat := 0x40070018
def STREAM_FILTER_MAX_SDU : Fld := ⟨13, 0⟩
def STREAM_FILTER_BLOCK_OVERSIZE : Fld := ⟨14, 14⟩
def STREAM_FILTER_CLASS : Fld := ⟨18, 16⟩
def STREAM_FILTER_CLASS_OVR : Fld := ⟨19, 19⟩
def STREAM_FILTER_RED_EN : Fld := ⟨20, 20⟩
def STREAM_FILTER_METER_EN : Fld := ⟨21, 21⟩
def STREAM_FILTER_DROP_YELLOW : Fld := ⟨22, 22⟩
def STREAM_FILTER_MARK_RED_EN : Fld := ⟨23, 23⟩
def STREAM_FILTER_SDU_BLOCKED : Fld := ⟨24, 24⟩
def STREAM_FILTER_RED_BLOCKED : Fld := ⟨25, 25⟩
/-- STREAM_CIR (04 R127). -/
def STREAM_CIR : Nat := 0x4007001C
def STREAM_CIR_RATE : Fld := ⟨23, 0⟩
/-- STREAM_CBS (04 R127). -/
def STREAM_CBS : Nat := 0x40070020
def STREAM_CBS_BYTES : Fld := ⟨23, 0⟩
/-- STREAM_EIR (04 R127). -/
def STREAM_EIR : Nat := 0x40070024
def STREAM_EIR_RATE : Fld := ⟨23, 0⟩
def STREAM_EIR_COUPLING : Fld := ⟨31, 31⟩
/-- STREAM_EBS (04 R127). -/
def STREAM_EBS : Nat := 0x40070028
def STREAM_EBS_BYTES : Fld := ⟨23, 0⟩
/-- STREAM_SEQ_RESET (04 R127). -/
def STREAM_SEQ_RESET : Nat := 0x4007002C
def STREAM_SEQ_RESET_MS : Fld := ⟨15, 0⟩
/-- STREAM_MATCHED (04 R127). -/
def STREAM_MATCHED : Nat := 0x40070040
def STREAM_MATCHED_COUNT : Fld := ⟨31, 0⟩
/-- STREAM_PASSED (04 R127). -/
def STREAM_PASSED : Nat := 0x40070044
def STREAM_PASSED_COUNT : Fld := ⟨31, 0⟩
/-- STREAM_SDU_DROP (04 R127). -/
def STREAM_SDU_DROP : Nat := 0x40070048
def STREAM_SDU_DROP_COUNT : Fld := ⟨31, 0⟩
/-- STREAM_METER_DROP (04 R127). -/
def STREAM_METER_DROP : Nat := 0x4007004C
def STREAM_METER_DROP_COUNT : Fld := ⟨31, 0⟩
/-- STREAM_DUP_DROP (04 R127). -/
def STREAM_DUP_DROP : Nat := 0x40070050
def STREAM_DUP_DROP_COUNT : Fld := ⟨31, 0⟩
/-- STREAM_OUT_OF_WINDOW (04 R127). -/
def STREAM_OUT_OF_WINDOW : Nat := 0x40070054
def STREAM_OUT_OF_WINDOW_COUNT : Fld := ⟨31, 0⟩
/-- STREAM_YELLOW (04 R127). -/
def STREAM_YELLOW : Nat := 0x40070058
def STREAM_YELLOW_COUNT : Fld := ⟨31, 0⟩
/-- PORTn_CTL (05 R144). -/
def PORT_CTL (i : Nat) : Nat := 0x40080000 + i * 0x2000
def PORT_CTL_RESET : Fld := ⟨0, 0⟩
def PORT_CTL_RESTART_AN : Fld := ⟨2, 2⟩
def PORT_CTL_MODE : Fld := ⟨6, 4⟩
def PORT_CTL_FLUSH_ON_DOWN : Fld := ⟨12, 12⟩
/-- PORTn_LINK (05 R144). -/
def PORT_LINK (i : Nat) : Nat := 0x40080004 + i * 0x2000
def PORT_LINK_UP : Fld := ⟨0, 0⟩
def PORT_LINK_SPEED : Fld := ⟨2, 1⟩
def PORT_LINK_LPI_TX : Fld := ⟨3, 3⟩
def PORT_LINK_LPI_RX : Fld := ⟨4, 4⟩
def PORT_LINK_PAUSED : Fld := ⟨5, 5⟩
/-- PORTn_STATUS (05 R144). -/
def PORT_STATUS (i : Nat) : Nat := 0x40080008 + i * 0x2000
def PORT_STATUS_LINK_UP : Fld := ⟨0, 0⟩
def PORT_STATUS_LINK_DOWN : Fld := ⟨1, 1⟩
def PORT_STATUS_HD_REFUSED : Fld := ⟨2, 2⟩
def PORT_STATUS_PD_LINK : Fld := ⟨3, 3⟩
def PORT_STATUS_PAUSE_RX : Fld := ⟨4, 4⟩
def PORT_STATUS_EEE_LATE : Fld := ⟨5, 5⟩
def PORT_STATUS_MM_VERIFY_OK : Fld := ⟨6, 6⟩
def PORT_STATUS_MM_VERIFY_FAIL : Fld := ⟨7, 7⟩
def PORT_STATUS_TX_OVERSIZE : Fld := ⟨8, 8⟩
def PORT_STATUS_LINKDOWN_DROP : Fld := ⟨9, 9⟩
def PORT_STATUS_SPEED_BAD : Fld := ⟨10, 10⟩
/-- PORTn_LINK_FILTER (05 R144). -/
def PORT_LINK_FILTER (i : Nat) : Nat := 0x4008000C + i * 0x2000
def PORT_LINK_FILTER_MS : Fld := ⟨7, 0⟩
/-- PORTn_MAX_FRAME (05 R144). -/
def PORT_MAX_FRAME (i : Nat) : Nat := 0x40080010 + i * 0x2000
def PORT_MAX_FRAME_BYTES : Fld := ⟨13, 0⟩
/-- PORTn_AN_ADV (05 R144). -/
def PORT_AN_ADV (i : Nat) : Nat := 0x40080014 + i * 0x2000
def PORT_AN_ADV_ADV_10 : Fld := ⟨0, 0⟩
def PORT_AN_ADV_ADV_100 : Fld := ⟨1, 1⟩
def PORT_AN_ADV_ADV_1000 : Fld := ⟨2, 2⟩
def PORT_AN_ADV_PAUSE_SYM : Fld := ⟨4, 4⟩
def PORT_AN_ADV_PAUSE_ASYM : Fld := ⟨5, 5⟩
def PORT_AN_ADV_EEE_100 : Fld := ⟨6, 6⟩
def PORT_AN_ADV_EEE_1000 : Fld := ⟨7, 7⟩
def PORT_AN_ADV_MS_CFG : Fld := ⟨9, 8⟩
def PORT_AN_ADV_MDI : Fld := ⟨11, 10⟩
def PORT_AN_ADV_SPEED_FORCE : Fld := ⟨13, 12⟩
/-- PORTn_AN_LP (05 R144). -/
def PORT_AN_LP (i : Nat) : Nat := 0x40080018 + i * 0x2000
def PORT_AN_LP_ABILITY : Fld := ⟨7, 0⟩
def PORT_AN_LP_HD_ONLY : Fld := ⟨12, 12⟩
/-- PORTn_TAG_CTL (05 R144). -/
def PORT_TAG_CTL (i : Nat) : Nat := 0x40080020 + i * 0x2000
def PORT_TAG_CTL_TPID_OUT : Fld := ⟨15, 0⟩
def PORT_TAG_CTL_PRIO_KEEP : Fld := ⟨16, 16⟩
def PORT_TAG_CTL_EGRESS_MODE : Fld := ⟨19, 18⟩
/-- PORTn_STREAM_TAGm (05 R144). -/
def PORT_STREAM_TAG (i : Nat) (j : Nat) : Nat := 0x40080040 + i * 0x2000 + j * 0x4
def PORT_STREAM_TAG_CONTEXT : Fld := ⟨9, 0⟩
def PORT_STREAM_TAG_VID : Fld := ⟨21, 10⟩
def PORT_STREAM_TAG_PCP : Fld := ⟨24, 22⟩
def PORT_STREAM_TAG_OP : Fld := ⟨27, 26⟩
/-- PORTn_FC_CTL (05 R145). -/
def PORT_FC_CTL (i : Nat) : Nat := 0x40080060 + i * 0x2000
def PORT_FC_CTL_PAUSE_EN : Fld := ⟨0, 0⟩
def PORT_FC_CTL_PFC_EN : Fld := ⟨1, 1⟩
def PORT_FC_CTL_PAUSE_EXEMPT_C7 : Fld := ⟨2, 2⟩
/-- PORTn_FC_TX (05 R145). -/
def PORT_FC_TX (i : Nat) : Nat := 0x40080064 + i * 0x2000
def PORT_FC_TX_QUANTA : Fld := ⟨15, 0⟩
def PORT_FC_TX_PRIO : Fld := ⟨23, 16⟩
def PORT_FC_TX_SEND : Fld := ⟨24, 24⟩
/-- PORTn_FC_STATE (05 R145). -/
def PORT_FC_STATE (i : Nat) : Nat := 0x40080068 + i * 0x2000
def PORT_FC_STATE_PAUSED : Fld := ⟨7, 0⟩
/-- PORTn_EEE_CTL (05 R145). -/
def PORT_EEE_CTL (i : Nat) : Nat := 0x40080070 + i * 0x2000
def PORT_EEE_CTL_EEE_EN : Fld := ⟨0, 0⟩
def PORT_EEE_CTL_WAKE_ON_QUEUE : Fld := ⟨1, 1⟩
def PORT_EEE_CTL_TW_EFF : Fld := ⟨31, 12⟩
/-- PORTn_EEE_TW (05 R145). -/
def PORT_EEE_TW (i : Nat) : Nat := 0x40080074 + i * 0x2000
def PORT_EEE_TW_TW_SYS : Fld := ⟨19, 0⟩
/-- PORTn_EEE_IDLE (05 R145). -/
def PORT_EEE_IDLE (i : Nat) : Nat := 0x40080078 + i * 0x2000
def PORT_EEE_IDLE_US : Fld := ⟨15, 0⟩
/-- PORTn_MM_CTL (05 R145). -/
def PORT_MM_CTL (i : Nat) : Nat := 0x40080080 + i * 0x2000
def PORT_MM_CTL_PREEMPT_EN : Fld := ⟨0, 0⟩
def PORT_MM_CTL_EXPRESS_C6 : Fld := ⟨1, 1⟩
def PORT_MM_CTL_VERIFY_DIS : Fld := ⟨2, 2⟩
def PORT_MM_CTL_VERIFY_TIME : Fld := ⟨10, 3⟩
def PORT_MM_CTL_ADD_FRAG_SIZE : Fld := ⟨13, 12⟩
/-- PORTn_MM_STATUS (05 R145). -/
def PORT_MM_STATUS (i : Nat) : Nat := 0x40080084 + i * 0x2000
def PORT_MM_STATUS_VERIFY_STATE : Fld := ⟨2, 0⟩
def PORT_MM_STATUS_ACTIVE : Fld := ⟨3, 3⟩
def PORT_MM_STATUS_HOLD : Fld := ⟨4, 4⟩
def PORT_MM_STATUS_HOLD_ADVANCE : Fld := ⟨31, 16⟩
/-- PORTn_TS_ADJ_RX (05 R145). -/
def PORT_TS_ADJ_RX (i : Nat) : Nat := 0x40080090 + i * 0x2000
def PORT_TS_ADJ_RX_ADJ : Fld := ⟨31, 0⟩
/-- PORTn_TS_ADJ_TX (05 R145). -/
def PORT_TS_ADJ_TX (i : Nat) : Nat := 0x40080094 + i * 0x2000
def PORT_TS_ADJ_TX_ADJ : Fld := ⟨31, 0⟩
/-- PORTn_OCTETS_TX_LO (05 R146). -/
def PORT_OCTETS_TX_LO (i : Nat) : Nat := 0x40080200 + i * 0x2000
def PORT_OCTETS_TX_LO_COUNT : Fld := ⟨31, 0⟩
/-- PORTn_OCTETS_TX_HI (05 R146). -/
def PORT_OCTETS_TX_HI (i : Nat) : Nat := 0x40080204 + i * 0x2000
def PORT_OCTETS_TX_HI_COUNT : Fld := ⟨31, 0⟩
/-- PORTn_FRAMES_TX (05 R146). -/
def PORT_FRAMES_TX (i : Nat) : Nat := 0x40080208 + i * 0x2000
def PORT_FRAMES_TX_COUNT : Fld := ⟨31, 0⟩
/-- PORTn_MCAST_TX (05 R146). -/
def PORT_MCAST_TX (i : Nat) : Nat := 0x4008020C + i * 0x2000
def PORT_MCAST_TX_COUNT : Fld := ⟨31, 0⟩
/-- PORTn_BCAST_TX (05 R146). -/
def PORT_BCAST_TX (i : Nat) : Nat := 0x40080210 + i * 0x2000
def PORT_BCAST_TX_COUNT : Fld := ⟨31, 0⟩
/-- PORTn_PAUSE_TX (05 R146). -/
def PORT_PAUSE_TX (i : Nat) : Nat := 0x40080214 + i * 0x2000
def PORT_PAUSE_TX_COUNT : Fld := ⟨31, 0⟩
/-- PORTn_TX_OVERSIZE_DROP (05 R146). -/
def PORT_TX_OVERSIZE_DROP (i : Nat) : Nat := 0x40080218 + i * 0x2000
def PORT_TX_OVERSIZE_DROP_COUNT : Fld := ⟨31, 0⟩
/-- PORTn_LINKDOWN_DROP (05 R146). -/
def PORT_LINKDOWN_DROP (i : Nat) : Nat := 0x4008021C + i * 0x2000
def PORT_LINKDOWN_DROP_COUNT : Fld := ⟨31, 0⟩
/-- PORTn_OCTETS_RX_LO (05 R146). -/
def PORT_OCTETS_RX_LO (i : Nat) : Nat := 0x40080220 + i * 0x2000
def PORT_OCTETS_RX_LO_COUNT : Fld := ⟨31, 0⟩
/-- PORTn_OCTETS_RX_HI (05 R146). -/
def PORT_OCTETS_RX_HI (i : Nat) : Nat := 0x40080224 + i * 0x2000
def PORT_OCTETS_RX_HI_COUNT : Fld := ⟨31, 0⟩
/-- PORTn_FRAMES_RX (05 R146). -/
def PORT_FRAMES_RX (i : Nat) : Nat := 0x40080228 + i * 0x2000
def PORT_FRAMES_RX_COUNT : Fld := ⟨31, 0⟩
/-- PORTn_MCAST_RX (05 R146). -/
def PORT_MCAST_RX (i : Nat) : Nat := 0x4008022C + i * 0x2000
def PORT_MCAST_RX_COUNT : Fld := ⟨31, 0⟩
/-- PORTn_BCAST_RX (05 R146). -/
def PORT_BCAST_RX (i : Nat) : Nat := 0x40080230 + i * 0x2000
def PORT_BCAST_RX_COUNT : Fld := ⟨31, 0⟩
/-- PORTn_PAUSE_RX (05 R146). -/
def PORT_PAUSE_RX (i : Nat) : Nat := 0x40080234 + i * 0x2000
def PORT_PAUSE_RX_COUNT : Fld := ⟨31, 0⟩
/-- PORTn_FCS_ERR (05 R146). -/
def PORT_FCS_ERR (i : Nat) : Nat := 0x40080238 + i * 0x2000
def PORT_FCS_ERR_COUNT : Fld := ⟨31, 0⟩
/-- PORTn_ALIGN_ERR (05 R146). -/
def PORT_ALIGN_ERR (i : Nat) : Nat := 0x4008023C + i * 0x2000
def PORT_ALIGN_ERR_COUNT : Fld := ⟨31, 0⟩
/-- PORTn_TOO_LONG (05 R146). -/
def PORT_TOO_LONG (i : Nat) : Nat := 0x40080240 + i * 0x2000
def PORT_TOO_LONG_COUNT : Fld := ⟨31, 0⟩
/-- PORTn_RUNT (05 R146). -/
def PORT_RUNT (i : Nat) : Nat := 0x40080244 + i * 0x2000
def PORT_RUNT_COUNT : Fld := ⟨31, 0⟩
/-- PORTn_SYMBOL_ERR (05 R146). -/
def PORT_SYMBOL_ERR (i : Nat) : Nat := 0x40080248 + i * 0x2000
def PORT_SYMBOL_ERR_COUNT : Fld := ⟨31, 0⟩
/-- PORTn_UNSUP_OPCODE (05 R146). -/
def PORT_UNSUP_OPCODE (i : Nat) : Nat := 0x4008024C + i * 0x2000
def PORT_UNSUP_OPCODE_COUNT : Fld := ⟨31, 0⟩
/-- PORTn_PFC_RX (05 R146). -/
def PORT_PFC_RX (i : Nat) : Nat := 0x40080250 + i * 0x2000
def PORT_PFC_RX_COUNT : Fld := ⟨31, 0⟩
/-- PORTn_PFC_TX (05 R146). -/
def PORT_PFC_TX (i : Nat) : Nat := 0x40080254 + i * 0x2000
def PORT_PFC_TX_COUNT : Fld := ⟨31, 0⟩
/-- PORTn_LPI_TX_US (05 R146). -/
def PORT_LPI_TX_US (i : Nat) : Nat := 0x40080260 + i * 0x2000
def PORT_LPI_TX_US_COUNT : Fld := ⟨31, 0⟩
/-- PORTn_LPI_RX_US (05 R146). -/
def PORT_LPI_RX_US (i : Nat) : Nat := 0x40080264 + i * 0x2000
def PORT_LPI_RX_US_COUNT : Fld := ⟨31, 0⟩
/-- PORTn_LPI_TX_TRANS (05 R146). -/
def PORT_LPI_TX_TRANS (i : Nat) : Nat := 0x40080268 + i * 0x2000
def PORT_LPI_TX_TRANS_COUNT : Fld := ⟨31, 0⟩
/-- PORTn_LPI_RX_TRANS (05 R146). -/
def PORT_LPI_RX_TRANS (i : Nat) : Nat := 0x4008026C + i * 0x2000
def PORT_LPI_RX_TRANS_COUNT : Fld := ⟨31, 0⟩
/-- PORTn_EEE_WAIT (05 R146). -/
def PORT_EEE_WAIT (i : Nat) : Nat := 0x40080270 + i * 0x2000
def PORT_EEE_WAIT_COUNT : Fld := ⟨31, 0⟩
/-- PORTn_MM_ASSY_ERR (05 R146). -/
def PORT_MM_ASSY_ERR (i : Nat) : Nat := 0x40080280 + i * 0x2000
def PORT_MM_ASSY_ERR_COUNT : Fld := ⟨31, 0⟩
/-- PORTn_MM_SMD_ERR (05 R146). -/
def PORT_MM_SMD_ERR (i : Nat) : Nat := 0x40080284 + i * 0x2000
def PORT_MM_SMD_ERR_COUNT : Fld := ⟨31, 0⟩
/-- PORTn_MM_ASSY_OK (05 R146). -/
def PORT_MM_ASSY_OK (i : Nat) : Nat := 0x40080288 + i * 0x2000
def PORT_MM_ASSY_OK_COUNT : Fld := ⟨31, 0⟩
/-- PORTn_MM_FRAG_RX (05 R146). -/
def PORT_MM_FRAG_RX (i : Nat) : Nat := 0x4008028C + i * 0x2000
def PORT_MM_FRAG_RX_COUNT : Fld := ⟨31, 0⟩
/-- PORTn_MM_FRAG_TX (05 R146). -/
def PORT_MM_FRAG_TX (i : Nat) : Nat := 0x40080290 + i * 0x2000
def PORT_MM_FRAG_TX_COUNT : Fld := ⟨31, 0⟩
/-- PORTn_MM_HOLD (05 R146). -/
def PORT_MM_HOLD (i : Nat) : Nat := 0x40080294 + i * 0x2000
def PORT_MM_HOLD_COUNT : Fld := ⟨31, 0⟩
/-- PORTn_LINK_DOWN_CNT (05 R146). -/
def PORT_LINK_DOWN_CNT (i : Nat) : Nat := 0x40080298 + i * 0x2000
def PORT_LINK_DOWN_CNT_COUNT : Fld := ⟨31, 0⟩
/-- PORT_MDIO_CMD (05 R145). -/
def PORT_MDIO_CMD : Nat := 0x4008C000
def PORT_MDIO_CMD_OP : Fld := ⟨1, 0⟩
def PORT_MDIO_CMD_C45 : Fld := ⟨2, 2⟩
def PORT_MDIO_CMD_PHYAD : Fld := ⟨7, 3⟩
def PORT_MDIO_CMD_REG : Fld := ⟨12, 8⟩
def PORT_MDIO_CMD_BUSY : Fld := ⟨31, 31⟩
/-- PORT_MDIO_DATA (05 R145). -/
def PORT_MDIO_DATA : Nat := 0x4008C004
def PORT_MDIO_DATA_DATA : Fld := ⟨15, 0⟩
/-- PORT_MDIO_DIV (05 R145). -/
def PORT_MDIO_DIV : Nat := 0x4008C008
def PORT_MDIO_DIV_DIV : Fld := ⟨7, 0⟩
/-- STOW_STATUS (06 R169). -/
def STOW_STATUS : Nat := 0x40090000
def STOW_STATUS_MISS : Fld := ⟨0, 0⟩
def STOW_STATUS_SHORT : Fld := ⟨1, 1⟩
def STOW_STATUS_LONG : Fld := ⟨2, 2⟩
def STOW_STATUS_NOPLAN : Fld := ⟨3, 3⟩
def STOW_STATUS_POISON : Fld := ⟨4, 4⟩
def STOW_STATUS_SKIP : Fld := ⟨5, 5⟩
def STOW_STATUS_COMMIT_DONE : Fld := ⟨6, 6⟩
def STOW_STATUS_COMMIT_FAIL : Fld := ⟨7, 7⟩
/-- STOW_CMD (06 R169). -/
def STOW_CMD : Nat := 0x40090004
def STOW_CMD_PLAN : Fld := ⟨7, 0⟩
def STOW_CMD_OP : Fld := ⟨9, 8⟩
def STOW_CMD_BUSY : Fld := ⟨31, 31⟩
/-- STOW_FAIL (06 R169). -/
def STOW_FAIL : Nat := 0x40090008
def STOW_FAIL_INDEX : Fld := ⟨6, 0⟩
def STOW_FAIL_PLAN : Fld := ⟨15, 8⟩
def STOW_FAIL_REASON : Fld := ⟨23, 16⟩
/-- STOW_STAGE_SIG_LO (06 R169). -/
def STOW_STAGE_SIG_LO : Nat := 0x40090010
def STOW_STAGE_SIG_LO_DA : Fld := ⟨31, 0⟩
/-- STOW_STAGE_SIG_HI (06 R169). -/
def STOW_STAGE_SIG_HI : Nat := 0x40090014
def STOW_STAGE_SIG_HI_DA : Fld := ⟨15, 0⟩
def STOW_STAGE_SIG_HI_TYPE : Fld := ⟨31, 16⟩
/-- STOW_STAGE_CTL (06 R169). -/
def STOW_STAGE_CTL : Nat := 0x40090018
def STOW_STAGE_CTL_COUNT : Fld := ⟨7, 0⟩
def STOW_STAGE_CTL_EGRESS : Fld := ⟨15, 8⟩
def STOW_STAGE_CTL_FRAME_LEN : Fld := ⟨29, 16⟩
/-- STOW_STAGE_BASE (06 R169). -/
def STOW_STAGE_BASE : Nat := 0x4009001C
def STOW_STAGE_BASE_BASE : Fld := ⟨14, 0⟩
/-- STOWn_PROCESSED (06 R169). -/
def STOW_PROCESSED (i : Nat) : Nat := 0x40090100 + i * 0x20
def STOW_PROCESSED_COUNT : Fld := ⟨31, 0⟩
/-- STOWn_MISS (06 R169). -/
def STOW_MISS (i : Nat) : Nat := 0x40090104 + i * 0x20
def STOW_MISS_COUNT : Fld := ⟨31, 0⟩
/-- STOWn_SHORT (06 R169). -/
def STOW_SHORT (i : Nat) : Nat := 0x40090108 + i * 0x20
def STOW_SHORT_COUNT : Fld := ⟨31, 0⟩
/-- STOWn_LONG (06 R169). -/
def STOW_LONG (i : Nat) : Nat := 0x4009010C + i * 0x20
def STOW_LONG_COUNT : Fld := ⟨31, 0⟩
/-- STOWn_NOPLAN (06 R169). -/
def STOW_NOPLAN (i : Nat) : Nat := 0x40090110 + i * 0x20
def STOW_NOPLAN_COUNT : Fld := ⟨31, 0⟩
/-- STOWn_POISON (06 R169). -/
def STOW_POISON (i : Nat) : Nat := 0x40090114 + i * 0x20
def STOW_POISON_COUNT : Fld := ⟨31, 0⟩
/-- STOWn_SKIP (06 R169). -/
def STOW_SKIP (i : Nat) : Nat := 0x40090118 + i * 0x20
def STOW_SKIP_COUNT : Fld := ⟨31, 0⟩
/-- STOW_PLANp_SIG_LO (06 R169). -/
def STOW_PLAN_SIG_LO (i : Nat) : Nat := 0x40091000 + i * 0x10
def STOW_PLAN_SIG_LO_DA : Fld := ⟨31, 0⟩
/-- STOW_PLANp_SIG_HI (06 R169). -/
def STOW_PLAN_SIG_HI (i : Nat) : Nat := 0x40091004 + i * 0x10
def STOW_PLAN_SIG_HI_DA : Fld := ⟨15, 0⟩
def STOW_PLAN_SIG_HI_TYPE : Fld := ⟨31, 16⟩
/-- STOW_PLANp_CTL (06 R169). -/
def STOW_PLAN_CTL (i : Nat) : Nat := 0x40091008 + i * 0x10
def STOW_PLAN_CTL_COUNT : Fld := ⟨7, 0⟩
def STOW_PLAN_CTL_EGRESS : Fld := ⟨15, 8⟩
def STOW_PLAN_CTL_FRAME_LEN : Fld := ⟨29, 16⟩
def STOW_PLAN_CTL_VALID : Fld := ⟨31, 31⟩
/-- STOW_PLANp_BASE (06 R169). -/
def STOW_PLAN_BASE (i : Nat) : Nat := 0x4009100C + i * 0x10
def STOW_PLAN_BASE_BASE : Fld := ⟨14, 0⟩
/-- QEn_CTL (07 R202). -/
def QE_CTL (i : Nat) : Nat := 0x400A0000 + i * 0x400
def QE_CTL_START : Fld := ⟨0, 0⟩
def QE_CTL_STOP : Fld := ⟨1, 1⟩
def QE_CTL_HALT : Fld := ⟨2, 2⟩
def QE_CTL_RESUME : Fld := ⟨3, 3⟩
def QE_CTL_STEP : Fld := ⟨4, 4⟩
/-- QEn_STATE (07 R202). -/
def QE_STATE (i : Nat) : Nat := 0x400A0004 + i * 0x400
def QE_STATE_STATE : Fld := ⟨1, 0⟩
def QE_STATE_HALT_CAUSE : Fld := ⟨6, 4⟩
def QE_STATE_WAITING : Fld := ⟨7, 7⟩
def QE_STATE_PC : Fld := ⟨29, 16⟩
/-- QEn_STATUS (07 R202). -/
def QE_STATUS (i : Nat) : Nat := 0x400A0008 + i * 0x400
def QE_STATUS_TRAP : Fld := ⟨0, 0⟩
def QE_STATUS_HALTED : Fld := ⟨1, 1⟩
def QE_STATUS_MOOR_COLLIDE : Fld := ⟨2, 2⟩
def QE_STATUS_STARVED : Fld := ⟨3, 3⟩
def QE_STATUS_WDOG : Fld := ⟨4, 4⟩
def QE_STATUS_START_REFUSED : Fld := ⟨5, 5⟩
/-- QEn_CFG (07 R202). -/
def QE_CFG (i : Nat) : Nat := 0x400A000C + i * 0x400
def QE_CFG_ENTRY : Fld := ⟨11, 0⟩
def QE_CFG_RXQ : Fld := ⟨20, 12⟩
def QE_CFG_TXQ : Fld := ⟨29, 21⟩
/-- QEn_EVENT (07 R202). -/
def QE_EVENT (i : Nat) : Nat := 0x400A0010 + i * 0x400
def QE_EVENT_PENDING : Fld := ⟨31, 0⟩
/-- QEn_EVENT_SET (07 R202). -/
def QE_EVENT_SET (i : Nat) : Nat := 0x400A0014 + i * 0x400
def QE_EVENT_SET_SOFT : Fld := ⟨27, 20⟩
/-- QEn_EVENT_IE (07 R202). -/
def QE_EVENT_IE (i : Nat) : Nat := 0x400A0018 + i * 0x400
def QE_EVENT_IE_IE : Fld := ⟨31, 0⟩
/-- QEn_FQW_LO (07 R202). -/
def QE_FQW_LO (i : Nat) : Nat := 0x400A001C + i * 0x400
def QE_FQW_LO_OFFSET0 : Fld := ⟨5, 0⟩
def QE_FQW_LO_OFFSET1 : Fld := ⟨13, 8⟩
def QE_FQW_LO_OFFSET2 : Fld := ⟨21, 16⟩
def QE_FQW_LO_OFFSET3 : Fld := ⟨29, 24⟩
def QE_FQW_LO_COND0 : Fld := ⟨7, 6⟩
def QE_FQW_LO_COND1 : Fld := ⟨15, 14⟩
def QE_FQW_LO_COND2 : Fld := ⟨23, 22⟩
def QE_FQW_LO_COND3 : Fld := ⟨31, 30⟩
/-- QEn_FQW_HI (07 R202). -/
def QE_FQW_HI (i : Nat) : Nat := 0x400A0020 + i * 0x400
def QE_FQW_HI_OFFSET0 : Fld := ⟨5, 0⟩
def QE_FQW_HI_OFFSET1 : Fld := ⟨13, 8⟩
def QE_FQW_HI_OFFSET2 : Fld := ⟨21, 16⟩
def QE_FQW_HI_OFFSET3 : Fld := ⟨29, 24⟩
def QE_FQW_HI_COND0 : Fld := ⟨7, 6⟩
def QE_FQW_HI_COND1 : Fld := ⟨15, 14⟩
def QE_FQW_HI_COND2 : Fld := ⟨23, 22⟩
def QE_FQW_HI_COND3 : Fld := ⟨31, 30⟩
/-- QEn_SRCSEL (07 R202). -/
def QE_SRCSEL (i : Nat) : Nat := 0x400A0024 + i * 0x400
def QE_SRCSEL_PSIG0_PL : Fld := ⟨4, 0⟩
def QE_SRCSEL_PSIG1_PL : Fld := ⟨12, 8⟩
def QE_SRCSEL_DMAW0_CH : Fld := ⟨20, 16⟩
def QE_SRCSEL_DMAW1_CH : Fld := ⟨28, 24⟩
/-- QEn_MOOR (07 R202). -/
def QE_MOOR (i : Nat) : Nat := 0x400A0028 + i * 0x400
def QE_MOOR_FIRST : Fld := ⟨7, 0⟩
def QE_MOOR_LAST : Fld := ⟨15, 8⟩
def QE_MOOR_COLLIDE_WORD : Fld := ⟨27, 20⟩
/-- QEn_TIMER (07 R202). -/
def QE_TIMER (i : Nat) : Nat := 0x400A002C + i * 0x400
def QE_TIMER_PERIOD : Fld := ⟨23, 0⟩
/-- QEn_WDOG (07 R202). -/
def QE_WDOG (i : Nat) : Nat := 0x400A0030 + i * 0x400
def QE_WDOG_TIMEOUT : Fld := ⟨19, 0⟩
def QE_WDOG_KICK : Fld := ⟨31, 31⟩
/-- QEn_BP01 (07 R202). -/
def QE_BP01 (i : Nat) : Nat := 0x400A0034 + i * 0x400
def QE_BP01_PC0 : Fld := ⟨11, 0⟩
def QE_BP01_MODE0 : Fld := ⟨13, 12⟩
def QE_BP01_PC1 : Fld := ⟨27, 16⟩
def QE_BP01_MODE1 : Fld := ⟨29, 28⟩
/-- QEn_BP23 (07 R202). -/
def QE_BP23 (i : Nat) : Nat := 0x400A0038 + i * 0x400
def QE_BP23_PC2 : Fld := ⟨11, 0⟩
def QE_BP23_MODE2 : Fld := ⟨13, 12⟩
def QE_BP23_PC3 : Fld := ⟨27, 16⟩
def QE_BP23_MODE3 : Fld := ⟨29, 28⟩
/-- QEn_TRAP_CNT (07 R202). -/
def QE_TRAP_CNT (i : Nat) : Nat := 0x400A003C + i * 0x400
def QE_TRAP_CNT_COUNT : Fld := ⟨31, 0⟩
/-- HM_CFG (07 R202). -/
def HM_CFG : Nat := 0x400A600C
def HM_CFG_ENTRY : Fld := ⟨13, 0⟩
/-- HM_BP01 (07 R202). -/
def HM_BP01 : Nat := 0x400A6034
def HM_BP01_PC0 : Fld := ⟨13, 0⟩
def HM_BP01_MODE0 : Fld := ⟨15, 14⟩
def HM_BP01_PC1 : Fld := ⟨29, 16⟩
def HM_BP01_MODE1 : Fld := ⟨31, 30⟩
/-- HM_BP23 (07 R202). -/
def HM_BP23 : Nat := 0x400A6038
def HM_BP23_PC2 : Fld := ⟨13, 0⟩
def HM_BP23_MODE2 : Fld := ⟨15, 14⟩
def HM_BP23_PC3 : Fld := ⟨29, 16⟩
def HM_BP23_MODE3 : Fld := ⟨31, 30⟩
/-- BERTHb_CFG (07 R203). -/
def BERTH_CFG (i : Nat) : Nat := 0x400A8000 + i * 0x20
def BERTH_CFG_ENGINES : Fld := ⟨23, 0⟩
/-- BERTHb_RES (07 R203). -/
def BERTH_RES (i : Nat) : Nat := 0x400A8004 + i * 0x20
def BERTH_RES_KIND : Fld := ⟨1, 0⟩
def BERTH_RES_INDEX : Fld := ⟨6, 4⟩
def BERTH_RES_CAN : Fld := ⟨11, 8⟩
/-- BERTHb_FQ (07 R203). -/
def BERTH_FQ (i : Nat) : Nat := 0x400A8008 + i * 0x20
def BERTH_FQ_FQ_BASE : Fld := ⟨8, 0⟩
def BERTH_FQ_FQ_COUNT : Fld := ⟨22, 16⟩
/-- BERTHb_CTL (07 R203). -/
def BERTH_CTL (i : Nat) : Nat := 0x400A800C + i * 0x20
def BERTH_CTL_START : Fld := ⟨0, 0⟩
def BERTH_CTL_STOP : Fld := ⟨1, 1⟩
def BERTH_CTL_RESET : Fld := ⟨2, 2⟩
def BERTH_CTL_NOTIFY : Fld := ⟨3, 3⟩
/-- BERTHb_STATE (07 R203). -/
def BERTH_STATE (i : Nat) : Nat := 0x400A8010 + i * 0x20
def BERTH_STATE_STATE : Fld := ⟨1, 0⟩
def BERTH_STATE_RESETTING : Fld := ⟨2, 2⟩
/-- FERRY_STATUS (09 R263). -/
def FERRY_STATUS : Nat := 0x400B0000
def FERRY_STATUS_PARITY : Fld := ⟨0, 0⟩
def FERRY_STATUS_TAIL_DROP : Fld := ⟨1, 1⟩
def FERRY_STATUS_TX_BAD : Fld := ⟨2, 2⟩
def FERRY_STATUS_DISP_DROP : Fld := ⟨3, 3⟩
/-- FERRY_POOL_FREE (09 R263). -/
def FERRY_POOL_FREE : Nat := 0x400B0004
def FERRY_POOL_FREE_FREE : Fld := ⟨12, 0⟩
/-- FERRY_FLUSH (09 R263). -/
def FERRY_FLUSH : Nat := 0x400B0008
def FERRY_FLUSH_QUEUE : Fld := ⟨8, 0⟩
/-- FERRY_PARITY_CNT (09 R263). -/
def FERRY_PARITY_CNT : Nat := 0x400B000C
def FERRY_PARITY_CNT_COUNT : Fld := ⟨31, 0⟩
/-- FERRY_TX_BAD (09 R263). -/
def FERRY_TX_BAD : Nat := 0x400B0010
def FERRY_TX_BAD_COUNT : Fld := ⟨31, 0⟩
/-- FERRY_DISP_DROP (09 R263). -/
def FERRY_DISP_DROP : Nat := 0x400B0014
def FERRY_DISP_DROP_COUNT : Fld := ⟨31, 0⟩
/-- FERRY_SEL (09 R263). -/
def FERRY_SEL : Nat := 0x400B0020
def FERRY_SEL_QUEUE : Fld := ⟨8, 0⟩
/-- FERRY_Q_CFG (09 R263). -/
def FERRY_Q_CFG : Nat := 0x400B0024
def FERRY_Q_CFG_LIMIT : Fld := ⟨12, 0⟩
def FERRY_Q_CFG_EN : Fld := ⟨31, 31⟩
/-- FERRY_Q_STATE (09 R263). -/
def FERRY_Q_STATE : Nat := 0x400B0028
def FERRY_Q_STATE_CELLS : Fld := ⟨12, 0⟩
def FERRY_Q_STATE_OPEN_TAIL : Fld := ⟨13, 13⟩
def FERRY_Q_STATE_OPEN_HEAD : Fld := ⟨14, 14⟩
def FERRY_Q_STATE_PACKETS : Fld := ⟨31, 15⟩
/-- FERRY_Q_WORDS (09 R263). -/
def FERRY_Q_WORDS : Nat := 0x400B002C
def FERRY_Q_WORDS_WORDS : Fld := ⟨16, 0⟩
/-- FERRY_Q_DROP (09 R263). -/
def FERRY_Q_DROP : Nat := 0x400B0030
def FERRY_Q_DROP_COUNT : Fld := ⟨31, 0⟩
/-- FERRY_Q_CTL (09 R263). -/
def FERRY_Q_CTL : Nat := 0x400B0034
def FERRY_Q_CTL_FLUSH : Fld := ⟨0, 0⟩
/-- FERRY_DISPn (09 R263). -/
def FERRY_DISP (i : Nat) : Nat := 0x400B0100 + i * 0x4
def FERRY_DISP_QUEUE : Fld := ⟨8, 0⟩
def FERRY_DISP_QUEUE_C7 : Fld := ⟨17, 9⟩
def FERRY_DISP_QUEUE_LL : Fld := ⟨26, 18⟩
def FERRY_DISP_EN : Fld := ⟨31, 31⟩
/-- FERRY_TXQn (09 R263). -/
def FERRY_TXQ (i : Nat) : Nat := 0x400B0180 + i * 0x4
def FERRY_TXQ_QUEUE : Fld := ⟨8, 0⟩
def FERRY_TXQ_EN : Fld := ⟨31, 31⟩
/-- FQn_DATA (09 R263). -/
def FQ_DATA (i : Nat) : Nat := 0x400B2000 + i * 0x8
def FQ_DATA_WORD : Fld := ⟨31, 0⟩
/-- FQn_TAG (09 R263). -/
def FQ_TAG (i : Nat) : Nat := 0x400B2004 + i * 0x8
def FQ_TAG_VALID : Fld := ⟨0, 0⟩
def FQ_TAG_END : Fld := ⟨1, 1⟩
def FQ_TAG_POISON : Fld := ⟨2, 2⟩
def FQ_TAG_TRUNC : Fld := ⟨3, 3⟩
def FQ_TAG_VB : Fld := ⟨5, 4⟩
/-- DMAn_CTL (09 R266). -/
def DMA_CTL (i : Nat) : Nat := 0x400C0000 + i * 0x20
def DMA_CTL_START : Fld := ⟨0, 0⟩
def DMA_CTL_ABORT : Fld := ⟨1, 1⟩
/-- DMAn_CFG (09 R266). -/
def DMA_CFG (i : Nat) : Nat := 0x400C0004 + i * 0x20
def DMA_CFG_PRIO : Fld := ⟨1, 0⟩
/-- DMAn_NEXT (09 R266). -/
def DMA_NEXT (i : Nat) : Nat := 0x400C0008 + i * 0x20
def DMA_NEXT_ADDR : Fld := ⟨31, 5⟩
/-- DMAn_STATE (09 R266). -/
def DMA_STATE (i : Nat) : Nat := 0x400C000C + i * 0x20
def DMA_STATE_STATE : Fld := ⟨1, 0⟩
def DMA_STATE_CAUSE : Fld := ⟨6, 4⟩
def DMA_STATE_SIDE : Fld := ⟨8, 8⟩
def DMA_STATE_DISCARD : Fld := ⟨9, 9⟩
def DMA_STATE_PENDING : Fld := ⟨19, 16⟩
/-- DMAn_STATUS (09 R266). -/
def DMA_STATUS (i : Nat) : Nat := 0x400C0010 + i * 0x20
def DMA_STATUS_HALT : Fld := ⟨0, 0⟩
def DMA_STATUS_DESC_DONE : Fld := ⟨1, 1⟩
def DMA_STATUS_CHAIN_DONE : Fld := ⟨2, 2⟩
def DMA_STATUS_REQ_WITHDRAWN : Fld := ⟨3, 3⟩
def DMA_STATUS_REQ_OVERFLOW : Fld := ⟨4, 4⟩
def DMA_STATUS_ABORT_LATE : Fld := ⟨5, 5⟩
/-- DMAn_FAIL_ADDR (09 R266). -/
def DMA_FAIL_ADDR (i : Nat) : Nat := 0x400C0014 + i * 0x20
def DMA_FAIL_ADDR_ADDR : Fld := ⟨31, 0⟩
/-- DMAn_FAIL_DESC (09 R266). -/
def DMA_FAIL_DESC (i : Nat) : Nat := 0x400C0018 + i * 0x20
def DMA_FAIL_DESC_ADDR : Fld := ⟨31, 0⟩
/-- DMAn_HOPS (09 R266). -/
def DMA_HOPS (i : Nat) : Nat := 0x400C001C + i * 0x20
def DMA_HOPS_COUNT : Fld := ⟨31, 0⟩
/-- DMA_HOPLIMIT (09 R266). -/
def DMA_HOPLIMIT : Nat := 0x400C0400
def DMA_HOPLIMIT_LIMIT : Fld := ⟨31, 0⟩
/-- DMA_ACTIVE (09 R266). -/
def DMA_ACTIVE : Nat := 0x400C0404
def DMA_ACTIVE_CH : Fld := ⟨31, 0⟩
/-- CANn_CTL (10 R292). -/
def CAN_CTL (i : Nat) : Nat := 0x400D0000 + i * 0x2000
def CAN_CTL_MODE : Fld := ⟨1, 0⟩
def CAN_CTL_ACK_EN : Fld := ⟨2, 2⟩
def CAN_CTL_FD_EN : Fld := ⟨3, 3⟩
def CAN_CTL_TXPRIO : Fld := ⟨4, 4⟩
def CAN_CTL_AUTO_RECOVER : Fld := ⟨5, 5⟩
def CAN_CTL_NM_STD : Fld := ⟨6, 6⟩
def CAN_CTL_NM_EXT : Fld := ⟨7, 7⟩
def CAN_CTL_TXE_EN : Fld := ⟨8, 8⟩
/-- CANn_STATE (10 R292). -/
def CAN_STATE (i : Nat) : Nat := 0x400D0004 + i * 0x2000
def CAN_STATE_FC_STATE : Fld := ⟨1, 0⟩
def CAN_STATE_RECOVERING : Fld := ⟨2, 2⟩
def CAN_STATE_TEC : Fld := ⟨15, 8⟩
def CAN_STATE_REC : Fld := ⟨23, 16⟩
def CAN_STATE_TXB_BUSY : Fld := ⟨30, 28⟩
/-- CANn_STATUS (10 R292). -/
def CAN_STATUS (i : Nat) : Nat := 0x400D0008 + i * 0x2000
def CAN_STATUS_BUS_OFF : Fld := ⟨0, 0⟩
def CAN_STATUS_ERR_PASSIVE : Fld := ⟨1, 1⟩
def CAN_STATUS_WARN : Fld := ⟨2, 2⟩
def CAN_STATUS_TX_ABANDON : Fld := ⟨3, 3⟩
def CAN_STATUS_CANCEL_LATE : Fld := ⟨4, 4⟩
def CAN_STATUS_TX_BAD : Fld := ⟨5, 5⟩
/-- CANn_NBT (10 R292). -/
def CAN_NBT (i : Nat) : Nat := 0x400D000C + i * 0x2000
def CAN_NBT_BRP_M1 : Fld := ⟨4, 0⟩
def CAN_NBT_TSEG1_M1 : Fld := ⟨15, 8⟩
def CAN_NBT_TSEG2_M1 : Fld := ⟨22, 16⟩
def CAN_NBT_SJW_M1 : Fld := ⟨30, 24⟩
/-- CANn_DBT (10 R292). -/
def CAN_DBT (i : Nat) : Nat := 0x400D0010 + i * 0x2000
def CAN_DBT_DBRP_M1 : Fld := ⟨4, 0⟩
def CAN_DBT_DTSEG1_M1 : Fld := ⟨12, 8⟩
def CAN_DBT_DTSEG2_M1 : Fld := ⟨19, 16⟩
def CAN_DBT_DSJW_M1 : Fld := ⟨27, 24⟩
/-- CANn_TDC (10 R292). -/
def CAN_TDC (i : Nat) : Nat := 0x400D0014 + i * 0x2000
def CAN_TDC_TDCO : Fld := ⟨6, 0⟩
def CAN_TDC_TDC_EN : Fld := ⟨8, 8⟩
def CAN_TDC_TDCV : Fld := ⟨22, 16⟩
/-- CANn_TX_RETRY (10 R292). -/
def CAN_TX_RETRY (i : Nat) : Nat := 0x400D0018 + i * 0x2000
def CAN_TX_RETRY_LIMIT : Fld := ⟨7, 0⟩
/-- CANn_FQ (10 R292). -/
def CAN_FQ (i : Nat) : Nat := 0x400D001C + i * 0x2000
def CAN_FQ_TXQ : Fld := ⟨8, 0⟩
def CAN_FQ_RXQ0 : Fld := ⟨17, 9⟩
def CAN_FQ_RXQ1 : Fld := ⟨26, 18⟩
/-- CANn_FQ2 (10 R292). -/
def CAN_FQ2 (i : Nat) : Nat := 0x400D0020 + i * 0x2000
def CAN_FQ2_TXEQ : Fld := ⟨8, 0⟩
/-- CANn_TX_CANCEL (10 R292). -/
def CAN_TX_CANCEL (i : Nat) : Nat := 0x400D0024 + i * 0x2000
def CAN_TX_CANCEL_CANCEL : Fld := ⟨2, 0⟩
/-- CANn_TX_OK (10 R292). -/
def CAN_TX_OK (i : Nat) : Nat := 0x400D0040 + i * 0x2000
def CAN_TX_OK_COUNT : Fld := ⟨31, 0⟩
/-- CANn_RX_OK (10 R292). -/
def CAN_RX_OK (i : Nat) : Nat := 0x400D0044 + i * 0x2000
def CAN_RX_OK_COUNT : Fld := ⟨31, 0⟩
/-- CANn_ARB_LOST (10 R292). -/
def CAN_ARB_LOST (i : Nat) : Nat := 0x400D0048 + i * 0x2000
def CAN_ARB_LOST_COUNT : Fld := ⟨31, 0⟩
/-- CANn_ERR_TX (10 R292). -/
def CAN_ERR_TX (i : Nat) : Nat := 0x400D004C + i * 0x2000
def CAN_ERR_TX_COUNT : Fld := ⟨31, 0⟩
/-- CANn_ERR_RX (10 R292). -/
def CAN_ERR_RX (i : Nat) : Nat := 0x400D0050 + i * 0x2000
def CAN_ERR_RX_COUNT : Fld := ⟨31, 0⟩
/-- CANn_TX_ABANDONED (10 R292). -/
def CAN_TX_ABANDONED (i : Nat) : Nat := 0x400D0054 + i * 0x2000
def CAN_TX_ABANDONED_COUNT : Fld := ⟨31, 0⟩
/-- CANn_TX_BAD_CNT (10 R292). -/
def CAN_TX_BAD_CNT (i : Nat) : Nat := 0x400D0058 + i * 0x2000
def CAN_TX_BAD_CNT_COUNT : Fld := ⟨31, 0⟩
/-- CANn_BUS_OFF_CNT (10 R292). -/
def CAN_BUS_OFF_CNT (i : Nat) : Nat := 0x400D005C + i * 0x2000
def CAN_BUS_OFF_CNT_COUNT : Fld := ⟨31, 0⟩
/-- CANn_SFLTk (10 R292). -/
def CAN_SFLT (i : Nat) (j : Nat) : Nat := 0x400D0400 + i * 0x2000 + j * 0x4
def CAN_SFLT_ID : Fld := ⟨10, 0⟩
def CAN_SFLT_MASK : Fld := ⟨26, 16⟩
def CAN_SFLT_RXQ_SEL : Fld := ⟨28, 28⟩
def CAN_SFLT_REJECT : Fld := ⟨29, 29⟩
def CAN_SFLT_EN : Fld := ⟨31, 31⟩
/-- CANn_XFLTk_ID (10 R292). -/
def CAN_XFLT_ID (i : Nat) (j : Nat) : Nat := 0x400D0600 + i * 0x2000 + j * 0x8
def CAN_XFLT_ID_ID : Fld := ⟨28, 0⟩
def CAN_XFLT_ID_EN : Fld := ⟨31, 31⟩
/-- CANn_XFLTk_MASK (10 R292). -/
def CAN_XFLT_MASK (i : Nat) (j : Nat) : Nat := 0x400D0604 + i * 0x2000 + j * 0x8
def CAN_XFLT_MASK_MASK : Fld := ⟨28, 0⟩
def CAN_XFLT_MASK_RXQ_SEL : Fld := ⟨29, 29⟩
def CAN_XFLT_MASK_REJECT : Fld := ⟨30, 30⟩
/-- TT_CTL (10 R293). -/
def TT_CTL : Nat := 0x400D8000
def TT_CTL_EN : Fld := ⟨0, 0⟩
def TT_CTL_LEVEL2 : Fld := ⟨1, 1⟩
def TT_CTL_PAIR : Fld := ⟨2, 2⟩
def TT_CTL_SLAVE_TB : Fld := ⟨3, 3⟩
def TT_CTL_TM_EN : Fld := ⟨4, 4⟩
def TT_CTL_MASTER_PRIO : Fld := ⟨7, 5⟩
def TT_CTL_CC_EXP : Fld := ⟨10, 8⟩
def TT_CTL_BUS_SEL : Fld := ⟨12, 12⟩
/-- TT_STATE (10 R293). -/
def TT_STATE : Nat := 0x400D8004
def TT_STATE_STATE : Fld := ⟨2, 0⟩
def TT_STATE_ROLE : Fld := ⟨5, 4⟩
def TT_STATE_ERR_LEVEL : Fld := ⟨7, 6⟩
def TT_STATE_CYCLE : Fld := ⟨13, 8⟩
def TT_STATE_MASTER : Fld := ⟨18, 16⟩
/-- TT_STATUS (10 R293). -/
def TT_STATUS : Nat := 0x400D8008
def TT_STATUS_SCHED_ERR : Fld := ⟨0, 0⟩
def TT_STATUS_WATCH : Fld := ⟨1, 1⟩
def TT_STATUS_TOO_LONG : Fld := ⟨2, 2⟩
def TT_STATUS_MASTER_CHANGE : Fld := ⟨3, 3⟩
def TT_STATUS_MASTER_CLASH : Fld := ⟨4, 4⟩
def TT_STATUS_BUS_FAIL0 : Fld := ⟨5, 5⟩
def TT_STATUS_BUS_FAIL1 : Fld := ⟨6, 6⟩
def TT_STATUS_TUR_CLAMP : Fld := ⟨7, 7⟩
def TT_STATUS_CFG_FAIL : Fld := ⟨8, 8⟩
/-- TT_REF_ID (10 R293). -/
def TT_REF_ID : Nat := 0x400D800C
def TT_REF_ID_ID : Fld := ⟨28, 0⟩
def TT_REF_ID_IDE : Fld := ⟨29, 29⟩
/-- TT_NTU (10 R293). -/
def TT_NTU : Nat := 0x400D8010
def TT_NTU_TUR : Fld := ⟨31, 0⟩
/-- TT_TUR (10 R293). -/
def TT_TUR : Nat := 0x400D8014
def TT_TUR_TUR : Fld := ⟨31, 0⟩
/-- TT_CYCLE_LEN (10 R293). -/
def TT_CYCLE_LEN : Nat := 0x400D8018
def TT_CYCLE_LEN_NTU : Fld := ⟨15, 0⟩
/-- TT_BACKUP_DELAY (10 R293). -/
def TT_BACKUP_DELAY : Nat := 0x400D801C
def TT_BACKUP_DELAY_NTU : Fld := ⟨15, 0⟩
/-- TT_BASE_NS (10 R293). -/
def TT_BASE_NS : Nat := 0x400D8020
def TT_BASE_NS_NS : Fld := ⟨29, 0⟩
/-- TT_BASE_SEC (10 R293). -/
def TT_BASE_SEC : Nat := 0x400D8024
def TT_BASE_SEC_SEC : Fld := ⟨31, 0⟩
/-- TT_NTU_NS (10 R293). -/
def TT_NTU_NS : Nat := 0x400D8028
def TT_NTU_NS_NS : Fld := ⟨15, 0⟩
/-- TT_TRIG_CNT (10 R293). -/
def TT_TRIG_CNT : Nat := 0x400D802C
def TT_TRIG_CNT_COUNT : Fld := ⟨6, 0⟩
/-- TT_FAIL (10 R293). -/
def TT_FAIL : Nat := 0x400D8030
def TT_FAIL_INDEX : Fld := ⟨5, 0⟩
def TT_FAIL_REASON : Fld := ⟨11, 8⟩
/-- TT_DUP_DISCARD (10 R293). -/
def TT_DUP_DISCARD : Nat := 0x400D8040
def TT_DUP_DISCARD_COUNT : Fld := ⟨31, 0⟩
/-- TT_TX_FAIL (10 R293). -/
def TT_TX_FAIL : Nat := 0x400D8044
def TT_TX_FAIL_COUNT : Fld := ⟨31, 0⟩
/-- TT_RX_MISSED (10 R293). -/
def TT_RX_MISSED : Nat := 0x400D8048
def TT_RX_MISSED_COUNT : Fld := ⟨31, 0⟩
/-- TT_TRIGk_A (10 R283). -/
def TT_TRIG_A (i : Nat) : Nat := 0x400D8400 + i * 0x8
def TT_TRIG_A_WORD : Fld := ⟨31, 0⟩
/-- TT_TRIGk_B (10 R283). -/
def TT_TRIG_B (i : Nat) : Nat := 0x400D8404 + i * 0x8
def TT_TRIG_B_WORD : Fld := ⟨31, 0⟩
/-- TT_ABUFm_W (10 R288). -/
def TT_ABUF_W (i : Nat) (j : Nat) : Nat := 0x400D9000 + i * 0x80 + j * 0x4
def TT_ABUF_W_WORD : Fld := ⟨31, 0⟩
/-- TT_ABUFm_CTL (10 R293). -/
def TT_ABUF_CTL (i : Nat) : Nat := 0x400D907C + i * 0x80
def TT_ABUF_CTL_UPDATE : Fld := ⟨0, 0⟩
def TT_ABUF_CTL_VALID : Fld := ⟨1, 1⟩
/-- AXn_CFG (11 R325). -/
def AX_CFG (i : Nat) : Nat := 0x400E0000 + i * 0x200
def AX_CFG_MODE : Fld := ⟨1, 0⟩
def AX_CFG_OUT : Fld := ⟨3, 2⟩
def AX_CFG_SOFT_EN : Fld := ⟨4, 4⟩
def AX_CFG_LIMIT_EN : Fld := ⟨5, 5⟩
def AX_CFG_HOME_METHOD : Fld := ⟨11, 8⟩
def AX_CFG_HOME_DIR : Fld := ⟨12, 12⟩
/-- AXn_CMD (11 R325). -/
def AX_CMD (i : Nat) : Nat := 0x400E0004 + i * 0x200
def AX_CMD_START : Fld := ⟨0, 0⟩
def AX_CMD_STOP : Fld := ⟨1, 1⟩
def AX_CMD_ESTOP : Fld := ⟨2, 2⟩
def AX_CMD_HOME : Fld := ⟨3, 3⟩
def AX_CMD_ARM_NEXT : Fld := ⟨4, 4⟩
def AX_CMD_CLEAR : Fld := ⟨5, 5⟩
/-- AXn_STATE (11 R325). -/
def AX_STATE (i : Nat) : Nat := 0x400E0008 + i * 0x200
def AX_STATE_STATE : Fld := ⟨2, 0⟩
def AX_STATE_PHASE : Fld := ⟨6, 4⟩
def AX_STATE_NEXT_VALID : Fld := ⟨8, 8⟩
def AX_STATE_HOMED : Fld := ⟨9, 9⟩
def AX_STATE_LIMP_IN : Fld := ⟨10, 10⟩
def AX_STATE_LIMN_IN : Fld := ⟨11, 11⟩
def AX_STATE_HOME_IN : Fld := ⟨12, 12⟩
def AX_STATE_REASON : Fld := ⟨19, 16⟩
def AX_STATE_HOME_ERR : Fld := ⟨22, 20⟩
/-- AXn_STATUS (11 R325). -/
def AX_STATUS (i : Nat) : Nat := 0x400E000C + i * 0x200
def AX_STATUS_DONE : Fld := ⟨0, 0⟩
def AX_STATUS_STOPPED : Fld := ⟨1, 1⟩
def AX_STATUS_STOP_LATE : Fld := ⟨2, 2⟩
def AX_STATUS_DEC_DEFERRED : Fld := ⟨3, 3⟩
def AX_STATUS_LIMIT_POS : Fld := ⟨4, 4⟩
def AX_STATUS_LIMIT_NEG : Fld := ⟨5, 5⟩
def AX_STATUS_SOFT_LIMIT : Fld := ⟨6, 6⟩
def AX_STATUS_REFUSED : Fld := ⟨7, 7⟩
def AX_STATUS_HOME_DONE : Fld := ⟨8, 8⟩
def AX_STATUS_HOME_FAIL : Fld := ⟨9, 9⟩
def AX_STATUS_FOLLOW_CLAMP : Fld := ⟨10, 10⟩
def AX_STATUS_SAFE : Fld := ⟨11, 11⟩
def AX_STATUS_POS_LIMIT : Fld := ⟨12, 12⟩
/-- AXn_POS_LO (11 R325). -/
def AX_POS_LO (i : Nat) : Nat := 0x400E0010 + i * 0x200
def AX_POS_LO_POS : Fld := ⟨31, 0⟩
/-- AXn_POS_HI (11 R325). -/
def AX_POS_HI (i : Nat) : Nat := 0x400E0014 + i * 0x200
def AX_POS_HI_POS : Fld := ⟨15, 0⟩
/-- AXn_VEL (11 R325). -/
def AX_VEL (i : Nat) : Nat := 0x400E0018 + i * 0x200
def AX_VEL_VEL : Fld := ⟨31, 0⟩
/-- AXn_TARGET_LO (11 R325). -/
def AX_TARGET_LO (i : Nat) : Nat := 0x400E001C + i * 0x200
def AX_TARGET_LO_TARGET : Fld := ⟨31, 0⟩
/-- AXn_TARGET_HI (11 R325). -/
def AX_TARGET_HI (i : Nat) : Nat := 0x400E0020 + i * 0x200
def AX_TARGET_HI_TARGET : Fld := ⟨15, 0⟩
/-- AXn_NEXT (11 R325). -/
def AX_NEXT (i : Nat) : Nat := 0x400E0024 + i * 0x200
def AX_NEXT_OFFSET : Fld := ⟨31, 0⟩
/-- AXn_VMAX (11 R325). -/
def AX_VMAX (i : Nat) : Nat := 0x400E0028 + i * 0x200
def AX_VMAX_VMAX : Fld := ⟨31, 0⟩
/-- AXn_ACC (11 R325). -/
def AX_ACC (i : Nat) : Nat := 0x400E002C + i * 0x200
def AX_ACC_ACC : Fld := ⟨31, 0⟩
/-- AXn_DEC (11 R325). -/
def AX_DEC (i : Nat) : Nat := 0x400E0030 + i * 0x200
def AX_DEC_DEC : Fld := ⟨31, 0⟩
/-- AXn_EDEC (11 R325). -/
def AX_EDEC (i : Nat) : Nat := 0x400E0034 + i * 0x200
def AX_EDEC_EDEC : Fld := ⟨31, 0⟩
/-- AXn_JERK (11 R325). -/
def AX_JERK (i : Nat) : Nat := 0x400E0038 + i * 0x200
def AX_JERK_JERK : Fld := ⟨31, 0⟩
/-- AXn_VTARGET (11 R325). -/
def AX_VTARGET (i : Nat) : Nat := 0x400E003C + i * 0x200
def AX_VTARGET_VT : Fld := ⟨31, 0⟩
/-- AXn_STEP_CFG (11 R325). -/
def AX_STEP_CFG (i : Nat) : Nat := 0x400E0040 + i * 0x200
def AX_STEP_CFG_STEP_WIDTH : Fld := ⟨7, 0⟩
def AX_STEP_CFG_DIR_SETUP : Fld := ⟨15, 8⟩
def AX_STEP_CFG_STEP_POL : Fld := ⟨16, 16⟩
def AX_STEP_CFG_DIR_POL : Fld := ⟨17, 17⟩
/-- AXn_SOFT_MIN (11 R325). -/
def AX_SOFT_MIN (i : Nat) : Nat := 0x400E0044 + i * 0x200
def AX_SOFT_MIN_MIN : Fld := ⟨31, 0⟩
/-- AXn_SOFT_MAX (11 R325). -/
def AX_SOFT_MAX (i : Nat) : Nat := 0x400E0048 + i * 0x200
def AX_SOFT_MAX_MAX : Fld := ⟨31, 0⟩
/-- AXn_FILT (11 R325). -/
def AX_FILT (i : Nat) : Nat := 0x400E004C + i * 0x200
def AX_FILT_LIM_FILT : Fld := ⟨15, 0⟩
def AX_FILT_HOME_FILT : Fld := ⟨31, 16⟩
/-- AXn_HOME_SPD (11 R325). -/
def AX_HOME_SPD (i : Nat) : Nat := 0x400E0050 + i * 0x200
def AX_HOME_SPD_VSLOW : Fld := ⟨15, 0⟩
def AX_HOME_SPD_VFAST : Fld := ⟨31, 16⟩
/-- AXn_HOME_OFFSET (11 R325). -/
def AX_HOME_OFFSET (i : Nat) : Nat := 0x400E0054 + i * 0x200
def AX_HOME_OFFSET_OFFSET : Fld := ⟨31, 0⟩
/-- AXn_HOME_RANGE (11 R325). -/
def AX_HOME_RANGE (i : Nat) : Nat := 0x400E0058 + i * 0x200
def AX_HOME_RANGE_RANGE : Fld := ⟨31, 0⟩
/-- AXn_HOME_CHATTER (11 R325). -/
def AX_HOME_CHATTER (i : Nat) : Nat := 0x400E005C + i * 0x200
def AX_HOME_CHATTER_COUNT : Fld := ⟨31, 0⟩
/-- GRPg_CFG (11 R326). -/
def GRP_CFG (i : Nat) : Nat := 0x400E8000 + i * 0x40
def GRP_CFG_MODE : Fld := ⟨1, 0⟩
def GRP_CFG_INTERP : Fld := ⟨31, 16⟩
/-- GRPg_MEMBERS (11 R326). -/
def GRP_MEMBERS (i : Nat) : Nat := 0x400E8004 + i * 0x40
def GRP_MEMBERS_AXES : Fld := ⟨31, 0⟩
/-- GRPg_CMD (11 R326). -/
def GRP_CMD (i : Nat) : Nat := 0x400E8008 + i * 0x40
def GRP_CMD_START : Fld := ⟨0, 0⟩
def GRP_CMD_STOP : Fld := ⟨1, 1⟩
def GRP_CMD_ESTOP : Fld := ⟨2, 2⟩
def GRP_CMD_LATCH : Fld := ⟨3, 3⟩
def GRP_CMD_CLEAR : Fld := ⟨5, 5⟩
/-- GRPg_STATE (11 R326). -/
def GRP_STATE (i : Nat) : Nat := 0x400E800C + i * 0x40
def GRP_STATE_STATE : Fld := ⟨2, 0⟩
def GRP_STATE_MASTER : Fld := ⟨12, 8⟩
def GRP_STATE_REASON : Fld := ⟨19, 16⟩
/-- GRPg_STATUS (11 R326). -/
def GRP_STATUS (i : Nat) : Nat := 0x400E8010 + i * 0x40
def GRP_STATUS_DONE : Fld := ⟨0, 0⟩
def GRP_STATUS_STOPPED : Fld := ⟨1, 1⟩
def GRP_STATUS_STOP_LATE : Fld := ⟨2, 2⟩
def GRP_STATUS_DEC_DEFERRED : Fld := ⟨3, 3⟩
def GRP_STATUS_REFUSED : Fld := ⟨4, 4⟩
def GRP_STATUS_LIMIT : Fld := ⟨5, 5⟩
def GRP_STATUS_SP_IGNORED : Fld := ⟨6, 6⟩
def GRP_STATUS_FOLLOW_CLAMP : Fld := ⟨7, 7⟩
def GRP_STATUS_SAFE : Fld := ⟨8, 8⟩
/-- GRPg_VMAX (11 R326). -/
def GRP_VMAX (i : Nat) : Nat := 0x400E8014 + i * 0x40
def GRP_VMAX_VMAX : Fld := ⟨31, 0⟩
/-- GRPg_ACC (11 R326). -/
def GRP_ACC (i : Nat) : Nat := 0x400E8018 + i * 0x40
def GRP_ACC_ACC : Fld := ⟨31, 0⟩
/-- GRPg_DEC (11 R326). -/
def GRP_DEC (i : Nat) : Nat := 0x400E801C + i * 0x40
def GRP_DEC_DEC : Fld := ⟨31, 0⟩
/-- GRPg_EDEC (11 R326). -/
def GRP_EDEC (i : Nat) : Nat := 0x400E8020 + i * 0x40
def GRP_EDEC_EDEC : Fld := ⟨31, 0⟩
/-- GRPg_JERK (11 R326). -/
def GRP_JERK (i : Nat) : Nat := 0x400E8024 + i * 0x40
def GRP_JERK_JERK : Fld := ⟨31, 0⟩
/-- GRPg_SRC (11 R326). -/
def GRP_SRC (i : Nat) : Nat := 0x400E8028 + i * 0x40
def GRP_SRC_BUFFER : Fld := ⟨7, 0⟩
def GRP_SRC_OFFSET : Fld := ⟨19, 8⟩
/-- GRPg_LATCHED (11 R326). -/
def GRP_LATCHED (i : Nat) : Nat := 0x400E802C + i * 0x40
def GRP_LATCHED_COUNT : Fld := ⟨31, 0⟩
/-- MOT_AX_PEND (11 R327). -/
def MOT_AX_PEND : Nat := 0x400EC000
def MOT_AX_PEND_PEND : Fld := ⟨31, 0⟩
/-- CHOPn_CTL (12 R346). -/
def CHOP_CTL (i : Nat) : Nat := 0x400F0000 + i * 0x40
def CHOP_CTL_EN : Fld := ⟨0, 0⟩
def CHOP_CTL_DECAY : Fld := ⟨2, 1⟩
def CHOP_CTL_FAST : Fld := ⟨7, 4⟩
def CHOP_CTL_GAIN : Fld := ⟨9, 8⟩
def CHOP_CTL_STALL_EN : Fld := ⟨12, 12⟩
def CHOP_CTL_STEP_ANGLE : Fld := ⟨26, 16⟩
/-- CHOPn_TIME (12 R346). -/
def CHOP_TIME (i : Nat) : Nat := 0x400F0004 + i * 0x40
def CHOP_TIME_OFF_M1 : Fld := ⟨9, 0⟩
def CHOP_TIME_BLANK_M1 : Fld := ⟨15, 10⟩
def CHOP_TIME_DEAD : Fld := ⟨21, 16⟩
/-- CHOPn_CUR (12 R346). -/
def CHOP_CUR (i : Nat) : Nat := 0x400F0008 + i * 0x40
def CHOP_CUR_I_MOVE : Fld := ⟨9, 0⟩
def CHOP_CUR_I_REST : Fld := ⟨25, 16⟩
/-- CHOPn_REST (12 R346). -/
def CHOP_REST (i : Nat) : Nat := 0x400F000C + i * 0x40
def CHOP_REST_REST_DELAY : Fld := ⟨15, 0⟩
/-- CHOPn_STALL (12 R346). -/
def CHOP_STALL (i : Nat) : Nat := 0x400F0010 + i * 0x40
def CHOP_STALL_TON_MIN : Fld := ⟨11, 0⟩
def CHOP_STALL_COUNT : Fld := ⟨19, 16⟩
/-- CHOPn_STATE (12 R346). -/
def CHOP_STATE (i : Nat) : Nat := 0x400F0014 + i * 0x40
def CHOP_STATE_DRIVE : Fld := ⟨1, 0⟩
def CHOP_STATE_STALL : Fld := ⟨2, 2⟩
def CHOP_STATE_F : Fld := ⟨7, 4⟩
/-- CHOPn_TON (12 R346). -/
def CHOP_TON (i : Nat) : Nat := 0x400F0018 + i * 0x40
def CHOP_TON_TON_A : Fld := ⟨11, 0⟩
def CHOP_TON_TON_B : Fld := ⟨27, 16⟩
/-- CHOPn_STATUS (12 R346). -/
def CHOP_STATUS (i : Nat) : Nat := 0x400F001C + i * 0x40
def CHOP_STATUS_OC_A : Fld := ⟨0, 0⟩
def CHOP_STATUS_OC_B : Fld := ⟨1, 1⟩
def CHOP_STATUS_STALLED : Fld := ⟨2, 2⟩
def CHOP_STATUS_OVERSHOOT : Fld := ⟨3, 3⟩
/-- CHOPn_OC_CNT (12 R346). -/
def CHOP_OC_CNT (i : Nat) : Nat := 0x400F0020 + i * 0x40
def CHOP_OC_CNT_COUNT : Fld := ⟨31, 0⟩
/-- CHOP_SINEk (12 R346). -/
def CHOP_SINE (i : Nat) : Nat := 0x400F1000 + i * 0x4
def CHOP_SINE_VALUE : Fld := ⟨9, 0⟩
/-- ENCn_CFG (12 R348). -/
def ENC_CFG (i : Nat) : Nat := 0x40100000 + i * 0x20
def ENC_CFG_MODE : Fld := ⟨1, 0⟩
def ENC_CFG_DIR_INV : Fld := ⟨2, 2⟩
def ENC_CFG_FILT : Fld := ⟨6, 4⟩
def ENC_CFG_IDX_MODE : Fld := ⟨9, 8⟩
def ENC_CFG_IDX_GATE : Fld := ⟨10, 10⟩
def ENC_CFG_IDX_EDGE : Fld := ⟨11, 11⟩
/-- ENCn_COUNT_LO (12 R348). -/
def ENC_COUNT_LO (i : Nat) : Nat := 0x40100004 + i * 0x20
def ENC_COUNT_LO_COUNT : Fld := ⟨31, 0⟩
/-- ENCn_COUNT_HI (12 R348). -/
def ENC_COUNT_HI (i : Nat) : Nat := 0x40100008 + i * 0x20
def ENC_COUNT_HI_COUNT : Fld := ⟨15, 0⟩
/-- ENCn_IDX_LO (12 R348). -/
def ENC_IDX_LO (i : Nat) : Nat := 0x4010000C + i * 0x20
def ENC_IDX_LO_COUNT : Fld := ⟨31, 0⟩
/-- ENCn_IDX_HI (12 R348). -/
def ENC_IDX_HI (i : Nat) : Nat := 0x40100010 + i * 0x20
def ENC_IDX_HI_COUNT : Fld := ⟨15, 0⟩
/-- ENCn_IDX_NS (12 R348). -/
def ENC_IDX_NS (i : Nat) : Nat := 0x40100014 + i * 0x20
def ENC_IDX_NS_NS : Fld := ⟨29, 0⟩
/-- ENCn_STATUS (12 R348). -/
def ENC_STATUS (i : Nat) : Nat := 0x40100018 + i * 0x20
def ENC_STATUS_INDEX : Fld := ⟨0, 0⟩
def ENC_STATUS_QERR : Fld := ⟨1, 1⟩
def ENC_STATUS_RANGE : Fld := ⟨2, 2⟩
/-- ENCn_QERR_CNT (12 R348). -/
def ENC_QERR_CNT (i : Nat) : Nat := 0x4010001C + i * 0x20
def ENC_QERR_CNT_COUNT : Fld := ⟨31, 0⟩
/-- ADCc_CMD (12 R348). -/
def ADC_CMD (i : Nat) : Nat := 0x40108000 + i * 0x400
def ADC_CMD_SEQ : Fld := ⟨3, 0⟩
def ADC_CMD_START : Fld := ⟨4, 4⟩
/-- ADCc_STATE (12 R348). -/
def ADC_STATE (i : Nat) : Nat := 0x40108004 + i * 0x400
def ADC_STATE_BUSY : Fld := ⟨0, 0⟩
def ADC_STATE_SEQ : Fld := ⟨7, 4⟩
def ADC_STATE_STEP : Fld := ⟨12, 8⟩
/-- ADCc_STATUS (12 R348). -/
def ADC_STATUS (i : Nat) : Nat := 0x40108008 + i * 0x400
def ADC_STATUS_DONE : Fld := ⟨0, 0⟩
def ADC_STATUS_START_REFUSED : Fld := ⟨1, 1⟩
def ADC_STATUS_DROP : Fld := ⟨2, 2⟩
/-- ADCc_DROP_CNT (12 R348). -/
def ADC_DROP_CNT (i : Nat) : Nat := 0x4010800C + i * 0x400
def ADC_DROP_CNT_COUNT : Fld := ⟨31, 0⟩
/-- ADCc_SEQs_CFG (12 R348). -/
def ADC_SEQ_CFG (i : Nat) (j : Nat) : Nat := 0x40108100 + i * 0x400 + j * 0x20
def ADC_SEQ_CFG_LEN_M1 : Fld := ⟨3, 0⟩
def ADC_SEQ_CFG_DEST : Fld := ⟨4, 4⟩
def ADC_SEQ_CFG_FQ : Fld := ⟨14, 6⟩
def ADC_SEQ_CFG_BUF : Fld := ⟨23, 16⟩
/-- ADCc_SEQs_BOFF (12 R348). -/
def ADC_SEQ_BOFF (i : Nat) (j : Nat) : Nat := 0x40108104 + i * 0x400 + j * 0x20
def ADC_SEQ_BOFF_BOFF : Fld := ⟨11, 0⟩
/-- ADCc_SEQs_CHm (12 R348). -/
def ADC_SEQ_CH (i : Nat) (j : Nat) (l : Nat) : Nat := 0x40108108 + i * 0x400 + j * 0x20 + l * 0x4
def ADC_SEQ_CH_CH0 : Fld := ⟨4, 0⟩
def ADC_SEQ_CH_CH1 : Fld := ⟨12, 8⟩
def ADC_SEQ_CH_CH2 : Fld := ⟨20, 16⟩
def ADC_SEQ_CH_CH3 : Fld := ⟨28, 24⟩
/-- PLn_CTL (13 R371). -/
def PL_CTL (i : Nat) : Nat := 0x40110000 + i * 0x40
def PL_CTL_START : Fld := ⟨0, 0⟩
def PL_CTL_STOP : Fld := ⟨1, 1⟩
def PL_CTL_KICK : Fld := ⟨2, 2⟩
def PL_CTL_FLUSH : Fld := ⟨3, 3⟩
def PL_CTL_CLEAR_SHIFT : Fld := ⟨4, 4⟩
/-- PLn_STATE (13 R371). -/
def PL_STATE (i : Nat) : Nat := 0x40110004 + i * 0x40
def PL_STATE_STATE : Fld := ⟨1, 0⟩
def PL_STATE_WAITING : Fld := ⟨2, 2⟩
def PL_STATE_PC : Fld := ⟨15, 8⟩
def PL_STATE_BCNT : Fld := ⟨21, 16⟩
def PL_STATE_TXLEVEL : Fld := ⟨27, 24⟩
def PL_STATE_RXLEVEL : Fld := ⟨31, 28⟩
/-- PLn_STATUS (13 R371). -/
def PL_STATUS (i : Nat) : Nat := 0x40110008 + i * 0x40
def PL_STATUS_UNDERRUN : Fld := ⟨0, 0⟩
def PL_STATUS_OVERRUN : Fld := ⟨1, 1⟩
def PL_STATUS_ILLEGAL : Fld := ⟨2, 2⟩
def PL_STATUS_ESCAPE : Fld := ⟨3, 3⟩
def PL_STATUS_PARITY : Fld := ⟨4, 4⟩
def PL_STATUS_START_REFUSED : Fld := ⟨5, 5⟩
def PL_STATUS_SIG : Fld := ⟨6, 6⟩
def PL_STATUS_EMPTY_READ : Fld := ⟨7, 7⟩
def PL_STATUS_PIN_CLASH : Fld := ⟨8, 8⟩
def PL_STATUS_SAFE_STOPPED : Fld := ⟨9, 9⟩
/-- PLn_CFG (13 R371). -/
def PL_CFG (i : Nat) : Nat := 0x4011000C + i * 0x40
def PL_CFG_STALE : Fld := ⟨0, 0⟩
def PL_CFG_SAFE_STOP : Fld := ⟨3, 3⟩
def PL_CFG_DIR : Fld := ⟨4, 4⟩
def PL_CFG_SHIFT_LEN : Fld := ⟨13, 8⟩
def PL_CFG_TXDEPTH : Fld := ⟨19, 16⟩
/-- PLn_PINCFG (13 R371). -/
def PL_PINCFG (i : Nat) : Nat := 0x40110010 + i * 0x40
def PL_PINCFG_OUT_MASK : Fld := ⟨7, 0⟩
def PL_PINCFG_IN_MASK : Fld := ⟨15, 8⟩
def PL_PINCFG_SIDE_MASK : Fld := ⟨23, 16⟩
/-- PLn_CLKDIV (13 R371). -/
def PL_CLKDIV (i : Nat) : Nat := 0x40110014 + i * 0x40
def PL_CLKDIV_NUM : Fld := ⟨15, 0⟩
def PL_CLKDIV_DEN : Fld := ⟨31, 16⟩
/-- PLn_WIN (13 R371). -/
def PL_WIN (i : Nat) : Nat := 0x40110018 + i * 0x40
def PL_WIN_FIRST : Fld := ⟨7, 0⟩
def PL_WIN_LAST : Fld := ⟨15, 8⟩
def PL_WIN_ENTRY : Fld := ⟨23, 16⟩
/-- PLn_K0 (13 R371). -/
def PL_K0 (i : Nat) : Nat := 0x4011001C + i * 0x40
def PL_K0_VALUE : Fld := ⟨31, 0⟩
/-- PLn_K1 (13 R371). -/
def PL_K1 (i : Nat) : Nat := 0x40110020 + i * 0x40
def PL_K1_VALUE : Fld := ⟨31, 0⟩
/-- PLn_TXDATA (13 R371). -/
def PL_TXDATA (i : Nat) : Nat := 0x40110024 + i * 0x40
def PL_TXDATA_WORD : Fld := ⟨31, 0⟩
/-- PLn_RXDATA (13 R371). -/
def PL_RXDATA (i : Nat) : Nat := 0x40110028 + i * 0x40
def PL_RXDATA_WORD : Fld := ⟨31, 0⟩
/-- PLn_UNDERRUN_CNT (13 R371). -/
def PL_UNDERRUN_CNT (i : Nat) : Nat := 0x4011002C + i * 0x40
def PL_UNDERRUN_CNT_COUNT : Fld := ⟨31, 0⟩
/-- PLn_OVERRUN_CNT (13 R371). -/
def PL_OVERRUN_CNT (i : Nat) : Nat := 0x40110030 + i * 0x40
def PL_OVERRUN_CNT_COUNT : Fld := ⟨31, 0⟩
/-- PLn_SHIFT (13 R371). -/
def PL_SHIFT (i : Nat) : Nat := 0x40110034 + i * 0x40
def PL_SHIFT_VALUE : Fld := ⟨31, 0⟩
/-- PLn_WA (13 R371). -/
def PL_WA (i : Nat) : Nat := 0x40110038 + i * 0x40
def PL_WA_VALUE : Fld := ⟨31, 0⟩
/-- PLn_WB (13 R371). -/
def PL_WB (i : Nat) : Nat := 0x4011003C + i * 0x40
def PL_WB_VALUE : Fld := ⟨31, 0⟩
/-- PSs_OE (13 R371). -/
def PS_OE (i : Nat) : Nat := 0x40110800 + i * 0x10
def PS_OE_OE : Fld := ⟨7, 0⟩
/-- PSs_SAFE (13 R371). -/
def PS_SAFE (i : Nat) : Nat := 0x40110804 + i * 0x10
def PS_SAFE_SAFE_EN : Fld := ⟨7, 0⟩
def PS_SAFE_SAFE_LVL : Fld := ⟨15, 8⟩
/-- PSs_PINS (13 R371). -/
def PS_PINS (i : Nat) : Nat := 0x40110808 + i * 0x10
def PS_PINS_LEVEL : Fld := ⟨7, 0⟩
/-- PSs_CTL (13 R371). -/
def PS_CTL (i : Nat) : Nat := 0x4011080C + i * 0x10
def PS_CTL_START : Fld := ⟨3, 0⟩
def PS_CTL_STOP : Fld := ⟨7, 4⟩
def PS_CTL_CLEAR_SHIFT : Fld := ⟨8, 8⟩
/-- PLn_MARK (13 R371). -/
def PL_MARK (i : Nat) : Nat := 0x40111000 + i * 0x10
def PL_MARK_PATTERNS : Fld := ⟨15, 0⟩
/-- PLn_DWELL_LO (13 R371). -/
def PL_DWELL_LO (i : Nat) : Nat := 0x40111004 + i * 0x10
def PL_DWELL_LO_COUNTS : Fld := ⟨31, 0⟩
/-- PLn_DWELL_HI (13 R371). -/
def PL_DWELL_HI (i : Nat) : Nat := 0x40111008 + i * 0x10
def PL_DWELL_HI_COUNTS : Fld := ⟨31, 0⟩
/-- SOUND_SELi (12 R349). -/
def SOUND_SEL (i : Nat) : Nat := 0x40120000 + i * 0x4
def SOUND_SEL_PIN : Fld := ⟨7, 0⟩
def SOUND_SEL_INV : Fld := ⟨8, 8⟩
def SOUND_SEL_EN : Fld := ⟨9, 9⟩
def SOUND_SEL_LEVEL : Fld := ⟨10, 10⟩
/-- LOG_CTL (16 R458). -/
def LOG_CTL : Nat := 0x40130000
def LOG_CTL_FREEZE : Fld := ⟨0, 0⟩
def LOG_CTL_FROZEN : Fld := ⟨1, 1⟩
def LOG_CTL_LH_FREEZE : Fld := ⟨2, 2⟩
/-- LOG_STATUS (16 R458). -/
def LOG_STATUS : Nat := 0x40130004
def LOG_STATUS_LOST : Fld := ⟨0, 0⟩
def LOG_STATUS_RECORD_BAD : Fld := ⟨1, 1⟩
def LOG_STATUS_SUPPRESSED : Fld := ⟨2, 2⟩
/-- LOG_LOST (16 R458). -/
def LOG_LOST : Nat := 0x40130008
def LOG_LOST_COUNT : Fld := ⟨31, 0⟩
/-- LOG_STAGED (16 R458). -/
def LOG_STAGED : Nat := 0x4013000C
def LOG_STAGED_LEVEL : Fld := ⟨6, 0⟩
/-- LOG_EVENT (16 R458). -/
def LOG_EVENT : Nat := 0x40130010
def LOG_EVENT_CODE : Fld := ⟨7, 0⟩
def LOG_EVENT_VALUE : Fld := ⟨31, 8⟩
/-- LOG_SEL (16 R458). -/
def LOG_SEL : Nat := 0x40130020
def LOG_SEL_CODE : Fld := ⟨7, 0⟩
/-- LOG_CMD (16 R458). -/
def LOG_CMD : Nat := 0x40130024
def LOG_CMD_OP : Fld := ⟨1, 0⟩
def LOG_CMD_BUSY : Fld := ⟨31, 31⟩
/-- LOG_RECw (16 R458). -/
def LOG_REC (i : Nat) : Nat := 0x40130100 + i * 0x4
def LOG_REC_WORD : Fld := ⟨31, 0⟩
/-- NVM_CTL (17 R494). -/
def NVM_CTL : Nat := 0x40140000
def NVM_CTL_WREN : Fld := ⟨0, 0⟩
/-- NVM_STATUS (17 R494). -/
def NVM_STATUS : Nat := 0x40140004
def NVM_STATUS_CORR : Fld := ⟨0, 0⟩
def NVM_STATUS_UNCORR : Fld := ⟨1, 1⟩
def NVM_STATUS_WR_DENIED : Fld := ⟨2, 2⟩
/-- NVM_CORR_CNT (17 R494). -/
def NVM_CORR_CNT : Nat := 0x40140008
def NVM_CORR_CNT_COUNT : Fld := ⟨31, 0⟩
/-- NVM_UNCORR_CNT (17 R494). -/
def NVM_UNCORR_CNT : Nat := 0x4014000C
def NVM_UNCORR_CNT_COUNT : Fld := ⟨31, 0⟩
/-- NVM_DENIED_ADDR (17 R494). -/
def NVM_DENIED_ADDR : Nat := 0x40140010
def NVM_DENIED_ADDR_ADDR : Fld := ⟨31, 0⟩
/-- TEST_DREDGE (16 R459). -/
def TEST_DREDGE : Nat := 0x40150000
def TEST_DREDGE_PASS_MS : Fld := ⟨13, 0⟩
/-- TEST_DREDGE_CORR (16 R459). -/
def TEST_DREDGE_CORR : Nat := 0x40150004
def TEST_DREDGE_CORR_COUNT : Fld := ⟨31, 0⟩
/-- TEST_DREDGE_POISON (16 R459). -/
def TEST_DREDGE_POISON : Nat := 0x40150008
def TEST_DREDGE_POISON_COUNT : Fld := ⟨31, 0⟩
/-- TEST_DREDGE_PASSES (16 R459). -/
def TEST_DREDGE_PASSES : Nat := 0x4015000C
def TEST_DREDGE_PASSES_COUNT : Fld := ⟨31, 0⟩
/-- TEST_STATUS (16 R459). -/
def TEST_STATUS : Nat := 0x40150010
def TEST_STATUS_DREDGE_LATE : Fld := ⟨0, 0⟩
def TEST_STATUS_LOCK_LOST : Fld := ⟨1, 1⟩
/-- TEST_LINKL_CTL (16 R459). -/
def TEST_LINK_CTL (i : Nat) : Nat := 0x40150100 + i * 0x20
def TEST_LINK_CTL_PATTERN : Fld := ⟨3, 0⟩
def TEST_LINK_CTL_GEN : Fld := ⟨4, 4⟩
def TEST_LINK_CTL_CHK : Fld := ⟨5, 5⟩
def TEST_LINK_CTL_LOOP : Fld := ⟨6, 6⟩
def TEST_LINK_CTL_INVERT : Fld := ⟨7, 7⟩
def TEST_LINK_CTL_T_MODE : Fld := ⟨10, 8⟩
def TEST_LINK_CTL_DIV : Fld := ⟨23, 16⟩
/-- TEST_LINKL_USER (16 R459). -/
def TEST_LINK_USER (i : Nat) : Nat := 0x40150104 + i * 0x20
def TEST_LINK_USER_PATTERN : Fld := ⟨31, 0⟩
/-- TEST_LINKL_ERR (16 R459). -/
def TEST_LINK_ERR (i : Nat) : Nat := 0x40150108 + i * 0x20
def TEST_LINK_ERR_COUNT : Fld := ⟨31, 0⟩
/-- TEST_LINKL_STATE (16 R459). -/
def TEST_LINK_STATE (i : Nat) : Nat := 0x4015010C + i * 0x20
def TEST_LINK_STATE_LOCKED : Fld := ⟨7, 0⟩
def TEST_LINK_STATE_LANE_ERR : Fld := ⟨15, 8⟩
def TEST_LINK_STATE_LOCK_LOST : Fld := ⟨16, 16⟩
/-- TEST_LINKL_BITS (16 R459). -/
def TEST_LINK_BITS (i : Nat) : Nat := 0x40150110 + i * 0x20
def TEST_LINK_BITS_COUNT : Fld := ⟨31, 0⟩
/-- DBG_CTL (16 R459). -/
def DBG_CTL : Nat := 0x40160000
def DBG_CTL_ENF_OVR : Fld := ⟨0, 0⟩
def DBG_CTL_HM_HOLD : Fld := ⟨1, 1⟩
/-- DBG_STATUS (16 R459). -/
def DBG_STATUS : Nat := 0x40160004
def DBG_STATUS_ATTACHED : Fld := ⟨0, 0⟩
def DBG_STATUS_USED : Fld := ⟨1, 1⟩
/-- DBG_IDCODE (16 R459). -/
def DBG_IDCODE : Nat := 0x40160008
def DBG_IDCODE_IDCODE : Fld := ⟨31, 0⟩
/-- HOSTIF_PCI_ID (14 R401). -/
def HOSTIF_PCI_ID : Nat := 0x40170000
def HOSTIF_PCI_ID_VENDOR : Fld := ⟨15, 0⟩
def HOSTIF_PCI_ID_DEVICE : Fld := ⟨31, 16⟩
/-- HOSTIF_PCI_CLASS (14 R401). -/
def HOSTIF_PCI_CLASS : Nat := 0x40170004
def HOSTIF_PCI_CLASS_REVISION : Fld := ⟨7, 0⟩
def HOSTIF_PCI_CLASS_CLASS : Fld := ⟨31, 8⟩
/-- HOSTIF_PCIE_STATE (14 R401). -/
def HOSTIF_PCIE_STATE : Nat := 0x40170008
def HOSTIF_PCIE_STATE_LINK_UP : Fld := ⟨0, 0⟩
def HOSTIF_PCIE_STATE_SPEED : Fld := ⟨2, 1⟩
def HOSTIF_PCIE_STATE_WIDTH : Fld := ⟨5, 4⟩
def HOSTIF_PCIE_STATE_BME : Fld := ⟨8, 8⟩
def HOSTIF_PCIE_STATE_MSIX_EN : Fld := ⟨9, 9⟩
def HOSTIF_PCIE_STATE_MSIX_FMASK : Fld := ⟨10, 10⟩
/-- HOSTIF_BAR4_BASE (14 R401). -/
def HOSTIF_BAR4_BASE : Nat := 0x4017000C
def HOSTIF_BAR4_BASE_BASE : Fld := ⟨31, 26⟩
/-- HOSTIF_STATUS (14 R401). -/
def HOSTIF_STATUS : Nat := 0x40170010
def HOSTIF_STATUS_LINK_DOWN : Fld := ⟨0, 0⟩
def HOSTIF_STATUS_HOT_RESET : Fld := ⟨1, 1⟩
def HOSTIF_STATUS_UR_SENT : Fld := ⟨2, 2⟩
def HOSTIF_STATUS_CA_SENT : Fld := ⟨3, 3⟩
def HOSTIF_STATUS_POISON_RX : Fld := ⟨4, 4⟩
def HOSTIF_STATUS_QST_BADCMD : Fld := ⟨5, 5⟩
def HOSTIF_STATUS_QST_OVERRUN : Fld := ⟨6, 6⟩
def HOSTIF_STATUS_HB_MODE_BAD : Fld := ⟨7, 7⟩
/-- HOSTIF_HB_CFG (14 R401). -/
def HOSTIF_HB_CFG : Nat := 0x40170020
def HOSTIF_HB_CFG_RD_WAIT : Fld := ⟨3, 0⟩
def HOSTIF_HB_CFG_MODE : Fld := ⟨9, 8⟩
def HOSTIF_HB_CFG_WIDTH : Fld := ⟨10, 10⟩
/-- HOSTIF_HB_PAGE (14 R401). -/
def HOSTIF_HB_PAGE : Nat := 0x40170024
def HOSTIF_HB_PAGE_PAGE : Fld := ⟨7, 0⟩
/-- HOSTIF_MAPi (14 R401). -/
def HOSTIF_MAP (i : Nat) : Nat := 0x40170040 + i * 0x4
def HOSTIF_MAP_VECTOR : Fld := ⟨5, 0⟩
def HOSTIF_MAP_MSIX_EN : Fld := ⟨8, 8⟩
def HOSTIF_MAP_HB_IRQ_EN : Fld := ⟨9, 9⟩
def HOSTIF_MAP_QST_IRQ_EN : Fld := ⟨10, 10⟩
/-- HOSTIF_MSIX_REARM (14 R401). -/
def HOSTIF_MSIX_REARM : Nat := 0x40170120
def HOSTIF_MSIX_REARM_VECTOR : Fld := ⟨5, 0⟩
/-- MSIX_ADDR_LO (14 R400). -/
def MSIX_ADDR_LO (i : Nat) : Nat := 0x40178000 + i * 0x10
def MSIX_ADDR_LO_ADDR : Fld := ⟨31, 0⟩
/-- MSIX_ADDR_HI (14 R400). -/
def MSIX_ADDR_HI (i : Nat) : Nat := 0x40178004 + i * 0x10
def MSIX_ADDR_HI_ADDR : Fld := ⟨31, 0⟩
/-- MSIX_MSG_DATA (14 R400). -/
def MSIX_MSG_DATA (i : Nat) : Nat := 0x40178008 + i * 0x10
def MSIX_MSG_DATA_DATA : Fld := ⟨31, 0⟩
/-- MSIX_VCTL (14 R400). -/
def MSIX_VCTL (i : Nat) : Nat := 0x4017800C + i * 0x10
def MSIX_VCTL_MASK : Fld := ⟨0, 0⟩
/-- MSIX_PBA_LO (14 R400). -/
def MSIX_PBA_LO : Nat := 0x40179000
def MSIX_PBA_LO_PEND : Fld := ⟨31, 0⟩
/-- MSIX_PBA_HI (14 R400). -/
def MSIX_PBA_HI : Nat := 0x40179004
def MSIX_PBA_HI_PEND : Fld := ⟨31, 0⟩

end Sys2Proof.Machine
end

