-- ==== Sys2Proof/Machine/RegMap.lean ====
section
/-! DEFINITION. The register map: for every register block (R17) its rows, each with its offset, its instance strides and counts, and its fields with place, access code (R8) and reset value, as the chapters' field tables give them. Register reset values the spec leaves open are named in log 5. -/
namespace Sys2Proof.Machine

def mapSys0 : List RegRow := [
  ⟨0x0, [], [⟨⟨31, 16⟩, .ro, 0x3224⟩, ⟨⟨15, 12⟩, .ro, 0x1⟩, ⟨⟨11, 8⟩, .ro, 0x1⟩, ⟨⟨7, 4⟩, .ro, 0x1⟩]⟩ /- SYS_ID -/,
  ⟨0x4, [], [⟨⟨0, 0⟩, .w1c, 0x0⟩, ⟨⟨1, 1⟩, .w1c, 0x0⟩, ⟨⟨2, 2⟩, .w1c, 0x0⟩, ⟨⟨3, 3⟩, .w1c, 0x0⟩, ⟨⟨4, 4⟩, .w1c, 0x0⟩, ⟨⟨5, 5⟩, .w1c, 0x0⟩, ⟨⟨6, 6⟩, .w1c, 0x0⟩]⟩ /- SYS_STATUS -/,
  ⟨0x8, [], [⟨⟨31, 0⟩, .ro, 0x0⟩]⟩ /- SYS_REJECT_ADDR -/,
  ⟨0xC, [], [⟨⟨23, 0⟩, .ro, 0x0⟩]⟩ /- SYS_EVENT -/,
  ⟨0x10, [], [⟨⟨2, 0⟩, .ro, 0x0⟩, ⟨⟨5, 4⟩, .ro, 0x0⟩, ⟨⟨6, 6⟩, .ro, 0x0⟩]⟩ /- SYS_STRAPS -/,
  ⟨0x14, [], [⟨⟨3, 0⟩, .rw, 0x0⟩, ⟨⟨15, 8⟩, .rw, 0x0⟩, ⟨⟨21, 16⟩, .rw, 0x0⟩]⟩ /- SYS_BOOT -/,
  ⟨0x18, [], [⟨⟨1, 0⟩, .rw, 0x0⟩, ⟨⟨4, 4⟩, .ro, 0x0⟩, ⟨⟨8, 8⟩, .rw, 0x0⟩, ⟨⟨12, 12⟩, .ro, 0x0⟩]⟩ /- SYS_CLK_CFG -/,
  ⟨0x1C, [], [⟨⟨4, 0⟩, .ro, 0x0⟩]⟩ /- SYS_CLK_STATUS -/,
  ⟨0x20, [], [⟨⟨0, 0⟩, .ro, 0x1⟩, ⟨⟨1, 1⟩, .ro, 0x1⟩, ⟨⟨15, 8⟩, .ro, 0xFF⟩]⟩ /- SYS_PWR -/,
  ⟨0x24, [], [⟨⟨0, 0⟩, .wo, 0x0⟩, ⟨⟨1, 1⟩, .wo, 0x0⟩]⟩ /- SYS_RESET -/,
  ⟨0x28, [], [⟨⟨31, 0⟩, .ro, 0x0⟩]⟩ /- SYS_UID_LO -/,
  ⟨0x2C, [], [⟨⟨15, 0⟩, .ro, 0x0⟩]⟩ /- SYS_UID_HI -/]
def mapSys1 : List RegRow := [
  ⟨0x30, [], [⟨⟨15, 0⟩, .rw, 0x0⟩, ⟨⟨16, 16⟩, .rw, 0x0⟩, ⟨⟨17, 17⟩, .rw, 0x0⟩, ⟨⟨18, 18⟩, .rw, 0x0⟩]⟩ /- SYS_NODE_ADDR -/,
  ⟨0x34, [], [⟨⟨15, 0⟩, .rw, 0x88B6⟩, ⟨⟨17, 16⟩, .rw, 0x0⟩, ⟨⟨22, 20⟩, .rw, 0x2⟩]⟩ /- SYS_MUSTER -/]
/-- The rows of block 0, SYS. -/
def mapSys : List RegRow := mapSys0 ++ mapSys1

def mapLighthouse0 : List RegRow := [
  ⟨0x0, [], [⟨⟨0, 0⟩, .w1s, 0x0⟩, ⟨⟨1, 1⟩, .wo, 0x0⟩]⟩ /- LH_CTL -/,
  ⟨0x4, [], [⟨⟨0, 0⟩, .ro, 0x0⟩, ⟨⟨1, 1⟩, .ro, 0x0⟩, ⟨⟨2, 2⟩, .ro, 0x0⟩, ⟨⟨3, 3⟩, .ro, 0x0⟩]⟩ /- LH_STATE -/,
  ⟨0x8, [], [⟨⟨0, 0⟩, .w1c, 0x0⟩, ⟨⟨1, 1⟩, .w1c, 0x0⟩, ⟨⟨2, 2⟩, .w1c, 0x0⟩, ⟨⟨3, 3⟩, .w1c, 0x0⟩, ⟨⟨4, 4⟩, .w1c, 0x0⟩, ⟨⟨5, 5⟩, .w1c, 0x0⟩]⟩ /- LH_FAULT -/,
  ⟨0xC, [], [⟨⟨5, 0⟩, .rw, 0x0⟩]⟩ /- LH_FAULT_MASK -/,
  ⟨0x10, [], [⟨⟨0, 0⟩, .rw, 0x0⟩]⟩ /- LH_CFG -/,
  ⟨0x14, [], [⟨⟨3, 0⟩, .ro, 0x0⟩, ⟨⟨7, 4⟩, .ro, 0x0⟩]⟩ /- LH_RESET_CAUSE -/,
  ⟨0x18, [], [⟨⟨6, 0⟩, .w1c, 0x1⟩]⟩ /- LH_RESET_HIST -/,
  ⟨0x1C, [], [⟨⟨31, 0⟩, .ro, 0x0⟩]⟩ /- LH_OPSEC -/,
  ⟨0x20, [], [⟨⟨31, 0⟩, .ro, 0x0⟩]⟩ /- LH_PCC -/,
  ⟨0x24, [], [⟨⟨4, 0⟩, .wo, 0x0⟩]⟩ /- LH_KICK -/,
  ⟨0x28, [], [⟨⟨24, 0⟩, .w1c, 0x0⟩]⟩ /- LH_WDOG_EXP -/,
  ⟨0x100, [(0x4, 25)], [⟨⟨13, 0⟩, .rw, 0x0⟩, ⟨⟨18, 16⟩, .rw, 0x0⟩, ⟨⟨24, 24⟩, .rw, 0x0⟩]⟩ /- LH_WDOGw -/]
/-- The rows of block 1, LIGHTHOUSE. -/
def mapLighthouse : List RegRow := mapLighthouse0

def mapMailbox0 : List RegRow := [
  ⟨0x0, [(0x80, 32), (0x4, 16)], [⟨⟨31, 0⟩, .rw, 0x0⟩]⟩ /- MBm_DATAw -/,
  ⟨0x40, [(0x80, 32)], [⟨⟨0, 0⟩, .wo, 0x0⟩, ⟨⟨1, 1⟩, .wo, 0x0⟩, ⟨⟨8, 8⟩, .ro, 0x0⟩, ⟨⟨9, 9⟩, .ro, 0x0⟩]⟩ /- MBm_CTL -/,
  ⟨0x44, [(0x80, 32)], [⟨⟨31, 28⟩, .ro, 0x0⟩, ⟨⟨27, 16⟩, .ro, 0x0⟩, ⟨⟨15, 0⟩, .ro, 0x0⟩]⟩ /- MBm_STAMP -/,
  ⟨0x1000, [], [⟨⟨0, 0⟩, .w1c, 0x0⟩, ⟨⟨1, 1⟩, .w1c, 0x0⟩, ⟨⟨2, 2⟩, .w1c, 0x0⟩, ⟨⟨3, 3⟩, .w1c, 0x0⟩, ⟨⟨4, 4⟩, .w1c, 0x0⟩]⟩ /- MB_STATUS -/,
  ⟨0x1004, [], [⟨⟨3, 0⟩, .ro, 0x0⟩, ⟨⟨31, 31⟩, .ro, 0x0⟩]⟩ /- MB_ARRIVAL -/,
  ⟨0x1008, [], [⟨⟨31, 0⟩, .ro, 0x0⟩]⟩ /- MB_FULL -/,
  ⟨0x100C, [], [⟨⟨31, 0⟩, .ro, 0x0⟩]⟩ /- MB_CLAIMED -/,
  ⟨0x1010, [], [⟨⟨15, 0⟩, .rw, 0x3E8⟩]⟩ /- MB_CLAIM_TIME -/,
  ⟨0x1014, [], [⟨⟨31, 0⟩, .cnt, 0x0⟩]⟩ /- MB_REJECT_CNT -/,
  ⟨0x1018, [], [⟨⟨4, 0⟩, .ro, 0x0⟩, ⟨⟨9, 8⟩, .ro, 0x0⟩, ⟨⟨27, 16⟩, .ro, 0x0⟩, ⟨⟨31, 28⟩, .ro, 0x0⟩]⟩ /- MB_REJECT_INFO -/,
  ⟨0x1020, [], [⟨⟨31, 0⟩, .w1c, 0x0⟩]⟩ /- MB_DB_IN -/,
  ⟨0x1024, [], [⟨⟨31, 0⟩, .wo, 0x0⟩]⟩ /- MB_DB_IN_SET -/]
def mapMailbox1 : List RegRow := [
  ⟨0x1028, [], [⟨⟨31, 0⟩, .w1c, 0x0⟩]⟩ /- MB_DB_OUT -/,
  ⟨0x102C, [], [⟨⟨31, 0⟩, .wo, 0x0⟩]⟩ /- MB_DB_OUT_SET -/]
/-- The rows of block 2, MAILBOX. -/
def mapMailbox : List RegRow := mapMailbox0 ++ mapMailbox1

def mapCauseway0 : List RegRow := [
  ⟨0x0, [], [⟨⟨0, 0⟩, .w1c, 0x0⟩, ⟨⟨1, 1⟩, .w1c, 0x0⟩, ⟨⟨2, 2⟩, .w1c, 0x0⟩, ⟨⟨3, 3⟩, .w1c, 0x0⟩, ⟨⟨4, 4⟩, .w1c, 0x0⟩, ⟨⟨5, 5⟩, .w1c, 0x0⟩]⟩ /- CW_STATUS -/,
  ⟨0x4, [], [⟨⟨0, 0⟩, .ro, 0x0⟩, ⟨⟨1, 1⟩, .ro, 0x0⟩, ⟨⟨2, 2⟩, .ro, 0x0⟩]⟩ /- CW_FENCE -/,
  ⟨0x10, [], [⟨⟨31, 0⟩, .ro, 0x0⟩]⟩ /- CW_LOST_DATA -/,
  ⟨0x14, [], [⟨⟨31, 0⟩, .ro, 0x0⟩]⟩ /- CW_LOST_ADDR -/,
  ⟨0x18, [], [⟨⟨3, 0⟩, .ro, 0x0⟩, ⟨⟨17, 16⟩, .ro, 0x0⟩]⟩ /- CW_LOST_INFO -/,
  ⟨0x1C, [], [⟨⟨31, 0⟩, .cnt, 0x0⟩]⟩ /- CW_LOST_CNT -/,
  ⟨0x20, [], [⟨⟨31, 0⟩, .cnt, 0x0⟩]⟩ /- CW_DR_EXPIRED -/,
  ⟨0x24, [], [⟨⟨31, 0⟩, .cnt, 0x0⟩]⟩ /- CW_LOCK_BROKEN -/,
  ⟨0x28, [], [⟨⟨31, 0⟩, .cnt, 0x0⟩]⟩ /- CW_OUT_RETRY -/,
  ⟨0x30, [], [⟨⟨0, 0⟩, .wo, 0x0⟩, ⟨⟨20, 16⟩, .ro, 0x0⟩]⟩ /- CW_PWLOG_CTL -/,
  ⟨0x40, [(0x8, 16)], [⟨⟨31, 0⟩, .ro, 0x0⟩]⟩ /- CW_PWLOGi_ADDR -/,
  ⟨0x44, [(0x8, 16)], [⟨⟨15, 0⟩, .ro, 0x0⟩, ⟨⟨17, 16⟩, .ro, 0x0⟩, ⟨⟨23, 20⟩, .ro, 0x0⟩, ⟨⟨31, 31⟩, .ro, 0x0⟩]⟩ /- CW_PWLOGi_INFO -/]
def mapCauseway1 : List RegRow := [
  ⟨0x100, [(0x10, 8)], [⟨⟨0, 0⟩, .rw, 0x0⟩, ⟨⟨1, 1⟩, .rw, 0x0⟩]⟩ /- CW_OWINw_CTL -/,
  ⟨0x104, [(0x10, 8)], [⟨⟨31, 28⟩, .rw, 0x0⟩]⟩ /- CW_OWINw_LO -/,
  ⟨0x108, [(0x10, 8)], [⟨⟨31, 0⟩, .rw, 0x0⟩]⟩ /- CW_OWINw_HI -/]
/-- The rows of block 3, CAUSEWAY. -/
def mapCauseway : List RegRow := mapCauseway0 ++ mapCauseway1

def mapTime0 : List RegRow := [
  ⟨0x0, [], [⟨⟨1, 0⟩, .rw, 0x0⟩]⟩ /- TIME_CTL -/,
  ⟨0x4, [], [⟨⟨0, 0⟩, .w1s, 0x0⟩, ⟨⟨1, 1⟩, .w1s, 0x0⟩, ⟨⟨2, 2⟩, .w1s, 0x0⟩, ⟨⟨3, 3⟩, .wo, 0x0⟩, ⟨⟨8, 8⟩, .w1s, 0x0⟩, ⟨⟨9, 9⟩, .wo, 0x0⟩]⟩ /- TIME_CMD -/,
  ⟨0x8, [], [⟨⟨0, 0⟩, .w1c, 0x0⟩, ⟨⟨1, 1⟩, .w1c, 0x0⟩]⟩ /- TIME_STATUS -/,
  ⟨0x10, [], [⟨⟨15, 0⟩, .ro, 0x0⟩]⟩ /- TIME_NOW_FRAC -/,
  ⟨0x14, [], [⟨⟨29, 0⟩, .ro, 0x0⟩]⟩ /- TIME_NOW_NS -/,
  ⟨0x18, [], [⟨⟨31, 0⟩, .ro, 0x0⟩]⟩ /- TIME_NOW_SEC_LO -/,
  ⟨0x1C, [], [⟨⟨15, 0⟩, .ro, 0x0⟩]⟩ /- TIME_NOW_SEC_HI -/,
  ⟨0x20, [], [⟨⟨31, 0⟩, .rw, 0x0⟩]⟩ /- TIME_INC_LO -/,
  ⟨0x24, [], [⟨⟨7, 0⟩, .rw, 0x4⟩]⟩ /- TIME_INC_HI -/,
  ⟨0x28, [], [⟨⟨31, 0⟩, .rw, 0x0⟩]⟩ /- TIME_STEP_LO -/,
  ⟨0x2C, [], [⟨⟨15, 0⟩, .rw, 0x0⟩]⟩ /- TIME_STEP_HI -/,
  ⟨0x30, [], [⟨⟨15, 0⟩, .rw, 0x0⟩]⟩ /- TIME_SET_FRAC -/]
def mapTime1 : List RegRow := [
  ⟨0x34, [], [⟨⟨29, 0⟩, .rw, 0x0⟩]⟩ /- TIME_SET_NS -/,
  ⟨0x38, [], [⟨⟨31, 0⟩, .rw, 0x0⟩]⟩ /- TIME_SET_SEC_LO -/,
  ⟨0x3C, [], [⟨⟨15, 0⟩, .rw, 0x0⟩]⟩ /- TIME_SET_SEC_HI -/,
  ⟨0x40, [], [⟨⟨29, 0⟩, .rw, 0x3E8⟩]⟩ /- TIME_JUMP_LIMIT -/,
  ⟨0x44, [], [⟨⟨31, 0⟩, .ro, 0x0⟩]⟩ /- TIME_REFUSED_LO -/,
  ⟨0x48, [], [⟨⟨15, 0⟩, .ro, 0x0⟩, ⟨⟨31, 31⟩, .ro, 0x0⟩]⟩ /- TIME_REFUSED_HI -/,
  ⟨0x4C, [], [⟨⟨31, 0⟩, .cnt, 0x0⟩]⟩ /- TIME_REFUSED_CNT -/,
  ⟨0x50, [], [⟨⟨23, 0⟩, .rw, 0x0⟩]⟩ /- TIME_WDOG -/,
  ⟨0x100, [(0x20, 6)], [⟨⟨1, 0⟩, .rw, 0x0⟩, ⟨⟨2, 2⟩, .rw, 0x0⟩, ⟨⟨3, 3⟩, .rw, 0x0⟩, ⟨⟨4, 4⟩, .rw, 0x0⟩, ⟨⟨5, 5⟩, .rw, 0x0⟩, ⟨⟨6, 6⟩, .rw, 0x0⟩]⟩ /- TIME_PTPn_CTL -/,
  ⟨0x104, [(0x20, 6)], [⟨⟨31, 0⟩, .rw, 0x0⟩]⟩ /- TIME_PTPn_LINK_DELAY -/,
  ⟨0x108, [(0x20, 6)], [⟨⟨31, 31⟩, .ro, 0x0⟩, ⟨⟨27, 24⟩, .ro, 0x0⟩, ⟨⟨23, 16⟩, .ro, 0x0⟩, ⟨⟨15, 0⟩, .ro, 0x0⟩]⟩ /- TIME_PTPn_TXTS_KEY -/,
  ⟨0x10C, [(0x20, 6)], [⟨⟨31, 2⟩, .ro, 0x0⟩, ⟨⟨1, 0⟩, .ro, 0x0⟩]⟩ /- TIME_PTPn_TXTS_NS -/]
def mapTime2 : List RegRow := [
  ⟨0x110, [(0x20, 6)], [⟨⟨31, 0⟩, .ro, 0x0⟩]⟩ /- TIME_PTPn_TXTS_SEC -/,
  ⟨0x114, [(0x20, 6)], [⟨⟨0, 0⟩, .w1c, 0x0⟩, ⟨⟨1, 1⟩, .w1c, 0x0⟩, ⟨⟨2, 2⟩, .w1c, 0x0⟩, ⟨⟨12, 8⟩, .ro, 0x0⟩]⟩ /- TIME_PTPn_STATUS -/,
  ⟨0x118, [(0x20, 6)], [⟨⟨31, 0⟩, .cnt, 0x0⟩]⟩ /- TIME_PTPn_TXTS_LOST -/,
  ⟨0x200, [(0x20, 16)], [⟨⟨1, 0⟩, .rw, 0x0⟩, ⟨⟨2, 2⟩, .rw, 0x0⟩, ⟨⟨3, 3⟩, .rw, 0x0⟩, ⟨⟨4, 4⟩, .wo, 0x0⟩, ⟨⟨16, 16⟩, .w1c, 0x0⟩]⟩ /- TTRIGn_CTL -/,
  ⟨0x204, [(0x20, 16)], [⟨⟨29, 0⟩, .rwl, 0x0⟩]⟩ /- TTRIGn_START_NS -/,
  ⟨0x208, [(0x20, 16)], [⟨⟨31, 0⟩, .rwl, 0x0⟩]⟩ /- TTRIGn_START_SEC -/,
  ⟨0x20C, [(0x20, 16)], [⟨⟨31, 0⟩, .rwl, 0x0⟩]⟩ /- TTRIGn_PERIOD -/,
  ⟨0x210, [(0x20, 16)], [⟨⟨15, 0⟩, .rwl, 0x0⟩]⟩ /- TTRIGn_WIDTH -/,
  ⟨0x400, [(0x20, 16)], [⟨⟨1, 0⟩, .rw, 0x0⟩, ⟨⟨3, 2⟩, .rw, 0x0⟩]⟩ /- TCAPn_CTL -/,
  ⟨0x404, [(0x20, 16)], [⟨⟨31, 31⟩, .ro, 0x0⟩, ⟨⟨30, 30⟩, .ro, 0x0⟩, ⟨⟨29, 0⟩, .ro, 0x0⟩]⟩ /- TCAPn_TS_NS -/,
  ⟨0x408, [(0x20, 16)], [⟨⟨31, 0⟩, .ro, 0x0⟩]⟩ /- TCAPn_TS_SEC -/,
  ⟨0x40C, [(0x20, 16)], [⟨⟨0, 0⟩, .w1c, 0x0⟩, ⟨⟨1, 1⟩, .w1c, 0x0⟩, ⟨⟨2, 2⟩, .ro, 0x0⟩, ⟨⟨11, 8⟩, .ro, 0x0⟩]⟩ /- TCAPn_STATUS -/]
def mapTime3 : List RegRow := [
  ⟨0x410, [(0x20, 16)], [⟨⟨31, 0⟩, .cnt, 0x0⟩]⟩ /- TCAPn_LOST -/]
/-- The rows of block 4, TIME. -/
def mapTime : List RegRow := mapTime0 ++ mapTime1 ++ mapTime2 ++ mapTime3

def mapTide0 : List RegRow := [
  ⟨0x0, [], [⟨⟨0, 0⟩, .rw, 0x0⟩, ⟨⟨1, 1⟩, .rwl, 0x0⟩, ⟨⟨4, 4⟩, .ro, 0x0⟩, ⟨⟨5, 5⟩, .ro, 0x0⟩]⟩ /- TIDE_CTL -/,
  ⟨0x4, [], [⟨⟨0, 0⟩, .w1s, 0x0⟩, ⟨⟨1, 1⟩, .w1s, 0x0⟩, ⟨⟨4, 4⟩, .w1s, 0x0⟩, ⟨⟨5, 5⟩, .wo, 0x0⟩]⟩ /- TIDE_CMD -/,
  ⟨0x8, [], [⟨⟨0, 0⟩, .w1c, 0x0⟩, ⟨⟨1, 1⟩, .w1c, 0x0⟩, ⟨⟨2, 2⟩, .w1c, 0x0⟩, ⟨⟨3, 3⟩, .w1c, 0x0⟩, ⟨⟨4, 4⟩, .w1c, 0x0⟩, ⟨⟨5, 5⟩, .w1c, 0x0⟩, ⟨⟨6, 6⟩, .w1c, 0x0⟩, ⟨⟨7, 7⟩, .w1c, 0x0⟩, ⟨⟨8, 8⟩, .w1c, 0x0⟩, ⟨⟨9, 9⟩, .w1c, 0x0⟩, ⟨⟨10, 10⟩, .w1c, 0x0⟩, ⟨⟨11, 11⟩, .w1c, 0x0⟩, ⟨⟨12, 12⟩, .w1c, 0x0⟩, ⟨⟨13, 13⟩, .w1c, 0x0⟩, ⟨⟨14, 14⟩, .w1c, 0x0⟩, ⟨⟨15, 15⟩, .w1c, 0x0⟩]⟩ /- TIDE_STATUS -/,
  ⟨0x10, [], [⟨⟨29, 0⟩, .rwl, 0x0⟩]⟩ /- TIDE_BASE_NS -/,
  ⟨0x14, [], [⟨⟨31, 0⟩, .rwl, 0x0⟩]⟩ /- TIDE_BASE_SEC -/,
  ⟨0x18, [], [⟨⟨31, 0⟩, .ro, 0x0⟩]⟩ /- TIDE_BASE_CNT -/,
  ⟨0x1C, [], [⟨⟨31, 0⟩, .ro, 0x0⟩]⟩ /- TIDE_CYCLE_CNT -/,
  ⟨0x20, [], [⟨⟨29, 0⟩, .ro, 0x0⟩]⟩ /- TIDE_CYCLE -/,
  ⟨0x24, [], [⟨⟨29, 0⟩, .rwl, 0x0⟩]⟩ /- TIDE_SWAP_AT_NS -/,
  ⟨0x28, [], [⟨⟨31, 0⟩, .rwl, 0x0⟩]⟩ /- TIDE_SWAP_AT_SEC -/,
  ⟨0x2C, [], [⟨⟨12, 0⟩, .rwl, 0x40⟩]⟩ /- TIDE_WIN_TOL -/,
  ⟨0x30, [], [⟨⟨12, 0⟩, .ro, 0x0⟩, ⟨⟨13, 13⟩, .ro, 0x0⟩]⟩ /- TIDE_MARK_IDX -/]
def mapTide1 : List RegRow := [
  ⟨0x34, [], [⟨⟨12, 0⟩, .ro, 0x0⟩, ⟨⟨13, 13⟩, .ro, 0x0⟩, ⟨⟨19, 16⟩, .ro, 0x0⟩]⟩ /- TIDE_DROP_LAST -/,
  ⟨0x40, [(0x10, 2)], [⟨⟨29, 0⟩, .rw, 0x0⟩]⟩ /- TIDE_BANKn_CYCLE -/,
  ⟨0x44, [(0x10, 2)], [⟨⟨13, 0⟩, .rw, 0x0⟩]⟩ /- TIDE_BANKn_LEN -/,
  ⟨0x48, [(0x10, 2)], [⟨⟨2, 0⟩, .ro, 0x0⟩]⟩ /- TIDE_BANKn_STATE -/,
  ⟨0x4C, [(0x10, 2)], [⟨⟨12, 0⟩, .ro, 0x0⟩, ⟨⟨23, 16⟩, .ro, 0x0⟩]⟩ /- TIDE_BANKn_FAIL -/,
  ⟨0x60, [(0x4, 6)], [⟨⟨15, 0⟩, .rw, 0x0⟩]⟩ /- TIDE_GUARDn -/,
  ⟨0x80, [], [⟨⟨7, 0⟩, .wo, 0x0⟩, ⟨⟨9, 8⟩, .wo, 0x0⟩]⟩ /- TIDE_HB_CMD -/,
  ⟨0x100, [(0x20, 6)], [⟨⟨31, 0⟩, .cnt, 0x0⟩]⟩ /- TIDE_WINn_EARLY -/,
  ⟨0x104, [(0x20, 6)], [⟨⟨31, 0⟩, .cnt, 0x0⟩]⟩ /- TIDE_WINn_LATE -/,
  ⟨0x108, [(0x20, 6)], [⟨⟨31, 0⟩, .cnt, 0x0⟩]⟩ /- TIDE_WINn_STOW_EARLY -/,
  ⟨0x10C, [(0x20, 6)], [⟨⟨31, 0⟩, .cnt, 0x0⟩]⟩ /- TIDE_WINn_STOW_LATE -/,
  ⟨0x110, [(0x20, 6)], [⟨⟨31, 0⟩, .cnt, 0x0⟩]⟩ /- TIDE_WINn_EXTRA -/]
def mapTide2 : List RegRow := [
  ⟨0x114, [(0x20, 6)], [⟨⟨31, 0⟩, .cnt, 0x0⟩]⟩ /- TIDE_WINn_OVERRUN -/,
  ⟨0x118, [(0x20, 6)], [⟨⟨31, 0⟩, .ro, 0x0⟩]⟩ /- TIDE_WINn_DEV -/,
  ⟨0x200, [], [⟨⟨31, 0⟩, .cnt, 0x0⟩]⟩ /- TIDE_HAND_SKIP -/,
  ⟨0x204, [], [⟨⟨31, 0⟩, .cnt, 0x0⟩]⟩ /- TIDE_STALE -/,
  ⟨0x208, [], [⟨⟨31, 0⟩, .cnt, 0x0⟩]⟩ /- TIDE_DROP -/,
  ⟨0x20C, [], [⟨⟨31, 0⟩, .cnt, 0x0⟩]⟩ /- TIDE_CATCHUP -/,
  ⟨0x210, [], [⟨⟨31, 0⟩, .cnt, 0x0⟩]⟩ /- TIDE_CYCLES_SKIPPED -/,
  ⟨0x1000, [(0x8, 256)], [⟨⟨15, 0⟩, .rw, 0x0⟩, ⟨⟨23, 16⟩, .rw, 0x0⟩, ⟨⟨24, 24⟩, .rw, 0x0⟩, ⟨⟨25, 25⟩, .rw, 0x0⟩, ⟨⟨31, 31⟩, .rw, 0x0⟩]⟩ /- TIDE_HBn_CFG -/,
  ⟨0x1004, [(0x8, 256)], [⟨⟨1, 0⟩, .ro, 0x0⟩, ⟨⟨3, 2⟩, .ro, 0x1⟩, ⟨⟨5, 4⟩, .ro, 0x2⟩, ⟨⟨8, 8⟩, .ro, 0x0⟩, ⟨⟨9, 9⟩, .ro, 0x0⟩, ⟨⟨10, 10⟩, .ro, 0x0⟩, ⟨⟨31, 16⟩, .ro, 0x0⟩]⟩ /- TIDE_HBn_STATE -/]
/-- The rows of block 5, TIDE. -/
def mapTide : List RegRow := mapTide0 ++ mapTide1 ++ mapTide2

def mapSwitch0 : List RegRow := [
  ⟨0x0, [], [⟨⟨0, 0⟩, .w1c, 0x0⟩, ⟨⟨1, 1⟩, .w1c, 0x0⟩, ⟨⟨2, 2⟩, .w1c, 0x0⟩, ⟨⟨3, 3⟩, .w1c, 0x0⟩, ⟨⟨4, 4⟩, .w1c, 0x0⟩, ⟨⟨5, 5⟩, .w1c, 0x0⟩, ⟨⟨6, 6⟩, .w1c, 0x0⟩, ⟨⟨7, 7⟩, .w1c, 0x0⟩]⟩ /- SW_STATUS -/,
  ⟨0x4, [], [⟨⟨11, 0⟩, .rwl, 0x100⟩]⟩ /- SW_C7_RESERVE -/,
  ⟨0x8, [], [⟨⟨13, 0⟩, .ro, 0x1F00⟩, ⟨⟨27, 16⟩, .ro, 0x100⟩]⟩ /- SW_POOL_FREE -/,
  ⟨0xC, [], [⟨⟨19, 0⟩, .rw, 0x12C⟩]⟩ /- SW_AGE_TIME -/,
  ⟨0x10, [], [⟨⟨1, 0⟩, .rw, 0x0⟩, ⟨⟨3, 2⟩, .rw, 0x0⟩, ⟨⟨5, 4⟩, .rw, 0x0⟩, ⟨⟨8, 8⟩, .rw, 0x1⟩]⟩ /- SW_RED_CTL -/,
  ⟨0x14, [], [⟨⟨31, 0⟩, .rw, 0x0⟩]⟩ /- SW_NODE_MAC_LO -/,
  ⟨0x18, [], [⟨⟨15, 0⟩, .rw, 0x0⟩]⟩ /- SW_NODE_MAC_HI -/,
  ⟨0x20, [(0x4, 3)], [⟨⟨15, 0⟩, .rw, 0x0⟩]⟩ /- SW_REDn_TXSEQ -/,
  ⟨0x30, [], [⟨⟨31, 0⟩, .cnt, 0x0⟩]⟩ /- SW_RED_UNMATCHED -/,
  ⟨0x40, [], [⟨⟨2, 0⟩, .wo, 0x0⟩, ⟨⟨27, 16⟩, .rw, 0x0⟩, ⟨⟨29, 29⟩, .ro, 0x0⟩, ⟨⟨30, 30⟩, .ro, 0x0⟩, ⟨⟨31, 31⟩, .ro, 0x0⟩]⟩ /- SW_MAC_CMD -/,
  ⟨0x44, [], [⟨⟨31, 0⟩, .rw, 0x0⟩]⟩ /- SW_MAC_KEY_LO -/,
  ⟨0x48, [], [⟨⟨15, 0⟩, .rw, 0x0⟩, ⟨⟨27, 16⟩, .rw, 0x0⟩]⟩ /- SW_MAC_KEY_HI -/]
def mapSwitch1 : List RegRow := [
  ⟨0x4C, [], [⟨⟨7, 0⟩, .rw, 0x0⟩, ⟨⟨8, 8⟩, .rw, 0x0⟩, ⟨⟨9, 9⟩, .rw, 0x0⟩, ⟨⟨31, 16⟩, .ro, 0x0⟩]⟩ /- SW_MAC_DATA -/,
  ⟨0x50, [], [⟨⟨11, 0⟩, .rw, 0x0⟩, ⟨⟨17, 16⟩, .wo, 0x0⟩]⟩ /- SW_VLAN_CMD -/,
  ⟨0x54, [], [⟨⟨7, 0⟩, .rw, 0x0⟩, ⟨⟨15, 8⟩, .rw, 0x0⟩, ⟨⟨27, 16⟩, .rw, 0x0⟩, ⟨⟨28, 28⟩, .rw, 0x0⟩, ⟨⟨31, 31⟩, .rw, 0x0⟩]⟩ /- SW_VLAN_DATA -/,
  ⟨0x100, [(0x10, 8)], [⟨⟨11, 0⟩, .rw, 0x1⟩, ⟨⟨14, 12⟩, .rw, 0x0⟩, ⟨⟨16, 16⟩, .rw, 0x1⟩, ⟨⟨17, 17⟩, .rw, 0x0⟩, ⟨⟨18, 18⟩, .rw, 0x0⟩]⟩ /- SW_PORTn_CFG -/,
  ⟨0x104, [(0x10, 8)], [⟨⟨2, 0⟩, .rw, 0x0⟩, ⟨⟨5, 3⟩, .rw, 0x1⟩, ⟨⟨8, 6⟩, .rw, 0x2⟩, ⟨⟨11, 9⟩, .rw, 0x3⟩, ⟨⟨14, 12⟩, .rw, 0x4⟩, ⟨⟨17, 15⟩, .rw, 0x5⟩, ⟨⟨20, 18⟩, .rw, 0x6⟩, ⟨⟨23, 21⟩, .rw, 0x7⟩]⟩ /- SW_PORTn_PCP_MAP -/,
  ⟨0x200, [(0x20, 8)], [⟨⟨31, 0⟩, .cnt, 0x0⟩]⟩ /- SW_PORTn_FCS_STOMPED -/,
  ⟨0x204, [(0x20, 8)], [⟨⟨31, 0⟩, .cnt, 0x0⟩]⟩ /- SW_PORTn_FCS_DROP -/,
  ⟨0x208, [(0x20, 8)], [⟨⟨31, 0⟩, .cnt, 0x0⟩]⟩ /- SW_PORTn_VLAN_DROP -/,
  ⟨0x20C, [(0x20, 8)], [⟨⟨31, 0⟩, .cnt, 0x0⟩]⟩ /- SW_PORTn_NOCELL -/,
  ⟨0x210, [(0x20, 8)], [⟨⟨31, 0⟩, .cnt, 0x0⟩]⟩ /- SW_PORTn_CT_OVERSIZE -/,
  ⟨0x800, [(0x20, 64)], [⟨⟨13, 0⟩, .rw, 0x2000⟩]⟩ /- SW_Qn_ECN_MARK -/,
  ⟨0x804, [(0x20, 64)], [⟨⟨13, 0⟩, .rw, 0x400⟩]⟩ /- SW_Qn_DROP -/]
def mapSwitch2 : List RegRow := [
  ⟨0x808, [(0x20, 64)], [⟨⟨13, 0⟩, .ro, 0x0⟩]⟩ /- SW_Qn_DEPTH -/,
  ⟨0x80C, [(0x20, 64)], [⟨⟨31, 0⟩, .cnt, 0x0⟩]⟩ /- SW_Qn_DROPPED -/,
  ⟨0x810, [(0x20, 64)], [⟨⟨31, 0⟩, .cnt, 0x0⟩]⟩ /- SW_Qn_MARKED -/]
/-- The rows of block 6, SWITCH. -/
def mapSwitch : List RegRow := mapSwitch0 ++ mapSwitch1 ++ mapSwitch2

def mapStream0 : List RegRow := [
  ⟨0x0, [], [⟨⟨9, 0⟩, .rw, 0x0⟩]⟩ /- STREAM_SEL -/,
  ⟨0x4, [], [⟨⟨2, 0⟩, .wo, 0x0⟩, ⟨⟨31, 31⟩, .ro, 0x0⟩]⟩ /- STREAM_CMD -/,
  ⟨0x8, [], [⟨⟨0, 0⟩, .w1c, 0x0⟩, ⟨⟨1, 1⟩, .w1c, 0x0⟩, ⟨⟨2, 2⟩, .w1c, 0x0⟩]⟩ /- STREAM_STATUS -/,
  ⟨0x10, [], [⟨⟨31, 0⟩, .rw, 0x0⟩]⟩ /- STREAM_KEY_LO -/,
  ⟨0x14, [], [⟨⟨15, 0⟩, .rw, 0x0⟩, ⟨⟨27, 16⟩, .rw, 0x0⟩, ⟨⟨29, 28⟩, .rw, 0x0⟩, ⟨⟨30, 30⟩, .rw, 0x0⟩]⟩ /- STREAM_KEY_HI -/,
  ⟨0x18, [], [⟨⟨13, 0⟩, .rw, 0x0⟩, ⟨⟨14, 14⟩, .rw, 0x0⟩, ⟨⟨18, 16⟩, .rw, 0x0⟩, ⟨⟨19, 19⟩, .rw, 0x0⟩, ⟨⟨20, 20⟩, .rw, 0x0⟩, ⟨⟨21, 21⟩, .rw, 0x0⟩, ⟨⟨22, 22⟩, .rw, 0x0⟩, ⟨⟨23, 23⟩, .rw, 0x0⟩, ⟨⟨24, 24⟩, .ro, 0x0⟩, ⟨⟨25, 25⟩, .ro, 0x0⟩]⟩ /- STREAM_FILTER -/,
  ⟨0x1C, [], [⟨⟨23, 0⟩, .rw, 0x0⟩]⟩ /- STREAM_CIR -/,
  ⟨0x20, [], [⟨⟨23, 0⟩, .rw, 0x0⟩]⟩ /- STREAM_CBS -/,
  ⟨0x24, [], [⟨⟨23, 0⟩, .rw, 0x0⟩, ⟨⟨31, 31⟩, .rw, 0x0⟩]⟩ /- STREAM_EIR -/,
  ⟨0x28, [], [⟨⟨23, 0⟩, .rw, 0x0⟩]⟩ /- STREAM_EBS -/,
  ⟨0x2C, [], [⟨⟨15, 0⟩, .rw, 0x0⟩]⟩ /- STREAM_SEQ_RESET -/,
  ⟨0x40, [], [⟨⟨31, 0⟩, .ro, 0x0⟩]⟩ /- STREAM_MATCHED -/]
def mapStream1 : List RegRow := [
  ⟨0x44, [], [⟨⟨31, 0⟩, .ro, 0x0⟩]⟩ /- STREAM_PASSED -/,
  ⟨0x48, [], [⟨⟨31, 0⟩, .ro, 0x0⟩]⟩ /- STREAM_SDU_DROP -/,
  ⟨0x4C, [], [⟨⟨31, 0⟩, .ro, 0x0⟩]⟩ /- STREAM_METER_DROP -/,
  ⟨0x50, [], [⟨⟨31, 0⟩, .ro, 0x0⟩]⟩ /- STREAM_DUP_DROP -/,
  ⟨0x54, [], [⟨⟨31, 0⟩, .ro, 0x0⟩]⟩ /- STREAM_OUT_OF_WINDOW -/,
  ⟨0x58, [], [⟨⟨31, 0⟩, .ro, 0x0⟩]⟩ /- STREAM_YELLOW -/]
/-- The rows of block 7, STREAM. -/
def mapStream : List RegRow := mapStream0 ++ mapStream1

def mapPort0 : List RegRow := [
  ⟨0x0, [(0x2000, 6)], [⟨⟨0, 0⟩, .wo, 0x0⟩, ⟨⟨2, 2⟩, .wo, 0x0⟩, ⟨⟨6, 4⟩, .rw, 0x0⟩, ⟨⟨12, 12⟩, .rw, 0x1⟩]⟩ /- PORTn_CTL -/,
  ⟨0x4, [(0x2000, 6)], [⟨⟨0, 0⟩, .ro, 0x0⟩, ⟨⟨2, 1⟩, .ro, 0x0⟩, ⟨⟨3, 3⟩, .ro, 0x0⟩, ⟨⟨4, 4⟩, .ro, 0x0⟩, ⟨⟨5, 5⟩, .ro, 0x0⟩]⟩ /- PORTn_LINK -/,
  ⟨0x8, [(0x2000, 6)], [⟨⟨0, 0⟩, .w1c, 0x0⟩, ⟨⟨1, 1⟩, .w1c, 0x0⟩, ⟨⟨2, 2⟩, .w1c, 0x0⟩, ⟨⟨3, 3⟩, .w1c, 0x0⟩, ⟨⟨4, 4⟩, .w1c, 0x0⟩, ⟨⟨5, 5⟩, .w1c, 0x0⟩, ⟨⟨6, 6⟩, .w1c, 0x0⟩, ⟨⟨7, 7⟩, .w1c, 0x0⟩, ⟨⟨8, 8⟩, .w1c, 0x0⟩, ⟨⟨9, 9⟩, .w1c, 0x0⟩, ⟨⟨10, 10⟩, .w1c, 0x0⟩]⟩ /- PORTn_STATUS -/,
  ⟨0xC, [(0x2000, 6)], [⟨⟨7, 0⟩, .rw, 0x0⟩]⟩ /- PORTn_LINK_FILTER -/,
  ⟨0x10, [(0x2000, 6)], [⟨⟨13, 0⟩, .rw, 0x2400⟩]⟩ /- PORTn_MAX_FRAME -/,
  ⟨0x14, [(0x2000, 6)], [⟨⟨0, 0⟩, .rw, 0x1⟩, ⟨⟨1, 1⟩, .rw, 0x1⟩, ⟨⟨2, 2⟩, .rw, 0x1⟩, ⟨⟨4, 4⟩, .rw, 0x1⟩, ⟨⟨5, 5⟩, .rw, 0x0⟩, ⟨⟨6, 6⟩, .rw, 0x0⟩, ⟨⟨7, 7⟩, .rw, 0x0⟩, ⟨⟨9, 8⟩, .rw, 0x0⟩, ⟨⟨11, 10⟩, .rw, 0x0⟩, ⟨⟨13, 12⟩, .rw, 0x0⟩]⟩ /- PORTn_AN_ADV -/,
  ⟨0x18, [(0x2000, 6)], [⟨⟨7, 0⟩, .ro, 0x0⟩, ⟨⟨12, 12⟩, .ro, 0x0⟩]⟩ /- PORTn_AN_LP -/,
  ⟨0x20, [(0x2000, 6)], [⟨⟨15, 0⟩, .rw, 0x8100⟩, ⟨⟨16, 16⟩, .rw, 0x0⟩, ⟨⟨19, 18⟩, .rw, 0x0⟩]⟩ /- PORTn_TAG_CTL -/,
  ⟨0x40, [(0x2000, 6), (0x4, 8)], [⟨⟨9, 0⟩, .rw, 0x0⟩, ⟨⟨21, 10⟩, .rw, 0x0⟩, ⟨⟨24, 22⟩, .rw, 0x0⟩, ⟨⟨27, 26⟩, .rw, 0x0⟩]⟩ /- PORTn_STREAM_TAGm -/,
  ⟨0x60, [(0x2000, 6)], [⟨⟨0, 0⟩, .rw, 0x0⟩, ⟨⟨1, 1⟩, .rw, 0x0⟩, ⟨⟨2, 2⟩, .rw, 0x0⟩]⟩ /- PORTn_FC_CTL -/,
  ⟨0x64, [(0x2000, 6)], [⟨⟨15, 0⟩, .rw, 0x0⟩, ⟨⟨23, 16⟩, .rw, 0x0⟩, ⟨⟨24, 24⟩, .w1s, 0x0⟩]⟩ /- PORTn_FC_TX -/,
  ⟨0x68, [(0x2000, 6)], [⟨⟨7, 0⟩, .ro, 0x0⟩]⟩ /- PORTn_FC_STATE -/]
def mapPort1 : List RegRow := [
  ⟨0x70, [(0x2000, 6)], [⟨⟨0, 0⟩, .rw, 0x0⟩, ⟨⟨1, 1⟩, .rw, 0x1⟩, ⟨⟨31, 12⟩, .ro, 0x0⟩]⟩ /- PORTn_EEE_CTL -/,
  ⟨0x74, [(0x2000, 6)], [⟨⟨19, 0⟩, .rw, 0x7530⟩]⟩ /- PORTn_EEE_TW -/,
  ⟨0x78, [(0x2000, 6)], [⟨⟨15, 0⟩, .rw, 0x64⟩]⟩ /- PORTn_EEE_IDLE -/,
  ⟨0x80, [(0x2000, 6)], [⟨⟨0, 0⟩, .rw, 0x0⟩, ⟨⟨1, 1⟩, .rw, 0x0⟩, ⟨⟨2, 2⟩, .rw, 0x0⟩, ⟨⟨10, 3⟩, .rw, 0xA⟩, ⟨⟨13, 12⟩, .rw, 0x0⟩]⟩ /- PORTn_MM_CTL -/,
  ⟨0x84, [(0x2000, 6)], [⟨⟨2, 0⟩, .ro, 0x0⟩, ⟨⟨3, 3⟩, .ro, 0x0⟩, ⟨⟨4, 4⟩, .ro, 0x0⟩, ⟨⟨31, 16⟩, .ro, 0x0⟩]⟩ /- PORTn_MM_STATUS -/,
  ⟨0x90, [(0x2000, 6)], [⟨⟨31, 0⟩, .rw, 0x0⟩]⟩ /- PORTn_TS_ADJ_RX -/,
  ⟨0x94, [(0x2000, 6)], [⟨⟨31, 0⟩, .rw, 0x0⟩]⟩ /- PORTn_TS_ADJ_TX -/,
  ⟨0x200, [(0x2000, 6)], [⟨⟨31, 0⟩, .cnt, 0x0⟩]⟩ /- PORTn_OCTETS_TX_LO -/,
  ⟨0x204, [(0x2000, 6)], [⟨⟨31, 0⟩, .ro, 0x0⟩]⟩ /- PORTn_OCTETS_TX_HI -/,
  ⟨0x208, [(0x2000, 6)], [⟨⟨31, 0⟩, .cnt, 0x0⟩]⟩ /- PORTn_FRAMES_TX -/,
  ⟨0x20C, [(0x2000, 6)], [⟨⟨31, 0⟩, .cnt, 0x0⟩]⟩ /- PORTn_MCAST_TX -/,
  ⟨0x210, [(0x2000, 6)], [⟨⟨31, 0⟩, .cnt, 0x0⟩]⟩ /- PORTn_BCAST_TX -/]
def mapPort2 : List RegRow := [
  ⟨0x214, [(0x2000, 6)], [⟨⟨31, 0⟩, .cnt, 0x0⟩]⟩ /- PORTn_PAUSE_TX -/,
  ⟨0x218, [(0x2000, 6)], [⟨⟨31, 0⟩, .cnt, 0x0⟩]⟩ /- PORTn_TX_OVERSIZE_DROP -/,
  ⟨0x21C, [(0x2000, 6)], [⟨⟨31, 0⟩, .cnt, 0x0⟩]⟩ /- PORTn_LINKDOWN_DROP -/,
  ⟨0x220, [(0x2000, 6)], [⟨⟨31, 0⟩, .cnt, 0x0⟩]⟩ /- PORTn_OCTETS_RX_LO -/,
  ⟨0x224, [(0x2000, 6)], [⟨⟨31, 0⟩, .ro, 0x0⟩]⟩ /- PORTn_OCTETS_RX_HI -/,
  ⟨0x228, [(0x2000, 6)], [⟨⟨31, 0⟩, .cnt, 0x0⟩]⟩ /- PORTn_FRAMES_RX -/,
  ⟨0x22C, [(0x2000, 6)], [⟨⟨31, 0⟩, .cnt, 0x0⟩]⟩ /- PORTn_MCAST_RX -/,
  ⟨0x230, [(0x2000, 6)], [⟨⟨31, 0⟩, .cnt, 0x0⟩]⟩ /- PORTn_BCAST_RX -/,
  ⟨0x234, [(0x2000, 6)], [⟨⟨31, 0⟩, .cnt, 0x0⟩]⟩ /- PORTn_PAUSE_RX -/,
  ⟨0x238, [(0x2000, 6)], [⟨⟨31, 0⟩, .cnt, 0x0⟩]⟩ /- PORTn_FCS_ERR -/,
  ⟨0x23C, [(0x2000, 6)], [⟨⟨31, 0⟩, .cnt, 0x0⟩]⟩ /- PORTn_ALIGN_ERR -/,
  ⟨0x240, [(0x2000, 6)], [⟨⟨31, 0⟩, .cnt, 0x0⟩]⟩ /- PORTn_TOO_LONG -/]
def mapPort3 : List RegRow := [
  ⟨0x244, [(0x2000, 6)], [⟨⟨31, 0⟩, .cnt, 0x0⟩]⟩ /- PORTn_RUNT -/,
  ⟨0x248, [(0x2000, 6)], [⟨⟨31, 0⟩, .cnt, 0x0⟩]⟩ /- PORTn_SYMBOL_ERR -/,
  ⟨0x24C, [(0x2000, 6)], [⟨⟨31, 0⟩, .cnt, 0x0⟩]⟩ /- PORTn_UNSUP_OPCODE -/,
  ⟨0x250, [(0x2000, 6)], [⟨⟨31, 0⟩, .cnt, 0x0⟩]⟩ /- PORTn_PFC_RX -/,
  ⟨0x254, [(0x2000, 6)], [⟨⟨31, 0⟩, .cnt, 0x0⟩]⟩ /- PORTn_PFC_TX -/,
  ⟨0x260, [(0x2000, 6)], [⟨⟨31, 0⟩, .cnt, 0x0⟩]⟩ /- PORTn_LPI_TX_US -/,
  ⟨0x264, [(0x2000, 6)], [⟨⟨31, 0⟩, .cnt, 0x0⟩]⟩ /- PORTn_LPI_RX_US -/,
  ⟨0x268, [(0x2000, 6)], [⟨⟨31, 0⟩, .cnt, 0x0⟩]⟩ /- PORTn_LPI_TX_TRANS -/,
  ⟨0x26C, [(0x2000, 6)], [⟨⟨31, 0⟩, .cnt, 0x0⟩]⟩ /- PORTn_LPI_RX_TRANS -/,
  ⟨0x270, [(0x2000, 6)], [⟨⟨31, 0⟩, .cnt, 0x0⟩]⟩ /- PORTn_EEE_WAIT -/,
  ⟨0x280, [(0x2000, 6)], [⟨⟨31, 0⟩, .cnt, 0x0⟩]⟩ /- PORTn_MM_ASSY_ERR -/,
  ⟨0x284, [(0x2000, 6)], [⟨⟨31, 0⟩, .cnt, 0x0⟩]⟩ /- PORTn_MM_SMD_ERR -/]
def mapPort4 : List RegRow := [
  ⟨0x288, [(0x2000, 6)], [⟨⟨31, 0⟩, .cnt, 0x0⟩]⟩ /- PORTn_MM_ASSY_OK -/,
  ⟨0x28C, [(0x2000, 6)], [⟨⟨31, 0⟩, .cnt, 0x0⟩]⟩ /- PORTn_MM_FRAG_RX -/,
  ⟨0x290, [(0x2000, 6)], [⟨⟨31, 0⟩, .cnt, 0x0⟩]⟩ /- PORTn_MM_FRAG_TX -/,
  ⟨0x294, [(0x2000, 6)], [⟨⟨31, 0⟩, .cnt, 0x0⟩]⟩ /- PORTn_MM_HOLD -/,
  ⟨0x298, [(0x2000, 6)], [⟨⟨31, 0⟩, .cnt, 0x0⟩]⟩ /- PORTn_LINK_DOWN_CNT -/,
  ⟨0xC000, [], [⟨⟨1, 0⟩, .wo, 0x0⟩, ⟨⟨2, 2⟩, .rw, 0x0⟩, ⟨⟨7, 3⟩, .rw, 0x0⟩, ⟨⟨12, 8⟩, .rw, 0x0⟩, ⟨⟨31, 31⟩, .ro, 0x0⟩]⟩ /- PORT_MDIO_CMD -/,
  ⟨0xC004, [], [⟨⟨15, 0⟩, .rw, 0x0⟩]⟩ /- PORT_MDIO_DATA -/,
  ⟨0xC008, [], [⟨⟨7, 0⟩, .rw, 0x63⟩]⟩ /- PORT_MDIO_DIV -/]
/-- The rows of block 8, PORT. -/
def mapPort : List RegRow := mapPort0 ++ mapPort1 ++ mapPort2 ++ mapPort3 ++ mapPort4

def mapStow0 : List RegRow := [
  ⟨0x0, [], [⟨⟨0, 0⟩, .w1c, 0x0⟩, ⟨⟨1, 1⟩, .w1c, 0x0⟩, ⟨⟨2, 2⟩, .w1c, 0x0⟩, ⟨⟨3, 3⟩, .w1c, 0x0⟩, ⟨⟨4, 4⟩, .w1c, 0x0⟩, ⟨⟨5, 5⟩, .w1c, 0x0⟩, ⟨⟨6, 6⟩, .w1c, 0x0⟩, ⟨⟨7, 7⟩, .w1c, 0x0⟩]⟩ /- STOW_STATUS -/,
  ⟨0x4, [], [⟨⟨7, 0⟩, .wo, 0x0⟩, ⟨⟨9, 8⟩, .wo, 0x0⟩, ⟨⟨31, 31⟩, .ro, 0x0⟩]⟩ /- STOW_CMD -/,
  ⟨0x8, [], [⟨⟨6, 0⟩, .ro, 0x0⟩, ⟨⟨15, 8⟩, .ro, 0x0⟩, ⟨⟨23, 16⟩, .ro, 0x0⟩]⟩ /- STOW_FAIL -/,
  ⟨0x10, [], [⟨⟨31, 0⟩, .rw, 0x0⟩]⟩ /- STOW_STAGE_SIG_LO -/,
  ⟨0x14, [], [⟨⟨15, 0⟩, .rw, 0x0⟩, ⟨⟨31, 16⟩, .rw, 0x0⟩]⟩ /- STOW_STAGE_SIG_HI -/,
  ⟨0x18, [], [⟨⟨7, 0⟩, .rw, 0x0⟩, ⟨⟨15, 8⟩, .rw, 0x0⟩, ⟨⟨29, 16⟩, .rw, 0x0⟩]⟩ /- STOW_STAGE_CTL -/,
  ⟨0x1C, [], [⟨⟨14, 0⟩, .rw, 0x0⟩]⟩ /- STOW_STAGE_BASE -/,
  ⟨0x100, [(0x20, 6)], [⟨⟨31, 0⟩, .cnt, 0x0⟩]⟩ /- STOWn_PROCESSED -/,
  ⟨0x104, [(0x20, 6)], [⟨⟨31, 0⟩, .cnt, 0x0⟩]⟩ /- STOWn_MISS -/,
  ⟨0x108, [(0x20, 6)], [⟨⟨31, 0⟩, .cnt, 0x0⟩]⟩ /- STOWn_SHORT -/,
  ⟨0x10C, [(0x20, 6)], [⟨⟨31, 0⟩, .cnt, 0x0⟩]⟩ /- STOWn_LONG -/,
  ⟨0x110, [(0x20, 6)], [⟨⟨31, 0⟩, .cnt, 0x0⟩]⟩ /- STOWn_NOPLAN -/]
def mapStow1 : List RegRow := [
  ⟨0x114, [(0x20, 6)], [⟨⟨31, 0⟩, .cnt, 0x0⟩]⟩ /- STOWn_POISON -/,
  ⟨0x118, [(0x20, 6)], [⟨⟨31, 0⟩, .cnt, 0x0⟩]⟩ /- STOWn_SKIP -/,
  ⟨0x1000, [(0x10, 256)], [⟨⟨31, 0⟩, .ro, 0x0⟩]⟩ /- STOW_PLANp_SIG_LO -/,
  ⟨0x1004, [(0x10, 256)], [⟨⟨15, 0⟩, .ro, 0x0⟩, ⟨⟨31, 16⟩, .ro, 0x0⟩]⟩ /- STOW_PLANp_SIG_HI -/,
  ⟨0x1008, [(0x10, 256)], [⟨⟨7, 0⟩, .ro, 0x0⟩, ⟨⟨15, 8⟩, .ro, 0x0⟩, ⟨⟨29, 16⟩, .ro, 0x0⟩, ⟨⟨31, 31⟩, .ro, 0x0⟩]⟩ /- STOW_PLANp_CTL -/,
  ⟨0x100C, [(0x10, 256)], [⟨⟨14, 0⟩, .ro, 0x0⟩]⟩ /- STOW_PLANp_BASE -/]
/-- The rows of block 9, STOW. -/
def mapStow : List RegRow := mapStow0 ++ mapStow1

def mapQectl0 : List RegRow := [
  ⟨0x0, [(0x400, 25)], [⟨⟨0, 0⟩, .wo, 0x0⟩, ⟨⟨1, 1⟩, .wo, 0x0⟩, ⟨⟨2, 2⟩, .wo, 0x0⟩, ⟨⟨3, 3⟩, .wo, 0x0⟩, ⟨⟨4, 4⟩, .wo, 0x0⟩]⟩ /- QEn_CTL -/,
  ⟨0x4, [(0x400, 25)], [⟨⟨1, 0⟩, .ro, 0x0⟩, ⟨⟨6, 4⟩, .ro, 0x0⟩, ⟨⟨7, 7⟩, .ro, 0x0⟩, ⟨⟨29, 16⟩, .ro, 0x0⟩]⟩ /- QEn_STATE -/,
  ⟨0x8, [(0x400, 25)], [⟨⟨0, 0⟩, .w1c, 0x0⟩, ⟨⟨1, 1⟩, .w1c, 0x0⟩, ⟨⟨2, 2⟩, .w1c, 0x0⟩, ⟨⟨3, 3⟩, .w1c, 0x0⟩, ⟨⟨4, 4⟩, .w1c, 0x0⟩, ⟨⟨5, 5⟩, .w1c, 0x0⟩]⟩ /- QEn_STATUS -/,
  ⟨0xC, [(0x400, 24)], [⟨⟨11, 0⟩, .rwl, 0x0⟩, ⟨⟨20, 12⟩, .rwl, 0x0⟩, ⟨⟨29, 21⟩, .rwl, 0x0⟩]⟩ /- QEn_CFG -/,
  ⟨0x10, [(0x400, 25)], [⟨⟨31, 0⟩, .w1c, 0x0⟩]⟩ /- QEn_EVENT -/,
  ⟨0x14, [(0x400, 25)], [⟨⟨27, 20⟩, .wo, 0x0⟩]⟩ /- QEn_EVENT_SET -/,
  ⟨0x18, [(0x400, 25)], [⟨⟨31, 0⟩, .rw, 0x0⟩]⟩ /- QEn_EVENT_IE -/,
  ⟨0x1C, [(0x400, 25)], [⟨⟨5, 0⟩, .rw, 0x0⟩, ⟨⟨13, 8⟩, .rw, 0x0⟩, ⟨⟨21, 16⟩, .rw, 0x0⟩, ⟨⟨29, 24⟩, .rw, 0x0⟩, ⟨⟨7, 6⟩, .rw, 0x0⟩, ⟨⟨15, 14⟩, .rw, 0x0⟩, ⟨⟨23, 22⟩, .rw, 0x0⟩, ⟨⟨31, 30⟩, .rw, 0x0⟩]⟩ /- QEn_FQW_LO -/,
  ⟨0x20, [(0x400, 25)], [⟨⟨5, 0⟩, .rw, 0x0⟩, ⟨⟨13, 8⟩, .rw, 0x0⟩, ⟨⟨21, 16⟩, .rw, 0x0⟩, ⟨⟨29, 24⟩, .rw, 0x0⟩, ⟨⟨7, 6⟩, .rw, 0x0⟩, ⟨⟨15, 14⟩, .rw, 0x0⟩, ⟨⟨23, 22⟩, .rw, 0x0⟩, ⟨⟨31, 30⟩, .rw, 0x0⟩]⟩ /- QEn_FQW_HI -/,
  ⟨0x24, [(0x400, 25)], [⟨⟨4, 0⟩, .rw, 0x0⟩, ⟨⟨12, 8⟩, .rw, 0x0⟩, ⟨⟨20, 16⟩, .rw, 0x0⟩, ⟨⟨28, 24⟩, .rw, 0x0⟩]⟩ /- QEn_SRCSEL -/,
  ⟨0x28, [(0x400, 25)], [⟨⟨7, 0⟩, .rw, 0x0⟩, ⟨⟨15, 8⟩, .rw, 0x0⟩, ⟨⟨27, 20⟩, .ro, 0x0⟩]⟩ /- QEn_MOOR -/,
  ⟨0x2C, [(0x400, 25)], [⟨⟨23, 0⟩, .rw, 0x0⟩]⟩ /- QEn_TIMER -/]
def mapQectl1 : List RegRow := [
  ⟨0x30, [(0x400, 25)], [⟨⟨19, 0⟩, .rw, 0x0⟩, ⟨⟨31, 31⟩, .wo, 0x0⟩]⟩ /- QEn_WDOG -/,
  ⟨0x34, [(0x400, 24)], [⟨⟨11, 0⟩, .rw, 0x0⟩, ⟨⟨13, 12⟩, .rw, 0x0⟩, ⟨⟨27, 16⟩, .rw, 0x0⟩, ⟨⟨29, 28⟩, .rw, 0x0⟩]⟩ /- QEn_BP01 -/,
  ⟨0x38, [(0x400, 24)], [⟨⟨11, 0⟩, .rw, 0x0⟩, ⟨⟨13, 12⟩, .rw, 0x0⟩, ⟨⟨27, 16⟩, .rw, 0x0⟩, ⟨⟨29, 28⟩, .rw, 0x0⟩]⟩ /- QEn_BP23 -/,
  ⟨0x3C, [(0x400, 25)], [⟨⟨31, 0⟩, .cnt, 0x0⟩]⟩ /- QEn_TRAP_CNT -/,
  ⟨0x600C, [], [⟨⟨13, 0⟩, .rwl, 0x0⟩]⟩ /- HM_CFG -/,
  ⟨0x6034, [], [⟨⟨13, 0⟩, .rw, 0x0⟩, ⟨⟨15, 14⟩, .rw, 0x0⟩, ⟨⟨29, 16⟩, .rw, 0x0⟩, ⟨⟨31, 30⟩, .rw, 0x0⟩]⟩ /- HM_BP01 -/,
  ⟨0x6038, [], [⟨⟨13, 0⟩, .rw, 0x0⟩, ⟨⟨15, 14⟩, .rw, 0x0⟩, ⟨⟨29, 16⟩, .rw, 0x0⟩, ⟨⟨31, 30⟩, .rw, 0x0⟩]⟩ /- HM_BP23 -/,
  ⟨0x8000, [(0x20, 24)], [⟨⟨23, 0⟩, .rwl, 0x0⟩]⟩ /- BERTHb_CFG -/,
  ⟨0x8004, [(0x20, 24)], [⟨⟨1, 0⟩, .rwl, 0x0⟩, ⟨⟨6, 4⟩, .rwl, 0x0⟩, ⟨⟨11, 8⟩, .rwl, 0x0⟩]⟩ /- BERTHb_RES -/,
  ⟨0x8008, [(0x20, 24)], [⟨⟨8, 0⟩, .rwl, 0x0⟩, ⟨⟨22, 16⟩, .rwl, 0x0⟩]⟩ /- BERTHb_FQ -/,
  ⟨0x800C, [(0x20, 24)], [⟨⟨0, 0⟩, .wo, 0x0⟩, ⟨⟨1, 1⟩, .wo, 0x0⟩, ⟨⟨2, 2⟩, .wo, 0x0⟩, ⟨⟨3, 3⟩, .wo, 0x0⟩]⟩ /- BERTHb_CTL -/,
  ⟨0x8010, [(0x20, 24)], [⟨⟨1, 0⟩, .ro, 0x0⟩, ⟨⟨2, 2⟩, .ro, 0x0⟩]⟩ /- BERTHb_STATE -/]
/-- The rows of block 10, QECTL. -/
def mapQectl : List RegRow := mapQectl0 ++ mapQectl1

def mapFerry0 : List RegRow := [
  ⟨0x0, [], [⟨⟨0, 0⟩, .w1c, 0x0⟩, ⟨⟨1, 1⟩, .w1c, 0x0⟩, ⟨⟨2, 2⟩, .w1c, 0x0⟩, ⟨⟨3, 3⟩, .w1c, 0x0⟩]⟩ /- FERRY_STATUS -/,
  ⟨0x4, [], [⟨⟨12, 0⟩, .ro, 0x1000⟩]⟩ /- FERRY_POOL_FREE -/,
  ⟨0x8, [], [⟨⟨8, 0⟩, .wo, 0x0⟩]⟩ /- FERRY_FLUSH -/,
  ⟨0xC, [], [⟨⟨31, 0⟩, .cnt, 0x0⟩]⟩ /- FERRY_PARITY_CNT -/,
  ⟨0x10, [], [⟨⟨31, 0⟩, .cnt, 0x0⟩]⟩ /- FERRY_TX_BAD -/,
  ⟨0x14, [], [⟨⟨31, 0⟩, .cnt, 0x0⟩]⟩ /- FERRY_DISP_DROP -/,
  ⟨0x20, [], [⟨⟨8, 0⟩, .rw, 0x0⟩]⟩ /- FERRY_SEL -/,
  ⟨0x24, [], [⟨⟨12, 0⟩, .rw, 0x0⟩, ⟨⟨31, 31⟩, .rw, 0x0⟩]⟩ /- FERRY_Q_CFG -/,
  ⟨0x28, [], [⟨⟨12, 0⟩, .ro, 0x0⟩, ⟨⟨13, 13⟩, .ro, 0x0⟩, ⟨⟨14, 14⟩, .ro, 0x0⟩, ⟨⟨31, 15⟩, .ro, 0x0⟩]⟩ /- FERRY_Q_STATE -/,
  ⟨0x2C, [], [⟨⟨16, 0⟩, .ro, 0x0⟩]⟩ /- FERRY_Q_WORDS -/,
  ⟨0x30, [], [⟨⟨31, 0⟩, .cnt, 0x0⟩]⟩ /- FERRY_Q_DROP -/,
  ⟨0x34, [], [⟨⟨0, 0⟩, .wo, 0x0⟩]⟩ /- FERRY_Q_CTL -/]
def mapFerry1 : List RegRow := [
  ⟨0x100, [(0x4, 16)], [⟨⟨8, 0⟩, .rw, 0x0⟩, ⟨⟨17, 9⟩, .rw, 0x0⟩, ⟨⟨26, 18⟩, .rw, 0x0⟩, ⟨⟨31, 31⟩, .rw, 0x0⟩]⟩ /- FERRY_DISPn -/,
  ⟨0x180, [(0x4, 16)], [⟨⟨8, 0⟩, .rw, 0x0⟩, ⟨⟨31, 31⟩, .rw, 0x0⟩]⟩ /- FERRY_TXQn -/,
  ⟨0x2000, [(0x8, 512)], [⟨⟨31, 0⟩, .rw, 0x0⟩]⟩ /- FQn_DATA -/,
  ⟨0x2004, [(0x8, 512)], [⟨⟨0, 0⟩, .ro, 0x0⟩, ⟨⟨1, 1⟩, .ro, 0x0⟩, ⟨⟨2, 2⟩, .ro, 0x0⟩, ⟨⟨3, 3⟩, .ro, 0x0⟩, ⟨⟨5, 4⟩, .ro, 0x0⟩]⟩ /- FQn_TAG -/]
/-- The rows of block 11, FERRY. -/
def mapFerry : List RegRow := mapFerry0 ++ mapFerry1

def mapDma0 : List RegRow := [
  ⟨0x0, [(0x20, 32)], [⟨⟨0, 0⟩, .w1s, 0x0⟩, ⟨⟨1, 1⟩, .wo, 0x0⟩]⟩ /- DMAn_CTL -/,
  ⟨0x4, [(0x20, 32)], [⟨⟨1, 0⟩, .rwl, 0x0⟩]⟩ /- DMAn_CFG -/,
  ⟨0x8, [(0x20, 32)], [⟨⟨31, 5⟩, .rwl, 0x0⟩]⟩ /- DMAn_NEXT -/,
  ⟨0xC, [(0x20, 32)], [⟨⟨1, 0⟩, .ro, 0x0⟩, ⟨⟨6, 4⟩, .ro, 0x0⟩, ⟨⟨8, 8⟩, .ro, 0x0⟩, ⟨⟨9, 9⟩, .ro, 0x0⟩, ⟨⟨19, 16⟩, .ro, 0x0⟩]⟩ /- DMAn_STATE -/,
  ⟨0x10, [(0x20, 32)], [⟨⟨0, 0⟩, .w1c, 0x0⟩, ⟨⟨1, 1⟩, .w1c, 0x0⟩, ⟨⟨2, 2⟩, .w1c, 0x0⟩, ⟨⟨3, 3⟩, .w1c, 0x0⟩, ⟨⟨4, 4⟩, .w1c, 0x0⟩, ⟨⟨5, 5⟩, .w1c, 0x0⟩]⟩ /- DMAn_STATUS -/,
  ⟨0x14, [(0x20, 32)], [⟨⟨31, 0⟩, .ro, 0x0⟩]⟩ /- DMAn_FAIL_ADDR -/,
  ⟨0x18, [(0x20, 32)], [⟨⟨31, 0⟩, .ro, 0x0⟩]⟩ /- DMAn_FAIL_DESC -/,
  ⟨0x1C, [(0x20, 32)], [⟨⟨31, 0⟩, .ro, 0x0⟩]⟩ /- DMAn_HOPS -/,
  ⟨0x400, [], [⟨⟨31, 0⟩, .rw, 0x1000⟩]⟩ /- DMA_HOPLIMIT -/,
  ⟨0x404, [], [⟨⟨31, 0⟩, .ro, 0x0⟩]⟩ /- DMA_ACTIVE -/]
/-- The rows of block 12, DMA. -/
def mapDma : List RegRow := mapDma0

def mapCan0 : List RegRow := [
  ⟨0x0, [(0x2000, 4)], [⟨⟨1, 0⟩, .rw, 0x0⟩, ⟨⟨2, 2⟩, .rw, 0x1⟩, ⟨⟨3, 3⟩, .rw, 0x0⟩, ⟨⟨4, 4⟩, .rw, 0x0⟩, ⟨⟨5, 5⟩, .rw, 0x0⟩, ⟨⟨6, 6⟩, .rw, 0x0⟩, ⟨⟨7, 7⟩, .rw, 0x0⟩, ⟨⟨8, 8⟩, .rw, 0x0⟩]⟩ /- CANn_CTL -/,
  ⟨0x4, [(0x2000, 4)], [⟨⟨1, 0⟩, .ro, 0x0⟩, ⟨⟨2, 2⟩, .ro, 0x0⟩, ⟨⟨15, 8⟩, .ro, 0x0⟩, ⟨⟨23, 16⟩, .ro, 0x0⟩, ⟨⟨30, 28⟩, .ro, 0x0⟩]⟩ /- CANn_STATE -/,
  ⟨0x8, [(0x2000, 4)], [⟨⟨0, 0⟩, .w1c, 0x0⟩, ⟨⟨1, 1⟩, .w1c, 0x0⟩, ⟨⟨2, 2⟩, .w1c, 0x0⟩, ⟨⟨3, 3⟩, .w1c, 0x0⟩, ⟨⟨4, 4⟩, .w1c, 0x0⟩, ⟨⟨5, 5⟩, .w1c, 0x0⟩]⟩ /- CANn_STATUS -/,
  ⟨0xC, [(0x2000, 4)], [⟨⟨4, 0⟩, .rwl, 0x0⟩, ⟨⟨15, 8⟩, .rwl, 0x0⟩, ⟨⟨22, 16⟩, .rwl, 0x0⟩, ⟨⟨30, 24⟩, .rwl, 0x0⟩]⟩ /- CANn_NBT -/,
  ⟨0x10, [(0x2000, 4)], [⟨⟨4, 0⟩, .rwl, 0x0⟩, ⟨⟨12, 8⟩, .rwl, 0x0⟩, ⟨⟨19, 16⟩, .rwl, 0x0⟩, ⟨⟨27, 24⟩, .rwl, 0x0⟩]⟩ /- CANn_DBT -/,
  ⟨0x14, [(0x2000, 4)], [⟨⟨6, 0⟩, .rwl, 0x0⟩, ⟨⟨8, 8⟩, .rwl, 0x0⟩, ⟨⟨22, 16⟩, .ro, 0x0⟩]⟩ /- CANn_TDC -/,
  ⟨0x18, [(0x2000, 4)], [⟨⟨7, 0⟩, .rw, 0x0⟩]⟩ /- CANn_TX_RETRY -/,
  ⟨0x1C, [(0x2000, 4)], [⟨⟨8, 0⟩, .rw, 0x0⟩, ⟨⟨17, 9⟩, .rw, 0x0⟩, ⟨⟨26, 18⟩, .rw, 0x0⟩]⟩ /- CANn_FQ -/,
  ⟨0x20, [(0x2000, 4)], [⟨⟨8, 0⟩, .rw, 0x0⟩]⟩ /- CANn_FQ2 -/,
  ⟨0x24, [(0x2000, 4)], [⟨⟨2, 0⟩, .wo, 0x0⟩]⟩ /- CANn_TX_CANCEL -/,
  ⟨0x40, [(0x2000, 4)], [⟨⟨31, 0⟩, .cnt, 0x0⟩]⟩ /- CANn_TX_OK -/,
  ⟨0x44, [(0x2000, 4)], [⟨⟨31, 0⟩, .cnt, 0x0⟩]⟩ /- CANn_RX_OK -/]
def mapCan1 : List RegRow := [
  ⟨0x48, [(0x2000, 4)], [⟨⟨31, 0⟩, .cnt, 0x0⟩]⟩ /- CANn_ARB_LOST -/,
  ⟨0x4C, [(0x2000, 4)], [⟨⟨31, 0⟩, .cnt, 0x0⟩]⟩ /- CANn_ERR_TX -/,
  ⟨0x50, [(0x2000, 4)], [⟨⟨31, 0⟩, .cnt, 0x0⟩]⟩ /- CANn_ERR_RX -/,
  ⟨0x54, [(0x2000, 4)], [⟨⟨31, 0⟩, .cnt, 0x0⟩]⟩ /- CANn_TX_ABANDONED -/,
  ⟨0x58, [(0x2000, 4)], [⟨⟨31, 0⟩, .cnt, 0x0⟩]⟩ /- CANn_TX_BAD_CNT -/,
  ⟨0x5C, [(0x2000, 4)], [⟨⟨31, 0⟩, .cnt, 0x0⟩]⟩ /- CANn_BUS_OFF_CNT -/,
  ⟨0x400, [(0x2000, 4), (0x4, 128)], [⟨⟨10, 0⟩, .rw, 0x0⟩, ⟨⟨26, 16⟩, .rw, 0x0⟩, ⟨⟨28, 28⟩, .rw, 0x0⟩, ⟨⟨29, 29⟩, .rw, 0x0⟩, ⟨⟨31, 31⟩, .rw, 0x0⟩]⟩ /- CANn_SFLTk -/,
  ⟨0x600, [(0x2000, 4), (0x8, 64)], [⟨⟨28, 0⟩, .rw, 0x0⟩, ⟨⟨31, 31⟩, .rw, 0x0⟩]⟩ /- CANn_XFLTk_ID -/,
  ⟨0x604, [(0x2000, 4), (0x8, 64)], [⟨⟨28, 0⟩, .rw, 0x0⟩, ⟨⟨29, 29⟩, .rw, 0x0⟩, ⟨⟨30, 30⟩, .rw, 0x0⟩]⟩ /- CANn_XFLTk_MASK -/,
  ⟨0x8000, [], [⟨⟨0, 0⟩, .rw, 0x0⟩, ⟨⟨1, 1⟩, .rwl, 0x0⟩, ⟨⟨2, 2⟩, .rwl, 0x0⟩, ⟨⟨3, 3⟩, .rwl, 0x0⟩, ⟨⟨4, 4⟩, .rwl, 0x0⟩, ⟨⟨7, 5⟩, .rwl, 0x0⟩, ⟨⟨10, 8⟩, .rwl, 0x0⟩, ⟨⟨12, 12⟩, .rwl, 0x0⟩]⟩ /- TT_CTL -/,
  ⟨0x8004, [], [⟨⟨2, 0⟩, .ro, 0x0⟩, ⟨⟨5, 4⟩, .ro, 0x0⟩, ⟨⟨7, 6⟩, .ro, 0x0⟩, ⟨⟨13, 8⟩, .ro, 0x0⟩, ⟨⟨18, 16⟩, .ro, 0x0⟩]⟩ /- TT_STATE -/,
  ⟨0x8008, [], [⟨⟨0, 0⟩, .w1c, 0x0⟩, ⟨⟨1, 1⟩, .w1c, 0x0⟩, ⟨⟨2, 2⟩, .w1c, 0x0⟩, ⟨⟨3, 3⟩, .w1c, 0x0⟩, ⟨⟨4, 4⟩, .w1c, 0x0⟩, ⟨⟨5, 5⟩, .w1c, 0x0⟩, ⟨⟨6, 6⟩, .w1c, 0x0⟩, ⟨⟨7, 7⟩, .w1c, 0x0⟩, ⟨⟨8, 8⟩, .w1c, 0x0⟩]⟩ /- TT_STATUS -/]
def mapCan2 : List RegRow := [
  ⟨0x800C, [], [⟨⟨28, 0⟩, .rwl, 0x0⟩, ⟨⟨29, 29⟩, .rwl, 0x0⟩]⟩ /- TT_REF_ID -/,
  ⟨0x8010, [], [⟨⟨31, 0⟩, .rwl, 0x500000⟩]⟩ /- TT_NTU -/,
  ⟨0x8014, [], [⟨⟨31, 0⟩, .ro, 0x500000⟩]⟩ /- TT_TUR -/,
  ⟨0x8018, [], [⟨⟨15, 0⟩, .rwl, 0x0⟩]⟩ /- TT_CYCLE_LEN -/,
  ⟨0x801C, [], [⟨⟨15, 0⟩, .rwl, 0x0⟩]⟩ /- TT_BACKUP_DELAY -/,
  ⟨0x8020, [], [⟨⟨29, 0⟩, .rwl, 0x0⟩]⟩ /- TT_BASE_NS -/,
  ⟨0x8024, [], [⟨⟨31, 0⟩, .rwl, 0x0⟩]⟩ /- TT_BASE_SEC -/,
  ⟨0x8028, [], [⟨⟨15, 0⟩, .rwl, 0x0⟩]⟩ /- TT_NTU_NS -/,
  ⟨0x802C, [], [⟨⟨6, 0⟩, .rwl, 0x0⟩]⟩ /- TT_TRIG_CNT -/,
  ⟨0x8030, [], [⟨⟨5, 0⟩, .ro, 0x0⟩, ⟨⟨11, 8⟩, .ro, 0x0⟩]⟩ /- TT_FAIL -/,
  ⟨0x8040, [], [⟨⟨31, 0⟩, .cnt, 0x0⟩]⟩ /- TT_DUP_DISCARD -/,
  ⟨0x8044, [], [⟨⟨31, 0⟩, .cnt, 0x0⟩]⟩ /- TT_TX_FAIL -/]
def mapCan3 : List RegRow := [
  ⟨0x8048, [], [⟨⟨31, 0⟩, .cnt, 0x0⟩]⟩ /- TT_RX_MISSED -/,
  ⟨0x8400, [(0x8, 64)], [⟨⟨31, 0⟩, .rw, 0x0⟩]⟩ /- TT_TRIGk_A -/,
  ⟨0x8404, [(0x8, 64)], [⟨⟨31, 0⟩, .rw, 0x0⟩]⟩ /- TT_TRIGk_B -/,
  ⟨0x9000, [(0x80, 16), (0x4, 18)], [⟨⟨31, 0⟩, .rw, 0x0⟩]⟩ /- TT_ABUFm_W -/,
  ⟨0x907C, [(0x80, 16)], [⟨⟨0, 0⟩, .w1s, 0x0⟩, ⟨⟨1, 1⟩, .ro, 0x0⟩]⟩ /- TT_ABUFm_CTL -/]
/-- The rows of block 13, CAN. -/
def mapCan : List RegRow := mapCan0 ++ mapCan1 ++ mapCan2 ++ mapCan3

def mapMotion0 : List RegRow := [
  ⟨0x0, [(0x200, 32)], [⟨⟨1, 0⟩, .rwl, 0x0⟩, ⟨⟨3, 2⟩, .rwl, 0x0⟩, ⟨⟨4, 4⟩, .rwl, 0x0⟩, ⟨⟨5, 5⟩, .rwl, 0x0⟩, ⟨⟨11, 8⟩, .rwl, 0x0⟩, ⟨⟨12, 12⟩, .rwl, 0x0⟩]⟩ /- AXn_CFG -/,
  ⟨0x4, [(0x200, 32)], [⟨⟨0, 0⟩, .wo, 0x0⟩, ⟨⟨1, 1⟩, .wo, 0x0⟩, ⟨⟨2, 2⟩, .wo, 0x0⟩, ⟨⟨3, 3⟩, .wo, 0x0⟩, ⟨⟨4, 4⟩, .wo, 0x0⟩, ⟨⟨5, 5⟩, .wo, 0x0⟩]⟩ /- AXn_CMD -/,
  ⟨0x8, [(0x200, 32)], [⟨⟨2, 0⟩, .ro, 0x0⟩, ⟨⟨6, 4⟩, .ro, 0x0⟩, ⟨⟨8, 8⟩, .ro, 0x0⟩, ⟨⟨9, 9⟩, .ro, 0x0⟩, ⟨⟨10, 10⟩, .ro, 0x0⟩, ⟨⟨11, 11⟩, .ro, 0x0⟩, ⟨⟨12, 12⟩, .ro, 0x0⟩, ⟨⟨19, 16⟩, .ro, 0x0⟩, ⟨⟨22, 20⟩, .ro, 0x0⟩]⟩ /- AXn_STATE -/,
  ⟨0xC, [(0x200, 32)], [⟨⟨0, 0⟩, .w1c, 0x0⟩, ⟨⟨1, 1⟩, .w1c, 0x0⟩, ⟨⟨2, 2⟩, .w1c, 0x0⟩, ⟨⟨3, 3⟩, .w1c, 0x0⟩, ⟨⟨4, 4⟩, .w1c, 0x0⟩, ⟨⟨5, 5⟩, .w1c, 0x0⟩, ⟨⟨6, 6⟩, .w1c, 0x0⟩, ⟨⟨7, 7⟩, .w1c, 0x0⟩, ⟨⟨8, 8⟩, .w1c, 0x0⟩, ⟨⟨9, 9⟩, .w1c, 0x0⟩, ⟨⟨10, 10⟩, .w1c, 0x0⟩, ⟨⟨11, 11⟩, .w1c, 0x0⟩, ⟨⟨12, 12⟩, .w1c, 0x0⟩]⟩ /- AXn_STATUS -/,
  ⟨0x10, [(0x200, 32)], [⟨⟨31, 0⟩, .rwl, 0x0⟩]⟩ /- AXn_POS_LO -/,
  ⟨0x14, [(0x200, 32)], [⟨⟨15, 0⟩, .rwl, 0x0⟩]⟩ /- AXn_POS_HI -/,
  ⟨0x18, [(0x200, 32)], [⟨⟨31, 0⟩, .ro, 0x0⟩]⟩ /- AXn_VEL -/,
  ⟨0x1C, [(0x200, 32)], [⟨⟨31, 0⟩, .rwl, 0x0⟩]⟩ /- AXn_TARGET_LO -/,
  ⟨0x20, [(0x200, 32)], [⟨⟨15, 0⟩, .rwl, 0x0⟩]⟩ /- AXn_TARGET_HI -/,
  ⟨0x24, [(0x200, 32)], [⟨⟨31, 0⟩, .rwl, 0x0⟩]⟩ /- AXn_NEXT -/,
  ⟨0x28, [(0x200, 32)], [⟨⟨31, 0⟩, .rw, 0x0⟩]⟩ /- AXn_VMAX -/,
  ⟨0x2C, [(0x200, 32)], [⟨⟨31, 0⟩, .rw, 0x0⟩]⟩ /- AXn_ACC -/]
def mapMotion1 : List RegRow := [
  ⟨0x30, [(0x200, 32)], [⟨⟨31, 0⟩, .rw, 0x0⟩]⟩ /- AXn_DEC -/,
  ⟨0x34, [(0x200, 32)], [⟨⟨31, 0⟩, .rw, 0xFFFFFFFF⟩]⟩ /- AXn_EDEC -/,
  ⟨0x38, [(0x200, 32)], [⟨⟨31, 0⟩, .rw, 0x0⟩]⟩ /- AXn_JERK -/,
  ⟨0x3C, [(0x200, 32)], [⟨⟨31, 0⟩, .rw, 0x0⟩]⟩ /- AXn_VTARGET -/,
  ⟨0x40, [(0x200, 32)], [⟨⟨7, 0⟩, .rw, 0xD⟩, ⟨⟨15, 8⟩, .rw, 0x0⟩, ⟨⟨16, 16⟩, .rw, 0x0⟩, ⟨⟨17, 17⟩, .rw, 0x0⟩]⟩ /- AXn_STEP_CFG -/,
  ⟨0x44, [(0x200, 32)], [⟨⟨31, 0⟩, .rw, 0x0⟩]⟩ /- AXn_SOFT_MIN -/,
  ⟨0x48, [(0x200, 32)], [⟨⟨31, 0⟩, .rw, 0x0⟩]⟩ /- AXn_SOFT_MAX -/,
  ⟨0x4C, [(0x200, 32)], [⟨⟨15, 0⟩, .rw, 0x0⟩, ⟨⟨31, 16⟩, .rw, 0x0⟩]⟩ /- AXn_FILT -/,
  ⟨0x50, [(0x200, 32)], [⟨⟨15, 0⟩, .rw, 0x0⟩, ⟨⟨31, 16⟩, .rw, 0x0⟩]⟩ /- AXn_HOME_SPD -/,
  ⟨0x54, [(0x200, 32)], [⟨⟨31, 0⟩, .rw, 0x0⟩]⟩ /- AXn_HOME_OFFSET -/,
  ⟨0x58, [(0x200, 32)], [⟨⟨31, 0⟩, .rw, 0x0⟩]⟩ /- AXn_HOME_RANGE -/,
  ⟨0x5C, [(0x200, 32)], [⟨⟨31, 0⟩, .cnt, 0x0⟩]⟩ /- AXn_HOME_CHATTER -/]
def mapMotion2 : List RegRow := [
  ⟨0x8000, [(0x40, 8)], [⟨⟨1, 0⟩, .rwl, 0x0⟩, ⟨⟨31, 16⟩, .rwl, 0x0⟩]⟩ /- GRPg_CFG -/,
  ⟨0x8004, [(0x40, 8)], [⟨⟨31, 0⟩, .rwl, 0x0⟩]⟩ /- GRPg_MEMBERS -/,
  ⟨0x8008, [(0x40, 8)], [⟨⟨0, 0⟩, .wo, 0x0⟩, ⟨⟨1, 1⟩, .wo, 0x0⟩, ⟨⟨2, 2⟩, .wo, 0x0⟩, ⟨⟨3, 3⟩, .wo, 0x0⟩, ⟨⟨5, 5⟩, .wo, 0x0⟩]⟩ /- GRPg_CMD -/,
  ⟨0x800C, [(0x40, 8)], [⟨⟨2, 0⟩, .ro, 0x0⟩, ⟨⟨12, 8⟩, .ro, 0x0⟩, ⟨⟨19, 16⟩, .ro, 0x0⟩]⟩ /- GRPg_STATE -/,
  ⟨0x8010, [(0x40, 8)], [⟨⟨0, 0⟩, .w1c, 0x0⟩, ⟨⟨1, 1⟩, .w1c, 0x0⟩, ⟨⟨2, 2⟩, .w1c, 0x0⟩, ⟨⟨3, 3⟩, .w1c, 0x0⟩, ⟨⟨4, 4⟩, .w1c, 0x0⟩, ⟨⟨5, 5⟩, .w1c, 0x0⟩, ⟨⟨6, 6⟩, .w1c, 0x0⟩, ⟨⟨7, 7⟩, .w1c, 0x0⟩, ⟨⟨8, 8⟩, .w1c, 0x0⟩]⟩ /- GRPg_STATUS -/,
  ⟨0x8014, [(0x40, 8)], [⟨⟨31, 0⟩, .rw, 0x0⟩]⟩ /- GRPg_VMAX -/,
  ⟨0x8018, [(0x40, 8)], [⟨⟨31, 0⟩, .rw, 0x0⟩]⟩ /- GRPg_ACC -/,
  ⟨0x801C, [(0x40, 8)], [⟨⟨31, 0⟩, .rw, 0x0⟩]⟩ /- GRPg_DEC -/,
  ⟨0x8020, [(0x40, 8)], [⟨⟨31, 0⟩, .rw, 0xFFFFFFFF⟩]⟩ /- GRPg_EDEC -/,
  ⟨0x8024, [(0x40, 8)], [⟨⟨31, 0⟩, .rw, 0x0⟩]⟩ /- GRPg_JERK -/,
  ⟨0x8028, [(0x40, 8)], [⟨⟨7, 0⟩, .rw, 0x0⟩, ⟨⟨19, 8⟩, .rw, 0x0⟩]⟩ /- GRPg_SRC -/,
  ⟨0x802C, [(0x40, 8)], [⟨⟨31, 0⟩, .cnt, 0x0⟩]⟩ /- GRPg_LATCHED -/]
def mapMotion3 : List RegRow := [
  ⟨0xC000, [], [⟨⟨31, 0⟩, .ro, 0x0⟩]⟩ /- MOT_AX_PEND -/]
/-- The rows of block 14, MOTION. -/
def mapMotion : List RegRow := mapMotion0 ++ mapMotion1 ++ mapMotion2 ++ mapMotion3

def mapChopper0 : List RegRow := [
  ⟨0x0, [(0x40, 8)], [⟨⟨0, 0⟩, .rw, 0x0⟩, ⟨⟨2, 1⟩, .rwl, 0x0⟩, ⟨⟨7, 4⟩, .rwl, 0x0⟩, ⟨⟨9, 8⟩, .rwl, 0x0⟩, ⟨⟨12, 12⟩, .rwl, 0x0⟩, ⟨⟨26, 16⟩, .rwl, 0x4⟩]⟩ /- CHOPn_CTL -/,
  ⟨0x4, [(0x40, 8)], [⟨⟨9, 0⟩, .rw, 0x0⟩, ⟨⟨15, 10⟩, .rw, 0x0⟩, ⟨⟨21, 16⟩, .rw, 0x1⟩]⟩ /- CHOPn_TIME -/,
  ⟨0x8, [(0x40, 8)], [⟨⟨9, 0⟩, .rw, 0x0⟩, ⟨⟨25, 16⟩, .rw, 0x0⟩]⟩ /- CHOPn_CUR -/,
  ⟨0xC, [(0x40, 8)], [⟨⟨15, 0⟩, .rw, 0x0⟩]⟩ /- CHOPn_REST -/,
  ⟨0x10, [(0x40, 8)], [⟨⟨11, 0⟩, .rw, 0x0⟩, ⟨⟨19, 16⟩, .rw, 0x0⟩]⟩ /- CHOPn_STALL -/,
  ⟨0x14, [(0x40, 8)], [⟨⟨1, 0⟩, .ro, 0x0⟩, ⟨⟨2, 2⟩, .ro, 0x0⟩, ⟨⟨7, 4⟩, .ro, 0x0⟩]⟩ /- CHOPn_STATE -/,
  ⟨0x18, [(0x40, 8)], [⟨⟨11, 0⟩, .ro, 0x0⟩, ⟨⟨27, 16⟩, .ro, 0x0⟩]⟩ /- CHOPn_TON -/,
  ⟨0x1C, [(0x40, 8)], [⟨⟨0, 0⟩, .w1c, 0x0⟩, ⟨⟨1, 1⟩, .w1c, 0x0⟩, ⟨⟨2, 2⟩, .w1c, 0x0⟩, ⟨⟨3, 3⟩, .w1c, 0x0⟩]⟩ /- CHOPn_STATUS -/,
  ⟨0x20, [(0x40, 8)], [⟨⟨31, 0⟩, .cnt, 0x0⟩]⟩ /- CHOPn_OC_CNT -/,
  ⟨0x1000, [(0x4, 1024)], [⟨⟨9, 0⟩, .rw, 0x0⟩]⟩ /- CHOP_SINEk -/]
/-- The rows of block 15, CHOPPER. -/
def mapChopper : List RegRow := mapChopper0

def mapCapture0 : List RegRow := [
  ⟨0x0, [(0x20, 32)], [⟨⟨1, 0⟩, .rw, 0x0⟩, ⟨⟨2, 2⟩, .rwl, 0x0⟩, ⟨⟨6, 4⟩, .rwl, 0x0⟩, ⟨⟨9, 8⟩, .rwl, 0x0⟩, ⟨⟨10, 10⟩, .rwl, 0x0⟩, ⟨⟨11, 11⟩, .rwl, 0x0⟩]⟩ /- ENCn_CFG -/,
  ⟨0x4, [(0x20, 32)], [⟨⟨31, 0⟩, .rw, 0x0⟩]⟩ /- ENCn_COUNT_LO -/,
  ⟨0x8, [(0x20, 32)], [⟨⟨15, 0⟩, .rw, 0x0⟩]⟩ /- ENCn_COUNT_HI -/,
  ⟨0xC, [(0x20, 32)], [⟨⟨31, 0⟩, .ro, 0x0⟩]⟩ /- ENCn_IDX_LO -/,
  ⟨0x10, [(0x20, 32)], [⟨⟨15, 0⟩, .ro, 0x0⟩]⟩ /- ENCn_IDX_HI -/,
  ⟨0x14, [(0x20, 32)], [⟨⟨29, 0⟩, .ro, 0x0⟩]⟩ /- ENCn_IDX_NS -/,
  ⟨0x18, [(0x20, 32)], [⟨⟨0, 0⟩, .w1c, 0x0⟩, ⟨⟨1, 1⟩, .w1c, 0x0⟩, ⟨⟨2, 2⟩, .w1c, 0x0⟩]⟩ /- ENCn_STATUS -/,
  ⟨0x1C, [(0x20, 32)], [⟨⟨31, 0⟩, .cnt, 0x0⟩]⟩ /- ENCn_QERR_CNT -/,
  ⟨0x8000, [(0x400, 2)], [⟨⟨3, 0⟩, .wo, 0x0⟩, ⟨⟨4, 4⟩, .wo, 0x0⟩]⟩ /- ADCc_CMD -/,
  ⟨0x8004, [(0x400, 2)], [⟨⟨0, 0⟩, .ro, 0x0⟩, ⟨⟨7, 4⟩, .ro, 0x0⟩, ⟨⟨12, 8⟩, .ro, 0x0⟩]⟩ /- ADCc_STATE -/,
  ⟨0x8008, [(0x400, 2)], [⟨⟨0, 0⟩, .w1c, 0x0⟩, ⟨⟨1, 1⟩, .w1c, 0x0⟩, ⟨⟨2, 2⟩, .w1c, 0x0⟩]⟩ /- ADCc_STATUS -/,
  ⟨0x800C, [(0x400, 2)], [⟨⟨31, 0⟩, .cnt, 0x0⟩]⟩ /- ADCc_DROP_CNT -/]
def mapCapture1 : List RegRow := [
  ⟨0x8100, [(0x400, 2), (0x20, 16)], [⟨⟨3, 0⟩, .rwl, 0x0⟩, ⟨⟨4, 4⟩, .rwl, 0x0⟩, ⟨⟨14, 6⟩, .rwl, 0x0⟩, ⟨⟨23, 16⟩, .rwl, 0x0⟩]⟩ /- ADCc_SEQs_CFG -/,
  ⟨0x8104, [(0x400, 2), (0x20, 16)], [⟨⟨11, 0⟩, .rwl, 0x0⟩]⟩ /- ADCc_SEQs_BOFF -/,
  ⟨0x8108, [(0x400, 2), (0x20, 16), (0x4, 4)], [⟨⟨4, 0⟩, .rwl, 0x0⟩, ⟨⟨12, 8⟩, .rwl, 0x0⟩, ⟨⟨20, 16⟩, .rwl, 0x0⟩, ⟨⟨28, 24⟩, .rwl, 0x0⟩]⟩ /- ADCc_SEQs_CHm -/]
/-- The rows of block 16, CAPTURE. -/
def mapCapture : List RegRow := mapCapture0 ++ mapCapture1

def mapPilot0 : List RegRow := [
  ⟨0x0, [(0x40, 32)], [⟨⟨0, 0⟩, .wo, 0x0⟩, ⟨⟨1, 1⟩, .wo, 0x0⟩, ⟨⟨2, 2⟩, .wo, 0x0⟩, ⟨⟨3, 3⟩, .wo, 0x0⟩, ⟨⟨4, 4⟩, .wo, 0x0⟩]⟩ /- PLn_CTL -/,
  ⟨0x4, [(0x40, 32)], [⟨⟨1, 0⟩, .ro, 0x0⟩, ⟨⟨2, 2⟩, .ro, 0x0⟩, ⟨⟨15, 8⟩, .ro, 0x0⟩, ⟨⟨21, 16⟩, .ro, 0x0⟩, ⟨⟨27, 24⟩, .ro, 0x0⟩, ⟨⟨31, 28⟩, .ro, 0x0⟩]⟩ /- PLn_STATE -/,
  ⟨0x8, [(0x40, 32)], [⟨⟨0, 0⟩, .w1c, 0x0⟩, ⟨⟨1, 1⟩, .w1c, 0x0⟩, ⟨⟨2, 2⟩, .w1c, 0x0⟩, ⟨⟨3, 3⟩, .w1c, 0x0⟩, ⟨⟨4, 4⟩, .w1c, 0x0⟩, ⟨⟨5, 5⟩, .w1c, 0x0⟩, ⟨⟨6, 6⟩, .w1c, 0x0⟩, ⟨⟨7, 7⟩, .w1c, 0x0⟩, ⟨⟨8, 8⟩, .w1c, 0x0⟩, ⟨⟨9, 9⟩, .w1c, 0x0⟩]⟩ /- PLn_STATUS -/,
  ⟨0xC, [(0x40, 32)], [⟨⟨0, 0⟩, .rwl, 0x0⟩, ⟨⟨3, 3⟩, .rwl, 0x0⟩, ⟨⟨4, 4⟩, .rwl, 0x0⟩, ⟨⟨13, 8⟩, .rwl, 0x1⟩, ⟨⟨19, 16⟩, .rwl, 0x4⟩]⟩ /- PLn_CFG -/,
  ⟨0x10, [(0x40, 32)], [⟨⟨7, 0⟩, .rwl, 0x1⟩, ⟨⟨15, 8⟩, .rwl, 0x1⟩, ⟨⟨23, 16⟩, .rwl, 0x0⟩]⟩ /- PLn_PINCFG -/,
  ⟨0x14, [(0x40, 32)], [⟨⟨15, 0⟩, .rwl, 0x1⟩, ⟨⟨31, 16⟩, .rwl, 0x1⟩]⟩ /- PLn_CLKDIV -/,
  ⟨0x18, [(0x40, 32)], [⟨⟨7, 0⟩, .rwl, 0x0⟩, ⟨⟨15, 8⟩, .rwl, 0xFF⟩, ⟨⟨23, 16⟩, .rwl, 0x0⟩]⟩ /- PLn_WIN -/,
  ⟨0x1C, [(0x40, 32)], [⟨⟨31, 0⟩, .rw, 0x0⟩]⟩ /- PLn_K0 -/,
  ⟨0x20, [(0x40, 32)], [⟨⟨31, 0⟩, .rw, 0x0⟩]⟩ /- PLn_K1 -/,
  ⟨0x24, [(0x40, 32)], [⟨⟨31, 0⟩, .wo, 0x0⟩]⟩ /- PLn_TXDATA -/,
  ⟨0x28, [(0x40, 32)], [⟨⟨31, 0⟩, .ro, 0x0⟩]⟩ /- PLn_RXDATA -/,
  ⟨0x2C, [(0x40, 32)], [⟨⟨31, 0⟩, .cnt, 0x0⟩]⟩ /- PLn_UNDERRUN_CNT -/]
def mapPilot1 : List RegRow := [
  ⟨0x30, [(0x40, 32)], [⟨⟨31, 0⟩, .cnt, 0x0⟩]⟩ /- PLn_OVERRUN_CNT -/,
  ⟨0x34, [(0x40, 32)], [⟨⟨31, 0⟩, .rwl, 0x0⟩]⟩ /- PLn_SHIFT -/,
  ⟨0x38, [(0x40, 32)], [⟨⟨31, 0⟩, .rwl, 0x0⟩]⟩ /- PLn_WA -/,
  ⟨0x3C, [(0x40, 32)], [⟨⟨31, 0⟩, .rwl, 0x0⟩]⟩ /- PLn_WB -/,
  ⟨0x800, [(0x10, 8)], [⟨⟨7, 0⟩, .rw, 0x0⟩]⟩ /- PSs_OE -/,
  ⟨0x804, [(0x10, 8)], [⟨⟨7, 0⟩, .rw, 0x0⟩, ⟨⟨15, 8⟩, .rw, 0x0⟩]⟩ /- PSs_SAFE -/,
  ⟨0x808, [(0x10, 8)], [⟨⟨7, 0⟩, .ro, 0x0⟩]⟩ /- PSs_PINS -/,
  ⟨0x80C, [(0x10, 8)], [⟨⟨3, 0⟩, .wo, 0x0⟩, ⟨⟨7, 4⟩, .wo, 0x0⟩, ⟨⟨8, 8⟩, .wo, 0x0⟩]⟩ /- PSs_CTL -/,
  ⟨0x1000, [(0x10, 32)], [⟨⟨15, 0⟩, .rw, 0x3210⟩]⟩ /- PLn_MARK -/,
  ⟨0x1004, [(0x10, 32)], [⟨⟨31, 0⟩, .rw, 0x3020100⟩]⟩ /- PLn_DWELL_LO -/,
  ⟨0x1008, [(0x10, 32)], [⟨⟨31, 0⟩, .rw, 0x7060504⟩]⟩ /- PLn_DWELL_HI -/]
/-- The rows of block 17, PILOT. -/
def mapPilot : List RegRow := mapPilot0 ++ mapPilot1

def mapSound0 : List RegRow := [
  ⟨0x0, [(0x4, 216)], [⟨⟨7, 0⟩, .rw, 0x0⟩, ⟨⟨8, 8⟩, .rw, 0x0⟩, ⟨⟨9, 9⟩, .rw, 0x0⟩, ⟨⟨10, 10⟩, .rw, 0x0⟩]⟩ /- SOUND_SELi -/]
/-- The rows of block 18, SOUND. -/
def mapSound : List RegRow := mapSound0

def mapLogbook0 : List RegRow := [
  ⟨0x0, [], [⟨⟨0, 0⟩, .rw, 0x0⟩, ⟨⟨1, 1⟩, .ro, 0x0⟩, ⟨⟨2, 2⟩, .ro, 0x0⟩]⟩ /- LOG_CTL -/,
  ⟨0x4, [], [⟨⟨0, 0⟩, .w1c, 0x0⟩, ⟨⟨1, 1⟩, .w1c, 0x0⟩, ⟨⟨2, 2⟩, .w1c, 0x0⟩]⟩ /- LOG_STATUS -/,
  ⟨0x8, [], [⟨⟨31, 0⟩, .cnt, 0x0⟩]⟩ /- LOG_LOST -/,
  ⟨0xC, [], [⟨⟨6, 0⟩, .ro, 0x0⟩]⟩ /- LOG_STAGED -/,
  ⟨0x10, [], [⟨⟨7, 0⟩, .wo, 0x0⟩, ⟨⟨31, 8⟩, .wo, 0x0⟩]⟩ /- LOG_EVENT -/,
  ⟨0x20, [], [⟨⟨7, 0⟩, .rw, 0x0⟩]⟩ /- LOG_SEL -/,
  ⟨0x24, [], [⟨⟨1, 0⟩, .wo, 0x0⟩, ⟨⟨31, 31⟩, .ro, 0x0⟩]⟩ /- LOG_CMD -/,
  ⟨0x100, [(0x4, 28)], [⟨⟨31, 0⟩, .rw, 0x0⟩]⟩ /- LOG_RECw -/]
/-- The rows of block 19, LOGBOOK. -/
def mapLogbook : List RegRow := mapLogbook0

def mapNvm0 : List RegRow := [
  ⟨0x0, [], [⟨⟨0, 0⟩, .rw, 0x0⟩]⟩ /- NVM_CTL -/,
  ⟨0x4, [], [⟨⟨0, 0⟩, .w1c, 0x0⟩, ⟨⟨1, 1⟩, .w1c, 0x0⟩, ⟨⟨2, 2⟩, .w1c, 0x0⟩]⟩ /- NVM_STATUS -/,
  ⟨0x8, [], [⟨⟨31, 0⟩, .cnt, 0x0⟩]⟩ /- NVM_CORR_CNT -/,
  ⟨0xC, [], [⟨⟨31, 0⟩, .cnt, 0x0⟩]⟩ /- NVM_UNCORR_CNT -/,
  ⟨0x10, [], [⟨⟨31, 0⟩, .ro, 0x0⟩]⟩ /- NVM_DENIED_ADDR -/]
/-- The rows of block 20, NVM. -/
def mapNvm : List RegRow := mapNvm0

def mapTest0 : List RegRow := [
  ⟨0x0, [], [⟨⟨13, 0⟩, .rw, 0x64⟩]⟩ /- TEST_DREDGE -/,
  ⟨0x4, [], [⟨⟨31, 0⟩, .cnt, 0x0⟩]⟩ /- TEST_DREDGE_CORR -/,
  ⟨0x8, [], [⟨⟨31, 0⟩, .ro, 0x0⟩]⟩ /- TEST_DREDGE_POISON -/,
  ⟨0xC, [], [⟨⟨31, 0⟩, .cnt, 0x0⟩]⟩ /- TEST_DREDGE_PASSES -/,
  ⟨0x10, [], [⟨⟨0, 0⟩, .w1c, 0x0⟩, ⟨⟨1, 1⟩, .w1c, 0x0⟩]⟩ /- TEST_STATUS -/,
  ⟨0x100, [(0x20, 64)], [⟨⟨3, 0⟩, .rw, 0x0⟩, ⟨⟨4, 4⟩, .rw, 0x0⟩, ⟨⟨5, 5⟩, .rw, 0x0⟩, ⟨⟨6, 6⟩, .rw, 0x0⟩, ⟨⟨7, 7⟩, .rw, 0x0⟩, ⟨⟨10, 8⟩, .rw, 0x0⟩, ⟨⟨23, 16⟩, .rw, 0x0⟩]⟩ /- TEST_LINKL_CTL -/,
  ⟨0x104, [(0x20, 64)], [⟨⟨31, 0⟩, .rw, 0x0⟩]⟩ /- TEST_LINKL_USER -/,
  ⟨0x108, [(0x20, 64)], [⟨⟨31, 0⟩, .cnt, 0x0⟩]⟩ /- TEST_LINKL_ERR -/,
  ⟨0x10C, [(0x20, 64)], [⟨⟨7, 0⟩, .ro, 0x0⟩, ⟨⟨15, 8⟩, .w1c, 0x0⟩, ⟨⟨16, 16⟩, .w1c, 0x0⟩]⟩ /- TEST_LINKL_STATE -/,
  ⟨0x110, [(0x20, 64)], [⟨⟨31, 0⟩, .cnt, 0x0⟩]⟩ /- TEST_LINKL_BITS -/]
/-- The rows of block 21, TEST. -/
def mapTest : List RegRow := mapTest0

def mapDebug0 : List RegRow := [
  ⟨0x0, [], [⟨⟨0, 0⟩, .rw, 0x0⟩, ⟨⟨1, 1⟩, .rw, 0x0⟩]⟩ /- DBG_CTL -/,
  ⟨0x4, [], [⟨⟨0, 0⟩, .ro, 0x0⟩, ⟨⟨1, 1⟩, .w1c, 0x0⟩]⟩ /- DBG_STATUS -/,
  ⟨0x8, [], [⟨⟨31, 0⟩, .ro, 0x13224001⟩]⟩ /- DBG_IDCODE -/]
/-- The rows of block 22, DEBUG. -/
def mapDebug : List RegRow := mapDebug0

def mapHostif0 : List RegRow := [
  ⟨0x0, [], [⟨⟨15, 0⟩, .ro, 0x0⟩, ⟨⟨31, 16⟩, .ro, 0x3224⟩]⟩ /- HOSTIF_PCI_ID -/,
  ⟨0x4, [], [⟨⟨7, 0⟩, .ro, 0x11⟩, ⟨⟨31, 8⟩, .ro, 0x28000⟩]⟩ /- HOSTIF_PCI_CLASS -/,
  ⟨0x8, [], [⟨⟨0, 0⟩, .ro, 0x0⟩, ⟨⟨2, 1⟩, .ro, 0x0⟩, ⟨⟨5, 4⟩, .ro, 0x0⟩, ⟨⟨8, 8⟩, .ro, 0x0⟩, ⟨⟨9, 9⟩, .ro, 0x0⟩, ⟨⟨10, 10⟩, .ro, 0x0⟩]⟩ /- HOSTIF_PCIE_STATE -/,
  ⟨0xC, [], [⟨⟨31, 26⟩, .rw, 0x8⟩]⟩ /- HOSTIF_BAR4_BASE -/,
  ⟨0x10, [], [⟨⟨0, 0⟩, .w1c, 0x0⟩, ⟨⟨1, 1⟩, .w1c, 0x0⟩, ⟨⟨2, 2⟩, .w1c, 0x0⟩, ⟨⟨3, 3⟩, .w1c, 0x0⟩, ⟨⟨4, 4⟩, .w1c, 0x0⟩, ⟨⟨5, 5⟩, .w1c, 0x0⟩, ⟨⟨6, 6⟩, .w1c, 0x0⟩, ⟨⟨7, 7⟩, .w1c, 0x0⟩]⟩ /- HOSTIF_STATUS -/,
  ⟨0x20, [], [⟨⟨3, 0⟩, .rw, 0x8⟩, ⟨⟨9, 8⟩, .ro, 0x0⟩, ⟨⟨10, 10⟩, .ro, 0x0⟩]⟩ /- HOSTIF_HB_CFG -/,
  ⟨0x24, [], [⟨⟨7, 0⟩, .rw, 0x40⟩]⟩ /- HOSTIF_HB_PAGE -/,
  ⟨0x40, [(0x4, 56)], [⟨⟨5, 0⟩, .rw, 0x0⟩, ⟨⟨8, 8⟩, .rw, 0x0⟩, ⟨⟨9, 9⟩, .rw, 0x0⟩, ⟨⟨10, 10⟩, .rw, 0x0⟩]⟩ /- HOSTIF_MAPi -/,
  ⟨0x120, [], [⟨⟨5, 0⟩, .wo, 0x0⟩]⟩ /- HOSTIF_MSIX_REARM -/,
  ⟨0x8000, [(0x10, 64)], [⟨⟨31, 0⟩, .rw, 0x0⟩]⟩ /- MSIX_ADDR_LO -/,
  ⟨0x8004, [(0x10, 64)], [⟨⟨31, 0⟩, .rw, 0x0⟩]⟩ /- MSIX_ADDR_HI -/,
  ⟨0x8008, [(0x10, 64)], [⟨⟨31, 0⟩, .rw, 0x0⟩]⟩ /- MSIX_MSG_DATA -/]
def mapHostif1 : List RegRow := [
  ⟨0x800C, [(0x10, 64)], [⟨⟨0, 0⟩, .rw, 0x1⟩]⟩ /- MSIX_VCTL -/,
  ⟨0x9000, [], [⟨⟨31, 0⟩, .ro, 0x0⟩]⟩ /- MSIX_PBA_LO -/,
  ⟨0x9004, [], [⟨⟨31, 0⟩, .ro, 0x0⟩]⟩ /- MSIX_PBA_HI -/]
/-- The rows of block 23, HOSTIF. -/
def mapHostif : List RegRow := mapHostif0 ++ mapHostif1

/-- The rows of register block k (R17). -/
def blockRows : Nat → List RegRow
  | 0 => mapSys
  | 1 => mapLighthouse
  | 2 => mapMailbox
  | 3 => mapCauseway
  | 4 => mapTime
  | 5 => mapTide
  | 6 => mapSwitch
  | 7 => mapStream
  | 8 => mapPort
  | 9 => mapStow
  | 10 => mapQectl
  | 11 => mapFerry
  | 12 => mapDma
  | 13 => mapCan
  | 14 => mapMotion
  | 15 => mapChopper
  | 16 => mapCapture
  | 17 => mapPilot
  | 18 => mapSound
  | 19 => mapLogbook
  | 20 => mapNvm
  | 21 => mapTest
  | 22 => mapDebug
  | 23 => mapHostif
  | _ => []

end Sys2Proof.Machine
end

