-- ==== Sys2Proof/Machine/Tbl.lean ====
section
/-! DEFINITION. Sparse tables: a list of key and value pairs, keys strictly rising, no value equal to what an
unlisted key reads as. Memory, registers and every per-instance record are held so, so that equal contents are
equal data. -/
namespace Sys2Proof.Machine

/-- A sparse table. -/
abbrev Tbl (α : Type) := List (Nat × α)

/-- What key `k` reads as; `d` says what an unlisted key reads as. -/
def tget {α : Type} (d : Nat → α) : Tbl α → Nat → α
  | [], k => d k
  | (j, v) :: t, k => if k = j then v else if k < j then d k else tget d t k

/-- Write `v` at key `k`, keeping the canonical form. -/
def tput {α : Type} [DecidableEq α] (d : Nat → α) : Tbl α → Nat → α → Tbl α
  | [], k, v => if v = d k then [] else [(k, v)]
  | (j, u) :: t, k, v =>
    if k < j then (if v = d k then (j, u) :: t else (k, v) :: (j, u) :: t)
    else if k = j then (if v = d k then t else (k, v) :: t)
    else (j, u) :: tput d t k v

/-- The canonical form: keys strictly rising, no listed value equal to the default. -/
def twf {α : Type} [DecidableEq α] (d : Nat → α) : Tbl α → Bool
  | [] => true
  | (j, u) :: t => decide (u ≠ d j) && t.all (fun p => decide (j < p.1)) && twf d t

/-- Every listed value changed, in canonical form. -/
def tmap {α : Type} [DecidableEq α] (d : Nat → α) (f : α → α) (t : Tbl α) : Tbl α := t.foldl (fun u p => tput d u p.1 (f p.2)) []

/-- Remove from a sorted list of numbers. -/
def nerase (k : Nat) (l : List Nat) : List Nat := l.filter (fun j => j != k)

/-- Insert into a sorted list of numbers without repeats. -/
def ninsert (k : Nat) : List Nat → List Nat
  | [] => [k]
  | j :: t => if k < j then k :: j :: t else if k = j then j :: t else j :: ninsert k t

end Sys2Proof.Machine
end

