-- ==== Sys2Proof/Machine/State.lean ====
section
/-! DEFINITION. The state of the block: everything the spec gives the machine, as plain data. Registers are one
sparse table keyed by internal address; what is no register stands in one record per chapter. -/
namespace Sys2Proof.Machine

/-! ## Memories (01) -/

/-- Marks on 16-byte lines, by line number (address / 16): poisoned (R28), holding a correctable error, and
corrected words that wait to be written back (R27); contents that a frame cell or a word of the ferry pool keeps once no frame and no
queue holds it, by frame cell (none for a byte written since through the window) and by pool word (R15). -/
structure MemSt where
  poison  : List Nat := []
  soft    : List Nat := []
  wback   : List Nat := []
  fbLeft  : List (Nat × List (Option Nat)) := []
  fqLeft  : List (Nat × Nat) := []
  deriving DecidableEq, Repr

/-- How an access ended, as its initiator sees it (R14, R28); or that it has not ended yet. -/
inductive BusEnd where
  | done | busError | poisoned | waiting
  deriving DecidableEq, Repr

/-- The latest access: who, where, how it ended, what a read returned. -/
structure AccessRec where
  who  : Initiator
  addr : Nat
  fin  : BusEnd
  data : Nat
  deriving DecidableEq, Repr

/-! ## Time base (02) -/

/-- A trigger unit: output active, tick at which a pulse ends (none while held active), next PERIODIC rise as an
instant in 2^-32 ns. -/
structure TrigSt where
  active  : Bool := false
  endTick : Option Nat := none
  next    : Nat := 0
  deriving DecidableEq, Repr

/-- A capture FIFO entry (R55). -/
structure TcapEntry where
  rising : Bool
  ns     : Nat
  sec    : Nat
  deriving DecidableEq, Repr

/-- An egress timestamp FIFO entry (R46). -/
structure TxtsEntry where
  msgType : Nat
  domain  : Nat
  seqId   : Nat
  ns      : Nat
  quarter : Nat
  sec     : Nat
  deriving DecidableEq, Repr

/-- The time base: the time line in 2^-32 ns, of which the time of day is the remainder modulo 2^48 s and which begins one full turn up so that a
negative step has room below 0 (R31), TSCLK ticks since CHIP reset, increment in force, KICKs waiting for their ticks of application (R34),
the tick at which the running state watchdog expires, FIFOs and triggers; `seen` are the capture and DMA request inputs last seen high (R329). -/
structure TimeSt where
  tod     : Nat := 2 ^ 48 * (1000000000 * 2 ^ 32)
  tick    : Nat := 0
  inc     : Nat := 0x0400000000
  kick    : Nat := 0
  wdogEnd : Option Nat := none
  txts    : Tbl (List TxtsEntry) := []
  trig    : Tbl TrigSt := []
  tcap    : Tbl (List TcapEntry) := []
  seen    : List Nat := []
  deriving DecidableEq, Repr

/-! ## Logbook (16) -/

/-- An event waiting in staging (R438). -/
structure Staged where
  code  : Nat
  value : Nat
  sec   : Nat
  pcc   : Nat
  supp  : Bool
  deriving DecidableEq, Repr

/-- The least and the greatest count that a clock of the lighthouse may show, in hundredths of a TSCLK tick (R470). -/
structure LhTime where
  lo : Nat := 0
  hi : Nat := 0
  deriving DecidableEq, Repr

/-- An open breakwater window (R436): its events so far, BW_N and BW_WIN as it took them, when it opened. -/
structure BwWin where
  count  : Nat
  limit  : Nat
  span   : Nat
  opened : LhTime
  deriving DecidableEq, Repr

/-- The recorder: working records (26 words each, empty while not yet read from MRAM), codes whose record changed, codes whose record had two
bad copies and has not changed since (R437), open breakwater windows, staged events. -/
structure LogSt where
  work   : Tbl (List Nat) := []
  dirty  : List Nat := []
  bad    : List Nat := []
  win    : Tbl (Option BwWin) := []
  staged : List Staged := []
  deriving DecidableEq, Repr

/-! ## Handover buffers, plans, the tide engine (03, 06) -/

/-- On whose behalf a publish or acquire is made (R80 to R82, R315): software, a tide entry (bank, index), a MOTN entry
(bank, index, group, byte offset), a LATCH of a group (group, byte offset). -/
inductive HbBy where
  | soft
  | tide (bank idx : Nat)
  | motn (bank idx grp off : Nat)
  | latch (grp off : Nat)
  deriving DecidableEq, Repr

/-- A publish or acquire held behind a line-side write or an insertion (R83), whether the buffer was disabled meanwhile, and of a tide entry its
MARK and whether it lands in a catch-up, which count once it is performed (R66, R90). -/
structure HeldOp where
  publish : Bool
  by'     : HbBy
  lost    : Bool := false
  mark    : Bool := false
  late    : Bool := false
  deriving DecidableEq, Repr

/-- The copy of a plan that a window works from (R150): header words, entries by index (none where one read as
poison). -/
structure PlanCopy where
  plan    : Nat
  sigLo   : Nat
  sigHi   : Nat
  ctl     : Nat
  entries : List (Option Nat)
  deriving DecidableEq, Repr

/-- A window on an ingress port (R73): its copy, its instants, the STOW entry that armed it, consumed by a frame. -/
structure Window where
  copy     : PlanCopy
  opens    : Nat
  closes   : Nat
  bank     : Nat
  idx      : Nat
  consumed : Bool := false
  deriving DecidableEq, Repr

/-- An entry issued and not yet landed (R68): bank, index, landing instant, whether it belongs to the next cycle, its
four words, and the plan copy that a STOW takes at its issue (R150). -/
structure Issued where
  bank  : Nat
  idx   : Nat
  lands : Nat
  next  : Bool
  w1    : Nat
  arg0  : Nat
  arg1  : Nat
  copy  : Option PlanCopy := none
  deriving DecidableEq, Repr

/-- Values that a CAPT has latched and that are on their way to PIM (R83, R84): buffer, address, bytes, the tick at which they are there. -/
structure CaptWrite where
  buf   : Nat
  addr  : Nat
  bytes : List Nat
  ends  : Nat
  deriving DecidableEq, Repr

/-- The tide engine beside its registers: start of the current cycle, the instant a swap was armed, a committed swap and
the tick of its commitment, entries of the current and of the next cycle already issued, entries in flight, transmission gates and hold per port,
windows, a CLEAR of a plan that waits for a copy (R166), CAPT values on their way to PIM. -/
structure TideSt where
  start   : Nat := 0
  armedAt : Nat := 0
  commit  : Bool := false
  committed : Nat := 0
  issued  : List Nat := []
  issuedN : List Nat := []
  flight  : List Issued := []
  gates   : Tbl Nat := []
  holds   : List Nat := []
  win     : Tbl (Option Window) := []
  clears  : List Nat := []
  capt    : List CaptWrite := []
  deriving DecidableEq, Repr


/-! ## The switch (04) and the ports (05) -/

/-- An entry of the MAC table (R102, R103). -/
structure MacEntry where
  mac    : Nat
  fid    : Nat
  ports  : Nat
  static : Bool
  age    : Nat
  deriving DecidableEq, Repr

/-- A stream context (R114 to R119): configuration words as the window holds them, blocked bits, the seven counters,
buckets in units of 1/8,000,000 byte, tick of the last refill, highest sequence with its history map, tick of the latest copy. -/
structure StreamSt where
  cfg     : List Nat := []
  sduBlk  : Bool := false
  redBlk  : Bool := false
  cnt     : List Nat := []
  cbs     : Nat := 0
  ebs     : Nat := 0
  filled  : Nat := 0
  hist    : Option (Nat × Nat) := none
  seen    : Nat := 0
  deriving DecidableEq, Repr

/-- What steps 1 to 4 of R98 find in the head of a frame: VID, the VLAN check, the stream context with the configuration words that
it has at that time (R126), class; where a WRITE has landed since, the slot of `SwSt.olds` that holds the context as it stood before it. -/
structure Front where
  vid    : Nat
  vlanOk : Bool
  stream : Option Nat
  cfg    : List Nat
  cls    : Nat
  before : Option Nat := none
  deriving DecidableEq, Repr

/-- A frame held by the switch: ingress port, arrival timestamp (2^-32 ns), bytes from destination address to FCS as
stored so far, reception complete or given up, bad (FCS or error), class, VID, stream context, processed class 7 frame with its
plan copy and the STOW entry of its window, whether the entries apply, whether it may cut through, demoted; egress ports still holding it, egress
ports that mark CE, egress ports where it is stored and forwarded because it waited behind demoted frames (R122), redundancy sequences by
pair, buffers inserting with the end of the last byte that an entry reads from each (R83), cells of the reserve and of the pool with their
numbers, bytes of its descriptor written through the window, entries to skip because of their buffer, skip and refusal already counted,
dropped while it is received (R97, R112, R117), ended after 2,048 bytes (R112), passed on unchanged during the muster (R487). -/
structure Frame where
  port    : Nat
  ts      : Nat
  bytes   : List Nat
  done    : Bool := false
  bad     : Bool := false
  cls     : Nat := 0
  vid     : Nat := 0
  stream  : Option Nat := none
  proc    : Bool := false
  copy    : Option PlanCopy := none
  bank    : Nat := 0
  idx     : Nat := 0
  applies : Bool := false
  ct      : Bool := false
  demoted : Bool := false
  dei     : Bool := false
  egress  : List Nat := []
  marked  : List Nat := []
  saf     : List Nat := []
  redSeq  : List (Nat × Nat) := []
  ins     : List (Nat × Nat) := []
  resv    : Nat := 0
  shared  : Nat := 0
  cellNos : List Nat := []
  desc    : List (Nat × Nat) := []
  skip    : List Nat := []
  skipped : Bool := false
  refused : Bool := false
  lost    : Bool := false
  oversize : Bool := false
  raw     : Bool := false
  deriving DecidableEq, Repr

/-- A frame in reception on a port: its bytes so far, timestamp, its continuation fragments, the frame record it already
has (a processed class 7 frame), what its head gave once it was classified, demoted, filtered and metered, dropped at step 6, buffers it has
extracted into, buffers of whose EXTRACT entries the first byte has arrived (R83). -/
structure RxFrame where
  bytes   : List Nat
  ts      : Nat
  frags   : Nat := 0
  frame   : Option Nat := none
  front   : Option Front := none
  demoted : Bool := false
  policed : Bool := false
  cutOff  : Bool := false
  ext     : List Nat := []
  begun   : List Nat := []
  deriving DecidableEq, Repr

/-- A frame in transmission on a port: frame number, egress timestamp (`sfd`: its timestamp point has passed), class, cut-through, fragments
already sent with their bytes, preemptable, its smallest fragment and whether class 6 is express by the settings at its start (R141), stomp, the bytes known to have
left; up to which place its INSERT entries have met their buffers, and those that were refused there (R80, R162). -/
structure TxFrame where
  frame : Nat
  ts    : Nat
  cls   : Nat
  ct    : Bool
  frags : Nat := 0
  base  : Nat := 0
  pre   : Bool := false
  fmin  : Nat := 64
  c6    : Bool := false
  stomp : Bool := false
  sfd   : Bool := false
  head  : List Nat := []
  judged : Nat := 0
  off   : List Nat := []
  deriving DecidableEq, Repr

/-- The switch beside its registers: MAC entries by index, VLAN words, stream contexts, contexts as they stood before a WRITE, for the frames that
began under them (R126), by slot, frames held, the 64 output queues, next frame number. -/
structure SwSt where
  mac     : Tbl (Option MacEntry) := []
  vlan    : Tbl Nat := []
  streams : Tbl StreamSt := []
  olds    : Tbl StreamSt := []
  frames  : Tbl (Option Frame) := []
  q       : Tbl (List Nat) := []
  nextId  : Nat := 0
  deriving DecidableEq, Repr

/-- How a port sleeps (R139, R140). -/
inductive LpiSt where
  | awake | asleep | waking
  deriving DecidableEq, Repr

/-- A port beside its registers: in PORT reset, link present on the line, the link filter running, a pause and the
priorities paused by PFC, low-power idle with the wake time in use, verification attempts, AN_ADV as read at the latest start of
link, tick up to which the microseconds of low-power idle are counted and the ticks short of a microsecond from earlier sleeps (own, partner; R142), a
control frame put off behind an opening of the class 7 gate: 1 before it, 2 within it (R136), frame in reception,
frame in transmission, frame preempted, last frame sent (bytes as it left) and last control frame sent. -/
structure PortSt where
  reset   : Bool := false
  line    : Bool := false
  filter  : Bool := false
  pause   : Bool := false
  pfc     : List Nat := []
  lpi     : LpiSt := .awake
  tw      : Nat := 0
  tries   : Nat := 0
  adv     : Nat := 0
  lpiAt   : Nat := 0
  lpiRest : Nat := 0
  lpiRxAt : Nat := 0
  lpiRxRest : Nat := 0
  fcWait  : Nat := 0
  rx      : Option RxFrame := none
  tx      : Option TxFrame := none
  cut     : Option TxFrame := none
  sent    : List Nat := []
  deriving DecidableEq, Repr


/-! ## Quay engines (07, 08) -/

/-- The run states of an engine (R191). -/
inductive QRun where
  | stopped | running | stopping | halted
  deriving DecidableEq, Repr

/-- What a running engine waits for: nothing, events by mask with a timeout in core cycles (R233), an instant of the
time of day (R234), or bytes or room of a stream (R215). -/
inductive QWait where
  | none
  | events (mask timeout : Nat)
  | until (instant : Nat)
  | stream
  deriving DecidableEq, Repr

/-- A repeat in progress (R229): interruptible (REPI), iterations left, the repeated instruction's word. -/
structure RepSt where
  int  : Bool
  left : Nat
  word : Nat
  deriving DecidableEq, Repr

/-- An engine beside its registers and memories: run state, halt cause, PC, wait, whether the watchdog has expired
since its last restart, the breakpoint that is not taken again, a STEP in progress; receive stream: bytes taken of
the head word, ENDED, TRUNC, a byte of the packet taken; transmit stream: bytes appended and not yet pushed, open; a repeat in
progress; a HALT that waits for the instruction in progress. -/
structure QeSt where
  run     : QRun := .stopped
  cause   : Nat := 0
  pc      : Nat := 0
  wait    : QWait := .none
  wdogHit : Bool := false
  skipBp  : Bool := false
  step    : Bool := false
  rxPos   : Nat := 0
  ended   : Bool := false
  trunc   : Bool := false
  rxOpen  : Bool := false
  txBuf   : List Nat := []
  txOpen  : Bool := false
  rep     : Option RepSt := none
  haltReq : Bool := false
  deriving DecidableEq, Repr

/-! ## Ferry queues and DMA (09) -/

/-- A word of a ferry queue with its tags (R238); `bad` marks a word whose parity fails (R239), `trunc` a terminator
(R246), which occupies no cell. -/
structure FqWord where
  data   : Nat
  last   : Bool := false
  poison : Bool := false
  vb     : Nat := 0
  bad    : Bool := false
  trunc  : Bool := false
  deriving DecidableEq, Repr

/-- A ferry queue: configuration, drop counter, words oldest first, the cells held in order and the words of the head
cell already popped, consumer and producer within a packet, discarding the producer's packet after a flush. -/
structure FqSt where
  en       : Bool := false
  limit    : Nat := 0
  drops    : Nat := 0
  words    : List FqWord := []
  cells    : List Nat := []
  headOff  : Nat := 0
  openHead : Bool := false
  openTail : Bool := false
  discard  : Bool := false
  deriving DecidableEq, Repr

/-- A beat in a DMA channel's region: stream or plane that it belongs to, place of its first byte there, its bytes (R251, R252). -/
structure DmaBeat where
  strm  : Nat
  off   : Nat
  bytes : List Nat
  deriving DecidableEq, Repr

/-- A DMA channel in progress: its descriptor's eight words (empty: none fetched), bytes moved by the segments before (pixels of PLANE and UNPLANE),
bytes of the segment under way (0: none), what the read engine has put into the region, the write engine's turn and the writes that it has made, why
the read engine stopped early (cause, address), bytes left of the granted burst, a region of the shared buffer held (R251), a source packet taken to
its end, its marks, a destination packet open with bytes kept for its last word, the queue whose cut packet START skips. -/
structure DmaSt where
  desc     : List Nat := []
  moved    : Nat := 0
  goal     : Nat := 0
  got      : List DmaBeat := []
  drain    : Bool := false
  put      : Nat := 0
  fail     : Option (Nat × Nat) := none
  burst    : Nat := 0
  region   : Bool := false
  srcDone  : Bool := false
  oversize : Bool := false
  trunc    : Bool := false
  dstOpen  : Bool := false
  dstBuf   : List Nat := []
  skipQ    : Option Nat := none
  deriving DecidableEq, Repr


/-! ## CAN controllers and the time-triggered unit (10) -/

/-- A frame in a transmit buffer: words 0 and 1 of its packet, data bytes, order of popping, popped under TXPRIO 1,
attempts made, instant of the SOF of the latest attempt, cancelled while on the bus (R272 to R275). -/
structure CanBuf where
  w0     : Nat
  w1     : Nat
  data   : List Nat
  seq    : Nat := 0
  fifo   : Bool := false
  tries  : Nat := 0
  sof    : Option Nat := none
  cancel : Bool := false
  deriving DecidableEq, Repr

/-- Where a frame to be sent comes from: a transmit buffer, the reference message, an application buffer (R283). -/
inductive CanSrc where
  | buf (b : Nat)
  | ref
  | excl (m : Nat)
  deriving DecidableEq, Repr

/-- A frame of the time-triggered unit waiting for its start, with the end of its window in the unit's time. -/
structure CanSpec where
  src  : CanSrc
  w0   : Nat
  w1   : Nat
  data : List Nat
  till : Option Nat
  deriving DecidableEq, Repr

/-- What is latched at the SOF of a frame (R277, R279): time of day, time of the time-triggered unit, cycle count, its
running number, window, and whether it is a reference message of the unit. -/
structure CanSof where
  ts    : Nat
  at'   : Nat
  cycle : Nat
  pass  : Nat
  win   : Option Nat
  ref   : Bool := false
  deriving DecidableEq, Repr

/-- The frame a controller transmits; of a reference message the end of the window in which it may be sent again (R283). -/
structure CanOut where
  src  : CanSrc
  w0   : Nat
  w1   : Nat
  data : List Nat
  sof  : CanSof
  till : Option Nat := none
  deriving DecidableEq, Repr

/-- A controller beside its registers: mode in effect, error counters, bus-off, recovery running, waiting for bus integration,
buffers to be emptied on entering INIT, transmit buffers, the next buffer in cyclic order, packets popped, the frame on
the bus (own, other's), a frame of the time-triggered unit waiting, copies of a pair's frames that wait for a free buffer (R290), whether the
controller acknowledged the latest frame of another node and sent an error frame at the latest error (R276). -/
structure CanSt where
  mode  : Nat := 0
  tec   : Nat := 0
  rec'  : Nat := 0
  boff  : Bool := false
  recov : Bool := false
  integ : Bool := false
  drain : Bool := false
  bufs  : Tbl (Option CanBuf) := []
  next  : Nat := 0
  pops  : Nat := 0
  tx    : Option CanOut := none
  rx    : Option CanSof := none
  spec  : Option CanSpec := none
  late  : List CanBuf := []
  acked : Bool := false
  flagged : Bool := false
  deriving DecidableEq, Repr

/-- A copy accepted in a redundant pair (R290): identifier, extended, running number of the cycle, window. -/
structure CanCopy where
  id   : Nat
  ide  : Bool
  pass : Nat
  win  : Option Nat
  deriving DecidableEq, Repr

/-- The time-triggered unit beside its registers: start of the basic cycle in the unit's time, a cycle has begun, running
number of the cycle, next trigger, a reference message has started in this cycle, the unit has synchronised in
this cycle, buses with a valid reference message in this cycle, misses per bus, identifiers received since the previous
trigger, copies accepted, active images. -/
structure TtSt where
  cycAt  : Nat := 0
  begun  : Bool := false
  pass   : Nat := 0
  nextT  : Nat := 0
  refOn  : Bool := false
  synced : Bool := false
  refOk  : List Nat := []
  miss0  : Nat := 0
  miss1  : Nat := 0
  seen   : List (Nat × Bool) := []
  copies : List CanCopy := []
  active : Tbl (List Nat) := []
  deriving DecidableEq, Repr


/-! ## Motion (11) -/

/-- States of an axis (R299). -/
inductive AxState where
  | idle | moving | stopping | homing | fault
  deriving DecidableEq, Repr

/-- What a write of the MOTION block asks of an axis at the next profile tick (R295): a command of AXn_CMD, or the position
that AXn_POS_HI loads. -/
inductive AxAct where
  | cmd (w : Word) | load (p : Int)
  deriving DecidableEq, Repr

/-- An axis beside its registers. Positions are in 2^-24 microstep, velocities and changes of velocity in 2^-64
microstep per tick (R296). `fin` marks the tick in which a move ended: the axis reads IDLE from the next tick; `emer`,
`stopped` and `limit` tell how a stop decelerates and ends; `acts` are the writes that wait for the next tick, `req` the stop
that acts in this one (1 STOP, 2 ESTOP), `past` that a move or SET completed in the last tick (R305, R321), `arrived` the velocity at which a position or linear move came to its
target in that tick (R303, R307), `refused` that the latest START or
HOME was refused, `late` that the latest STOP or ESTOP came too late (R299, R305), `outp`, `stepW`, `stepPol`,
`dirPol` and `filts` the output, pulse width, polarities and filter times of the latest tick
(R295); the raw and filtered inputs are positive limit, negative limit and home, with the position
latched at the latest raw edge of each, its instant and its clock (R309); homing keeps the phase, whether it is coming to standstill, where the phase began, the
candidate and the reference (R318, R319); `q` is the angle offset (R322); `sp` and `nLeft` follow setpoints and `spNew` is one that waits for
the next tick (R315, R316);
`edges` are the motion clocks of the last tick's step edges, `dirPos` its direction, and `high` the clock at which the pulses of earlier
ticks end (R310); `movedAt` is the clock of the latest tick that changed the position (R332). -/
structure AxSt where
  st        : AxState := .idle
  pos       : Int := 0
  vel       : Int := 0
  dcur      : Int := 0
  chg       : Int := 0
  fin       : Bool := false
  emer      : Bool := false
  stopped   : Bool := false
  limit     : Option Bool := none
  acts      : List AxAct := []
  req       : Nat := 0
  past      : Bool := false
  arrived   : Option Int := none
  refused   : Bool := false
  late      : Bool := false
  outp      : Nat := 0
  stepW     : Nat := 0
  stepPol   : Bool := false
  dirPol    : Bool := false
  filts     : Word := 0
  nextValid : Bool := false
  homed     : Bool := false
  reason    : Nat := 0
  rawP      : Bool := false
  rawN      : Bool := false
  rawH      : Bool := false
  limP      : Bool := false
  limN      : Bool := false
  homeIn    : Bool := false
  latP      : Int := 0
  latN      : Int := 0
  latH      : Int := 0
  timP      : Nat := 0
  timN      : Nat := 0
  timH      : Nat := 0
  edgP      : Nat := 0
  edgN      : Nat := 0
  edgH      : Nat := 0
  phase     : Nat := 0
  hstop     : Bool := false
  hstart    : Int := 0
  cand      : Option Int := none
  ref       : Option Int := none
  homeErr   : Nat := 0
  q         : Nat := 0
  sp        : Option Int := none
  nLeft     : Nat := 0
  spNew     : Option Int := none
  dirPos    : Bool := false
  movedAt   : Nat := 0
  edges     : List Nat := []
  high      : Nat := 0
  deriving DecidableEq, Repr

/-- States of a group (R312). -/
inductive GrpState where
  | idle | moving | running | stopping | fault
  deriving DecidableEq, Repr

/-- One member of a linear group: axis, start position, signed distance (2^-24 microstep), ratio (R313). -/
structure Member where
  axis  : Nat
  start : Int
  dist  : Int
  ratio : Nat
  deriving DecidableEq, Repr

/-- A group beside its registers: the master's travelled and total distance (2^-24), its velocity, the members as START found
them, how a stop decelerates and whether it ends in FAULT; `acts`, `req`, `fin`, `past`, `refused` and `late` as for an axis, and `fresh` setpoint sets that wait
for the next tick (R315). -/
structure GrpSt where
  st      : GrpState := .idle
  master  : Nat := 0
  reason  : Nat := 0
  trav    : Int := 0
  total   : Int := 0
  vel     : Int := 0
  dcur    : Int := 0
  chg     : Int := 0
  fin     : Bool := false
  emer    : Bool := false
  toFault : Bool := false
  acts    : List Word := []
  req     : Nat := 0
  past    : Bool := false
  refused : Bool := false
  late    : Bool := false
  fresh   : Nat := 0
  members : List Member := []
  deriving DecidableEq, Repr

/-! ## Choppers, encoders, converters (12) -/

/-- Where a phase stands in its chopping cycle (R333); `slow` is the stay in slow decay of a threshold code 0. -/
inductive ChopPh where
  | off | dead | blank | on | decay | slow
  deriving DecidableEq, Repr

/-- One phase of a chopper: place in the cycle, direction of the drive, OVERSHOOT in this cycle, CHOPn_TIME and
CHOPn_CUR as taken at the latest event 1, and the IN and EN signals of its two half-bridges; in an off phase those at its beginning, `began`
the clock of event 1, `trip` that of the off phase's beginning, `fast` how many clocks of fast decay it begins with (R334). -/
structure ChopPhase where
  ph   : ChopPh := .off
  neg  : Bool := false
  excess : Bool := false
  began : Nat := 0
  trip : Nat := 0
  fast : Nat := 0
  tim  : Nat := 0x10000
  cur  : Nat := 0
  in1  : Bool := false
  en1  : Bool := false
  in2  : Bool := false
  en2  : Bool := false
  deriving DecidableEq, Repr

/-- A chopper beside its registers: its two phases, the running fraction of AUTO, the resting current in use, the run
of short on phases, the stall indication. -/
structure ChopSt where
  a     : ChopPhase := {}
  b     : ChopPhase := {}
  f     : Nat := 0
  rest  : Bool := false
  short : Nat := 0
  stall : Bool := false
  deriving DecidableEq, Repr

/-- An encoder counter beside its registers: filtered inputs, raw inputs with the clocks since which they hold (R338), count, first index edge already seen, the record of
QERR or RANGE since the last STATUS word (R341). -/
structure EncSt where
  a     : Bool := false
  b     : Bool := false
  z     : Bool := false
  rawA  : Bool := false
  rawB  : Bool := false
  rawZ  : Bool := false
  sinceA : Nat := 0
  sinceB : Nat := 0
  sinceZ : Nat := 0
  count : Int := 0
  once  : Bool := false
  qrec  : Bool := false
  deriving DecidableEq, Repr

/-- A converter: sequence running or last run, running, results so far, instant of the first sample; sequences complete and not yet delivered,
oldest first, as number, results, instant of the first sample. -/
structure AdcSt where
  seq   : Nat := 0
  busy  : Bool := false
  res   : List Nat := []
  start : Nat := 0
  out   : List (Nat × List Nat × Nat) := []
  deriving DecidableEq, Repr


/-! ## Pilots (13) -/

/-- Where a running pilot stands (R354): about to execute the word at PC; in an AWAIT of a condition on a pin, with the levels
seen since its execute clock and a KICK that has come; in a LOAD or STORE that waits; in its dwell. A wait keeps the dwell
count that the instruction selected. -/
inductive PlPhase where
  | ready
  | await (cond pin dw : Nat) (seen : List Bool) (kicked : Bool)
  | load (wa : Bool) (dw : Nat)
  | store (wa : Bool) (dw : Nat)
  | dwell
  deriving DecidableEq, Repr

/-- A pilot beside its registers (R350): STATE, PC, successor, BCNT, LAST, the levels it drove last, its phase, its two queues. -/
structure PilotSt where
  run   : Nat := 0
  pc    : Nat := 0
  next  : Nat := 0
  bcnt  : Nat := 0
  last  : Nat := 0
  drv   : Nat := 0
  phase : PlPhase := .ready
  tx    : List Nat := []
  rx    : List Nat := []
  deriving DecidableEq, Repr

/-- A pilot set: levels last driven on its pins, levels last presented from outside, the synchroniser's two
stages (`m` the positions that the device drove, `l` their levels), words whose parity fails (R351, R364). -/
structure PsetSt where
  lvl : Nat := 0
  ext : Nat := 0
  m1  : Nat := 0
  l1  : Nat := 0
  m2  : Nat := 0
  l2  : Nat := 0
  bad : List Nat := []
  deriving DecidableEq, Repr

/-! ## Host interfaces (14) -/

/-- Something an interface has accepted and not yet performed (R374): a posted write with its number, its bytes (none where not enabled) and
a cause for which it fails in any case (R394, 0 for none), whether more writes of the same request follow (R397), and whether it has failed
already and only the rest of its bytes is left; a PCIe read with the byte enables of its DWs, none for one that only Completer Abort
answers; an AtomicOp; a delayed transaction by number; the fetch of the line after that of an address, which a read of a held line asked for (R393). -/
inductive CwOp where
  | write (seq addr : Nat) (bytes : List (Option Nat)) (cause : Nat) (more failed : Bool)
  | read (addr : Nat) (bes : List Nat)
  | atomic (addr n : Nat) (kind : AtomicKind) (a b : Nat)
  | delayed (id : Nat)
  | ahead (addr : Nat)
  deriving DecidableEq, Repr

/-- A delayed transaction (R391): direction, internal address of its word, byte enables, data of a write, part of a locked sequence,
write number, result as error and data once it has arrived, and the tick of its arrival. -/
structure Delayed where
  id     : Nat
  write  : Bool
  addr   : Nat
  ben    : Nat
  data   : Nat
  locked : Bool := false
  seq    : Nat := 0
  result : Option (Bool × Nat) := none
  at'    : Nat := 0
  deriving DecidableEq, Repr

/-- How a cycle, frame or request ended as the host sees it (R377, R385, R389). -/
inductive CwFin where
  | done | retry | error | completerAbort | unsupported | silent
  deriving DecidableEq, Repr

/-- The latest answer of an interface: its end, the bytes of data, whether one is poisoned, and of PCIe the completions sent, each with its EP
(R377). -/
structure CwReply where
  fin    : CwFin := .silent
  data   : List Nat := []
  poison : Bool := false
  cpls   : List (List Nat × Bool) := []
  deriving DecidableEq, Repr

/-- A host interface: writes accepted since its reset (R394), what waits in order, delayed transactions and their next number, prefetched
lines with the tick of their fetch and their 128 bits, lines of outbound windows that are being fetched ahead and whether they are still wanted
(R393), the accesses (address, width) of the PCIe read in front that have ended while others of it still wait, how many of the waiting operations were accepted before a reset of the interface and are not answered (R381), the half of a 16-bit pair held (address of its word, write, half's data), its latest answer. -/
structure CwIfSt where
  seq   : Nat := 0
  ops   : List CwOp := []
  dl    : List Delayed := []
  next  : Nat := 0
  lines : List (Nat × Nat × Nat) := []
  pre   : List (Nat × Bool) := []
  got   : List ((Nat × Nat) × (BusEnd × Nat)) := []
  mute  : Nat := 0
  half  : Option (Nat × Bool × Nat) := none
  reply : CwReply := {}
  deriving DecidableEq, Repr

/-- A locked sequence of the host bus (R387): the region's first address, the tick at which the lock was taken, broken. -/
structure HbLock where
  region : Nat
  taken  : Option Nat := none
  broken : Bool := false
  deriving DecidableEq, Repr

/-- An access that cannot end yet: an outbound request (R396) with or without a buffer of R397, sent on the link or not; and how it
ended, until its initiator takes that up. An outbound request holds the PCIe address that it maps to, and a write its bytes (R396). -/
structure WaitAcc where
  who    : Initiator
  addr   : Nat
  buf    : Bool := false
  sent   : Bool := false
  pci    : Option Nat := none
  bytes  : Option (List Nat) := none
  result : Option (BusEnd × Nat) := none
  deriving DecidableEq, Repr

/-- The header of a packet as far as the commands give it: kind, internal address, bytes (R380). -/
inductive TlpKind where
  | memWrite | memRead | atomicOp | completion
  | unsupported (k : UrKind)
  deriving DecidableEq, Repr
/-- The header of a packet (R380). -/
structure TlpHead where
  kind  : TlpKind
  addr  : Nat
  bytes : Nat
  deriving DecidableEq, Repr

/-- The AER capability (R375, R380): errors that have occurred, masked errors, errors of fatal severity, the first error not masked with its
packet's header, generation and checking of ECRC. -/
structure AerSt where
  status : List AerErr := []
  mask   : List AerErr := []
  fatal  : List AerErr := [.malformedTlp]
  first  : Option (AerErr × Option TlpHead) := none
  gen    : Bool := false
  check  : Bool := false
  deriving DecidableEq, Repr

/-- The causeway beside its registers: the three interfaces, the host bus lock, accesses that wait, those that go on without their
initiator (R260, R381, R471), outbound reads that timed out, the latest outbound write (PCIe address, bytes), vectors whose message has been
sent since they became pending (R378), the latest message
(address, data), the AER capability, configuration space as the host has written it, PCIE_PERSTN low. -/
structure CwSt where
  ifs   : Tbl CwIfSt := []
  lock  : Option HbLock := none
  waits : List WaitAcc := []
  strays : List WaitAcc := []
  late  : List (Initiator × Nat) := []
  out   : Option (Nat × List Nat) := none
  sent  : List Nat := []
  msg   : Option (Nat × Nat) := none
  aer   : AerSt := {}
  cfg   : Tbl Nat := []
  perst : Bool := false
  deriving DecidableEq, Repr



/-! ## Mailboxes (15) -/

/-- A mailbox beside its registers: FULL, the claim as class and instance, the tick of its latest accepted write, the sequence number
(R403, R404, R406). -/
structure MbSt where
  full  : Bool := false
  claim : Option (Nat × Nat) := none
  at'   : Nat := 0
  seq   : Nat := 0
  deriving DecidableEq, Repr

/-- Scopes of the resets that wait to be performed (R471, R472). -/
inductive Scope where
  | chip | core | causeway
  deriving DecidableEq, Repr

/-- A long command in progress (R414): its mailbox, code, TAG, FLAGS, payload words, its stage, the tick at which the stage began, the DETAIL,
SUB and INDEX found so far, RESET_USED, the image's bytes once read and checked, and mailbox, TAG and FLAGS of each ABORT whose STOP is still to
act (R416). A RESET of scope BERTH that waits for its berth is kept among them (R418), though it is no long command. -/
structure LongCmd where
  m       : Nat
  code    : Nat
  tag     : Nat
  flags   : Nat
  words   : List Nat
  stage   : Nat := 0
  since   : Nat := 0
  status  : Nat := 0
  detail  : Nat := 0
  sub     : Nat := 0
  index   : Nat := 0
  resetUsed : Bool := false
  image   : List Nat := []
  aborters : List (Nat × Nat × Nat) := []
  deriving DecidableEq, Repr

/-- What the harbourmaster runs: nothing yet, the boot ROM loading, the ROM waiting for an image from its host, the muster, the firmware, held
before its first instruction (R477 to R480, R493). -/
inductive HmRun where
  | off | rom | waitHost | muster | firmware | held
  deriving DecidableEq, Repr

/-- The muster and its download (R488 to R491): adopted originator as PRIO and ORIGIN, session of the first block taken, blocks staged with
their lengths, DONE frames of the session, a session given up (it waits for a new one), the stream not yet applied as offset and length, frames
sent by the latest command with their ports. -/
structure MusterSt where
  adopted : Option (Nat × Nat) := none
  session : Option Nat := none
  failed  : Bool := false
  blocks  : Tbl Nat := []
  dones   : Nat := 0
  rest    : List Nat := []
  sent    : List (Nat × List Nat) := []
  deriving DecidableEq, Repr

/-- The harbourmaster's software: what runs, firmware version, long commands, resets posted with their mailbox and tick (R418), an image that
the ROM has answered OK and not yet started with the MRAM slot that it comes from, the slot that autoload is at and whether it is done, the
muster. -/
structure HmSt where
  run     : HmRun := .off
  version : Nat := 0
  long    : List LongCmd := []
  resets  : List (Scope × Nat × Nat) := []
  start   : Option (List Nat × Nat × Nat) := none
  slot    : Option Nat := none
  next    : Nat := 2
  loaded  : Bool := false
  muster  : MusterSt := {}
  deriving DecidableEq, Repr

/-- What the system record of MRAM holds for the harbourmaster (R423, R483): ENFORCE, the four keys, the node's MAC address, MUSTER_ETYPE,
MUSTER_PAIR and MUSTER_MODE. -/
structure NvSt where
  enforce : Bool := false
  keys    : List (List Nat) := []
  mac     : Option Nat := none
  etype   : Nat := 0x88B6
  pair    : Nat := 0
  mode    : Nat := 2
  deriving DecidableEq, Repr


/-! ## Lighthouse, link tests, JTAG (16) -/

/-- The lighthouse port's answer to the latest accepted request (R446). -/
structure LhResp where
  cmd    : Nat := 0
  status : Nat := 0
  seq    : Nat := 0
  data   : Nat := 0
  deriving DecidableEq, Repr

/-- The lighthouse beside its registers: sources of safe state not yet taken, its clock at the latest change of its source with the tick of that
change (R470), the latest restart of each watchdog by that clock, the counts as MRAM holds them (R435), a freeze held by the port, a request in
progress, the port's response, the bytes that the latest frame shifted out on LH_MISO, logbook events held through CHIP reset (R478), the watchdogs
that are on and held (R443). -/
structure LhSt where
  srcs   : List Nat := []
  clock  : LhTime := {}
  clockAt : Nat := 0
  wdogAt : Tbl Nat := []
  nvOps  : Nat := 0
  nvPcc  : Nat := 0
  freeze : Bool := false
  busy   : Bool := false
  resp   : LhResp := {}
  miso   : List Nat := []
  codes  : List (Nat × Nat) := []
  held   : List Nat := []
  deriving DecidableEq, Repr

/-- The instructions of the TAP (R453). -/
inductive TapInstr where
  | extest | idcode | samplePreload | extestPulse | extestTrain | clamp | highz | debug | bypass
  deriving DecidableEq, Repr

/-- The states of the TAP controller (IEEE 1149.1, PRESUMED, log 72). -/
inductive TapCtl where
  | reset | idle | selectDr | captureDr | shiftDr | exit1Dr | pauseDr | exit2Dr | updateDr
  | selectIr | captureIr | shiftIr | exit1Ir | pauseIr | exit2Ir | updateIr
  deriving DecidableEq, Repr

/-- A link test (R449, R451): whether it runs, the tick of the write that restarted its generator and checker, the tick up to which its bits are counted,
and the bits counted beyond a whole unit of 2^16. -/
structure LinkTest where
  on    : Bool := false
  began : Nat := 0
  upTo  : Nat := 0
  rest  : Nat := 0
  deriving DecidableEq, Repr

/-- The TAP: controller, instruction, the bits that its latest scan shifted out on TDO, boundary register, the ACCESS register's result, address and
data (R453 to R455); and the link tests that run (R449). -/
structure TapSt where
  ctl      : TapCtl := .reset
  ir       : TapInstr := .idcode
  out      : List Bool := []
  links    : Tbl LinkTest := []
  boundary : List Bool := []
  result   : Nat := 0
  addr     : Nat := 0
  data     : Nat := 0
  deriving DecidableEq, Repr


/-! ## Power, clocks and reset (17) -/

/-- Resets in progress: CHIP, CORE, CAUSEWAY; those requested, with their SOURCE. VIN not valid for the device (R461), VIN too low for the
lighthouse, RESETN low, a rail out of regulation, the reference clock lost, banks that are down, TSREF lost since TS_SRC was
last written (R467). -/
structure RstSt where
  chip   : Bool := false
  core   : Bool := false
  cw     : Bool := false
  req    : List (Scope × Nat) := []
  vinBad : Bool := false
  lhOff  : Bool := false
  pin    : Bool := false
  rail   : Bool := false
  clk    : Bool := false
  banks  : List Nat := []
  tsFell : Bool := false
  deriving DecidableEq, Repr

/-- The state of the block. -/
structure State where
  regs    : Tbl Word := []
  mem     : List Host.Cell := []
  latch   : Tbl Word := []
  held    : Tbl Word := []
  mm      : MemSt := {}
  access  : Option AccessRec := none
  free    : Nat := 0
  time    : TimeSt := {}
  log     : LogSt := {}
  tide    : TideSt := {}
  hb      : Tbl (List HeldOp) := []
  sw      : SwSt := {}
  port    : Tbl PortSt := []
  mdio    : List Nat := []
  qe      : Tbl QeSt := []
  fq      : Tbl FqSt := []
  txRR    : Tbl Nat := []
  dma     : Tbl DmaSt := []
  dreq    : List Nat := []
  can     : Tbl CanSt := []
  tt      : TtSt := {}
  tickAt  : Nat := 0
  tickBegan : Nat := 0
  ax      : Tbl AxSt := []
  grp     : Tbl GrpSt := []
  chop    : Tbl ChopSt := []
  enc     : Tbl EncSt := []
  adc     : Tbl AdcSt := []
  mio     : List Nat := []
  pilot   : Tbl PilotSt := []
  pset    : Tbl PsetSt := []
  cw      : CwSt := {}
  mb      : Tbl MbSt := []
  arrival : List Nat := []
  hm      : HmSt := {}
  nv      : NvSt := {}
  lh      : LhSt := {}
  tap     : TapSt := {}
  rst     : RstSt := {}
  pending : List Instr := []
  deriving DecidableEq, Repr

/-- A command never stops the block: every bus error, trap, halt and refusal of the spec is state. -/
inductive Fault
  deriving DecidableEq, Repr

/-- Why a command has no outcome. -/
inductive Refusal where
  /-- The command has no meaning in this model yet; raised by Dispatch.lean. Safe: nothing is claimed of it. -/
  | notModelled (mnemonic : String)
  deriving DecidableEq, Repr

/-- The machine right after reset: every register at its reset value (an unlisted register reads its reset value),
every memory with nothing listed, every other record at the value its chapter gives. -/
def State.reset : State := {}

end Sys2Proof.Machine
end

