-- ==== Sys2Proof/Machine/Ops.lean ====
section
/-! DEFINITION. The named operations over registers, counters, memory and poison that every chapter uses. -/
namespace Sys2Proof.Machine

/-! ## Registers -/

/-- The register block an address lies in (R17). -/
def blockOf (a : Nat) : Nat := (a - 0x40000000) / 0x10000

/-- Instance numbers of an offset under strides and counts, if it is one of theirs. -/
def matchDims : Nat → List (Nat × Nat) → Option (List Nat)
  | rem, [] => if rem = 0 then some [] else none
  | rem, (st, c) :: ds => if rem / st < c then (matchDims (rem % st) ds).map (fun l => rem / st :: l) else none

/-- The row that holds a block offset, with its instance numbers. -/
def findIn : List RegRow → Nat → Option (RegRow × List Nat)
  | [], _ => none
  | r :: t, off =>
    if off < r.off then findIn t off
    else match matchDims (off - r.off) r.dims with
      | some l => some (r, l)
      | none => findIn t off

/-- Summary register of every block (R20). -/
def summaryRow : RegRow := ⟨0xFFF0, [], [⟨⟨31, 31⟩, .w1c, 0⟩, ⟨⟨30, 0⟩, .ro, 0⟩]⟩
/-- Summary mask register of every block (R20). -/
def maskRow : RegRow := ⟨0xFFF4, [], [⟨⟨31, 0⟩, .rw, 0⟩]⟩

/-- The register at an internal address, with its instance numbers (R13: none for an unused offset). -/
def findReg (a : Nat) : Option (RegRow × List Nat) :=
  if a < 0x40000000 then none
  else if 24 ≤ blockOf a then none
  else if a % 0x10000 = 0xFFF0 then some (summaryRow, [])
  else if a % 0x10000 = 0xFFF4 then some (maskRow, [])
  else if a % 4 ≠ 0 then none
  else findIn (blockRows (blockOf a)) (a % 0x10000)

/-- SUMMARY register of block k (R20). -/
def SUMMARY (k : Nat) : Nat := 0x4000FFF0 + k * 0x10000
/-- SUMMARY_MASK register of block k (R20). -/
def SUMMARY_MASK (k : Nat) : Nat := 0x4000FFF4 + k * 0x10000
/-- SAT of a summary register. -/
def SUMMARY_SAT : Fld := ⟨31, 31⟩

/-- The reset word of a register row. -/
def RegRow.reset (r : RegRow) : Nat := r.flds.foldl (fun w f => putBits f.fld.hi f.fld.lo w f.rst) 0

/-- T[0] to T[1023] of the sine table (R331), ten bits each, T[0] lowest. -/
def sineReset : Nat := 
  0xFFFFFFFFFFFFFFFFFFFFFFFFFFFFFFFFFFFFFFFFFFFFFFFFFFFFBFEFFBFEFFBFEFFBFEFFBFEFFBFEFFBFEFFBFDFF7FDFF7FDFF7FDFF7FDFF7FDFF3FCFF3FCFF3FCFF3FCFEFFBFEFFBFEFFBFEFFAFEBFAFEBFAFEBFAFE7F9FE7F9FE7F9FE3F8FE3F8FE3F7FDFF7FDFF7FDBF6FDBF6FDBF5FD7F5FD7F4FD3F4FD3F4FCFF3FCFF3FCBF2FCBF2FC7F1FC7F1FC3F0FC3F0FBFEFFBFEEFBBEEFBBEDFB7EDFB3ECFB3EBFAFEBFAFEAFABEAFA7E9FA7E8FA3E8F9FE7F9FE6F9BE6F97E5F97E4F93E3F8FE3F8BE2F8BE1F87E1F83E0F7FDFF7FDEF7BDDF77DDF73DCF6FDBF6FDAF6BD9F67D8F63D8F5FD7F5BD6F57D5F57D4F53D3F4FD2F4BD1F47D0F43CFF3FCFF3BCEF37CDF33CCF2FCBF2BCAF27C9F23C8F1FC7F1BC6F17C5F13C3F0FC2F0BC1F07C0F03BFEFFBEEFBBDEF3BCEEFBBEEBBAEE7B8EE3B7EDFB6EDBB5ED3B4ECFB3ECBB1EC7B0EC3AFEBBAEEB7ADEB3ABEAFAAEA7A9EA3A8E9FA6E9BA5E93A4E8FA2E8BA1E83A0E7F9EE7B9DE739CE6F9AE6B99E6398E5F96E5B95E5394E4F92E4791E438FE3F8EE378CE338BE2B8AE2788E1F87E1B85E1384E0F82E0781E037FDFB7EDF77CDEF7ADEB79DE377DDF76DD774DCF73DCB71DC36FDBF6EDB76CDAF6BDAB69DA367D9F66D9764D8F62D8B61D835FD7B5DD735CD6F5AD6758D5F56D5B55D5353D4B51D4350D3F4ED374CD2F4AD2748D2347D1B45D1343D0B41D033FCFB3ECF73CCEF3ACE738CDF36CD734CCF32CC731CC32FCBB2DCB32BCAB29CA327C9B25C9323C8B21C831FC7B1DC731BC6B19C6317C5B15C5313C4B11C430FC3B0DC330BC2B09C2307C1B05C1303C0B01C02FFBFAFDBF2FBBEAF9BE2F7BD6F4BCEF2BC6F0BBEEEBB6ECBAEEABA6E8B9EE5B92E3B8AE1B82DFB7ADDB72DBB66D8B5ED6B56D4B4ED2B46CFB3ACDB32CBB2AC9B22C6B16C4B0EC2B06C0AFEBDAF2BBAEAB9AE2B7AD6B4ACEB2AC6B0ABAADAB2ABAAAA9A9EA6A96A4A8EA2A829FA7A9DA729AA6698A5E96A5293A4A91A428EA368CA2E8AA2287A1A85A1282A06809FE7D9F27B9EA789DE769D6749CA719C26F9B66C9AE6A9A26799A6598E629866097A5D9725A9665895E559525394A5093E4E9324B92A4991E469164390A419023E8F63C8EA398E2368D6348CA318C22F8B62C8AE298A2278962488E218821F8761C86E19862178561484E118420F8360C82E09822078160480A01801FE7F5FC7E9F97E1F67D5F37C9F17BDEE7B5EB7A9E879DE6791E3789E077DDD771DB765D8759D5751D2745CF739CD72DCA721C7719C470DC1701BF6F5BC6E9B96E1B66D5B36C9B06BDAE6B1AB6A5A8699A5691A26859F6799C66D9A66197655946499163D8E6358B6298861D85611826057F5F97D5ED7A5E1775D5745C9715BD6E5B56B5A96859D65591625855F5795C56D5956156555535495053D4E5314B525485194550D425013F4F53C4E9394DD364D1334C5304B92D4AD2A4A127495244892147D1E4711B465184591544D124410F4350C4290941D0541102404FF3F8FC3ECF93E0F63D4F33C8F03BCED3B0EA3A4E7394E4388E137CDE370DB364D8358D534CD2340CE334CB328C831CC5310C2304BF2F8BC2E8B92DCB62D0B32C4B02B8AD2ACA92A0A6294A3288A027C9D2709A26097254942489123C8E2308A224872188420C812007E1F07B1E4781D8751CC721C06E1B46B1A86819C6518C621805F1745C1685915C55150521444F1384C1284911C4611043104400F83C0EC390E0360D4330C4300B82D0AC2A0A026094230882007C1D06C1A06017054140481003C0D0300A024070140400801

/-- What a register reads as after reset. R331 gives the sine table's values by a formula, R24 says that SW_PORTn_PCP_MAP
and the rest take theirs from the field tables. -/
def resetWord (a : Nat) : Word :=
  if CHOP_SINE 0 ≤ a ∧ a < CHOP_SINE 1024 then w32 ((sineReset >>> (10 * ((a - CHOP_SINE 0) / 4))) % 1024)
  else match findReg a with
    | some (r, _) => w32 r.reset
    | none => 0

/-- The stored word of a register. -/
def State.reg (s : State) (a : Nat) : Word := tget resetWord s.regs a

/-- Store a register word. -/
def State.setReg (s : State) (a : Nat) (w : Word) : State := { s with regs := tput resetWord s.regs a w }

/-- A field of a register, as a number. -/
def State.fld (s : State) (a : Nat) (f : Fld) : Nat := f.get (s.reg a)

/-- A one-bit field. -/
def State.bit (s : State) (a : Nat) (f : Fld) : Bool := s.fld a f != 0

/-- Hardware sets a field to a value. -/
def State.putF (s : State) (a : Nat) (f : Fld) (v : Nat) : State := s.setReg a (f.put (s.reg a) v)

/-- Hardware sets a sticky or status bit. -/
def State.setB (s : State) (a : Nat) (f : Fld) : State := s.putF a f 1

/-- Hardware clears a bit. -/
def State.clrB (s : State) (a : Nat) (f : Fld) : State := s.putF a f 0

/-- Hardware sets a one-bit field to a truth value. -/
def State.putB (s : State) (a : Nat) (f : Fld) (b : Bool) : State := s.putF a f (b2n b)

/-- A sticky bit set on a condition. -/
def State.setIf (s : State) (c : Bool) (a : Nat) (f : Fld) : State := if c then s.setB a f else s

/-- Set SAT in the summary of the block that holds `a` (R20, R22). -/
def State.setSat (s : State) (a : Nat) : State := s.setB (SUMMARY (blockOf a)) SUMMARY_SAT

/-- Add `n` to a counter field; it saturates at all ones, and reaching that value sets SAT (R22). -/
def State.countN (s : State) (a : Nat) (f : Fld) (n : Nat) : State :=
  let top := 2 ^ (f.hi - f.lo + 1) - 1
  let v := s.fld a f
  if v = top then s
  else if v + n < top then s.putF a f (v + n)
  else (s.putF a f top).setSat a

/-- The whole register as one counter. -/
def wholeReg : Fld := ⟨31, 0⟩

/-- Count one event in a 32-bit counter (R22). -/
def State.count (s : State) (a : Nat) : State := s.countN a wholeReg 1

/-- Count one event if a condition holds. -/
def State.countIf (s : State) (c : Bool) (a : Nat) : State := if c then s.count a else s

/-- Discard of a register write: CFG_REJECT is set and the first address is latched until it is cleared (R24). -/
def State.cfgReject (s : State) (a : Nat) : State :=
  if s.bit SYS_STATUS SYS_STATUS_CFG_REJECT then s
  else (s.setB SYS_STATUS SYS_STATUS_CFG_REJECT).setReg SYS_REJECT_ADDR (w32 a)

/-- A 64-bit counter of two registers, low word first (R23): add `n`, saturating. -/
def State.count64 (s : State) (lo hi : Nat) (n : Nat) : State :=
  let top := 2 ^ 64 - 1
  let v := (s.reg lo).toNat + 2 ^ 32 * (s.reg hi).toNat
  let v' := min top (v + n)
  let s := (s.setReg lo (w32 v')).setReg hi (w32 (v' / 2 ^ 32))
  if v < top ∧ v' = top then s.setSat lo else s

/-- Bits of a word from truth values, bit 0 first. -/
def packBits : List Bool → Nat
  | [] => 0
  | b :: t => b2n b + 2 * packBits t

/-- Some instance below `n` satisfies `p`. -/
def anyN (n : Nat) (p : Nat → Bool) : Bool := (List.range n).any p

/-- Apply an update for every instance below `n`, in rising order. -/
def State.forN (s : State) (n : Nat) (f : State → Nat → State) : State := (List.range n).foldl f s

/-! ## Free values -/

/-- Take the index of the next free value. -/
def State.tickFree (s : State) : State := { s with free := s.free + 1 }

/-! ## Memory -/

/-- What an unlisted byte of memory reads as: RAM is zero after CHIP reset (R475); for boot ROM, MRAM and flash the
spec gives no contents (DESIGN CHOICE, log 3). -/
def memDefault (_ : Nat) : Byte := 0

/-- The canonical form of memory. -/
def Memory.wf (m : List Host.Cell) : Bool := twf memDefault m

/-- One byte of memory. -/
def State.rd8 (s : State) (a : Nat) : Nat := (tget memDefault s.mem a).toNat

/-- `n` bytes as a little-endian number (R7). -/
def State.rdN (s : State) (a : Nat) : Nat → Nat
  | 0 => 0
  | n + 1 => s.rd8 a + 256 * s.rdN (a + 1) n

/-- `n` bytes as a list. -/
def State.rdBytes (s : State) (a n : Nat) : List Nat := (List.range n).map (fun k => s.rd8 (a + k))

/-- Write one byte. -/
def State.wr8 (s : State) (a v : Nat) : State := { s with mem := tput memDefault s.mem a (BitVec.ofNat 8 v) }

/-- Write bytes from an address on. -/
def State.wrBytes (s : State) (a : Nat) : List Nat → State
  | [] => s
  | b :: t => (s.wr8 a b).wrBytes (a + 1) t

/-- Write the low `n` bytes of a number, little-endian (R7). -/
def State.wrN (s : State) (a n v : Nat) : State := s.wrBytes a (leBytes n v)

/-! ## Poison (R28, R29) -/

/-- The line of an address. -/
def lineOf (a : Nat) : Nat := a / 16

/-- Whether a line is poisoned. -/
def State.poisoned (s : State) (a : Nat) : Bool := s.mm.poison.contains (lineOf a)

/-- Whether any line of `n` bytes at `a` is poisoned. -/
def State.poisonedN (s : State) (a n : Nat) : Bool :=
  s.mm.poison.any (fun l => decide (lineOf a ≤ l ∧ l ≤ lineOf (a + n - 1)))

/-- Make a line poison. -/
def State.setPoison (s : State) (a : Nat) : State :=
  { s with mm := { s.mm with poison := ninsert (lineOf a) s.mm.poison, soft := nerase (lineOf a) s.mm.soft } }

/-- A write that covers whole lines clears their poison (R29), and leaves no correctable error there. -/
def State.clearLine (s : State) (l : Nat) : State :=
  { s with mm := { s.mm with poison := nerase l s.mm.poison, soft := nerase l s.mm.soft, wback := nerase l s.mm.wback } }

/-- The lines that `n` bytes at `a` cover whole. -/
def wholeLines (a n : Nat) : List Nat :=
  (List.range (n / 16 + 1)).map (fun k => (a + 15) / 16 + k) |>.filter (fun l => decide (16 * l + 16 ≤ a + n))

/-- A memory write under R29: the bytes land; whole lines lose their poison, others keep it. -/
def State.store (s : State) (a : Nat) (bs : List Nat) : State :=
  (wholeLines a bs.length).foldl State.clearLine (s.wrBytes a bs)

/-! ## MRAM (R462, R484) -/

/-- The address lies in MRAM. -/
def inMram (a : Nat) : Bool := decide (0x50000000 ≤ a) && decide (a < 0x50400000)

/-- Change the memory marks. -/
def State.modMm (s : State) (f : MemSt → MemSt) : State := { s with mm := f s.mm }

/-- The lines that hold `n` bytes at `a`. -/
def linesOf (a n : Nat) : List Nat := (List.range (lineOf (a + n - 1) + 1 - lineOf a)).map (fun k => lineOf a + k)

/-- MRAM reads a line (R484): one that needs it is corrected and written back, which no write is begun for while VIN is not valid (R462); one that is
poison is uncorrectable. The NVM block counts either unless CHIP reset holds it. -/
def State.mramCorrect (s : State) (l : Nat) : State :=
  if s.mm.soft.contains l then
    let s := if s.rst.chip then s else (s.count NVM_CORR_CNT).setB NVM_STATUS NVM_STATUS_CORR
    if s.rst.vinBad then s else s.modMm fun m => { m with soft := nerase l m.soft }
  else if s.mm.poison.contains l && !s.rst.chip then (s.count NVM_UNCORR_CNT).setB NVM_STATUS NVM_STATUS_UNCORR
  else s

/-- MRAM reads `n` bytes at `a`. -/
def State.mramRead (s : State) (a n : Nat) : State :=
  if (s.mm.soft.isEmpty && s.mm.poison.isEmpty) || n == 0 then s else (linesOf a n).foldl State.mramCorrect s

/-- MRAM writes bytes at `a`: a line written in part is read and merged (R484). While VIN is not valid no write is started (R462). -/
def State.mramStore (s : State) (a : Nat) (bs : List Nat) : State :=
  if s.rst.vinBad then s
  else
    let part := (linesOf a bs.length).filter (fun l => !(wholeLines a bs.length).contains l)
    ((if (s.mm.soft.isEmpty && s.mm.poison.isEmpty) || bs.isEmpty then s else part.foldl State.mramCorrect s).store a bs)

/-! ## The generators of the link tests (R449) -/

/-- How many bits a link sends in how many ticks of 4 ns: a port at its line rate (1.25, 3.125 or 0.125 GBd by its MODE, PRESUMED, log 60), a pin
link one every DIV + 1 clocks of its island. -/
def State.linkRate (s : State) (l : Nat) : Nat × Nat :=
  let div := s.fld (TEST_LINK_CTL l) TEST_LINK_CTL_DIV + 1
  if l < 6 then
    match s.fld (PORT_CTL l) PORT_CTL_MODE with
    | 0 => (0, 1)
    | 3 => (25, 2)
    | 4 => (1, 2)
    | _ => (5, 1)
  else if l < 12 then (8, 25 * div)
  else if l < 24 then (1, div)
  else (1, 2 * div)

/-- The bits that the generator of link l has sent by tick t since its restart. -/
def State.linkBits (s : State) (l t : Nat) : Nat :=
  let r := s.linkRate l
  (t - (tget (fun _ => {}) s.tap.links l).began) * r.1 / r.2

/-- The stages of PRBS7 to PRBS31: x^n + x^k + 1 (ITU-T O.150, PRESUMED, log 60). -/
def prbsTaps : Nat → Nat × Nat
  | 1 => (7, 6)
  | 2 => (9, 5)
  | 3 => (15, 14)
  | 4 => (23, 18)
  | _ => (31, 28)

/-- One clock of a pattern register of n stages. -/
def prbsStep (n k r : Nat) : Nat := (2 * r + b2n (bitOf (n - 1) r != bitOf (k - 1) r)) % 2 ^ n

/-- The register of a lane's pattern `i` bits after a restart; all zeros is no state of it. -/
def prbsAt (n k seed : Nat) : Nat → Nat
  | 0 => if seed % 2 ^ n = 0 then 1 else seed % 2 ^ n
  | i + 1 => prbsStep n k (prbsAt n k seed i)

/-- A link test takes link l from its function (R450). -/
def State.linkTest (s : State) (l : Nat) : Bool := s.bit (TEST_LINK_CTL l) TEST_LINK_CTL_GEN || s.bit (TEST_LINK_CTL l) TEST_LINK_CTL_CHK

/-- The generator of link l runs and sends a pattern, or a test mode of 1000BASE-T in its place (R449, R452). -/
def State.linkSends (s : State) (l : Nat) : Bool :=
  s.bit (TEST_LINK_CTL l) TEST_LINK_CTL_GEN
    && (s.fld (TEST_LINK_CTL l) TEST_LINK_CTL_PATTERN != 0 || s.fld (TEST_LINK_CTL l) TEST_LINK_CTL_T_MODE != 0)

/-- The bit that the generator of link l gives a lane (R449): pattern 6 is the USER word, pattern 0 leaves the level open. -/
def State.linkBit (s : State) (l lane : Nat) : Bool :=
  let i := s.linkBits l s.time.tick
  let p := s.fld (TEST_LINK_CTL l) TEST_LINK_CTL_PATTERN
  if p = 0 then Config.testPin s.time.tick l lane
  else
    let b := if p = 6 then bitOf (Config.userBit (i % 32) % 32) (s.reg (TEST_LINK_USER l)).toNat
      else bitOf ((prbsTaps p).1 - 1) (prbsAt (prbsTaps p).1 (prbsTaps p).2 (Config.prbsSeed l lane) i)
    b != s.bit (TEST_LINK_CTL l) TEST_LINK_CTL_INVERT

/-- What a lane of a link test sends: nothing, the bits of a pattern, a test mode of 1000BASE-T. -/
inductive LaneSignal where
  | quiet
  | bits (now : Bool)
  | testMode (k : Nat)
  deriving DecidableEq, Repr

/-- What the generator of link l sends on a lane outside the device: nothing with LOOP set or with CHK alone; a nonzero T_MODE of an integrated PHY is
taken in place of PATTERN (R449, R450, R452). -/
def State.laneSignal (s : State) (l lane : Nat) : LaneSignal :=
  if s.bit (TEST_LINK_CTL l) TEST_LINK_CTL_LOOP || !s.bit (TEST_LINK_CTL l) TEST_LINK_CTL_GEN then .quiet
  else if s.fld (TEST_LINK_CTL l) TEST_LINK_CTL_T_MODE ≠ 0 then .testMode (s.fld (TEST_LINK_CTL l) TEST_LINK_CTL_T_MODE)
  else .bits (s.linkBit l lane)

/-- What the generator of link l drives on a lane's ball. -/
def State.linkDrive (s : State) (l lane : Nat) : Option Bool :=
  match s.laneSignal l lane with
  | .bits b => some b
  | _ => none

/-! ## Balls under the TAP (R453, R454), and of banks that are down (R463) -/

/-- The I/O bank of a ball (R349, R500): MIO0 to MIO191, PIO0 to PIO63, then the dedicated balls as State.ball numbers them. -/
def ballBank (c : Nat) : Nat :=
  if c < 192 then 3 + c / 64
  else if c < 256 then 1 + (c - 192) / 32
  else if c = 256 then 7
  else if c = 257 then 0
  else if c < 300 then 6
  else if c < 400 then 0
  else 7

/-- The balls follow the boundary register: EXTEST, EXTEST_PULSE, EXTEST_TRAIN or CLAMP is selected. -/
def TapInstr.takesBalls : TapInstr → Bool
  | .extest | .extestPulse | .extestTrain | .clamp => true
  | _ => false

/-- What drives ball `c`, numbered as SOUND_SELi numbers the pins (MIO0 to MIO191, then PIO0 to PIO63; 256 LH_FAULTN, 257 HB_IRQN, 258
QST_IRQN, the other dedicated balls from 259 on), where the device's own function gives it `own`: nothing while its bank is down (R463), else the
boundary register while an instruction selects it, nothing under HIGHZ. -/
def State.ball (s : State) (c : Nat) (own : Option Bool) : Option Bool :=
  if s.rst.banks.contains (ballBank c) then none
  else if s.tap.ir.takesBalls then (if Config.boundaryDrives s.tap.boundary c then some (s.tap.boundary.getD (Config.boundaryCell c) false) else none)
  else if s.tap.ir = .highz then none
  else own

/-- An interrupt or fault ball is low: an open-drain output, which the device drives low while `on` and releases otherwise (R502). -/
def State.ballLow (s : State) (c : Nat) (on : Bool) : Bool := s.ball c (if on then some false else none) == some false

/-! ## Accesses that have not ended (R13, R396) -/

/-- The entry is the access of `who` at `a`, of an outbound window its write or its read. -/
def WaitAcc.isOf (x : WaitAcc) (who : Initiator) (a : Nat) (wr : Bool) : Bool :=
  x.who == who && x.addr == a && (decide (a < 0x80000000) || x.bytes.isSome == wr)

/-- What of an access goes on without its initiator: a request sent on the link, whose completion is still to come, and a write that DMA has
issued, which lands (R260, R381, R471). -/
def WaitAcc.strays (x : WaitAcc) : Bool :=
  x.result.isNone && decide (0x80000000 ≤ x.addr) && (x.sent || (x.bytes.isSome && (match x.who with | .dmaWrite _ => true | _ => false)))

/-- The initiators of the accesses that satisfy `p` no longer want them: what they bring is discarded. -/
def State.forget (s : State) (p : WaitAcc → Bool) : State :=
  if s.cw.waits.any p then
    { s with cw := { s.cw with waits := s.cw.waits.filter (fun x => !p x), strays := s.cw.strays ++ s.cw.waits.filter (fun x => p x && x.strays) } }
  else s

end Sys2Proof.Machine
end

