-- ==== Sys2Proof/Machine/Log.lean ====
section
/-! DEFINITION. The logbook recorder (R431 to R438): taking an event, the breakwater, staging, and the two MRAM copies
of a record. Every chapter that raises a logbook code uses `State.logEv`. -/
namespace Sys2Proof.Machine

/-- Copy A of record c in MRAM (R483). -/
def recAddrA (c : Nat) : Nat := 0x50005000 + c * 256
/-- Copy B of record c in MRAM (R483). -/
def recAddrB (c : Nat) : Nat := 0x50005080 + c * 256

/-- Words 0 to 25 of a record copy. -/
def State.recWords (s : State) (a : Nat) : List Nat := (List.range 26).map (fun i => s.rdN (a + 4 * i) 4)

/-- A record copy is good if its word 26 is the CRC-32 of its words 0 to 25 (R433); one that reads as poison is not. -/
def State.recGood (s : State) (a : Nat) : Bool := !s.poisonedN a 112 && s.rdN (a + 104) 4 == crc32 (s.rdBytes a 104)

/-- A record with both copies bad reads as zeros with the configuration words of copy A (R437). -/
def badRecord (w : List Nat) : List Nat := List.replicate 7 0 ++ slice w 7 3 ++ List.replicate 16 0

/-- What a reader of MRAM takes: copy A if good, else copy B if good, else the bad record (R437); and whether both
were bad. -/
def State.readRecord (s : State) (c : Nat) : List Nat × Bool :=
  if s.recGood (recAddrA c) then (s.recWords (recAddrA c), false)
  else if s.recGood (recAddrB c) then (s.recWords (recAddrB c), false)
  else (badRecord (s.recWords (recAddrA c)), true)

/-- MRAM is read for record c: copy A, and copy B where A is bad (R437, R484). -/
def State.recFetch (s : State) (c : Nat) : State :=
  let s := s.mramRead (recAddrA c) 112
  if s.recGood (recAddrA c) then s else s.mramRead (recAddrB c) 112

/-- The working copies (an empty list while the record has not been read from MRAM). -/
def State.work (s : State) (c : Nat) : List Nat := tget (fun _ => []) s.log.work c

/-- Store a working copy. -/
def State.setWork (s : State) (c : Nat) (w : List Nat) : State :=
  { s with log := { s.log with work := tput (fun _ => []) s.log.work c w } }

/-- Take the working copy from MRAM if it is not there yet (R437). -/
def State.loadRec (s : State) (c : Nat) : State :=
  if (s.work c).isEmpty then
    let s := s.recFetch c
    let (w, bad) := s.readRecord c
    let s := if bad then { s with log := { s.log with bad := ninsert c s.log.bad } } else s
    (s.setWork c w).setIf bad LOG_STATUS LOG_STATUS_RECORD_BAD
  else s

/-- Mark a record as changed (R437). -/
def State.markDirty (s : State) (c : Nat) : State :=
  { s with log := { s.log with dirty := ninsert c s.log.dirty, bad := nerase c s.log.bad } }

/-- Saturating count of a record word; reaching all ones sets SAT of LOGBOOK_SUMMARY (R433). -/
def State.recCount (s : State) (c i : Nat) : State :=
  let w := s.work c
  let v := w.getD i 0
  if v ≥ 0xFFFFFFFF then s
  else
    let s := s.setWork c (w.set i (v + 1))
    if v + 1 = 0xFFFFFFFF then s.setSat LOG_CTL else s

/-- Set one word of a working copy. -/
def State.recPut (s : State) (c i v : Nat) : State := s.setWork c ((s.work c).set i v)

/-- Length of a number in bits; 0 for 0. -/
def bitlength (n : Nat) : Nat := if n = 0 then 0 else Nat.log2 n + 1

/-- The histogram bin of a value (R434). -/
def histBin (w : List Nat) (v : Nat) : Nat :=
  let d := v - w.getD 7 0
  let shift := bitsOf 4 0 (w.getD 8 0)
  if bitOf 5 (w.getD 8 0) then min 15 (bitlength (d >>> shift)) else min 15 (d >>> shift)

/-- A recorded event (R434). -/
def State.recordEvent (s : State) (c v sec pcc : Nat) : State :=
  let first := (s.work c).getD 0 0 = 0
  let s := s.recCount c 0
  let s := if first then s.recPut c 1 sec else s
  let s := (s.recPut c 2 sec).recPut c 3 pcc
  let s := s.recPut c 4 (if first then v else min ((s.work c).getD 4 0) v)
  let s := s.recPut c 5 (max ((s.work c).getD 5 0) v)
  (s.recCount c (10 + histBin (s.work c) v)).markDirty c

/-- A suppressed event raises SUPPRESSED of its record (R436). -/
def State.suppressEvent (s : State) (c : Nat) : State := (s.recCount c 6).markDirty c

/-- Apply one event to the working copy. -/
def State.applyEvent (s : State) (e : Staged) : State :=
  if e.supp then s.suppressEvent e.code else s.recordEvent e.code e.value e.sec e.pcc

/-- Apply the staged events in order (R438). -/
def State.applyStaged (s : State) : State :=
  s.log.staged.foldl State.applyEvent { s with log := { s.log with staged := [] } }

/-- The lighthouse's clock (R470): its count runs within 3 % of the ticks on the RC oscillator, and with them on the crystal. -/
def State.lhNow (s : State) : LhTime :=
  let d := s.time.tick - s.lh.clockAt
  if s.bit LH_STATE LH_STATE_XTAL then ⟨s.lh.clock.lo + 100 * d, s.lh.clock.hi + 100 * d⟩ else ⟨s.lh.clock.lo + 97 * d, s.lh.clock.hi + 103 * d⟩

/-- A millisecond of the lighthouse's clock, in hundredths of a tick. -/
def lhMs : Nat := 25000000

/-- A window may have closed by now. -/
def State.bwMayEnd (s : State) (x : BwWin) : Bool := decide (x.opened.hi + x.span * lhMs ≤ s.lhNow.hi)
/-- A window has closed by now, however the lighthouse's clock runs. -/
def State.bwOver (s : State) (x : BwWin) : Bool := decide (x.opened.lo + x.span * lhMs ≤ s.lhNow.lo)

/-- The window of code c that is open. -/
def State.bwOpen (s : State) (c : Nat) : Option BwWin := (tget (fun _ => none) s.log.win c).filter (fun x => !s.bwOver x)

/-- The breakwater (R436): whether the event passes, and the window's state after it. -/
def State.breakwater (s : State) (c : Nat) : Bool × State :=
  let w := s.work c
  let setWin (x : Option BwWin) : State := { s with log := { s.log with win := tput (fun _ => none) s.log.win c x } }
  match s.bwOpen c with
  | some x => if x.count < x.limit then (true, setWin (some { x with count := x.count + 1 })) else (false, s)
  | none =>
    if w.getD 9 0 % 2 ^ 22 = 0 then (true, setWin none)
    else (true, setWin (some ⟨1, bitsOf 31 16 (w.getD 8 0), w.getD 9 0 % 2 ^ 22, s.lhNow⟩))

/-- The logbook is frozen while FREEZE is set or the lighthouse port holds a freeze (R438). -/
def State.logFrozen (s : State) : Bool := s.bit LOG_CTL LOG_CTL_FREEZE || s.lh.freeze

/-- An event of code `c` with value `v` arrives at the recorder (R431 to R438). -/
def State.logEv (s : State) (c v : Nat) : State :=
  let s := s.loadRec c
  let (pass, s) := s.breakwater c
  let s := s.setIf (!pass) LOG_STATUS LOG_STATUS_SUPPRESSED
  let e : Staged := ⟨c, v % 2 ^ 32, (s.reg LH_OPSEC).toNat, (s.reg LH_PCC).toNat, !pass⟩
  if s.logFrozen then
    if s.log.staged.length < 64 then { s with log := { s.log with staged := s.log.staged ++ [e] } }
    else (s.count LOG_LOST).setB LOG_STATUS LOG_STATUS_LOST
  else s.applyStaged.applyEvent e

/-- Write one changed record to MRAM, copy A in full and then copy B (R437); while VIN is not valid it stays to be written (R462). -/
def State.writeRecord (s : State) (c : Nat) : State :=
  let bs := (s.work c).flatMap (leBytes 4)
  let img := bs ++ leBytes 4 (crc32 bs) ++ [0, 0, 0, 0]
  if s.rst.vinBad then s
  else
  let s := (s.mramStore (recAddrA c) img).mramStore (recAddrB c) img
  { s with log := { s.log with dirty := nerase c s.log.dirty } }

/-- Write every changed record. -/
def State.writeDirty (s : State) : State := s.log.dirty.foldl State.writeRecord s

end Sys2Proof.Machine
end

