-- ==== Sys2Proof/Machine/Ecc.lean ====
section
/-! DEFINITION. Symbol-coded memories and MRAM: corrections, write-back, poison (R27, R28, R432, R448, R484). -/
namespace Sys2Proof.Machine

/-- Memory ID and 128-bit word index of a line of a symbol-coded memory (R432). -/
def memIdOf (l : Nat) : Option (Nat × Nat) :=
  let a := 16 * l
  let at' (base size id : Nat) : Option (Nat × Nat) := if base ≤ a ∧ a < base + size then some (id, (a - base) / 16) else none
  let q := (a - 0x20000000) / 0x20000
  let o := (a - 0x20000000) % 0x20000
  if 0x20000000 ≤ a ∧ q < 24 then
    (if o < 0x8000 then some (0x10 + q, o / 16) else if 0x10000 ≤ o then some (0x30 + q, (o - 0x10000) / 16) else none)
  else (at' 0 0x10000 0).or <| (at' 0x08000000 0x20000 1).or <| (at' 0x08100000 0x40000 2).or <| (at' 0x10000000 0x100000 3).or <|
    (at' 0x30000000 0x200000 4).or <| (at' 0x39000000 0x40000 5).or <| (at' 0x3A000000 0x20000 6).or <|
    (at' 0x3A020000 0x20000 7).or (at' 0x3C000000 0x4000 8)

/-- The associated value of codes 0x10 and 0x11. -/
def memValue (p : Nat × Nat) : Nat := p.1 * 2 ^ 24 + p.2 % 2 ^ 24

/-- A line of a symbol-coded memory is corrected on a read (R27): code 0x10, and the word waits for its write-back; the boot ROM is never written
back. -/
def State.eccCorrect (s : State) (l : Nat) : State :=
  match memIdOf l with
    | some p =>
      let s := if p.1 = 0 then s else s.modMm fun m => { m with wback := ninsert l m.wback }
      s.logEv 0x10 (memValue p)
    | none => s

/-- A line is uncorrectable: it becomes poison, which a symbol-coded memory reports at once, and MRAM at each read of it (R28, R484). -/
def State.eccPoison (s : State) (l : Nat) : State :=
  let s := s.setPoison (16 * l)
  match memIdOf l with
    | some p => s.logEv 0x11 (memValue p)
    | none => s

/-- A read of `n` bytes at `a`: correctable errors in its lines are corrected; MRAM counts for itself and writes back at once. -/
def State.eccRead (s : State) (a n : Nat) : State :=
  if (s.mm.soft.isEmpty && s.mm.poison.isEmpty) || n == 0 then s
  else (linesOf a n).foldl (fun s l => if inMram (16 * l) then s.mramCorrect l else if s.mm.soft.contains l then s.eccCorrect l else s) s

/-- A disturbance of a line that comes from outside: one that can be corrected, or one that cannot. A poisoned line stays so. -/
def State.upset (s : State) (l : Nat) (hard : Bool) : State :=
  if s.mm.poison.contains l then s
  else if hard then s.eccPoison l
  else s.modMm fun m => { m with soft := ninsert l m.soft }

/-- A corrected word is written back at a cycle in which its memory is free (R27). -/
def correctionWriteBack (l : Nat) (s : State) : State :=
  if s.mm.wback.contains l then s.modMm fun m => { m with wback := nerase l m.wback, soft := nerase l m.soft } else s

/-- One pass of the dredger (R448): `soft` and `hard` are lines found disturbed in it. Every correctable line of a symbol-coded memory is
corrected and written back, but for the ROM; poisoned words are counted. -/
def dredgerPass (soft hard : List Nat) (s : State) : State :=
  let coded (l : Nat) : Bool := (memIdOf l).isSome
  let s := (hard.filter coded).foldl (fun s l => s.upset l true) s
  let s := (soft.filter coded).foldl (fun s l => s.upset l false) s
  let s := (s.mm.soft.filter coded).foldl (fun s l => correctionWriteBack l ((s.eccCorrect l).count TEST_DREDGE_CORR)) s
  (s.setReg TEST_DREDGE_POISON (w32 (s.mm.poison.filter coded).length)).count TEST_DREDGE_PASSES

/-- A pass has not finished within PASS_MS (R448). -/
def dredgeLate (s : State) : State :=
  (s.setB TEST_STATUS TEST_STATUS_DREDGE_LATE).logEv 0x12 (s.fld TEST_DREDGE TEST_DREDGE_PASS_MS)

end Sys2Proof.Machine
end

