-- ==== Sys2Proof/Machine/Time.lean ====
section
/-! DEFINITION. The time base (02): time of day, commands, the state watchdog, triggers and captures, the TIME block's
reserved encodings and write effects, and the meanings of its commands that need no other block. The application of a
STEP or SET, which moves the tide engine too, stands in TimeStep.lean. -/
namespace Sys2Proof.Machine

/-! ## The time of day (R31) -/

/-- One second in units of 2^-32 ns. -/
def secUnits : Nat := 1000000000 * 2 ^ 32
/-- The time of day wraps at 2^48 s. -/
def todMod : Nat := 2 ^ 48 * secUnits

/-- SEC of an instant of the time line; it wraps (R31). -/
def todSec (t : Nat) : Nat := t / secUnits % 2 ^ 48
/-- NS of a time of day. -/
def todNs (t : Nat) : Nat := t % secUnits / 2 ^ 32
/-- FRAC of a time of day, units of 2^-16 ns. -/
def todFrac (t : Nat) : Nat := t % 2 ^ 32 / 2 ^ 16
/-- The instant of seconds and nanoseconds. -/
def instant (sec ns : Nat) : Nat := (sec * 1000000000 + ns) * 2 ^ 32

/-- Change the time record. -/
def State.modTime (s : State) (f : TimeSt → TimeSt) : State := { s with time := f s.time }

/-- Safe state is in force (R441). -/
def State.safe (s : State) : Bool := s.bit LH_STATE LH_STATE_SAFE

/-- The instant of the time line that lies `d` from `t`; below the line's start, where State.liftTime has made room, it would be one turn up
(R31). -/
def todAdd (t : Nat) (d : Int) : Nat := if (t : Int) + d < 0 then ((t : Int) + d + todMod).toNat else ((t : Int) + d).toNat

/-- A full instant from SEC[31:0] and NS, with SEC[47:32] taken from the current time (R52, R63). -/
def State.instantNow (s : State) (secLo ns : Nat) : Nat :=
  s.time.tod / todMod * todMod + instant (todSec s.time.tod / 2 ^ 32 * 2 ^ 32 + secLo) ns

/-! ## The state watchdog (R40) -/

/-- Restart the state watchdog at the tick `ahead` of now: it runs in SYNC only, over TIME_WDOG microseconds of 250 ticks. -/
def State.restartWdogAt (s : State) (ahead : Nat) : State :=
  let iv := s.fld TIME_WDOG TIME_WDOG_INTERVAL
  let run := s.fld TIME_CTL TIME_CTL_STATE == 1 && iv != 0
  s.modTime fun t => { t with wdogEnd := if run then some (t.tick + ahead + 250 * iv) else none }

/-- Restart the state watchdog now. -/
def State.restartWdog (s : State) : State := s.restartWdogAt 0

/-! ## Triggers (R51 to R53) -/

/-- Trigger unit n. -/
def State.trigOf (s : State) (n : Nat) : TrigSt := tget (fun _ => {}) s.time.trig n
/-- Store trigger unit n. -/
def State.setTrig (s : State) (n : Nat) (x : TrigSt) : State :=
  s.modTime fun t => { t with trig := tput (fun _ => {}) t.trig n x }

/-- A rise: a pulse of WIDTH starts or restarts (R51); in safe state it produces nothing (R53). -/
def State.trigPulse (s : State) (n : Nat) : State :=
  if s.safe then s
  else s.setTrig n { s.trigOf n with active := true, endTick := some (s.time.tick + s.fld (TTRIG_WIDTH n) TTRIG_WIDTH_WIDTH) }

/-- Drive active (R51); not applied in safe state (R53). -/
def State.trigDrive (s : State) (n : Nat) : State :=
  if s.safe then s else s.setTrig n { s.trigOf n with active := true, endTick := none }

/-- Drive inactive (R51, R53). -/
def State.trigRelease (s : State) (n : Nat) : State := s.setTrig n { s.trigOf n with active := false, endTick := none }

/-- The level a trigger drives (R51, R53). -/
def State.trigLevel (s : State) (n : Nat) : Bool :=
  if s.safe then s.bit (TTRIG_CTL n) TTRIG_CTL_SAFE_LEVEL
  else ((s.trigOf n).active && s.fld (TTRIG_CTL n) TTRIG_CTL_MODE != 0) != s.bit (TTRIG_CTL n) TTRIG_CTL_POLARITY

/-- Safe state cuts a pulse in progress short; a held active state remains (R53). -/
def State.trigSafe (s : State) (n : Nat) : State := if (s.trigOf n).endTick.isSome then s.trigRelease n else s

/-- START of a trigger as an instant (R52). -/
def State.trigStart (s : State) (n : Nat) : Nat :=
  s.instantNow (s.reg (TTRIG_START_SEC n)).toNat (s.fld (TTRIG_START_NS n) TTRIG_START_NS_NS)

/-- PERIOD of a trigger in units of 2^-32 ns. -/
def State.trigPeriod (s : State) (n : Nat) : Nat := (s.reg (TTRIG_PERIOD n)).toNat * 2 ^ 32

/-- The first instant base + k × period, k any integer, at or after `t` (R51). -/
def firstFrom (base period t : Nat) : Nat := t + (((base : Int) - t) % (period : Int)).toNat

/-- The first rise of a trigger that enters PERIODIC: with START already past, the first START + k × PERIOD at or after the next tick (R52); with
START ahead, the first one after now, since k is any integer (R51). -/
def State.firstRise (s : State) (n : Nat) : Nat :=
  firstFrom (s.trigStart n) (s.trigPeriod n) (if s.trigStart n ≤ s.time.tod then s.time.tod + s.time.inc else s.time.tod + 1)

/-- MODE changes: PERIODIC takes its first rise (R52). What becomes of a pulse or a held active state in progress the spec does not say: the model ends
it at once (DESIGN CHOICE, log 100). -/
def State.trigModeChange (s : State) (n : Nat) : State :=
  let s := s.trigRelease n
  if s.fld (TTRIG_CTL n) TTRIG_CTL_MODE = 2 then s.setTrig n { s.trigOf n with next := s.firstRise n } else s

/-- A forward step skips (old, new]: PERIODIC rises in it come late, as one rise, and set SKIP (R42). -/
def State.trigStepLate (s : State) (old new : Nat) (n : Nat) : State :=
  let x := s.trigOf n
  let f := firstFrom x.next (s.trigPeriod n) (max x.next (old + 1))
  if s.fld (TTRIG_CTL n) TTRIG_CTL_MODE = 2 ∧ f ≤ new then
    let s := s.setTrig n { x with next := firstFrom f (s.trigPeriod n) (new + 1) }
    if s.safe then s else (s.trigPulse n).setB (TTRIG_CTL n) TTRIG_CTL_SKIP
  else s

/-! ## Captures and egress timestamps -/

/-- Capture FIFO n (R55). -/
def State.tcapOf (s : State) (n : Nat) : List TcapEntry := tget (fun _ => []) s.time.tcap n
/-- Store capture FIFO n. -/
def State.setTcap (s : State) (n : Nat) (l : List TcapEntry) : State :=
  s.modTime fun t => { t with tcap := tput (fun _ => []) t.tcap n l }
/-- Egress timestamp FIFO n (R46). -/
def State.txtsOf (s : State) (n : Nat) : List TxtsEntry := tget (fun _ => []) s.time.txts n
/-- Store egress timestamp FIFO n. -/
def State.setTxts (s : State) (n : Nat) (l : List TxtsEntry) : State :=
  s.modTime fun t => { t with txts := tput (fun _ => []) t.txts n l }

/-- Place an egress timestamp (R46). -/
def State.pushTxts (s : State) (n : Nat) (e : TxtsEntry) : State :=
  if (s.txtsOf n).length < 16 then
    (s.setTxts n (s.txtsOf n ++ [e])).setB (TIME_PTP_STATUS n) TIME_PTP_STATUS_TXTS_READY
  else (s.setB (TIME_PTP_STATUS n) TIME_PTP_STATUS_TXTS_OVERFLOW).count (TIME_PTP_TXTS_LOST n)

/-- A captured edge enters the FIFO or is dropped (R55). -/
def State.pushTcap (s : State) (n : Nat) (rising : Bool) : State :=
  if (s.tcapOf n).length < 8 then
    (s.setTcap n (s.tcapOf n ++ [⟨rising, todNs s.time.tod, todSec s.time.tod % 2 ^ 32⟩])).setB (TCAP_STATUS n) TCAP_STATUS_CAPTURED
  else (s.setB (TCAP_STATUS n) TCAP_STATUS_OVERFLOW).count (TCAP_LOST n)

/-- An edge that EDGE and MODE select (R54). -/
def State.tcapSelected (s : State) (n : Nat) (rising : Bool) : Bool :=
  bitOf (if rising then 0 else 1) (s.fld (TCAP_CTL n) TCAP_CTL_EDGE)
    && (s.fld (TCAP_CTL n) TCAP_CTL_MODE == 0 || s.bit (TCAP_STATUS n) TCAP_STATUS_WINDOW_OPEN)

/-! ## The TIME block's registers -/

/-- A time command is pending (R34). -/
def State.timePending (s : State) : Bool :=
  s.bit TIME_CMD TIME_CMD_STEP || s.bit TIME_CMD TIME_CMD_SET || s.bit TIME_CMD TIME_CMD_INC

/-- TIME_INC as one 40-bit number (R32). -/
def State.timeInc (s : State) : Nat := s.fld TIME_INC_HI TIME_INC_HI_INT * 2 ^ 32 + (s.reg TIME_INC_LO).toNat

/-- Writes of the TIME block that are discarded whole (R24, R34, R37, R38, R52, R57 to R60). `a0` is the register at
instance 0, `i` the instance. -/
def timeBad (s : State) (a0 i : Nat) (w : Word) : Bool :=
  if a0 = TIME_CTL then TIME_CTL_STATE.get w == 3
  else if a0 = TIME_CMD then
    let st := TIME_CMD_STEP.get w != 0
    let se := TIME_CMD_SET.get w != 0
    let ic := TIME_CMD_INC.get w != 0
    (st && se) || (TIME_CMD_FORCE_JUMP.get w != 0 && TIME_CMD_DISARM.get w != 0)
      || (ic && (decide (s.timeInc < 0x0380000000) || decide (0x0480000000 < s.timeInc)))
      || (s.timePending && (st || se || ic))
  else if a0 = TIME_INC_LO ∨ a0 = TIME_INC_HI ∨ a0 = TIME_STEP_LO ∨ a0 = TIME_STEP_HI ∨ a0 = TIME_SET_FRAC
      ∨ a0 = TIME_SET_SEC_LO ∨ a0 = TIME_SET_SEC_HI then s.timePending
  else if a0 = TIME_SET_NS then s.timePending || decide (999999999 < TIME_SET_NS_NS.get w)
  else if a0 = TIME_JUMP_LIMIT then
    decide (TIME_JUMP_LIMIT_LIMIT.get w = 0) || decide (1000000000 < TIME_JUMP_LIMIT_LIMIT.get w)
  else if a0 = TIME_PTP_CTL 0 then TIME_PTP_CTL_TC_MODE.get w == 3
  else if a0 = TTRIG_WIDTH 0 then TTRIG_WIDTH_WIDTH.get w == 0
  else if a0 = TTRIG_CTL 0 then
    let wd := s.fld (TTRIG_WIDTH i) TTRIG_WIDTH_WIDTH
    let pd := (s.reg (TTRIG_PERIOD i)).toNat
    (TTRIG_CTL_MODE.get w != 0 && wd == 0)
      || (TTRIG_CTL_MODE.get w == 2 && (decide (pd < 8) || decide (pd ≤ wd * 4)
            || decide (999999999 < s.fld (TTRIG_START_NS i) TTRIG_START_NS_NS)))
  else if a0 = TCAP_CTL 0 then decide (2 ≤ TCAP_CTL_MODE.get w)
  else false

/-- The trigger's START, PERIOD and WIDTH are locked while MODE is not OFF (R52). -/
def timeLocked (s : State) (i : Nat) : Bool := s.fld (TTRIG_CTL i) TTRIG_CTL_MODE != 0

/-- The state watchdog has run out (R40). -/
def State.stateWdogDue (s : State) : Bool := match s.time.wdogEnd with
  | some e => decide (e ≤ s.time.tick)
  | none => false

/-- What an expiry of the state watchdog leaves beside STATE (R40). -/
def State.holdover (s : State) : State := (s.setB TIME_STATUS TIME_STATUS_HOLDOVER_ENTERED).logEv 0x22 0

/-- What a write of the TIME block does beside setting its fields. A write of STATE = SYNC in the tick of an expiry comes after the expiry (R40). One
write that sets MODE = SOFT and PULSE = 1 together pulses: the spec does not say which MODE decides, the model takes the written one (DESIGN
CHOICE, log 100). -/
def timeHook (a0 i : Nat) (old w : Word) (s : State) : State :=
  if a0 = TIME_CTL then (if TIME_CTL_STATE.get old = 1 ∧ TIME_CTL_STATE.get w = 1 ∧ s.stateWdogDue then s.holdover else s).restartWdog
  else if a0 = TIME_WDOG then s.restartWdog
  else if a0 = TIME_CMD then
    let s := if TIME_CMD_KICK.get w != 0 then s.modTime fun t => { t with kick := t.kick + 1 } else s
    if TIME_CMD_DISARM.get w != 0 then s.clrB TIME_CMD TIME_CMD_FORCE_JUMP else s
  else if a0 = TTRIG_CTL 0 then
    let s := if TTRIG_CTL_MODE.get w ≠ TTRIG_CTL_MODE.get old then s.trigModeChange i else s
    if TTRIG_CTL_PULSE.get w ≠ 0 ∧ TTRIG_CTL_MODE.get w = 3 then s.trigPulse i else s
  else s

/-- Registers of the TIME block that read the live state. -/
def timeView (s : State) (a0 i : Nat) : Option Word :=
  if a0 = TIME_NOW_FRAC then some (w32 (todFrac s.time.tod))
  else if a0 = TIME_PTP_TXTS_KEY 0 then
    some (match s.txtsOf i with
      | [] => 0
      | e :: _ => w32 (2 ^ 31 + e.msgType % 16 * 2 ^ 24 + e.domain % 256 * 2 ^ 16 + e.seqId % 65536))
  else if a0 = TIME_PTP_STATUS 0 then some (TIME_PTP_STATUS_TXTS_LEVEL.put (s.reg (TIME_PTP_STATUS i)) (s.txtsOf i).length)
  else if a0 = TCAP_TS_NS 0 then
    some (match s.tcapOf i with
      | [] => 0
      | e :: _ => w32 (2 ^ 31 + b2n e.rising * 2 ^ 30 + e.ns))
  else if a0 = TCAP_STATUS 0 then some (TCAP_STATUS_LEVEL.put (s.reg (TCAP_STATUS i)) (s.tcapOf i).length)
  else none

/-- What a read of TIME_NOW_FRAC latches (R33). -/
def State.latchNow (s : State) : State :=
  let t := s.time.tod
  ((s.setReg TIME_NOW_NS (w32 (todNs t))).setReg TIME_NOW_SEC_LO (w32 (todSec t))).setReg TIME_NOW_SEC_HI (w32 (todSec t / 2 ^ 32))

/-- A read of TIME_PTPn_TXTS_KEY pops the head and latches its NS and SEC (R46). -/
def State.popTxts (s : State) (n : Nat) : State :=
  match s.txtsOf n with
  | [] => s
  | e :: t => ((s.setTxts n t).setReg (TIME_PTP_TXTS_NS n) (w32 (e.ns * 4 + e.quarter))).setReg (TIME_PTP_TXTS_SEC n) (w32 e.sec)

/-- A read of TCAPn_TS_NS pops the head and latches its SEC (R55). -/
def State.popTcap (s : State) (n : Nat) : State :=
  match s.tcapOf n with
  | [] => s
  | e :: t => (s.setTcap n t).setReg (TCAP_TS_SEC n) (w32 e.sec)

/-- What a read of the TIME block changes. -/
def timeRead (a0 i : Nat) (s : State) : State :=
  if a0 = TIME_NOW_FRAC then s.latchNow
  else if a0 = TIME_PTP_TXTS_KEY 0 then s.popTxts i
  else if a0 = TCAP_TS_NS 0 then s.popTcap i
  else s

/-- SRC bits of TIME_SUMMARY (R61). -/
def timeSrc (s : State) : Nat := packBits [
  s.bit TIME_STATUS TIME_STATUS_JUMP_REFUSED, s.bit TIME_STATUS TIME_STATUS_HOLDOVER_ENTERED,
  anyN 16 fun n => s.bit (TTRIG_CTL n) TTRIG_CTL_SKIP, anyN 16 fun n => s.bit (TCAP_STATUS n) TCAP_STATUS_CAPTURED,
  anyN 16 fun n => s.bit (TCAP_STATUS n) TCAP_STATUS_OVERFLOW, anyN 6 fun n => s.bit (TIME_PTP_STATUS n) TIME_PTP_STATUS_TXTS_READY,
  anyN 6 fun n => s.bit (TIME_PTP_STATUS n) TIME_PTP_STATUS_TXTS_OVERFLOW, anyN 6 fun n => s.bit (TIME_PTP_STATUS n) TIME_PTP_STATUS_CORR_SAT]

/-! ## What the time events do -/

/-- One TSCLK tick: the time advances by the increment in force (R32). -/
def timeAdvance (s : State) : State :=
  s.modTime fun t => { t with tod := t.tod + t.inc, tick := t.tick + 1 }

/-- The tick of application of the oldest KICK that waits (R34, R40). -/
def kickApply (s : State) : State :=
  if 0 < s.time.kick then (s.modTime fun t => { t with kick := t.kick - 1 }).restartWdog else s

/-- Expiry of the state watchdog in SYNC (R40). -/
def stateWatchdogExpiry (s : State) : State :=
  if s.stateWdogDue ∧ s.fld TIME_CTL TIME_CTL_STATE = 1 then ((s.modTime fun t => { t with wdogEnd := none }).putF TIME_CTL TIME_CTL_STATE 2).holdover
  else s

/-- A PERIODIC rise whose instant the time has reached (R51, R52). -/
def periodicRise (n : Nat) (s : State) : State :=
  let x := s.trigOf n
  if s.fld (TTRIG_CTL n) TTRIG_CTL_MODE = 2 ∧ x.next ≤ s.time.tod then
    (s.setTrig n { x with next := x.next + s.trigPeriod n }).trigPulse n
  else s

/-- A pulse ends WIDTH ticks after its latest rise (R52). -/
def pulseEnd (n : Nat) (s : State) : State :=
  match (s.trigOf n).endTick with
  | some e => if e ≤ s.time.tick then s.trigRelease n else s
  | none => s

/-- An edge at a capture input (R54, R55). -/
def captureEdge (n : Nat) (rising : Bool) (s : State) : State :=
  if s.tcapSelected n rising then s.pushTcap n rising else s

end Sys2Proof.Machine
end

