-- ==== Sys2Proof/Machine/Ferry.lean ====
section
/-! DEFINITION. Ferry queues (09, R238 to R246): pool, pushes and pops, flushing, the FERRY block's registers. -/
namespace Sys2Proof.Machine

/-- Queue n. -/
def State.fqOf (s : State) (n : Nat) : FqSt := tget (fun _ => {}) s.fq n
/-- Store queue n. -/
def State.setFq (s : State) (n : Nat) (q : FqSt) : State := { s with fq := tput (fun _ => {}) s.fq n q }

/-- The words of a queue that occupy cells: all but terminators (R246). -/
def FqSt.real (q : FqSt) : List FqWord := q.words.filter (fun w => !w.trunc)
/-- The packet counter (R241). -/
def FqSt.packets (q : FqSt) : Nat := (q.words.filter (fun w => w.last)).length
/-- Cells that `k` further words need in total (R240). -/
def FqSt.cellsWith (q : FqSt) (k : Nat) : Nat :=
  if q.real.length + k = 0 then 0 else (q.headOff + q.real.length + k + 15) / 16

/-- Cells held by all queues. -/
def State.cellsUsed (s : State) : Nat := s.fq.foldl (fun a p => a + p.2.cells.length) 0
/-- Free cells of the pool (R238). -/
def State.poolFree (s : State) : Nat := 4096 - s.cellsUsed
/-- Whether a cell is held by some queue. -/
def State.cellTaken (s : State) (c : Nat) : Bool := s.fq.any (fun p => p.2.cells.contains c)
/-- The free cells, in rising order. -/
def State.freeCells (s : State) : List Nat := (List.range 4096).filter (fun c => !s.cellTaken c)

/-- Room for `k` words at once (R240, R244). -/
def State.fqRoomN (s : State) (n k : Nat) : Bool :=
  let q := s.fqOf n
  let more := q.cellsWith k - q.cells.length
  q.en && (more == 0 || (decide (q.cellsWith k ≤ q.limit) && decide (more ≤ s.poolFree)))

/-- The ROOM condition for one word (R183, R240). -/
def State.fqRoom (s : State) (n : Nat) : Bool := s.fqRoomN n 1

/-- Push one word into a queue that has room for it. Which free cell is taken is left open by the spec: a free value
(log 2). While a producer's packet is discarded after a flush its words are dropped up to its END word (R245). -/
def State.fqPush (s : State) (n : Nat) (w : FqWord) : State :=
  let q := s.fqOf n
  if q.discard then s.setFq n { q with discard := !w.last }
  else
    let q' := { q with words := q.words ++ [w], openTail := !w.last }
    if w.trunc ∨ q.cellsWith 1 ≤ q.cells.length then s.setFq n q'
    else
      let c := s.freeCells.getD (Config.freeNat s.free % s.poolFree) 0
      (s.setFq n { q' with cells := q.cells ++ [c] }).tickFree

/-- Push the words of a packet. -/
def State.fqPushAll (s : State) (n : Nat) (ws : List FqWord) : State := ws.foldl (fun s w => s.fqPush n w) s

/-- Add to a queue's drop counter, saturating (R22, R244). -/
def State.fqDrop (s : State) (n : Nat) : State :=
  let q := s.fqOf n
  let s := if q.drops ≥ 0xFFFFFFFF then s else s.setFq n { q with drops := q.drops + 1 }
  let s := if q.drops + 1 = 0xFFFFFFFF then s.setSat FERRY_STATUS else s
  s.setB FERRY_STATUS FERRY_STATUS_TAIL_DROP

/-- A producer of whole packets: pushed if there is room for all words, dropped whole otherwise (R244). -/
def State.fqOffer (s : State) (n : Nat) (ws : List FqWord) : State :=
  if s.fqRoomN n ws.length then s.fqPushAll n ws else s.fqDrop n

/-- Bytes packed into words, four to a word, the last one tagged END with its VB (R238). -/
def packWords : List Nat → List FqWord
  | [] => []
  | [a] => [⟨a, true, false, 1, false, false⟩]
  | [a, b] => [⟨ofLe [a, b], true, false, 2, false, false⟩]
  | [a, b, c] => [⟨ofLe [a, b, c], true, false, 3, false, false⟩]
  | [a, b, c, d] => [⟨ofLe [a, b, c, d], true, false, 0, false, false⟩]
  | a :: b :: c :: d :: t => ⟨ofLe [a, b, c, d], false, false, 0, false, false⟩ :: packWords t

/-- Bytes that a word carries (R238); a terminator carries none (R246). -/
def FqWord.bytes (w : FqWord) : List Nat :=
  if w.trunc then [] else leBytes (if w.last ∧ w.vb ≠ 0 then w.vb else 4) w.data

/-- The word at the head as it leaves: a parity failure delivers it with POISON set (R239). -/
def State.fqHead (s : State) (n : Nat) : Option FqWord :=
  (s.fqOf n).words.head?.map (fun w => { w with poison := w.poison || w.bad })

/-- The contents that a word of the pool keeps once no queue holds it, by the word's number in the pool (R15). -/
def State.fqLeave (s : State) (k data : Nat) : State := s.modMm fun m => { m with fqLeft := (k, data) :: m.fqLeft.filter (fun p => p.1 != k) }

/-- Number in the pool of the k-th word that a queue holds. -/
def FqSt.poolWord (q : FqSt) (k : Nat) : Nat := 16 * q.cells.getD ((q.headOff + k) / 16) 0 + (q.headOff + k) % 16

/-- Remove the head word; its cell returns to the pool with its last word (R240), and a parity failure is counted (R239). -/
def State.fqPop (s : State) (n : Nat) : State :=
  let q := s.fqOf n
  match q.words with
  | [] => s
  | w :: t =>
    let s := if w.bad then (s.count FERRY_PARITY_CNT).setB FERRY_STATUS FERRY_STATUS_PARITY else s
    let s := if w.trunc then s else s.fqLeave (q.poolWord 0) w.data
    let q := { q with words := t, openHead := !w.last }
    if w.trunc then s.setFq n q
    else if q.real.isEmpty then s.setFq n { q with cells := [], headOff := 0 }
    else if q.headOff + 1 = 16 then s.setFq n { q with cells := q.cells.drop 1, headOff := 0 }
    else s.setFq n { q with headOff := q.headOff + 1 }

/-- A flush of queue n meets a receive stream that has taken some bytes of the head word: the word is gone, and a packet of which no word had
been popped, which gets no terminator, ends there with ENDED and TRUNC (R216, R245). -/
def State.rxCut (s : State) (n : Nat) (popped : Bool) : State := s.forN 24 fun s e =>
  let q := tget (fun _ => {}) s.qe e
  let q' := if popped then { q with rxPos := 0 } else { q with rxPos := 0, ended := true, trunc := true, rxOpen := false }
  if q.rxPos ≠ 0 ∧ s.fld (QE_CFG e) QE_CFG_RXQ = n then { s with qe := tput (fun _ => {}) s.qe e q' } else s

/-- Flush a queue (R245, R246). -/
def State.fqFlush (s : State) (n : Nat) : State :=
  let q := s.fqOf n
  let s := s.rxCut n q.openHead
  let term : FqWord := ⟨0, true, false, 0, false, true⟩
  let s := (q.real.zipIdx).foldl (fun s p => s.fqLeave (q.poolWord p.2) p.1.data) s
  s.setFq n { q with
    words := if q.openHead then [term] else [], cells := [], headOff := 0,
    discard := q.discard || q.openTail, openTail := false }

/-- Discard whole words up to and including the next END word; whether that word was there (R232, R258). -/
def fqSkipWords : Nat → Nat → State → State × Bool
  | 0, _, s => (s, false)
  | k + 1, n, s =>
    match (s.fqOf n).words with
    | [] => (s, false)
    | w :: _ => if w.last then (s.fqPop n, true) else fqSkipWords k n (s.fqPop n)

/-- Discard the head packet's rest. -/
def State.fqSkip (s : State) (n : Nat) : State × Bool := fqSkipWords ((s.fqOf n).words.length + 1) n s

/-- The queue holds a complete packet (its END word or a terminator). -/
def State.fqComplete (s : State) (n : Nat) : Bool := decide ((s.fqOf n).packets ≥ 1)

/-- The words of the head packet, up to its END word. -/
def headPacket : List FqWord → List FqWord
  | [] => []
  | w :: t => if w.last then [w] else w :: headPacket t

/-- Pop `k` words. -/
def State.fqPopN (s : State) (n : Nat) : Nat → State
  | 0 => s
  | k + 1 => (s.fqPop n).fqPopN n k

/-! ## The raw window (R239) -/

/-- The queue and word that lie at cell c, word i, if live. -/
def State.cellWord (s : State) (c i : Nat) : Option (Nat × Nat) :=
  s.fq.findSome? (fun p => (p.2.cells.idxOf? c).bind (fun j =>
    if 16 * j + i < p.2.headOff then none
    else if 16 * j + i - p.2.headOff < p.2.real.length then some (p.1, 16 * j + i - p.2.headOff) else none))

/-- The data of the raw window's word; a word that no queue holds reads what was left there or written there last (R15). -/
def State.rawCell (s : State) (c i : Nat) : Nat :=
  match s.cellWord c i with
  | some (n, k) => ((s.fqOf n).real.getD k ⟨0, false, false, 0, false, false⟩).data
  | none => ((s.mm.fqLeft.find? (fun p => p.1 == 16 * c + i)).map Prod.snd).getD (s.rdN (0x38000000 + 64 * c + 4 * i) 4)

/-- Change the k-th word that is no terminator. -/
def updReal (f : FqWord → FqWord) : Nat → List FqWord → List FqWord
  | _, [] => []
  | k, w :: t => if w.trunc then w :: updReal f k t else match k with
    | 0 => f w :: t
    | k + 1 => w :: updReal f k t

/-- Change the word at cell c, word i: a write through the raw window sets the data and recomputes the parity. -/
def State.setRawCell (s : State) (c i : Nat) (f : FqWord → FqWord) : State :=
  match s.cellWord c i with
  | some (n, k) => s.setFq n { s.fqOf n with words := updReal f k (s.fqOf n).words }
  | none =>
    (s.wrN (0x38000000 + 64 * c + 4 * i) 4 (f ⟨s.rawCell c i, false, false, 0, false, false⟩).data).modMm fun m =>
      { m with fqLeft := m.fqLeft.filter (fun p => p.1 != 16 * c + i) }

/-! ## The FERRY block's registers -/

/-- The queue in the window. -/
def State.fqSel (s : State) : Nat := s.fld FERRY_SEL FERRY_SEL_QUEUE

/-- The tag word of a popped word (R263). -/
def tagWord (w : FqWord) : Word :=
  w32 (1 + 2 * b2n w.last + 4 * b2n w.poison + 8 * b2n w.trunc + 16 * w.vb)

/-- Writes of the FERRY block that are discarded whole (R24, R240, R263). -/
def ferryBad (s : State) (a0 : Nat) (w : Word) : Bool :=
  if a0 = FERRY_Q_CFG then
    let q := s.fqOf s.fqSel
    let lim := FERRY_Q_CFG_LIMIT.get w
    if FERRY_Q_CFG_EN.get w ≠ 0 then decide (lim = 0) || decide (4096 < lim)
    else !q.words.isEmpty
  else false

/-- Accesses of the FERRY block that end with a bus error: a push without room (R243). -/
def ferryWrErr (s : State) (a0 i : Nat) : Bool :=
  (a0 == FQ_DATA 0 || a0 == FQ_TAG 0) && !((s.fqOf i).en && (s.fqOf i).discard) && !s.fqRoom i

/-- What a write of the FERRY block does beside setting its fields. The window registers hold nothing of their own: their
contents go to the selected queue. -/
def ferryHook (a0 i : Nat) (w : Word) (s : State) : State :=
  let n := s.fqSel
  if a0 = FERRY_FLUSH then s.fqFlush (FERRY_FLUSH_QUEUE.get w)
  else if a0 = FERRY_Q_CTL then (if FERRY_Q_CTL_FLUSH.get w ≠ 0 then s.fqFlush n else s)
  else if a0 = FERRY_Q_CFG then
    (s.setReg FERRY_Q_CFG 0).setFq n { s.fqOf n with en := FERRY_Q_CFG_EN.get w != 0, limit := FERRY_Q_CFG_LIMIT.get w }
  else if a0 = FERRY_Q_DROP then s.setFq n { s.fqOf n with drops := 0 }
  else if a0 = FQ_DATA 0 then (s.setReg (FQ_DATA i) 0).fqPush i ⟨w.toNat, false, false, 0, false, false⟩
  else if a0 = FQ_TAG 0 then s.fqPush i ⟨w.toNat, true, false, 0, false, false⟩
  else s

/-- Registers of the FERRY block that read the live state. -/
def ferryView (s : State) (a0 i : Nat) : Option Word :=
  let q := s.fqOf s.fqSel
  if a0 = FERRY_POOL_FREE then some (w32 s.poolFree)
  else if a0 = FERRY_Q_CFG then some (w32 (q.limit + b2n q.en * 2 ^ 31))
  else if a0 = FERRY_Q_STATE then
    some (w32 (q.cells.length + 2 ^ 13 * b2n (q.openTail || q.discard) + 2 ^ 14 * b2n q.openHead + 2 ^ 15 * q.packets))
  else if a0 = FERRY_Q_WORDS then some (w32 q.real.length)
  else if a0 = FERRY_Q_DROP then some (w32 q.drops)
  else if a0 = FQ_DATA 0 then some (match s.fqHead i with | some w => w32 w.data | none => 0)
  else none

/-- A read of FQn_DATA pops and loads the tags (R243). -/
def State.fqDataRead (s : State) (n : Nat) : State :=
  match s.fqHead n with
  | some w => (s.fqPop n).setReg (FQ_TAG n) (tagWord w)
  | none => s.setReg (FQ_TAG n) 0

/-- What a read of the FERRY block changes. -/
def ferryRead (a0 i : Nat) (s : State) : State := if a0 = FQ_DATA 0 then s.fqDataRead i else s

/-- SRC bits of FERRY_SUMMARY (R264). -/
def ferrySrc (s : State) : Nat := (s.reg FERRY_STATUS).toNat % 16

end Sys2Proof.Machine
end

