-- ==== Sys2Proof/Machine/Can.lean ====
section
/-! DEFINITION. CAN FD controllers (10, R268 to R280, R289, R291 to R294): modes, fault confinement, transmit buffers, filters. The
time-triggered unit's hold on them stands here as far as both sides need it; its own steps stand in TimeTrig.lean. -/
namespace Sys2Proof.Machine

/-- Controller n. -/
def State.canOf (s : State) (n : Nat) : CanSt := tget (fun _ => {}) s.can n
/-- Store controller n. -/
def State.setCan (s : State) (n : Nat) (x : CanSt) : State := { s with can := tput (fun _ => {}) s.can n x }
/-- Change controller n. -/
def State.modCan (s : State) (n : Nat) (f : CanSt → CanSt) : State := s.setCan n (f (s.canOf n))
/-- Buffer b of a controller. -/
def CanSt.buf (x : CanSt) (b : Nat) : Option CanBuf := tget (fun _ => none) x.bufs b
/-- Fill or free buffer b. -/
def CanSt.setBuf (x : CanSt) (b : Nat) (v : Option CanBuf) : CanSt := { x with bufs := tput (fun _ => none) x.bufs b v }
/-- A frame is in progress on the controller's bus. -/
def CanSt.busy (x : CanSt) : Bool := x.tx.isSome || x.rx.isSome

/-- A link test keeps the controller off the bus (R450). -/
def State.canTest (s : State) (n : Nat) : Bool :=
  s.bit (TEST_LINK_CTL (8 + n)) TEST_LINK_CTL_GEN || s.bit (TEST_LINK_CTL (8 + n)) TEST_LINK_CTL_CHK

/-- The controller is kept off its balls: by a link test (R450), or because their bank is down, so that CANn_RX reads dominant (R463, R500). -/
def State.canKept (s : State) (n : Nat) : Bool := s.canTest n || s.rst.banks.contains 6

/-! ## Frame words (R272) -/

/-- ID -/ def cwId (w0 : Nat) : Nat := bitsOf 28 0 w0
/-- IDE -/ def cwIde (w0 : Nat) : Bool := bitOf 29 w0
/-- RTR -/ def cwRtr (w0 : Nat) : Bool := bitOf 30 w0
/-- FDF -/ def cwFdf (w0 : Nat) : Bool := bitOf 31 w0
/-- DLC -/ def cwDlc (w1 : Nat) : Nat := bitsOf 3 0 w1
/-- BRS -/ def cwBrs (w1 : Nat) : Bool := bitOf 4 w1
/-- TAG -/ def cwTag (w1 : Nat) : Nat := bitsOf 15 8 w1

/-- Bytes that a data length code gives (R272). -/
def dlcBytes (fdf rtr : Bool) (dlc : Nat) : Nat :=
  if rtr then 0
  else if dlc ≤ 8 then dlc
  else if !fdf then 8
  else [12, 16, 20, 24, 32, 48, 64].getD (dlc - 9) 64

/-- Bytes of the frame that words 0 and 1 describe. -/
def cwBytes (w0 w1 : Nat) : Nat := dlcBytes (cwFdf w0) (cwRtr w0) (cwDlc w1)

/-- Words 0 and 1 break a rule of R272; a standard identifier's bits [28:11] count as reserved (log 40). -/
def cwBad (fdEn : Bool) (w0 w1 : Nat) : Bool :=
  (!cwIde w0 && bitsOf 28 11 w0 != 0) || bitsOf 7 5 w1 != 0 || bitsOf 31 16 w1 != 0
    || (cwFdf w0 && cwRtr w0) || (cwBrs w1 && !cwFdf w0) || (cwFdf w0 && !fdEn)

/-- Words 0 of a frame. -/
def rxWord0 (f : CanFrame) : Nat := f.id.val + 2 ^ 29 * b2n f.ide + 2 ^ 30 * b2n f.rtr + 2 ^ 31 * b2n f.fdf
/-- The data bytes of a received frame, as many as its DLC gives. -/
def rxPayload (f : CanFrame) : List Nat := (slice f.data 0 (dlcBytes f.fdf f.rtr f.dlc.val)).map (· % 256)

/-! ## The time-triggered unit as the controllers see it (R281 to R286, R289, R290) -/

/-- Change the time-triggered unit. -/
def State.modTt (s : State) (f : TtSt → TtSt) : State := { s with tt := f s.tt }
/-- EN of TT_CTL. -/
def State.ttOn (s : State) : Bool := s.bit TT_CTL TT_CTL_EN
/-- PAIR in force. -/
def State.ttPair (s : State) : Bool := s.ttOn && s.bit TT_CTL TT_CTL_PAIR
/-- Controller n is in use by the unit. -/
def State.ttUses (s : State) (n : Nat) : Bool :=
  s.ttOn && (if s.bit TT_CTL TT_CTL_PAIR then decide (n < 2) else n == s.fld TT_CTL TT_CTL_BUS_SEL)
/-- STATE of TT_STATE. -/
def State.ttState (s : State) : Nat := s.fld TT_STATE TT_STATE_STATE
/-- ERR_LEVEL of TT_STATE (R286). -/
def State.ttLevel (s : State) : Nat := s.fld TT_STATE TT_STATE_ERR_LEVEL
/-- The unit's time in 2^-32 ns: the time of day, or CAN clock periods counted from CHIP reset (R281, log 41). -/
def State.ttNow (s : State) : Nat := if s.bit TT_CTL TT_CTL_SLAVE_TB then s.time.tod else s.time.tick * 4 * 2 ^ 32
/-- One NTU in 2^-32 ns (R281): TT_NTU_NS, or TUR periods of 12.5 ns. -/
def State.ttNtu (s : State) : Nat :=
  if s.bit TT_CTL TT_CTL_SLAVE_TB then s.fld TT_NTU_NS TT_NTU_NS_NS * 2 ^ 32 else (s.reg TT_TUR).toNat * 819200
/-- Word A of trigger k. -/
def State.trigA (s : State) (k : Nat) : Nat := (s.reg (TT_TRIG_A k)).toNat
/-- Word B of trigger k. -/
def State.trigB (s : State) (k : Nat) : Nat := (s.reg (TT_TRIG_B k)).toNat
/-- TIME_MARK -/ def taMark (a : Nat) : Nat := bitsOf 15 0 a
/-- TYPE -/ def taType (a : Nat) : Nat := bitsOf 18 16 a
/-- REP -/ def taRep (a : Nat) : Nat := bitsOf 22 20 a
/-- BASE -/ def taBase (a : Nat) : Nat := bitsOf 29 24 a
/-- EN -/ def taEn (a : Nat) : Bool := bitOf 31 a
/-- LEN -/ def tbLen (b : Nat) : Nat := bitsOf 15 0 b
/-- Trigger A acts in basic cycle c (R283). -/
def taActs (a c : Nat) : Bool := taEn a && c % 2 ^ taRep a == taBase a
/-- The types with a window. -/
def taWindow (a : Nat) : Bool := decide (taType a ≤ 2)
/-- CYCLE of TT_STATE. -/
def State.ttCycle (s : State) : Nat := s.fld TT_STATE TT_STATE_CYCLE
/-- The end of trigger k's window in the unit's time. -/
def State.ttWinEnd (s : State) (k : Nat) : Nat := s.tt.cycAt + (taMark (s.trigA k) + tbLen (s.trigB k)) * s.ttNtu
/-- Trigger k has a window in this cycle that holds the present instant. -/
def State.ttInside (s : State) (k : Nat) : Bool :=
  let a := s.trigA k
  taActs a s.ttCycle && taWindow a && decide (s.tt.cycAt + taMark a * s.ttNtu ≤ s.ttNow) && decide (s.ttNow < s.ttWinEnd k)
/-- The window that holds the present instant, while the unit keeps a schedule (R279). -/
def State.ttWindow (s : State) : Option Nat :=
  if s.ttState < 2 then none else (List.range (s.fld TT_TRIG_CNT TT_TRIG_CNT_COUNT)).find? s.ttInside

/-- What is latched at a SOF; `ref`: the frame is a reference message of the unit. -/
def State.canSof (s : State) (n : Nat) (ref : Bool) : CanSof :=
  let u := s.ttUses n
  ⟨s.time.tod, s.ttNow, if u then s.ttCycle else 0, s.tt.pass, if u then s.ttWindow else none, u && ref⟩

/-- Nominal bit time of controller n in CAN clock periods (R269). -/
def nbtPeriods (w : Word) : Nat := (CAN_NBT_BRP_M1.get w + 1) * (3 + CAN_NBT_TSEG1_M1.get w + CAN_NBT_TSEG2_M1.get w)
/-- Data bit time of controller n in CAN clock periods (R269). -/
def dbtPeriods (w : Word) : Nat := (CAN_DBT_DBRP_M1.get w + 1) * (3 + CAN_DBT_DTSEG1_M1.get w + CAN_DBT_DTSEG2_M1.get w)

/-- Nominal-rate and data-rate bits of a frame with n data bytes (R289). -/
def frameBits (fdf ide : Bool) (n : Nat) : Nat × Nat :=
  if fdf then
    (if ide then 57 else 34, 5 + 8 * n + (4 + 8 * n) / 4 + 4 + (if n ≤ 16 then 17 + 6 else 21 + 7))
  else (if ide then 8 * n + 67 + (53 + 8 * n) / 4 else 8 * n + 47 + (33 + 8 * n) / 4, 0)

/-- The unit's reckoning of a frame's bus time on controller n, in 2^-32 ns (R289): a period is 12.5 ns. -/
def State.canDur (s : State) (n w0 w1 : Nat) : Nat :=
  let (a, d) := frameBits (cwFdf w0) (cwIde w0) (cwBytes w0 w1)
  let tN := nbtPeriods (s.reg (CAN_NBT n))
  let tD := if cwBrs w1 then dbtPeriods (s.reg (CAN_DBT n)) else tN
  (a * tN + d * tD) * 25 * 2 ^ 31

/-- The identifier is that of a reference message, of which priority (R287). -/
def State.refPrio (s : State) (id : Nat) (ide : Bool) : Option Nat :=
  let base := s.fld TT_REF_ID TT_REF_ID_ID
  if (ide == s.bit TT_REF_ID TT_REF_ID_IDE) && decide (base ≤ id) && decide (id < base + 8) then some (id - base) else none

/-- A reference message starts on a bus of the unit. -/
def State.ttRefStart (s : State) (n id : Nat) (ide : Bool) : State :=
  if s.ttUses n && (s.refPrio id ide).isSome then s.modTt fun t => { t with refOn := true } else s

/-- A transmit-buffer frame of controller n may start now (R285): freely without the unit, else only inside an ARB window that holds
all of it. -/
def State.ttAllows (s : State) (n : Nat) (f : CanBuf) : Bool :=
  !s.ttUses n || (s.ttState == 3 && decide (s.ttLevel < 3) && (match s.ttWindow with
    | some k => taType (s.trigA k) == 2 && decide (s.ttNow + s.canDur n f.w0 f.w1 ≤ s.ttWinEnd k)
    | none => false))

/-- An exclusive frame was not sent (R285). -/
def State.ttFail (s : State) : State := s.count TT_TX_FAIL

/-! ## Fault confinement (R271) -/

/-- The counters take new values; what is reached is flagged. -/
def State.canFc (s : State) (n tec rec' : Nat) : State :=
  let x := s.canOf n
  let warn := (decide (96 ≤ tec) && decide (x.tec < 96)) || (decide (96 ≤ rec') && decide (x.rec' < 96))
  let passive := (decide (128 ≤ tec) || decide (128 ≤ rec')) && decide (x.tec < 128) && decide (x.rec' < 128)
  let s := s.setCan n { x with tec := tec, rec' := rec' }
  let s := s.setIf warn (CAN_STATUS n) CAN_STATUS_WARN
  let s := s.setIf passive (CAN_STATUS n) CAN_STATUS_ERR_PASSIVE
  if 256 ≤ tec ∧ !x.boff then
    let s := (s.setB (CAN_STATUS n) CAN_STATUS_BUS_OFF).count (CAN_BUS_OFF_CNT n)
    s.modCan n fun y => { y with boff := true, recov := s.bit (CAN_CTL n) CAN_CTL_AUTO_RECOVER }
  else s

/-- An error while transmitting: TEC rises by 8 (ISO 11898-1, PRESUMED, log 42). -/
def State.canTxErr (s : State) (n : Nat) (exempt : Bool) : State :=
  let s := (s.count (CAN_ERR_TX n)).modCan n fun y => { y with flagged := true }
  let x := s.canOf n
  if exempt then s else s.canFc n (x.tec + 8) x.rec'

/-- A frame was sent: TEC falls by 1 (ISO 11898-1, PRESUMED, log 42). -/
def State.canTxOk (s : State) (n : Nat) : State :=
  let x := s.canOf n
  (s.count (CAN_TX_OK n)).canFc n (x.tec - 1) x.rec'

/-- An error while receiving: REC rises by 1, or by 8 (ISO 11898-1, PRESUMED, log 42); not in RESTRICTED, which sends no error frame (R276). -/
def State.canRxErr (s : State) (n : Nat) (primary : Bool) : State :=
  let s := (s.count (CAN_ERR_RX n)).modCan n fun y => { y with flagged := y.mode == 1, acked := false }
  let x := s.canOf n
  if x.mode = 2 then s.setCan n { x with integ := true }
  else s.canFc n x.tec (x.rec' + if primary then 8 else 1)

/-- A frame was received: REC falls by 1; above 127 it takes a value from 119 to 127 that is open (log 42). -/
def State.canRxFall (s : State) (n : Nat) : State :=
  let x := s.canOf n
  if x.mode = 2 then s
  else if 127 < x.rec' then (s.setCan n { x with rec' := 119 + Config.freeNat s.free % 9 }).tickFree
  else s.setCan n { x with rec' := x.rec' - 1 }

/-! ## Modes (R268, R271, R280) -/

/-- An exclusive frame that still waits on a controller in use is not sent (R285). -/
def State.exclLost (s : State) (n : Nat) : State :=
  match (s.canOf n).spec with
  | some ⟨.excl _, _, _, _, _⟩ => if s.ttUses n then s.ttFail else s
  | _ => s

/-- The controller enters INIT: counters 0, bus-off ends, an exclusive frame that waits is lost; after a CORE reset its buffers are emptied. -/
def State.canInit (s : State) (n : Nat) : State := (s.exclLost n).modCan n fun x =>
  { x with mode := 0, tec := 0, rec' := 0, boff := false, recov := false, integ := false, drain := false, rx := none, tx := none,
           spec := none, bufs := if x.drain then [] else x.bufs, next := if x.drain then 0 else x.next,
           late := if x.drain then [] else x.late }

/-- A change of mode that is due takes effect at the end of a frame in progress: to INIT (R268), after a CORE reset whatever MODE says by then
(R280), and between NORMAL and RESTRICTED (DESIGN CHOICE, log 106). -/
def State.canSettle (s : State) (n : Nat) : State :=
  let x := s.canOf n
  let m := s.fld (CAN_CTL n) CAN_CTL_MODE
  if x.busy then s
  else if x.drain then s.canInit n
  else if x.mode = 0 ∨ x.mode = m then s
  else if m = 0 then s.canInit n
  else s.setCan n { x with mode := m }

/-- MODE was written (R268, R271, R276). -/
def State.canMode (s : State) (n : Nat) : State :=
  let m := s.fld (CAN_CTL n) CAN_CTL_MODE
  let x := s.canOf n
  if m = 0 then
    let s := if x.boff then s.modCan n fun y => { y with boff := false, recov := false, tec := 0, rec' := 0 } else s
    s.canSettle n
  else if x.mode = 0 then s
  else (if x.boff ∧ m = 1 then s.modCan n fun y => { y with recov := true } else s).canSettle n

/-- The 11 recessive bits after which a change from INIT, or a bus integration, takes effect; or the end of the frame in
progress (R268, R276). No recessive bit is seen while the controller is kept off its balls (R450). -/
def canModeEffect (n : Nat) (s : State) : State :=
  let x := s.canOf n
  let m := s.fld (CAN_CTL n) CAN_CTL_MODE
  if x.busy then s
  else if m = 0 then s.canSettle n
  else if s.canKept n then s
  else if x.mode = 0 then (if x.drain then s else s.setCan n { x with mode := m })
  else s.setCan n { x with integ := false }

/-- 128 occurrences of 11 recessive bits have been seen (R271). -/
def busOffRecovery (n : Nat) (s : State) : State :=
  let x := s.canOf n
  if x.boff ∧ x.recov ∧ !s.canKept n then s.setCan n { x with boff := false, recov := false, tec := 0, rec' := 0 } else s

/-- CORE reset (R280): the frame in progress finishes, then INIT with empty buffers. -/
def State.canCoreReset (s : State) (n : Nat) : State :=
  ((s.putF (CAN_CTL n) CAN_CTL_MODE 0).modCan n fun x => { x with drain := true, spec := none }).canSettle n

/-! ## Transmit buffers (R272 to R275, R277) -/

/-- Outcomes of a transmit event. -/
inductive TxOut where
  | sent | sentLate | cancelled | abandoned
  deriving DecidableEq, Repr

/-- Codes of OUTCOME. -/
def TxOut.code : TxOut → Nat
  | .sent => 0 | .sentLate => 1 | .cancelled => 2 | .abandoned => 3

/-- Push the transmit event of a freed buffer (R277); none for the copies of a pair on CAN1 (R290). -/
def State.canEvent (s : State) (n b : Nat) (f : CanBuf) (o : TxOut) : State :=
  if s.bit (CAN_CTL n) CAN_CTL_TXE_EN ∧ ¬ (s.ttPair ∧ n = 1) then
    let (ns, sec) := match f.sof with
      | some t => (todNs t, todSec t % 2 ^ 32)
      | none => (0, 0)
    s.fqOffer (s.fld (CAN_FQ2 n) CAN_FQ2_TXEQ)
      (packWords (leBytes 4 (cwTag f.w1 + 2 ^ 8 * b + 2 ^ 10 * o.code + 2 ^ 12 * min 255 f.tries) ++ leBytes 4 ns ++ leBytes 4 sec))
  else s

/-- Free buffer b with its event. -/
def State.canFree (s : State) (n b : Nat) (f : CanBuf) (o : TxOut) : State :=
  ((s.modCan n fun x => x.setBuf b none).setIf (o == .sentLate) (CAN_STATUS n) CAN_STATUS_CANCEL_LATE).canEvent n b f o

/-- An attempt of buffer b failed (R274, R275). -/
def State.canFailed (s : State) (n b : Nat) : State :=
  match (s.canOf n).buf b with
  | none => s
  | some f =>
    let lim := s.fld (CAN_TX_RETRY n) CAN_TX_RETRY_LIMIT
    if f.cancel then s.canFree n b f .cancelled
    else if lim ≠ 0 ∧ lim ≤ f.tries then
      ((s.count (CAN_TX_ABANDONED n)).setB (CAN_STATUS n) CAN_STATUS_TX_ABANDON).canFree n b f .abandoned
    else s

/-- Cancel buffer b (R275). -/
def State.canCancel (s : State) (n b : Nat) : State :=
  let x := s.canOf n
  match x.buf b with
  | none => s
  | some f =>
    if (x.tx.map (·.src)) = some (.buf b) then s.setCan n (x.setBuf b (some { f with cancel := true }))
    else s.canFree n b f .cancelled

/-- A packet's bytes, if it is well formed as to tags. -/
def packetBytes (ws : List FqWord) : Option (List Nat) :=
  if ws.any (fun w => w.trunc || w.poison || w.bad) then none else some (ws.flatMap FqWord.bytes)

/-- A transmit packet is good (R272): its words 0 and 1 and its data. -/
def txPacket (fdEn : Bool) (ws : List FqWord) : Option (Nat × Nat × List Nat) :=
  (packetBytes ws).bind fun bs =>
    let w0 := ofLe (bs.take 4)
    let w1 := ofLe (slice bs 4 4)
    if bs.length < 8 ∨ cwBad fdEn w0 w1 ∨ bs.length ≠ 8 + cwBytes w0 w1 then none else some (w0, w1, bs.drop 8)

/-- The buffer that the next packet takes, in cyclic order (TXPRIO 1) or by number (R273). -/
def CanSt.slot (x : CanSt) (cyclic : Bool) : Option Nat :=
  if cyclic then (if (x.buf x.next).isNone then some x.next else none)
  else (List.range 3).find? (fun b => (x.buf b).isNone)

/-- Put a frame into buffer b of controller n. -/
def State.canFill (s : State) (n b : Nat) (f : CanBuf) : State := s.modCan n fun x =>
  { (x.setBuf b (some { f with seq := x.pops })) with pops := x.pops + 1, next := if f.fifo then (b + 1) % 3 else x.next }

/-- A waiting copy of a pair's frame takes a free buffer of CAN1, which keeps its own pace (R290). -/
def State.canCopyLoad (s : State) : State :=
  let x := s.canOf 1
  match x.late with
  | [] => s
  | f :: t => match x.slot f.fifo with
    | some b => if x.mode = 0 then s else (s.setCan 1 { x with late := t }).canFill 1 b f
    | none => s

/-- A frame of CAN0 in a pair is to be sent on CAN1 too (R290). -/
def State.canCopy (s : State) (f : CanBuf) : State :=
  (s.modCan 1 fun x => { x with late := x.late ++ [{ w0 := f.w0, w1 := f.w1, data := f.data, fifo := f.fifo }] }).canCopyLoad

/-- A complete packet of TXQ is popped into a free buffer, or discarded as bad (R272, R273); in a pair both controllers take the
frame, and TXQ of CAN1 is not used: its buffers take the copies (R290). -/
def txBufferLoad (n : Nat) (s : State) : State :=
  let q := s.fld (CAN_FQ n) CAN_FQ_TXQ
  let pair := s.ttPair
  let fifo := s.bit (CAN_CTL n) CAN_CTL_TXPRIO
  if pair ∧ n = 1 then s.canCopyLoad
  else match (s.canOf n).slot fifo with
  | none => s
  | some b =>
    if (s.canOf n).mode = 0 ∨ s.canTest n ∨ !s.fqComplete q then s
    else
      let p := txPacket (s.bit (CAN_CTL n) CAN_CTL_FD_EN) (headPacket (s.fqOf q).words)
      let s := (s.fqSkip q).1
      match p with
      | none => (s.count (CAN_TX_BAD_CNT n)).setB (CAN_STATUS n) CAN_STATUS_TX_BAD
      | some (w0, w1, d) =>
        let f : CanBuf := { w0 := w0, w1 := w1, data := d, fifo := fifo }
        let s := s.canFill n b f
        if pair ∧ n = 0 then s.canCopy f else s

/-- The order of arbitration: the lower key wins (R273). -/
def arbKey (w0 : Nat) : Nat :=
  if cwIde w0 then (cwId w0 / 2 ^ 18) * 2 ^ 21 + 2 ^ 20 + (cwId w0 % 2 ^ 18) * 2 + b2n (cwRtr w0)
  else cwId w0 * 2 ^ 21 + b2n (cwRtr w0)

/-- Frame f goes before frame g. -/
def CanBuf.before (f g : CanBuf) : Bool :=
  decide (arbKey f.w0 < arbKey g.w0) || (arbKey f.w0 == arbKey g.w0 && decide (f.seq < g.seq))

/-- The filled buffers. -/
def CanSt.filled (x : CanSt) : List (Nat × CanBuf) := (List.range 3).filterMap (fun b => (x.buf b).map (fun f => (b, f)))

/-- The buffer sent next (R273): the winner of arbitration; of the frames popped under TXPRIO 1 only the oldest competes. -/
def CanSt.nextTx (x : CanSt) : Option (Nat × CanBuf) :=
  let l := x.filled
  let c := l.filter (fun p => !p.2.fifo || !l.any (fun q => q.2.fifo && decide (q.2.seq < p.2.seq)))
  c.foldl (fun a p => match a with
    | none => some p
    | some o => if p.2.before o.2 then some p else some o) none

/-! ## Transmission (R270, R273 to R277, R285) -/

/-- Put a frame on the bus. -/
def State.canPut (s : State) (n : Nat) (src : CanSrc) (w0 w1 : Nat) (d : List Nat) (till : Option Nat) : State :=
  s.modCan n fun x => { x with tx := some ⟨src, w0, w1, d, s.canSof n (src == .ref), till⟩ }

/-- The controller may start a frame. -/
def State.canMay (s : State) (n : Nat) : Bool :=
  let x := s.canOf n
  x.mode == 1 && !x.boff && !x.integ && !x.busy && !x.drain && !s.canKept n

/-- A waiting frame of the unit starts if it still fits (R283, R285), while the unit uses the controller. -/
def State.canStartSpec (s : State) (n : Nat) (p : CanSpec) : State :=
  let s := s.modCan n fun x => { x with spec := none }
  if !s.ttUses n then s
  else match p.src with
  | .excl _ =>
    if s.ttLevel ≥ 2 then s.ttFail
    else if (p.till.getD 0) < s.ttNow + s.canDur n p.w0 p.w1 then (s.setB TT_STATUS TT_STATUS_TOO_LONG).ttFail
    else s.canPut n p.src p.w0 p.w1 p.data p.till
  | _ =>
    if s.ttLevel ≥ 3 ∨ (p.till.map (fun e => decide (e ≤ s.ttNow))) = some true then s
    else (s.canPut n p.src p.w0 p.w1 p.data p.till).ttRefStart n (cwId p.w0) (cwIde p.w0)

/-- A transmission starts: a frame of the unit if one waits, else the buffer sent next. -/
def State.canStart (s : State) (n : Nat) : State :=
  if !s.canMay n then s
  else match (s.canOf n).spec with
    | some p => s.canStartSpec n p
    | none => match (s.canOf n).nextTx with
      | none => s
      | some (b, f) =>
        if s.ttAllows n f then
          let s := s.modCan n fun x => x.setBuf b (some { f with tries := f.tries + 1, sof := some s.time.tod })
          s.canPut n (.buf b) f.w0 f.w1 f.data none
        else s

/-- The delay measured in a transmitted FD frame (R270); one beyond the register's width leaves it open (log 2). -/
def State.canDelay (s : State) (n : Nat) (o : CanOut) (delay : Option Nat) : State :=
  match delay with
  | some d =>
    if cwFdf o.w0 ∧ s.bit (CAN_TDC n) CAN_TDC_TDC_EN then
      if d ≤ 127 then s.putF (CAN_TDC n) CAN_TDC_TDCV d
      else (s.putF (CAN_TDC n) CAN_TDC_TDCV (Config.freeNat s.free)).tickFree
    else s
  | none => s

/-- A measured delay that ends the frame with a bit error (R270). -/
def State.canDelayBad (s : State) (n : Nat) (o : CanOut) (delay : Option Nat) : Bool :=
  cwFdf o.w0 && s.bit (CAN_TDC n) CAN_TDC_TDC_EN && decide (127 < delay.getD 0)

/-- The frame on the bus leaves it. -/
def State.canOff (s : State) (n : Nat) : State := s.modCan n fun x => { x with tx := none }

/-- A frame of the unit met an error or lost arbitration: a reference message is sent again on its bus within its window, unless the unit has
given it up meanwhile (R283, R287, R290); other frames of the unit are sent once (R285). -/
def State.canSpecErr (s : State) (n : Nat) (o : CanOut) : State :=
  match o.src with
  | .excl _ => s.ttFail
  | .ref =>
    if s.ttUses n && o.till.all (fun e => decide (s.ttNow < e)) then s.modCan n fun x => { x with spec := some ⟨.ref, o.w0, o.w1, o.data, o.till⟩ }
    else s
  | .buf _ => s

/-- The frame ends with an error (R271, R274). -/
def State.canTxError (s : State) (n : Nat) (o : CanOut) (exempt : Bool) : State :=
  let s := (s.canOff n).canTxErr n exempt
  match o.src with
  | .buf b => (s.canFailed n b).canSettle n
  | _ => (s.canSpecErr n o).canSettle n

/-- Arbitration is lost: the controller receives the winner's frame, which began at the same SOF (R274, R277). -/
def State.canTxLost (s : State) (n : Nat) (o : CanOut) (id : Nat) (ide : Bool) : State :=
  let s := ((s.canOff n).count (CAN_ARB_LOST n)).modCan n fun x => { x with rx := some { o.sof with ref := (s.refPrio id ide).isSome && s.ttUses n } }
  let s := s.ttRefStart n id ide
  match o.src with
  | .buf b => s.canFailed n b
  | _ => s.canSpecErr n o

/-- A link test takes the controller from its bus (R450): a frame in progress ends there, a frame of its own as one that failed, and once the test is
over the controller waits for bus integration, as after INIT. -/
def State.canTaken (s : State) (n : Nat) : State :=
  let o := (s.canOf n).tx
  let s := s.modCan n fun x => { x with tx := none, rx := none, integ := x.mode != 0 }
  (match o with
  | none => s
  | some o => match o.src with
    | .buf b => s.canFailed n b
    | _ => s.canSpecErr n o).canSettle n

/-- A transmit-buffer frame succeeds (R275, R277). -/
def State.canBufSent (s : State) (n b : Nat) : State :=
  match (s.canOf n).buf b with
  | none => s
  | some f => s.canFree n b f (if f.cancel then .sentLate else .sent)

/-! ## Reception (R278, R279, R290) -/

/-- The first enabled filter of controller n that matches: index, reject, queue select. -/
def State.canMatch (s : State) (n : Nat) (f : CanFrame) : Option (Nat × Bool × Bool) :=
  if f.ide then
    ((List.range 64).find? fun k =>
      s.bit (CAN_XFLT_ID n k) CAN_XFLT_ID_EN &&
        (let m := s.fld (CAN_XFLT_MASK n k) CAN_XFLT_MASK_MASK
         f.id.val &&& m == (s.fld (CAN_XFLT_ID n k) CAN_XFLT_ID_ID) &&& m)).map
      fun k => (k, s.bit (CAN_XFLT_MASK n k) CAN_XFLT_MASK_REJECT, s.bit (CAN_XFLT_MASK n k) CAN_XFLT_MASK_RXQ_SEL)
  else
    ((List.range 128).find? fun k =>
      let w := s.reg (CAN_SFLT n k)
      CAN_SFLT_EN.get w == 1 && f.id.val &&& CAN_SFLT_MASK.get w == CAN_SFLT_ID.get w &&& CAN_SFLT_MASK.get w).map
      fun k => (k, s.bit (CAN_SFLT n k) CAN_SFLT_REJECT, s.bit (CAN_SFLT n k) CAN_SFLT_RXQ_SEL)

/-- The packet of a received frame (R279). -/
def rxPacket (f : CanFrame) (bus : Bool) (m : Option Nat) (x : CanSof) : List FqWord :=
  let w1 := f.dlc.val + 2 ^ 4 * b2n f.brs + 2 ^ 5 * b2n f.esi + 2 ^ 6 * b2n bus + 2 ^ 7 * b2n m.isSome + 2 ^ 8 * m.getD 0
    + 2 ^ 15 * b2n (f.ide && m.isSome) + 2 ^ 16 * (x.cycle % 64) + 2 ^ 22 * x.win.getD 0 + 2 ^ 28 * b2n x.win.isSome
  packWords (leBytes 4 (rxWord0 f) ++ leBytes 4 w1 ++ leBytes 4 (todNs x.ts) ++ leBytes 4 (todSec x.ts % 2 ^ 32) ++ rxPayload f)

/-- Push a received frame into queue q; RX_OK of the bus's controller counts a frame that was pushed (R279). -/
def State.canPush (s : State) (n q : Nat) (ws : List FqWord) : State :=
  let room := s.fqRoomN q ws.length
  (s.fqOffer q ws).countIf room (CAN_RX_OK n)

/-- Filter a valid frame of bus n (R278); in a pair CAN0's filters and queues serve both buses (R290). -/
def State.canFilter (s : State) (n : Nat) (f : CanFrame) (x : CanSof) : State :=
  let pair := s.ttPair && decide (n < 2)
  let c := if pair then 0 else n
  let bus := pair && n == 1
  match s.canMatch c f with
  | some (k, rej, sel) =>
    if rej then s
    else s.canPush n (s.fld (CAN_FQ c) (if sel then CAN_FQ_RXQ1 else CAN_FQ_RXQ0)) (rxPacket f bus (some k) x)
  | none =>
    if s.bit (CAN_CTL c) (if f.ide then CAN_CTL_NM_EXT else CAN_CTL_NM_STD) then
      s.canPush n (s.fld (CAN_FQ c) CAN_FQ_RXQ0) (rxPacket f bus none x)
    else s

/-- A valid frame is the duplicate of a copy accepted earlier (R290). -/
def State.canDup (s : State) (f : CanFrame) (x : CanSof) : Bool :=
  s.tt.copies.contains ⟨f.id.val, f.ide, x.pass, x.win⟩

/-- Accept or discard a frame of a pair, or filter it at once without one (R290). -/
def State.canAccept (s : State) (n : Nat) (f : CanFrame) (x : CanSof) : State :=
  if s.ttPair ∧ n < 2 then
    if s.canDup f x then s.count TT_DUP_DISCARD
    else (s.modTt fun t => { t with copies := ⟨f.id.val, f.ide, x.pass, x.win⟩ :: t.copies }).canFilter n f x
  else s.canFilter n f x

/-- Another node's frame starts on the bus. -/
def State.canRxStart (s : State) (n id : Nat) (ide : Bool) : State :=
  let x := s.canOf n
  if x.mode = 0 ∨ x.boff ∨ x.integ ∨ x.busy ∨ s.canKept n then s
  else (s.modCan n fun y => { y with rx := some (s.canSof n (s.refPrio id ide).isSome) }).ttRefStart n id ide

/-! ## The CAN block's registers (R291 to R294) -/

/-- Bit timing is locked while the mode, written or in effect, is not INIT (R269). -/
def State.canTimingLocked (s : State) (i : Nat) : Bool := s.fld (CAN_CTL i) CAN_CTL_MODE != 0 || (s.canOf i).mode != 0

/-- Locked fields of the CAN block (R269, R284, R293). -/
def canLocked (s : State) (a0 i : Nat) : Bool :=
  if a0 = CAN_NBT 0 ∨ a0 = CAN_DBT 0 ∨ a0 = CAN_TDC 0 then s.canTimingLocked i else s.ttOn

/-- The image in application buffer m is bad (R272, R288). -/
def State.abufBad (s : State) (m : Nat) : Bool :=
  let c := if s.bit TT_CTL TT_CTL_PAIR then 0 else s.fld TT_CTL TT_CTL_BUS_SEL
  cwBad (s.bit (CAN_CTL c) CAN_CTL_FD_EN) (s.reg (TT_ABUF_W m 0)).toNat (s.reg (TT_ABUF_W m 1)).toNat

/-- Writes of the CAN block that are discarded whole (R24, R268, R269, R276, R281, R287, R288, R293). -/
def canBad (s : State) (a0 i j : Nat) (w : Word) : Bool :=
  if a0 = CAN_CTL 0 then CAN_CTL_MODE.get w == 3 || (CAN_CTL_MODE.get w == 1 && CAN_CTL_ACK_EN.get w == 0)
  else if a0 = CAN_NBT 0 then
    decide (nbtPeriods w < 80) || decide (CAN_NBT_TSEG2_M1.get w < CAN_NBT_SJW_M1.get w)
      || CAN_NBT_TSEG1_M1.get w == 0 || CAN_NBT_TSEG2_M1.get w == 0
  else if a0 = CAN_DBT 0 then
    decide (dbtPeriods w < 10) || decide (CAN_DBT_DTSEG2_M1.get w < CAN_DBT_DSJW_M1.get w)
  else if a0 = TT_CTL then
    TT_CTL_CC_EXP.get w == 7
      || (TT_CTL_EN.get w == 1 && TT_CTL_SLAVE_TB.get w == 1 && decide (s.fld TT_NTU_NS TT_NTU_NS_NS < 100))
  else if a0 = TT_REF_ID then TT_REF_ID_ID.get w % 8 != 0
  else if a0 = TT_NTU then decide (w.toNat < 0x10000) || decide (0xFFFF0000 < w.toNat)
  else if a0 = TT_CYCLE_LEN then TT_CYCLE_LEN_NTU.get w == 0
  else if a0 = TT_BASE_NS then decide (999999999 < TT_BASE_NS_NS.get w)
  else if a0 = TT_NTU_NS then s.bit TT_CTL TT_CTL_SLAVE_TB && decide (TT_NTU_NS_NS.get w < 100)
  else if a0 = TT_TRIG_CNT then TT_TRIG_CNT_COUNT.get w == 0 || decide (64 < TT_TRIG_CNT_COUNT.get w)
  else if a0 = TT_TRIG_A 0 then s.ttOn && w != s.reg (TT_TRIG_A i)
  else if a0 = TT_TRIG_B 0 then s.ttOn && w != s.reg (TT_TRIG_B i)
  else if a0 = TT_ABUF_CTL 0 then TT_ABUF_CTL_UPDATE.get w == 1 && s.abufBad i
  else j != j

/-- FC_STATE of a controller. -/
def CanSt.fc (x : CanSt) : Nat := if x.boff then 2 else if 128 ≤ x.tec ∨ 128 ≤ x.rec' then 1 else 0

/-- CANn_STATE; the transmit error counter of a controller in bus-off lies beyond its field and reads a free value (log 42). -/
def State.canState (s : State) (n : Nat) : Word :=
  let x := s.canOf n
  let tec := if x.tec < 256 then x.tec else Config.freeNat s.free % 256
  w32 (x.fc + 4 * b2n x.recov + 2 ^ 8 * tec + 2 ^ 16 * (x.rec' % 256)
    + 2 ^ 28 * packBits ((List.range 3).map (fun b => (x.buf b).isSome)))

/-- Registers of the CAN block that read the live state. -/
def canView (s : State) (a0 i : Nat) : Option Word := if a0 = CAN_STATE 0 then some (s.canState i) else none

/-- SRC bits of CAN_SUMMARY (R294). -/
def canSrc (s : State) : Nat :=
  packBits ((List.range 4).map (fun n => decide ((s.reg (CAN_STATUS n)).toNat % 64 ≠ 0)))
    + 16 * b2n (decide ((s.reg TT_STATUS).toNat % 512 ≠ 0))

end Sys2Proof.Machine
end

