-- ==== Sys2Proof/Machine/Qe.lean ====
section
/-! DEFINITION. Quay engines and berths (07): memories, events, trap entry, run control, the watchdog, berths, and the
QECTL block's registers. Engine 24 is the harbourmaster (R196). What the instructions do stands in QeIsa.lean. -/
namespace Sys2Proof.Machine

/-- Engine n. -/
def State.qeOf (s : State) (n : Nat) : QeSt := tget (fun _ => {}) s.qe n
/-- Store engine n. -/
def State.setQe (s : State) (n : Nat) (q : QeSt) : State := { s with qe := tput (fun _ => {}) s.qe n q }

/-- Scratchpad base (R15, R196). -/
def spBase (n : Nat) : Nat := if n = 24 then 0x08100000 else 0x20010000 + n * 0x20000
/-- Instruction RAM base (R171, R196). -/
def iramBase (n : Nat) : Nat := if n = 24 then 0x08000000 else 0x20000000 + n * 0x20000
/-- Instructions that the IRAM holds. -/
def iramSize (n : Nat) : Nat := if n = 24 then 16384 else 4096

/-- The instruction word at an index, which wraps (R171). -/
def State.iword (s : State) (n pc : Nat) : Nat := s.rdN (iramBase n + 8 * (pc % iramSize n)) 8

/-- A low memory word (R173). -/
def State.lowWord (s : State) (n a : Nat) : Nat := s.rdN (spBase n + a) 8
/-- Hardware writes a low memory word. -/
def State.setLow (s : State) (n a v : Nat) : State := s.store (spBase n + a) (leBytes 8 v)

/-- Bits [63:8] of STATUS and the bits above TRAP_PC ignore writes (R173, R175): applied after any scratchpad write. -/
def State.fixLow (s : State) (n : Nat) : State :=
  let st := s.lowWord n 0x58
  let pc := s.lowWord n 0x68
  let s := if st < 256 then s else s.wrN (spBase n + 0x58) 8 (st % 256)
  if pc < iramSize n then s else s.wrN (spBase n + 0x68) 8 (pc % iramSize n)

/-- The STATUS word of an engine (R175). -/
def State.qflags (s : State) (n : Nat) : Nat := s.rd8 (spBase n + 0x58)
/-- Set the STATUS word. -/
def State.setQflags (s : State) (n v : Nat) : State := s.setLow n 0x58 (v % 256)

/-- STATUS bits (R175). -/
def flZ : Nat := 0
/-- N -/ def flN : Nat := 1
/-- C -/ def flC : Nat := 2
/-- V -/ def flV : Nat := 3
/-- IE -/ def flIE : Nat := 4
/-- PIE -/ def flPIE : Nat := 5
/-- TRAP -/ def flTRAP : Nat := 6
/-- RPT -/ def flRPT : Nat := 7

/-- A bit set to a truth value in a number. -/
def withBit (v i : Nat) (b : Bool) : Nat := putBits i i v (b2n b)

/-! ## Berths (R197 to R199) -/

/-- The berth that holds engine n. -/
def State.berthOf (s : State) (n : Nat) : Option Nat :=
  (List.range 24).find? (fun b => n < 24 && bitOf n (s.reg (BERTH_CFG b)).toNat)

/-- The engines of a berth, in rising order. -/
def State.berthEngines (s : State) (b : Nat) : List Nat := (List.range 24).filter (fun n => bitOf n (s.reg (BERTH_CFG b)).toNat)

/-- First queue and number of queues of a berth. -/
def State.berthFq (s : State) (b : Nat) : Nat × Nat := (s.fld (BERTH_FQ b) BERTH_FQ_FQ_BASE, s.fld (BERTH_FQ b) BERTH_FQ_FQ_COUNT)

/-- STATE of a berth: EMPTY, STOPPED, RUNNING (no engine stopped) or MIXED (R203). -/
def State.berthState (s : State) (b : Nat) : Nat :=
  let es := s.berthEngines b
  if es.isEmpty then 0
  else if es.all (fun n => decide ((s.qeOf n).run = .stopped)) then 1
  else if es.all (fun n => decide ((s.qeOf n).run ≠ .stopped)) then 2
  else 3

/-! ## Events (R182, R183) -/

/-- An edge source sets its pending bit. -/
def State.raiseEv (s : State) (n e : Nat) : State := s.setReg (QE_EVENT n) (w32 (withBit (s.reg (QE_EVENT n)).toNat e true))

/-- OFFSET and COND of watch w. -/
def State.fqw (s : State) (n w : Nat) : Nat × Nat :=
  let r := (s.reg (if w < 4 then QE_FQW_LO n else QE_FQW_HI n)).toNat / 2 ^ (8 * (w % 4))
  (r % 64, r / 64 % 4)

/-- Watch w of engine n holds (R183, R196). -/
def State.fqwHolds (s : State) (n w : Nat) : Bool :=
  let (off, cond) := s.fqw n w
  let q := if n = 24 then some off else (s.berthOf n).bind (fun b =>
    if off < (s.berthFq b).2 then some ((s.berthFq b).1 + off) else none)
  match q with
  | none => false
  | some q => if cond = 1 then s.fqComplete q else if cond = 2 then s.fqRoom q else false

/-- QEn_EVENT: the edges latched and the level sources as their conditions hold. -/
def State.qevents (s : State) (n : Nat) : Nat :=
  let e := (s.reg (QE_EVENT n)).toNat
  putBits 15 8 e (packBits ((List.range 8).map (fun w => s.fqwHolds n w)))

/-- Clear edge sources. -/
def State.clearEv (s : State) (n mask : Nat) : State :=
  s.setReg (QE_EVENT n) (s.reg (QE_EVENT n) &&& ~~~ (w32 mask))

/-- The engine is held in BERTH reset (R64, R199). -/
def State.engineHeld (s : State) (n : Nat) : Bool :=
  match s.berthOf n with | some b => s.bit (BERTH_STATE b) BERTH_STATE_RESETTING | none => false

/-- SIGNAL to quay engines from pilot p (R182): one held in BERTH reset loses it (R356). -/
def State.raisePsig (s : State) (p : Nat) : State := s.forN 25 fun s n =>
  if s.engineHeld n then s else
  let s := if s.fld (QE_SRCSEL n) QE_SRCSEL_PSIG0_PL = p then s.raiseEv n 16 else s
  if s.fld (QE_SRCSEL n) QE_SRCSEL_PSIG1_PL = p then s.raiseEv n 17 else s

/-- A notifying descriptor completed on DMA channel c (R182). -/
def State.raiseDmaw (s : State) (c : Nat) : State := s.forN 25 fun s n =>
  let s := if s.fld (QE_SRCSEL n) QE_SRCSEL_DMAW0_CH = c then s.raiseEv n 18 else s
  if s.fld (QE_SRCSEL n) QE_SRCSEL_DMAW1_CH = c then s.raiseEv n 19 else s

/-- UP changed on port p: LINK in each engine of the berth bound to its pair (R182, R198). -/
def State.raiseLink (s : State) (p : Nat) : State := s.forN 24 fun s b =>
  if s.fld (BERTH_RES b) BERTH_RES_KIND = 1 ∧ s.fld (BERTH_RES b) BERTH_RES_INDEX = p / 2 then
    (s.berthEngines b).foldl (fun s n => s.raiseEv n 31) s
  else s

/-- A second-port write to mooring words (R182): MOOR of the engine that watches them. -/
def State.raiseMoor (s : State) (n word : Nat) : State :=
  if s.fld (QE_MOOR n) QE_MOOR_FIRST ≤ word ∧ word ≤ s.fld (QE_MOOR n) QE_MOOR_LAST then s.raiseEv n 28 else s

/-! ## Halts and traps (R185 to R188) -/

/-- Halt causes (R202). -/
inductive HaltCause where
  | debug | brk | wdog | doubleTrap | noVector | step
  deriving DecidableEq, Repr

/-- Code of a halt cause. -/
def HaltCause.code : HaltCause → Nat
  | .debug => 1 | .brk => 2 | .wdog => 3 | .doubleTrap => 4 | .noVector => 5 | .step => 6

/-- The initiator that an engine is. -/
def engineWho (n : Nat) : Initiator := if h : n < 24 then .qe ⟨n, h⟩ else .hm

/-- An instruction in a wait is abandoned: what its global reads have brought is dropped (R192, R215). -/
def State.dropReads (s : State) (n : Nat) : State :=
  s.forget fun x => x.who == engineWho n

/-- A repeat that ends before its count (R192, R229): under REPI the count that remains goes to 0x0060 and RPT is set; under REP nothing
is kept. -/
def State.saveRep (s : State) (n : Nat) : State :=
  match (s.qeOf n).rep with
  | none => s
  | some r =>
    let s := s.setQe n { s.qeOf n with rep := none }
    if r.int then ((s.eccRead (spBase n + 0x58) 8).setLow n 0x60 r.left).setQflags n (withBit (s.qflags n) flRPT true) else s

/-- Halt an engine. One that was STOPPING stays HALTED, its stop forgotten (DESIGN CHOICE, log 125). -/
def State.qeHalt (s : State) (n : Nat) (c : HaltCause) : State :=
  let s := (s.saveRep n).dropReads n
  let s := s.setQe n { s.qeOf n with run := .halted, cause := c.code, step := false, haltReq := false }
  s.setIf (c == .brk || c == .wdog || c == .doubleTrap || c == .noVector) (QE_STATUS n) QE_STATUS_HALTED

/-- What a trap saves: cause code, vector, data address, FETCH, event, instruction word, saved PC (R176, R186). -/
structure TrapInfo where
  cause  : Nat
  vector : Nat
  addr   : Nat := 0
  fetch  : Bool := false
  event  : Nat := 0
  word   : Nat := 0
  pc     : Nat
  deriving DecidableEq, Repr

/-- TRAP_CAUSE word (R176). -/
def TrapInfo.causeWord (t : TrapInfo) : Nat := t.cause + t.event * 2 ^ 8 + b2n t.fetch * 2 ^ 15 + t.addr % 2 ^ 32 * 2 ^ 32

/-- Trap entry (R185, R187, R188): a trap other than EVENT while TRAP = 1 halts with the first trap's words kept; else
the words are saved, TRAP is set and the vector is followed if valid. A vector word that reads as poison is MEMERR in the trap just entered, TRAP
being 1: the engine halts and keeps the words (DEDUCED, log 115). With a vector that is not valid STATUS stays as it was and the trap counts (DESIGN
CHOICE, log 125); a STATUS that reads as poison is taken as it stands (DESIGN CHOICE, log 115). -/
def State.trapEntry (s : State) (n : Nat) (t : TrapInfo) : State :=
  let s := ((s.saveRep n).dropReads n).eccRead (spBase n + 0x58) 8
  let fl := s.qflags n
  let s := s.setQe n { s.qeOf n with wait := .none, skipBp := false }
  if t.cause ≠ 0x10 ∧ bitOf flTRAP fl then (s.qeHalt n .doubleTrap).logEv 0x40 n
  else
    let s := ((s.setLow n 0x68 (t.pc % iramSize n)).setLow n 0x70 t.word).setLow n 0x78 t.causeWord
    let s := if t.cause ≠ 0x10 then (s.count (QE_TRAP_CNT n)).setB (QE_STATUS n) QE_STATUS_TRAP else s
    let fl := withBit (withBit (withBit fl flPIE (bitOf flIE fl)) flIE false) flTRAP true
    let s := s.eccRead (spBase n + 0x100 + 8 * t.vector) 8
    let v := s.lowWord n (0x100 + 8 * t.vector)
    if s.poisonedN (spBase n + 0x100 + 8 * t.vector) 8 then ((s.setQflags n fl).qeHalt n .doubleTrap).logEv 0x40 n
    else if bitOf 15 v then (s.setQflags n fl).setQe n { s.qeOf n with pc := v % iramSize n }
    else s.qeHalt n .noVector

/-! ## Boundaries -/

/-- The four breakpoints of an engine as (index, MODE); the harbourmaster's fields are wider (R195, R202). -/
def State.breakpoints (s : State) (n : Nat) : List (Nat × Nat) :=
  let f (r : Nat) : List (Nat × Nat) :=
    if n = 24 then [(r % 2 ^ 14, r / 2 ^ 14 % 4), (r / 2 ^ 16 % 2 ^ 14, r / 2 ^ 30 % 4)]
    else [(r % 2 ^ 12, r / 2 ^ 12 % 4), (r / 2 ^ 16 % 2 ^ 12, r / 2 ^ 28 % 4)]
  f (s.reg (QE_BP01 n)).toNat ++ f (s.reg (QE_BP23 n)).toNat

/-- The MODE of the breakpoint that an engine at `pc` meets, 0 for none. A prefixed instruction meets it once for its execution as a whole (R195):
before its first iteration, or between iterations of a REPI if it has been set meanwhile (R229). Of two with the same PC the lower-numbered
one that is not off counts (DESIGN CHOICE, log 125). -/
def State.bpMode (s : State) (n : Nat) : Nat :=
  if (s.qeOf n).skipBp || (s.qeOf n).rep.any (fun r => !r.int) then 0
  else ((s.breakpoints n).find? (fun b => b.1 == (s.qeOf n).pc && b.2 != 0)).elim 0 (·.2)

/-- The event interrupt due at a boundary, if any: IE = 1, TRAP = 0 and an enabled source pending (R184). -/
def State.qeIrq (s : State) (n : Nat) : Option Nat :=
  let fl := s.qflags n
  if bitOf flIE fl && !bitOf flTRAP fl then
    (List.range 32).find? (fun e => bitOf e (s.qevents n) && bitOf e (s.reg (QE_EVENT_IE n)).toNat)
  else none

/-- After an instruction: a STEP or a HALT in waiting takes effect (R191). -/
def State.stepDone (s : State) (n : Nat) : State :=
  let q := s.qeOf n
  if q.wait ≠ .none ∨ q.rep.any (fun r => !r.int) then s
  else if q.step then s.qeHalt n .step
  else if q.haltReq then s.qeHalt n .debug
  else s

/-- Take an event interrupt (R184, R186); one that ends a wait under STEP ends the step (DESIGN CHOICE, log 105). -/
def State.takeIrq (s : State) (n e : Nat) : State :=
  (s.trapEntry n { cause := 0x10, vector := 16 + e / 2, event := e, pc := (s.qeOf n).pc }).stepDone n

/-- The engine stalls in a global access that has not ended (R178): it is at no boundary. In a wait it does not: what a read of the waiting
instruction has brought is kept for it (R215, R233). -/
def State.qeStalled (s : State) (n : Nat) : Bool := (s.qeOf n).wait == .none && s.cw.waits.any (fun x => x.who == engineWho n)

/-- Between the iterations of a REP no event, watchdog trap, breakpoint or stop is taken (R192, R229); a waiting stream operand is
a wait and may be abandoned. -/
def QeSt.inRep (q : QeSt) : Bool := q.rep.any (fun r => !r.int) && q.wait == .none

/-- A running engine is at a boundary at which an event may be taken: in a wait, or before an instruction that no breakpoint holds (R188) and
that no STEP has let go. -/
def State.qeEventOpen (s : State) (n : Nat) : Bool :=
  let q := s.qeOf n
  q.run == .running && !s.qeStalled n && !q.inRep && (q.wait != .none || (!q.step && s.bpMode n == 0))

/-- At an instruction boundary of a running engine an enabled pending event is taken. -/
def eventInterrupt (n : Nat) (s : State) : State :=
  if s.qeEventOpen n then
    match s.qeIrq n with
    | some e => s.takeIrq n e
    | none => s
  else s

/-- Expiry of the engine watchdog (R194). -/
def qeWatchdogExpiry (n : Nat) (s : State) : State :=
  let q := s.qeOf n
  if (q.run = .running ∨ q.run = .stopping) ∧ !s.qeStalled n ∧ !q.inRep ∧ s.fld (QE_WDOG n) QE_WDOG_TIMEOUT ≠ 0 then
    if q.wdogHit ∨ bitOf flTRAP (s.qflags n) then
      (((s.eccRead (spBase n + 0x58) 8).qeHalt n .wdog).setB (QE_STATUS n) QE_STATUS_WDOG).logEv 0x41 n
    else
      let s := s.setQe n { q with wdogHit := true }
      (s.trapEntry n { cause := 5, vector := 5, pc := q.pc }).stepDone n
  else s

/-- The engine timer (R183). -/
def qeTimer (n : Nat) (s : State) : State := if s.fld (QE_TIMER n) QE_TIMER_PERIOD ≠ 0 then s.raiseEv n 29 else s

/-! ## Run control (R191, R192) -/

/-- START of a stopped engine (R191, R217). -/
def State.qeStart (s : State) (n : Nat) : State :=
  let q := s.qeOf n
  let s := (s.setReg (QE_EVENT n) 0).setQflags n 0
  let s := ((s.setLow n 0x78 0).setLow n 0x68 q.pc).setLow n 0x70 0
  s.setQe n { run := .running, pc := s.fld (QE_CFG n) (if n = 24 then HM_CFG_ENTRY else QE_CFG_ENTRY) }

/-- START through QEn_CTL: accepted in STOPPED with the engine in a berth, otherwise refused. -/
def State.qeTryStart (s : State) (n : Nat) : State :=
  if (s.qeOf n).run = .stopped ∧ (s.berthOf n).isSome then s.qeStart n else s.setB (QE_STATUS n) QE_STATUS_START_REFUSED

/-- STOP: from RUNNING to STOPPING, in place of a HALT or STEP still to end (R192); from HALTED to STOPPED. -/
def State.qeStop (s : State) (n : Nat) : State :=
  let q := s.qeOf n
  match q.run with
  | .running => s.setQe n { q with run := .stopping, step := false, haltReq := false }
  | .halted => s.setQe n { q with run := .stopped, cause := 0, wait := .none, step := false }
  | _ => s

/-- A pending stop lands at an instruction boundary; a wait is abandoned with the PC at it (R192). -/
def qeStopLands (n : Nat) (s : State) : State :=
  let q := s.qeOf n
  if q.run = .stopping ∧ !s.qeStalled n ∧ !q.inRep then
    let s := (s.saveRep n).dropReads n
    s.setQe n { s.qeOf n with run := .stopped, wait := .none }
  else s

/-- HALT of a running engine: at the next boundary. One that the engine writes itself within an iteration of a repeat waits for the iteration's
end. -/
def State.qeDebugHalt (s : State) (n : Nat) : State :=
  if (s.qeOf n).run = .running then
    (if s.qeStalled n || (s.qeOf n).inRep then s.setQe n { s.qeOf n with haltReq := true } else s.qeHalt n .debug)
  else s

/-- RESUME of a halted engine. -/
def State.qeResume (s : State) (n : Nat) : State :=
  let q := s.qeOf n
  if q.run = .halted then s.setQe n { q with run := .running, cause := 0, skipBp := true, wait := .none } else s

/-- STEP of a halted engine: it runs for one instruction, its wait included (R191). -/
def State.qeStepArm (s : State) (n : Nat) : State :=
  let q := s.qeOf n
  if q.run = .halted then s.setQe n { q with run := .running, cause := 0, step := true, skipBp := true, wait := .none } else s

/-- The effect of the bits of QEn_CTL. -/
def State.qeCtl (s : State) (n : Nat) (w : Word) : State :=
  if QE_CTL_START.get w ≠ 0 then s.qeTryStart n
  else if QE_CTL_STOP.get w ≠ 0 then s.qeStop n
  else if QE_CTL_HALT.get w ≠ 0 then s.qeDebugHalt n
  else if QE_CTL_RESUME.get w ≠ 0 then s.qeResume n
  else if QE_CTL_STEP.get w ≠ 0 then s.qeStepArm n
  else s

/-- BERTHb_CTL START (R199). -/
def State.berthStart (s : State) (b : Nat) : State :=
  let es := s.berthEngines b
  if es.all (fun n => decide ((s.qeOf n).run = .stopped)) then es.foldl State.qeStart s
  else (es.filter (fun n => decide ((s.qeOf n).run ≠ .stopped))).foldl (fun s n => s.setB (QE_STATUS n) QE_STATUS_START_REFUSED) s

/-- BERTHb_CTL STOP. -/
def State.berthStop (s : State) (b : Nat) : State := (s.berthEngines b).foldl State.qeStop s

/-- BERTHb_CTL NOTIFY. -/
def State.berthNotify (s : State) (b : Nat) : State := (s.berthEngines b).foldl (fun s n => s.raiseEv n 30) s

/-- BERTHb_CTL RESET: the berth enters BERTH reset, its engines stop, code 0x04 is raised (R199, R432); a request during the reset is
absorbed (R473). -/
def State.berthReset (s : State) (b : Nat) : State :=
  if s.bit (BERTH_STATE b) BERTH_STATE_RESETTING then s
  else ((s.berthStop b).setB (BERTH_STATE b) BERTH_STATE_RESETTING).logEv 0x04 b

/-- The rest of a BERTH reset (R199): stops land; once every engine of the berth is stopped, events are cleared and the berth's queues are
flushed. An engine that has started meanwhile is stopped too. -/
def berthResetEnd (b : Nat) (s : State) : State :=
  if s.bit (BERTH_STATE b) BERTH_STATE_RESETTING then
    let es := s.berthEngines b
    let s := es.foldl (fun s n => qeStopLands n (s.qeStop n)) s
    if es.all (fun n => decide ((s.qeOf n).run = .stopped)) then
      let s := es.foldl (fun s n => s.setReg (QE_EVENT n) 0) s
      let s := (List.range (s.berthFq b).2).foldl (fun s k => s.fqFlush ((s.berthFq b).1 + k)) s
      s.clrB (BERTH_STATE b) BERTH_STATE_RESETTING
    else s
  else s

/-- The effect of the bits of BERTHb_CTL. -/
def State.berthCtl (s : State) (b : Nat) (w : Word) : State :=
  if BERTH_CTL_START.get w ≠ 0 then s.berthStart b
  else if BERTH_CTL_STOP.get w ≠ 0 then s.berthStop b
  else if BERTH_CTL_RESET.get w ≠ 0 then s.berthReset b
  else if BERTH_CTL_NOTIFY.get w ≠ 0 then s.berthNotify b
  else s

/-! ## The QECTL block's registers -/

/-- Number of bits set among the low `n`. -/
def popCount (n v : Nat) : Nat := ((List.range n).filter (fun i => bitOf i v)).length

/-- Whether berths b and c would hold something in common, given b's words (R197). -/
def State.berthClash (s : State) (b c : Nat) (cfg res fq : Nat) : Bool :=
  let rc := (s.reg (BERTH_RES c)).toNat
  let fc := (s.reg (BERTH_FQ c)).toNat
  let n1 := BERTH_FQ_FQ_COUNT.get (w32 fq)
  let n2 := BERTH_FQ_FQ_COUNT.get (w32 fc)
  let b1 := BERTH_FQ_FQ_BASE.get (w32 fq)
  let b2 := BERTH_FQ_FQ_BASE.get (w32 fc)
  let k1 := res % 4
  decide (b ≠ c) && ((cfg &&& (s.reg (BERTH_CFG c)).toNat) != 0
    || (k1 == rc % 4 && (k1 == 1 || k1 == 3) && res / 16 % 8 == rc / 16 % 8)
    || (k1 == 2 && rc % 4 == 2 && (res / 256 % 16 &&& rc / 256 % 16) != 0)
    || (decide (0 < n1) && decide (0 < n2) && decide (b1 < b2 + n2) && decide (b2 < b1 + n1)))

/-- A write to a berth's configuration that R197 discards, given the three words as they would be. -/
def State.berthBad (s : State) (b : Nat) (cfg res fq : Nat) : Bool :=
  let named := (s.reg (BERTH_CFG b)).toNat ||| cfg
  anyN 24 (fun n => bitOf n named && decide ((s.qeOf n).run ≠ .stopped))
    || decide (8 < popCount 24 cfg)
    || anyN 24 (fun c => s.berthClash b c cfg res fq)
    || decide (512 < BERTH_FQ_FQ_BASE.get (w32 fq) + BERTH_FQ_FQ_COUNT.get (w32 fq))

/-- Reserved values of BERTHb_RES (R203). -/
def berthResReserved (w : Word) : Bool :=
  let k := BERTH_RES_KIND.get w
  (k == 1 && decide (2 < BERTH_RES_INDEX.get w)) || (k != 2 && BERTH_RES_CAN.get w != 0)

/-- Reserved COND in a word of queue watches (R183). -/
def fqwReserved (w : Word) : Bool := anyN 4 (fun i => w.toNat / 2 ^ (8 * i + 6) % 4 == 3)

/-- Writes of the QECTL block that are discarded whole (R24, R183, R191, R196, R197, R199, R202, R203). -/
def qeBad (s : State) (who : Initiator) (a0 i : Nat) (w : Word) : Bool :=
  let cfg := (s.reg (BERTH_CFG i)).toNat
  let res := (s.reg (BERTH_RES i)).toNat
  let fq := (s.reg (BERTH_FQ i)).toNat
  if a0 = QE_CTL 0 then decide (1 < popCount 5 w.toNat) || (i == 24 && who != .debug)
  else if a0 = QE_FQW_LO 0 ∨ a0 = QE_FQW_HI 0 then fqwReserved w
  else if a0 = QE_MOOR 0 then decide (QE_MOOR_LAST.get w < QE_MOOR_FIRST.get w)
  else if a0 = QE_BP01 0 ∨ a0 = QE_BP23 0 then QE_BP01_MODE0.get w == 3 || QE_BP01_MODE1.get w == 3
  else if a0 = HM_BP01 ∨ a0 = HM_BP23 then HM_BP01_MODE0.get w == 3 || HM_BP01_MODE1.get w == 3
  else if a0 = BERTH_CFG 0 then s.berthBad i (w.toNat % 2 ^ 24) res fq
  else if a0 = BERTH_RES 0 then berthResReserved w || s.berthBad i cfg w.toNat fq
  else if a0 = BERTH_FQ 0 then decide (64 < BERTH_FQ_FQ_COUNT.get w) || s.berthBad i cfg res w.toNat
  else if a0 = BERTH_CTL 0 then decide (1 < popCount 4 w.toNat)
  else false

/-- QEn_CFG is locked unless the engine is STOPPED; the berth registers have R197 in place of a lock. -/
def qeLocked (s : State) (a0 i : Nat) : Bool :=
  if a0 = QE_CFG 0 then decide ((s.qeOf i).run ≠ .stopped)
  else if a0 = HM_CFG then decide ((s.qeOf 24).run ≠ .stopped)
  else false

/-- What a write of the QECTL block does beside setting its fields. A KICK leaves TIMEOUT unchanged (R194). -/
def qeHook (a0 i : Nat) (old w : Word) (s : State) : State :=
  if a0 = QE_CTL 0 then s.qeCtl i w
  else if a0 = QE_EVENT_SET 0 then s.setReg (QE_EVENT i) (s.reg (QE_EVENT i) ||| (w &&& QE_EVENT_SET_SOFT.mask))
  else if a0 = QE_WDOG 0 then
    if QE_WDOG_KICK.get w ≠ 0 then (s.setReg (QE_WDOG i) old).setQe i { s.qeOf i with wdogHit := false } else s
  else if a0 = BERTH_CTL 0 then s.berthCtl i w
  else s

/-- QEn_STATE of an engine (R202). -/
def QeSt.stateWord (q : QeSt) : Word :=
  let r := match q.run with | .stopped => 0 | .running => 1 | .stopping => 2 | .halted => 3
  let w := match q.wait with | .events _ _ => 1 | .until _ => 1 | _ => 0
  w32 (r + 16 * q.cause + 128 * w + 2 ^ 16 * q.pc)

/-- Registers of the QECTL block that read the live state. -/
def qeView (s : State) (a0 i : Nat) : Option Word :=
  if a0 = QE_STATE 0 then some (s.qeOf i).stateWord
  else if a0 = QE_EVENT 0 then some (w32 (s.qevents i))
  else if a0 = BERTH_STATE 0 then some (BERTH_STATE_STATE.put (s.reg (BERTH_STATE i)) (s.berthState i))
  else none

/-- SRC bits of QECTL_SUMMARY (R205). -/
def qeSrc (s : State) : Nat := packBits ((List.range 25).map (fun n => s.reg (QE_STATUS n) != 0))

end Sys2Proof.Machine
end

