-- ==== Sys2Proof/Machine/Mailbox.lean ====
section
/-! DEFINITION. Mailbox hardware and doorbells (15, R402 to R410, R428 to R430). What the harbourmaster's firmware does with messages
stands in HmCmd.lean. -/
namespace Sys2Proof.Machine

/-- Mailbox m. -/
def State.mbOf (s : State) (m : Nat) : MbSt := tget (fun _ => {}) s.mb m
/-- Store mailbox m. -/
def State.setMb (s : State) (m : Nat) (x : MbSt) : State := { s with mb := tput (fun _ => {}) s.mb m x }

/-- CLASS and INSTANCE of an initiator (R406). -/
def senderOf : Initiator → Nat × Nat
  | .pcie => (0, 0)
  | .hostBus => (1, 0)
  | .qspi => (2, 0)
  | .lhPort => (3, 0)
  | .debug => (4, 0)
  | .hm => (8, 0)
  | .qe n => (9, n.val)
  | .dmaRead ch => (10, ch.val)
  | .dmaWrite ch => (10, ch.val)

/-- The initiator may write data words and GO of mailbox m (R402). -/
def mbMaySend (who : Initiator) (m : Nat) : Bool := if m < 16 then who != .hm else who == .hm
/-- The initiator may release mailbox m (R402). -/
def mbMayRelease (who : Initiator) (m : Nat) : Bool := !mbMaySend who m

/-- Why a write to a mailbox's data words or GO is rejected: 1 FULL, 2 CLAIMED, 3 SIDE (R402, R403, R405). -/
def State.mbSendCause (s : State) (who : Initiator) (m : Nat) : Option Nat :=
  let x := s.mbOf m
  if !mbMaySend who m then some 3
  else if x.full then some 1
  else match x.claim with
    | some c => if c = senderOf who then none else some 2
    | none => none

/-- Why a write of the MAILBOX block is rejected and ends with a bus error; `i` is the mailbox. -/
def State.mbCause (s : State) (who : Initiator) (a0 i : Nat) (w : Word) : Option Nat :=
  if a0 = MB_DATA 0 0 then s.mbSendCause who i
  else if a0 = MB_CTL 0 then
    if MB_CTL_GO.get w ≠ 0 then s.mbSendCause who i
    else if MB_CTL_RELEASE.get w ≠ 0 ∧ !mbMayRelease who i then some 3
    else none
  else none

/-- A rejection is counted, and the first one is kept (R405). -/
def State.mbReject (s : State) (who : Initiator) (m cause : Nat) : State :=
  let s := s.count MB_REJECT_CNT
  if s.bit MB_STATUS MB_STATUS_REJECT then s
  else
    let (c, k) := senderOf who
    (s.setB MB_STATUS MB_STATUS_REJECT).setReg MB_REJECT_INFO (w32 (m + 2 ^ 8 * cause + 2 ^ 16 * k + 2 ^ 28 * c))

/-- Writes of the MAILBOX block that end with a bus error for want of a right to a doorbell register (R410, log 70). -/
def mbWrErr (who : Initiator) (a0 : Nat) : Bool :=
  if a0 = MB_DB_OUT_SET then (match who with | .hm => false | .qe _ => false | _ => true)
  else if a0 = MB_DB_IN then who != .hm
  else if a0 = MB_DB_OUT then who == .hm
  else false

/-- Writes of the MAILBOX block that are discarded whole (R24, R403, R404). -/
def mbBad (a0 : Nat) (w : Word) : Bool :=
  if a0 = MB_CTL 0 then MB_CTL_GO.get w != 0 && MB_CTL_RELEASE.get w != 0
  else if a0 = MB_CLAIM_TIME then MB_CLAIM_TIME_US.get w == 0
  else false

/-- An accepted data write claims the mailbox, or keeps the claim alive (R403). -/
def State.mbClaim (s : State) (who : Initiator) (m : Nat) : State :=
  s.setMb m { s.mbOf m with claim := some (senderOf who), at' := s.time.tick }

/-- GO (R404, R406 to R408). -/
def State.mbGo (s : State) (who : Initiator) (m : Nat) : State :=
  let x := s.mbOf m
  let seq := (x.seq + 1) % 2 ^ 16
  let (c, k) := senderOf who
  let s := s.setMb m { x with full := true, claim := none, seq := seq }
  let s := s.setReg (MB_STAMP m) (w32 (seq + 2 ^ 16 * k + 2 ^ 28 * c))
  if m < 16 then
    (({ s with arrival := s.arrival ++ [m] } : State).setB MB_STATUS MB_STATUS_ARRIVED).raiseEv 24 27
  else s.setB MB_STATUS MB_STATUS_RESPONSE

/-- RELEASE (R404, R408). -/
def State.mbRelease (s : State) (m : Nat) : State :=
  let x := s.mbOf m
  if !x.full then s
  else
    let s := s.setMb m { x with full := false }
    if 16 ≤ m then s.raiseEv 24 26 else s

/-- What a write of the MAILBOX block does beside setting its fields. -/
def mbHook (who : Initiator) (a0 i : Nat) (w : Word) (s : State) : State :=
  if a0 = MB_DATA 0 0 then s.mbClaim who i
  else if a0 = MB_CTL 0 then
    if MB_CTL_GO.get w ≠ 0 then s.mbGo who i else if MB_CTL_RELEASE.get w ≠ 0 then s.mbRelease i else s
  else if a0 = MB_DB_IN_SET then
    if w = 0 then s
    else ((s.setReg MB_DB_IN (s.reg MB_DB_IN ||| w)).setB MB_STATUS MB_STATUS_DB_IN).raiseEv 24 25
  else if a0 = MB_DB_OUT_SET then s.setReg MB_DB_OUT (s.reg MB_DB_OUT ||| w)
  else s

/-- The claim time has passed without a GO (R403). -/
def claimLapsed (m : Nat) (s : State) : State :=
  let x := s.mbOf m
  if x.claim.isSome ∧ x.at' + 250 * s.fld MB_CLAIM_TIME MB_CLAIM_TIME_US ≤ s.time.tick then
    (s.setMb m { x with claim := none }).setB MB_STATUS MB_STATUS_CLAIM_LAPSED
  else s

/-- Registers of the MAILBOX block that read the live state. -/
def mbView (s : State) (a0 i : Nat) : Option Word :=
  if a0 = MB_CTL 0 then some (w32 (2 ^ 8 * b2n (s.mbOf i).full + 2 ^ 9 * b2n (s.mbOf i).claim.isSome))
  else if a0 = MB_ARRIVAL then some (match s.arrival with | [] => 0 | m :: _ => w32 (m + 2 ^ 31))
  else if a0 = MB_FULL then some (w32 (packBits ((List.range 32).map (fun m => (s.mbOf m).full))))
  else if a0 = MB_CLAIMED then some (w32 (packBits ((List.range 32).map (fun m => (s.mbOf m).claim.isSome))))
  else none

/-- What a read of the MAILBOX block changes: the harbourmaster's read of MB_ARRIVAL pops (R407). -/
def mbRead (who : Initiator) (a0 : Nat) (s : State) : State :=
  if a0 = MB_ARRIVAL ∧ who = .hm then { s with arrival := s.arrival.drop 1 } else s

/-- CORE reset of the MAILBOX block (R409). -/
def State.mbCoreReset (s : State) : State :=
  let s : State := { s.forN 32 (fun s m => s.setMb m { s.mbOf m with full := false, claim := none }) with arrival := [] }
  ((s.setReg MB_DB_IN 0).setReg MB_DB_OUT 0).setReg MB_STATUS 0

/-- SRC bits of MAILBOX_SUMMARY (R430). -/
def mbSrc (s : State) : Nat := (s.reg MB_STATUS).toNat % 32

end Sys2Proof.Machine
end

