-- ==== Sys2Proof/Machine/Logbook.lean ====
section
/-! DEFINITION. The LOGBOOK block (16, R431, R435 to R439, R458): commands, freeze and thaw, breakwater windows, the counts of the
lighthouse that MRAM keeps. -/
namespace Sys2Proof.Machine

/-- Words 0 to 27 of a record as READ shows them (R433); one whose two copies were bad has no CRC and reads 0 there (R437). -/
def recImage (w : List Nat) (bad : Bool) : List Nat := slice w 0 26 ++ [if bad then 0 else crc32 ((slice w 0 26).flatMap (leBytes 4)), 0]

/-- The configuration words that WRITE_CFG would write break a rule of R433 or R436. -/
def State.logCfgBad (s : State) : Bool :=
  let cfg := (s.reg (LOG_REC 8)).toNat
  let win := (s.reg (LOG_REC 9)).toNat
  bitsOf 15 6 cfg != 0 || decide (3600000 < win) || (win != 0 && bitsOf 31 16 cfg == 0)

/-- LOG_CMD READ: the working copy is loaded into LOG_REC0 to LOG_REC27 (R439). -/
def State.logRead (s : State) (c : Nat) : State :=
  let s := s.loadRec c
  let l := recImage (s.work c) (s.log.bad.contains c)
  s.forN 28 fun s i => s.setReg (LOG_REC i) (w32 (l.getD i 0))

/-- LOG_CMD WRITE_CFG: LOG_REC7 to LOG_REC9 become words 7 to 9. -/
def State.logWriteCfg (s : State) (c : Nat) : State :=
  let s := s.loadRec c
  (s.forN 3 fun s i => s.recPut c (7 + i) (s.reg (LOG_REC (7 + i))).toNat).markDirty c

/-- LOG_CMD CLEAR: words 0 to 6 and the bins take their values for COUNT 0. -/
def State.logClear (s : State) (c : Nat) : State :=
  let s := s.loadRec c
  (s.setWork c ([0, 0, 0, 0, 0xFFFFFFFF, 0, 0] ++ slice (s.work c) 7 3 ++ List.replicate 16 0)).markDirty c

/-- LOG_CMD (R439): the operation is done, and BUSY reads 1 until it ends. -/
def State.logCmd (s : State) (w : Word) : State :=
  let c := s.fld LOG_SEL LOG_SEL_CODE
  let s := match LOG_CMD_OP.get w with
    | 1 => s.logRead c
    | 2 => s.logWriteCfg c
    | _ => s.logClear c
  s.setReg LOG_CMD (w32 (2 ^ 31))

/-- A LOG_CMD operation has ended. -/
def logOperationEnd (s : State) : State := s.setReg LOG_CMD 0

/-- A thaw: once no freeze is left, FROZEN reads 0 and the staged events are applied (R438). -/
def State.thawed (s : State) : State := if s.logFrozen then s else s.clrB LOG_CTL LOG_CTL_FROZEN

/-- The last freeze has ended: the staged events are applied in order (R438). -/
def stagedEventsApply (s : State) : State := if s.logFrozen then s else s.applyStaged

/-- The lighthouse port's request in progress is answered OK; a STATUS FRAME that has come meanwhile stays (R446). -/
def State.lhDone (s : State) : State :=
  if s.lh.busy then { s with lh := { s.lh with busy := false, resp := { s.lh.resp with status := if s.lh.resp.status = 1 then 1 else 0 } } } else s

/-- Every changed record is in MRAM: the freeze holds, and a LOG_FREEZE of the lighthouse port is answered (R438, R447). While VIN is not valid no
record is written (R462), and a freeze that needs one does not come to hold. -/
def frozen (s : State) : State :=
  if s.logFrozen ∧ !s.bit LOG_CTL LOG_CTL_FROZEN then
    let s := s.writeDirty
    if s.log.dirty.isEmpty then (s.setB LOG_CTL LOG_CTL_FROZEN).lhDone else s
  else s

/-- MRAM is not current 1 ms after a LOG_FREEZE: the freeze holds with MRAM as it stands (R447). -/
def lhFreezeTimeout (s : State) : State :=
  if s.lh.freeze ∧ s.lh.busy then s.lhDone else s

/-- A changed record is written to MRAM within 10 ms (R437); the event names its code. While the logbook is frozen MRAM is current and
nothing changes. -/
def recordWrite (c : Nat) (s : State) : State := if s.log.dirty.contains c then s.writeRecord c else s

/-- A breakwater window closes (R436), BW_WIN ms after it opened. -/
def breakwaterWindowEnd (c : Nat) (s : State) : State :=
  if (s.bwOpen c).any (fun x => !s.bwMayEnd x) then s
  else { s with log := { s.log with win := tput (fun _ => none) s.log.win c none } }

/-- Writes of the LOGBOOK block that are discarded whole (R24, R431, R439). -/
def logBad (s : State) (a0 : Nat) (w : Word) : Bool :=
  if a0 = LOG_EVENT then decide (LOG_EVENT_CODE.get w < 0x80)
  else if a0 = LOG_CMD then
    let op := LOG_CMD_OP.get w
    op == 0 || (op != 1 && s.logFrozen) || (op == 2 && s.logCfgBad)
  else false

/-- What a write of the LOGBOOK block does beside setting its fields. -/
def logHook (a0 i : Nat) (old w : Word) (s : State) : State :=
  if a0 = LOG_CTL then s.thawed
  else if a0 = LOG_EVENT then s.logEv (LOG_EVENT_CODE.get w) (LOG_EVENT_VALUE.get w)
  else if a0 = LOG_CMD then s.logCmd w
  else if a0 = LOG_REC 0 then (if 7 ≤ i ∧ i ≤ 9 then s else s.setReg (LOG_REC i) old)
  else s

/-- Registers of the LOGBOOK block that read the live state. -/
def logView (s : State) (a0 : Nat) : Option Word :=
  if a0 = LOG_STAGED then some (w32 s.log.staged.length)
  else if a0 = LOG_CTL then some (LOG_CTL_LH_FREEZE.put (s.reg LOG_CTL) (b2n s.lh.freeze))
  else none

/-- SRC bits of LOGBOOK_SUMMARY (R458). -/
def logSrc (s : State) : Nat := (s.reg LOG_STATUS).toNat % 8

/-! ## Operating seconds and power cycles (R435) -/

/-- A second of the lighthouse clock with VIN in range; the count saturates as every counter does (R20, R22). -/
def operatingSecond (s : State) : State := if s.rst.vinBad ∨ s.rst.lhOff then s else s.count LH_OPSEC

/-- The lighthouse writes its operating seconds to MRAM, unless VIN is not valid (R462). -/
def opsecSave (s : State) : State :=
  if s.rst.lhOff ∨ s.rst.vinBad then s else { s with lh := { s.lh with nvOps := (s.reg LH_OPSEC).toNat } }

/-- Power-up of the lighthouse: its registers and those of DEBUG at their reset values (R461), the stored counts read back, the power cycles raised
by 1 and written back; code 0x01, and 0x02 of the CHIP reset that lasts, are held for the recorder (R435, R478). -/
def State.lhPowerUp (s : State) : State :=
  let pcc := min 0xFFFFFFFF (s.lh.nvPcc + 1)
  let nv := s.lh.nvPcc
  let s : State := { s with
    regs := s.regs.filter (fun p => blockOf p.1 != 1 && blockOf p.1 != 22), tap := {},
    lh := { nvOps := s.lh.nvOps, nvPcc := pcc, codes := [(0x01, pcc), (0x02, 0)] } }
  ((s.setReg LH_OPSEC (w32 s.lh.nvOps)).setReg LH_PCC (w32 nv)).count LH_PCC

end Sys2Proof.Machine
end

