-- ==== Sys2Proof/Machine/Profile.lean ====
section
/-! DEFINITION. Motion arithmetic (R296, R301, R302, R304, R306, R316): the per-tick rules on integers aligned to
2^-64, with no state. -/
namespace Sys2Proof.Machine

/-- Clamp to an interval. -/
def clampI (lo hi x : Int) : Int := max lo (min hi x)
/-- Absolute value. -/
def absI (x : Int) : Int := if x < 0 then -x else x

/-- The braking test of R301: from speed `u` with deceleration `d` and jerk `j`, distance `e` is needed or more.
The term k = u·d·d/j is brought to a common denominator, so the comparison is exact. -/
def brakeTest (u d j e : Int) : Bool :=
  if j = 0 then decide (u * (u + d) ≥ 2 * d * e) else decide (j * (u * (u + d)) + u * d * d ≥ 2 * d * e * j)

/-- The test of R304: deceleration `d` can still stop at the target. -/
def stopsIn (u d j e : Int) : Bool :=
  if j = 0 then decide (u * (u + d) ≤ 2 * d * e) else decide (j * (u * (u + d)) + u * d * d ≤ 2 * d * e * j)

/-- The change applied moves from the previous one towards the requested one by at most the jerk (R302). -/
def jerkChange (req prev j : Int) : Int := if j = 0 then req else prev + clampI (-j) j (req - prev)

/-- The speed that R301 asks for, and whether it is braking. -/
def profReq (u e a d vmax j : Int) : Int × Bool :=
  if u < 0 then (u + d, false)
  else if brakeTest u d j e then (max (u - d) d, true)
  else if u > vmax then (max (u - d) vmax, false)
  else (min (u + a) vmax, false)

/-- One tick of a position move (R301, R302): from distance `e` to the target, velocity `v` and the previous change;
gives the new velocity, the change applied, and whether the target is reached. -/
def profStep (e v a d vmax j prev : Int) : Int × Int × Bool :=
  let g : Int := if e > 0 then 1 else -1
  let u := g * v
  let (req, braking) := profReq u (absI e) a d vmax j
  let c := jerkChange (req - u) (g * prev) j
  let u' := if braking then max (u + c) (if j = 0 then u + c else d) else u + c
  (g * u', g * c, decide (u' ≥ absI e))

/-- The deceleration in use after a tick's test of DEC (R304), and whether it was deferred. -/
def adoptDec (dcur dnew u j e : Int) : Int × Bool :=
  if dnew ≥ dcur then (dnew, false) else if stopsIn u dnew j e then (dnew, false) else (dcur, true)

/-- One tick of a velocity move (R306). -/
def velStep (v vt a d : Int) : Int :=
  let v1 := if v < vt then min (v + (if v ≥ 0 then a else d)) vt else v
  if v1 > vt then max (v1 - (if v1 > 0 then d else a)) vt else v1

/-- One tick of a deceleration to standstill: the new velocity and the change applied. -/
def stopStep (v d j prev : Int) : Int × Int :=
  let g : Int := if v < 0 then -1 else 1
  let u := g * v
  let c := jerkChange (max (u - d) 0 - u) (g * prev) j
  (g * max (u + c) 0, g * c)

/-- One tick towards a homing speed `vt` ≥ 0 in a fixed direction, under ACC, DEC and JERK (R318). -/
def seekStep (u vt a d j prev : Int) : Int × Int :=
  let req := if u > vt then max (u - d) vt else min (u + a) vt
  let c := jerkChange (req - u) prev j
  (max (u + c) 0, c)

/-- One tick of a cyclic member (R316), in units of 2^-24: the step, and whether it was clamped. -/
def followStep (r : Int) (nLeft : Nat) (vmax : Int) : Int × Bool :=
  let st := Int.tdiv r (max nLeft 1)
  if absI st > vmax then ((if r < 0 then -vmax else vmax), true) else (st, false)

/-- The motion clocks of a tick's step edges (R310). -/
def stepEdges (m width setup : Nat) (reversal : Bool) : List Nat :=
  (List.range m).map (fun j => if reversal then max (j * 125 / m) (setup + j * (width + 13)) else j * 125 / m)

end Sys2Proof.Machine
end

