-- ==== Sys2Proof/Machine/Motion.lean ====
section
/-! DEFINITION. Axes, groups and homing (11): commands, the profile tick, limits, homing, redefinition of the position,
safe state, and the MOTION block's registers. -/
namespace Sys2Proof.Machine

/-- Axis n. -/
def State.axOf (s : State) (n : Nat) : AxSt := tget (fun _ => {}) s.ax n
/-- Store axis n. -/
def State.setAx (s : State) (n : Nat) (x : AxSt) : State := { s with ax := tput (fun _ => {}) s.ax n x }
/-- Group g. -/
def State.grpOf (s : State) (g : Nat) : GrpSt := tget (fun _ => {}) s.grp g
/-- Store group g. -/
def State.setGrp (s : State) (g : Nat) (x : GrpSt) : State := { s with grp := tput (fun _ => {}) s.grp g x }
/-- Chopper n. -/
def State.chopOf (s : State) (n : Nat) : ChopSt := tget (fun _ => {}) s.chop n
/-- Store chopper n. -/
def State.setChop (s : State) (n : Nat) (x : ChopSt) : State := { s with chop := tput (fun _ => {}) s.chop n x }

/-- A phase with all its EN signals low. -/
def ChopPhase.switchOff (p : ChopPhase) : ChopPhase :=
  { p with ph := .off, in1 := false, en1 := false, in2 := false, en2 := false }
/-- All EN signals of bridge axis n go low (R330). -/
def State.chopOff (s : State) (n : Nat) : State :=
  if n < 8 then
    let c := s.chopOf n
    s.setChop n { c with a := c.a.switchOff, b := c.b.switchOff }
  else s

/-- The velocity of axis n is 0: its stall indication clears (R336). -/
def State.stallEnd (s : State) (n : Nat) : State :=
  if n < 8 then s.setChop n { s.chopOf n with short := 0, stall := false } else s

/-- Integer position, rounded down. -/
def posInt (p : Int) : Int := p / 2 ^ 24
/-- A position at an integer. -/
def posOf (i : Int) : Int := i * 2 ^ 24
/-- The position limit (R296). -/
def posMax : Int := 2 ^ 47 - 1

/-! ## Settings of an axis in 2^-64 units -/

/-- MODE: 0 OFF, 1 POSITION, 2 VELOCITY, 3 GROUP. -/
def State.axMode (s : State) (n : Nat) : Nat := s.fld (AX_CFG n) AX_CFG_MODE
/-- OUT: 0 NONE, 1 STEP_DIR, 2 BRIDGE. -/
def State.axOut (s : State) (n : Nat) : Nat := s.fld (AX_CFG n) AX_CFG_OUT
/-- VMAX -/ def State.axVmax (s : State) (n : Nat) : Int := (s.reg (AX_VMAX n)).toNat * 2 ^ 40
/-- ACC -/ def State.axAcc (s : State) (n : Nat) : Int := (s.reg (AX_ACC n)).toNat * 2 ^ 32
/-- DEC -/ def State.axDec (s : State) (n : Nat) : Int := (s.reg (AX_DEC n)).toNat * 2 ^ 32
/-- EDEC -/ def State.axEdec (s : State) (n : Nat) : Int := (s.reg (AX_EDEC n)).toNat * 2 ^ 32
/-- JERK -/ def State.axJerk (s : State) (n : Nat) : Int := (s.reg (AX_JERK n)).toNat * 2 ^ 16
/-- VTARGET -/ def State.axVtarget (s : State) (n : Nat) : Int := sgn 32 (s.reg (AX_VTARGET n)).toNat * 2 ^ 40
/-- TARGET -/ def State.axTarget (s : State) (n : Nat) : Int :=
  sgn 48 ((s.reg (AX_TARGET_LO n)).toNat + 2 ^ 32 * s.fld (AX_TARGET_HI n) AX_TARGET_HI_TARGET)
/-- Set TARGET. -/ def State.setTarget (s : State) (n : Nat) (t : Int) : State :=
  (s.setReg (AX_TARGET_LO n) (w32 (unsgn 48 t))).setReg (AX_TARGET_HI n) (w32 (unsgn 48 t / 2 ^ 32))
/-- NEXT -/ def State.axNext (s : State) (n : Nat) : Int := sgn 32 (s.reg (AX_NEXT n)).toNat
/-- SOFT_MIN -/ def State.axSoftMin (s : State) (n : Nat) : Int := sgn 32 (s.reg (AX_SOFT_MIN n)).toNat
/-- SOFT_MAX -/ def State.axSoftMax (s : State) (n : Nat) : Int := sgn 32 (s.reg (AX_SOFT_MAX n)).toNat

/-- A target outside enabled soft limits (R308). -/
def State.softBad (s : State) (n : Nat) (t : Int) : Bool :=
  s.bit (AX_CFG n) AX_CFG_SOFT_EN && (decide (t < s.axSoftMin n) || decide (s.axSoftMax n < t))

/-- The active limit in a direction, with LIMIT_EN (R307). -/
def State.limitAt (s : State) (n : Nat) (positive : Bool) : Bool :=
  s.bit (AX_CFG n) AX_CFG_LIMIT_EN && (if positive then (s.axOf n).limP else (s.axOf n).limN)

/-- The direction of an active limit that acts: the velocity heads into it, or would in this tick (R307). -/
def State.limitMet (s : State) (n : Nat) (old new : Int) : Option Bool :=
  if old ≠ 0 ∧ s.limitAt n (decide (old > 0)) then some (decide (old > 0))
  else if new ≠ 0 ∧ s.limitAt n (decide (new > 0)) then some (decide (new > 0))
  else none

/-- Set LIMIT_POS or LIMIT_NEG. -/
def State.setLimitFlag (s : State) (n : Nat) (positive : Bool) : State :=
  if positive then s.setB (AX_STATUS n) AX_STATUS_LIMIT_POS else s.setB (AX_STATUS n) AX_STATUS_LIMIT_NEG

/-- The group that names axis n (R312). -/
def State.groupOf (s : State) (n : Nat) : Option Nat :=
  (List.range 8).find? (fun g => bitOf n (s.reg (GRP_MEMBERS g)).toNat)
/-- The members of a group, ascending. -/
def State.grpAxes (s : State) (g : Nat) : List Nat := (List.range 32).filter (fun n => bitOf n (s.reg (GRP_MEMBERS g)).toNat)

/-! ## Moving -/

/-- The step edges of the latest tick that are still to come: clock c of the tick, 8 ns each, from the tick's instant (R310). -/
def State.edgesLeft (s : State) (n : Nat) : Nat :=
  ((s.axOf n).edges.filter (fun c => decide (s.time.tick < s.tickBegan + 2 * c))).length

/-- The commanded integer position, which counts the steps that have been issued (R310). -/
def State.axIssued (s : State) (n : Nat) : Int :=
  let x := s.axOf n
  if x.dirPos then posInt x.pos - s.edgesLeft n else posInt x.pos + s.edgesLeft n

/-- The clock, 4 ns each, at which the STEP pulses started by now have all ended (R310). -/
def State.pulseEnd (s : State) (n : Nat) : Nat :=
  let x := s.axOf n
  x.edges.foldl (fun m c => if s.tickBegan + 2 * c ≤ s.time.tick then max m (s.tickBegan + 2 * (c + x.stepW)) else m) x.high

/-- A STEP pulse is in progress: it lasts STEP_WIDTH motion clocks (R310). -/
def State.stepHigh (s : State) (n : Nat) : Bool := decide (s.time.tick < s.pulseEnd n)

/-- Put an axis at a new position with a velocity: the steps of the tick are issued (R310), a bridge's resting
current ends when the position changes (R332). -/
def State.axPlace (s : State) (n : Nat) (x : AxSt) (p v : Int) : State :=
  let d := posInt p - posInt x.pos
  let m := if s.axOut n = 1 then d.natAbs else 0
  let up := decide (d > 0)
  let edges := stepEdges m (s.fld (AX_STEP_CFG n) AX_STEP_CFG_STEP_WIDTH) (s.fld (AX_STEP_CFG n) AX_STEP_CFG_DIR_SETUP)
    (d != 0 && up != x.dirPos)
  let s := s.setAx n { x with pos := p, vel := v, movedAt := if d = 0 then x.movedAt else s.time.tick, edges := edges, dirPos := if d = 0 then x.dirPos else up }
  if d ≠ 0 ∧ n < 8 then s.setChop n { s.chopOf n with rest := false } else s

/-- Place an axis, stopping it at the position limit (R297). -/
def State.axMove (s : State) (n : Nat) (x : AxSt) (p v : Int) : State :=
  if posInt p > posMax ∨ posInt p < -posMax then
    let lim := if posInt p > 0 then posMax else -posMax
    let x := { x with st := .idle, chg := 0, nextValid := false, fin := false, phase := 0 }
    (s.axPlace n x (posOf lim) 0).setB (AX_STATUS n) AX_STATUS_POS_LIMIT
  else s.axPlace n x p v

/-- The position after a tick at velocity `v`: its fraction is kept to 2^-24 (R296). -/
def advance (p v : Int) : Int := p + v / 2 ^ 40

/-- One tick of deceleration to standstill (R299, R305, R307, R320): a limit that the axis heads into acts here too. At
standstill the flags are set; the axis reads IDLE from the next tick. -/
def State.axStopTick (s : State) (n : Nat) (x : AxSt) : State :=
  let lim := x.vel != 0 && s.limitAt n (decide (x.vel > 0))
  let x := if lim then { x with emer := true, stopped := true, limit := some (decide (x.vel > 0)) } else x
  let (v, c) := stopStep x.vel (if x.emer then s.axEdec n else s.axDec n)
    (if x.emer ∨ (s.axMode n = 2 ∧ x.phase = 0) then 0 else s.axJerk n) x.chg
  let s := s.axMove n { x with chg := c } (advance x.pos v) v
  let y := s.axOf n
  if v = 0 ∧ y.st = .stopping then
    let s := s.setAx n { y with fin := true, chg := 0, emer := false, stopped := false, limit := none }
    let s := s.setIf y.stopped (AX_STATUS n) AX_STATUS_STOPPED
    match y.limit with | some p => s.setLimitFlag n p | none => s
  else s

/-- Begin a deceleration to standstill; NEXT_VALID clears (log 46). -/
def AxSt.stopping (x : AxSt) (emer stopped : Bool) (limit : Option Bool) : AxSt :=
  { x with st := .stopping, emer := emer, stopped := stopped, limit := limit, fin := false, nextValid := false }

/-- The stop that acts in this tick, a STOP, an ESTOP or a limit, begins (R299, R307). -/
def State.axStopNow (s : State) (n : Nat) (x : AxSt) (req : Nat) (lim : Option Bool) : State :=
  s.axStopTick n (x.stopping (req == 2 || lim.isSome) true lim)

/-- A move has completed in this tick (R301, R303, R305, R307): a limit that acts sets its flag only, a stop is late (one that lands
before the next tick is too, `past`), a queued move starts from standstill at the next tick. `v` is the velocity of this tick. -/
def State.axDone (s : State) (n req : Nat) (v : Int) (lim : Option Bool) : State :=
  let x := s.axOf n
  if x.st ≠ .moving then s
  else
    let s := s.setB (AX_STATUS n) AX_STATUS_DONE
    let x := { x with past := true, arrived := some v }
    let s := match lim with | some p => s.setLimitFlag n p | none => s
    if req ≠ 0 then (s.setAx n { x with nextValid := false, fin := true, late := true }).setB (AX_STATUS n) AX_STATUS_STOP_LATE
    else if x.nextValid then
      (s.setTarget n (s.axTarget n + s.axNext n)).setAx n { x with nextValid := false, dcur := s.axDec n }
    else s.setAx n { x with fin := true }

/-- One tick of a position move (R301 to R305). -/
def State.axPosTick (s : State) (n : Nat) (x : AxSt) (req : Nat) : State :=
  let e := (posOf (s.axTarget n) - x.pos) * 2 ^ 40
  let g : Int := if e > 0 then 1 else -1
  let (d, deferred) := adoptDec x.dcur (s.axDec n) (g * x.vel) (s.axJerk n) (absI e)
  let s := s.setIf deferred (AX_STATUS n) AX_STATUS_DEC_DEFERRED
  let x := { x with dcur := d }
  let (v, c, done) := profStep e x.vel (s.axAcc n) d (s.axVmax n) (s.axJerk n) x.chg
  let v := if done && e == 0 then 0 else v
  let lim := s.limitMet n x.vel v
  if done then (s.axMove n { x with chg := 0 } (posOf (s.axTarget n)) 0).axDone n req (if v = 0 then x.vel else v) lim
  else if req ≠ 0 ∨ lim.isSome then s.axStopNow n x req lim
  else s.axMove n { x with chg := c } (advance x.pos v) v

/-- Distance ahead to the soft limit in the direction of travel (R308). -/
def State.softAhead (s : State) (n : Nat) (p : Int) (positive : Bool) : Int :=
  let l := posOf (if positive then s.axSoftMax n else s.axSoftMin n)
  max 0 ((if positive then l - p else p - l) * 2 ^ 40)

/-- One tick of a velocity move (R306), braking to a soft limit (R308). -/
def State.axVelTick (s : State) (n : Nat) (x : AxSt) (req : Nat) : State :=
  let vm := s.axVmax n
  let d := s.axDec n
  let v := velStep x.vel (clampI (-vm) vm (s.axVtarget n)) (s.axAcc n) d
  let up := if x.vel ≠ 0 then decide (x.vel > 0) else decide (v > 0)
  let ahead := s.softAhead n x.pos up
  let soft := s.bit (AX_CFG n) AX_CFG_SOFT_EN && (v != 0 || x.vel != 0)
  let u := absI x.vel
  let v := if soft && brakeTest u d (s.axJerk n) ahead then (if up then max (u - d) d else -max (u - d) d) else v
  let lim := s.limitMet n x.vel v
  let x := { x with dcur := d }
  if soft && decide (v > 0) == up && v != 0 && decide (absI v ≥ ahead) then
    let l := if ahead = 0 then x.pos else posOf (if up then s.axSoftMax n else s.axSoftMin n)
    let s := s.axMove n { x with fin := true, chg := 0 } l 0
    let s := match lim with | some p => s.setLimitFlag n p | none => s
    (s.setB (AX_STATUS n) AX_STATUS_STOPPED).setB (AX_STATUS n) AX_STATUS_SOFT_LIMIT
  else if req ≠ 0 ∨ lim.isSome then s.axStopNow n x req lim
  else s.axMove n x (advance x.pos v) v

/-! ## Homing (R317 to R322) -/

/-- HOME_METHOD -/
def State.homeMethod (s : State) (n : Nat) : Nat := s.fld (AX_CFG n) AX_CFG_HOME_METHOD

/-- The phases of a method (R317). -/
def homePhases (m : Nat) : List Nat :=
  match m with
  | 1 => [1, 2, 3, 4, 6] | 2 => [1, 2, 3, 4, 6] | 3 => [1, 2, 3, 4, 6] | 4 => [1, 2, 3, 4, 5, 6]
  | 5 => [5, 6] | 6 => [1, 2, 5, 6] | 7 => [2, 6] | 8 => [6] | _ => []

/-- The phase after `ph`. -/
def nextPhase (m ph : Nat) : Nat := ((homePhases m).filter (fun k => decide (ph < k))).headD 6

/-- "Towards" is positive (R317). -/
def State.homeTowards (s : State) (n : Nat) : Bool :=
  let m := s.homeMethod n
  if m = 1 then false else if m = 2 then true else s.bit (AX_CFG n) AX_CFG_HOME_DIR

/-- The method's input is the positive limit, the negative limit or HOMEn: the inputs numbered 0, 1, 2. -/
def State.homeInput (s : State) (n : Nat) : Nat :=
  let m := s.homeMethod n
  if m = 1 then 1 else if m = 2 then 0 else if m = 6 then (if s.homeTowards n then 0 else 1) else 2

/-- A filtered input. -/
def AxSt.filt (x : AxSt) (i : Nat) : Bool := if i = 0 then x.limP else if i = 1 then x.limN else x.homeIn

/-- Direction (positive) and speed of a phase (R318); speeds above VMAX are used at VMAX. -/
def State.phaseMove (s : State) (n ph : Nat) : Bool × Int :=
  let t := s.homeTowards n
  let m := s.homeMethod n
  let slow : Int := s.fld (AX_HOME_SPD n) AX_HOME_SPD_VSLOW * 2 ^ 52
  let fast : Int := s.fld (AX_HOME_SPD n) AX_HOME_SPD_VFAST * 2 ^ 52
  let dir := if ph = 1 ∨ ph = 3 then !t else if ph = 5 ∧ m = 6 then !t else t
  (dir, min (s.axVmax n) (if ph = 2 ∧ m ≠ 7 then fast else slow))

/-- Whether a phase's end condition holds (R318, R319). -/
def State.phaseEnded (s : State) (n : Nat) (x : AxSt) : Bool :=
  let inp := x.filt (s.homeInput n)
  if x.phase = 1 ∨ x.phase = 3 then !inp
  else if x.phase = 2 then (s.homeMethod n != 7 && inp)
  else if x.phase = 4 ∨ x.phase = 5 then x.ref.isSome
  else false

/-- Enter a phase: travel counts from here, candidate and reference are open again; a reference already taken is kept
for SET, which takes it. -/
def AxSt.enterPhase (x : AxSt) (ph : Nat) : AxSt :=
  { x with phase := ph, hstop := false, hstart := x.pos, chg := 0, cand := none, ref := if ph = 6 then x.ref else none }

/-- A redefinition of the position (R322). -/
def AxSt.redefine (x : AxSt) (p : Int) : AxSt :=
  { x with pos := p, q := unsgn 48 (x.q + (posInt x.pos - posInt p)) }

/-- Homing ends in failure (R320). -/
def State.homeFail (s : State) (n : Nat) (x : AxSt) (err : Nat) : State :=
  (s.setAx n { x with homeErr := err, homed := false }).setB (AX_STATUS n) AX_STATUS_HOME_FAIL

/-- A limit that aborts the sequence (R320): one in the direction of travel that is not the method's own. -/
def State.homeLimit (s : State) (n : Nat) (positive : Bool) : Bool :=
  let m := s.homeMethod n
  let own := (m = 1 ∨ m = 2 ∨ m = 6) && s.homeInput n == (if positive then 0 else 1)
  s.limitAt n positive && !own

/-- SET (R321). -/
def State.homeSet (s : State) (n : Nat) (x : AxSt) : State :=
  let off := sgn 32 (s.reg (AX_HOME_OFFSET n)).toNat
  let p := posInt x.pos
  let p' := if s.homeMethod n = 8 then off else off + (p - x.ref.getD p)
  let x := { (x.redefine (posOf p')) with homed := true, fin := true, past := true, vel := 0 }
  (s.setAx n x).setB (AX_STATUS n) AX_STATUS_HOME_DONE

/-- One tick of homing (R318); a STOP in the tick of SET is late (R321), in any other it ends the sequence (R320), as do another limit
and too long a travel, while the axis stops between phases too. -/
def State.homeTick (s : State) (n : Nat) (x : AxSt) (req : Nat) : State :=
  if x.phase = 6 then
    let s := s.homeSet n x
    if req = 0 then s else (s.setAx n { s.axOf n with late := true }).setB (AX_STATUS n) AX_STATUS_STOP_LATE
  else if req ≠ 0 then
    let s := s.homeFail n x 3
    s.axStopNow n (s.axOf n) req none
  else
    let (dir, vt) := s.phaseMove n x.phase
    let g : Int := if dir then 1 else -1
    let (u, c) := seekStep (absI x.vel) vt (s.axAcc n) (s.axDec n) (s.axJerk n) (g * x.chg)
    let stop := x.hstop || s.phaseEnded n x
    let range := (s.reg (AX_HOME_RANGE n)).toNat
    if (x.vel ≠ 0 ∨ (!stop && u != 0)) ∧ s.homeLimit n dir then
      let s := (s.homeFail n x 1).setLimitFlag n dir
      s.axStopTick n ((s.axOf n).stopping true true none)
    else if range ≠ 0 ∧ absI (posInt x.pos - posInt x.hstart) > range then
      let s := s.homeFail n x 2
      s.axStopTick n ((s.axOf n).stopping false false none)
    else if stop then
      let (v, c) := stopStep x.vel (s.axDec n) (s.axJerk n) x.chg
      let s := s.axMove n { x with hstop := true, chg := c } (advance x.pos v) v
      let y := s.axOf n
      if v = 0 ∧ y.st = .homing then s.setAx n (y.enterPhase (nextPhase (s.homeMethod n) y.phase)) else s
    else
      s.axMove n { x with chg := g * c } (advance x.pos (g * u)) (g * u)

/-- The stall indication ends SEEK of STALL (R318, R336): velocity 0 at once, the position of its clock is the reference. -/
def State.axStall (s : State) (n : Nat) : State :=
  let x := s.axOf n
  if x.st = .homing ∧ s.homeMethod n = 7 ∧ x.phase = 2 then
    (s.setAx n (({ x with vel := 0, ref := some (s.axIssued n) } : AxSt).enterPhase 6)).stallEnd n
  else s

/-- An index edge of encoder n during INDEX (R319). -/
def State.axIndex (s : State) (n : Nat) : State :=
  let x := s.axOf n
  if x.st = .homing ∧ x.phase = 5 ∧ x.ref = none ∧ !x.hstop then s.setAx n { x with ref := some (s.axIssued n) } else s

/-! ## Commands of an axis (R299) -/

/-- A refused command. -/
def State.axRefuse (s : State) (n r : Nat) : State :=
  (s.setAx n { s.axOf n with reason := r }).setB (AX_STATUS n) AX_STATUS_REFUSED

/-- VMAX, ACC or DEC is 0. -/
def State.axParamBad (s : State) (n : Nat) : Bool := s.reg (AX_VMAX n) == 0 || s.reg (AX_ACC n) == 0 || s.reg (AX_DEC n) == 0

/-- Why START towards `t` is refused, 0 if it is accepted (R299, R312). -/
def State.startReason (s : State) (n : Nat) (t : Int) : Nat :=
  let x := s.axOf n
  let m := s.axMode n
  let p := posOf t - x.pos
  if x.st = .fault ∨ s.safe then 6
  else if (s.groupOf n).isSome then 2
  else if x.st ≠ .idle then 1
  else if m = 0 ∨ m = 3 then 2
  else if s.axParamBad n then 3
  else if m = 1 ∧ s.softBad n t then 4
  else if m = 1 ∧ ((p > 0 ∧ s.limitAt n true) ∨ (p < 0 ∧ s.limitAt n false)) then 5
  else if m = 2 ∧ ((s.axVtarget n > 0 ∧ s.limitAt n true) ∨ (s.axVtarget n < 0 ∧ s.limitAt n false)) then 5
  else 0

/-- A move begins with this tick. -/
def State.axBegin (s : State) (n : Nat) : State :=
  s.setAx n { s.axOf n with st := .moving, fin := false, vel := 0, chg := 0, dcur := s.axDec n, emer := false, stopped := false, late := false }

/-- START. -/
def State.axStart (s : State) (n : Nat) : State :=
  let r := s.startReason n (s.axTarget n)
  if r = 0 then (s.setAx n { s.axOf n with past := false, refused := false, late := false }).axBegin n
  else (s.setAx n { s.axOf n with refused := true }).axRefuse n r

/-- ARM_NEXT (R303): one that landed in the tick in which a move completed is taken as queued behind that move, so it meets only the checks
of a queued one, and its move starts from standstill now; after a late STOP of the same tick no queued move starts (R305). -/
def State.axArmNext (s : State) (n : Nat) : State :=
  let x := s.axOf n
  let t := s.axTarget n + s.axNext n
  if x.st = .fault ∨ s.safe then s.axRefuse n 6
  else if (s.groupOf n).isSome then s.axRefuse n 2
  else if x.st ≠ .idle ∧ x.st ≠ .moving then s.axRefuse n 1
  else if s.axMode n ≠ 1 then s.axRefuse n 2
  else if x.st = .moving then
    if s.softBad n t then s.axRefuse n 4 else s.setAx n { x with nextValid := true }
  else if x.arrived.isSome then
    if s.softBad n t then s.axRefuse n 4 else if x.late then s else (s.setTarget n t).axBegin n
  else
    let r := s.startReason n t
    if r = 0 then (s.setTarget n t).axBegin n else s.axRefuse n r

/-- STOP or ESTOP of one axis (R299): what it does is decided in this tick. One that landed in the tick in which a move or SET
completed is late: no queued move starts (R305, R321). An ESTOP in STOPPING ends with STOPPED, whatever the deceleration began for. -/
def State.axStop (s : State) (n : Nat) (emer : Bool) : State :=
  let x := s.axOf n
  if x.past then
    (s.setAx n { x with st := if x.st = .moving then .idle else x.st, nextValid := false, late := true }).setB (AX_STATUS n) AX_STATUS_STOP_LATE
  else match x.st with
  | .moving => s.setAx n { x with req := max x.req (if emer then 2 else 1), late := false }
  | .homing => s.setAx n { x with req := max x.req (if emer then 2 else 1), late := false }
  | .stopping => if emer then s.setAx n { x with emer := true, stopped := true } else s
  | _ => s

/-- Why HOME is refused, 0 if it is accepted (R299, R317). -/
def State.homeReason (s : State) (n : Nat) : Nat :=
  let x := s.axOf n
  let m := s.homeMethod n
  let slow := s.fld (AX_HOME_SPD n) AX_HOME_SPD_VSLOW
  let fast := s.fld (AX_HOME_SPD n) AX_HOME_SPD_VFAST
  if x.st = .fault ∨ s.safe then 6
  else if (s.groupOf n).isSome then 2
  else if x.st ≠ .idle then 1
  else if s.axMode n = 0 ∨ s.axMode n = 3 then 2
  else if s.axParamBad n ∨ m = 0 ∨ (m ≠ 8 ∧ slow = 0) ∨ ((m = 1 ∨ m = 2 ∨ m = 3 ∨ m = 4 ∨ m = 6) ∧ fast = 0) then 3
  else 0

/-- HOME (R317 to R321): CLEAR is skipped if its input is already inactive. -/
def State.axHome (s : State) (n : Nat) : State :=
  let r := s.homeReason n
  if r ≠ 0 then (s.setAx n { s.axOf n with refused := true }).axRefuse n r
  else
    let x := s.axOf n
    let m := s.homeMethod n
    let first := (homePhases m).headD 6
    let first := if first = 1 ∧ !x.filt (s.homeInput n) then 2 else first
    s.setAx n (({ x with st := .homing, homed := false, homeErr := 0, fin := false, past := false, refused := false, late := false, vel := 0, ref := none } : AxSt).enterPhase first)

/-- CLEAR (R299, R323). -/
def State.axClear (s : State) (n : Nat) : State :=
  let x := s.axOf n
  if x.st = .fault then s.setAx n { x with st := .idle, vel := 0, chg := 0, fin := false, phase := 0 } else s

/-! ## Groups (R312 to R316) -/

/-- GRP MODE: 0 OFF, 1 LINEAR, 2 CYCLIC. -/
def State.grpMode (s : State) (g : Nat) : Nat := s.fld (GRP_CFG g) GRP_CFG_MODE

/-- A refused group command. -/
def State.grpRefuse (s : State) (g r : Nat) : State :=
  (s.setGrp g { s.grpOf g with reason := r }).setB (GRP_STATUS g) GRP_STATUS_REFUSED

/-- The distance a member has to go. -/
def State.memberDist (s : State) (n : Nat) : Int := posOf (s.axTarget n) - (s.axOf n).pos

/-- Why a group's START is refused, 0 if it is accepted (R299, R312, R313). -/
def State.grpReason (s : State) (g : Nat) : Nat :=
  let x := s.grpOf g
  let ms := s.grpAxes g
  let lin := s.grpMode g = 1
  if x.st = .fault ∨ s.safe then 6
  else if x.st ≠ .idle then 1
  else if s.grpMode g = 0 then 2
  else if ms.isEmpty ∨ ms.any (fun n => decide ((s.axOf n).st ≠ .idle) || decide ((s.reg (AX_VMAX n)).toNat < (s.reg (GRP_VMAX g)).toNat)) then 7
  else if s.reg (GRP_VMAX g) = 0 ∨ s.reg (GRP_ACC g) = 0 ∨ s.reg (GRP_DEC g) = 0 then 3
  else if lin ∧ ms.any (fun n => s.softBad n (s.axTarget n)) then 4
  else if lin ∧ ms.any (fun n => (decide (s.memberDist n > 0) && s.limitAt n true) || (decide (s.memberDist n < 0) && s.limitAt n false)) then 5
  else 0

/-- The member with the largest distance; among equals the lowest-numbered (R313). -/
def State.masterOf (s : State) (ms : List Nat) : Nat :=
  ms.foldl (fun b n => if (s.memberDist n).natAbs > (s.memberDist b).natAbs then n else b) (ms.headD 0)

/-- START of a group (R313, R315). -/
def State.grpStart (s : State) (g : Nat) : State :=
  let r := s.grpReason g
  if r ≠ 0 then (s.setGrp g { s.grpOf g with refused := true }).grpRefuse g r
  else
    let ms := s.grpAxes g
    if s.grpMode g = 1 then
      let m := s.masterOf ms
      let dm := (s.memberDist m).natAbs
      let mem := ms.map (fun n => ⟨n, (s.axOf n).pos, s.memberDist n,
        if dm = 0 then 0 else (s.memberDist n).natAbs * 2 ^ 32 / dm⟩)
      let s := s.setGrp g { st := .moving, master := m, reason := (s.grpOf g).reason, total := dm, dcur := (s.reg (GRP_DEC g)).toNat * 2 ^ 32, members := mem }
      ms.foldl (fun s n => s.setAx n { s.axOf n with st := .moving, fin := false, vel := 0, chg := 0 }) s
    else
      let s := s.setGrp g { st := .running, master := (s.grpOf g).master, reason := (s.grpOf g).reason }
      ms.foldl (fun s n => s.setAx n { s.axOf n with st := .moving, fin := false, vel := 0, chg := 0, sp := none, nLeft := 0, spNew := none }) s

/-- STOP or ESTOP of a group (R314, R316): what it does is decided in this tick. One that landed in the tick in which a linear
move completed is late (R305). -/
def State.grpStop (s : State) (g : Nat) (emer : Bool) : State :=
  let x := s.grpOf g
  if x.past then (s.setGrp g { x with late := true }).setB (GRP_STATUS g) GRP_STATUS_STOP_LATE
  else match x.st with
  | .moving => s.setGrp g { x with req := max x.req (if emer then 2 else 1), late := false }
  | .running => s.setGrp g { x with req := max x.req (if emer then 2 else 1), late := false }
  | .stopping => if emer then s.setGrp g { x with emer := true } else s
  | _ => s

/-- CLEAR of a group. -/
def State.grpClear (s : State) (g : Nat) : State :=
  let x := s.grpOf g
  if x.st = .fault then s.setGrp g { x with st := .idle, vel := 0, toFault := false } else s

/-- Setpoints handed to a group, one for each member in ascending order, none for a word that the slot does not hold or
that is poisoned (R315): they wait for the next tick. -/
def State.grpSetpoints (s : State) (g : Nat) (sps : List (Option Int)) : State :=
  if (s.grpOf g).st = .running then
    let s := s.setGrp g { s.grpOf g with fresh := (s.grpOf g).fresh + 1 }
    ((s.grpAxes g).zip sps).foldl (fun s p => match p.2 with
      | some v => s.setAx p.1 { s.axOf p.1 with spNew := some v }
      | none => s) s
  else s.setB (GRP_STATUS g) GRP_STATUS_SP_IGNORED

/-- The waiting setpoint sets are acted on from this tick, clamped to enabled soft limits; GRPg_LATCHED counts each (R308, R315, R316). -/
def State.grpTakeSets (s : State) (g : Nat) : State :=
  let x := s.grpOf g
  if x.fresh = 0 then s
  else
    let s := (s.setGrp g { x with fresh := 0 }).countN (GRP_LATCHED g) wholeReg x.fresh
    (s.grpAxes g).foldl (fun s n => match (s.axOf n).spNew with
      | some v =>
        let soft := s.softBad n v
        let v := if soft then clampI (s.axSoftMin n) (s.axSoftMax n) v else v
        (s.setAx n { s.axOf n with sp := some v, nLeft := s.fld (GRP_CFG g) GRP_CFG_INTERP, spNew := none }).setIf soft
          (AX_STATUS n) AX_STATUS_SOFT_LIMIT
      | none => s) s

/-- The waiting setpoint sets of a group that stops are discarded (R316). -/
def State.grpDropSets (s : State) (g : Nat) : State :=
  let x := s.grpOf g
  if x.fresh = 0 then s
  else
    let s := (s.setGrp g { x with fresh := 0 }).setB (GRP_STATUS g) GRP_STATUS_SP_IGNORED
    (s.grpAxes g).foldl (fun s n => s.setAx n { s.axOf n with spNew := none }) s

/-- Place the members of a linear group on the line (R313). -/
def State.placeMembers (s : State) (x : GrpSt) (final : Bool) : State :=
  x.members.foldl (fun s m =>
    let sg : Int := if m.dist < 0 then -1 else 1
    let p := if final then m.start + m.dist
      else if m.dist.natAbs = x.total.natAbs then m.start + sg * x.trav
      else m.start + sg * posOf (m.ratio * posInt x.trav / 2 ^ 32)
    let y := s.axOf m.axis
    if y.st = .fault then s else s.axMove m.axis y p ((p - y.pos) * 2 ^ 40)) s

/-- The members return to IDLE; one that reads FAULT stays there until its CLEAR. -/
def State.freeMembers (s : State) (ms : List Nat) : State :=
  ms.foldl (fun s n => if (s.axOf n).st = .fault then s
    else s.setAx n { s.axOf n with st := .idle, vel := 0, chg := 0, fin := false }) s

/-- A member whose motion in this tick heads into its active limit (R307). -/
def State.memberLimited (s : State) (n : Nat) (d : Int) : Bool := d != 0 && s.limitAt n (decide (d > 0))

/-- The members that head into an active limit in this tick, with their directions (R307, R314, R316): on the line while the
group moves, each by its own velocity in a cyclic group. -/
def State.grpLimits (s : State) (g : Nat) (x : GrpSt) : List (Nat × Bool) :=
  if s.grpMode g = 1 then
    (x.members.filter (fun m => (s.axOf m.axis).pos != m.start + m.dist && s.memberLimited m.axis m.dist)).map
      (fun m => (m.axis, decide (m.dist > 0)))
  else
    ((s.grpAxes g).filter (fun n => s.memberLimited n (s.axOf n).vel)).map (fun n => (n, decide ((s.axOf n).vel > 0)))

/-- Set the limit flags of members. -/
def State.setLimits (s : State) (l : List (Nat × Bool)) : State := l.foldl (fun s p => s.setLimitFlag p.1 p.2) s

/-- Limits act on a group: it decelerates at EDEC and ends in FAULT (R314, R316). -/
def State.grpLimited (s : State) (g : Nat) (x : GrpSt) (l : List (Nat × Bool)) : State × GrpSt :=
  if l.isEmpty then (s, x)
  else ((s.setLimits l).setB (GRP_STATUS g) GRP_STATUS_LIMIT, { x with emer := true, toFault := true })

/-- A group that stops stands still: STOPPED is set; it reads FAULT at once after a limit, IDLE from the next tick otherwise. -/
def State.grpStopped (s : State) (g : Nat) (x : GrpSt) : State :=
  (s.setGrp g { x with st := if x.toFault then .fault else x.st, fin := true, vel := 0, chg := 0, emer := false }).setB (GRP_STATUS g)
    GRP_STATUS_STOPPED

/-- One tick of a linear group that decelerates to standstill (R314). -/
def State.grpLinStop (s : State) (g : Nat) (x : GrpSt) : State :=
  let (s, x) := s.grpLimited g x (if x.vel = 0 then [] else s.grpLimits g x)
  let d : Int := (s.reg (if x.emer then GRP_EDEC g else GRP_DEC g)).toNat * 2 ^ 32
  let j : Int := if x.emer then 0 else (s.reg (GRP_JERK g)).toNat * 2 ^ 16
  let (v, c) := stopStep x.vel d j x.chg
  let x := { x with trav := advance x.trav v, vel := v, chg := c }
  let s := (s.setGrp g x).placeMembers x false
  if v = 0 then s.grpStopped g x else s

/-- One tick of the members of a cyclic group that stops (R316): each decelerates on its own. -/
def State.grpCycStop (s : State) (g : Nat) (x : GrpSt) : State :=
  let (s, x) := s.grpLimited g x (s.grpLimits g x)
  let ms := s.grpAxes g
  let s := (s.setGrp g x).grpDropSets g
  let s := ms.foldl (fun s n =>
    let y := s.axOf n
    if y.st = .fault then s else
    let (v, _) := stopStep y.vel (if x.emer then s.axEdec n else s.axDec n) 0 0
    s.axMove n y (advance y.pos v) v) s
  if ms.all (fun n => (s.axOf n).vel == 0) then s.grpStopped g (s.grpOf g) else s

/-- A group begins to stop: it and its members read STOPPING, and its first tick of deceleration follows. -/
def State.grpStopNow (s : State) (g : Nat) (x : GrpSt) (emer toFault : Bool) : State :=
  let x := { x with st := .stopping, emer := emer, toFault := toFault }
  let s := (s.grpAxes g).foldl (fun s n => if (s.axOf n).st = .fault then s else s.setAx n { s.axOf n with st := .stopping }) (s.setGrp g x)
  if s.grpMode g = 1 then s.grpLinStop g x else s.grpCycStop g x

/-- One tick of a linear group's move (R313, R314); R305 applies to it as to an axis. -/
def State.grpLinTick (s : State) (g : Nat) (x : GrpSt) (req : Nat) : State :=
  let e := (x.total - x.trav) * 2 ^ 40
  let j : Int := (s.reg (GRP_JERK g)).toNat * 2 ^ 16
  let (d, deferred) := adoptDec x.dcur ((s.reg (GRP_DEC g)).toNat * 2 ^ 32) x.vel j e
  let s := s.setIf deferred (GRP_STATUS g) GRP_STATUS_DEC_DEFERRED
  let x := { x with dcur := d }
  let lim := s.grpLimits g x
  let (v, c, done) := profStep e x.vel ((s.reg (GRP_ACC g)).toNat * 2 ^ 32) d ((s.reg (GRP_VMAX g)).toNat * 2 ^ 40) j x.chg
  if done then
    let x := { x with trav := x.total, vel := 0, chg := 0, fin := true, past := true, late := x.late || req != 0 }
    let s := ((s.setGrp g x).placeMembers x true).setLimits lim
    let s := x.members.foldl (fun s m => if (s.axOf m.axis).st = .fault then s else
      (s.setAx m.axis { s.axOf m.axis with vel := 0, arrived := some (s.axOf m.axis).vel }).setB (AX_STATUS m.axis) AX_STATUS_DONE) s
    (s.setB (GRP_STATUS g) GRP_STATUS_DONE).setIf (req ≠ 0) (GRP_STATUS g) GRP_STATUS_STOP_LATE
  else if !lim.isEmpty then ((s.setLimits lim).setB (GRP_STATUS g) GRP_STATUS_LIMIT).grpStopNow g x true true
  else if req ≠ 0 then s.grpStopNow g x (req == 2) false
  else
    let x := { x with trav := advance x.trav v, vel := v, chg := c }
    (s.setGrp g x).placeMembers x false

/-- What a member that follows setpoints does in this tick (R316): its flags and count of ticks left, and its step. -/
def State.followPlan (s : State) (g n : Nat) : State × Int :=
  let x := s.axOf n
  let r := match x.sp with | some sp => posOf sp - x.pos | none => 0
  let (st, cl) := if r = 0 ∨ x.st = .fault then (0, false) else followStep r x.nLeft (s.reg (AX_VMAX n)).toNat
  let s := if cl then (s.setB (AX_STATUS n) AX_STATUS_FOLLOW_CLAMP).setB (GRP_STATUS g) GRP_STATUS_FOLLOW_CLAMP else s
  (s.setAx n { x with nLeft := x.nLeft - 1 }, st)

/-- The steps of all members of a group in this tick. -/
def State.followPlans (s : State) (g : Nat) : State × List (Nat × Int) :=
  (s.grpAxes g).foldl (fun p n => let (s, st) := p.1.followPlan g n; (s, p.2 ++ [(n, st)])) (s, [])

/-- One tick of a running cyclic group (R316). -/
def State.grpCycTick (s : State) (g : Nat) (x : GrpSt) (req : Nat) : State :=
  if req ≠ 0 then s.grpStopNow g x (req == 2) false
  else
    let (s, steps) := (s.grpTakeSets g).followPlans g
    let lim := steps.filterMap (fun p => (s.limitMet p.1 (s.axOf p.1).vel p.2).map (fun d => (p.1, d)))
    if lim.isEmpty then
      steps.foldl (fun s p => if (s.axOf p.1).st = .fault then s
        else s.axMove p.1 (s.axOf p.1) ((s.axOf p.1).pos + p.2) (p.2 * 2 ^ 40)) s
    else ((s.setLimits lim).setB (GRP_STATUS g) GRP_STATUS_LIMIT).grpStopNow g (s.grpOf g) true true

/-- A command of a group acts (R299, R312, R323). -/
def State.grpAct (s : State) (g : Nat) (w : Word) : State :=
  if GRP_CMD_START.get w ≠ 0 then s.grpStart g
  else if GRP_CMD_STOP.get w ≠ 0 then (if s.safe then s.grpRefuse g 6 else s.grpStop g false)
  else if GRP_CMD_ESTOP.get w ≠ 0 then (if s.safe then s.grpRefuse g 6 else s.grpStop g true)
  else if GRP_CMD_CLEAR.get w ≠ 0 then s.grpClear g
  else s

/-- One tick of a group: an ended move reads IDLE, the waiting writes act, and the group moves. -/
def State.grpTick (s : State) (g : Nat) : State :=
  let x := s.grpOf g
  let s := if x.fin then
      (s.setGrp g { x with st := if x.st = .fault then .fault else .idle, fin := false, toFault := false }).freeMembers (s.grpAxes g)
    else s
  let x := s.grpOf g
  let s := x.acts.foldl (fun s w => s.grpAct g w) (s.setGrp g { x with acts := [] })
  let x := s.grpOf g
  let req := x.req
  let x := { x with req := 0, past := false }
  let s := s.setGrp g x
  match x.st with
    | .moving => s.grpLinTick g x req
    | .running => s.grpCycTick g x req
    | .stopping => if s.grpMode g = 1 then s.grpLinStop g x else s.grpCycStop g x
    | _ => s

/-! ## The profile tick -/

/-- What a waiting write does to its axis (R295): STOP and ESTOP of a member act on its group (R312); in safe state every
command but CLEAR is refused with FAULT (R323); a loaded position redefines it (R322, R325). -/
def State.axAct (s : State) (n : Nat) (a : AxAct) : State :=
  match a with
  | .load p => s.setAx n { ((s.axOf n).redefine (posOf p)) with homed := false }
  | .cmd w =>
    let stop (emer : Bool) : State :=
      if s.safe then s.axRefuse n 6
      else match s.groupOf n with
        | some g => s.grpStop g emer
        | none => s.axStop n emer
    if AX_CMD_START.get w ≠ 0 then s.axStart n
    else if AX_CMD_STOP.get w ≠ 0 then stop false
    else if AX_CMD_ESTOP.get w ≠ 0 then stop true
    else if AX_CMD_HOME.get w ≠ 0 then s.axHome n
    else if AX_CMD_ARM_NEXT.get w ≠ 0 then s.axArmNext n
    else if AX_CMD_CLEAR.get w ≠ 0 then s.axClear n
    else s

/-- The settings that an axis takes over at a tick: output, pulse width, polarities and filter times (R295); `high` is when the pulses
already started end. -/
def AxSt.settings (x : AxSt) (cfg stepCfg filt : Word) (high : Nat) : AxSt :=
  { x with outp := AX_CFG_OUT.get cfg, stepW := AX_STEP_CFG_STEP_WIDTH.get stepCfg, high := high,
           stepPol := AX_STEP_CFG_STEP_POL.get stepCfg != 0, dirPol := AX_STEP_CFG_DIR_POL.get stepCfg != 0, filts := filt,
           edges := [] }

/-- A move that ended in the last tick: the axis reads IDLE now (R299). -/
def AxSt.ended (x : AxSt) : AxSt :=
  if x.fin then { x with st := if x.st = .fault then .fault else .idle, fin := false, phase := 0, vel := 0 } else x

/-- One tick of an axis outside groups (R299, R301, R303, R306): an ended move reads IDLE, the waiting writes act, and the
axis moves. -/
def State.axTick (s : State) (n : Nat) : State :=
  let x := ((s.axOf n).settings (s.reg (AX_CFG n)) (s.reg (AX_STEP_CFG n)) (s.reg (AX_FILT n)) (s.pulseEnd n)).ended
  let s := x.acts.foldl (fun s a => s.axAct n a) (s.setAx n { x with acts := [] })
  let x := s.axOf n
  let req := x.req
  let x := { x with req := 0, past := false, arrived := none }
  let s := s.setAx n x
  if s.axMode n = 3 then s
  else match x.st with
    | .moving => if s.axMode n = 2 then s.axVelTick n x req else s.axPosTick n x req
    | .stopping => s.axStopTick n x
    | .homing => s.homeTick n x req
    | _ => s

/-- Every axis and group updates its profile (R295), apart from the choppers' following. -/
def State.motionTick (s : State) : State := (s.forN 32 State.axTick).forN 8 State.grpTick

/-- A profile tick is due: the time of day has reached the next multiple of 1,000 ns (R295). -/
def State.tickDue (s : State) : Bool := decide (s.tickAt * 1000 * 2 ^ 32 ≤ s.time.tod)

/-- The next tick after this one. -/
def State.tickTaken (s : State) : State := { s with tickAt := s.time.tod / (1000 * 2 ^ 32) + 1, tickBegan := s.time.tick }

/-! ## Inputs (R309, R319) -/

/-- The latched positions, instants and clocks of an input's latest raw edge. -/
def AxSt.latch (x : AxSt) (i : Nat) (p : Int) (t k : Nat) : AxSt :=
  if i = 0 then { x with latP := p, timP := t, edgP := k } else if i = 1 then { x with latN := p, timN := t, edgN := k }
  else { x with latH := p, timH := t, edgH := k }
/-- The clock of an input's latest raw edge. -/
def AxSt.edgeAt (x : AxSt) (i : Nat) : Nat := if i = 0 then x.edgP else if i = 1 then x.edgN else x.edgH
/-- Set a raw input. -/
def AxSt.setRaw (x : AxSt) (i : Nat) (l : Bool) : AxSt :=
  if i = 0 then { x with rawP := l } else if i = 1 then { x with rawN := l } else { x with rawH := l }
/-- Set a filtered input. -/
def AxSt.setFilt (x : AxSt) (i : Nat) (l : Bool) : AxSt :=
  if i = 0 then { x with limP := l } else if i = 1 then { x with limN := l } else { x with homeIn := l }
/-- A raw input. -/
def AxSt.raw (x : AxSt) (i : Nat) : Bool := if i = 0 then x.rawP else if i = 1 then x.rawN else x.rawH

/-- FILT of an input (R309). -/
def State.filtOf (s : State) (n i : Nat) : Nat := (if i = 2 then AX_FILT_HOME_FILT else AX_FILT_LIM_FILT).get (s.axOf n).filts

/-- The input that APPROACH listens to. -/
def State.approaching (s : State) (n i : Nat) (x : AxSt) : Bool := x.st == .homing && x.phase == 4 && s.homeInput n == i

/-- The filtered level becomes `l`: a candidate is taken when it turns active, discarded when it is or stays inactive (R319). A limit that
turns active in the tick in which a move into it completed sets its flag (R307). -/
def State.setFiltered (s : State) (n i : Nat) (l : Bool) : State :=
  let x := s.axOf n
  let appr := s.approaching n i x
  let y := x.setFilt i l
  let y := if appr ∧ x.ref = none then (if !l then { y with cand := none } else if x.filt i then y else { y with ref := y.cand }) else y
  let late := l && !x.filt i && decide (i < 2) && (match x.arrived with
    | some v => v != 0 && decide (v > 0) == (i == 0)
    | none => false)
  let s := s.setAx n y
  if late ∧ s.bit (AX_CFG n) AX_CFG_LIMIT_EN then s.setLimitFlag n (i == 0) else s

/-- A raw edge of a limit or home input to level `l` (R309, R319); no edge where the input stands at that level. -/
def rawInputEdge (n i : Nat) (l : Bool) (s : State) : State :=
  let x := s.axOf n
  if x.raw i = l then s else
  let appr := s.approaching n i x
  let p := s.axIssued n
  let y := (x.latch i p s.time.tod s.time.tick).setRaw i l
  let chatter := appr && x.cand.isSome
  let y := if appr ∧ l ∧ x.cand = none then { y with cand := some p } else y
  let s := (s.setAx n y).countIf chatter (AX_HOME_CHATTER n)
  if s.filtOf n i = 0 then s.setFiltered n i l else s

/-- The raw level has held for FILT microseconds, 250 clocks each, since its latest edge (R309). -/
def State.debounced (s : State) (n i : Nat) : Bool := decide ((s.axOf n).edgeAt i + 250 * s.filtOf n i ≤ s.time.tick)

/-- A filtered input takes the raw level once that has held without a break (R309). -/
def debounceExpiry (n i : Nat) (s : State) : State := if s.debounced n i then s.setFiltered n i ((s.axOf n).raw i) else s

/-! ## Faults of an axis: over-current and safe state (R323, R335) -/

/-- An axis stands at once at the position of its last step, with velocity 0, and reads FAULT; a STEP pulse already started completes its
width (R323). -/
def State.axFault (s : State) (n : Nat) : State :=
  let x := s.axOf n
  (s.setAx n { x with st := .fault, pos := posOf (s.axIssued n), vel := 0, chg := 0, fin := false, phase := 0, nextValid := false, req := 0, past := false, edges := [], high := s.pulseEnd n }).chopOff n |>.stallEnd n

/-- Safe state on one axis (R320, R323). -/
def State.axSafe (s : State) (n : Nat) : State :=
  let x := s.axOf n
  match x.st with
  | .idle => (s.setAx n { x with pos := posOf (s.axIssued n), vel := 0, edges := [], high := s.pulseEnd n }).stallEnd n
  | st =>
    let s := if st = .homing then s.homeFail n x 4 else s
    let s := s.axFault n
    (s.setAx n { s.axOf n with homed := false }).setB (AX_STATUS n) AX_STATUS_SAFE

/-- Safe state on one group (R323). -/
def State.grpSafe (s : State) (g : Nat) : State :=
  let x := s.grpOf g
  if x.st = .moving ∨ x.st = .running ∨ x.st = .stopping then
    ((s.setGrp g { x with st := .fault, vel := 0, chg := 0, fin := false, req := 0, past := false }).grpDropSets g).setB (GRP_STATUS g) GRP_STATUS_SAFE
  else s

/-! ## The MOTION block's registers -/

/-- A write waits for the first tick that begins after it lands (R295). -/
def State.axWait (s : State) (n : Nat) (a : AxAct) : State := s.setAx n { s.axOf n with acts := (s.axOf n).acts ++ [a] }

/-- The step timing rule of R311 with given VMAX, STEP_CFG and OUT. -/
def stepTimingBad (out vmax width setup : Nat) : Bool :=
  out == 1 && decide (125 < (vmax + 2 ^ 24 - 1) / 2 ^ 24 * (width + 13) + setup)

/-- The command bits of GRPg_CMD: bit 4 is none (R326). -/
def grpCmd (w : Word) : Nat := w.toNat % 64 - 16 * (w.toNat / 16 % 2)

/-- The commanded integer position as 48 bits, which counts the steps issued (R310, R325). -/
def State.axPosBits (s : State) (n : Nat) : Nat := unsgn 48 (s.axIssued n)

/-- Writes of the MOTION block that are discarded whole (R24, R298, R299, R308, R311, R312, R317, R325, R326). -/
def motionBad (s : State) (a0 i : Nat) (w : Word) : Bool :=
  let sc := s.reg (AX_STEP_CFG i)
  let wd := AX_STEP_CFG_STEP_WIDTH.get sc
  let su := AX_STEP_CFG_DIR_SETUP.get sc
  let vm := (s.reg (AX_VMAX i)).toNat
  if a0 = AX_CFG 0 then
    let out := AX_CFG_OUT.get w
    let hm := AX_CFG_HOME_METHOD.get w
    out == 3 || (out == 2 && decide (8 ≤ i)) || decide (9 ≤ hm) || (hm == 7 && out != 2)
      || (AX_CFG_SOFT_EN.get w != 0 && decide (s.axSoftMax i < s.axSoftMin i))
      || (AX_CFG_MODE.get w != 3 && (s.groupOf i).isSome) || stepTimingBad out vm wd su
  else if a0 = AX_CMD 0 then decide (1 < popCount 6 w.toNat)
  else if a0 = AX_POS_LO 0 then decide ((s.axOf i).st ≠ .idle) && w != w32 (s.axPosBits i)
  else if a0 = AX_POS_HI 0 then decide ((s.axOf i).st ≠ .idle) && AX_POS_HI_POS.get w != s.axPosBits i / 2 ^ 32
  else if a0 = AX_VMAX 0 then decide (0x04000000 < w.toNat) || stepTimingBad (s.axOut i) w.toNat wd su
  else if a0 = AX_EDEC 0 ∨ a0 = GRP_EDEC 0 then w == 0
  else if a0 = AX_STEP_CFG 0 then
    decide (AX_STEP_CFG_STEP_WIDTH.get w < 13) || stepTimingBad (s.axOut i) vm (AX_STEP_CFG_STEP_WIDTH.get w) (AX_STEP_CFG_DIR_SETUP.get w)
  else if a0 = AX_SOFT_MIN 0 then s.bit (AX_CFG i) AX_CFG_SOFT_EN && decide (s.axSoftMax i < sgn 32 w.toNat)
  else if a0 = AX_SOFT_MAX 0 then s.bit (AX_CFG i) AX_CFG_SOFT_EN && decide (sgn 32 w.toNat < s.axSoftMin i)
  else if a0 = GRP_CFG 0 then GRP_CFG_MODE.get w == 3 || (GRP_CFG_MODE.get w == 2 && GRP_CFG_INTERP.get w == 0)
  else if a0 = GRP_MEMBERS 0 then
    anyN 32 (fun n => bitOf n w.toNat && (s.axMode n != 3 || anyN 8 (fun g => g != i && bitOf n (s.reg (GRP_MEMBERS g)).toNat)))
  else if a0 = GRP_CMD 0 then decide (1 < popCount 6 (grpCmd w))
  else if a0 = GRP_VMAX 0 then decide (0x04000000 < w.toNat)
  else if a0 = GRP_SRC 0 then GRP_SRC_OFFSET.get w % 8 != 0
  else false

/-- Locks of the RWL fields (R300, R303, R312, R325, R326); a write of a position is held against the live one in `motionBad`. -/
def motionLocked (s : State) (a0 i : Nat) : Bool :=
  if a0 = AX_POS_LO 0 ∨ a0 = AX_POS_HI 0 then false
  else if a0 = AX_NEXT 0 then (s.axOf i).nextValid
  else if a0 = GRP_CFG 0 ∨ a0 = GRP_MEMBERS 0 then decide ((s.grpOf i).st ≠ .idle)
  else decide ((s.axOf i).st ≠ .idle)

/-- The 48-bit position that a write of AXn_POS_HI loads with the held low half (R325). -/
def State.loadPos (s : State) (n : Nat) (hi : Nat) : State :=
  let lo := (tget (fun _ => 0) s.held (AX_POS_LO n)).toNat
  s.axWait n (.load (max (-posMax) (sgn 48 (lo + 2 ^ 32 * hi))))

/-- What a write of the MOTION block does beside setting its fields: commands and positions wait for the next tick (R295); LATCH (R315) is
handled where buffers are; a position that is written as it stands while the axis is not IDLE has no effect (R8). -/
def motionHook (a0 i : Nat) (w : Word) (s : State) : State :=
  if a0 = AX_CMD 0 then s.axWait i (.cmd w)
  else if a0 = AX_POS_LO 0 then
    if (s.axOf i).st ≠ .idle then s.setReg (AX_POS_LO i) 0
    else { s.setReg (AX_POS_LO i) 0 with held := tput (fun _ => 0) s.held (AX_POS_LO i) w }
  else if a0 = AX_POS_HI 0 then
    if (s.axOf i).st ≠ .idle then s.setReg (AX_POS_HI i) 0
    else (s.setReg (AX_POS_HI i) 0).loadPos i (AX_POS_HI_POS.get w)
  else if a0 = GRP_CMD 0 then
    if GRP_CMD_LATCH.get w ≠ 0 then s else s.setGrp i { s.grpOf i with acts := (s.grpOf i).acts ++ [w] }
  else s

/-- AXn_STATE (R325). -/
def AxSt.stateWord (x : AxSt) : Word :=
  let st := match x.st with | .idle => 0 | .moving => 1 | .stopping => 2 | .homing => 3 | .fault => 4
  w32 (st + 2 ^ 4 * x.phase + 2 ^ 8 * b2n x.nextValid + 2 ^ 9 * b2n x.homed + 2 ^ 10 * b2n x.limP + 2 ^ 11 * b2n x.limN
    + 2 ^ 12 * b2n x.homeIn + 2 ^ 16 * x.reason + 2 ^ 20 * x.homeErr)

/-- GRPg_STATE (R326). -/
def GrpSt.stateWord (x : GrpSt) : Word :=
  let st := match x.st with | .idle => 0 | .moving => 1 | .running => 2 | .stopping => 3 | .fault => 4
  w32 (st + 2 ^ 8 * x.master + 2 ^ 16 * x.reason)

/-- Axes with a status bit set (R327). -/
def State.axPend (s : State) : Nat := packBits ((List.range 32).map (fun n => s.reg (AX_STATUS n) != 0))

/-- Registers of the MOTION block that read the live state. AXn_POS_HI reads what a read of AXn_POS_LO latched (R325). -/
def motionView (s : State) (a0 i : Nat) : Option Word :=
  let x := s.axOf i
  if a0 = AX_STATE 0 then some x.stateWord
  else if a0 = AX_POS_LO 0 then some (w32 (s.axPosBits i))
  else if a0 = AX_POS_HI 0 then some (tget (fun _ => 0) s.latch (AX_POS_LO i))
  else if a0 = AX_VEL 0 then some (w32 (unsgn 32 (x.vel / 2 ^ 40)))
  else if a0 = GRP_STATE 0 then some (s.grpOf i).stateWord
  else if a0 = MOT_AX_PEND then some (w32 s.axPend)
  else none

/-- What a read of the MOTION block changes. -/
def motionRead (a0 i : Nat) (s : State) : State :=
  if a0 = AX_POS_LO 0 then { s with latch := tput (fun _ => 0) s.latch (AX_POS_LO i) (w32 (s.axPosBits i / 2 ^ 32)) } else s

/-- SRC bits of MOTION_SUMMARY (R327). -/
def motionSrc (s : State) : Nat :=
  packBits ((List.range 8).map (fun k => anyN 4 (fun j => s.reg (AX_STATUS (4 * k + j)) != 0))
    ++ (List.range 8).map (fun g => s.reg (GRP_STATUS g) != 0))

end Sys2Proof.Machine
end

