-- ==== Sys2Proof/Machine/Measure.lean ====
section
/-! DEFINITION. Choppers, encoder counters and converters (12): the chopping cycle, over-current, stall, counting,
index edges, conversions, and the registers of the CHOPPER and CAPTURE blocks. -/
namespace Sys2Proof.Machine

/-! ## Choppers (R330 to R337) -/

/-- A bridge is energised (R330). -/
def State.energised (s : State) (n : Nat) : Bool :=
  s.bit (CHOP_CTL n) CHOP_CTL_EN && (s.axOf n).outp == 2 && (s.axOf n).st != .fault
    && !s.bit (CHOP_STATUS n) CHOP_STATUS_OC_A && !s.bit (CHOP_STATUS n) CHOP_STATUS_OC_B && !s.safe

/-- The electrical angle (R331). -/
def State.chopAngle (s : State) (n : Nat) : Nat :=
  let x := s.axOf n
  ((unsgn 48 (posInt x.pos) + x.q) * s.fld (CHOP_CTL n) CHOP_CTL_STEP_ANGLE) % 4096

/-- The sine of an angle from the table: magnitude and whether it is negative (R331). -/
def State.sine (s : State) (a : Nat) : Nat × Bool :=
  let q := a / 1024 % 4
  let k := a % 1024
  (s.fld (CHOP_SINE (if q % 2 = 0 then k else 1023 - k)) CHOP_SINE_VALUE, decide (2 ≤ q))

/-- Magnitude and sign of a phase: phase A (0) takes the sine of the angle, phase B (1) that of the angle + 1,024. -/
def State.phaseValue (s : State) (n ph : Nat) : Nat × Bool := s.sine ((s.chopAngle n + 1024 * ph) % 4096)

/-- The current code in force for a phase: I_REST or I_MOVE as taken at the latest event 1 (R332, R333). -/
def State.chopCurrent (s : State) (n : Nat) (cur : Nat) : Nat :=
  if (s.chopOf n).rest then CHOP_CUR_I_REST.get (w32 cur) else CHOP_CUR_I_MOVE.get (w32 cur)

/-- The threshold code of a phase (R332). -/
def State.chopCode (s : State) (n ph cur : Nat) : Nat := (s.phaseValue n ph).1 * s.chopCurrent n cur / 1023

/-- A phase of a chopper. -/
def ChopSt.phase (c : ChopSt) (ph : Nat) : ChopPhase := if ph = 0 then c.a else c.b
/-- Store a phase of a chopper. -/
def ChopSt.setPhase (c : ChopSt) (ph : Nat) (p : ChopPhase) : ChopSt := if ph = 0 then { c with a := p } else { c with b := p }
/-- Phase `ph` of chopper n. -/
def State.phaseOf (s : State) (n ph : Nat) : ChopPhase := (s.chopOf n).phase ph
/-- Store phase `ph` of chopper n. -/
def State.setPhase (s : State) (n ph : Nat) (p : ChopPhase) : State := s.setChop n ((s.chopOf n).setPhase ph p)

/-- The signals `x` clocks after the half-bridges have been told to go to IN levels `i1` and `i2`: one that changes IN has EN low for DEAD,
16 ns each, first (R333). -/
def ChopPhase.toward (p : ChopPhase) (i1 i2 : Bool) (x : Nat) : ChopPhase :=
  let on := decide (4 * CHOP_TIME_DEAD.get (w32 p.tim) ≤ x)
  { p with in1 := if on then i1 else p.in1, en1 := on || p.in1 == i1, in2 := if on then i2 else p.in2, en2 := on || p.in2 == i2 }
/-- The signals at clock `t` (R333, R334): in an off phase reverse drive for the clocks of fast decay, then both low sides on. -/
def ChopPhase.now (p : ChopPhase) (t : Nat) : ChopPhase :=
  if p.ph = .decay ∨ p.ph = .slow then
    let x := t - p.trip
    if x < p.fast then p.toward p.neg (!p.neg) x
    else (if p.fast = 0 then p else p.toward p.neg (!p.neg) p.fast).toward false false (x - p.fast)
  else p
/-- The coil driven in a direction: positive turns on half-bridge 1's high side and half-bridge 2's low side (R504). -/
def ChopPhase.drive (p : ChopPhase) (neg : Bool) : ChopPhase := { p with in1 := !neg, en1 := true, in2 := neg, en2 := true }
/-- Event 1: each half-bridge that will change IN has EN taken low (R333). -/
def ChopPhase.deadDrive (p : ChopPhase) (neg : Bool) : ChopPhase :=
  { p with en1 := p.en1 && p.in1 == !neg, en2 := p.en2 && p.in2 == neg }

/-- Event 1 of a chopping cycle (R333): settings and sign are taken; a threshold code of 0 stays in slow decay. -/
def State.chopEvent1 (s : State) (n ph : Nat) : State :=
  let p := (s.phaseOf n ph).now s.time.tick
  let cur := (s.reg (CHOP_CUR n)).toNat
  let neg := (s.phaseValue n ph).2
  let p := { p with tim := (s.reg (CHOP_TIME n)).toNat, cur := cur, neg := neg, excess := false, began := s.time.tick, trip := s.time.tick, fast := 0 }
  if s.chopCode n ph cur = 0 then s.setPhase n ph { p with ph := .slow }
  else s.setPhase n ph { p.deadDrive neg with ph := .dead }

/-- A chopping cycle begins on an energised phase that is off or rests in slow decay. -/
def chopCycleStart (n ph : Nat) (s : State) : State :=
  let p := s.phaseOf n ph
  if s.energised n ∧ (p.ph = .off ∨ p.ph = .slow) then s.chopEvent1 n ph else s

/-- Event 2: after DEAD the new IN is applied and blanking starts. -/
def deadTimeEnd (n ph : Nat) (s : State) : State :=
  let p := s.phaseOf n ph
  if p.ph = .dead then s.setPhase n ph { p.drive p.neg with ph := .blank } else s

/-- The clocks of fast decay, 25 in 100 ns, that an off phase begins with (R334): none, TOFF, or floor(TOFF × f / 16). -/
def State.fastTime (s : State) (n tim : Nat) : Nat :=
  let toff := 25 * (CHOP_TIME_OFF_M1.get (w32 tim) + 1)
  match s.fld (CHOP_CTL n) CHOP_CTL_DECAY with
  | 0 => 0
  | 1 => toff
  | 2 => toff * s.fld (CHOP_CTL n) CHOP_CTL_FAST / 16
  | _ => toff * (s.chopOf n).f / 16

/-- The sense amplifier's output in nanovolts, of a difference `v` at its inputs (R332). -/
def State.ampOut (s : State) (n : Nat) (v : Int) : Int := clampI 0 3200000000 ((5 * 2 ^ s.fld (CHOP_CTL n) CHOP_CTL_GAIN : Nat) * v)

/-- The amplifier's output exceeds `code` × 1.6 V / 1,024 (R332, R335). -/
def State.ampExceeds (s : State) (n code : Nat) (v : Int) : Bool := decide ((code * 1600000000 : Nat) < s.ampOut n v * 1024)

/-- The threshold comparator of a phase trips at `v` (R332). -/
def State.comparator (s : State) (n ph : Nat) (v : Int) : Bool := s.ampExceeds n (s.chopCode n ph (s.phaseOf n ph).cur) v

/-- A value in a field of TON: a trip time that 12 bits cannot hold leaves it open (log 107). -/
def State.putTon (s : State) (n ph t : Nat) : State :=
  let f := if ph = 0 then CHOP_TON_TON_A else CHOP_TON_TON_B
  if t < 4096 then s.putF (CHOP_TON n) f t else (s.putF (CHOP_TON n) f (Config.freeNat s.free)).tickFree

/-- Record the trip time (R333) and measure the on phase for the stall indication (R336). -/
def State.chopMeasure (s : State) (n ph t : Nat) : State :=
  let c := s.chopOf n
  let p := c.phase ph
  let s := s.putTon n ph t
  let full := s.chopCurrent n p.cur
  if s.bit (CHOP_CTL n) CHOP_CTL_STALL_EN ∧ (s.axOf n).vel ≠ 0 ∧ 7 * full ≤ 8 * s.chopCode n ph p.cur then
    if t < s.fld (CHOP_STALL n) CHOP_STALL_TON_MIN then
      let k := c.short + 1
      let on := decide (s.fld (CHOP_STALL n) CHOP_STALL_COUNT ≤ k)
      let s := s.setChop n { c with short := k, stall := c.stall || on }
      if on ∧ !c.stall then (s.setB (CHOP_STATUS n) CHOP_STATUS_STALLED).axStall n else s
    else s.setChop n { c with short := 0, stall := false }
  else s

/-- The comparator trips: the trip time is recorded and decay begins (R333, R334). -/
def State.chopTrip (s : State) (n ph t : Nat) : State :=
  let s := s.chopMeasure n ph t
  let p := s.phaseOf n ph
  s.setPhase n ph { p with ph := .decay, trip := s.time.tick, fast := s.fastTime n p.tim }

/-- Event 3: the comparator is enabled; already tripped, it ends the on phase there and sets OVERSHOOT. -/
def blankEnd (n ph : Nat) (v : Int) (s : State) : State :=
  let p := s.phaseOf n ph
  if p.ph = .blank then
    if s.comparator n ph v then
      let t := (CHOP_TIME_DEAD.get (w32 p.tim) * 16 + (CHOP_TIME_BLANK_M1.get (w32 p.tim) + 1) * 100) / 16
      ((s.setPhase n ph { p with excess := true }).setB (CHOP_STATUS n) CHOP_STATUS_OVERSHOOT).chopTrip n ph t
    else s.setPhase n ph { p with ph := .on }
  else s

/-- Event 4: the trip time counts from event 1 in units of 16 ns. -/
def comparatorTrip (n ph : Nat) (v : Int) (s : State) : State :=
  let p := s.phaseOf n ph
  if p.ph = .on ∧ s.comparator n ph v then s.chopTrip n ph ((s.time.tick - p.began) / 4) else s

/-- Events 5 and 6: TOFF ends, AUTO's fraction moves (R334), and the next cycle begins. -/
def offTimeEnd (n ph : Nat) (s : State) : State :=
  let c := s.chopOf n
  let p := c.phase ph
  if p.ph = .decay then
    let fast := s.fld (CHOP_CTL n) CHOP_CTL_FAST
    let f := if p.excess then min (c.f + 1) 15 else max (c.f - 1) fast
    (if s.fld (CHOP_CTL n) CHOP_CTL_DECAY = 3 then s.setChop n { c with f := f } else s).chopEvent1 n ph
  else s

/-- A phase within its on phase, blanking included (R335). -/
def ChopPhase.onPhase (p : ChopPhase) : Bool := p.ph == .blank || p.ph == .on

/-- The over-current comparator of a phase trips at `v` (R335). -/
def State.overTrip (s : State) (n ph : Nat) (v : Int) : Bool :=
  let p := s.phaseOf n ph
  p.onPhase && s.ampExceeds n (max (2 * s.chopCode n ph p.cur) 128) v

/-- An over-current trip of phase A, phase B or both in one tick (R335). -/
def overCurrent (n : Nat) (va vb : Int) (s : State) : State :=
  let a := s.overTrip n 0 va
  let b := s.overTrip n 1 vb
  if a || b then
    let s := (s.setIf a (CHOP_STATUS n) CHOP_STATUS_OC_A).setIf b (CHOP_STATUS n) CHOP_STATUS_OC_B
    ((s.count (CHOP_OC_CNT n)).logEv 0x50 n).axFault n
  else s

/-- The position has not changed for REST_DELAY microseconds, 250 clocks each (R332). -/
def restDelayExpiry (n : Nat) (s : State) : State :=
  let d := s.fld (CHOP_REST n) CHOP_REST_REST_DELAY
  if d ≠ 0 ∧ (s.axOf n).movedAt + 250 * d ≤ s.time.tick then s.setChop n { s.chopOf n with rest := true } else s

/-- The choppers follow a profile tick: a change of sign restarts its phase (R333), standstill ends the stall
indication (R336), a fault leaves the bridge off. -/
def State.chopTick (s : State) (n : Nat) : State :=
  let s := if (s.axOf n).vel = 0 then s.stallEnd n else s
  if !s.energised n then s.chopOff n
  else [0, 1].foldl (fun s ph =>
    let p := s.phaseOf n ph
    if p.ph ≠ .off ∧ p.ph ≠ .slow ∧ (s.phaseValue n ph).2 ≠ p.neg then s.chopEvent1 n ph else s) s

/-- Safe state on a bridge (R337): EN signals go low and EN clears. -/
def State.chopSafe (s : State) (n : Nat) : State := (s.clrB (CHOP_CTL n) CHOP_CTL_EN).chopOff n

/-- Writes of the CHOPPER block that are discarded whole (R331, R346). -/
def chopBad (s : State) (a0 i : Nat) (w : Word) : Bool :=
  if a0 = CHOP_CTL 0 then
    let a := CHOP_CTL_STEP_ANGLE.get w
    decide (a < 4) || decide (1024 < a) || (CHOP_CTL_STALL_EN.get w != 0 && s.fld (CHOP_STALL i) CHOP_STALL_COUNT == 0)
  else if a0 = CHOP_TIME 0 then CHOP_TIME_DEAD.get w == 0
  else if a0 = CHOP_STALL 0 then s.bit (CHOP_CTL i) CHOP_CTL_STALL_EN && CHOP_STALL_COUNT.get w == 0
  else false

/-- While EN is 1 only EN may change (R346). -/
def chopLocked (s : State) (i : Nat) : Bool := s.bit (CHOP_CTL i) CHOP_CTL_EN

/-- What a write of the CHOPPER block does beside setting its fields; EN stays clear in safe state, whose release energises nothing (R337,
log 107). -/
def chopHook (a0 i : Nat) (old w : Word) (s : State) : State :=
  if a0 = CHOP_CTL 0 then
    let s := if CHOP_CTL_EN.get old = 0 then s.setChop i { s.chopOf i with f := CHOP_CTL_FAST.get w } else s
    if CHOP_CTL_EN.get w = 0 then s.chopOff i else if s.safe then s.clrB (CHOP_CTL i) CHOP_CTL_EN else s
  else s

/-- CHOPn_STATE (R346). -/
def chopView (s : State) (a0 i : Nat) : Option Word :=
  if a0 = CHOP_STATE 0 then
    let c := s.chopOf i
    some (w32 ((if s.energised i then (if c.rest then 2 else 1) else 0) + 4 * b2n c.stall + 16 * c.f))
  else none

/-- SRC bits of CHOPPER_SUMMARY (R346). -/
def chopSrc (s : State) : Nat := packBits ((List.range 8).map (fun n => s.reg (CHOP_STATUS n) != 0))

/-! ## Encoder counters (R338 to R341) -/

/-- Encoder n. -/
def State.encOf (s : State) (n : Nat) : EncSt := tget (fun _ => {}) s.enc n
/-- Store encoder n. -/
def State.setEnc (s : State) (n : Nat) (e : EncSt) : State := { s with enc := tput (fun _ => {}) s.enc n e }

/-- Add to the count; it never wraps (R339). -/
def State.encAdd (s : State) (n : Nat) (d : Int) : State :=
  let d := if s.bit (ENC_CFG n) ENC_CFG_DIR_INV then -d else d
  let e := s.encOf n
  let c := e.count + d
  if absI c > posMax then (s.setEnc n { e with qrec := true }).setB (ENC_STATUS n) ENC_STATUS_RANGE
  else s.setEnc n { e with count := c }

/-- The step of a quadrature sample that changes one input: A leading B counts up. -/
def quadStep (a b a' : Bool) : Int := if a' ≠ a then (if a' ≠ b then 1 else -1) else (if a = b then -1 else 1)

/-- A sample of the filtered inputs A and B (R338). -/
def encSample (n : Nat) (a b : Bool) (s : State) : State :=
  let e := s.encOf n
  let s := s.setEnc n { e with a := a, b := b }
  let up := a && !e.a
  match s.fld (ENC_CFG n) ENC_CFG_MODE with
  | 1 =>
    if a ≠ e.a ∧ b ≠ e.b then
      ((s.setEnc n { s.encOf n with qrec := true }).setB (ENC_STATUS n) ENC_STATUS_QERR).count (ENC_QERR_CNT n)
    else if a = e.a ∧ b = e.b then s
    else s.encAdd n (quadStep e.a e.b a)
  | 2 => if up then s.encAdd n (if b then -1 else 1) else s
  | 3 =>
    let dn := b && !e.b
    if up && !dn then s.encAdd n 1 else if dn && !up then s.encAdd n (-1) else s
  | _ => s

/-- A raw level held since clock `t` has been stable for FILT motion clocks, two clocks each (R338). -/
def State.encStable (s : State) (n t : Nat) : Bool := decide (t + 2 * s.fld (ENC_CFG n) ENC_CFG_FILT ≤ s.time.tick)

/-- The filters of A and B take the raw levels that have been stable long enough, the one that was so first before the other (R338). -/
def encFilter (n : Nat) (s : State) : State :=
  let e := s.encOf n
  let ga := e.rawA != e.a && s.encStable n e.sinceA
  let gb := e.rawB != e.b && s.encStable n e.sinceB
  if ga && gb then
    if e.sinceA = e.sinceB then encSample n e.rawA e.rawB s
    else encSample n e.rawA e.rawB (if e.sinceA < e.sinceB then encSample n e.rawA e.b s else encSample n e.a e.rawB s)
  else if ga then encSample n e.rawA e.b s
  else if gb then encSample n e.a e.rawB s
  else s

/-- An edge of the filtered index input (R340); homing takes it (R319). -/
def indexSample (n : Nat) (z : Bool) (s : State) : State :=
  let e := s.encOf n
  let s := s.setEnc n { e with z := z }
  let sel := z != e.z && z != s.bit (ENC_CFG n) ENC_CFG_IDX_EDGE && (!s.bit (ENC_CFG n) ENC_CFG_IDX_GATE || (e.a && e.b))
  if sel then
    let c := unsgn 48 e.count
    let s := (s.setReg (ENC_IDX_LO n) (w32 c)).setReg (ENC_IDX_HI n) (w32 (c / 2 ^ 32))
    let s := (s.setReg (ENC_IDX_NS n) (w32 (todNs s.time.tod))).setB (ENC_STATUS n) ENC_STATUS_INDEX
    let m := s.fld (ENC_CFG n) ENC_CFG_IDX_MODE
    let y := s.encOf n
    let s := s.setEnc n { y with once := true, count := if m = 2 ∨ (m = 1 ∧ !y.once) then 0 else y.count }
    s.axIndex n
  else s

/-- The filter of Z takes a raw level that has been stable long enough (R338). -/
def indexFilter (n : Nat) (s : State) : State :=
  let e := s.encOf n
  if e.rawZ ≠ e.z ∧ s.encStable n e.sinceZ then indexSample n e.rawZ s else s

/-- The filters of an encoder take what has been stable long enough, A and B before Z, so that an index edge latches the count after that
clock's own count (R338, R340). It runs at every clock (`tickAdvance`) and wherever a level or FILT changes, so a level is taken at the clock at which it has been stable for FILT. -/
def encSettle (n : Nat) (s : State) : State := indexFilter n (encFilter n s)

/-- The inputs A and B of an encoder stand at levels `a` and `b` (R338): a level that changes is stable from now. -/
def encoderEdge (n : Nat) (a b : Bool) (s : State) : State :=
  let e := s.encOf n
  encSettle n (s.setEnc n { e with rawA := a, rawB := b, sinceA := if a = e.rawA then e.sinceA else s.time.tick,
                                   sinceB := if b = e.rawB then e.sinceB else s.time.tick })

/-- The index input of an encoder stands at level `z` (R338, R340). -/
def indexEdge (n : Nat) (z : Bool) (s : State) : State :=
  let e := s.encOf n
  encSettle n (s.setEnc n { e with rawZ := z, sinceZ := if z = e.rawZ then e.sinceZ else s.time.tick })

/-! ## Converters (R342 to R344) -/

/-- Converter c. -/
def State.adcOf (s : State) (c : Nat) : AdcSt := tget (fun _ => {}) s.adc c
/-- Store converter c. -/
def State.setAdc (s : State) (c : Nat) (x : AdcSt) : State := { s with adc := tput (fun _ => {}) s.adc c x }

/-- Start a sequence on an idle converter. -/
def State.adcStart (s : State) (c q : Nat) : State :=
  s.setAdc c { s.adcOf c with seq := q, busy := true, res := [], start := s.time.tod }

/-- A register start (R343). -/
def State.adcRegStart (s : State) (c : Nat) (w : Word) : State :=
  if ADC_CMD_START.get w = 0 then s
  else if (s.adcOf c).busy then s.setB (ADC_STATUS c) ADC_STATUS_START_REFUSED
  else s.adcStart c (ADC_CMD_SEQ.get w)

/-- The channel of conversion k of a sequence. -/
def State.adcChannel (s : State) (c q k : Nat) : Nat := bitsOf (8 * (k % 4) + 4) (8 * (k % 4)) (s.reg (ADC_SEQ_CH c q (k / 4))).toNat

/-- The result of a conversion of `v` nanovolts on a channel (R342): channels 0 to 15 take the amplifier's output. -/
def State.adcResult (s : State) (ch : Nat) (v : Int) : Nat :=
  (clampI 0 4095 (if ch < 16 then s.ampOut (ch / 2) v * 4096 / 3200000000 else v * 4096 / 1800000000)).toNat

/-- One conversion of a running sequence, `v` nanovolts standing at its next channel (R342, R343). The last
conversion ends BUSY and leaves the results to be delivered. -/
def conversion (c : Nat) (v : Int) (s : State) : State :=
  let x := s.adcOf c
  if x.busy then
    let k := x.res.length
    let ch := s.adcChannel c x.seq k
    let word := s.adcResult ch v + 4096 * (ch % 16)
    let last := s.fld (ADC_SEQ_CFG c x.seq) ADC_SEQ_CFG_LEN_M1 ≤ k
    let x := { x with res := x.res ++ [word], start := if k = 0 then s.time.tod else x.start }
    s.setAdc c (if last then { x with busy := false, out := x.out ++ [(x.seq, x.res, x.start)] } else x)
  else s

/-! ## The CAPTURE block's registers -/

/-- Writes of the CAPTURE block that are discarded whole (R343, R348). -/
def captureBad (a0 : Nat) (w : Word) : Bool :=
  if a0 = ENC_CFG 0 then ENC_CFG_IDX_MODE.get w == 3
  else if a0 = ADC_SEQ_BOFF 0 0 then ADC_SEQ_BOFF_BOFF.get w % 2 == 1
  else if a0 = ADC_SEQ_CH 0 0 0 then anyN 4 (fun j => decide (20 ≤ bitsOf (8 * j + 4) (8 * j) w.toNat))
  else false

/-- Encoder settings are locked while MODE is not OFF, a converter's sequences while it is BUSY (R343, R348). -/
def captureLocked (s : State) (a0 i : Nat) : Bool :=
  if a0 = ENC_CFG 0 then s.fld (ENC_CFG i) ENC_CFG_MODE != 0 else (s.adcOf i).busy

/-- What a write of the CAPTURE block does beside setting its fields.
A load of −2^47, which lies past −(2^47 − 1), holds there and sets RANGE (R339; DEDUCED, log 127). -/
def captureHook (a0 i : Nat) (w : Word) (s : State) : State :=
  if a0 = ENC_CFG 0 then encSettle i (s.setEnc i { s.encOf i with once := false })
  else if a0 = ENC_COUNT_LO 0 then { s.setReg (ENC_COUNT_LO i) 0 with held := tput (fun _ => 0) s.held (ENC_COUNT_LO i) w }
  else if a0 = ENC_COUNT_HI 0 then
    let lo := (tget (fun _ => 0) s.held (ENC_COUNT_LO i)).toNat
    let c := sgn 48 (lo + 2 ^ 32 * ENC_COUNT_HI_COUNT.get w)
    let s := s.setReg (ENC_COUNT_HI i) 0
    if c < -posMax then (s.setEnc i { s.encOf i with count := -posMax, qrec := true }).setB (ENC_STATUS i) ENC_STATUS_RANGE
    else s.setEnc i { s.encOf i with count := c }
  else if a0 = ADC_CMD 0 then s.adcRegStart i w
  else s

/-- Registers of the CAPTURE block that read the live state. -/
def captureView (s : State) (a0 i : Nat) : Option Word :=
  if a0 = ENC_COUNT_LO 0 then some (w32 (unsgn 48 (s.encOf i).count))
  else if a0 = ENC_COUNT_HI 0 then some (tget (fun _ => 0) s.latch (ENC_COUNT_LO i))
  else if a0 = ADC_STATE 0 then
    let x := s.adcOf i
    some (w32 (b2n x.busy + 16 * x.seq + 256 * x.res.length))
  else none

/-- What a read of the CAPTURE block changes. -/
def captureRead (a0 i : Nat) (s : State) : State :=
  if a0 = ENC_COUNT_LO 0 then
    { s with latch := tput (fun _ => 0) s.latch (ENC_COUNT_LO i) (w32 (unsgn 48 (s.encOf i).count / 2 ^ 32)) }
  else s

/-- SRC bits of CAPTURE_SUMMARY (R348). -/
def captureSrc (s : State) : Nat :=
  packBits ((List.range 8).map (fun k => anyN 4 (fun j => s.reg (ENC_STATUS (4 * k + j)) != 0))
    ++ [s.reg (ADC_STATUS 0) != 0, s.reg (ADC_STATUS 1) != 0])

end Sys2Proof.Machine
end

