-- ==== Sys2Proof/Machine/DmaCtl.lean ====
section
/-! DEFINITION. DMA channels (09): start, abort, halts, requests, and the DMA block's registers. What moves the data stands in
DmaXfer.lean. -/
namespace Sys2Proof.Machine

/-- Channel n. -/
def State.dmaOf (s : State) (n : Nat) : DmaSt := tget (fun _ => {}) s.dma n
/-- Store channel n. -/
def State.setDma (s : State) (n : Nat) (x : DmaSt) : State := { s with dma := tput (fun _ => {}) s.dma n x }

/-- The initiators that a channel is. -/
def dmaR (n : Nat) : Initiator := .dmaRead (Fin.ofNat 32 n)
/-- Its write side. -/
def dmaW (n : Nat) : Initiator := .dmaWrite (Fin.ofNat 32 n)

/-- The fetched descriptor's word i. -/
def DmaSt.word (x : DmaSt) (i : Nat) : Nat := x.desc.getD i 0
/-- LENGTH -/ def DmaSt.len (x : DmaSt) : Nat := bitsOf 23 0 (x.word 0)
/-- MODE -/ def DmaSt.mode (x : DmaSt) : Nat := bitsOf 26 24 (x.word 0)
/-- NOTIFY -/ def DmaSt.notify (x : DmaSt) : Bool := bitOf 27 (x.word 0)
/-- WB -/ def DmaSt.wb (x : DmaSt) : Bool := bitOf 28 (x.word 0)
/-- SRC_FQ -/ def DmaSt.srcFq (x : DmaSt) : Bool := bitOf 29 (x.word 0)
/-- DST_FQ -/ def DmaSt.dstFq (x : DmaSt) : Bool := bitOf 30 (x.word 0)
/-- LAST -/ def DmaSt.last (x : DmaSt) : Bool := bitOf 31 (x.word 0)
/-- Source queue -/ def DmaSt.srcQ (x : DmaSt) : Nat := bitsOf 8 0 (x.word 1)
/-- Destination queue -/ def DmaSt.dstQ (x : DmaSt) : Nat := bitsOf 8 0 (x.word 2)
/-- SEL -/ def DmaSt.sel (x : DmaSt) : Nat := bitsOf 5 0 (x.word 6)
/-- SRC_FIX -/ def DmaSt.srcFix (x : DmaSt) : Bool := bitOf 6 (x.word 6)
/-- DST_FIX -/ def DmaSt.dstFix (x : DmaSt) : Bool := bitOf 7 (x.word 6)
/-- Bytes per request -/ def DmaSt.burstLen (x : DmaSt) : Nat := (bitsOf 17 8 (x.word 6) + 1) * 4
/-- A descriptor is fetched. -/ def DmaSt.fetched (x : DmaSt) : Bool := !x.desc.isEmpty

/-- STATE: 0 IDLE, 1 RUNNING or WAITING, 3 HALTED; WAITING is read from the conditions. -/
def State.dmaState (s : State) (n : Nat) : Nat := s.fld (DMA_STATE n) DMA_STATE_STATE
/-- The channel is RUNNING or WAITING. -/
def State.dmaActive (s : State) (n : Nat) : Bool := s.dmaState n == 1

/-- A request for the channel is present: none needed, a burst granted, a pending SIGNAL, an asserted DREQ (R257). -/
def State.dmaRequest (s : State) (n : Nat) : Bool :=
  let x := s.dmaOf n
  let sel := x.sel
  sel == 0 || decide (0 < x.burst)
    || (if sel ≤ 0x20 then s.fld (DMA_STATE n) DMA_STATE_PENDING != 0 else s.dreq.contains (sel - 0x21))

/-- Queue q takes a word: it has room, or what comes is discarded there after a flush (R245). -/
def State.dmaRoom (s : State) (q : Nat) : Bool := s.fqRoom q || ((s.fqOf q).en && (s.fqOf q).discard)

/-- The channel waits for a word of its source queue, between segments, or for room in its destination queue (R252). -/
def State.dmaBlocked (s : State) (n : Nat) : Bool :=
  let x := s.dmaOf n
  (x.goal == 0 && x.srcFq && !x.srcDone && (s.fqOf x.srcQ).words.isEmpty) || ((x.goal == 0 || x.drain) && x.dstFq && !s.dmaRoom x.dstQ)

/-- The channel waits: for a request, for a word of its source queue, for room in its destination queue (R251, R252, R257). -/
def State.dmaWaits (s : State) (n : Nat) : Bool :=
  s.dmaActive n && (s.dmaOf n).fetched && (!s.dmaRequest n || s.dmaBlocked n)

/-- The channel is in flight: it holds a region of the shared buffer, which a channel that waits for a queue does not (R251). -/
def State.dmaHolds (s : State) (n : Nat) : Bool := s.dmaActive n && (s.dmaOf n).region && !s.dmaBlocked n

/-- The channel is ready and competes for a region (R251). -/
def State.dmaWants (s : State) (n : Nat) : Bool :=
  let x := s.dmaOf n
  s.dmaActive n && x.fetched && (x.goal != 0 || (!x.srcDone && decide (x.moved < x.len))) && !s.dmaWaits n && !s.dmaHolds n

/-- PRIO of a channel. -/
def State.dmaPrio (s : State) (n : Nat) : Nat := s.fld (DMA_CFG n) DMA_CFG_PRIO

/-- Places that channel n stands behind the channel of its PRIO that was served last. -/
def State.dmaTurn (s : State) (n : Nat) : Nat := (n + 31 - tget (fun _ => 0) s.txRR (8 + s.dmaPrio n)) % 32

/-- Channel m goes before channel n: a higher PRIO, or an earlier turn among equals (R251). -/
def State.dmaBefore (s : State) (m n : Nat) : Bool :=
  decide (s.dmaPrio n < s.dmaPrio m) || (s.dmaPrio m == s.dmaPrio n && decide (s.dmaTurn m < s.dmaTurn n))

/-- The channel wins one of the eight regions: those held, and those that go to channels before it, leave one free (R251). -/
def State.dmaWins (s : State) (n : Nat) : Bool :=
  s.dmaWants n && decide (((List.range 32).filter (fun m => s.dmaHolds m || (s.dmaWants m && s.dmaBefore m n))).length < 8)

/-- Channel n takes a region; round robin goes on from it. -/
def State.dmaTake (s : State) (n : Nat) : State :=
  let s : State := { s with txRR := tput (fun _ => 0) s.txRR (8 + s.dmaPrio n) n }
  s.setDma n { s.dmaOf n with region := true }

/-- A channel that waits for a queue gives its region up, and competes again for one (R251): done after every command. -/
def State.dmaYield (s : State) : State :=
  if s.dma.any (fun p => p.2.region && s.dmaBlocked p.1) then
    s.forN 32 fun s n => if (s.dmaOf n).region && s.dmaBlocked n then s.setDma n { s.dmaOf n with region := false } else s
  else s

/-- The accesses of channel n that wait are given up with what they have brought; a write that has been issued lands, and the completion of a read
sent on the link is discarded when it comes (R260). -/
def State.dmaDrop (s : State) (n : Nat) : State :=
  s.forget fun x => x.who == dmaR n || x.who == dmaW n

/-- START of channel n (R258, R260): accepted in IDLE and HALTED. -/
def State.dmaStart (s : State) (n : Nat) : State :=
  if s.dmaActive n then s
  else
    let skip := if s.bit (DMA_STATE n) DMA_STATE_DISCARD then (s.dmaOf n).skipQ else none
    let pend := s.fld (DMA_STATE n) DMA_STATE_PENDING
    let s := s.setReg (DMA_STATE n) (DMA_STATE_PENDING.put (DMA_STATE_STATE.put 0 1) pend)
    ((s.setReg (DMA_HOPS n) 0).setB (DMA_CTL n) DMA_CTL_START).setDma n { skipQ := skip }

/-- A channel halts (R258): state, cause, side and addresses are latched; a cut source packet, one with a poisoned word at the head too, is to be
skipped at the next START, as is one still to be skipped; an open destination packet gets a terminator; accesses that wait are given up. -/
def State.dmaHalt (s : State) (n cause addr side desc : Nat) : State :=
  let s := s.dmaDrop n
  let x := s.dmaOf n
  let cut := x.fetched && x.srcFq && !x.srcDone && ((s.fqOf x.srcQ).openHead || cause == 2)
  let s := if x.fetched && x.dstFq && x.dstOpen then s.fqPush x.dstQ ⟨0, true, false, 0, false, true⟩ else s
  let pend := s.fld (DMA_STATE n) DMA_STATE_PENDING
  let w := w32 (3 + 2 ^ 4 * cause + 2 ^ 8 * side + 2 ^ 9 * b2n (cut || x.skipQ.isSome) + 2 ^ 16 * pend)
  let s := ((s.setReg (DMA_STATE n) w).setReg (DMA_FAIL_ADDR n) (w32 addr)).setReg (DMA_FAIL_DESC n) (w32 desc)
  ((s.setB (DMA_STATUS n) DMA_STATUS_HALT).clrB (DMA_CTL n) DMA_CTL_START).setDma n
    { skipQ := if cut then some x.srcQ else x.skipQ }

/-- DMAn_NEXT. -/
def State.dmaNext (s : State) (n : Nat) : Nat := (s.reg (DMA_NEXT n)).toNat

/-- ABORT of channel n (R260). -/
def State.dmaAbort (s : State) (n : Nat) : State := if s.dmaActive n then s.dmaHalt n 5 0 0 (s.dmaNext n) else s

/-- SIGNAL of pilot p adds a request to each channel whose descriptor names it (R257). -/
def State.dmaSignal (s : State) (p : Nat) : State := s.forN 32 fun s n =>
  if s.dmaActive n ∧ (s.dmaOf n).fetched ∧ (s.dmaOf n).sel = p + 1 then
    let k := s.fld (DMA_STATE n) DMA_STATE_PENDING
    if k < 15 then s.putF (DMA_STATE n) DMA_STATE_PENDING (k + 1) else s.setB (DMA_STATUS n) DMA_STATUS_REQ_OVERFLOW
  else s

/-- A DREQ input asserts or withdraws its level (R257); a fall after a grant is flagged. -/
def dreqLevel (k : Nat) (on : Bool) (s : State) : State :=
  let s' : State := { s with dreq := if on then ninsert k s.dreq else nerase k s.dreq }
  if on then s'
  else s'.forN 32 fun s n =>
    let x := s.dmaOf n
    s.setIf (s.dmaActive n && x.sel == k + 0x21 && decide (0 < x.burst)) (DMA_STATUS n) DMA_STATUS_REQ_WITHDRAWN

/-- A pending request is granted one burst: the channel wins a region for it (R257). -/
def burstGrant (n : Nat) (s : State) : State :=
  let x := s.dmaOf n
  if x.sel != 0 && x.burst == 0 && s.dmaWins n then
    let k := s.fld (DMA_STATE n) DMA_STATE_PENDING
    let s := if x.sel ≤ 0x20 then s.putF (DMA_STATE n) DMA_STATE_PENDING (k - 1) else s
    let s := s.dmaTake n
    s.setDma n { s.dmaOf n with burst := min x.burstLen (x.len - x.moved) }
  else s

/-- PRIO and NEXT are locked while the channel is RUNNING or WAITING (R266). -/
def dmaLocked (s : State) (i : Nat) : Bool := s.dmaActive i

/-- What a write of the DMA block does beside setting its fields. -/
def dmaHook (a0 i : Nat) (old w : Word) (s : State) : State :=
  if a0 = DMA_CTL 0 then
    let s := s.setReg (DMA_CTL i) old
    let s := if DMA_CTL_START.get w ≠ 0 then s.dmaStart i else s
    if DMA_CTL_ABORT.get w ≠ 0 then s.dmaAbort i else s
  else s

/-- Registers of the DMA block that read the live state. -/
def dmaView (s : State) (a0 i : Nat) : Option Word :=
  if a0 = DMA_STATE 0 then
    some (if s.dmaWaits i then DMA_STATE_STATE.put (s.reg (DMA_STATE i)) 2 else s.reg (DMA_STATE i))
  else if a0 = DMA_ACTIVE then some (w32 (packBits ((List.range 32).map s.dmaActive)))
  else none

/-- SRC bits of DMA_SUMMARY (R267). -/
def dmaSrc (s : State) : Nat := packBits ((List.range 6).map (fun k => anyN 32 fun n => bitOf k (s.reg (DMA_STATUS n)).toNat))

end Sys2Proof.Machine
end

