-- ==== Sys2Proof/Machine/Pilot.lean ====
section
/-! DEFINITION. Pilots (13, R350 to R372): pins, instructions, waits, queues, commands, safe state, the PILOT block's registers. -/
namespace Sys2Proof.Machine

/-- Pilot n. -/
def State.pilotOf (s : State) (n : Nat) : PilotSt := tget (fun _ => {}) s.pilot n
/-- Store pilot n. -/
def State.setPilot (s : State) (n : Nat) (x : PilotSt) : State := { s with pilot := tput (fun _ => {}) s.pilot n x }
/-- Change pilot n. -/
def State.modPilot (s : State) (n : Nat) (f : PilotSt → PilotSt) : State := s.setPilot n (f (s.pilotOf n))
/-- Pilot set k. -/
def State.psetOf (s : State) (k : Nat) : PsetSt := tget (fun _ => {}) s.pset k
/-- Store pilot set k. -/
def State.setPset (s : State) (k : Nat) (x : PsetSt) : State := { s with pset := tput (fun _ => {}) s.pset k x }

/-! ## Pins (R351, R352, R505, R506) -/

/-- The positions of a mask, from 0 upward. -/
def maskPins (m : Nat) : List Nat := (List.range 8).filter (fun i => bitOf i m)
/-- OUT_MASK of pilot n. -/
def State.outMask (s : State) (n : Nat) : Nat := s.fld (PL_PINCFG n) PL_PINCFG_OUT_MASK
/-- IN_MASK of pilot n. -/
def State.inMask (s : State) (n : Nat) : Nat := s.fld (PL_PINCFG n) PL_PINCFG_IN_MASK
/-- SIDE_MASK of pilot n. -/
def State.sideMask (s : State) (n : Nat) : Nat := s.fld (PL_PINCFG n) PL_PINCFG_SIDE_MASK
/-- OUT_CNT. -/
def State.outCnt (s : State) (n : Nat) : Nat := (maskPins (s.outMask n)).length
/-- IN_CNT. -/
def State.inCnt (s : State) (n : Nat) : Nat := (maskPins (s.inMask n)).length

/-- A trigger claims PIO pin 4m + 3 (R505): by OUT as the latest profile tick took it (R295), as on the MIO pins (R507). -/
def State.pioTrig (s : State) (m : Nat) : Bool :=
  s.fld (TTRIG_CTL m) TTRIG_CTL_MODE != 0 && (tget (fun _ => {}) s.ax (16 + m)).outp != 0

/-- The level that the function of position i of set k gives its ball (R505), none where it drives none; a link test takes the ball while GEN or CHK
is set (R450). In safe state the pilot pins and the trigger's ball that R506 names leave their source for SAFE_LVL and SAFE_LEVEL, the link test too. -/
def State.pioOwn (s : State) (k i : Nat) : Option Bool :=
  let j := 8 * k + i
  if s.safe ∧ bitOf i (s.fld (PS_SAFE k) PS_SAFE_SAFE_EN) then some (bitOf i (s.fld (PS_SAFE k) PS_SAFE_SAFE_LVL))
  else
    let pilot := bitOf i (s.fld (PS_OE k) PS_OE_OE)
    let trig := !pilot && j % 4 == 3 && s.pioTrig (j / 4)
    if s.linkTest (16 + k) && !(s.safe && trig) then s.linkDrive (16 + k) i
    else if pilot then some (bitOf i (s.psetOf k).lvl)
    else if trig then some (s.trigLevel (j / 4))
    else none

/-- The level that the device drives on the ball of position i of set k: none in a bank that is down (R463), and the boundary register goes before
function and safe state (R454). -/
def State.pioBall (s : State) (k i : Nat) : Option Bool := s.ball (192 + (8 * k + i)) (s.pioOwn k i)

/-- The level at the ball of position i of set k as far as it does not come from outside: what the device drives there, and 0 for an input of a bank
that is down (R463, R500). -/
def State.pioDriven (s : State) (k i : Nat) : Option Bool :=
  if s.rst.banks.contains (ballBank (192 + (8 * k + i))) then some false else s.pioBall k i

/-- The level at the ball of position i of set k. -/
def State.pioLevel (s : State) (k i : Nat) : Bool := (s.pioDriven k i).getD (bitOf i (s.psetOf k).ext)

/-- The level of position i that the two-clock synchroniser gives (R351): what the device gave the ball two clocks ago; of a ball that it
left then, the level that the outside is said to bring. -/
def PsetSt.sync (p : PsetSt) (i : Nat) : Bool := if bitOf i p.m2 then bitOf i p.l2 else bitOf i p.ext
/-- Synchronised levels of a set as one number. -/
def State.syncLevels (s : State) (k : Nat) : Nat := packBits ((List.range 8).map (s.psetOf k).sync)

/-- The IN group as one number: IN pin k gives bit k. -/
def State.inGroup (s : State) (n lv : Nat) : Nat := packBits ((maskPins (s.inMask n)).map (fun i => bitOf i lv))

/-- Levels (position, level) that a value drives on the OUT group: OUT pin k takes bit k. -/
def State.outGroup (s : State) (n v : Nat) : List (Nat × Bool) := (maskPins (s.outMask n)).mapIdx (fun k i => (i, bitOf k v))

/-- Levels that the MARK of an instruction drives on the side group (R355). -/
def State.sideGroup (s : State) (n mark : Nat) : List (Nat × Bool) :=
  (maskPins (s.sideMask n)).mapIdx (fun k i => (i, bitOf (4 * mark + k) (s.reg (PL_MARK n)).toNat))

/-- Set bit i of a number to a level. -/
def setBitTo (i : Nat) (b : Bool) (v : Nat) : Nat := putBits i i v (b2n b)

/-- Levels of both groups; a pin of both that takes two levels in one clock has an open level (log 61). -/
def mergeDrive (free : Nat) (side out : List (Nat × Bool)) : List (Nat × Bool) :=
  (side.filter (fun p => !out.any (fun q => q.1 == p.1))) ++
    out.map (fun q => if side.any (fun p => p.1 == q.1 && p.2 != q.2) then (q.1, Config.freeBool (free + q.1)) else q)

/-- Drive levels. `clash` names the positions that a lower-numbered pilot of the set drives in the same clock: its level stands
there, and PIN_CLASH is set (R352). -/
def State.drivePins (s : State) (n clash : Nat) (l : List (Nat × Bool)) : State :=
  let s := s.modPilot n fun x => { x with drv := l.foldl (fun v p => setBitTo p.1 p.2 v) x.drv }
  let p := s.psetOf (n / 4)
  let won := l.filter (fun q => !bitOf q.1 clash)
  let s := s.setPset (n / 4) { p with lvl := won.foldl (fun v q => setBitTo q.1 q.2 v) p.lvl }
  s.setIf (l.any (fun q => bitOf q.1 clash)) (PL_STATUS n) PL_STATUS_PIN_CLASH

/-! ## Instructions (R355 to R357) -/

/-- The address in the interconnect map of word a of set k (R15). -/
def pilotAddr (k a : Nat) : Nat := 0x3B000000 + k * 0x400 + a * 4
/-- The word at PC. -/
def State.pilotWord (s : State) (n : Nat) : Nat := s.rdN (pilotAddr (n / 4) (s.pilotOf n).pc) 3

/-- OP -/ def plOp (w : Nat) : Nat := bitsOf 15 12 w
/-- MARK -/ def plMark (w : Nat) : Nat := bitsOf 11 10 w
/-- DWELL -/ def plDwell (w : Nat) : Nat := bitsOf 9 7 w
/-- ARG -/ def plArg (w : Nat) : Nat := bitsOf 5 0 w
/-- NEXT -/ def plNext (w : Nat) : Nat := bitsOf 23 16 w
/-- LOOP -/ def plLoop (w : Nat) : Nat := bitsOf 7 0 w
/-- SEL -/ def plSel (w : Nat) : Nat := bitsOf 9 8 w

/-- The word is illegal for pilot n (R356, R367). -/
def State.plIllegal (s : State) (n w : Nat) : Bool :=
  let a := plArg w
  (plOp w != 6 && bitOf 6 w) || (match plOp w with
    | 1 => a % 16 != 0 || (a / 16 == 1 && s.inCnt n != s.outCnt n)
    | 2 => a % 16 != 0 || decide (2 ≤ a / 16)
    | 3 => a / 4 != 0
    | 4 => a / 4 != 0
    | 5 => decide (6 ≤ a / 8)
    | 6 => plSel w == 3
    | 7 => a / 8 != 0 || a % 8 == 0
    | 8 => decide (5 ≤ a / 8)
    | _ => true)

/-- Dwell count k (R355). -/
def State.dwellCount (s : State) (n k : Nat) : Nat :=
  if k < 4 then bitsOf (8 * k + 7) (8 * k) (s.reg (PL_DWELL_LO n)).toNat
  else bitsOf (8 * (k - 4) + 7) (8 * (k - 4)) (s.reg (PL_DWELL_HI n)).toNat

/-- Address a lies in the window of pilot n (R362). -/
def State.inWindow (s : State) (n a : Nat) : Bool :=
  decide (s.fld (PL_WIN n) PL_WIN_FIRST ≤ a) && decide (a ≤ s.fld (PL_WIN n) PL_WIN_LAST)

/-- A pilot halts with a sticky bit (R367). -/
def State.pilotHalt (s : State) (n : Nat) (f : Fld) : State :=
  (s.modPilot n fun x => { x with run := 2, phase := .ready }).setB (PL_STATUS n) f

/-- The successor follows: outside the window the pilot halts with ESCAPE, its PC at the outside address (R362). -/
def State.pilotGo (s : State) (n : Nat) : State :=
  let a := (s.pilotOf n).next
  let s := s.modPilot n fun x => { x with pc := a, phase := .ready }
  if s.inWindow n a then s else s.pilotHalt n PL_STATUS_ESCAPE

/-- The instruction has executed, or its wait is over: its dwell follows (R354). -/
def State.pilotDwell (s : State) (n dw : Nat) : State :=
  if dw = 0 then s.pilotGo n else s.modPilot n fun x => { x with phase := .dwell }

/-- A pilot executes now: it is RUNNING and at an execute clock. -/
def State.pilotExecutes (s : State) (n : Nat) : Bool := (s.pilotOf n).run == 1 && (s.pilotOf n).phase == .ready

/-- SHIFT -/ def State.plShift (s : State) (n : Nat) : Nat := (s.reg (PL_SHIFT n)).toNat
/-- WA -/ def State.plWa (s : State) (n : Nat) : Nat := (s.reg (PL_WA n)).toNat
/-- WB -/ def State.plWb (s : State) (n : Nat) : Nat := (s.reg (PL_WB n)).toNat
/-- Set SHIFT. -/ def State.setShift (s : State) (n v : Nat) : State := s.setReg (PL_SHIFT n) (w32 v)
/-- Set WA. -/ def State.setWa (s : State) (n v : Nat) : State := s.setReg (PL_WA n) (w32 v)
/-- Set BCNT. -/ def State.setBcnt (s : State) (n v : Nat) : State := s.modPilot n fun x => { x with bcnt := v % 64 }
/-- BCNT rises and stops at 63 (R350). -/
def State.addBcnt (s : State) (n w : Nat) : State := s.modPilot n fun x => { x with bcnt := min 63 (x.bcnt + w) }

/-- The w bits taken out of SHIFT (R357). -/
def shiftOut (dir : Bool) (w v : Nat) : Nat := if dir then v % 2 ^ w else v / 2 ^ (32 - w)
/-- SHIFT moved by w bits, with a group of w bits put in (R357). -/
def shiftIn (dir : Bool) (w v g : Nat) : Nat := if dir then v / 2 ^ w + g % 2 ^ w * 2 ^ (32 - w) else (v * 2 ^ w) % 2 ^ 32 + g % 2 ^ w
/-- DIR of pilot n. -/
def State.plDir (s : State) (n : Nat) : Bool := s.bit (PL_CFG n) PL_CFG_DIR

/-- Record what lies at the set's balls from outside, as the synchroniser brings it. -/
def State.presentPins (s : State) (k ext : Nat) : State := s.setPset k { s.psetOf k with ext := ext % 256 }

/-- The frame of an execute clock (R354): fetch with its parity check, the illegal encodings, the pins with the synchronised levels
`lv`, and the side pins. `body` gives the levels driven on the OUT group, and changes registers and the phase. `op` is the opcode whose
step this is; a word of another opcode is not executed by it. -/
def State.pilotStep (s : State) (n op ext clash : Nat) (parity : Bool)
    (drive : State → Nat → List (Nat × Bool)) (body : State → Nat → Nat → State) : State :=
  if !s.pilotExecutes n then s
  else
    let s := s.presentPins (n / 4) ext
    let pc := (s.pilotOf n).pc
    let p := s.psetOf (n / 4)
    let s := if parity then s.setPset (n / 4) { p with bad := ninsert pc p.bad } else s
    let w := s.pilotWord n
    if plOp w ≠ op then s
    else if (s.psetOf (n / 4)).bad.contains pc then (s.pilotHalt n PL_STATUS_PARITY).logEv 0x60 n
    else if s.plIllegal n w then s.pilotHalt n PL_STATUS_ILLEGAL
    else
      let lv := s.syncLevels (n / 4)
      let s' := (s.drivePins n clash (mergeDrive s.free (s.sideGroup n (plMark w)) (drive s w))).tickFree
      body (s'.modPilot n fun x => { x with next := plNext w }) w lv

/-- No OUT pin is driven. -/
def noDrive (_ : State) (_ : Nat) : List (Nat × Bool) := []

/-- After an instruction without a wait. -/
def State.pilotDone (s : State) (n w : Nat) : State := s.pilotDwell n (s.dwellCount n (plDwell w))

/-- What DRIVE puts on the OUT group (R356). -/
def driveOut (n : Nat) (s : State) (w : Nat) : List (Nat × Bool) :=
  s.outGroup n (match plArg w / 16 with
    | 2 => 0
    | 3 => 255
    | _ => shiftOut (s.plDir n) (s.outCnt n) (s.plShift n))

/-- DRIVE (R356, R357). -/
def driveBody (n : Nat) (s : State) (w lv : Nat) : State :=
  let k := s.outCnt n
  let src := plArg w / 16
  let s := if src < 2 then
      (s.setShift n (shiftIn (s.plDir n) k (s.plShift n) (if src = 1 then s.inGroup n lv else 0))).addBcnt n k
    else s
  s.pilotDone n w

/-- SAMPLE (R356, R357). -/
def sampleBody (n : Nat) (s : State) (w lv : Nat) : State :=
  let k := s.inCnt n
  let g := s.inGroup n lv
  let s := if plArg w / 16 = 0 then (s.setShift n (shiftIn (s.plDir n) k (s.plShift n) g)).addBcnt n k else s.setWa n g
  s.pilotDone n w

/-! ## Queues (R359 to R361) -/

/-- Depth of the transmit queue. -/
def State.txDepth (s : State) (n : Nat) : Nat := s.fld (PL_CFG n) PL_CFG_TXDEPTH
/-- Depth of the receive queue. -/
def State.rxDepth (s : State) (n : Nat) : Nat := 8 - s.txDepth n

/-- LOAD delivers a word: to WA, or to SHIFT with BCNT cleared. -/
def State.loadTo (s : State) (n : Nat) (wa : Bool) (v : Nat) : State := if wa then s.setWa n v else (s.setShift n v).setBcnt n 0

/-- LOAD takes the oldest word, which becomes LAST (R360). -/
def State.loadTake (s : State) (n : Nat) (wa : Bool) : State :=
  match (s.pilotOf n).tx with
  | [] => s
  | v :: t => (s.modPilot n fun x => { x with tx := t, last := v }).loadTo n wa v

/-- STORE pushes its word; from SHIFT it then clears SHIFT and BCNT. -/
def State.storePut (s : State) (n : Nat) (wa push : Bool) : State :=
  let v := if wa then s.plWa n else s.plShift n
  let s := if push then s.modPilot n fun x => { x with rx := x.rx ++ [v] } else s
  if wa then s else (s.setShift n 0).setBcnt n 0

/-- LOAD (R356, R360). With TXDEPTH 0 every LOAD is an underrun (R359). -/
def loadBody (n : Nat) (s : State) (w _lv : Nat) : State :=
  let wa := bitOf 1 w
  let dw := s.dwellCount n (plDwell w)
  let x := s.pilotOf n
  if x.tx ≠ [] then (s.loadTake n wa).pilotDwell n dw
  else if bitOf 0 w ∧ s.txDepth n ≠ 0 then s.setPilot n { x with phase := .load wa dw }
  else
    let stale := s.bit (PL_CFG n) PL_CFG_STALE
    let s := (s.count (PL_UNDERRUN_CNT n)).setIf (!stale) (PL_STATUS n) PL_STATUS_UNDERRUN
    (s.loadTo n wa (if stale then x.last else 0)).pilotDwell n dw

/-- STORE (R356, R360). With TXDEPTH 8 every STORE is an overrun (R359). -/
def storeBody (n : Nat) (s : State) (w _lv : Nat) : State :=
  let wa := bitOf 1 w
  let dw := s.dwellCount n (plDwell w)
  let x := s.pilotOf n
  if x.rx.length < s.rxDepth n then (s.storePut n wa true).pilotDwell n dw
  else if bitOf 0 w ∧ s.rxDepth n ≠ 0 then s.setPilot n { x with phase := .store wa dw }
  else (((s.count (PL_OVERRUN_CNT n)).setB (PL_STATUS n) PL_STATUS_OVERRUN).storePut n wa false).pilotDwell n dw

/-- A waiting LOAD or STORE finds its word or room (R360). -/
def pilotQueueWaitEnd (n : Nat) (s : State) : State :=
  let x := s.pilotOf n
  match x.phase with
  | .load wa dw => if x.run = 1 ∧ x.tx ≠ [] then (s.loadTake n wa).pilotDwell n dw else s
  | .store wa dw => if x.run = 1 ∧ x.rx.length < s.rxDepth n then (s.storePut n wa true).pilotDwell n dw else s
  | _ => s

/-! ## AWAIT (R358) -/

/-- AWAIT: the wait begins with the level at the execute clock. -/
def awaitBody (n : Nat) (s : State) (w lv : Nat) : State :=
  let pin := plArg w % 8
  s.modPilot n fun x => { x with phase := .await (plArg w / 8) pin (s.dwellCount n (plDwell w)) [bitOf pin lv] false }

/-- A level, and later the other one, have been seen after the execute clock. -/
def sawEdge (first : Bool) (l : List Bool) : Bool := (l.dropWhile (fun b => b != first)).contains (!first)

/-- The condition of an AWAIT holds, given the levels seen from the execute clock on. A TIMER has run out when the step comes: its
pilot clocks are not counted (log 62). -/
def awaitHolds (cond : Nat) (seen : List Bool) (kicked : Bool) : Bool :=
  match cond with
  | 0 => seen.contains false
  | 1 => seen.contains true
  | 2 => sawEdge false (seen.drop 1)
  | 3 => sawEdge true (seen.drop 1)
  | 4 => true
  | _ => kicked

/-- Pilot n, in AWAIT, sees at a clock the synchronised level of a pin that the device drives (R358). -/
def State.awaitSee (n : Nat) (s : State) : State :=
  match (s.pilotOf n).run, (s.pilotOf n).phase with
  | 1, .await c pin dw seen kicked =>
    let p := s.psetOf (n / 4)
    let l := bitOf pin p.l2
    if bitOf pin p.m2 && (decide (seen.length < 2) || seen.getLast? != some l) then
      s.modPilot n fun x => { x with phase := .await c pin dw (seen ++ [l]) kicked }
    else s
  | _, _ => s

/-- A 4 ns clock at the pins of set k: the synchroniser moves on, and the set's waiting pilots look at it (R351, R358). -/
def State.pioSync (s : State) (k : Nat) : State :=
  let p := s.psetOf k
  let d := (List.range 8).map (s.pioDriven k)
  let s := s.setPset k { p with m2 := p.m1, l2 := p.l1, m1 := packBits (d.map Option.isSome), l1 := packBits (d.map fun x => x.getD false) }
  [0, 1, 2, 3].foldl (fun s j => State.awaitSee (4 * k + j) s) s

/-- Levels of the awaited pin are seen, `ext` being what the synchroniser brings from outside clock by clock; if the condition holds the wait
is over (R358). -/
def awaitComplete (n : Nat) (ext : List Nat) (s : State) : State :=
  let k := n / 4
  match (s.pilotOf n).run, (s.pilotOf n).phase with
  | 1, .await c pin dw seen kicked =>
    let (s, l) := ext.foldl (fun (a : State × List Bool) e =>
      (a.1.presentPins k e, if bitOf pin (a.1.psetOf k).m2 then a.2 else a.2 ++ [bitOf pin e])) (s, seen)
    if awaitHolds c l kicked then s.pilotDwell n dw
    else s.modPilot n fun x => { x with phase := .await c pin dw l kicked }
  | _, _ => s

/-- The dwell is over (R354). -/
def dwellEnd (n : Nat) (s : State) : State :=
  if (s.pilotOf n).run = 1 ∧ (s.pilotOf n).phase = .dwell then s.pilotGo n else s

/-! ## COUNT, SIGNAL, MOVE -/

/-- COUNT (R356): no dwell. -/
def countBody (n : Nat) (s : State) (w _lv : Nat) : State :=
  let take (s : State) : State := s.modPilot n fun x => { x with next := plLoop w }
  let wa := s.plWa n
  let wb := s.plWb n
  let s := match plSel w with
    | 0 => if wa ≠ 0 then take (s.setWa n (wa - 1)) else s
    | 1 => if wb ≠ 0 then take (s.setReg (PL_WB n) (w32 (wb - 1))) else s
    | _ => if (s.pilotOf n).bcnt < s.fld (PL_CFG n) PL_CFG_SHIFT_LEN then take s else s
  s.pilotGo n

/-- SIGNAL (R356); a request towards a unit held in CORE reset is lost. -/
def signalBody (n : Nat) (s : State) (w _lv : Nat) : State :=
  let s := if bitOf 0 w ∧ !s.rst.core then s.dmaSignal n else s
  let s := if bitOf 1 w ∧ !s.rst.core then s.raisePsig n else s
  (s.setIf (bitOf 2 w) (PL_STATUS n) PL_STATUS_SIG).pilotDone n w

/-- The source of a MOVE (R356). -/
def State.moveSrc (s : State) (n src lv : Nat) : Nat :=
  match src with
  | 0 => s.plWa n
  | 1 => s.plWb n
  | 2 => s.plShift n
  | 3 => (s.pilotOf n).bcnt
  | 4 => s.inGroup n lv
  | 5 => (s.reg (PL_K0 n)).toNat
  | 6 => (s.reg (PL_K1 n)).toNat
  | _ => 0

/-- What MOVE to PINS puts on the OUT group. -/
def moveOut (n : Nat) (s : State) (w : Nat) : List (Nat × Bool) :=
  if plArg w / 8 = 4 then s.outGroup n (s.moveSrc n (plArg w % 8) (s.syncLevels (n / 4))) else []

/-- MOVE (R356). -/
def moveBody (n : Nat) (s : State) (w lv : Nat) : State :=
  let v := s.moveSrc n (plArg w % 8) lv
  let s := match plArg w / 8 with
    | 0 => s.setWa n v
    | 1 => s.setReg (PL_WB n) (w32 v)
    | 2 => s.setShift n v
    | 3 => s.setBcnt n v
    | _ => s
  s.pilotDone n w

/-- The word at PC is illegal, or fails its parity (R367). -/
def pilotIllegal (n : Nat) (parity : Bool) (s : State) : State :=
  if !s.pilotExecutes n then s
  else
    let pc := (s.pilotOf n).pc
    let p := s.psetOf (n / 4)
    let s := if parity then s.setPset (n / 4) { p with bad := ninsert pc p.bad } else s
    if (s.psetOf (n / 4)).bad.contains pc then (s.pilotHalt n PL_STATUS_PARITY).logEv 0x60 n
    else if s.plIllegal n (s.pilotWord n) then s.pilotHalt n PL_STATUS_ILLEGAL
    else s

/-! ## Commands (R361, R365, R366) and safe state (R369) -/

/-- START of pilot n. -/
def State.pilotStart (s : State) (n : Nat) (clear : Bool) : State :=
  let e := s.fld (PL_WIN n) PL_WIN_ENTRY
  if (s.pilotOf n).run = 0 ∧ s.inWindow n e then
    let s := s.modPilot n fun x => { x with run := 1, pc := e, next := e, phase := .ready }
    if clear then (s.setShift n 0).setBcnt n 0 else s
  else s.setB (PL_STATUS n) PL_STATUS_START_REFUSED

/-- STOP of pilot n: what the pilot was about to do is abandoned; its PC keeps the address. A RUNNING pilot stops at its next pilot clock
(R365): where that is the execute clock of a word that halts it, the halt stands (R367, log 108). -/
def State.pilotStop (s : State) (n : Nat) : State :=
  let t := pilotIllegal n false s
  if (s.pilotOf n).run = 0 then s
  else if (s.pilotOf n).run = 1 ∧ (t.pilotOf n).run = 2 then t
  else s.modPilot n fun x => { x with run := 0, phase := .ready }

/-- KICK of pilot n: only a pilot in AWAIT KICK takes it. -/
def State.pilotKick (s : State) (n : Nat) : State :=
  match (s.pilotOf n).phase with
  | .await 5 pin dw seen _ => s.modPilot n fun x => { x with phase := .await 5 pin dw seen true }
  | _ => s

/-- FLUSH of pilot n (R361). -/
def State.pilotFlush (s : State) (n : Nat) : State := s.modPilot n fun x => { x with tx := [], rx := [] }

/-- Safe state stops a pilot with SAFE_STOP set (R369). -/
def State.pilotSafe (s : State) (n : Nat) : State :=
  if s.bit (PL_CFG n) PL_CFG_SAFE_STOP ∧ (s.pilotOf n).run ≠ 0 then (s.pilotStop n).setB (PL_STATUS n) PL_STATUS_SAFE_STOPPED else s

/-! ## The PILOT block's registers (R370 to R372) -/

/-- A word of set k that a RUNNING pilot of the set has inside its window (R363). -/
def State.pilotWordLocked (s : State) (k a : Nat) : Bool :=
  anyN 4 fun j => (s.pilotOf (4 * k + j)).run == 1 && s.inWindow (4 * k + j) a

/-- Writes of the PILOT block that are discarded whole (R24, R351, R353, R359, R362, R365, R371). -/
def pilotBad (a0 : Nat) (w : Word) : Bool :=
  let n := w.toNat
  if a0 = PL_CTL 0 then decide (2 ≤ b2n (bitOf 0 n) + b2n (bitOf 1 n) + b2n (bitOf 2 n) + b2n (bitOf 3 n))
  else if a0 = PS_CTL 0 then PS_CTL_START.get w != 0 && PS_CTL_STOP.get w != 0
  else if a0 = PL_CFG 0 then
    bitsOf 2 1 n != 0 || PL_CFG_SHIFT_LEN.get w == 0 || decide (32 < PL_CFG_SHIFT_LEN.get w) || decide (8 < PL_CFG_TXDEPTH.get w)
  else if a0 = PL_PINCFG 0 then
    PL_PINCFG_OUT_MASK.get w == 0 || PL_PINCFG_IN_MASK.get w == 0 || decide (4 < (maskPins (PL_PINCFG_SIDE_MASK.get w)).length)
      || bitsOf 31 24 n != 0
  else if a0 = PL_CLKDIV 0 then
    PL_CLKDIV_NUM.get w == 0 || PL_CLKDIV_DEN.get w == 0 || decide (PL_CLKDIV_DEN.get w < PL_CLKDIV_NUM.get w)
  else if a0 = PL_WIN 0 then decide (PL_WIN_LAST.get w < PL_WIN_FIRST.get w)
  else false

/-- RWL fields of a pilot are locked while it is RUNNING (R371). -/
def pilotLocked (s : State) (i : Nat) : Bool := (s.pilotOf i).run == 1

/-- Writes of the PILOT block that end with a bus error: a push to a full queue (R359). -/
def pilotWrErr (s : State) (a0 i : Nat) : Bool := a0 == PL_TXDATA 0 && decide (s.txDepth i ≤ (s.pilotOf i).tx.length)

/-- What a write of the PILOT block does beside setting its fields. -/
def pilotHook (a0 i : Nat) (old w : Word) (s : State) : State :=
  if a0 = PL_CTL 0 then
    if PL_CTL_START.get w ≠ 0 then s.pilotStart i (PL_CTL_CLEAR_SHIFT.get w != 0)
    else if PL_CTL_STOP.get w ≠ 0 then s.pilotStop i
    else if PL_CTL_KICK.get w ≠ 0 then s.pilotKick i
    else if PL_CTL_FLUSH.get w ≠ 0 then s.pilotFlush i
    else s
  else if a0 = PS_CTL 0 then s.forN 4 fun s j =>
    let s := if bitOf j (PS_CTL_START.get w) then s.pilotStart (4 * i + j) (PS_CTL_CLEAR_SHIFT.get w != 0) else s
    if bitOf j (PS_CTL_STOP.get w) then s.pilotStop (4 * i + j) else s
  else if a0 = PL_CFG 0 then (if PL_CFG_TXDEPTH.get w ≠ PL_CFG_TXDEPTH.get old then s.pilotFlush i else s)
  else if a0 = PL_TXDATA 0 then s.modPilot i fun x => { x with tx := x.tx ++ [w.toNat] }
  else s

/-- PLn_STATE. -/
def State.pilotState (s : State) (n : Nat) : Word :=
  let x := s.pilotOf n
  let waits := match x.phase with | .await _ _ _ _ _ => true | .load _ _ => true | .store _ _ => true | _ => false
  w32 (x.run + 4 * b2n (x.run == 1 && waits) + 2 ^ 8 * x.pc + 2 ^ 16 * x.bcnt + 2 ^ 24 * x.tx.length + 2 ^ 28 * x.rx.length)

/-- Registers of the PILOT block that read the live state. -/
def pilotView (s : State) (a0 i : Nat) : Option Word :=
  if a0 = PL_STATE 0 then some (s.pilotState i)
  else if a0 = PL_RXDATA 0 then some (w32 ((s.pilotOf i).rx.headD 0))
  else if a0 = PS_PINS 0 then some (w32 (s.syncLevels i))
  else none

/-- What a read of the PILOT block changes (R359). -/
def pilotRead (a0 i : Nat) (s : State) : State :=
  if a0 = PL_RXDATA 0 then
    match (s.pilotOf i).rx with
    | [] => s.setB (PL_STATUS i) PL_STATUS_EMPTY_READ
    | _ :: t => s.modPilot i fun x => { x with rx := t }
  else s

/-- SRC bits of PILOT_SUMMARY (R372). -/
def pilotSrc (s : State) : Nat :=
  packBits ((List.range 8).map (fun k => anyN 4 fun j => decide ((s.reg (PL_STATUS (4 * k + j))).toNat % 1024 ≠ 0)))

end Sys2Proof.Machine
end

