-- ==== Sys2Proof/Machine/Lighthouse.lean ====
section
/-! DEFINITION. The lighthouse (16, R440 to R445, R457): safe state, watchdogs, reset requests (R472, R473), the LIGHTHOUSE block's
registers. Its port stands in LhPort.lean. -/
namespace Sys2Proof.Machine

/-- Change the lighthouse record. -/
def State.modLh (s : State) (f : LhSt → LhSt) : State := { s with lh := f s.lh }

/-! ## Reset requests (R445, R472, R473) -/

/-- A request for a CHIP, CORE or CAUSEWAY reset: its bit of LH_RESET_HIST is set, and it waits unless a reset of the same or a wider scope
is in progress. SOURCE 7 stands for a request without one. -/
def State.resetReq (s : State) (sc : Scope) (src : Nat) : State :=
  let s := if src < 7 then s.setReg LH_RESET_HIST (w32 (withBit (s.reg LH_RESET_HIST).toNat src true)) else s
  let absorbed := s.rst.chip || (match sc with | .chip => false | .core => s.rst.core | .causeway => s.rst.cw)
  if absorbed then s else { s with rst := { s.rst with req := s.rst.req ++ [(sc, src)] } }

/-! ## Safe state (R441, R442) -/

/-- A source of safe state acts: 0 pin, 1 watchdog, 2 port command, 3 SAFE_REQ (R432). In safe state LH_FAULT records it at once. -/
def State.safeSource (s : State) (k : Nat) : State :=
  if s.safe then s.setB LH_FAULT (if k = 0 then LH_FAULT_SAFE_PIN else if k = 1 then LH_FAULT_SAFE_WDOG else LH_FAULT_SAFE_CMD)
  else s.modLh fun l => { l with srcs := l.srcs ++ [k] }

/-- LATCH is set by a source. -/
def State.latchSet (s : State) (k : Nat) : State := (s.setB LH_STATE LH_STATE_LATCH).safeSource k

/-- Safe state is due. -/
def State.safeDue (s : State) : Bool := s.bit LH_STATE LH_STATE_SAFEN || s.bit LH_STATE LH_STATE_LATCH

/-- Sources that came and went before safe state took effect are forgotten. -/
def State.safeStale (s : State) : State := if s.safeDue then s else s.modLh fun l => { l with srcs := [] }

/-- LATCH is cleared. -/
def State.latchClear (s : State) : State := (s.clrB LH_STATE LH_STATE_LATCH).safeStale

/-- The filtered LH_SAFEN falls or rises; while its bank is down it reads low (R500). -/
def lhSafen (low : Bool) (s : State) : State :=
  if s.rst.lhOff then s
  else
    let low := low || s.rst.banks.contains 7
    let was := s.bit LH_STATE LH_STATE_SAFEN
    let s := s.putB LH_STATE LH_STATE_SAFEN low
    if low ∧ !was then s.safeSource 0 else s.safeStale

/-- The lighthouse raises an event: in CHIP reset it is held, behind those held already (R478). -/
def State.lhEv (s : State) (c v : Nat) : State := if s.rst.chip then s.modLh fun l => { l with codes := l.codes ++ [(c, v)] } else s.logEv c v

/-- What safe state does to the blocks (R442). -/
def State.safeBlocks (s : State) : State :=
  ((((s.forN 8 State.chopSafe).forN 32 State.axSafe).forN 8 State.grpSafe).forN 16 State.trigSafe).forN 32 State.pilotSafe

/-- Safe state takes effect (R442): bridges, steps and axes, groups, triggers, pilots; LH_FAULT records the sources, and code 0x08 the
first of them. CHIP reset holds the blocks themselves (R471). -/
def safeStateEntry (s : State) : State :=
  if s.safeDue ∧ !s.safe then
    let srcs := s.lh.srcs
    let s := (s.setB LH_STATE LH_STATE_SAFE).modLh fun l => { l with srcs := [] }
    let s := if s.rst.chip then s else s.safeBlocks
    let s := srcs.foldl State.safeSource s
    s.lhEv 0x08 (srcs.headD 0)
  else s

/-- Safe state ends once nothing keeps it: triggers and pilot pins show their own levels again (R53, R369). -/
def safeStateRelease (s : State) : State := if s.safe ∧ !s.safeDue then s.clrB LH_STATE LH_STATE_SAFE else s

/-! ## Watchdogs (R443, R444) -/

/-- A watchdog restarts. -/
def State.wdogRestart (s : State) (w : Nat) : State :=
  s.modLh fun l => { l with wdogAt := tput (fun _ => 0) l.wdogAt w s.lhNow.hi }

/-- The engines that watchdog w watches. -/
def State.wdogEngines (s : State) (w : Nat) : List Nat := if w = 24 then [24] else s.berthEngines w

/-- Watchdog w runs: its berth is RUNNING or MIXED, or no CHIP or CORE reset is in progress; and not all its engines are HALTED. -/
def State.wdogRuns (s : State) (w : Nat) : Bool :=
  (if w = 24 then !s.rst.chip && !s.rst.core else decide (2 ≤ s.berthState w))
    && !(s.wdogEngines w).all (fun n => decide ((s.qeOf n).run = .halted))

/-- Watchdog w is on. -/
def State.wdogOn (s : State) (w : Nat) : Bool := s.fld (LH_WDOG w) LH_WDOG_ACTION != 0

/-- The watchdogs that were held and run again restart in full (R443); those held now are noted. Done after every command. -/
def State.wdogWake (s : State) : State :=
  let on := (List.range 25).filter s.wdogOn
  if on.isEmpty && s.lh.held.isEmpty then s
  else
    let runs := on.filter s.wdogRuns
    let s := (runs.filter s.lh.held.contains).foldl State.wdogRestart s
    s.modLh fun l => { l with held := on.filter (fun w => !runs.contains w) }

/-- TIMEOUT of watchdog w may have passed since its restart, by a lighthouse clock that runs as R470 allows (log 71). -/
def State.wdogDue (s : State) (w : Nat) : Bool :=
  decide (tget (fun _ => 0) s.lh.wdogAt w + s.fld (LH_WDOG w) LH_WDOG_TIMEOUT * lhMs ≤ s.lhNow.hi)

/-- The reset that a watchdog's ACTION asks for. -/
def State.wdogReset (s : State) (w : Nat) : State :=
  if w = 24 then s.resetReq .core 3
  else
    let s := s.setReg LH_RESET_HIST (w32 (withBit (s.reg LH_RESET_HIST).toNat 4 true))
    if s.rst.chip || s.rst.core then s else s.berthReset w

/-- Expiry of watchdog w. -/
def lhWatchdogExpiry (w : Nat) (s : State) : State :=
  let act := s.fld (LH_WDOG w) LH_WDOG_ACTION
  if act = 0 ∨ s.fld (LH_WDOG w) LH_WDOG_TIMEOUT = 0 ∨ !s.wdogRuns w ∨ !s.wdogDue w then s
  else
    let s := s.wdogRestart w
    let s := s.setReg LH_WDOG_EXP (w32 (withBit (s.reg LH_WDOG_EXP).toNat w true))
    let s := s.setB LH_FAULT (if w = 24 then LH_FAULT_WDOG_HM else LH_FAULT_WDOG_BERTH)
    let s := if w = 24 then s.logEv 0x09 0 else s.logEv 0x0A w
    let s := if act = 3 ∨ act = 4 then s.latchSet 1 else s
    if act = 2 ∨ act = 4 then s.wdogReset w
    else if act = 5 then s.resetReq .chip (if w = 24 then 3 else 4)
    else s

/-- A write of LH_KICK that its initiator may not make ends with a bus error. -/
def State.kickDenied (s : State) (who : Initiator) (w : Word) : Bool :=
  let k := LH_KICK_INDEX.get w
  match who with
  | .hm => k != 24
  | .qe n => s.berthOf n.val != some k
  | _ => true

/-! ## The LIGHTHOUSE block's registers (R457) -/

/-- Writes of the LIGHTHOUSE block that are discarded whole (R24, R443, R457). -/
def lhBad (s : State) (who : Initiator) (a0 i : Nat) (w : Word) : Bool :=
  if a0 = LH_CFG then who != .lhPort
  else if a0 = LH_KICK then decide (24 < LH_KICK_INDEX.get w)
  else if a0 = LH_WDOG 0 then
    LH_WDOG_TIMEOUT.get w == 0 || decide (16000 < LH_WDOG_TIMEOUT.get w) || decide (6 ≤ LH_WDOG_ACTION.get w)
      || (s.bit (LH_WDOG i) LH_WDOG_LOCK && who != .lhPort)
  else false

/-- Writes of the LIGHTHOUSE block that end with a bus error (R444). -/
def lhWrErr (s : State) (who : Initiator) (a0 : Nat) (w : Word) : Bool := a0 == LH_KICK && s.kickDenied who w

/-- What a write of the LIGHTHOUSE block does beside setting its fields. A set and a clear of LATCH in one write leave it set. -/
def lhHook (a0 i : Nat) (old w : Word) (s : State) : State :=
  if a0 = LH_CTL then
    let s := s.setReg LH_CTL 0
    let s := if LH_CTL_RELEASE.get w ≠ 0 ∧ s.bit LH_CFG LH_CFG_HOST_RELEASE then s.latchClear else s
    if LH_CTL_SAFE_REQ.get w ≠ 0 then s.latchSet 3 else s
  else if a0 = LH_KICK then s.wdogRestart (LH_KICK_INDEX.get w)
  else if a0 = LH_WDOG 0 then (if w ≠ old then s.wdogRestart i else s)
  else s

/-- SRC bits of LIGHTHOUSE_SUMMARY. -/
def lhSrc (s : State) : Nat := (s.reg LH_FAULT).toNat % 64

/-- LH_FAULTN is low (R445). -/
def State.lhFaultLow (s : State) : Bool := s.ballLow 256 (s.reg LH_FAULT &&& s.reg LH_FAULT_MASK != 0)

/-- After 1 s of crystal oscillation lighthouse timing switches to it, and back when it stops (R470): the count goes on from where it stands. -/
def xtalSwitch (on : Bool) (s : State) : State :=
  (s.modLh fun l => { l with clock := s.lhNow, clockAt := s.time.tick }).putB LH_STATE LH_STATE_XTAL on

end Sys2Proof.Machine
end

