-- ==== Sys2Proof/Machine/Hb.lean ====
section
/-! DEFINITION. Handover buffers (03, R78 to R84): slots, publishes and acquires with their holds, and what a dropped tide
entry records (R70). -/
namespace Sys2Proof.Machine

/-- Base of the process image memory (R15). -/
def pimBase : Nat := 0x10000000

/-- Drop reasons (R70). -/
def dropPOISON : Nat := 1
/-- TARGET_RESET -/ def dropRESET : Nat := 2
/-- BUSY -/ def dropBUSY : Nat := 3
/-- HB_REFUSED -/ def dropHB : Nat := 4
/-- TARGET_MODE -/ def dropMODE : Nat := 5

/-- An entry not performed is counted with its bank, index and reason (R70). -/
def State.tideDrop (s : State) (bank idx reason : Nat) : State :=
  ((s.count TIDE_DROP).setB TIDE_STATUS TIDE_STATUS_DROP).setReg TIDE_DROP_LAST
    (w32 (idx % 2 ^ 13 + 2 ^ 13 * (bank % 2) + 2 ^ 16 * reason))

/-- An entry was performed: MARK (R66), and TIDE_CATCHUP in a catch-up (R90). A NOP of the skipped interval counts too: the spec does not say whether it
does (DESIGN CHOICE, log 101). -/
def State.performed (s : State) (bank idx : Nat) (mark late : Bool) : State :=
  let s := if mark then (s.setB TIDE_STATUS TIDE_STATUS_MARK).setReg TIDE_MARK_IDX (w32 (idx % 2 ^ 13 + 2 ^ 13 * (bank % 2))) else s
  s.countIf late TIDE_CATCHUP

/-- Buffer n is enabled. -/
def State.hbEn (s : State) (n : Nat) : Bool := s.bit (TIDE_HB_CFG n) TIDE_HB_CFG_EN
/-- A line-side writer may write buffer n, and a line-side publish is accepted (R80). -/
def State.hbLineW (s : State) (n : Nat) : Bool := s.hbEn n && !s.bit (TIDE_HB_CFG n) TIDE_HB_CFG_WRITER
/-- A line-side reader may read buffer n, and a line-side acquire is accepted (R80). -/
def State.hbLineR (s : State) (n : Nat) : Bool := s.hbEn n && !s.bit (TIDE_HB_CFG n) TIDE_HB_CFG_READER
/-- Slot size of a configuration word in bytes (R78). -/
def hbSizeOf (w : Word) : Nat := (TIDE_HB_CFG_SIZE_M1.get w + 1) * 16
/-- Slot size of buffer n. -/
def State.hbSize (s : State) (n : Nat) : Nat := hbSizeOf (s.reg (TIDE_HB_CFG n))
/-- Address of slot k of buffer n (R78). -/
def State.hbSlot (s : State) (n k : Nat) : Nat := pimBase + s.fld (TIDE_HB_CFG n) TIDE_HB_CFG_BASE * 16 + k * s.hbSize n
/-- Address of the W slot. -/
def State.hbW (s : State) (n : Nat) : Nat := s.hbSlot n (s.fld (TIDE_HB_STATE n) TIDE_HB_STATE_W)
/-- Address of the R slot. -/
def State.hbR (s : State) (n : Nat) : Nat := s.hbSlot n (s.fld (TIDE_HB_STATE n) TIDE_HB_STATE_R)

/-- A line-side write of bytes into the W slot of buffer n sets WRITTEN (R80). -/
def State.hbWrite (s : State) (n off : Nat) (bs : List Nat) : State :=
  (s.store (s.hbW n + off) bs).setB (TIDE_HB_STATE n) TIDE_HB_STATE_WRITTEN

/-- The operations held on buffer n. -/
def State.hbHeld (s : State) (n : Nat) : List HeldOp := tget (fun _ => []) s.hb n
/-- Store them. -/
def State.setHbHeld (s : State) (n : Nat) (l : List HeldOp) : State := { s with hb := tput (fun _ => []) s.hb n l }

/-- A line-side write into W of buffer n is in progress (R83): the first byte of an EXTRACT entry of a frame in reception has arrived, or a
converter whose sequence writes there has sampled and not delivered, or values of a CAPT are on their way there. -/
def State.hbWriting (s : State) (n : Nat) : Bool :=
  s.tide.capt.any (fun c => c.buf == n) ||
  s.port.any (fun p => match p.2.rx with | some r => r.begun.contains n | none => false)
  || (List.range 2).any (fun c =>
      let x := tget (fun _ => ({} : AdcSt)) s.adc c
      let into (q : Nat) : Bool := s.fld (ADC_SEQ_CFG c q) ADC_SEQ_CFG_DEST == 0 && s.fld (ADC_SEQ_CFG c q) ADC_SEQ_CFG_BUF == n
      (!x.res.isEmpty && x.busy && into x.seq) || x.out.any (fun r => into r.1))

/-- The first k bytes of frame i have left egress port e. -/
def State.hasLeft (s : State) (i e k : Nat) : Bool :=
  match (tget (fun _ => ({} : PortSt)) s.port e).tx with
  | some t => t.frame == i && decide (k ≤ t.head.length)
  | none => false

/-- A frame is inserting from R of buffer n (R83): it has begun to leave, and the last byte that an entry reads from the buffer has
yet to leave one of its egress ports. P6 and P7, where no entry is applied (R156), do not count: R83 does not say whether they do (DESIGN
CHOICE, log 101). -/
def State.hbInserting (s : State) (n : Nat) : Bool :=
  s.sw.frames.any (fun p => match p.2 with
    | some f => f.ins.any (fun b => b.1 == n && f.egress.any (fun e => decide (e < 6) && !s.hasLeft p.1 e b.2))
    | none => false)

/-- W and P exchange, FRESH is set, SEQ rises, WRITTEN and TAINT clear (R79, R81). -/
def State.hbExchangeW (s : State) (n : Nat) : State :=
  let w := s.reg (TIDE_HB_STATE n)
  let x := TIDE_HB_STATE_P.put (TIDE_HB_STATE_W.put w (TIDE_HB_STATE_P.get w)) (TIDE_HB_STATE_W.get w)
  let x := TIDE_HB_STATE_SEQ.put (TIDE_HB_STATE_FRESH.put x 1) (TIDE_HB_STATE_SEQ.get w + 1)
  s.setReg (TIDE_HB_STATE n) (TIDE_HB_STATE_TAINT.put (TIDE_HB_STATE_WRITTEN.put x 0) 0)

/-- A publish by the line side or by software (R81). -/
def State.hbPublish (s : State) (n : Nat) (soft : Bool) : State :=
  let taint := s.bit (TIDE_HB_STATE n) TIDE_HB_STATE_TAINT
  let written := s.bit (TIDE_HB_STATE n) TIDE_HB_STATE_WRITTEN
  if soft then s.hbExchangeW n
  else if taint then
    (((s.clrB (TIDE_HB_STATE n) TIDE_HB_STATE_WRITTEN).clrB (TIDE_HB_STATE n) TIDE_HB_STATE_TAINT).setB
      TIDE_STATUS TIDE_STATUS_HAND_TAINT).count TIDE_HAND_SKIP
  else if written then s.hbExchangeW n
  else (s.setB TIDE_STATUS TIDE_STATUS_HAND_EMPTY).count TIDE_HAND_SKIP

/-- The acquire finds a fresh slot. -/
def State.hbFresh (s : State) (n : Nat) : Bool := s.bit (TIDE_HB_STATE n) TIDE_HB_STATE_FRESH

/-- An acquire (R82). -/
def State.hbAcquire (s : State) (n : Nat) : State :=
  if s.hbFresh n then
    let w := s.reg (TIDE_HB_STATE n)
    let x := TIDE_HB_STATE_P.put (TIDE_HB_STATE_R.put w (TIDE_HB_STATE_P.get w)) (TIDE_HB_STATE_R.get w)
    s.setReg (TIDE_HB_STATE n) (TIDE_HB_STATE_FRESH.put x 0)
  else (s.setB TIDE_STATUS TIDE_STATUS_STALE).count TIDE_STALE

/-- The setpoints that the acquired slot holds for the members of group g (R315): none for a word that the slot does not
hold whole, or that reads as poison. -/
def State.slotSetpoints (s : State) (n g off : Nat) : List (Option Int) :=
  (List.range (s.grpAxes g).length).map (fun k =>
    if off + 8 * k + 8 ≤ s.hbSize n ∧ !s.poisonedN (s.hbR n + off + 8 * k) 8 then
      some (sgn 48 (s.rdN (s.hbR n + off + 8 * k) 6))
    else none)

/-- A group takes the setpoints of the acquired slot; the read corrects what it can (R27). -/
def State.slotTake (s : State) (n g off : Nat) : State :=
  (s.eccRead (s.hbR n + off) (8 * (s.grpAxes g).length)).grpSetpoints g (s.slotSetpoints n g off)

/-- Apply one operation to buffer n; a MOTN or LATCH hands the setpoints of a fresh slot to its group (R82, R315). -/
def State.hbApply (s : State) (n : Nat) (o : HeldOp) : State :=
  if o.publish then s.hbPublish n (o.by' == .soft)
  else
    let fresh := s.hbFresh n
    let s := s.hbAcquire n
    match o.by' with
    | .motn _ _ g off => if fresh then s.slotTake n g off else s
    | .latch g off => if fresh then s.slotTake n g off else s
    | _ => s

/-- The operation must wait (R83). -/
def State.hbBlocked (s : State) (n : Nat) (o : HeldOp) : Bool := if o.publish then s.hbWriting n else s.hbInserting n

/-- An operation that lands on buffer n is held: by its own reason, or behind one that is (R83). -/
def State.hbWaits (s : State) (n : Nat) (o : HeldOp) : Bool := s.hbHeld n != [] || s.hbBlocked n o

/-- An operation lands on an enabled buffer (R83). -/
def State.hbOp (s : State) (n : Nat) (o : HeldOp) : State :=
  if s.hbWaits n o then
    (s.setHbHeld n (s.hbHeld n ++ [o])).setB TIDE_STATUS TIDE_STATUS_HAND_DEFER
  else s.hbApply n o

/-- A LATCH is dropped as a MOTN would be (R80, R315); which bank and index TIDE_DROP_LAST then holds the spec does not say (free values, log 113). -/
def State.latchDrop (s : State) : State := s.tickFree.tideDrop (Config.freeNat s.free / 2 ^ 13) (Config.freeNat s.free) dropHB

/-- A held operation whose buffer was disabled meanwhile: a tide action is dropped, and a LATCH with it, a command is lost (R83). -/
def State.hbLost (s : State) : HbBy → State
  | .tide b i => s.tideDrop b i dropHB
  | .motn b i _ _ => s.tideDrop b i dropHB
  | .latch _ _ => s.latchDrop
  | .soft => s

/-- A held operation is made now: of a tide entry, it is now that it is performed (R66, R90). -/
def State.hbDone (s : State) (n : Nat) (o : HeldOp) : State :=
  let s := s.hbApply n o
  match o.by' with
  | .tide b i => s.performed b i o.mark o.late
  | .motn b i _ _ => s.performed b i o.mark o.late
  | _ => s

/-- Apply the held operations of buffer n whose hold has ended, in order. -/
def hbDrain (n : Nat) : List HeldOp → State → State
  | [], s => s.setHbHeld n []
  | o :: t, s =>
    if s.hbBlocked n o then s.setHbHeld n (o :: t)
    else if o.lost || !s.hbEn n then hbDrain n t (s.hbLost o.by')
    else hbDrain n t (s.hbDone n o)

/-- The hold on a buffer ends (R83). -/
def heldOperationApply (n : Nat) (s : State) : State := hbDrain n (s.hbHeld n) s

/-- A LATCH of group g: a MOTN on the buffer and offset of GRPg_SRC (R315); refused with FAULT in safe state (R323), dropped
where its buffer refuses it (R80). -/
def State.grpLatch (s : State) (g : Nat) : State :=
  let n := s.fld (GRP_SRC g) GRP_SRC_BUFFER
  if s.safe then s.grpRefuse g 6
  else if s.hbLineR n then s.hbOp n { publish := false, by' := .latch g (s.fld (GRP_SRC g) GRP_SRC_OFFSET) }
  else s.latchDrop

/-- A TIDE_HB_CMD on an enabled buffer (R81, R82). -/
def State.hbCommand (s : State) (w : Word) : State :=
  s.hbOp (TIDE_HB_CMD_BUFFER.get w) { publish := TIDE_HB_CMD_OP.get w == 1, by' := .soft }

/-- A write to TIDE_HBn_CFG that is discarded (R78): slots past PIM, or a change while EN is 1. -/
def State.hbCfgBad (s : State) (n : Nat) (w : Word) : Bool :=
  let old := s.reg (TIDE_HB_CFG n)
  decide (2 ^ 20 < TIDE_HB_CFG_BASE.get w * 16 + 3 * hbSizeOf w)
    || (TIDE_HB_CFG_EN.get old != 0 && TIDE_HB_CFG_EN.get w != 0 && (w &&& 0x03FFFFFF) != (old &&& 0x03FFFFFF))

/-- A buffer is disabled: what it holds will not be performed (R83). -/
def State.hbDisable (s : State) (n : Nat) : State := s.setHbHeld n ((s.hbHeld n).map (fun o => { o with lost := true }))

/-- EN of a buffer goes from 0 to 1: roles and flags as R79 gives; SEQ is kept. -/
def State.hbEnable (s : State) (n : Nat) : State :=
  s.setReg (TIDE_HB_STATE n) (w32 (0x24 + 2 ^ 16 * s.fld (TIDE_HB_STATE n) TIDE_HB_STATE_SEQ))

end Sys2Proof.Machine
end

