-- ==== Sys2Proof/Machine/Stow.lean ====
section
/-! DEFINITION. Stowage plans (06): entries, the copy a window works from, the commit, the ingress side's extraction and
the egress side's field operations, and the STOW block's registers. -/
namespace Sys2Proof.Machine

/-- Base of the stowage plan RAM (R148). -/
def stowBase : Nat := 0x39000000

/-! ## Entries (R151) -/

/-- FOFF -/ def enFoff (e : Nat) : Nat := bitsOf 63 52 e
/-- Bytes that the entry covers. -/ def enLen (e : Nat) : Nat := bitsOf 51 44 e + 1
/-- OP -/ def enOp (e : Nat) : Nat := bitsOf 43 40 e
/-- BUF -/ def enBuf (e : Nat) : Nat := bitsOf 39 32 e
/-- BOFF -/ def enBoff (e : Nat) : Nat := bitsOf 31 20 e
/-- LE -/ def enLe (e : Nat) : Bool := bitOf 16 e
/-- ARG -/ def enArg (e : Nat) : Nat := bitsOf 15 0 e

/-- Address of entry j of the RAM. -/
def stowEntryAddr (j : Nat) : Nat := stowBase + 8 * j
/-- Entry j of the RAM. -/
def State.stowEntry (s : State) (j : Nat) : Nat := s.rdN (stowEntryAddr j) 8
/-- Entry j as a reader meets it: none if it reads as poison. -/
def State.stowRead (s : State) (j : Nat) : Option Nat := if s.poisoned (stowEntryAddr j) then none else some (s.stowEntry j)

/-! ## Plans (R148 to R150) -/

/-- COUNT of a header's CTL word. -/ def ctlCount (c : Nat) : Nat := bitsOf 7 0 c
/-- EGRESS -/ def ctlEgress (c : Nat) : Nat := bitsOf 15 8 c
/-- FRAME_LEN -/ def ctlLen (c : Nat) : Nat := bitsOf 29 16 c

/-- Plan p is committed and not cleared. -/
def State.planValid (s : State) (p : Nat) : Bool := s.bit (STOW_PLAN_CTL p) STOW_PLAN_CTL_VALID

/-- The copy of plan p, none if its VALID is 0 (R150). -/
def State.planCopy (s : State) (p : Nat) : Option PlanCopy :=
  if s.planValid p then
    let ctl := (s.reg (STOW_PLAN_CTL p)).toNat
    let base := s.fld (STOW_PLAN_BASE p) STOW_PLAN_BASE_BASE
    some { plan := p, sigLo := (s.reg (STOW_PLAN_SIG_LO p)).toNat, sigHi := (s.reg (STOW_PLAN_SIG_HI p)).toNat,
           ctl := ctl, entries := (List.range (ctlCount ctl)).map (fun k => s.stowRead (base + k)) }
  else none

/-- The entries of plan p are read: what can be corrected is corrected (R27). -/
def State.planEcc (s : State) (p : Nat) : State :=
  s.eccRead (stowEntryAddr (s.fld (STOW_PLAN_BASE p) STOW_PLAN_BASE_BASE)) (8 * ctlCount (s.reg (STOW_PLAN_CTL p)).toNat)

/-- A copy is poisoned if an entry of it read as poison. -/
def PlanCopy.poisoned (c : PlanCopy) : Bool := c.entries.any (fun e => e.isNone)
/-- The entries that could be read, in index order. -/
def PlanCopy.list (c : PlanCopy) : List Nat := c.entries.filterMap id
/-- The switch ports that the plan names. -/
def PlanCopy.egress (c : PlanCopy) : List Nat := (List.range 8).filter (fun m => bitOf m (ctlEgress c.ctl))
/-- The buffers that the plan's INSERT entries name, each once (R73). -/
def PlanCopy.insertBufs (c : PlanCopy) : List Nat := ((c.list.filter (fun e => enOp e == 2)).map enBuf).eraseDups

/-- The frame carries the signature (R153): DA bytes 0 to 5, TYPE bytes 12 and 13. -/
def PlanCopy.matches (c : PlanCopy) (bs : List Nat) : Bool :=
  beAt bs 0 6 == c.sigLo + 2 ^ 32 * (c.sigHi % 2 ^ 16) && beAt bs 12 2 == c.sigHi / 2 ^ 16 % 2 ^ 16

/-- An entry's buffer refuses the operation by R80, as it stands. -/
def State.enRefused (s : State) (e : Nat) : Bool :=
  (enOp e == 1 && !s.hbLineW (enBuf e)) || (enOp e == 2 && !s.hbLineR (enBuf e))

/-- An entry that is not performed (R162): its buffer refuses it, or BOFF + length passes the end of its slot. -/
def State.enSkipped (s : State) (e : Nat) : Bool :=
  s.enRefused e || ((enOp e == 1 || enOp e == 2) && decide (s.hbSize (enBuf e) < enBoff e + enLen e))

/-! ## Commit (R164 to R166) -/

/-- Entry j of the RAM lies in the range of a valid plan. -/
def State.stowCommitted (s : State) (j : Nat) : Bool :=
  anyN 256 (fun p => s.planValid p
    && decide (s.fld (STOW_PLAN_BASE p) STOW_PLAN_BASE_BASE ≤ j)
    && decide (j < s.fld (STOW_PLAN_BASE p) STOW_PLAN_BASE_BASE + ctlCount (s.reg (STOW_PLAN_CTL p)).toNat))

/-- A commit or clear is running. -/
def State.stowBusy (s : State) : Bool := s.bit STOW_CMD STOW_CMD_BUSY

/-- A copy of plan p is in progress: a STOW that names it is in flight (R150, R166). -/
def State.copying (s : State) (p : Nat) : Bool :=
  s.tide.flight.any (fun x => x.w1 % 256 == 2 && x.arg0 / 2 ^ 24 % 256 == p)

/-- A range of old entries that a held clear, or a commit, may not free yet is guarded through `copying`: a write to entry j
of the RAM is refused (R164). -/
def State.stowWriteRefused (s : State) (j : Nat) : Bool :=
  s.stowCommitted j
  || (s.stowBusy && s.tide.clears.isEmpty && decide (s.fld STOW_STAGE_BASE STOW_STAGE_BASE_BASE ≤ j)
      && decide (j < s.fld STOW_STAGE_BASE STOW_STAGE_BASE_BASE + ctlCount (s.reg STOW_STAGE_CTL).toNat))

/-- Length that an operation requires; 0 for any. -/
def opLen (op : Nat) : Nat := match op with | 3 | 5 | 6 => 2 | 4 => 4 | 7 => 10 | 8 => 8 | _ => 0

/-- A field that R152 marks 0 is not 0, or a reserved FLAGS bit is set. -/
def enFieldBad (e : Nat) : Bool :=
  bitsOf 19 17 e != 0
  || (match enOp e with
      | 1 | 2 => enLe e || enArg e != 0
      | 3 | 4 | 5 | 6 => enBuf e != 0 || enBoff e != 0
      | 7 => enBuf e != 0 || enBoff e != 0 || enLe e
      | _ => enBuf e != 0 || enBoff e != 0 || enLe e || 2 ≤ enArg e)

/-- Two egress-side entries cover a common byte. -/
def enOverlap (a b : Nat) : Bool :=
  enOp a != 1 && enOp b != 1 && decide (enFoff a < enFoff b + enLen b) && decide (enFoff b < enFoff a + enLen a)

/-- The first failing condition of an entry, given the entries before it (R165); 0 for none. -/
def State.enFail (s : State) (flen : Nat) (before : List Nat) (r : Option Nat) : Nat :=
  match r with
  | none => 0x0A
  | some e =>
    if enOp e = 0 ∨ 9 ≤ enOp e then 0x02
    else if enFoff e < 16 then 0x03
    else if before.any (fun b => decide (enFoff e < enFoff b)) then 0x04
    else if (opLen (enOp e) ≠ 0 ∧ enLen e ≠ opLen (enOp e)) ∨ flen - 4 < enFoff e + enLen e then 0x05
    else if enFieldBad e then 0x06
    else if before.any (enOverlap e) then 0x07
    else if 4 ≤ (before.filter (fun b => enFoff b / 8 == enFoff e / 8)).length then 0x08
    else if s.enSkipped e then 0x09
    else 0

/-- Check entries in index order: the first failure as (index, reason). -/
def State.enCheck (s : State) (flen : Nat) : List (Option Nat) → Nat → List Nat → Option (Nat × Nat)
  | [], _, _ => none
  | r :: t, k, before =>
    let f := s.enFail flen before r
    if f ≠ 0 then some (k, f) else s.enCheck flen t (k + 1) (before ++ r.toList)

/-- HEADER fails (R165). -/
def headerBad (ctl base : Nat) : Bool :=
  decide (128 < ctlCount ctl) || decide (ctlLen ctl < 64) || decide (9216 < ctlLen ctl)
    || decide (32768 < base + ctlCount ctl)

/-- The check of a header with its entries (R165). -/
def State.planCheck (s : State) (ctl base : Nat) (es : List (Option Nat)) : Option (Nat × Nat) :=
  if headerBad ctl base then some (0, 1) else s.enCheck (ctlLen ctl) es 0 []

/-- Install a header as plan p with VALID = 1. -/
def State.installPlan (s : State) (p lo hi ctl base : Nat) : State :=
  (((s.setReg (STOW_PLAN_SIG_LO p) (w32 lo)).setReg (STOW_PLAN_SIG_HI p) (w32 hi)).setReg (STOW_PLAN_CTL p)
    (w32 (ctl % 2 ^ 30 + 2 ^ 31))).setReg (STOW_PLAN_BASE p) (w32 base)

/-- The commit of the staged header as plan p is checked and made (R165). -/
def State.commit (s : State) (p : Nat) : State :=
  let ctl := (s.reg STOW_STAGE_CTL).toNat
  let base := s.fld STOW_STAGE_BASE STOW_STAGE_BASE_BASE
  let s := s.eccRead (stowEntryAddr base) (8 * ctlCount ctl)
  let es := (List.range (ctlCount ctl)).map (fun k => s.stowRead (base + k))
  match s.planCheck ctl base es with
  | some (i, r) =>
    (s.setB STOW_STATUS STOW_STATUS_COMMIT_FAIL).setReg STOW_FAIL (w32 (i % 128 + 2 ^ 8 * p + 2 ^ 16 * r))
  | none =>
    (s.installPlan p (s.reg STOW_STAGE_SIG_LO).toNat (s.reg STOW_STAGE_SIG_HI).toNat ctl base).setB
      STOW_STATUS STOW_STATUS_COMMIT_DONE

/-- A commit begins (R165): BUSY; the staged plan number stays in the command word. -/
def State.commitStart (s : State) (w : Word) : State :=
  s.setReg STOW_CMD (w32 (STOW_CMD_PLAN.get w + 2 ^ 8 + 2 ^ 31))

/-! ## Ingress side: extraction (R152, R160 to R162) -/

/-- An EXTRACT entry among `later` has written, or writes now, place `x` of the buffer from a byte that arrived before `to_`. -/
def extractLater (later : List Nat) (buf x to_ : Nat) : Bool :=
  later.any (fun m => enOp m == 1 && enBuf m == buf && decide (enBoff m ≤ x ∧ x < enBoff m + enLen m ∧ enFoff m + (x - enBoff m) < to_))

/-- Bytes [from, to) of a frame have arrived: the EXTRACT entry copies those it covers to its buffer, but for places that a later entry
of the plan has written (R152). Answers the state and whether the entry wrote. -/
def State.extractOne (s : State) (bs : List Nat) (frm to_ : Nat) (e : Nat) (later : List Nat) : State × Bool :=
  let a := max frm (enFoff e)
  let b := min to_ (enFoff e + enLen e)
  let at' (k : Nat) : Nat := enBoff e + (a + k - enFoff e)
  if b ≤ a then (s, false)
  else if later.any (fun m => enOp m == 1 && enBuf m == enBuf e) then
    (((List.range (b - a)).filter (fun k => !extractLater later (enBuf e) (at' k) to_)).foldl
      (fun s k => s.hbWrite (enBuf e) (at' k) [bs.getD (a + k) 0]) s, true)
  else (s.hbWrite (enBuf e) (at' 0) (slice bs a (b - a)), true)

/-- All EXTRACT entries of a copy that are performed, over newly arrived bytes; answers the buffers written. -/
def State.extractAll (s : State) (bs : List Nat) (frm to_ : Nat) : List Nat → State × List Nat
  | [] => (s, [])
  | e :: t =>
    if enOp e = 1 then
      let (s, w) := s.extractOne bs frm to_ e t
      let (s, l) := s.extractAll bs frm to_ t
      (s, if w then ninsert (enBuf e) l else l)
    else s.extractAll bs frm to_ t

/-- TAINT of each buffer a frame extracted into (R160, R161). -/
def State.taintAll (s : State) (bufs : List Nat) : State :=
  bufs.foldl (fun s n => s.setB (TIDE_HB_STATE n) TIDE_HB_STATE_TAINT) s

/-! ## Egress side (R152, R156 to R158) -/

/-- A field read most significant byte first, or least with LE. -/
def fieldGet (le : Bool) (bs : List Nat) : Nat := if le then ofLe bs else ofBe bs
/-- Write it back in the same byte order. -/
def fieldPut (le : Bool) (n v : Nat) : List Nat := if le then leBytes n v else beBytes n v

/-- A correction field plus an amount in 2^-16 ns, saturating (R49, R158): the field and whether it saturated. -/
def corrAdd (field : Nat) (d : Int) : Nat × Bool :=
  let c := sgn 64 field
  let v := c + d
  if 2 ^ 63 - 1 < v ∨ c = 2 ^ 63 - 1 then (2 ^ 63 - 1, true)
  else if v < -(2 ^ 63) then (2 ^ 63, true)
  else (unsgn 64 v, false)

/-- TSTAMP's ten bytes: SEC[47:0] and NS of an instant plus ARG ns (R157). -/
def tstampBytes (ts arg : Nat) : List Nat :=
  let t := (((ts : Int) + sgn 16 arg * 2 ^ 32) % (todMod : Int)).toNat
  beBytes 6 (todSec t) ++ beBytes 4 (todNs t)

/-- The difference of two timestamps in 2^-16 ns, the unit in which both stand. -/
def todDiff16 (a b : Nat) : Int := ((a : Int) - b) / 2 ^ 16

/-- The bytes that an egress-side entry leaves in its field, `old` being the field as received. `resid` is what CORR adds,
`ts` the egress time. Answers the field and whether a correction saturated. -/
def State.enField (s : State) (e : Nat) (old : List Nat) (ts : Nat) (resid : Bool → Int) : List Nat × Bool :=
  let v := fieldGet (enLe e) old
  match enOp e with
  | 2 => (s.rdBytes (s.hbR (enBuf e) + enBoff e) old.length, false)
  | 3 => (fieldPut (enLe e) 2 ((v + enArg e) % 2 ^ 16), false)
  | 4 => (fieldPut (enLe e) 4 ((v + enArg e) % 2 ^ 32), false)
  | 5 => (fieldPut (enLe e) 2 (v ||| enArg e), false)
  | 6 => (fieldPut (enLe e) 2 (v ^^^ enArg e), false)
  | 7 => (tstampBytes ts (enArg e), false)
  | 8 => let (c, sat) := corrAdd v (resid (bitOf 0 (enArg e))); (beBytes 8 c, sat)
  | _ => (old, false)

/-- Apply one egress-side entry to the bytes ahead of the FCS (R161: INSERT acts on the bytes that precede it, the others
only on a whole field). Answers the bytes and whether a correction saturated. -/
def State.egressOne (s : State) (ts : Nat) (resid : Bool → Int) (x : List Nat × Bool) (e : Nat) : List Nat × Bool :=
  let (bs, sat) := x
  let n := min (enLen e) (bs.length - enFoff e)
  if enOp e = 1 ∨ n = 0 ∨ (enOp e ≠ 2 ∧ n < enLen e) then x
  else
    let (f, st) := s.enField e (slice bs (enFoff e) n) ts resid
    (splice bs (enFoff e) f, sat || st)

/-- What the INSERT entries read for bytes [from, to) of a frame: addresses and lengths. -/
def State.insertReads (s : State) (es : List Nat) (frm to_ : Nat) : List (Nat × Nat) :=
  (es.filter (fun e => enOp e == 2 && decide (max frm (enFoff e) < min to_ (enFoff e + enLen e)))).map fun e =>
    let a := max frm (enFoff e)
    (s.hbR (enBuf e) + enBoff e + (a - enFoff e), min to_ (enFoff e + enLen e) - a)

/-- They read their buffers: what can be corrected is corrected (R27). -/
def State.insertEcc (s : State) (es : List Nat) (frm to_ : Nat) : State :=
  (s.insertReads es frm to_).foldl (fun s p => s.eccRead p.1 p.2) s

/-- An INSERT reads poison for bytes [from, to) of a frame (R162). -/
def State.insertPoison (s : State) (es : List Nat) (frm to_ : Nat) : Bool :=
  (s.insertReads es frm to_).any fun p => s.poisonedN p.1 p.2

/-- Apply all egress-side entries of a plan. -/
def State.egressAll (s : State) (bs : List Nat) (ts : Nat) (resid : Bool → Int) (es : List Nat) : List Nat × Bool :=
  es.foldl (s.egressOne ts resid) (bs, false)

/-! ## The STOW block's registers -/

/-- Writes of the STOW block that are discarded whole (R24, R165). -/
def stowBad (s : State) (a0 : Nat) (w : Word) : Bool :=
  if a0 = STOW_CMD then s.stowBusy || STOW_CMD_OP.get w == 0 || STOW_CMD_OP.get w == 3
  else if a0 = STOW_STAGE_SIG_LO ∨ a0 = STOW_STAGE_SIG_HI ∨ a0 = STOW_STAGE_CTL ∨ a0 = STOW_STAGE_BASE then s.stowBusy
  else false

/-- STOW_CMD: only BUSY reads back. -/
def stowView (s : State) (a0 : Nat) : Option Word :=
  if a0 = STOW_CMD then some (s.reg STOW_CMD &&& 0x80000000) else none

/-- SRC bits of STOW_SUMMARY (R170). -/
def stowSrc (s : State) : Nat := (s.reg STOW_STATUS).toNat % 256

end Sys2Proof.Machine
end

