-- ==== Sys2Proof/Machine/Sw.lean ====
section
/-! DEFINITION. The switch's tables (04): MAC table, VLAN table, stream contexts with filter, meter and redundancy window,
cells of the frame memory, and the registers of the SWITCH and STREAM blocks. -/
namespace Sys2Proof.Machine

/-- Change the switch record. -/
def State.modSw (s : State) (f : SwSt → SwSt) : State := { s with sw := f s.sw }

/-- Port n. -/
def State.portOf (s : State) (n : Nat) : PortSt := tget (fun _ => {}) s.port n
/-- Store port n. -/
def State.setPort (s : State) (n : Nat) (p : PortSt) : State := { s with port := tput (fun _ => {}) s.port n p }
/-- Change port n. -/
def State.modPort (s : State) (n : Nat) (f : PortSt → PortSt) : State := s.setPort n (f (s.portOf n))

/-! ## MAC table (R102 to R105) -/

/-- The set of a key (R102). -/
def macSet (mac fid : Nat) : Nat :=
  let h := bitsOf 47 32 mac ^^^ bitsOf 31 16 mac ^^^ bitsOf 15 0 mac ^^^ fid
  bitsOf 9 0 h ^^^ bitsOf 15 10 h

/-- MAC entry i. -/
def State.macAt (s : State) (i : Nat) : Option MacEntry := tget (fun _ => none) s.sw.mac i
/-- Store MAC entry i. -/
def State.setMac (s : State) (i : Nat) (e : Option MacEntry) : State :=
  s.modSw fun x => { x with mac := tput (fun _ => none) x.mac i e }

/-- The indexes of a key's four ways. -/
def macWays (mac fid : Nat) : List Nat := (List.range 4).map (fun w => 4 * macSet mac fid + w)

/-- The entry of a key. -/
def State.macFind (s : State) (mac fid : Nat) : Option Nat :=
  (macWays mac fid).find? (fun i => match s.macAt i with | some e => e.mac == mac && e.fid == fid | none => false)

/-- The way a new key takes (R103): the lowest free one, else the dynamic entry of greatest AGE, the lowest among equals. -/
def State.macVictim (s : State) (mac fid : Nat) : Option Nat :=
  let ws := macWays mac fid
  match ws.find? (fun i => (s.macAt i).isNone) with
  | some i => some i
  | none => (ws.foldl (fun (b : Option (Nat × Nat)) i =>
      match s.macAt i with
      | some e => if e.static then b else match b with
          | some (j, a) => if a < e.age then some (i, e.age) else some (j, a)
          | none => some (i, e.age)
      | none => b) none).map (·.1)

/-- Learn a source address on a port (R103). -/
def State.macLearn (s : State) (mac fid port : Nat) : State :=
  match s.macFind mac fid with
  | some i =>
    match s.macAt i with
    | some e =>
      if e.static then s
      else
        let t := s.setMac i (some { e with ports := 2 ^ port, age := 0 })
        if e.ports = 2 ^ port then t else t.setB SW_STATUS SW_STATUS_MOVE
    | none => s
  | none =>
    match s.macVictim mac fid with
    | some i => s.setMac i (some ⟨mac, fid, 2 ^ port, false, 0⟩)
    | none => s.setB SW_STATUS SW_STATUS_LEARN_FULL

/-- One pass of ageing (R103): every dynamic entry ages, then those that reach SW_AGE_TIME go. -/
def agePass (s : State) : State :=
  let lim := s.fld SW_AGE_TIME SW_AGE_TIME_SECONDS
  s.sw.mac.foldl (fun s p => match p.2 with
    | some e =>
      if e.static then s
      else
        let a := min 0xFFFF (e.age + 1)
        s.setMac p.1 (if lim ≠ 0 ∧ lim ≤ a then none else some { e with age := a })
    | none => s) s

/-- The key in the key registers. -/
def State.macKey (s : State) : Nat × Nat :=
  ((s.reg SW_MAC_KEY_LO).toNat + 2 ^ 32 * s.fld SW_MAC_KEY_HI SW_MAC_KEY_HI_MAC, s.fld SW_MAC_KEY_HI SW_MAC_KEY_HI_FID)

/-- The data word of an entry. -/
def macWord (e : MacEntry) : Word := w32 (e.ports % 256 + 2 ^ 8 * b2n e.static + 2 ^ 9 + 2 ^ 16 * e.age)

/-- Set FOUND and clear FULL. DESIGN CHOICE (log 102): FOUND after a WRITE with VALID = 1 says whether the key was present before, and FULL
clears at the next LOOKUP, WRITE or DELETE. -/
def State.macFound (s : State) (b : Bool) : State := (s.clrB SW_MAC_CMD SW_MAC_CMD_FULL).putB SW_MAC_CMD SW_MAC_CMD_FOUND b

/-- Remove the key; FOUND reports whether it was present. -/
def State.macDelete (s : State) : State :=
  let (m, f) := s.macKey
  match s.macFind m f with
  | some i => (s.setMac i none).macFound true
  | none => s.macFound false

/-- LOOKUP. -/
def State.macLookup (s : State) : State :=
  let (m, f) := s.macKey
  match (s.macFind m f).bind s.macAt with
  | some e => (s.setReg SW_MAC_DATA (macWord e)).macFound true
  | none => (s.setReg SW_MAC_DATA 0).macFound false

/-- WRITE of SW_MAC_DATA under the key. -/
def State.macWrite (s : State) : State :=
  let (m, f) := s.macKey
  let d := s.reg SW_MAC_DATA
  if SW_MAC_DATA_VALID.get d = 0 then s.macDelete
  else
    let e : MacEntry := ⟨m, f, SW_MAC_DATA_PORTS.get d, SW_MAC_DATA_STATIC.get d != 0, 0⟩
    match s.macFind m f with
    | some i => (s.setMac i (some e)).macFound true
    | none =>
      match s.macVictim m f with
      | some i => (s.setMac i (some e)).macFound false
      | none => (s.macFound false).setB SW_MAC_CMD SW_MAC_CMD_FULL

/-- FLUSH of every dynamic entry on the named ports. -/
def State.macFlush (s : State) : State :=
  let ps := s.fld SW_MAC_DATA SW_MAC_DATA_PORTS
  s.sw.mac.foldl (fun s p => match p.2 with
    | some e => if !e.static && (e.ports &&& ps) != 0 then s.setMac p.1 none else s
    | none => s) s

/-- READ_INDEX. -/
def State.macReadIndex (s : State) : State :=
  match s.macAt (s.fld SW_MAC_CMD SW_MAC_CMD_INDEX) with
  | some e => ((s.setReg SW_MAC_KEY_LO (w32 e.mac)).setReg SW_MAC_KEY_HI (w32 (e.mac / 2 ^ 32 + 2 ^ 16 * e.fid))).setReg
      SW_MAC_DATA (macWord e)
  | none => ((s.setReg SW_MAC_KEY_LO 0).setReg SW_MAC_KEY_HI 0).setReg SW_MAC_DATA 0

/-- Perform the MAC operation that a write of SW_MAC_CMD started; BUSY reads 1 until it ends (R105). -/
def State.macOp (s : State) (op : Nat) : State :=
  let go (t : State) := t.setB SW_MAC_CMD SW_MAC_CMD_BUSY
  match op with
  | 1 => go s.macLookup
  | 2 => go s.macWrite
  | 3 => go s.macDelete
  | 4 => go s.macFlush
  | 5 => go s.macReadIndex
  | _ => s

/-! ## VLAN table (R101) -/

/-- A VLAN entry after CHIP reset. -/
def vlanReset (v : Nat) : Nat := if v = 1 then 0x9001FFFF else 0
/-- The word of a VLAN entry, laid out as SW_VLAN_DATA. -/
def State.vlanAt (s : State) (v : Nat) : Nat := tget vlanReset s.sw.vlan v
/-- MEMBER -/ def State.vlanMember (s : State) (v : Nat) : Nat := bitsOf 7 0 (s.vlanAt v)
/-- UNTAG -/ def State.vlanUntag (s : State) (v : Nat) : Nat := bitsOf 15 8 (s.vlanAt v)
/-- FID -/ def State.vlanFid (s : State) (v : Nat) : Nat := bitsOf 27 16 (s.vlanAt v)
/-- LEARN -/ def State.vlanLearn (s : State) (v : Nat) : Bool := bitOf 28 (s.vlanAt v)
/-- VALID -/ def State.vlanValid (s : State) (v : Nat) : Bool := bitOf 31 (s.vlanAt v)

/-- The operation of SW_VLAN_CMD on the entry of VID. -/
def State.vlanOp (s : State) (w : Word) : State :=
  let v := SW_VLAN_CMD_VID.get w
  if SW_VLAN_CMD_OP.get w = 1 then s.setReg SW_VLAN_DATA (w32 (s.vlanAt v))
  else s.modSw fun x => { x with vlan := tput vlanReset x.vlan v (s.reg SW_VLAN_DATA).toNat }

/-! ## Stream contexts (R114 to R119, R126) -/

/-- Stream context c. -/
def State.strOf (s : State) (c : Nat) : StreamSt := tget (fun _ => {}) s.sw.streams c
/-- Store stream context c. -/
def State.setStr (s : State) (c : Nat) (x : StreamSt) : State :=
  s.modSw fun y => { y with streams := tput (fun _ => {}) y.streams c x }

/-- Configuration word i of a context: KEY_LO, KEY_HI, FILTER, CIR, CBS, EIR, EBS, SEQ_RESET. -/
def StreamSt.word (x : StreamSt) (i : Nat) : Word := w32 (x.cfg.getD i 0)
/-- The seven counters: MATCHED, PASSED, SDU_DROP, METER_DROP, DUP_DROP, OUT_OF_WINDOW, YELLOW. -/
def StreamSt.ctr (x : StreamSt) (i : Nat) : Nat := x.cnt.getD i 0

/-- Count in counter i of context c, saturating; SAT of STREAM_SUMMARY on saturation (R22, R128). -/
def State.strCount (s : State) (c i : Nat) : State :=
  let x := s.strOf c
  let v := x.ctr i
  if v ≥ 0xFFFFFFFF then s
  else
    let cs := (List.range 7).map (fun k => if k = i then v + 1 else x.ctr k)
    let s := s.setStr c { x with cnt := cs }
    if v + 1 = 0xFFFFFFFF then s.setSat STREAM_SEL else s

/-- The lowest-numbered context that matches (R115). -/
def State.strMatch (s : State) (da sa vid : Nat) : Option Nat :=
  (s.sw.streams.find? (fun p =>
    let hi := p.2.word 1
    let ty := STREAM_KEY_HI_ID_TYPE.get hi
    let key := (p.2.word 0).toNat + 2 ^ 32 * STREAM_KEY_HI_MAC.get hi
    (ty == 1 && key == da || ty == 2 && key == sa)
      && (STREAM_KEY_HI_ANY_VID.get hi != 0 || STREAM_KEY_HI_VID.get hi == vid))).map (·.1)

/-- FILTER of context c. -/
def State.strFilter (s : State) (c : Nat) : Word := (s.strOf c).word 2
/-- FILTER as configuration words hold it. -/
def cfgFilter (cfg : List Nat) : Word := w32 (cfg.getD 2 0)

/-- Units of one byte in a bucket: a rate of 1 kbit/s adds one unit per ns. -/
def bucketUnit : Nat := 8000000

/-- The buckets of a context filled up to a tick, at CIR and EIR over the TSCLK ticks that passed, with COUPLING (R117). -/
def StreamSt.fill (x : StreamSt) (tick : Nat) : StreamSt :=
  let ns := 4 * (tick - x.filled)
  let capC := STREAM_CBS_BYTES.get (x.word 4) * bucketUnit
  let capE := STREAM_EBS_BYTES.get (x.word 6) * bucketUnit
  let c := x.cbs + STREAM_CIR_RATE.get (x.word 3) * ns
  let excess := if STREAM_EIR_COUPLING.get (x.word 5) ≠ 0 then c - capC else 0
  { x with cbs := min capC c, ebs := min capE (x.ebs + STREAM_EIR_RATE.get (x.word 5) * ns + excess), filled := tick }

/-- How the meter disposes of a frame (R116, R117). -/
inductive MeterOut where
  | pass | dei | drop
  deriving DecidableEq, Repr

/-- The buckets and the history of context c as a frame meets them: those from before a WRITE that has landed since the frame's processing
began (R126), which all frames that began under them share. -/
def State.ctxOf (s : State) (c : Nat) (fr : Front) : StreamSt :=
  match fr.before with
  | none => s.strOf c
  | some k => tget (fun _ => {}) s.sw.olds k

/-- Change them. -/
def State.modCtx (s : State) (c : Nat) (fr : Front) (f : StreamSt → StreamSt) : State :=
  match fr.before with
  | none => s.setStr c (f (s.strOf c))
  | some k => s.modSw fun y => { y with olds := tput (fun _ => {}) y.olds k (f (tget (fun _ => {}) y.olds k)) }

/-- The buckets of context c after a frame. -/
def State.putBuckets (s : State) (c : Nat) (fr : Front) (cbs ebs filled : Nat) : State :=
  s.modCtx c fr fun x => { x with cbs := cbs, ebs := ebs, filled := filled }

/-- The flow meter of context c, its buckets being those of `x`, filled, takes `need` bucket units: green, yellow or red (R117). -/
def State.strNeed (s : State) (c : Nat) (fr : Front) (x : StreamSt) (need : Nat) : State × MeterOut :=
  let f := cfgFilter fr.cfg
  if need ≤ x.cbs then (s.putBuckets c fr (x.cbs - need) x.ebs x.filled, .pass)
  else if need ≤ x.ebs then
    let s := (s.putBuckets c fr x.cbs (x.ebs - need) x.filled).strCount c 6
    if STREAM_FILTER_DROP_YELLOW.get f ≠ 0 then (s.strCount c 3, .drop) else (s, .dei)
  else
    let s := s.putBuckets c fr x.cbs x.ebs x.filled
    let s := if STREAM_FILTER_MARK_RED_EN.get f ≠ 0
      then (s.setStr c { s.strOf c with redBlk := true }).setB STREAM_STATUS STREAM_STATUS_BLOCKED else s
    (s.strCount c 3, .drop)

/-- The flow meter of context c on a frame of B bytes (R117), by what the frame's processing began under (R126). -/
def State.strMeter (s : State) (c : Nat) (fr : Front) (len : Nat) : State × MeterOut :=
  if (s.strOf c).redBlk then (s.strCount c 3, .drop)
  else if STREAM_FILTER_METER_EN.get (cfgFilter fr.cfg) = 0 then (s, .pass)
  else s.strNeed c fr ((s.ctxOf c fr).fill s.time.tick) (len * bucketUnit)

/-- Filter and meter of context c on a frame of B bytes (R98 step 6, R116, R117), by the configuration that the context had when the
frame's processing began (R126). -/
def State.strPolice (s : State) (c : Nat) (fr : Front) (len : Nat) : State × MeterOut :=
  let f := cfgFilter fr.cfg
  let x := s.strOf c
  let lim := STREAM_FILTER_MAX_SDU.get f
  if x.sduBlk then (s.strCount c 2, .drop)
  else if lim ≠ 0 ∧ lim < len then
    let s := s.strCount c 2
    if STREAM_FILTER_BLOCK_OVERSIZE.get f ≠ 0 then
      ((s.setStr c { s.strOf c with sduBlk := true }).setB STREAM_STATUS STREAM_STATUS_BLOCKED, .drop)
    else (s, .drop)
  else s.strMeter c fr len

/-- The context is blocked for every frame until UNBLOCK (R116, R117). -/
def State.strBlocked (s : State) (c : Nat) : Bool := (s.strOf c).sduBlk || (s.strOf c).redBlk

/-- A redundancy copy with sequence `q` (R119), by the context of its head (R126); whether it is accepted. -/
def State.strRedundant (s : State) (c : Nat) (fr : Front) (q : Nat) : State × Bool :=
  let x := s.ctxOf c fr
  let ms := STREAM_SEQ_RESET_MS.get (w32 (fr.cfg.getD 7 0))
  let now := s.time.tick
  let idle := ms ≠ 0 ∧ ms * 250000 ≤ now - x.seen
  let put (s : State) (h : Nat × Nat) : State := s.modCtx c fr fun x => { x with hist := some h, seen := now }
  match x.hist with
  | none => (put s (q, 1), true)
  | some (h, m) =>
    if idle then (put s (q, 1), true)
    else
      let d := sgn 16 (q + 65536 - h)
      if 0 < d then (put s (q, ((if 64 ≤ d then 0 else m <<< d.toNat) % 2 ^ 64) ||| 1), true)
      else if -64 < d then
        let i := (-d).toNat
        if bitOf i m then
          (((put s (h, m)).strCount c 4).setB STREAM_STATUS STREAM_STATUS_DUP, false)
        else (put s (h, m ||| 2 ^ i), true)
      else (((put s (h, m)).strCount c 5).setB STREAM_STATUS STREAM_STATUS_OUT_OF_WINDOW, true)

/-- The configuration registers of the window. -/
def strWinRegs : List Nat := [STREAM_KEY_LO, STREAM_KEY_HI, STREAM_FILTER, STREAM_CIR, STREAM_CBS, STREAM_EIR, STREAM_EBS, STREAM_SEQ_RESET]
/-- The counter registers of the window. -/
def strCntRegs : List Nat := [STREAM_MATCHED, STREAM_PASSED, STREAM_SDU_DROP, STREAM_METER_DROP, STREAM_DUP_DROP, STREAM_OUT_OF_WINDOW, STREAM_YELLOW]

/-- READ: the context's configuration and a snapshot of its counters go into the window (R126). -/
def State.strRead (s : State) (c : Nat) : State :=
  let x := s.strOf c
  let s := (strWinRegs.zip (List.range 8)).foldl (fun s p => s.setReg p.1 (x.word p.2)) s
  let s := (s.putB STREAM_FILTER STREAM_FILTER_SDU_BLOCKED x.sduBlk).putB STREAM_FILTER STREAM_FILTER_RED_BLOCKED x.redBlk
  (strCntRegs.zip (List.range 7)).foldl (fun s p => s.setReg p.1 (w32 (x.ctr p.2))) s

/-- A frame in reception has its context in slot k of `SwSt.olds`. -/
def State.oldUsed (s : State) (k : Nat) : Bool := anyN 6 (fun n => ((s.portOf n).rx.bind (·.front)).bind (·.before) == some k)

/-- Frames in reception whose processing began under context c keep it as it stands, in a slot that no other frame uses (R126). Six ports
receive, so one of six slots is free for a frame that has none yet. -/
def State.strKeep (s : State) (c : Nat) : State :=
  let k := ((List.range 6).find? (fun k => !s.oldUsed k)).getD 0
  let x := s.strOf c
  let s := s.forN 6 fun s n => s.modPort n fun p => { p with rx := p.rx.map fun r =>
    { r with front := r.front.map fun fr => if fr.stream = some c ∧ fr.before.isNone then { fr with before := some k } else fr } }
  if s.oldUsed k then s.modSw fun y => { y with olds := tput (fun _ => {}) y.olds k x } else s

/-- WRITE: the window's configuration goes into the context; buckets full, history empty (R126). -/
def State.strWrite (s : State) (c : Nat) : State :=
  let s := s.strKeep c
  let x := s.strOf c
  let ws := strWinRegs.map (fun a => (s.reg a).toNat)
  let ws := ws.set 2 (ws.getD 2 0 % 2 ^ 24)
  let cfg := if ws.all (fun w => w == 0) then [] else ws
  let cb := STREAM_CBS_BYTES.get (s.reg STREAM_CBS) * bucketUnit
  let eb := STREAM_EBS_BYTES.get (s.reg STREAM_EBS) * bucketUnit
  s.setStr c { x with cfg := cfg, cbs := cb, ebs := eb, filled := s.time.tick, hist := none }

/-- CLEAR of the context's counters. -/
def State.strClear (s : State) (c : Nat) : State := s.setStr c { s.strOf c with cnt := [] }
/-- UNBLOCK. -/
def State.strUnblock (s : State) (c : Nat) : State := s.setStr c { s.strOf c with sduBlk := false, redBlk := false }

/-- Perform a window operation; BUSY reads 1 until it ends. -/
def State.strOp (s : State) (op : Nat) : State :=
  let c := s.fld STREAM_SEL STREAM_SEL_CONTEXT
  let go (t : State) := t.setB STREAM_CMD STREAM_CMD_BUSY
  match op with
  | 1 => go (s.strRead c)
  | 2 => go (s.strWrite c)
  | 3 => go (s.strClear c)
  | 4 => go (s.strUnblock c)
  | _ => s

/-! ## Frames and cells (R96, R97, R109) -/

/-- Frame record i. -/
def State.frameAt (s : State) (i : Nat) : Option Frame := tget (fun _ => none) s.sw.frames i
/-- Store frame record i. -/
def State.setFrame (s : State) (i : Nat) (f : Option Frame) : State :=
  s.modSw fun x => { x with frames := tput (fun _ => none) x.frames i f }
/-- Output queue k = 8 × egress + class. -/
def State.swq (s : State) (k : Nat) : List Nat := tget (fun _ => []) s.sw.q k
/-- Store output queue k. -/
def State.setSwq (s : State) (k : Nat) (l : List Nat) : State := s.modSw fun x => { x with q := tput (fun _ => []) x.q k l }

/-- Cells that a frame of n bytes occupies (R96). -/
def cellsFor (n : Nat) : Nat := (n + 16 + 255) / 256

/-- Cells of the reserve in use. -/
def State.resvUsed (s : State) : Nat := s.sw.frames.foldl (fun a p => match p.2 with | some f => a + f.resv | none => a) 0
/-- Cells of the shared pool in use. -/
def State.sharedUsed (s : State) : Nat := s.sw.frames.foldl (fun a p => match p.2 with | some f => a + f.shared | none => a) 0
/-- SW_C7_RESERVE. -/
def State.c7Reserve (s : State) : Nat := s.fld SW_C7_RESERVE SW_C7_RESERVE_CELLS
/-- Cells that no frame holds. -/
def State.cellsFree (s : State) : Nat := 8192 - s.resvUsed - s.sharedUsed
/-- Free cells of the reserve. A change of SW_C7_RESERVE leaves cells already held with the share that took them, and no share has more free than there
are: R97 does not say what the change does to them (DESIGN CHOICE, log 113). -/
def State.resvFree (s : State) : Nat := min (s.c7Reserve - s.resvUsed) s.cellsFree
/-- Free cells of the shared pool. -/
def State.sharedFree (s : State) : Nat := min (8192 - s.c7Reserve - s.sharedUsed) s.cellsFree

/-- Cells of one frame. -/
def Frame.cells (f : Frame) : Nat := f.resv + f.shared

/-- Depth of queue k in cells (R96). -/
def State.depth (s : State) (k : Nat) : Nat :=
  (s.swq k).foldl (fun a i => match s.frameAt i with | some f => a + f.cells | none => a) 0

/-! ### Cells of the frame memory (R15, R28, R96) -/

/-- First address of the frame buffer's window (R15). -/
def fbBase : Nat := 0x30000000

/-- A frame holds cell c. -/
def State.fbTaken (s : State) (c : Nat) : Bool :=
  s.sw.frames.any (fun p => match p.2 with | some f => f.cellNos.contains c | none => false)

/-- A free cell for frame f. Which one it is, the spec leaves open: a free value (log 2). -/
def State.fbPick (s : State) (f : Frame) : Nat :=
  let l := (List.range 8192).filter (fun c => !s.fbTaken c && !f.cellNos.contains c)
  l.getD (Config.freeNat s.free % l.length) 0

/-- Frame f takes k further cells. -/
def State.fbTake (s : State) (f : Frame) : Nat → State × Frame
  | 0 => (s, f)
  | k + 1 => s.tickFree.fbTake { f with cellNos := f.cellNos ++ [s.fbPick f] } k

/-- Address of place q of a frame's cells: its descriptor, then its bytes. -/
def Frame.cellAddr (f : Frame) (q : Nat) : Nat := fbBase + 256 * f.cellNos.getD (q / 256) 0 + q % 256

/-- The memory line that holds the frame's 16-byte line r, where the frame has a cell for it. -/
def Frame.line (f : Frame) (r : Nat) : Option Nat := if r / 16 < f.cellNos.length then some (lineOf (f.cellAddr (16 * r))) else none

/-- The memory lines of bytes [from, to) of a frame. -/
def Frame.lines (f : Frame) (frm to_ : Nat) : List Nat :=
  (List.range ((16 + to_ + 15) / 16 - (16 + frm) / 16)).filterMap (fun k => f.line ((16 + frm) / 16 + k))

/-- Bytes [from, to) of a frame read as poison (R28). -/
def State.framePoison (s : State) (f : Frame) (frm to_ : Nat) : Bool := s.mm.poison.any (f.lines frm to_).contains

/-- Bytes of a frame up to `to_` are stored, those up to `frm` having been stored before: lines that are now written whole lose their marks
(R29). -/
def State.fbStored (s : State) (f : Frame) (frm to_ : Nat) : State :=
  let first := if frm = 0 then 0 else (16 + frm) / 16
  ((List.range ((16 + to_) / 16 - first)).filterMap (fun k => f.line (first + k))).foldl State.clearLine s

/-- Poisoned data is copied into the bytes named: their lines become poison (R28). -/
def State.fbPoisoned (s : State) (f : Frame) (idx : List Nat) : State :=
  (idx.filterMap (fun k => f.line ((16 + k) / 16))).foldl (fun s l => s.setPoison (16 * l)) s

/-- The frame's lines named are found uncorrectable as the frame is read (R28). -/
def State.frameUpset (s : State) (f : Frame) (bad : List Nat) : State :=
  ((bad.filter (fun r => decide (16 * r < 16 + f.bytes.length))).filterMap f.line).foldl (fun s l => s.upset l true) s

/-- A frame is read out of its cells: what can be corrected is corrected (R27). -/
def State.frameEcc (s : State) (f : Frame) : State :=
  if s.mm.soft.isEmpty then s
  else (f.lines 0 f.bytes.length).foldl (fun s l => if s.mm.soft.contains l then s.eccCorrect l else s) s

/-- The frame that holds address `a` of the window, with its number and the place in it. -/
def State.fbHeld (s : State) (a : Nat) : Option (Nat × Frame × Nat) :=
  s.sw.frames.findSome? (fun p => p.2.bind (fun f => (f.cellNos.idxOf? ((a - fbBase) / 256)).bind (fun j =>
    if 256 * j + a % 256 < 16 + f.bytes.length then some (p.1, f, 256 * j + a % 256) else none)))

/-- Place q of frame i as its cells hold it; the descriptor's layout is left open (log 2). -/
def Frame.place (i : Nat) (f : Frame) (q : Nat) : Nat :=
  if 16 ≤ q then f.bytes.getD (q - 16) 0
  else ((f.desc.find? (fun d => d.1 == q)).map Prod.snd).getD (Config.descByte i q).toNat

/-- What is left in cell c of frames gone by, at place o. -/
def State.fbOld (s : State) (c o : Nat) : Option Nat := (s.mm.fbLeft.find? (fun p => p.1 == c)).bind (fun p => p.2.getD o none)

/-- A byte of the window. -/
def State.fbByte (s : State) (a : Nat) : Nat :=
  match s.fbHeld a with
  | some (i, f, q) => f.place i q
  | none => (s.fbOld ((a - fbBase) / 256) (a % 256)).getD (s.rd8 a)

/-- A byte written through the window. A byte of a descriptor reads back and has no other effect (DESIGN CHOICE, log 103). -/
def State.fbPut (s : State) (a b : Nat) : State :=
  match s.fbHeld a with
  | some (i, f, q) =>
    s.setFrame i (some (if 16 ≤ q then { f with bytes := f.bytes.set (q - 16) b } else { f with desc := (q, b) :: f.desc }))
  | none =>
    (s.wr8 a b).modMm fun m => { m with fbLeft := m.fbLeft.map (fun p =>
      if p.1 = (a - fbBase) / 256 then (p.1, p.2.set (a % 256) none) else p) }

/-- A write through the window under R29. -/
def State.fbStore (s : State) (a : Nat) (bs : List Nat) : State :=
  (wholeLines a bs.length).foldl State.clearLine ((bs.mapIdx (fun k b => (a + k, b))).foldl (fun s x => s.fbPut x.1 x.2) s)

/-- The cells of frame i return to the pool, with what they hold; the frame's record stays. -/
def State.cellsBack (s : State) (i : Nat) (f : Frame) : State :=
  let keep (j c : Nat) : Nat × List (Option Nat) :=
    (c, (List.range 256).map (fun o => if 256 * j + o < 16 + f.bytes.length then some (f.place i (256 * j + o)) else s.fbOld c o))
  (s.modMm fun m => { m with fbLeft := f.cellNos.mapIdx keep ++ m.fbLeft.filter (fun p => !f.cellNos.contains p.1) }).setFrame i
    (some { f with cellNos := [], resv := 0, shared := 0 })

/-- The record of frame i goes and its cells return to the pool. -/
def State.frameFree (s : State) (i : Nat) (f : Frame) : State := (s.cellsBack i f).setFrame i none

/-- Raise a class 7 frame's cells to those its bytes need: reserve first, then the pool; none if there are too few (R97). -/
def State.grow7 (s : State) (f : Frame) : Option (State × Frame) :=
  let need := cellsFor f.bytes.length - f.cells
  let r := min need s.resvFree
  if need - r ≤ s.sharedFree ∧ need ≤ s.cellsFree then some (s.fbTake { f with resv := f.resv + r, shared := f.shared + (need - r) } need) else none

/-- Cells of the shared pool for a whole frame; none if there are too few (R109). -/
def State.grow0 (s : State) (f : Frame) : Option (State × Frame) :=
  let need := cellsFor f.bytes.length
  if need ≤ s.sharedFree then some (s.fbTake { f with shared := need } need) else none

/-- A class 7 frame without cells is dropped (R97). -/
def State.c7NoCell (s : State) (port : Nat) : State :=
  ((s.count (SW_PORT_NOCELL port)).setB SW_STATUS SW_STATUS_C7_NOCELL).logEv 0x30 port

/-- Frame i is in reception on a port. -/
def State.rxHolds (s : State) (i : Nat) : Bool :=
  s.port.any (fun p => match p.2.rx with | some r => r.frame == some i | none => false)

/-- A frame leaves the queue of an egress; its cells go when no egress holds it and nothing more of it is stored, its record once its reception is
over (R96). -/
def State.frameGone (s : State) (i e : Nat) : State :=
  match s.frameAt i with
  | none => s
  | some f =>
    let s := s.setSwq (8 * e + f.cls) ((s.swq (8 * e + f.cls)).filter (fun j => j != i))
    let f := { f with egress := f.egress.filter (fun p => p != e) }
    let f := if f.egress.isEmpty then { f with ins := [] } else f
    if f.egress.isEmpty ∧ f.done then (if s.rxHolds i then s.cellsBack i f else s.frameFree i f) else s.setFrame i (some f)

/-! ## The SWITCH block's registers -/

/-- The tide engine runs. -/
def State.tideRuns (s : State) : Bool := s.bit TIDE_CTL TIDE_CTL_RUNNING

/-- Exactly one bit of an eight-bit field is set. -/
def oneBit (n : Nat) : Bool := popCount 8 n == 1

/-- Writes of the SWITCH block that are discarded whole (R24, R97, R101, R103, R105, R107, R124). -/
def switchBad (s : State) (a0 : Nat) (w : Word) : Bool :=
  let busy := s.bit SW_MAC_CMD SW_MAC_CMD_BUSY
  if a0 = SW_C7_RESERVE then decide (2048 < SW_C7_RESERVE_CELLS.get w)
  else if a0 = SW_AGE_TIME then decide (1000000 < SW_AGE_TIME_SECONDS.get w)
  else if a0 = SW_RED_CTL then SW_RED_CTL_PAIR0.get w == 3 || SW_RED_CTL_PAIR1.get w == 3 || SW_RED_CTL_PAIR2.get w == 3
  else if a0 = SW_MAC_CMD then
    let d := s.reg SW_MAC_DATA
    busy || decide (6 ≤ SW_MAC_CMD_OP.get w)
      || (SW_MAC_CMD_OP.get w == 2 && SW_MAC_DATA_VALID.get d != 0 && SW_MAC_DATA_STATIC.get d == 0
          && !oneBit (SW_MAC_DATA_PORTS.get d))
  else if a0 = SW_MAC_KEY_LO ∨ a0 = SW_MAC_KEY_HI ∨ a0 = SW_MAC_DATA then busy
  else if a0 = SW_VLAN_CMD then
    let v := SW_VLAN_CMD_VID.get w
    SW_VLAN_CMD_OP.get w == 0 || SW_VLAN_CMD_OP.get w == 3 || (SW_VLAN_CMD_OP.get w == 2 && (v == 0 || v == 4095))
  else if a0 = SW_PORT_CFG 0 then SW_PORT_CFG_PVID.get w == 0 || SW_PORT_CFG_PVID.get w == 4095
  else if a0 = SW_Q_ECN_MARK 0 then decide (8192 < SW_Q_ECN_MARK_CELLS.get w)
  else if a0 = SW_Q_DROP 0 then decide (8192 < SW_Q_DROP_CELLS.get w)
  else false

/-- What a write of the SWITCH block does beside setting its fields. -/
def switchHook (a0 : Nat) (w : Word) (s : State) : State :=
  if a0 = SW_MAC_CMD then s.macOp (SW_MAC_CMD_OP.get w)
  else if a0 = SW_VLAN_CMD then s.vlanOp w
  else s

/-- Registers of the SWITCH block that read the live state. -/
def switchView (s : State) (a0 i : Nat) : Option Word :=
  if a0 = SW_POOL_FREE then some (w32 (s.sharedFree + 2 ^ 16 * s.resvFree))
  else if a0 = SW_Q_DEPTH 0 then some (w32 (s.depth i))
  else none

/-- SRC bits of SWITCH_SUMMARY (R125). -/
def switchSrc (s : State) : Nat := (s.reg SW_STATUS).toNat % 256

/-! ## The STREAM block's registers -/

/-- Writes of the STREAM block that are discarded whole (R24, R115, R116, R126, R127). -/
def streamBad (s : State) (a0 : Nat) (w : Word) : Bool :=
  let sdu := STREAM_FILTER_MAX_SDU.get w
  ((a0 == STREAM_SEL || a0 == STREAM_CMD || strWinRegs.contains a0 || strCntRegs.contains a0) && s.bit STREAM_CMD STREAM_CMD_BUSY)
    || (a0 == STREAM_CMD && (STREAM_CMD_OP.get w == 0 || decide (5 ≤ STREAM_CMD_OP.get w)))
    || (a0 == STREAM_KEY_HI && STREAM_KEY_HI_ID_TYPE.get w == 3)
    || (a0 == STREAM_FILTER && (decide (1 ≤ sdu ∧ sdu ≤ 63) || decide (9216 < sdu)))
    || (a0 == STREAM_CIR && decide (2500000 < STREAM_CIR_RATE.get w))
    || (a0 == STREAM_EIR && decide (2500000 < STREAM_EIR_RATE.get w))

/-- What a write of the STREAM block does beside setting its fields. -/
def streamHook (a0 : Nat) (w : Word) (s : State) : State := if a0 = STREAM_CMD then s.strOp (STREAM_CMD_OP.get w) else s

/-- SRC bits of STREAM_SUMMARY (R128). -/
def streamSrc (s : State) : Nat := (s.reg STREAM_STATUS).toNat % 8

end Sys2Proof.Machine
end

