-- ==== Sys2Proof/Machine/Frames.lean ====
section
/-! DEFINITION. What the switch and the ports read and rewrite in a frame: tags (R98, R133), redundancy tags (R118 to R121), ECN marks
(R108), PTP event messages (R44 to R50), the FCS. Bytes run from the destination address; unless a function says otherwise
they end before the FCS. -/
namespace Sys2Proof.Machine

/-! ## Parsing -/

/-- EtherType of an HSR tag (R118). -/
def etHSR : Nat := 0x892F

/-- A TPID of a VLAN tag (R44). -/
def isTpid (n : Nat) : Bool := n == 0x8100 || n == 0x88A8

/-- Offset of the first VLAN tag or of the EtherType: after the addresses, and after an HSR tag that follows them, whatever the setting of
the port's pair (DESIGN CHOICE, log 102). -/
def tagPos (bs : List Nat) : Nat := if beAt bs 12 2 = etHSR then 18 else 12

/-- Number of VLAN tags, at most two. -/
def tagCount (bs : List Nat) : Nat :=
  let p := tagPos bs
  if isTpid (beAt bs p 2) then (if isTpid (beAt bs (p + 4) 2) then 2 else 1) else 0

/-- Offset of the EtherType behind the tags. -/
def etPos (bs : List Nat) : Nat := tagPos bs + 4 * tagCount bs
/-- The EtherType behind the tags. -/
def etherType (bs : List Nat) : Nat := beAt bs (etPos bs) 2

/-- Destination address. -/ def daOf (bs : List Nat) : Nat := beAt bs 0 6
/-- Source address. -/ def saOf (bs : List Nat) : Nat := beAt bs 6 6
/-- The outer tag's control word. -/ def outerTci (bs : List Nat) : Nat := beAt bs (tagPos bs + 2) 2
/-- VID of the outer tag, 0 if untagged. -/ def outerVid (bs : List Nat) : Nat := if tagCount bs = 0 then 0 else outerTci bs % 4096
/-- PCP of the outer tag. -/ def outerPcp (bs : List Nat) : Nat := outerTci bs / 8192 % 8

/-- A link-local destination (R100). -/
def linkLocal (bs : List Nat) : Bool := daOf bs / 16 == 0x0180C200000
/-- The source address is unicast. -/
def saUnicast (bs : List Nat) : Bool := bs.getD 6 0 % 2 == 0

/-- Offset of the HSR tag, if the frame carries one, at the addresses or behind its VLAN tags. -/
def hsrPos (bs : List Nat) : Option Nat :=
  if beAt bs 12 2 = etHSR then some 12 else if etherType bs = etHSR then some (etPos bs) else none
/-- Sequence number of a PRP trailer at the end of the bytes, if there is one. -/
def prpSeq (bs : List Nat) : Option Nat :=
  if 20 ≤ bs.length ∧ beAt bs (bs.length - 2) 2 = 0x88FB then some (beAt bs (bs.length - 6) 2) else none

/-- A frame of `n` bytes without its FCS. -/
def bodyOf (bs : List Nat) : List Nat := bs.take (bs.length - 4)
/-- The FCS of a frame is good. -/
def fcsGood (bs : List Nat) : Bool := decide (5 ≤ bs.length) && ofLe (bs.drop (bs.length - 4)) == crc32 (bodyOf bs)
/-- Append the FCS; a stomped FCS is its inverse (R113). -/
def addFcs (body : List Nat) (stomp : Bool) : List Nat :=
  body ++ leBytes 4 (if stomp then crc32 body ^^^ 0xFFFFFFFF else crc32 body)

/-! ## VLAN tags (R133, R134) -/

/-- A VLAN tag of four bytes. -/
def vlanTag (tpid pcp vid : Nat) : List Nat := beBytes 2 tpid ++ beBytes 2 (pcp * 8192 + vid % 4096)
/-- Insert an outer tag. -/
def tagInsert (bs : List Nat) (tpid pcp vid : Nat) : List Nat :=
  bs.take (tagPos bs) ++ vlanTag tpid pcp vid ++ bs.drop (tagPos bs)
/-- Take the outer tag away, if there is one. -/
def tagRemove (bs : List Nat) : List Nat :=
  if tagCount bs = 0 then bs else bs.take (tagPos bs) ++ bs.drop (tagPos bs + 4)
/-- Set the outer tag's VID. -/
def tagSetVid (bs : List Nat) (vid : Nat) : List Nat :=
  if tagCount bs = 0 then bs else splice bs (tagPos bs + 2) (beBytes 2 (outerTci bs / 4096 * 4096 + vid % 4096))
/-- Set the outer tag's VID and PCP; DEI is kept. -/
def tagReplace (bs : List Nat) (pcp vid : Nat) : List Nat :=
  splice bs (tagPos bs + 2) (beBytes 2 (pcp * 8192 + outerTci bs % 8192 / 4096 * 4096 + vid % 4096))
/-- Set DEI in the outer tag, if there is one (R117). -/
def tagSetDei (bs : List Nat) : List Nat :=
  if tagCount bs = 0 then bs else splice bs (tagPos bs + 2) (beBytes 2 (outerTci bs ||| 0x1000))

/-- The tag change of port n on a frame of stream `st`, class `cls` and VID `vid` (R133). -/
def State.tagChange (s : State) (n : Nat) (st : Option Nat) (cls vid : Nat) (bs : List Nat) : List Nat :=
  let tpid := s.fld (PORT_TAG_CTL n) PORT_TAG_CTL_TPID_OUT
  let entry := (List.range 8).find? (fun m =>
    s.fld (PORT_STREAM_TAG n m) PORT_STREAM_TAG_OP != 0 && st == some (s.fld (PORT_STREAM_TAG n m) PORT_STREAM_TAG_CONTEXT))
  match entry with
  | some m =>
    let v := s.fld (PORT_STREAM_TAG n m) PORT_STREAM_TAG_VID
    let p := s.fld (PORT_STREAM_TAG n m) PORT_STREAM_TAG_PCP
    match s.fld (PORT_STREAM_TAG n m) PORT_STREAM_TAG_OP with
    | 1 => tagInsert bs tpid p v
    | 2 => tagRemove bs
    | _ => if tagCount bs = 0 then tagInsert bs tpid p v else tagReplace bs p v
  | none =>
    let send := match s.fld (PORT_TAG_CTL n) PORT_TAG_CTL_EGRESS_MODE with
      | 0 => !bitOf n (s.vlanUntag vid)
      | 1 => true
      | _ => false
    if !send then tagRemove bs
    else if tagCount bs = 0 then tagInsert bs tpid cls vid
    else if outerVid bs = 0 ∧ !s.bit (PORT_TAG_CTL n) PORT_TAG_CTL_PRIO_KEEP then tagSetVid bs vid
    else bs

/-- A frame shortened below 64 bytes is padded with zeros (R134). -/
def padTo60 (bs : List Nat) : List Nat := bs ++ List.replicate (60 - bs.length) 0

/-! ## Redundancy tags (R118 to R121) -/

/-- The setting of a port pair: 0 none, 1 PRP, 2 HSR. -/
def State.pairMode (s : State) (p : Nat) : Nat := bitsOf (2 * p + 1) (2 * p) (s.reg SW_RED_CTL).toNat
/-- The setting of the pair that switch port n lies in; none for P6 and P7. -/
def State.portPair (s : State) (n : Nat) : Nat := if n < 6 then s.pairMode (n / 2) else 0
/-- The other port of a pair. -/
def otherPort (n : Nat) : Nat := if n % 2 = 0 then n + 1 else n - 1

/-- Sequence number of a redundancy-tagged frame received on port n (R118). -/
def State.redSeqOf (s : State) (n : Nat) (bs : List Nat) : Option Nat :=
  match s.portPair n with
  | 1 => prpSeq bs
  | 2 => (hsrPos bs).map (fun p => beAt bs (p + 4) 2)
  | _ => none

/-- Where the redundancy tag of six bytes is taken off a copy for egress e outside the pair it arrived on (R120). -/
def State.redCut (s : State) (ingress e : Nat) (bs : List Nat) : Option Nat :=
  if ingress < 6 ∧ (6 ≤ e ∨ e / 2 ≠ ingress / 2) then
    match s.portPair ingress with
    | 1 => if s.bit SW_RED_CTL SW_RED_CTL_REMOVE_RCT ∧ (prpSeq bs).isSome then some (bs.length - 6) else none
    | 2 => hsrPos bs
    | _ => none
  else none

/-- Take six bytes out of a list. -/
def cutSix {α : Type} (l : List α) : Option Nat → List α
  | some p => l.take p ++ l.drop (p + 6)
  | none => l

/-- Take the redundancy tag off a copy for egress e (R120). -/
def State.redRemove (s : State) (ingress e : Nat) (bs : List Nat) : List Nat := cutSix bs (s.redCut ingress e bs)

/-- Put the pair's redundancy tag on a copy that leaves port e (R121). The fields beside the sequence follow IEC 62439-3
(PRESUMED, log 20): PRP carries LAN A or B and HSR the path by port, and the LSDU size. -/
def State.redInsert (s : State) (e seq : Nat) (bs : List Nat) : List Nat :=
  match s.portPair e with
  | 1 =>
    let size := bs.length + 6 - etPos bs - 2
    bs ++ beBytes 2 seq ++ beBytes 2 ((if e % 2 = 0 then 0xA000 else 0xB000) + size % 4096) ++ beBytes 2 0x88FB
  | 2 =>
    let size := bs.length - 12 + 4
    bs.take 12 ++ beBytes 2 etHSR ++ beBytes 2 ((if e % 2 = 0 then 0 else 0x1000) + size % 4096) ++ beBytes 2 seq ++ bs.drop 12
  | _ => bs

/-! ## ECN (R108) -/

/-- Ones' complement sum of 16 bits. -/
def onesAdd (a b : Nat) : Nat := let c := a + b; (c % 65536 + c / 65536) % 65536
/-- RFC 1624: a checksum after a word changed from `m` to `m'`. -/
def checksumFix (c m m' : Nat) : Nat := 65535 - onesAdd (onesAdd (65535 - c) (65535 - m)) m'

/-- The ECN field of an IP frame, by the offset of the octet that holds it and its value; none for another frame. An IP header behind an HSR tag counts,
on any port: R108 speaks of VLAN tags only (DESIGN CHOICE, log 102). -/
def ecnOf (bs : List Nat) : Option (Bool × Nat) :=
  let p := etPos bs + 2
  if etherType bs = 0x0800 ∧ bs.getD p 0 / 16 = 4 ∧ p + 20 ≤ bs.length then some (false, bs.getD (p + 1) 0 % 4)
  else if etherType bs = 0x86DD ∧ bs.getD p 0 / 16 = 6 ∧ p + 40 ≤ bs.length then some (true, bs.getD (p + 1) 0 / 16 % 4)
  else none

/-- A frame that marking changes. -/
def ecnCapable (bs : List Nat) : Bool := match ecnOf bs with | some (_, e) => e == 1 || e == 2 | none => false

/-- Set CE; the IPv4 header checksum follows. -/
def ecnMark (bs : List Nat) : List Nat :=
  let p := etPos bs + 2
  match ecnOf bs with
  | some (v6, e) =>
    if e ≠ 1 ∧ e ≠ 2 then bs
    else if v6 then splice bs (p + 1) [bs.getD (p + 1) 0 ||| 0x30]
    else
      let m := beAt bs p 2
      let bs' := splice bs (p + 1) [bs.getD (p + 1) 0 ||| 3]
      splice bs' (p + 10) (beBytes 2 (checksumFix (beAt bs (p + 10) 2) m (m ||| 3)))
  | none => bs

/-! ## PTP event messages (R44 to R49) -/

/-- Where the PTP message lies, and where its UDP header lies if it has one: offset, UDP offset, IPv6. -/
structure PtpAt where
  off : Nat
  udp : Option (Nat × Bool)
  deriving DecidableEq, Repr

/-- A PTP event message by the enables of port n (R44); behind a tag that is no VLAN tag none is recognised. -/
def State.ptpFind (s : State) (n : Nat) (bs : List Nat) : Option PtpAt :=
  let p := etPos bs + 2
  let en (f : Fld) : Bool := s.bit (TIME_PTP_CTL n) f
  let at' : Option PtpAt :=
    if etherType bs = 0x88F7 ∧ en TIME_PTP_CTL_L2_EN then some ⟨p, none⟩
    else if etherType bs = 0x0800 ∧ bs.getD p 0 = 0x45 ∧ bs.getD (p + 9) 0 = 17 ∧ beAt bs (p + 22) 2 = 319
        ∧ en TIME_PTP_CTL_UDP4_EN then some ⟨p + 28, some (p + 20, false)⟩
    else if etherType bs = 0x86DD ∧ bs.getD p 0 / 16 = 6 ∧ bs.getD (p + 6) 0 = 17 ∧ beAt bs (p + 42) 2 = 319
        ∧ en TIME_PTP_CTL_UDP6_EN then some ⟨p + 48, some (p + 40, true)⟩
    else none
  at'.filter (fun a => tagPos bs == 12 && decide (a.off + 34 ≤ bs.length) && bs.getD (a.off + 1) 0 % 16 == 2 && decide (bs.getD a.off 0 % 16 ≤ 3))

/-- messageType. -/
def ptpType (a : PtpAt) (bs : List Nat) : Nat := bs.getD a.off 0 % 16

/-- Sum of 16-bit words of bytes, most significant first. -/
def onesSum : List Nat → Nat
  | [] => 0
  | [a] => a * 256
  | a :: b :: t => onesAdd (a * 256 + b) (onesSum t)

/-- Ones' complement of a 16-bit number. -/
def onesNot (n : Nat) : Nat := 65535 - n

/-- The UDP checksum follows a change of the bytes behind the UDP header (R47): zero over IPv4 stays zero. -/
def udpFix (a : PtpAt) (old new : List Nat) : List Nat :=
  match a.udp with
  | none => new
  | some (u, v6) =>
    let c := beAt old (u + 6) 2
    if c = 0 ∧ !v6 then new
    else
      let d := onesAdd (onesNot (onesSum (old.drop (u + 8)))) (onesSum (new.drop (u + 8)))
      let c' := onesNot (onesAdd (onesNot c) d)
      splice new (u + 6) (beBytes 2 (if c' = 0 then 65535 else c'))

/-- Add to the correctionField (R48, R49): bytes and whether it saturated. -/
def ptpCorrect (a : PtpAt) (bs : List Nat) (d : Int) : List Nat × Bool :=
  let (c, sat) := corrAdd (beAt bs (a.off + 8) 8) d
  (splice bs (a.off + 8) (beBytes 8 c), sat)

/-- The whole nanoseconds of a timestamp, and its quarter. -/
def quarterNs (t : Nat) : Nat := t % 2 ^ 32 / 2 ^ 30

/-- One-step rewrite of a Sync (R47): originTimestamp, and the quarter nanoseconds into correctionField. -/
def ptpOneStep (a : PtpAt) (bs : List Nat) (ts : Nat) : List Nat × Bool :=
  let bs' := splice bs (a.off + 34) (beBytes 6 (todSec ts) ++ beBytes 4 (todNs ts))
  ptpCorrect a bs' (quarterNs ts * 16384)

/-- LINK_DELAY of port i, in 2^-16 ns. -/
def State.linkDelay (s : State) (i : Nat) : Int :=
  ((s.reg (TIME_PTP_LINK_DELAY i)).toNat : Int)

/-- What PTP does to a frame that leaves port n at `ts`, having entered on `ingress` at `tin` (R46 to R49): the bytes, and the
state with the FIFO and CORR_SAT. -/
def State.ptpEgress (s : State) (n ingress tin ts : Nat) (bs : List Nat) : State × List Nat :=
  match s.ptpFind n bs with
  | none => (s, bs)
  | some a =>
    let ty := ptpType a bs
    let sat (s : State) (b : Bool) : State := s.setIf b (TIME_PTP_STATUS n) TIME_PTP_STATUS_CORR_SAT
    if 6 ≤ ingress then
      let s := if s.bit (TIME_PTP_CTL n) TIME_PTP_CTL_TXTS_EN then
          s.pushTxts n ⟨ty, bs.getD (a.off + 4) 0, beAt bs (a.off + 30) 2, todNs ts, quarterNs ts, todSec ts % 2 ^ 32⟩
        else s
      if s.bit (TIME_PTP_CTL n) TIME_PTP_CTL_ONE_STEP ∧ ty = 0 ∧ !bitOf 1 (bs.getD (a.off + 6) 0) ∧ a.off + 44 ≤ bs.length then
        let (new, st) := ptpOneStep a bs ts
        (sat s st, udpFix a bs new)
      else (s, bs)
    else
      let resid := todDiff16 ts tin
      let d : Option Int := match s.fld (TIME_PTP_CTL n) TIME_PTP_CTL_TC_MODE with
        | 1 => some resid
        | 2 => if ty = 0 then some (resid + s.linkDelay ingress) else if ty = 1 then some resid else none
        | _ => none
      match d with
      | none => (s, bs)
      | some d =>
        let (new, st) := ptpCorrect a bs d
        (sat s st, udpFix a bs new)

/-- The 12-byte ingress timestamp trailer (R45). -/
def tsTrailer (port t : Nat) : List Nat :=
  leBytes 4 (todNs t * 4 + quarterNs t) ++ leBytes 4 (todSec t) ++ leBytes 4 (todSec t / 2 ^ 32 % 2 ^ 16 + 2 ^ 16 * port)

end Sys2Proof.Machine
end

