-- ==== Sys2Proof/Machine/TideLook.lean ====
section
/-! DEFINITION. What others read of the tide engine (03): entries of a bank, PARITY, gates, and the next instants at which a gate
closes or opens (R65, R66, R71). -/
namespace Sys2Proof.Machine

/-- Change the tide record. -/
def State.modTide (s : State) (f : TideSt → TideSt) : State := { s with tide := f s.tide }

/-- Address of entry i of a bank (R15, R65). -/
def bankAddr (b i : Nat) : Nat := 0x3A000000 + b * 0x20000 + 16 * i
/-- Word w of entry i of a bank. -/
def State.entryWord (s : State) (b i w : Nat) : Nat := s.rdN (bankAddr b i + 4 * w) 4
/-- The entry reads as poison. -/
def State.entryPoison (s : State) (b i : Nat) : Bool := s.poisoned (bankAddr b i)
/-- LEN of a bank. -/ def State.bankLen (s : State) (b : Nat) : Nat := s.fld (TIDE_BANK_LEN b) TIDE_BANK_LEN_LEN
/-- CYCLE of a bank, ns. -/ def State.bankCycle (s : State) (b : Nat) : Nat := s.fld (TIDE_BANK_CYCLE b) TIDE_BANK_CYCLE_LENGTH
/-- STATE of a bank: 0 EMPTY, 1 VALIDATING, 2 VALID, 3 FAILED, 4 ACTIVE. -/
def State.bankState (s : State) (b : Nat) : Nat := s.fld (TIDE_BANK_STATE b) TIDE_BANK_STATE_STATE
/-- Set STATE of a bank. -/
def State.setBankState (s : State) (b v : Nat) : State := s.putF (TIDE_BANK_STATE b) TIDE_BANK_STATE_STATE v
/-- The active bank. -/
def State.activeBank (s : State) : Nat := s.fld TIDE_CTL TIDE_CTL_ACTIVE_BANK

/-- ACTION of word 1. -/ def w1Action (w : Nat) : Nat := bitsOf 7 0 w
/-- TARGET -/ def w1Target (w : Nat) : Nat := bitsOf 15 8 w
/-- FLAGS -/ def w1Flags (w : Nat) : Nat := bitsOf 23 16 w
/-- PARITY -/ def w1Parity (w : Nat) : Nat := bitsOf 17 16 w

/-- PARITY lets the entry act in a cycle with this count (R66). -/
def parityActs (p cnt : Nat) : Bool := p == 0 || (p == 1 && cnt % 2 == 0) || (p == 2 && cnt % 2 == 1)

/-- A cycle of the schedule as seen from now: start, length in ns, bank, count. -/
structure CycleAt where
  start : Nat
  len   : Nat
  bank  : Nat
  cnt   : Nat
  deriving DecidableEq, Repr

/-- RUN was written 0 and the engine has not stopped yet (R63). -/
def State.tideStopping (s : State) : Bool := s.tideRuns && !s.bit TIDE_CTL TIDE_CTL_RUN

/-- The current cycle. -/
def State.curCycle (s : State) : CycleAt :=
  ⟨s.tide.start, s.fld TIDE_CYCLE TIDE_CYCLE_LENGTH, s.activeBank, (s.reg TIDE_CYCLE_CNT).toNat⟩

/-- Instant at which a cycle ends. -/
def CycleAt.fin (c : CycleAt) : Nat := c.start + c.len * 2 ^ 32

/-- The next cycle: the other bank's if a swap is committed (R87). -/
def State.nextCycle (s : State) : CycleAt :=
  let c := s.curCycle
  let b := if s.tide.commit then 1 - c.bank else c.bank
  ⟨c.fin, if s.tide.commit then s.bankCycle b else c.len, b, (c.cnt + 1) % 2 ^ 32⟩

/-- The cycle after `c`, its bank repeated. -/
def CycleAt.again (c : CycleAt) : CycleAt := { c with start := c.fin, cnt := (c.cnt + 1) % 2 ^ 32 }

/-- The cycles ahead: the current one, and unless a stop is pending the next ones, far enough for every PARITY. -/
def State.cyclesAhead (s : State) : List CycleAt :=
  if !s.tideRuns then []
  else if s.tideStopping then [s.curCycle]
  else [s.curCycle, s.nextCycle, s.nextCycle.again, s.nextCycle.again.again]

/-- Entry i of the current cycle has been served: issued, and not in flight any more. No entry is performed twice (R90). -/
def State.entryServed (s : State) (i : Nat) : Bool := s.tide.issued.contains i && !s.tide.flight.any (fun x => x.idx == i && !x.next)

/-- The first GATE entry for port n in a cycle, from an instant on and not yet served, whose class bit is `open'` (R71). -/
def State.gateIn (s : State) (c : CycleAt) (n cls : Nat) (open' : Bool) (t : Nat) : Option Nat :=
  ((List.range (s.bankLen c.bank)).find? (fun i =>
    let w := s.entryWord c.bank i 1
    !(c == s.curCycle && s.entryServed i) && w1Action w == 1 && w1Target w == n && parityActs (w1Parity w) c.cnt && !s.entryPoison c.bank i
      && bitOf cls (s.entryWord c.bank i 2) == open' && decide (t ≤ c.start + s.entryWord c.bank i 0 * 2 ^ 32))).map
    (fun i => c.start + s.entryWord c.bank i 0 * 2 ^ 32)

/-- The next instant at or after `t` at which a GATE entry closes (or opens) gate `cls` of port n. -/
def State.nextGate (s : State) (n cls : Nat) (open' : Bool) (t : Nat) : Option Nat :=
  s.cyclesAhead.findSome? (fun c => s.gateIn c n cls open' t)

/-- The gates of port n, bit c for class c; all open after reset (R63). -/
def State.gates (s : State) (n : Nat) : Nat := tget (fun _ => 0xFF) s.tide.gates n
/-- Set the gates of port n. -/
def State.setGates (s : State) (n v : Nat) : State := s.modTide fun t => { t with gates := tput (fun _ => 0xFF) t.gates n v }
/-- Hold is in effect on port n (R71). -/
def State.tideHold (s : State) (n : Nat) : Bool := s.tide.holds.contains n

/-- The window of ingress port n. -/
def State.winOf (s : State) (n : Nat) : Option Window := tget (fun _ => none) s.tide.win n
/-- Store the window of port n. -/
def State.setWin (s : State) (n : Nat) (w : Option Window) : State :=
  s.modTide fun t => { t with win := tput (fun _ => none) t.win n w }

/-- WIN_TOL in units of 2^-32 ns. -/
def State.winTol (s : State) : Nat := s.fld TIDE_WIN_TOL TIDE_WIN_TOL_TOL * 2 ^ 32

/-! ## Entries that wait to be issued (R68, R87) -/

/-- 1,024 ns in units of 2^-32 ns. -/
def tideAhead : Nat := 1024 * 2 ^ 32

/-- A swap is armed. -/
def State.swapArmed (s : State) : Bool := s.bit TIDE_CMD TIDE_CMD_SWAP_ARM

/-- An armed swap is for the end of the current cycle (R87). -/
def State.swapHere (s : State) : Bool :=
  let e := s.curCycle.fin
  s.swapArmed && !s.tideStopping
    && decide (s.instantNow (s.reg TIDE_SWAP_AT_SEC).toNat (s.fld TIDE_SWAP_AT_NS TIDE_SWAP_AT_NS_NS) ≤ e)
    && decide (s.tide.armedAt + tideAhead ≤ e)

/-- Action lead in ns. -/
def actionLead (a : Nat) : Nat :=
  match a with | 1 => 48 | 2 => 64 | 3 => 40 | 6 => 400 | 7 => 40 | 8 => 40 | 9 => 48 | _ => 0

/-- Instant at which entry i of a cycle lands. -/
def State.entryLands (s : State) (c : CycleAt) (i : Nat) : Nat := c.start + s.entryWord c.bank i 0 * 2 ^ 32
/-- Instant at which it is issued. -/
def State.entryIssues (s : State) (c : CycleAt) (i : Nat) : Nat :=
  s.entryLands c i - actionLead (w1Action (s.entryWord c.bank i 1)) * 2 ^ 32

/-- The entries of a cycle that wait to be issued, as (issue instant, next cycle, index). -/
def State.toIssue (s : State) (c : CycleAt) (next : Bool) (done : List Nat) : List (Nat × Bool × Nat) :=
  ((List.range (s.bankLen c.bank)).filter (fun i => !done.contains i)).map (fun i => (s.entryIssues c i, next, i))

/-- The entries that wait to be issued. Those of the next cycle do not yet while a stop is pending or a swap of its boundary is undecided. -/
def State.waitIssue (s : State) : List (Nat × Bool × Nat) :=
  s.toIssue s.curCycle false s.tide.issued
    ++ (if s.tideStopping || s.swapHere then [] else s.toIssue s.nextCycle true s.tide.issuedN)

end Sys2Proof.Machine
end

