-- ==== Sys2Proof/Machine/Port.lean ====
section
/-! DEFINITION. The Ethernet ports (05) but for the passage of frames: link, flow control, low-power idle, preemption's
verification, MDIO, and the PORT block's registers. -/
namespace Sys2Proof.Machine

/-- MODE of port n. -/
def State.portMode (s : State) (n : Nat) : Nat := s.fld (PORT_CTL n) PORT_CTL_MODE
/-- UP of port n. -/
def State.portUp (s : State) (n : Nat) : Bool := s.bit (PORT_LINK n) PORT_LINK_UP
/-- SPEED code of port n. -/
def State.portSpeed (s : State) (n : Nat) : Nat := s.fld (PORT_LINK n) PORT_LINK_SPEED
/-- The test generator or checker has taken port n (R450). -/
def State.portTest (s : State) (n : Nat) : Bool :=
  s.bit (TEST_LINK_CTL n) TEST_LINK_CTL_GEN || s.bit (TEST_LINK_CTL n) TEST_LINK_CTL_CHK
/-- Frames can pass on the line of port n. -/
def State.portLive (s : State) (n : Nat) : Bool :=
  s.portUp n && (s.portOf n).line && !(s.portOf n).reset && !s.portTest n

/-- Tenths of a nanosecond that an octet takes at a speed code. -/
def octetTime (code : Nat) : Nat := match code with | 0 => 8000 | 1 => 800 | 2 => 80 | _ => 32
/-- Duration of n octets in units of 2^-32 ns, rounded up. -/
def octetsLast (code n : Nat) : Nat := (octetTime code * n * 2 ^ 32 + 9) / 10

/-! ## Flow control (R135, R136) -/

/-- Class c of port n is paused (R135). -/
def State.paused (s : State) (n c : Nat) : Bool :=
  let p := s.portOf n
  !(c == 7 && s.bit (PORT_FC_CTL n) PORT_FC_CTL_PAUSE_EXEMPT_C7)
    && ((p.pause && s.bit (PORT_FC_CTL n) PORT_FC_CTL_PAUSE_EN)
      || (s.bit (PORT_FC_CTL n) PORT_FC_CTL_PFC_EN
        && p.pfc.any (fun q => bitsOf (3 * q + 2) (3 * q) (s.reg (SW_PORT_PCP_MAP n)).toNat == c)))

/-- The paused classes as bits. -/
def State.pausedBits (s : State) (n : Nat) : Nat := packBits ((List.range 8).map (s.paused n))

/-- A MAC control frame that is counted and ignored (R136). -/
def unsupOpcode (n : Nat) (s : State) : State := if s.portLive n then s.count (PORT_UNSUP_OPCODE n) else s

/-- A received PAUSE frame (R135). -/
def pauseFrame (n quanta : Nat) (s : State) : State :=
  if !s.portLive n then s
  else if s.bit (PORT_FC_CTL n) PORT_FC_CTL_PAUSE_EN then
    ((s.modPort n fun p => { p with pause := quanta % 65536 != 0 }).count (PORT_PAUSE_RX n)).setB
      (PORT_STATUS n) PORT_STATUS_PAUSE_RX
  else unsupOpcode n s

/-- A received PFC frame: enable vector and the eight times (R135). -/
def pfcFrame (n vec : Nat) (times : List Nat) (s : State) : State :=
  if !s.portLive n then s
  else if s.bit (PORT_FC_CTL n) PORT_FC_CTL_PFC_EN then
    let upd (l : List Nat) (q : Nat) : List Nat :=
      if bitOf q vec then (if times.getD q 0 % 65536 ≠ 0 then ninsert q l else nerase q l) else l
    ((s.modPort n fun p => { p with pfc := (List.range 8).foldl upd p.pfc }).count (PORT_PFC_RX n)).setB
      (PORT_STATUS n) PORT_STATUS_PAUSE_RX
  else unsupOpcode n s

/-- A pause timer runs out: the PAUSE timer, or the timer of one priority. -/
def pauseExpiry (n : Nat) (prio : Option Nat) (s : State) : State :=
  s.modPort n fun p => match prio with
    | none => { p with pause := false }
    | some q => { p with pfc := nerase q p.pfc }

/-- A MAC control frame by its bytes from the opcode on (R136). -/
def State.macControl (s : State) (n : Nat) (bs : List Nat) : State :=
  match beAt bs 14 2 with
  | 0x0001 => pauseFrame n (beAt bs 16 2) s
  | 0x0101 => pfcFrame n (beAt bs 16 2) ((List.range 8).map (fun q => beAt bs (18 + 2 * q) 2)) s
  | _ => unsupOpcode n s

/-! ## Preemption (R141) -/

/-- VERIFY_STATE of port n. -/
def State.verifyState (s : State) (n : Nat) : Nat := s.fld (PORT_MM_STATUS n) PORT_MM_STATUS_VERIFY_STATE

/-- Verification starts again: DISABLED where it does not run, INIT with the link down, VERIFYING with the first verify
mPacket sent once the link is up. -/
def State.verifyRestart (s : State) (n : Nat) : State :=
  let runs := s.bit (PORT_MM_CTL n) PORT_MM_CTL_PREEMPT_EN && !s.bit (PORT_MM_CTL n) PORT_MM_CTL_VERIFY_DIS
  let st := if !runs then 0 else if s.portUp n then 2 else 1
  (s.modPort n fun p => { p with tries := if st = 2 then 1 else 0 }).putF (PORT_MM_STATUS n) PORT_MM_STATUS_VERIFY_STATE st

/-- VERIFY_TIME has passed: another attempt, or FAILED after three. -/
def verifyTimerExpiry (n : Nat) (s : State) : State :=
  if s.verifyState n = 2 then
    if (s.portOf n).tries < 3 then s.modPort n fun p => { p with tries := p.tries + 1 }
    else (s.putF (PORT_MM_STATUS n) PORT_MM_STATUS_VERIFY_STATE 4).setB (PORT_STATUS n) PORT_STATUS_MM_VERIFY_FAIL
  else s

/-- A response mPacket. -/
def verifyResponse (n : Nat) (s : State) : State :=
  if s.verifyState n = 2 then
    (s.putF (PORT_MM_STATUS n) PORT_MM_STATUS_VERIFY_STATE 3).setB (PORT_STATUS n) PORT_STATUS_MM_VERIFY_OK
  else s

/-- ACTIVE: the port preempts. -/
def State.preempts (s : State) (n : Nat) : Bool :=
  s.bit (PORT_MM_CTL n) PORT_MM_CTL_PREEMPT_EN && s.portUp n
    && (s.bit (PORT_MM_CTL n) PORT_MM_CTL_VERIFY_DIS || s.verifyState n == 3)

/-- Class c is express on port n. -/
def State.express (s : State) (n c : Nat) : Bool := c == 7 || (c == 6 && s.bit (PORT_MM_CTL n) PORT_MM_CTL_EXPRESS_C6)

/-- Smallest fragment, in bytes. -/
def State.fragMin (s : State) (n : Nat) : Nat := 64 * (1 + s.fld (PORT_MM_CTL n) PORT_MM_CTL_ADD_FRAG_SIZE)

/-- HOLD_ADVANCE in ns, rounded down: R141 gives no rounding (DESIGN CHOICE, log 113); a number that its 16 bits do not hold reads a free value
(log 2). -/
def State.holdAdvance (s : State) (n : Nat) : Nat :=
  if !s.portUp n then 0
  else
    let v := (s.fragMin n + 84) * octetTime (s.portSpeed n) / 10
    if v < 65536 then v else Config.freeNat v % 65536

/-- A GATE with HOLD 0b01 (hold) or 0b10 (release) lands on port n (R71, R141). -/
def State.gateHold (s : State) (n hold : Nat) : State :=
  match hold with
  | 1 =>
    let s := s.countIf (!s.tideHold n && s.preempts n) (PORT_MM_HOLD n)
    s.modTide fun t => { t with holds := ninsert n t.holds }
  | 2 => s.modTide fun t => { t with holds := nerase n t.holds }
  | _ => s

/-! ## Low-power idle (R139, R140) -/

/-- The mode's minimum wake time in ns, for the modes that offer EEE at the current speed (R129, R140). -/
def State.eeeMin (s : State) (n : Nat) : Option Nat :=
  match s.portMode n, s.portSpeed n with
  | 1, _ => some 0
  | 4, 1 => some 30000
  | 4, 2 => some 16500
  | _, _ => none

/-- The partner advertised EEE at the link speed; in SGMII mode EEE_EN stands for it (R139). -/
def State.eeePartner (s : State) (n : Nat) : Bool :=
  match s.portMode n, s.portSpeed n with
  | 1, _ => true
  | 4, 1 => bitOf 6 (s.fld (PORT_AN_LP n) PORT_AN_LP_ABILITY)
  | 4, 2 => bitOf 7 (s.fld (PORT_AN_LP n) PORT_AN_LP_ABILITY)
  | _, _ => false

/-- Every egress queue of port n is empty and nothing is in transmission. -/
def State.portIdle (s : State) (n : Nat) : Bool :=
  (List.range 8).all (fun c => (s.swq (8 * n + c)).isEmpty) && (s.portOf n).tx.isNone && (s.portOf n).cut.isNone

/-- The port enters low-power idle (R139, R142). -/
def lpiEntry (n : Nat) (s : State) : State :=
  if s.portLive n && s.bit (PORT_EEE_CTL n) PORT_EEE_CTL_EEE_EN && (s.eeeMin n).isSome && s.eeePartner n && s.portIdle n
      && (s.portOf n).lpi == .awake then
    ((s.modPort n fun p => { p with lpi := .asleep, lpiAt := s.time.tick - p.lpiRest }).setB (PORT_LINK n) PORT_LINK_LPI_TX).count
      (PORT_LPI_TX_TRANS n)
  else s

/-- The microseconds of low-power idle up to now are counted, own and partner's (R142). -/
def lpiTick (n : Nat) (s : State) : State :=
  let p := s.portOf n
  let tx := if p.lpi = .asleep then (s.time.tick - p.lpiAt) / 250 else 0
  let rx := if s.bit (PORT_LINK n) PORT_LINK_LPI_RX then (s.time.tick - p.lpiRxAt) / 250 else 0
  if tx = 0 ∧ rx = 0 then s
  else ((s.countN (PORT_LPI_TX_US n) wholeReg tx).countN (PORT_LPI_RX_US n) wholeReg rx).modPort n fun p =>
    { p with lpiAt := p.lpiAt + 250 * tx, lpiRxAt := p.lpiRxAt + 250 * rx }

/-- Own low-power idle ends: its microseconds are counted, the rest is kept. -/
def State.lpiTxEnd (s : State) (n : Nat) : State :=
  let s := lpiTick n s
  (s.modPort n fun p => { p with lpiRest := s.time.tick - p.lpiAt }).clrB (PORT_LINK n) PORT_LINK_LPI_TX

/-- The partner's low-power idle ends. -/
def State.lpiRxEnd (s : State) (n : Nat) : State :=
  let s := lpiTick n s
  (s.modPort n fun p => { p with lpiRxRest := s.time.tick - p.lpiRxAt }).clrB (PORT_LINK n) PORT_LINK_LPI_RX

/-- The port leaves low-power idle; TW_EFF is taken now (R140). -/
def State.portWake (s : State) (n : Nat) : State :=
  if (s.portOf n).lpi = .asleep then
    let tw := max (s.fld (PORT_EEE_TW n) PORT_EEE_TW_TW_SYS) ((s.eeeMin n).getD 0)
    (s.lpiTxEnd n).modPort n fun p => { p with lpi := .waking, tw := tw }
  else s

/-- A frame is queued for a sleeping port with WAKE_ON_QUEUE set. -/
def wakeOnQueue (n : Nat) (s : State) : State :=
  if s.bit (PORT_EEE_CTL n) PORT_EEE_CTL_WAKE_ON_QUEUE && !(List.range 8).all (fun c => (s.swq (8 * n + c)).isEmpty) then
    s.portWake n
  else s

/-- TW_EFF after the wake. -/
def wakeComplete (n : Nat) (s : State) : State :=
  s.modPort n fun p => if p.lpi = .waking then { p with lpi := .awake } else p

/-- The partner enters or leaves low-power idle (R139, R142). -/
def lpiRx (n : Nat) (idle : Bool) (s : State) : State :=
  if !s.portLive n then s
  else if idle then
    if s.bit (PORT_LINK n) PORT_LINK_LPI_RX then s
    else
      ((s.modPort n fun p => { p with lpiRxAt := s.time.tick - p.lpiRxRest }).setB (PORT_LINK n) PORT_LINK_LPI_RX).count (PORT_LPI_RX_TRANS n)
  else if s.bit (PORT_LINK n) PORT_LINK_LPI_RX then s.lpiRxEnd n
  else s

/-- Low-power idle ends with the link. -/
def State.lpiOff (s : State) (n : Nat) : State :=
  let s := if (s.portOf n).lpi = .asleep then s.lpiTxEnd n else s
  let s := if s.bit (PORT_LINK n) PORT_LINK_LPI_RX then s.lpiRxEnd n else s
  s.modPort n fun p => { p with lpi := .awake }

/-! ## MDIO (R132) -/

/-- An MDIO operation starts: BUSY, and OP with it until it ends. -/
def State.mdioStart (s : State) (w : Word) : State :=
  { s with mdio := [PORT_MDIO_CMD_OP.get w] }.setB PORT_MDIO_CMD PORT_MDIO_CMD_BUSY

/-- The operation ends; a read takes the PHY's answer, which is 0 while MDIO's bank is down (R463, R500). -/
def mdioEnd (data : Nat) (s : State) : State :=
  match s.mdio with
  | [] => s
  | op :: _ =>
    let s := if 2 ≤ op then s.setReg PORT_MDIO_DATA (w32 (if s.rst.banks.contains 6 then 0 else data % 65536)) else s
    { s with mdio := [] }.clrB PORT_MDIO_CMD PORT_MDIO_CMD_BUSY

/-! ## Start of link (R130) -/

/-- SPEED_FORCE values that a mode offers. -/
def speedOffered (mode force : Nat) : Bool :=
  match mode with
  | 1 => true
  | 2 => force == 0 || force == 3
  | 3 => force == 0
  | 4 => force != 3
  | _ => false

/-- A start of link reads PORTn_AN_ADV (R130); in OFF no link starts (R129). -/
def State.startLink (s : State) (n : Nat) : State :=
  let w := s.reg (PORT_AN_ADV n)
  let s := s.modPort n fun p => { p with adv := w.toNat }
  s.setIf (s.portMode n != 0 && !speedOffered (s.portMode n) (PORT_AN_ADV_SPEED_FORCE.get w)) (PORT_STATUS n) PORT_STATUS_SPEED_BAD

/-! ## The PORT block's registers -/

/-- Writes of the PORT block that are discarded whole (R24, R129, R132, R133, R135, R139, R141, R144). -/
def portBad (s : State) (a0 i : Nat) (w : Word) : Bool :=
  if a0 = PORT_CTL 0 then
    let m := PORT_CTL_MODE.get w
    let old := s.portMode i
    decide (5 ≤ m) || (m == 4 && decide (i < 4)) || ((m == 1 || m == 2 || m == 3) && decide (4 ≤ i))
      || (m != old && m != 0 && old != 0)
  else if a0 = PORT_MAX_FRAME 0 then decide (PORT_MAX_FRAME_BYTES.get w < 64) || decide (9216 < PORT_MAX_FRAME_BYTES.get w)
  else if a0 = PORT_AN_ADV 0 then PORT_AN_ADV_MDI.get w == 3
  else if a0 = PORT_TAG_CTL 0 then
    !(isTpid (PORT_TAG_CTL_TPID_OUT.get w)) || PORT_TAG_CTL_EGRESS_MODE.get w == 3
  else if a0 = PORT_STREAM_TAG 0 0 then
    (PORT_STREAM_TAG_OP.get w == 1 || PORT_STREAM_TAG_OP.get w == 3) && PORT_STREAM_TAG_VID.get w == 0xFFF
  else if a0 = PORT_FC_CTL 0 then PORT_FC_CTL_PAUSE_EN.get w != 0 && PORT_FC_CTL_PFC_EN.get w != 0
  else if a0 = PORT_EEE_IDLE 0 then PORT_EEE_IDLE_US.get w == 0
  else if a0 = PORT_MM_CTL 0 then
    decide (PORT_MM_CTL_VERIFY_TIME.get w = 0) || decide (128 < PORT_MM_CTL_VERIFY_TIME.get w)
  else if a0 = PORT_MDIO_CMD then
    s.bit PORT_MDIO_CMD PORT_MDIO_CMD_BUSY
      || (PORT_MDIO_CMD_C45.get w == 0 && (PORT_MDIO_CMD_OP.get w == 0 || PORT_MDIO_CMD_OP.get w == 3))
  else if a0 = PORT_MDIO_DATA then s.bit PORT_MDIO_CMD PORT_MDIO_CMD_BUSY
  else if a0 = PORT_MDIO_DIV then s.bit PORT_MDIO_CMD PORT_MDIO_CMD_BUSY || decide (PORT_MDIO_DIV_DIV.get w ≤ 18)
  else false

/-- Registers of the PORT block that read the live state. -/
def portView (s : State) (a0 i : Nat) : Option Word :=
  if a0 = PORT_LINK 0 then some (PORT_LINK_PAUSED.put (s.reg (PORT_LINK i)) (b2n (s.pausedBits i != 0)))
  else if a0 = PORT_FC_STATE 0 then some (w32 (s.pausedBits i))
  else if a0 = PORT_EEE_CTL 0 then some (PORT_EEE_CTL_TW_EFF.put (s.reg (PORT_EEE_CTL i)) (s.portOf i).tw)
  else if a0 = PORT_MM_STATUS 0 then
    let w := PORT_MM_STATUS_ACTIVE.put (s.reg (PORT_MM_STATUS i)) (b2n (s.preempts i))
    some (PORT_MM_STATUS_HOLD_ADVANCE.put (PORT_MM_STATUS_HOLD.put w (b2n (s.tideHold i))) (s.holdAdvance i))
  else none

/-- SRC bits of PORT_SUMMARY (R147). -/
def portSrc (s : State) : Nat := packBits ((List.range 6).map (fun n => s.reg (PORT_STATUS n) != 0))

end Sys2Proof.Machine
end

