-- ==== Sys2Proof/Machine/Net.lean ====
section
/-! DEFINITION. The passage of frames: reception and its window (R73 to R77, R98 to R104), redundancy, queues, delivery to P6 and P7
(R247 to R250), transmission and cut-through (R106 to R113), link loss and port reset (R137, R138). -/
namespace Sys2Proof.Machine

/-- An instant as a timestamp holds it, to 2^-16 ns, with an adjustment in 2^-16 ns (R43, R132). -/
def stampAt (t : Nat) (adj : Word) : Nat := (((t / 2 ^ 16 * 2 ^ 16 : Nat) : Int) + sgn 32 adj.toNat * 2 ^ 16).toNat

/-- A port timestamp: the tick's time to 2^-16 ns, the fraction of the tick times the increment in force, in quarter nanoseconds, and an
adjustment in 2^-16 ns (R43, R132). -/
def State.stamp (s : State) (quarter : Nat) (adj : Word) : Nat :=
  stampAt (s.time.tod + s.time.inc * quarter / 16 / 2 ^ 30 * 2 ^ 30) adj

/-! ## Delivery to P6 and P7 (R247, R248) -/

/-- The dispatch queue of a frame for P6 (e = 6) or P7, if EN is set. -/
def State.dispQueue (s : State) (e ingress cls : Nat) (ll : Bool) : Option Nat :=
  let a := FERRY_DISP (8 * (e - 6) + ingress)
  if s.bit a FERRY_DISP_EN then
    some (if ll && e == 6 then s.fld a FERRY_DISP_QUEUE_LL
      else if cls = 7 then s.fld a FERRY_DISP_QUEUE_C7 else s.fld a FERRY_DISP_QUEUE)
  else none

/-- The receive header (R247). -/
def rxHeader (len cls ingress : Nat) (ll : Bool) (st : Option Nat) : Nat :=
  len % 2 ^ 14 + 2 ^ 14 * cls + 2 ^ 17 * ingress + 2 ^ 20 * b2n ll + 2 ^ 21 * (st.getD 0) + 2 ^ 31 * b2n st.isSome

/-- The bytes of a frame as a copy for egress e carries them ahead of its tag change: DEI of a yellow frame, redundancy tag. A yellow
processed class 7 frame leaves as received (DESIGN CHOICE, log 102). -/
def State.copyBody (s : State) (f : Frame) (e : Nat) : List Nat :=
  let b := bodyOf f.bytes
  if f.proc then b else s.redRemove f.port e (if f.dei then tagSetDei b else b)

/-- POISON of each byte of a frame's copy for egress e, as its cells read (R247). -/
def State.copyMask (s : State) (f : Frame) (e : Nat) : List Bool :=
  let b := bodyOf f.bytes
  let m := (List.range b.length).map (fun k => s.framePoison f k (k + 1))
  if f.proc then m else cutSix m (s.redCut f.port e (if f.dei then tagSetDei b else b))

/-- Set POISON on each word of which a byte is poisoned. -/
def tagPoison : List FqWord → List Bool → List FqWord
  | [], _ => []
  | w :: t, m => { w with poison := w.poison || (m.take 4).any id } :: tagPoison t (m.drop 4)

/-- Push a frame for P6 or P7 into its queue (R244, R247), marked CE where its switch queue asks for it (R108); during a CORE reset it is dropped
uncounted (R471). -/
def State.deliver (s : State) (f : Frame) (e : Nat) : State :=
  if s.rst.core then s
  else
    let copy := s.copyBody f e
    let body := (if f.marked.contains e then ecnMark copy else copy) ++ tsTrailer f.port f.ts
    let ll := linkLocal f.bytes
    match s.dispQueue e f.port f.cls ll with
    | none => (s.count FERRY_DISP_DROP).setB FERRY_STATUS FERRY_STATUS_DISP_DROP
    | some n =>
      let ws := packWords (leBytes 4 (rxHeader body.length f.cls f.port ll f.stream) ++ body)
      (s.frameEcc f).fqOffer n (if s.mm.poison.isEmpty then ws else tagPoison ws (List.replicate 4 false ++ s.copyMask f e))

/-! ## Queues -/

/-- A class 7 frame that finds port e asleep or waking is counted (R140). -/
def State.eeeLate (s : State) (e cls : Nat) : State :=
  if cls = 7 ∧ e < 6 ∧ (s.portOf e).lpi ≠ .awake then (s.count (PORT_EEE_WAIT e)).setB (PORT_STATUS e) PORT_STATUS_EEE_LATE else s

/-- A demoted frame of the same ingress and stream waits ahead of class 7 frame i in class 6 of this egress (R122). -/
def State.behindDemoted (s : State) (n i : Nat) (f : Frame) : Bool :=
  (s.swq (8 * n + 6)).any (fun j => decide (j < i) && match s.frameAt j with
    | some g => g.demoted && g.port == f.port && g.stream == f.stream
    | none => false)

/-- Frame i is removed whole from the queue of port n, and counted (R137). -/
def State.flushOne (s : State) (n i : Nat) : State :=
  ((s.setB (PORT_STATUS n) PORT_STATUS_LINKDOWN_DROP).frameGone i n).count (PORT_LINKDOWN_DROP n)

/-- Place frame i at the tail of the queue of egress e (R95); a class 7 frame that waits behind demoted frames is stored and forwarded there
(R122). A port held in PORT reset keeps none (R138). -/
def State.enqueue (s : State) (i e cls : Nat) : State :=
  let s := match s.frameAt i with
    | some f => if cls = 7 ∧ s.behindDemoted e i f then s.setFrame i (some { f with saf := e :: f.saf }) else s
    | none => s
  let s := (s.setSwq (8 * e + cls) (s.swq (8 * e + cls) ++ [i])).eeeLate e cls
  if e < 6 ∧ (s.portOf e).reset then s.flushOne e i else s

/-- Give a frame a number and a record, its bytes being in its cells; bytes `pois` came as poison (R28). -/
def State.newFrame (s : State) (f : Frame) (pois : List Nat) : Nat × State :=
  (s.sw.nextId, (((s.modSw fun x => { x with nextId := x.nextId + 1 }).fbStored f 0 f.bytes.length).fbPoisoned f pois).setFrame
    s.sw.nextId (some f))

/-- A frame is in transmission, or preempted, at port e. -/
def State.sending (s : State) (i e : Nat) : Bool :=
  let p := s.portOf e
  (match p.tx with | some t => t.frame == i | none => false) || (match p.cut with | some t => t.frame == i | none => false)

/-- A frame is removed from the queues of every egress that is not sending it; where it is being sent it ends stomped. -/
def State.dropFrame (s : State) (i : Nat) : State :=
  match s.frameAt i with
  | none => s
  | some f =>
    let s := s.setFrame i (some { f with bad := true, done := true })
    f.egress.foldl (fun s e => if s.sending i e then s else s.frameGone i e) s

/-- A frame is dropped while it is received: no further byte of it is stored, and its extraction goes on (R97, R112, R117, R160). -/
def State.loseFrame (s : State) (i : Nat) : State :=
  match s.frameAt i with
  | none => s
  | some f => (s.setFrame i (some { f with lost := true })).dropFrame i

/-! ## Classification (R98 steps 1 to 4, R99) -/

/-- VID and VLAN check, stream and class of a frame (R98, R99); `hdr` is a class from a P6 or P7 header. -/
def State.frontOf (s : State) (port : Nat) (bs : List Nat) (hdr : Option Nat) : Front :=
  let cfg := s.reg (SW_PORT_CFG port)
  let v := outerVid bs
  let vid := if v = 0 then SW_PORT_CFG_PVID.get cfg else v
  let ok := vid != 4095 && s.vlanValid vid
    && !(SW_PORT_CFG_INGRESS_FILTER.get cfg != 0 && !bitOf port (s.vlanMember vid))
    && !(SW_PORT_CFG_DROP_UNTAGGED.get cfg != 0 && v == 0)
  let st := s.strMatch (daOf bs) (saOf bs) vid
  let own := if tagCount bs = 0 then SW_PORT_CFG_DEF_CLASS.get cfg
    else bitsOf (3 * outerPcp bs + 2) (3 * outerPcp bs) (s.reg (SW_PORT_PCP_MAP port)).toNat
  let cls := match st with
    | some c => if STREAM_FILTER_CLASS_OVR.get (s.strFilter c) ≠ 0 then STREAM_FILTER_CLASS.get (s.strFilter c) else own
    | none => own
  ⟨vid, ok, st, match st with | some c => (s.strOf c).cfg | none => [], hdr.getD cls, none⟩

/-! ## Class 7 windows (R75 to R77) -/

/-- The signed deviation of an arrival from a window, away from zero to whole ns (R75). -/
def winDev (w : Window) (t : Nat) : Int :=
  if t < w.opens then -(((w.opens - t + (2 ^ 32 - 1)) / 2 ^ 32 : Nat) : Int)
  else if w.closes < t then (((t - w.closes + (2 ^ 32 - 1)) / 2 ^ 32 : Nat) : Int)
  else 0

/-- Demotion, counted in a register of the port (R75). -/
def State.demote (s : State) (a : Nat) : State := (s.count a).setB TIDE_STATUS TIDE_STATUS_DEMOTED

/-- The window's verdict on a class 7 frame that arrived on port n at `t`: the window it consumes, or none where the frame is
demoted (R75 to R77). The window is the one that stands when the frame is classified, also where a STOW has landed since the frame's
timestamp (DESIGN CHOICE, log 101). -/
def State.windowTake (s : State) (n t : Nat) : State × Option Window :=
  match s.winOf n with
  | none => (s.demote (TIDE_WIN_STOW_LATE n), none)
  | some w =>
    let tol := s.winTol
    if w.closes + tol < t then ((s.setWin n none).demote (TIDE_WIN_STOW_LATE n), none)
    else if w.consumed then (s.demote (TIDE_WIN_EXTRA n), none)
    else if t + tol < w.opens then (s.demote (TIDE_WIN_STOW_EARLY n), none)
    else
      let s := s.countIf (t + tol / 4 < w.opens) (TIDE_WIN_EARLY n)
      let s := s.countIf (w.closes + tol / 4 < t) (TIDE_WIN_LATE n)
      ((s.setReg (TIDE_WIN_DEV n) (w32 (unsgn 32 (winDev w t)))).setWin n (some { w with consumed := true }), some w)

/-- Indexes of the entries of a copy that are not performed (R162). -/
def State.skipList (s : State) (c : PlanCopy) : List Nat :=
  (List.range c.entries.length).filter (fun k => match c.entries.getD k none with | some e => s.enSkipped e | none => false)

/-- The entries of a frame's copy that are performed, in index order. -/
def Frame.entries (f : Frame) : List Nat :=
  match f.copy with
  | some c => (List.range c.entries.length).filterMap (fun k => if f.skip.contains k then none else c.entries.getD k none)
  | none => []

/-- What the signature decides (R150, R154, R161, R162): whether entries apply, and which do not. An entry whose buffer refuses it here is not
performed even if the buffer takes it later, the others meet their buffers again at their first byte: R162 does not say when the roles are judged
(DESIGN CHOICE, log 123). -/
def State.signature (s : State) (n : Nat) (w : Window) (bs : List Nat) (f : Frame) : State × Frame :=
  if w.copy.poisoned then ((s.count (STOW_POISON n)).setB STOW_STATUS STOW_STATUS_POISON, f)
  else if !w.copy.matches bs then ((s.count (STOW_MISS n)).setB STOW_STATUS STOW_STATUS_MISS, f)
  else
    let sk := s.skipList w.copy
    let ref := w.copy.list.any s.enRefused
    let s := s.count (STOW_PROCESSED n)
    let s := if ref then s.tideDrop w.bank w.idx dropHB else s
    let s := if sk.isEmpty then s else (s.count (STOW_SKIP n)).setB STOW_STATUS STOW_STATUS_SKIP
    (s, { f with applies := true, skip := sk, skipped := !sk.isEmpty, refused := ref })

/-! ## Reception (R98) -/

/-- Change the frame in reception on port n. -/
def State.setRx (s : State) (n : Nat) (r : Option RxFrame) : State := s.modPort n fun p => { p with rx := r }

/-- Entries of frame i that the buffers refuse are counted once for the frame (R162). -/
def State.noteRefused (s : State) (i : Nat) (side : Nat → Bool) : State :=
  match s.frameAt i with
  | none => s
  | some f =>
    if f.entries.any (fun e => side e && s.enRefused e) then
      let s := if f.refused then s else s.tideDrop f.bank f.idx dropHB
      let s := if f.skipped then s else (s.count (STOW_SKIP f.port)).setB STOW_STATUS STOW_STATUS_SKIP
      s.setFrame i (some { f with refused := true, skipped := true })
    else s

/-- Newly arrived bytes are extracted into the buffers that take them as they stand (R80, R162); the receive logic holds back the last
four, which may be the FCS (R159, R161). A buffer's write begins with the first byte of its entry (R83). -/
def State.extractPart (s : State) (n i frm : Nat) : State :=
  match s.frameAt i, (s.portOf n).rx with
  | some f, some r =>
    if f.applies && !r.cutOff then
      let live (e : Nat) : Bool := decide (enFoff e < r.bytes.length ∧ frm < enFoff e + enLen e + 4)
      let s := s.noteRefused i (fun e => enOp e == 1 && live e)
      let es := f.entries.filter (fun e => enOp e == 1 && !s.enRefused e)
      let (s, l) := s.extractAll r.bytes (frm - 4) (r.bytes.length - 4) es
      s.setRx n (some { r with ext := l.foldl (fun a b => ninsert b a) r.ext,
                               begun := ((es.filter live).map enBuf).foldl (fun a b => ninsert b a) r.begun })
    else s
  | _, _ => s

/-- Filter and meter of a processed class 7 frame in reception on port n, on the length it has (R98 step 6, R116, R117): a frame that they
drop is lost. Its extraction stops there; what has been extracted stays, and its buffers are not tainted for it: R116 is silent (DESIGN CHOICE,
log 104). -/
def State.policeRx (s : State) (n : Nat) : State :=
  match (s.portOf n).rx with
  | none => s
  | some r =>
    match r.frame, r.front with
    | some i, some fr =>
      match fr.stream with
      | some c =>
        if r.policed then s
        else
          let (s, out) := s.strPolice c fr r.bytes.length
          let s := s.setRx n (some { r with policed := true, cutOff := out == .drop })
          if out = .drop then s.loseFrame i else s
      | none => s
    | _, _ => s

/-- MAX_SDU of a frame's context. -/
def Front.sduOver (fr : Front) (len : Nat) : Bool :=
  STREAM_FILTER_MAX_SDU.get (cfgFilter fr.cfg) != 0 && decide (STREAM_FILTER_MAX_SDU.get (cfgFilter fr.cfg) < len)

/-- The first cells of a processed class 7 frame: without them it is dropped (R97). -/
def State.firstCells (s : State) (f : Frame) : State × Frame :=
  if f.egress.isEmpty then (s, f) else match s.grow7 f with
    | some x => x
    | none => (s.c7NoCell f.port, { f with egress := [], bad := true, done := true, lost := true })

/-- A processed class 7 frame on port n consumes window `w`: stream, signature, egress and cells (R98 steps 5, 6, 9, 10, R110). A frame
whose context is blocked is dropped at once; any other is filtered and metered on its own length, at its end or once it is longer than
MAX_SDU (DESIGN CHOICE, log 104). A link-local frame goes to P6 alone (R100). -/
def State.process (s : State) (n : Nat) (r : RxFrame) (fr : Front) (w : Window) : State :=
  let s := match fr.stream with | some c => s.strCount c 0 | none => s
  let blocked := match fr.stream with | some c => s.strBlocked c | none => false
  if blocked then
    let s := match fr.stream with | some c => (s.strPolice c fr r.bytes.length).1 | none => s
    s.setRx n (some { r with front := some fr, policed := true, cutOff := true })
  else
    let es := if linkLocal r.bytes then [6] else w.copy.egress.filter (fun e => e != n)
    let f : Frame := { port := n, ts := r.ts, bytes := r.bytes, cls := 7, vid := fr.vid, stream := fr.stream, proc := true,
                       copy := some w.copy, bank := w.bank, idx := w.idx,
                       ct := decide (ctlLen w.copy.ctl ≤ 2048) && r.frags == 0, egress := es }
    let (s, f) := s.signature n w r.bytes f
    let (s, f) := s.firstCells f
    let (i, s) := s.newFrame f []
    let s := s.setRx n (some { r with front := some fr, frame := some i })
    let s := f.egress.foldl (fun s e => s.enqueue i e 7) s
    let s := s.extractPart n i 0
    if fr.sduOver r.bytes.length then s.policeRx n else s

/-- Bytes of a frame that its VID, class and signature need: up to its EtherType, or to the control word of its outer tag (R98, R154). -/
def headLen (bs : List Nat) : Nat :=
  let p := if 14 ≤ bs.length then tagPos bs else 12
  if p + 2 ≤ bs.length ∧ isTpid (beAt bs p 2) then p + 4 else p + 2

/-- The boot ROM uses port n for its muster (R487). -/
def State.musterPort (s : State) (n : Nat) : Bool := s.hm.run == .muster && decide (n < 6) && n / 2 == s.fld SYS_MUSTER SYS_MUSTER_PAIR

/-- Steps 1 to 5 once the head of a frame has arrived, or of a preempted frame once it is reassembled (R163): only a class 7 frame within
its window is taken up here, any other waits for its end. -/
def State.classify (s : State) (n : Nat) (complete : Bool) : State :=
  match (s.portOf n).rx with
  | none => s
  | some r =>
    if r.front.isSome ∨ r.bytes.length < headLen r.bytes ∨ (!complete ∧ r.frags ≠ 0) then s
    else
      let fr := s.frontOf n r.bytes none
      let s := s.setRx n (some { r with front := some fr })
      if s.musterPort n ∨ beAt r.bytes 12 2 = 0x8808 ∨ !fr.vlanOk ∨ fr.cls ≠ 7 then s
      else
        let (s, w) := s.windowTake n r.ts
        match w with
        | none => s.setRx n (some { r with front := some fr, demoted := true })
        | some w => s.process n r fr w

/-- Further bytes of a processed class 7 frame are stored: its cells grow, and a frame that finds none is dropped (R97). -/
def State.storeMore (s : State) (n i : Nat) (bs : List Nat) : State :=
  match s.frameAt i with
  | none => s
  | some f =>
    if f.lost then s
    else
      let g := { f with bytes := f.bytes ++ bs }
      if f.egress.isEmpty then s.setFrame i (some g)
      else match s.grow7 g with
        | some (s, g) => (s.fbStored g f.bytes.length g.bytes.length).setFrame i (some g)
        | none => (s.c7NoCell n).loseFrame i

/-- Further bytes arrive on port n; a frame longer than MAX_FRAME is cut (R142). -/
def rxMore (n : Nat) (bs : List Nat) (s : State) : State :=
  match (s.portOf n).rx with
  | none => s
  | some r =>
    let lim := s.fld (PORT_MAX_FRAME n) PORT_MAX_FRAME_BYTES + 1
    let r' := { r with bytes := (r.bytes ++ bs.map (fun b => b % 256)).take lim }
    let s := s.setRx n (some r')
    match r.frame with
    | none => s.classify n false
    | some i =>
      let s := (s.storeMore n i (r'.bytes.drop r.bytes.length)).extractPart n i r.bytes.length
      if r'.front.any (fun fr => fr.sduOver r'.bytes.length) then s.policeRx n else s

/-- Port n can take up a frame of so many continuation fragments: fragments are reassembled while PREEMPT_EN is set, and nothing of them is
received without it (R141; DEDUCED, log 114). -/
def State.rxTakes (s : State) (n frags : Nat) : Bool :=
  s.portLive n && (s.portOf n).rx.isNone && (frags == 0 || s.bit (PORT_MM_CTL n) PORT_MM_CTL_PREEMPT_EN)

/-- A frame starts to arrive on port n. -/
def rxStart (n quarter : Nat) (bs : List Nat) (frags : Nat) (s : State) : State :=
  if s.rxTakes n frags then
    rxMore n bs (s.setRx n (some { bytes := [], ts := s.stamp quarter (s.reg (PORT_TS_ADJ_RX n)), frags := frags }))
  else s

/-! ## Resolution (R100, R103, R104, R118 to R121) -/

/-- SW_NODE_MAC. -/
def State.nodeMac (s : State) : Nat := (s.reg SW_NODE_MAC_LO).toNat + 2 ^ 32 * s.fld SW_NODE_MAC_HI SW_NODE_MAC_HI_MAC

/-- Destination resolution (R100, R104, R120); `named` are the egress ports that a P6 or P7 header names. A link-local frame on an HSR port
goes to P6 also where its source is SW_NODE_MAC; a frame whose descriptor names its egress ports goes to those, also where it is link-local and
whatever MEMBER of its VID holds (DESIGN CHOICE, log 102). -/
def State.resolve (s : State) (n : Nat) (bs : List Nat) (vid : Nat) (named : Nat) : List Nat :=
  let ports (m : Nat) : List Nat := (List.range 8).filter (fun e => bitOf e m && e != n)
  if named ≠ 0 then ports named
  else if linkLocal bs then ports 0x40
  else
    let da := daOf bs
    let hit := if da = 0xFFFFFFFFFFFF then none else (s.macFind da (s.vlanFid vid)).bind s.macAt
    let r := ports ((match hit with | some e => e.ports | none => 0xFF) &&& s.vlanMember vid)
    if s.portPair n = 2 then
      if saOf bs = s.nodeMac then []
      else
        let r := r.filter (fun e => e != otherPort n)
        if da = s.nodeMac then r else ninsert (otherPort n) r
    else r

/-- A frame of classes 0 to 6 that enters a redundant pair is sent on both its ports (R121). -/
def State.bothPorts (s : State) (n : Nat) (es : List Nat) : List Nat :=
  (List.range 8).filter (fun e => es.contains e
    || (decide (e < 6) && s.portPair e != 0 && es.contains (otherPort e) && !(n / 2 == e / 2 && decide (n < 6))))

/-- The redundant pairs that a frame enters from outside, with the sequences they give it; a frame too long with the tag is dropped for the
ports of that pair (R121; for that pair alone: DESIGN CHOICE, log 102). -/
def State.redEnter (s : State) (f : Frame) (es : List Nat) : State × List Nat × List (Nat × Nat) :=
  [0, 1, 2].foldl (fun (x : State × List Nat × List (Nat × Nat)) p =>
    let (s, es, q) := x
    if s.pairMode p = 0 ∨ (f.port < 6 ∧ f.port / 2 = p) ∨ !(es.contains (2 * p) || es.contains (2 * p + 1)) then x
    else if 9216 < (s.copyBody f (2 * p)).length + 4 + 6 then
      (s.setB SW_STATUS SW_STATUS_RED_TX_DROP, es.filter (fun e => e / 2 != p), q)
    else
      let seq := s.fld (SW_RED_TXSEQ p) SW_RED_TXSEQ_SEQ
      (s.putF (SW_RED_TXSEQ p) SW_RED_TXSEQ_SEQ (seq + 1), es, q ++ [(p, seq)])) (s, es, [])

/-- Marking changes the copy of a frame that leaves egress e, as it leaves after its tag change (R108, R134). -/
def State.markable (s : State) (f : Frame) (e : Nat) : Bool :=
  ecnCapable (if e < 6 then s.tagChange e f.stream f.cls f.vid (s.copyBody f e) else s.copyBody f e)

/-- Thresholds of the egress queues (R107): the ports that take the frame, and those that mark it (R108). -/
def State.thresholds (s : State) (f : Frame) (es : List Nat) : State × List Nat × List Nat :=
  if f.cls = 7 then (s, es, [])
  else es.foldl (fun (x : State × List Nat × List Nat) e =>
    let (s, ok, mrk) := x
    let k := 8 * e + f.cls
    let d := s.depth k
    if s.fld (SW_Q_DROP k) SW_Q_DROP_CELLS < d then ((s.count (SW_Q_DROPPED k)).setB SW_STATUS SW_STATUS_THRESH_DROP, ok, mrk)
    else if s.fld (SW_Q_ECN_MARK k) SW_Q_ECN_MARK_CELLS < d ∧ s.markable f e then (s, ok ++ [e], mrk ++ [e])
    else (s, ok ++ [e], mrk)) (s, [], [])

/-- Cells of a whole frame (R97, R109). -/
def State.room (s : State) (f : Frame) : Option (State × Frame) := if f.cls = 7 then s.grow7 f else s.grow0 f

/-- A whole frame takes its cells and joins its queues (R97, R107 to R109, R117). -/
def State.store0 (s : State) (f : Frame) (pois : List Nat) : State :=
  if f.egress.isEmpty then s
  else match s.room f with
    | none =>
      if f.cls = 7 then s.c7NoCell f.port
      else (s.count (SW_PORT_NOCELL f.port)).setB SW_STATUS SW_STATUS_POOL_EMPTY
    | some x =>
      let s := match f.stream with | some c => x.1.strCount c 1 | none => x.1
      let s := f.marked.foldl (fun s e => s.count (SW_Q_MARKED (8 * e + f.cls))) s
      let (i, s) := s.newFrame x.2 pois
      f.egress.foldl (fun s e => s.enqueue i e f.cls) s

/-- Steps 9 and 10 of R98 for a frame that is no processed class 7 frame; bytes `pois` of it came as poison. -/
def State.forward (s : State) (f : Frame) (named : Nat) (pois : List Nat) : State :=
  let n := f.port
  let learn := f.cls ≤ 6 ∧ !linkLocal f.bytes ∧ s.bit (SW_PORT_CFG n) SW_PORT_CFG_LEARN ∧ s.vlanLearn f.vid ∧ saUnicast f.bytes
  let es := s.resolve n f.bytes f.vid named
  let s := if learn then s.macLearn (saOf f.bytes) (s.vlanFid f.vid) n else s
  let (s, es, q) := if f.cls ≤ 6 then s.redEnter f (s.bothPorts n es) else (s, es, [])
  let (s, es, mrk) := s.thresholds f es
  s.store0 { f with egress := es, marked := mrk, redSeq := q, done := true } pois

/-- Duplicate discard (R98 step 8, R118, R119): whether the frame goes on. -/
def State.dupCheck (s : State) (f : Frame) (fr : Front) : State × Bool :=
  if 6 < f.cls ∨ 6 ≤ f.port then (s, true)
  else match s.redSeqOf f.port (bodyOf f.bytes) with
    | none => (s, true)
    | some q => match f.stream with
      | some c => if STREAM_FILTER_RED_EN.get (cfgFilter fr.cfg) ≠ 0 then s.strRedundant c fr q else (s.count SW_RED_UNMATCHED, true)
      | none => (s.count SW_RED_UNMATCHED, true)

/-- During the muster a frame of another EtherType passes to the other port of the pair unchanged, stored and forwarded as class 0; muster
frames go to the boot ROM (R487). -/
def State.musterPass (s : State) (n ts : Nat) (bs : List Nat) (bad : Bool) (pois : List Nat) : State :=
  if bad then s.count (SW_PORT_FCS_DROP n)
  else if beAt bs 12 2 = s.fld SYS_MUSTER SYS_MUSTER_ETYPE then s
  else match s.grow0 { port := n, ts := ts, bytes := bs, done := true, egress := [otherPort n], raw := true } with
    | some (s, f) =>
      let (i, s) := s.newFrame f pois
      s.enqueue i (otherPort n) 0
    | none => (s.count (SW_PORT_NOCELL n)).setB SW_STATUS SW_STATUS_POOL_EMPTY

/-- A frame that is stored: steps 2 to 10 of R98, by what its head gave. -/
def State.switchIn (s : State) (n ts : Nat) (bs : List Nat) (fr : Front) (named : Nat) (demoted bad : Bool) (pois : List Nat) : State :=
  if s.musterPort n then s.musterPass n ts bs bad pois
  else if !fr.vlanOk then s.count (SW_PORT_VLAN_DROP n)
  else
    let (s, out) := match fr.stream with
      | some c => (s.strCount c 0).strPolice c fr bs.length
      | none => (s, .pass)
    if out = .drop then s
    else if bad then s.count (SW_PORT_FCS_DROP n)
    else
      let f : Frame := { port := n, ts := ts, bytes := bs, cls := if demoted then 6 else fr.cls, vid := fr.vid, stream := fr.stream,
                         dei := out == .dei, demoted := demoted }
      let (s, go) := s.dupCheck f fr
      if go then s.forward f named pois else s

/-- The frame that switch port P6 or P7 takes next: the highest class whose head is whole (R106); its gates are always open. -/
def State.handHead (s : State) (e c : Nat) : Option (Nat × Frame) :=
  match s.swq (8 * e + c) with
  | [] => none
  | i :: _ => (s.frameAt i).bind (fun f => if f.done && !f.bad && !(c == 7 && s.behindDemoted e i f) then some (i, f) else none)

/-- The switch hands the next frame of P6 or P7 over to its ferry queue (R106, R247). -/
def handOver (e : Nat) (s : State) : State :=
  match ((List.range 8).map (fun k => 7 - k)).findSome? (s.handHead e) with
  | some (i, f) => (s.deliver f e).frameGone i e
  | none => s

/-! ## The end of a reception -/

/-- Counters of a reception (R142). -/
def State.rxStats (s : State) (n : Nat) (r : RxFrame) (fin : RxEnd) (tooLong fcs : Bool) : State :=
  let s := s.countIf tooLong (PORT_TOO_LONG n)
  let s := s.countIf (r.bytes.length < 64) (PORT_RUNT n)
  match fin with
  | .align => s.count (PORT_ALIGN_ERR n)
  | .symbol => s.count (PORT_SYMBOL_ERR n)
  | .assembly => s.countIf (s.bit (PORT_MM_CTL n) PORT_MM_CTL_PREEMPT_EN) (PORT_MM_ASSY_ERR n)
  | .smd => s.countIf (s.bit (PORT_MM_CTL n) PORT_MM_CTL_PREEMPT_EN) (PORT_MM_SMD_ERR n)
  | .error => s
  | .ok =>
    let s := if r.frags = 0 then s else (s.count (PORT_MM_ASSY_OK n)).countN (PORT_MM_FRAG_RX n) wholeReg r.frags
    if tooLong ∨ r.bytes.length < 64 then s
    else if !fcs then s.count (PORT_FCS_ERR n)
    else if beAt r.bytes 12 2 = 0x8808 then s
    else
      let s := (s.count (PORT_FRAMES_RX n)).count64 (PORT_OCTETS_RX_LO n) (PORT_OCTETS_RX_HI n) (r.bytes.length - 18)
      if daOf r.bytes = 0xFFFFFFFFFFFF then s.count (PORT_BCAST_RX n)
      else s.countIf (r.bytes.getD 0 0 % 2 == 1) (PORT_MCAST_RX n)

/-- SHORT and LONG of a processed frame of `len` bytes (R161); whether it is short. -/
def State.lenVerdict (s : State) (n : Nat) (f : Frame) (len : Nat) : State × Bool :=
  let want := match f.copy with | some c => ctlLen c.ctl | none => 0
  if f.applies && decide (len < want) then ((s.count (STOW_SHORT n)).setB STOW_STATUS STOW_STATUS_SHORT, true)
  else if f.applies && decide (want < len) then ((s.count (STOW_LONG n)).setB STOW_STATUS STOW_STATUS_LONG, false)
  else (s, false)

/-- FCS check and STREAM_PASSED of a processed frame that is whole (R98 step 7, R117): copies that have not started are dropped if it is bad.
A frame shorter than 64 bytes is no FCS drop (R142). -/
def State.rxSettle (s : State) (i : Nat) (f : Frame) (bad runt : Bool) : State :=
  let started := f.egress.any (s.sending i)
  let stored := f.egress.isEmpty || f.egress.any (fun e => !s.sending i e)
  let s := s.countIf (bad && !runt && !f.lost && stored) (SW_PORT_FCS_DROP f.port)
  let s := match f.stream with | some c => if f.lost || (bad && !started) then s else s.strCount c 1 | none => s
  let f := { f with bad := f.bad || bad }
  let s := if f.egress.isEmpty then s.frameFree i f else s.setFrame i (some f)
  if f.bad then s.dropFrame i else s

/-- A processed class 7 frame has been received to its end (R113, R160, R161): its buffers are tainted if it was bad or short, by the bytes
received. -/
def State.processedEnd (s : State) (n i : Nat) (bad runt : Bool) : State :=
  let s := s.policeRx n
  match s.frameAt i, (s.portOf n).rx with
  | some f, some r =>
    let (s, short) := s.lenVerdict n f r.bytes.length
    let s := (if bad || short then s.taintAll r.ext else s).setRx n none
    s.rxSettle i { f with done := true } bad runt
  | _, _ => s

/-- The end of the frame in reception on port n (R98, R136, R142). A preempted frame that was never reassembled is not classified (R163). -/
def rxFinish (n : Nat) (fin : RxEnd) (s : State) : State :=
  match (s.portOf n).rx with
  | none => s
  | some r0 =>
    let tooLong := decide (s.fld (PORT_MAX_FRAME n) PORT_MAX_FRAME_BYTES < r0.bytes.length)
    let runt := decide (r0.bytes.length < 64)
    let torn := fin == RxEnd.assembly || fin == RxEnd.smd
    let fcs := fcsGood r0.bytes
    let s := s.rxStats n r0 fin tooLong fcs
    let bad := fin != .ok || tooLong || runt || !fcs
    let s := if torn then s else s.classify n true
    match (s.portOf n).rx with
    | none => s
    | some r =>
      let s := match r.frame, r.front with
        | some i, _ => s.processedEnd n i bad runt
        | none, some fr =>
          if runt || r.cutOff || torn then s
          else if beAt r.bytes 12 2 = 0x8808 then (if bad then s else s.macControl n r.bytes)
          else s.switchIn n r.ts r.bytes fr 0 r.demoted bad []
        | none, none => s
      s.setRx n none

/-- A frame as a whole. -/
def rxWhole (n quarter : Nat) (bs : List Nat) (frags : Nat) (fin : RxEnd) (s : State) : State :=
  if s.rxTakes n frags then
    let r : RxFrame := { bytes := [], ts := s.stamp quarter (s.reg (PORT_TS_ADJ_RX n)), frags := frags }
    let lim := s.fld (PORT_MAX_FRAME n) PORT_MAX_FRAME_BYTES + 1
    rxFinish n fin (s.setRx n (some { r with bytes := (bs.map (fun b => b % 256)).take lim }))
  else s

/-- FRAME_RECEIVE (R98). -/
def frameReceive (n : Nat) (part : RxPart) (s : State) : State :=
  match part with
  | .start q bs fr => rxStart n q.val bs fr s
  | .more bs => rxMore n bs s
  | .finish e => rxFinish n e s
  | .whole q bs fr e => rxWhole n q.val bs fr e s
  | .hand e => handOver (6 + e.val) s

/-! ## P6 and P7 into the switch (R249, R250) -/

/-- The queue that switch port e serves next: round robin over its enabled entries whose queue holds a complete packet. -/
def State.txqNext (s : State) (e : Nat) : Option (Nat × Nat) :=
  let base := 8 * (e - 6)
  let last := tget (fun _ => 0) s.txRR e
  (List.range 8).findSome? (fun k =>
    let j := (last + 1 + k) % 8
    let a := FERRY_TXQ (base + j)
    let q := s.fld a FERRY_TXQ_QUEUE
    if s.bit a FERRY_TXQ_EN && s.fqComplete q then some (j, q) else none)

/-- Bytes of a frame that come as poison in the words of its packet; a poisoned header counts for the first byte. -/
def poisonBytes (ws : List FqWord) : List Nat :=
  (List.range ws.length).flatMap (fun k => if (ws.map (fun w => w.poison)).getD k false then
    (if k = 0 then [0] else (List.range 4).map (fun j => 4 * (k - 1) + j)) else [])

/-- A packet taken from P6's or P7's queues enters the switch by its TX header, or is turned away as bad (R249): the bit of the port itself in EGRESS is
ignored. Its ingress timestamp is the time of day at which it is taken, and a trailer of R45 names port 6 or 7: R45 gives neither (DESIGN
CHOICE, log 113). -/
def State.txAccept (s : State) (e : Nat) (ws : List FqWord) : State :=
  let bs := ws.flatMap FqWord.bytes
  let h := leAt bs 0 4
  let len := bitsOf 13 0 h
  let body := bs.drop 4
  if ws.any (fun w => w.trunc) || h / 2 ^ 26 != 0 || decide (len < 14) || decide (9212 < len) || len != body.length then
    (s.count FERRY_TX_BAD).setB FERRY_STATUS FERRY_STATUS_TX_BAD
  else
    let hdr := if bitOf 17 h then some (bitsOf 16 14 h) else none
    let named := bitsOf 25 18 h
    let fs := addFcs (padTo60 body) false
    s.switchIn e s.time.tod fs (s.frontOf e fs hdr) (putBits e e named 0) false false (poisonBytes ws)

/-- The switch takes one packet from P6's or P7's queues. -/
def switchPortTransmit (e : Nat) (s : State) : State :=
  match s.txqNext e with
  | none => s
  | some (j, q) =>
    let ws := (headPacket (s.fqOf q).words).map (fun w => { w with poison := w.poison || w.bad })
    { s.fqPopN q ws.length with txRR := tput (fun _ => 0) s.txRR e j }.txAccept e ws

/-! ## Transmission (R106) -/

/-- Residence time of a frame at egress time `ts`, in 2^-16 ns, with the link delay of its ingress if asked (R158). -/
def State.residence (s : State) (f : Frame) (ts : Nat) (link : Bool) : Int :=
  todDiff16 ts f.ts + (if link ∧ f.port < 6 then s.linkDelay f.port else 0)

/-- The bytes of a frame as they leave port e, ahead of the FCS, for egress time `ts`, its entries `off` not being performed: with the state after
what PTP records. PTP and ECN act on the frame as it leaves, with its tags (R134). -/
def State.leave (s : State) (f : Frame) (e ts : Nat) (body : List Nat) (off : Nat → Bool) : State × List Nat :=
  if f.raw then (s, body)
  else if f.proc then
    if f.applies then
      let (bs, sat) := s.egressAll body ts (s.residence f ts) (f.entries.filter (fun x => !off x))
      (s.setIf sat (TIME_PTP_STATUS e) TIME_PTP_STATUS_CORR_SAT, bs)
    else s.ptpEgress e f.port f.ts ts body
  else
    let bs := padTo60 (s.tagChange e f.stream f.cls f.vid body)
    let bs := match f.redSeq.find? (fun q => q.1 == e / 2) with
      | some (_, q) => s.redInsert e q bs
      | none => bs
    let (s, bs) := s.ptpEgress e f.port f.ts ts bs
    (s, if f.marked.contains e then ecnMark bs else bs)

/-- Length of a frame as it would leave port e, FCS included. -/
def State.leaveLen (s : State) (f : Frame) (e : Nat) : Nat :=
  (s.leave f e s.time.tod (s.copyBody f e) s.enRefused).2.length + 4

/-- Octets of preamble and SFD that lead a frame on the line (IEEE 802.3, log 47). -/
def preambleOctets : Nat := 8

/-- The closing check (R71) of a transmission that starts at `ts`: the last octet leaves at or before the next instant at which the
gate closes. -/
def State.closeOk (s : State) (n cls ts len : Nat) : Bool :=
  match s.nextGate n cls false ts with
  | none => true
  | some t => decide (ts + octetsLast (s.portSpeed n) (preambleOctets + len) ≤ t)

/-- Class c may start on port n: gate open, not paused, not held back by a hold or by a preempted frame. A hold keeps back no class while preemption
is enabled but not active: R141 does not say whether it does (DESIGN CHOICE, log 123). -/
def State.classMay (s : State) (n c : Nat) : Bool :=
  bitOf c (s.gates n) && !s.paused n c
    && (s.express n c || ((s.portOf n).cut.isNone && (!s.preempts n || !s.tideHold n)))

/-- The head frame of class c, if it may start at `ts` (R71, R106). -/
def State.eligible (s : State) (n c ts : Nat) : Option (Nat × Frame) :=
  match s.swq (8 * n + c) with
  | [] => none
  | i :: _ =>
    match s.frameAt i with
    | none => none
    | some f =>
      if s.classMay n c && f.done && !f.bad && !s.sending i n && !(c == 7 && s.behindDemoted n i f)
          && s.closeOk n c ts (s.leaveLen f n) then some (i, f) else none

/-- The highest class that may start, among those at or above `low`. -/
def State.selectFrom (s : State) (n ts low : Nat) : Option (Nat × Frame) :=
  ((List.range (8 - low)).map (fun k => 7 - k)).findSome? (fun c => s.eligible n c ts)

/-- A flow-control frame to be sent (R136): its source address is left open (log 2). -/
def State.controlFrame (s : State) (n : Nat) : List Nat :=
  let q := s.fld (PORT_FC_TX n) PORT_FC_TX_QUANTA
  let pr := s.fld (PORT_FC_TX n) PORT_FC_TX_PRIO
  let pfc := s.bit (PORT_FC_CTL n) PORT_FC_CTL_PFC_EN
  let tail := if pfc then beBytes 2 0x0101 ++ beBytes 2 pr ++ (List.range 8).flatMap (fun p => beBytes 2 (if bitOf p pr then q else 0))
    else beBytes 2 1 ++ beBytes 2 q
  addFcs (padTo60 (beBytes 6 0x0180C2000001 ++ beBytes 6 (Config.freeNat (s.free + n) % 2 ^ 48) ++ beBytes 2 0x8808 ++ tail)) false

/-- The next instant from `ts` on at which the class 7 gate of port n goes from closed to open. -/
def State.nextOpening (s : State) (n ts : Nat) : Option Nat :=
  if bitOf 7 (s.gates n) then (s.nextGate n 7 false ts).bind (fun t => s.nextGate n 7 true t) else s.nextGate n 7 true ts

/-- A control frame that starts at `ts` ends before the next opening of the class 7 gate (R136). -/
def State.controlFits (s : State) (n ts : Nat) : Bool :=
  match s.nextOpening n ts with
  | none => true
  | some t => decide (ts + octetsLast (s.portSpeed n) (preambleOctets + 64) < t)

/-- The control frame may start: SEND, not put off, and it fits (R136). -/
def State.controlOk (s : State) (n ts : Nat) : Bool :=
  s.bit (PORT_FC_TX n) PORT_FC_TX_SEND && (s.portOf n).fcWait == 0 && s.controlFits n ts

/-- Send the control frame; it is one step. It counts as a PAUSE or PFC frame and not among the frames transmitted: R142 excludes MAC control frames
from the frames received OK and does not speak of those sent (DESIGN CHOICE, log 113). -/
def State.sendControl (s : State) (n : Nat) : State :=
  let s' := s.count (if s.bit (PORT_FC_CTL n) PORT_FC_CTL_PFC_EN then PORT_PFC_TX n else PORT_PAUSE_TX n)
  (s'.modPort n fun p => { p with sent := s.controlFrame n }).clrB (PORT_FC_TX n) PORT_FC_TX_SEND

/-- The port's line is free for a start. -/
def State.lineFree (s : State) (n : Nat) : Bool :=
  s.portLive n && (s.portOf n).tx.isNone && (s.portOf n).lpi == .awake

/-- A control frame that finds the line free and does not fit waits for the end of the next opening (R136). -/
def State.fcDefer (s : State) (n : Nat) : State :=
  if s.bit (PORT_FC_TX n) PORT_FC_TX_SEND && s.lineFree n && (s.portOf n).fcWait == 0 && !s.controlFits n s.time.tod then
    s.modPort n fun p => { p with fcWait := 1 }
  else s

/-- The class 7 gate of port n opens or closes: the end of an opening lets a control frame go that waited for it (R136). -/
def State.fcGate (s : State) (n : Nat) (was now : Bool) : State :=
  let k := (s.portOf n).fcWait
  if k = 1 ∧ !was ∧ now then s.modPort n fun p => { p with fcWait := 2 }
  else if k = 2 ∧ !now then s.modPort n fun p => { p with fcWait := 0 }
  else s

/-- The buffers that a plan's INSERT entries read, each with the end of the last byte that an entry reads from it (R83). -/
def insertEnds (es : List Nat) : List (Nat × Nat) :=
  es.foldl (fun l e => (enBuf e, ((l.filter (fun p => p.1 == enBuf e)).map Prod.snd).foldl max (enFoff e + enLen e))
    :: l.filter (fun p => p.1 != enBuf e)) []

/-- Frame i starts on port n, read out of its cells, of whose lines `bad` are found uncorrectable (R28): its insertions begin when the first
of its ports starts (R83). Its timestamp point lies behind the preamble until its part says where it passed; settings of preemption hold for
the whole frame (R141). -/
def State.txBegin (s : State) (n i : Nat) (f : Frame) (ct : Bool) (bad : List Nat) : State :=
  let ins := if !f.ins.isEmpty then f.ins
    else if f.applies then insertEnds (f.entries.filter (fun e => enOp e == 2 && !s.enRefused e)) else []
  let s := ((s.frameEcc f).frameUpset f bad).setFrame i (some { f with ins := ins })
  let ts := stampAt (s.time.tod + octetsLast (s.portSpeed n) preambleOctets) (s.reg (PORT_TS_ADJ_TX n))
  s.modPort n fun p => { p with tx := some { frame := i, ts := ts, cls := f.cls, ct := ct,
                                             pre := s.preempts n && !s.express n f.cls, fmin := s.fragMin n,
                                             c6 := s.express n 6 } }

/-- The timestamp point of the frame in transmission on port n (R43): the first octet after the SFD leaves; a continuation fragment
has none. -/
def State.txSfd (s : State) (n quarter : Nat) : State :=
  match (s.portOf n).tx with
  | some t =>
    if t.sfd then s
    else s.modPort n fun p => { p with tx := some { t with ts := s.stamp quarter (s.reg (PORT_TS_ADJ_TX n)), sfd := true } }
  | none => s

/-- The head of class 7 may cut through port n (R111, R122). -/
def State.ctHead (s : State) (n : Nat) : Option (Nat × Frame) :=
  match s.swq (8 * n + 7) with
  | [] => none
  | i :: _ =>
    match s.frameAt i with
    | none => none
    | some f =>
      let len := match f.copy with | some c => ctlLen c.ctl | none => 0
      if f.proc && f.ct && !f.bad && !f.saf.contains n && !s.sending i n && decide (s.portSpeed n ≤ s.portSpeed f.port) && s.classMay n 7
          && !s.behindDemoted n i f && s.closeOk n 7 s.time.tod len then some (i, f) else none

/-- An express frame may start on port n, class 6 being express or not. -/
def State.expressReady (s : State) (n : Nat) (c6 : Bool) : Bool :=
  (s.eligible n 7 s.time.tod).isSome || (s.ctHead n).isSome || (c6 && (s.eligible n 6 s.time.tod).isSome)

/-- A whole frame starts on port n; one that its tag change makes too long is dropped there (R134). -/
def State.txWhole (s : State) (n : Nat) (x : Nat × Frame) (bad : List Nat) : State :=
  if 9216 < s.leaveLen x.2 n then
    ((s.count (PORT_TX_OVERSIZE_DROP n)).setB (PORT_STATUS n) PORT_STATUS_TX_OVERSIZE).frameGone x.1 n
  else s.txBegin n x.1 x.2 false bad

/-- The frame that port n, its line being free, sends next: class 7, whole or cutting through, then a control frame (R136), then the classes
below (R106). -/
def State.txNext (s : State) (n : Nat) (bad : List Nat) : State :=
  match s.eligible n 7 s.time.tod, s.ctHead n with
  | some x, _ => s.txWhole n x bad
  | none, some (i, f) => s.txBegin n i f true bad
  | none, none =>
    if s.controlOk n s.time.tod then s.sendControl n
    else match s.selectFrom n s.time.tod 0 with
      | some x => s.txWhole n x bad
      | none => s

/-- A start on port n (R106). -/
def State.txStart (s : State) (n : Nat) (bad : List Nat) : State :=
  if s.lineFree n then (s.fcDefer n).txNext n bad else s

/-- Counters of a frame that has left (R142), also where its FCS is stomped: R142 does not say whether it then counts (DESIGN CHOICE, log 113). -/
def State.txStats (s : State) (n : Nat) (bs : List Nat) : State :=
  let s := (s.count (PORT_FRAMES_TX n)).count64 (PORT_OCTETS_TX_LO n) (PORT_OCTETS_TX_HI n) (bs.length - 18)
  if daOf bs = 0xFFFFFFFFFFFF then s.count (PORT_BCAST_TX n)
  else s.countIf (bs.getD 0 0 % 2 == 1) (PORT_MCAST_TX n)

/-- The egress-side entries of the frame in transmission on port n that begin before byte k meet their buffers as these stand: those refused
are not performed, and are counted once for the frame (R80, R162). -/
def State.txJudge (s : State) (n k : Nat) : State :=
  match (s.portOf n).tx with
  | none => s
  | some t =>
    match s.frameAt t.frame with
    | none => s
    | some f =>
      let es := if f.applies then f.entries.filter (fun e => enOp e != 1 && decide (t.judged ≤ enFoff e ∧ enFoff e < k)) else []
      let no := es.filter s.enRefused
      (s.noteRefused t.frame es.contains).modPort n fun p => { p with tx := some { t with judged := max t.judged k, off := no ++ t.off } }

/-- The entry is not performed in this transmission: its buffer refused it, or it has not met it yet. -/
def TxFrame.skips (t : TxFrame) (e : Nat) : Bool := t.off.contains e || decide (t.judged ≤ enFoff e)

/-- The frame in transmission on port n. -/
def State.txNow (s : State) (n : Nat) (t : TxFrame) : TxFrame := (s.portOf n).tx.getD t

/-- The egress-side entries that transmission `t` of frame `f` performs. -/
def TxFrame.acts (t : TxFrame) (f : Frame) : List Nat := if f.applies then f.entries.filter (fun e => !t.skips e) else []

/-- The frame in transmission on port n has left: bytes ahead of the FCS are formed, the FCS is good or stomped (R113). -/
def State.txSend (s : State) (n : Nat) (t : TxFrame) (f : Frame) (body : List Nat) (stomp : Bool) : State :=
  let s := s.txJudge n f.bytes.length
  let t := s.txNow n t
  let s := s.insertEcc (t.acts f) t.head.length body.length
  let (s, bs) := s.leave f n t.ts body t.skips
  let stomp := stomp || t.stomp || s.insertPoison (t.acts f) t.head.length body.length || s.framePoison f t.head.length f.bytes.length
  let out := addFcs (t.head ++ bs.drop t.head.length) stomp
  let s := if stomp then (s.count (SW_PORT_FCS_STOMPED n)).setB SW_STATUS SW_STATUS_FCS_STOMP else s
  let s := (s.modPort n fun p => { p with tx := none, sent := out }).txStats n out
  (s.frameGone t.frame n).fcDefer n

/-- Bytes of a frame still arriving that may leave: not the last four received (R159), and of a field that an entry changes as a whole
none before all of it is there (R155). Where the entries do not apply, none that a PTP correction may change (the 22nd on) before the header
of the message is there, behind tags, IPv6 and UDP at most 110 octets (R44, R48). -/
def Frame.sendable (f : Frame) : Nat :=
  let avail := f.bytes.length - 4
  if f.applies then
    f.entries.foldl (fun m e =>
      if enOp e ≠ 1 ∧ enOp e ≠ 2 ∧ enFoff e < avail ∧ avail < enFoff e + enLen e then min m (enFoff e) else m) avail
  else if avail < 110 then min avail 22
  else avail

/-- A cut-through frame that still arrives, with 2,048 bytes to send there: it ends there at every port that sends it, and the rest of it is discarded at
ingress (R112). -/
def State.ctOver (s : State) (i : Nat) : State :=
  match s.frameAt i with
  | none => s
  | some f =>
    if !f.done ∧ 2048 ≤ f.bytes.length then (s.setFrame i (some { f with bytes := f.bytes.take 2048, oversize := true })).loseFrame i
    else s

/-- Frame i, in transmission as `t` on port n, leaves: cut short (R112), or whole once its reception is over. -/
def State.txEnd (s : State) (n : Nat) (t : TxFrame) : State :=
  match s.frameAt t.frame with
  | none => s.modPort n fun p => { p with tx := none }
  | some f =>
    if f.oversize then ((s.count (SW_PORT_CT_OVERSIZE n)).setB SW_STATUS SW_STATUS_CT_OVERSIZE).txSend n t f f.bytes true
    else if f.done then s.txSend n t f (s.copyBody f n) f.bad
    else s

/-- The transmission on port n ends. A cut-through frame that is still arriving after 2,048 bytes is cut short (R112): they are sent, and
then the four octets of a stomped FCS (DESIGN CHOICE, log 102). One that has not reached them goes on. -/
def State.txFinish (s : State) (n : Nat) : State :=
  match (s.portOf n).tx with
  | none => s
  | some t => (s.ctOver t.frame).txEnd n t

/-- The bytes `bs` have left. -/
def TxFrame.sentTo (t : TxFrame) (bs : List Nat) (stomp : Bool) : TxFrame :=
  { t with head := t.head ++ bs.drop t.head.length, stomp := t.stomp || stomp }

/-- The first k bytes of the frame in transmission on port n have left: they are fixed (R83). Of a frame still arriving no more leave than
may, and 2,048 end it (R112). -/
def State.txSent (s : State) (n k : Nat) : State :=
  match (s.portOf n).tx with
  | none => s
  | some t =>
    match s.frameAt t.frame with
    | none => s
    | some f =>
      let k' := if f.done then k else min k (min 2048 f.sendable)
      let s := s.txJudge n k'
      let t := s.txNow n t
      let body := if f.done then s.copyBody f n else bodyOf f.bytes
      let s := s.insertEcc (t.acts f) t.head.length (min k' body.length)
      let bs := (s.leave f n t.ts body t.skips).2
      let t' := t.sentTo (bs.take k') (s.insertPoison (t.acts f) t.head.length (min k' body.length) || s.framePoison f t.head.length k')
      let s := s.modPort n fun p => { p with tx := some t' }
      if !f.done ∧ 2048 ≤ t'.head.length then s.txFinish n else s

/-- A preemptable frame is cut after `sent` bytes, for an express frame, a hold or a pause (R135, R141); the settings are those of its
start. -/
def State.txCut (s : State) (n sent : Nat) : State :=
  match (s.portOf n).tx with
  | none => s
  | some t =>
    let len := match s.frameAt t.frame with | some f => s.leaveLen f n | none => 0
    if t.pre && decide (t.base < sent) && decide (t.fmin ≤ sent - t.base + 4) && decide (sent + 64 ≤ len)
        && (s.tideHold n || s.paused n t.cls || s.expressReady n t.c6) then
      (s.modPort n fun p => { p with tx := none, cut := some { t with frags := t.frags + 1, base := sent } }).count (PORT_MM_FRAG_TX n)
    else s

/-- The remainder of a preempted frame is taken up, unless an express frame, a hold or a pause keeps it (R106, R135, R141). A PAUSE or PFC frame
that waits may go ahead of it or after it: R136 puts such a frame ahead of classes 0 to 6, R141 does not name it express (DESIGN CHOICE, log 123). -/
def State.txResume (s : State) (n : Nat) : State :=
  match (s.portOf n).cut with
  | none => s
  | some t =>
    if s.lineFree n && !s.tideHold n && !s.paused n t.cls && !s.expressReady n t.c6 then s.modPort n fun p => { p with tx := some t, cut := none }
    else s

/-- FRAME_TRANSMIT (R106). -/
def frameTransmit (n : Nat) (part : TxPart) (s : State) : State :=
  match part with
  | .start bad => s.txStart n bad
  | .sfd q => s.txSfd n q.val
  | .sent k => s.txSent n k
  | .finish => s.txFinish n
  | .cut k => s.txCut n k
  | .resume => s.txResume n

/-- CUT_THROUGH (R111, R112). -/
def cutThrough (n : Nat) (part : CtPart) (s : State) : State :=
  match part with
  | .start bad =>
    if !s.lineFree n then s
    else match s.ctHead n with
      | some (i, f) => s.txBegin n i f true bad
      | none => s
  | .sfd q => s.txSfd n q.val
  | .sent k => s.txSent n k
  | .finish => match (s.portOf n).tx with
    | some t => if t.ct then s.txFinish n else s
    | none => s

/-! ## Link and port reset (R137, R138) -/

/-- Every frame queued for port n is removed whole and counted. -/
def State.portFlush (s : State) (n : Nat) : State :=
  ((List.range 8).flatMap (fun c => s.swq (8 * n + c))).foldl (fun s i => s.flushOne n i) s

/-- The frames in transmission and preempted on port n are abandoned. -/
def State.txAbandon (s : State) (n : Nat) : State :=
  let p := s.portOf n
  let s := s.setPort n { p with tx := none, cut := none }
  (p.tx.toList ++ p.cut.toList).foldl (fun s t => s.frameGone t.frame n) s

/-- Port n is declared down (R137). -/
def State.portDown (s : State) (n : Nat) (flush : Bool) : State :=
  let up := s.portUp n
  let s := s.modPort n fun p => { p with filter := false }
  let s := s.clrB (PORT_LINK n) PORT_LINK_UP
  let s := if up then ((s.setB (PORT_STATUS n) PORT_STATUS_LINK_DOWN).count (PORT_LINK_DOWN_CNT n)).raiseLink n else s
  let s := (s.lpiOff n).verifyRestart n
  if flush then s.portFlush n else s

/-- FLUSH_ON_DOWN of port n. -/
def State.flushOnDown (s : State) (n : Nat) : Bool := s.bit (PORT_CTL n) PORT_CTL_FLUSH_ON_DOWN

/-- The line of port n is lost: reception and transmission break off (R137). -/
def State.lineLost (s : State) (n : Nat) : State :=
  ((rxFinish n .error s).txAbandon n).modPort n fun p => { p with line := false }

/-- LINK_LOSS (R137). -/
def linkLoss (n : Nat) (s : State) : State :=
  if !(s.portOf n).line then s
  else
    let s := s.lineLost n
    if s.fld (PORT_LINK_FILTER n) PORT_LINK_FILTER_MS = 0 then (s.portDown n (s.flushOnDown n)).startLink n
    else s.modPort n fun p => { p with filter := true }

/-- LINK_FILTER expires without the link (R137). -/
def linkFilterExpiry (n : Nat) (s : State) : State :=
  if (s.portOf n).filter then (s.portDown n (s.flushOnDown n)).startLink n else s

/-- A speed code that a mode and SPEED_FORCE allow. -/
def speedAllowed (mode force speed : Nat) : Bool :=
  (if mode = 3 then speed == 3 else if mode = 2 then speed == 2 else decide (speed ≤ 2))
    && (force == 0 || force == speed + 1)

/-- LINK_UP (R130, R131, R137). A link that returns while the filter runs brings what it negotiated and nothing else (R137). -/
def linkUp (n : Nat) (fin : LinkEnd) (s : State) : State :=
  let p := s.portOf n
  let force := PORT_AN_ADV_SPEED_FORCE.get (w32 p.adv)
  let mode := s.portMode n
  let lp (a : Nat) (hd : Bool) : State := s.setReg (PORT_AN_LP n) (w32 (a % 256 + 2 ^ 12 * b2n hd))
  if mode = 0 ∨ p.reset ∨ s.portTest n then s
  else if !speedOffered mode force then s.setB (PORT_STATUS n) PORT_STATUS_SPEED_BAD
  else if s.portUp n ∧ !p.filter then s
  else match fin with
    | .halfDuplex a => (lp a true).setB (PORT_STATUS n) PORT_STATUS_HD_REFUSED
    | .up sp a par =>
      if !speedAllowed mode force sp.val then s
      else
        let s := (lp a false).modPort n fun p => { p with line := true, filter := false }
        let s := (s.putF (PORT_LINK n) PORT_LINK_SPEED sp.val).setIf (par && mode == 4 && decide (sp.val ≤ 1)) (PORT_STATUS n) PORT_STATUS_PD_LINK
        if p.filter then s
        else (((s.setB (PORT_LINK n) PORT_LINK_UP).setB (PORT_STATUS n) PORT_STATUS_LINK_UP).raiseLink n).verifyRestart n

/-- The link is taken down at once and starts anew: RESTART_AN, a test link, a change of MODE. It passes LINK_FILTER by, and FLUSH_ON_DOWN acts even
where the link was down: R130 and R137 say neither (DESIGN CHOICE, log 123). -/
def State.relink (s : State) (n : Nat) : State := ((s.lineLost n).portDown n (s.flushOnDown n)).startLink n

/-- PORTn_CTL RESET (R138): the port enters PORT reset; logbook code 0x06. A request during a PORT or CHIP reset is absorbed (R473). -/
def State.portReset (s : State) (n : Nat) : State :=
  if (s.portOf n).reset then s
  else
    let s := (s.lineLost n).portDown n true
    let s := (s.setB (PORT_STATUS n) PORT_STATUS_LINK_DOWN).setTxts n []
    let s := (s.setWin n none).modPort n fun p => { p with reset := true, pause := false, pfc := [] }
    s.logEv 0x06 n

/-- 1 µs after the write the port leaves reset and retrains. -/
def portResetEnd (n : Nat) (s : State) : State :=
  if (s.portOf n).reset then ((s.modPort n fun p => { p with reset := false }).startLink n).verifyRestart n else s

/-- What a write of PORTn_CTL does (R129, R130, R138). -/
def State.portCtl (s : State) (n : Nat) (old w : Word) : State :=
  let m := PORT_CTL_MODE.get w
  let m' := PORT_CTL_MODE.get old
  let s := if m ≠ m' then (if m = 0 then (s.lineLost n).portDown n (s.flushOnDown n) else s.startLink n)
    else if PORT_CTL_RESTART_AN.get w ≠ 0 ∧ m ≠ 0 then s.relink n else s
  if PORT_CTL_RESET.get w ≠ 0 then s.portReset n else s

/-- What a write of the PORT block does beside setting its fields. -/
def portHook (a0 i : Nat) (old w : Word) (s : State) : State :=
  if a0 = PORT_CTL 0 then s.portCtl i old w
  else if a0 = PORT_MM_CTL 0 then s.verifyRestart i
  else if a0 = PORT_FC_TX 0 then s.fcDefer i
  else if a0 = PORT_MDIO_CMD then s.mdioStart w
  else s

end Sys2Proof.Machine
end

