-- ==== Sys2Proof/Machine/TestDbg.lean ====
section
/-! DEFINITION. Link tests, the TAP, the TEST and DEBUG blocks (16, R449 to R456, R459), and the pins of axes and triggers (18, R503 to
R507). -/
namespace Sys2Proof.Machine

/-- Change the record of the TAP and the link tests. -/
def State.modTap (s : State) (f : TapSt → TapSt) : State := { s with tap := f s.tap }

/-! ## Link tests (R449 to R452) -/

/-- The links that R449 defines. -/
def linkExists (l : Nat) : Bool := decide (l < 6) || (decide (8 ≤ l) && decide (l < 12)) || (decide (16 ≤ l) && decide (l < 24)) || (decide (32 ≤ l) && decide (l < 64))

/-- Lanes of a link. -/
def State.linkLanes (s : State) (l : Nat) : Nat :=
  if l < 6 then (if s.portMode l = 4 then 4 else 1) else if l < 12 then 1 else if l < 24 then 8 else 6

/-- Writes of the TEST block that are discarded whole (R24, R448, R449, R450, R452). -/
def testBad (s : State) (a0 i : Nat) (w : Word) : Bool :=
  if a0 = TEST_DREDGE then TEST_DREDGE_PASS_MS.get w == 0 || decide (10000 < TEST_DREDGE_PASS_MS.get w)
  else if a0 = TEST_LINK_CTL 0 then
    let t := TEST_LINK_CTL_T_MODE.get w
    let on := TEST_LINK_CTL_GEN.get w != 0 || TEST_LINK_CTL_CHK.get w != 0
    decide (7 ≤ TEST_LINK_CTL_PATTERN.get w) || decide (5 ≤ t) || (t != 0 && i != 4 && i != 5)
      || (decide (32 ≤ i) && on && (s.axMode (i - 32) != 0 || (decide (i < 40) && s.bit (CHOP_CTL (i - 32)) CHOP_CTL_EN)))
  else false

/-- GEN or CHK in a word of TEST_LINKL_CTL. -/
def linkTaken (w : Word) : Bool := TEST_LINK_CTL_GEN.get w != 0 || TEST_LINK_CTL_CHK.get w != 0

/-- A write of TEST_LINKL_CTL (R449, R450): generator and checker restart; a port's link goes down at once, or trains again, and a CAN controller
leaves its bus. -/
def State.linkCtl (s : State) (l : Nat) (old w : Word) : State :=
  let t : LinkTest := if linkTaken w then { on := true, began := s.time.tick, upTo := s.time.tick } else {}
  let s := s.modTap fun x => { x with links := tput (fun _ => {}) x.links l t }
  let s := s.putF (TEST_LINK_STATE l) TEST_LINK_STATE_LOCKED 0
  if l < 6 then
    if linkTaken w ∧ !linkTaken old then (s.lineLost l).portDown l (s.flushOnDown l)
    else if !linkTaken w ∧ linkTaken old then s.startLink l
    else s
  else if 8 ≤ l ∧ l < 12 ∧ linkTaken w ∧ !linkTaken old then s.canTaken (l - 8)
  else s

/-- The checker of a link runs on a lane. -/
def State.laneOn (s : State) (l lane : Nat) : Bool :=
  linkExists l && s.bit (TEST_LINK_CTL l) TEST_LINK_CTL_CHK && decide (lane < s.linkLanes l)

/-- The lane is locked. -/
def State.laneLocked (s : State) (l lane : Nat) : Bool := bitOf lane (s.fld (TEST_LINK_STATE l) TEST_LINK_STATE_LOCKED)

/-- The locked lanes of a link. -/
def State.lanesLocked (s : State) (l : Nat) : Nat := ((List.range (s.linkLanes l)).filter (s.laneLocked l)).length

/-- TEST_LINKL_BITS counts the bits compared on the locked lanes of a link up to now, in units of 2^16 (R451). -/
def State.linkCount (s : State) (l : Nat) : State :=
  let x := tget (fun _ => {}) s.tap.links l
  let n := if s.bit (TEST_LINK_CTL l) TEST_LINK_CTL_CHK then (s.linkBits l s.time.tick - s.linkBits l x.upTo) * s.lanesLocked l else 0
  let y : LinkTest := { x with upTo := s.time.tick, rest := (x.rest + n) % 2 ^ 16 }
  let s := s.modTap fun t => { t with links := tput (fun _ => {}) t.links l y }
  s.countN (TEST_LINK_BITS l) wholeReg ((x.rest + n) / 2 ^ 16)

/-- The bits of every link test that runs are counted: done after every command. -/
def State.testCount (s : State) : State := (s.tap.links.map Prod.fst).foldl State.linkCount s

/-- With LOOP set the generator feeds the checker inside the device (R449): every bit is as expected, and there is none where no pattern is sent. -/
def State.linkLoops (s : State) (l : Nat) : Bool := s.bit (TEST_LINK_CTL l) TEST_LINK_CTL_LOOP

/-- 64 consecutive correct bits (R451). -/
def checkerLocked (l lane : Nat) (s : State) : State :=
  if s.laneOn l lane ∧ (!s.linkLoops l ∨ s.linkSends l) then
    s.putF (TEST_LINK_STATE l) TEST_LINK_STATE_LOCKED (withBit (s.fld (TEST_LINK_STATE l) TEST_LINK_STATE_LOCKED) lane true)
  else s

/-- `n` wrong bits on a locked lane (R451). -/
def laneErr (l lane n : Nat) (s : State) : State :=
  if s.laneOn l lane ∧ s.laneLocked l lane ∧ !s.linkLoops l ∧ n ≠ 0 then
    let s := s.countN (TEST_LINK_ERR l) wholeReg n
    s.putF (TEST_LINK_STATE l) TEST_LINK_STATE_LANE_ERR (withBit (s.fld (TEST_LINK_STATE l) TEST_LINK_STATE_LANE_ERR) lane true)
  else s

/-- 32 wrong bits within 64, of which `n` have not been counted yet: the lane loses lock (R451). -/
def lockLost (l lane n : Nat) (s : State) : State :=
  if s.laneOn l lane ∧ s.laneLocked l lane ∧ !s.linkLoops l then
    let s := laneErr l lane n s
    let s := s.putF (TEST_LINK_STATE l) TEST_LINK_STATE_LOCKED (withBit (s.fld (TEST_LINK_STATE l) TEST_LINK_STATE_LOCKED) lane false)
    (s.setB (TEST_LINK_STATE l) TEST_LINK_STATE_LOCK_LOST).setB TEST_STATUS TEST_STATUS_LOCK_LOST
  else s

/-- What a write of the TEST block does beside setting its fields. -/
def testHook (a0 i : Nat) (old w : Word) (s : State) : State := if a0 = TEST_LINK_CTL 0 then s.linkCtl i old w else s

/-- SRC bits of TEST_SUMMARY. -/
def testSrc (s : State) : Nat := (s.reg TEST_STATUS).toNat % 4

/-! ## The TAP and the debug port (R453 to R456) -/

/-- The controller after a TCK cycle with TMS at a level (IEEE 1149.1, PRESUMED, log 72). -/
def TapCtl.next : TapCtl → Bool → TapCtl
  | .reset, t => if t then .reset else .idle
  | .idle, t | .updateDr, t | .updateIr, t => if t then .selectDr else .idle
  | .selectDr, t => if t then .selectIr else .captureDr
  | .captureDr, t | .shiftDr, t => if t then .exit1Dr else .shiftDr
  | .exit1Dr, t => if t then .updateDr else .pauseDr
  | .pauseDr, t => if t then .exit2Dr else .pauseDr
  | .exit2Dr, t => if t then .updateDr else .shiftDr
  | .selectIr, t => if t then .reset else .captureIr
  | .captureIr, t | .shiftIr, t => if t then .exit1Ir else .shiftIr
  | .exit1Ir, t => if t then .updateIr else .pauseIr
  | .pauseIr, t => if t then .exit2Ir else .pauseIr
  | .exit2Ir, t => if t then .updateIr else .shiftIr

/-- The controller after TCK cycles with the levels of TMS given. -/
def TapCtl.walk (c : TapCtl) (tms : List Bool) : TapCtl := tms.foldl TapCtl.next c

/-- TMS of a scan of `n` bits of the instruction register (`ir`) or of the selected data register, from Test-Logic-Reset or Run-Test/Idle back to
Run-Test/Idle. -/
def scanTms (ir : Bool) (n : Nat) : List Bool :=
  [false, true] ++ (if ir then [true] else []) ++ [false, false] ++ List.replicate (n - 1) false ++ [true, true, false]

/-- The instruction of a 6-bit code (R453): every code outside the table acts as BYPASS. -/
def tapInstrOf (code : Nat) : TapInstr :=
  match code % 64 with
  | 0x00 => .extest
  | 0x01 => .idcode
  | 0x02 => .samplePreload
  | 0x04 => .extestPulse
  | 0x05 => .extestTrain
  | 0x06 => .clamp
  | 0x07 => .highz
  | 0x20 => .debug
  | _ => .bypass

/-- What Capture-IR loads, least significant bit first: 01 (IEEE 1149.1, PRESUMED), the upper bits open (log 72). -/
def irCaptured : List Bool := [true, false] ++ (List.range 4).map Config.irCapture

/-- The bits of a scan as they leave on TDO: in CHIP reset TDO stays at high impedance (R502). -/
def State.tdo (s : State) (l : List Bool) : List Bool := if s.rst.chip then [] else l

/-- A scan of the instruction register shifts a code in: its instruction is selected at Update-IR. -/
def State.tapLoad (s : State) (code : Nat) : State :=
  s.modTap fun t => { t with ctl := t.ctl.walk (scanTms true 6), ir := tapInstrOf code, out := s.tdo irCaptured }

/-- The TAP is reset by TRSTN or by five TCK cycles with TMS high: IDCODE is its instruction (IEEE 1149.1, PRESUMED, log 72). -/
def tapReset (s : State) : State := s.modTap fun t => { t with ctl := t.ctl.walk (List.replicate 5 true), ir := .idcode }

/-- Writes of the DEBUG block that are discarded whole (R456). -/
def dbgBad (who : Initiator) (a0 : Nat) : Bool := a0 == DBG_CTL && who != .debug

/-- Registers of the DEBUG block that read the live state. -/
def dbgView (s : State) (a0 : Nat) : Option Word :=
  if a0 = DBG_STATUS then some (DBG_STATUS_ATTACHED.put (s.reg DBG_STATUS) (b2n (s.tap.ir == .debug))) else none

/-- SRC bits of DEBUG_SUMMARY. -/
def dbgSrc (s : State) : Nat := b2n (s.bit DBG_STATUS DBG_STATUS_USED)

/-! ## Pins of axes and triggers (R503, R504, R506) -/

/-- What drives an MIO pin. -/
inductive MioSrc where
  | bridge (axis signal : Nat) | test | step (axis : Nat) | dir (axis : Nat) | trigger (m : Nat) | none
  deriving DecidableEq, Repr

/-- The bridge signal that R504 puts on pin p of slot n: A1_IN, A1_EN, A2_IN, A2_EN, B1_IN, B1_EN, B2_IN, B2_EN are signals 0 to 7. -/
def bridgeSignal (n p : Nat) : Option (Nat × Nat) :=
  if n < 8 then some (n, p) else if n < 16 ∧ 4 ≤ p then some (n - 8, p + 2) else none

/-- The source of pin p of axis slot n from the axis or the trigger that has it (R503, items 3 and 4). -/
def State.mioUnit (s : State) (n p : Nat) : MioSrc :=
  if (s.axOf n).outp = 1 ∧ p = 0 then .step n
  else if (s.axOf n).outp = 1 ∧ p = 1 then .dir n
  else if 16 ≤ n ∧ p = 5 ∧ (s.axOf n).outp = 0 ∧ s.fld (TTRIG_CTL (n - 16)) TTRIG_CTL_MODE ≠ 0 then .trigger (n - 16)
  else .none

/-- Safe state names the ball that a source gives its level: a step output or a trigger's ball (R506). -/
def MioSrc.safed : MioSrc → Bool
  | .step _ | .trigger _ => true
  | _ => false

/-- The source of pin p of axis slot n (R503): a link test takes the pins while GEN or CHK is set (R450), but in safe state not a ball that R506
names. -/
def State.mioSrc (s : State) (n p : Nat) : MioSrc :=
  match (bridgeSignal n p).filter (fun b => (s.axOf b.1).outp == 2) with
  | some (a, g) => .bridge a g
  | none =>
    if s.linkTest (32 + n) && !(s.safe && (s.mioUnit n p).safed) then .test else s.mioUnit n p

/-- The level of a bridge signal (R504): while the bridge is off every signal is low. -/
def State.bridgeLevel (s : State) (a g : Nat) : Bool :=
  let ph := (s.phaseOf a (g / 4)).now s.time.tick
  match g % 4 with
  | 0 => ph.in1
  | 1 => ph.en1
  | 2 => ph.in2
  | _ => ph.en2

/-- The level that the function of pin p of slot n gives: bridges, steps, direction, triggers and test patterns. In safe state no pulse begins, and one
that has begun lasts its STEP_WIDTH (R323). -/
def State.mioOwn (s : State) (n p : Nat) : Option Bool :=
  match s.mioSrc n p with
  | .bridge a g => some (s.bridgeLevel a g)
  | .step a => some (s.stepHigh a != (s.axOf a).stepPol)
  | .dir a => some ((s.axOf a).dirPos != (s.axOf a).dirPol)
  | .trigger m => some (s.trigLevel m)
  | .test => s.linkDrive (32 + n) p
  | .none => none

/-- The level that the device drives on pin p of slot n: the boundary register goes before the function (R454). -/
def State.mioLevel (s : State) (n p : Nat) : Option Bool := s.ball (6 * n + p) (s.mioOwn n p)

end Sys2Proof.Machine
end

