-- ==== Sys2Proof/Machine/Sound.lean ====
section
/-! DEFINITION. The sound (12, R328, R329): the levels that pins bring to functional inputs, and what a change of a select register does. -/
namespace Sys2Proof.Machine

/-- The level at a pin's ball (R329, R463): what the device drives there, else what comes from outside. -/
def State.pinLevel (s : State) (c : Nat) : Bool :=
  if 192 ≤ c then s.pioLevel ((c - 192) / 8) ((c - 192) % 8)
  else if s.rst.banks.contains (ballBank c) then false
  else (s.mioLevel (c / 6) (c % 6)).getD (s.mio.contains c)

/-- The level outside at a pin is `l`. -/
def State.setOutside (s : State) (c : Nat) (l : Bool) : State :=
  if 192 ≤ c then
    let k := (c - 192) / 8
    s.setPset k { s.psetOf k with ext := withBit (s.psetOf k).ext ((c - 192) % 8) l }
  else { s with mio := if l then ninsert c s.mio else nerase c s.mio }

/-- The level that functional input i takes (R329). -/
def State.inputLevel (s : State) (i : Nat) : Bool :=
  if s.bit (SOUND_SEL i) SOUND_SEL_EN then s.pinLevel (s.fld (SOUND_SEL i) SOUND_SEL_PIN) != s.bit (SOUND_SEL i) SOUND_SEL_INV
  else s.bit (SOUND_SEL i) SOUND_SEL_LEVEL

/-- An edge of input i to level `l` shows the level outside at the pin that it follows, where the device does not drive that pin; a pin of a
bank that is down shows none (R463). -/
def State.pinSeen (s : State) (i : Nat) (l : Bool) : State :=
  let c := s.fld (SOUND_SEL i) SOUND_SEL_PIN
  if s.bit (SOUND_SEL i) SOUND_SEL_EN && !s.rst.banks.contains (ballBank c) && (decide (192 ≤ c) || (s.mioLevel (c / 6) (c % 6)).isNone) then
    s.setOutside c (l != s.bit (SOUND_SEL i) SOUND_SEL_INV)
  else s

/-- A capture or DMA request input was last seen at a level. -/
def State.inputSeen (s : State) (i : Nat) : Bool := s.time.seen.contains i
/-- A capture or DMA request input is seen at a level. -/
def State.seeInput (s : State) (i : Nat) (l : Bool) : State :=
  s.modTime fun t => { t with seen := if l then ninsert i t.seen else nerase i t.seen }

/-- An edge at a capture or DMA request input, `l` being the level outside (R329): `k` follows where the input's level changes. -/
def State.inputEdge (s : State) (i : Nat) (l : Bool) (k : Bool → State → State) : State :=
  let s := s.pinSeen i l
  let l := s.inputLevel i
  if l = s.inputSeen i then s else k l (s.seeInput i l)

/-- Functional input i takes a present level without an edge (R328, R329): filters and decoders take it over; a DREQ input that falls
withdraws its request in silence, one that rises so makes none (log 45). -/
def State.setInput (s : State) (i : Nat) (l : Bool) : State :=
  let n := i % 32
  match i / 32 with
  | 3 => s.setEnc n { s.encOf n with a := l, rawA := l }
  | 4 => s.setEnc n { s.encOf n with b := l, rawB := l }
  | 5 => s.setEnc n { s.encOf n with z := l, rawZ := l }
  | 6 =>
    let s := s.seeInput i l
    if i < 0xD0 ∨ l then s else { s with dreq := nerase (i - 0xD0) s.dreq }
  | k => s.setAx n (((s.axOf n).setRaw k l).setFilt k l)

/-- What a write of the SOUND block does beside setting its fields: one that changes a field applies the level (R329). -/
def soundHook (a0 i : Nat) (old w : Word) (s : State) : State :=
  if a0 = SOUND_SEL 0 ∧ old.toNat % 2048 ≠ w.toNat % 2048 then s.setInput i (s.inputLevel i) else s

end Sys2Proof.Machine
end

