-- ==== Sys2Proof/Machine/StowCmd.lean ====
section
/-! DEFINITION. The commit and the clear of a stowage plan (06, R165, R166) beside the copies that the tide engine makes of it. -/
namespace Sys2Proof.Machine

/-- A copy of plan p starts in this clock: the instant of issue of a STOW that names it has come (R68, R150). -/
def State.copyDue (s : State) (p : Nat) : Bool := s.tideRuns && s.waitIssue.any (fun (t, next, i) =>
  let c := if next then s.nextCycle else s.curCycle
  let w := s.entryWord c.bank i 1
  decide (t ≤ s.time.tod) && w1Action w == 2 && bitsOf 31 24 (s.entryWord c.bank i 2) == p && parityActs (w1Parity w) c.cnt
    && !s.entryPoison c.bank i)

/-- A commit or a clear of plan p is held: a copy of it is in progress, or starts in this clock and is made from the old header (R166). -/
def State.copyHolds (s : State) (p : Nat) : Bool := s.copying p || s.copyDue p

/-- The running commit completes; it is held while a copy of its plan is in progress or starts in this clock (R166). -/
def commitEnd (s : State) : State :=
  let p := s.fld STOW_CMD STOW_CMD_PLAN
  if s.stowBusy ∧ s.fld STOW_CMD STOW_CMD_OP = 1 ∧ !s.copyHolds p then (s.commit p).setReg STOW_CMD 0 else s

/-- A CLEAR of plan p is made (R166). -/
def State.clearPlan (s : State) (p : Nat) : State :=
  (s.clrB (STOW_PLAN_CTL p) STOW_PLAN_CTL_VALID).setB STOW_STATUS STOW_STATUS_COMMIT_DONE

/-- CLEAR of plan p: made at once, or held while a copy of the plan is in progress or starts in this clock (R166). -/
def State.stowClear (s : State) (p : Nat) : State :=
  if s.copyHolds p then
    { s.setReg STOW_CMD (w32 (p + 2 ^ 9 + 2 ^ 31)) with tide := { s.tide with clears := [p] } }
  else s.clearPlan p

/-- A held CLEAR is made once no copy of its plan is in progress. -/
def State.stowHeldClear (s : State) : State :=
  match s.tide.clears with
  | [] => s
  | p :: _ =>
    if s.copyHolds p then s
    else { (s.clearPlan p).setReg STOW_CMD 0 with tide := { s.tide with clears := [] } }

/-- What a write of the STOW block does beside setting its fields. -/
def stowHook (a0 : Nat) (w : Word) (s : State) : State :=
  if a0 = STOW_CMD then
    if STOW_CMD_OP.get w = 1 then s.commitStart w else s.stowClear (STOW_CMD_PLAN.get w)
  else s

end Sys2Proof.Machine
end

