-- ==== Sys2Proof/Machine/Tide.lean ====
section
/-! DEFINITION. The tide engine (03): validation of a bank, start and stop, boundaries and swaps, the issue and landing of
entries, and the TIDE block's registers. What a time step does to it stands in TimeStep.lean. -/
namespace Sys2Proof.Machine

/-! ## Validation (R72, R85) -/

/-- An entry as validation reads it (R65). -/
structure TEnt where
  idx    : Nat
  off    : Nat
  w1     : Nat
  arg0   : Nat
  arg1   : Nat
  poison : Bool
  deriving DecidableEq, Repr

/-- ACTION -/ def TEnt.act (e : TEnt) : Nat := w1Action e.w1
/-- TARGET -/ def TEnt.tgt (e : TEnt) : Nat := w1Target e.w1
/-- PARITY -/ def TEnt.par (e : TEnt) : Nat := w1Parity e.w1

/-- Entries 0 to LEN − 1 of a bank. -/
def State.bankEntries (s : State) (b : Nat) : List TEnt :=
  (List.range (s.bankLen b)).map (fun i =>
    ⟨i, s.entryWord b i 0, s.entryWord b i 1, s.entryWord b i 2, s.entryWord b i 3, s.entryPoison b i⟩)

/-- Some cycle lets both entries act (R85). -/
def parTogether (p q : Nat) : Bool := p == 0 || q == 0 || p == q
/-- Some cycle lets `p` act and the cycle after it lets `q` act (R85). -/
def parAcross (p q : Nat) : Bool := p == 0 || q == 0 || p != q

/-- TARGET lies outside the range of its action, or NOP with TARGET or FLAGS not 0 (R67, R85). -/
def targetBad (e : TEnt) : Bool :=
  match e.act with
  | 0 => e.tgt != 0 || w1Flags e.w1 != 0
  | 1 | 2 | 9 => decide (5 < e.tgt)
  | 4 | 7 => decide (31 < e.tgt)
  | 6 => decide (7 < e.tgt)
  | 8 => decide (24 < e.tgt)
  | 10 => decide (1 < e.tgt)
  | _ => false

/-- Reserved FLAGS bits or PARITY, or byte 7 not 0 (R66). -/
def flagsBad (e : TEnt) : Bool := decide (8 ≤ w1Flags e.w1) || e.par == 3 || bitsOf 31 24 e.w1 != 0

/-- Bytes that a CAPT writes (R84). -/
def captLen (mask arg1 : Nat) : Nat := 8 * popCount 32 mask + 4 * bitsOf 16 16 arg1

/-- A reserved argument bit or encoding, a byte offset that is no multiple of 8, a CAPT past its slot (R67, R85). -/
def State.argBad (s : State) (e : TEnt) : Bool :=
  match e.act with
  | 0 => false
  | 1 => decide (1024 ≤ e.arg0) || decide (768 ≤ e.arg0) || e.arg1 != 0
  | 2 => decide (2 ^ 24 ≤ e.arg1) || e.arg1 == 0
  | 3 => !(e.arg0 == 1 || e.arg0 == 2) || e.arg1 != 0
  | 4 => (if e.tgt < 16 then decide (3 ≤ e.arg0) else !(e.arg0 == 1 || e.arg0 == 2)) || e.arg1 != 0
  | 5 => e.arg0 == 0 || bitsOf 15 12 e.arg1 != 0 || decide (2 ^ 17 ≤ e.arg1) || bitsOf 2 0 e.arg1 != 0
      || (s.hbLineW e.tgt && decide (s.hbSize e.tgt < bitsOf 11 0 e.arg1 + captLen e.arg0 e.arg1))
  | 6 => decide (2 ^ 20 ≤ e.arg0) || bitsOf 10 8 e.arg0 != 0 || e.arg1 != 0
  | 8 => decide (8 ≤ e.arg0) || e.arg1 != 0
  | 10 => decide (16 ≤ e.arg0) || e.arg1 != 0
  | _ => e.arg0 != 0 || e.arg1 != 0

/-- More than 16 entries that act in one cycle lie in e's 4 ns tick, counted up to e: the spec does not say at which of them DENSITY is reported, the
model reports it at the 17th (R85; DESIGN CHOICE, log 101). -/
def densityBad (es : List TEnt) (e : TEnt) : Bool :=
  let n (p : Nat) := (es.filter (fun x => decide (x.idx ≤ e.idx) && x.act != 0 && x.off / 4 == e.off / 4
    && (x.par == 0 || x.par == p))).length
  e.act != 0 && ((e.par != 2 && decide (16 < n 1)) || (e.par != 1 && decide (16 < n 2)))

/-- An earlier entry with the same ACTION and TARGET lies less than 8 ns away, within a cycle or across a boundary (R85). -/
def spacingBad (len : Nat) (es : List TEnt) (e : TEnt) : Bool :=
  e.act != 0 && es.any (fun x => decide (x.idx < e.idx) && x.act == e.act && x.tgt == e.tgt
    && ((parTogether x.par e.par && decide (e.off - x.off < 8)) || (parAcross e.par x.par && decide (len + x.off - e.off < 8))))

/-- Neighbours in a list. -/
def neighbours : List TEnt → List (TEnt × TEnt)
  | a :: b :: t => (a, b) :: neighbours (b :: t)
  | _ => []

/-- From the last entry of one list to the first landing that follows it: the first of the next cycle's list, or of its own two
cycles later (R72). -/
def wrapPair (len : Nat) (l l' : List TEnt) : List (Nat × Nat) :=
  match l.getLast?, l'.head?, l.head? with
  | some a, some b, _ => [(max a.idx b.idx, len + b.off - a.off)]
  | some a, none, some b => [(max a.idx b.idx, 2 * len + b.off - a.off)]
  | _, _, _ => []

/-- Successive GATE landings of port n: the higher index and the distance (R72). -/
def gateSteps (len n : Nat) (es : List TEnt) : List (Nat × Nat) :=
  let g := es.filter (fun x => x.act == 1 && x.tgt == n)
  let ev := g.filter (fun x => x.par != 2)
  let od := g.filter (fun x => x.par != 1)
  (neighbours ev ++ neighbours od).map (fun p => (p.2.idx, p.2.off - p.1.off)) ++ wrapPair len ev od ++ wrapPair len od ev

/-- R72 is broken, as reported at e. -/
def State.guardBad (s : State) (len : Nat) (es : List TEnt) (e : TEnt) : Bool :=
  e.act == 1 && (gateSteps len e.tgt es).any (fun p => p.1 == e.idx && decide (p.2 < s.fld (TIDE_GUARD e.tgt) TIDE_GUARD_GUARD))

/-- A STOW's window widened by the tolerance on both sides, in ns. -/
def TEnt.win (e : TEnt) (tol : Nat) : Nat × Nat :=
  let o := e.off + bitsOf 23 0 e.arg0
  (o - tol, o + bitsOf 23 0 e.arg1 + tol)

/-- The WINDOW condition at e (R85): DELAY, the end of the window, an overlap with an earlier entry's window or its own repeat. -/
def windowBad (tol len : Nat) (es : List TEnt) (e : TEnt) : Bool :=
  let (a, b) := e.win tol
  e.act == 2 && (decide (bitsOf 23 0 e.arg0 < tol) || decide (len < e.off + bitsOf 23 0 e.arg0 + bitsOf 23 0 e.arg1)
    || decide (a + (if e.par = 0 then len else 2 * len) ≤ b)
    || es.any (fun x =>
        let (c, d) := x.win tol
        decide (x.idx < e.idx) && x.act == 2 && x.tgt == e.tgt
          && ((parTogether x.par e.par && decide (c ≤ b) && decide (a ≤ d))
            || (parAcross e.par x.par && decide (c + len ≤ b)) || (parAcross x.par e.par && decide (a + len ≤ d)))))

/-- R80 is broken against the buffers as they stand (R85 ROLE). -/
def State.roleBad (s : State) (e : TEnt) : Bool :=
  match e.act with
  | 2 => match s.planCopy (bitsOf 31 24 e.arg0) with | some c => c.list.any s.enRefused | none => false
  | 3 => if e.arg0 = 1 then !s.hbLineW e.tgt else !s.hbLineR e.tgt
  | 5 => !s.hbLineW e.tgt
  | 6 => !s.hbLineR (bitsOf 7 0 e.arg0)
  | _ => false

/-- The first failing condition of an entry, 0 for none (R85). -/
def State.entryFail (s : State) (len : Nat) (es : List TEnt) (e : TEnt) : Nat :=
  if e.poison then 0x0D
  else if es.any (fun x => x.idx + 1 == e.idx && decide (e.off < x.off)) then 0x02
  else if len ≤ e.off then 0x03
  else if 10 < e.act then 0x04
  else if targetBad e then 0x05
  else if flagsBad e then 0x06
  else if s.argBad e then 0x07
  else if densityBad es e then 0x08
  else if spacingBad len es e then 0x09
  else if s.guardBad len es e then 0x0A
  else if windowBad (s.fld TIDE_WIN_TOL TIDE_WIN_TOL_TOL) len es e then 0x0B
  else if s.roleBad e then 0x0C
  else 0

/-- The first failure of a bank as (index, reason), none if it passes (R85). -/
def State.bankCheck (s : State) (b : Nat) : Option (Nat × Nat) :=
  let len := s.bankCycle b
  if s.bankLen b = 0 ∨ 8192 < s.bankLen b ∨ len < 2000 ∨ 1000000000 < len then some (0, 1)
  else
    let es := s.bankEntries b
    es.findSome? (fun e => let r := s.entryFail len es e; if r = 0 then none else some (e.idx, r))

/-- The bank is ACTIVE, or held as if ACTIVE by a committed swap (R87). -/
def State.bankHeld (s : State) (b : Nat) : Bool := s.bankState b == 4 || (s.tide.commit && s.activeBank == 1 - b)

/-- VALIDATE bit of bank b. -/
def validateBit (b : Nat) : Fld := if b = 0 then TIDE_CMD_VALIDATE_A else TIDE_CMD_VALIDATE_B

/-- VALIDATE of bank b is written (R85): ignored for the active bank. -/
def State.validate (s : State) (b : Nat) : State :=
  if s.bankHeld b then s.clrB TIDE_CMD (validateBit b)
  else ((s.setB TIDE_CMD (validateBit b)).setBankState b 1).setReg (TIDE_BANK_FAIL b) 0

/-- The plans that the check of ROLE reads, up to the bank's first failure (R27, R85). -/
def State.roleReads (s : State) (b : Nat) : State :=
  let upto (e : TEnt) : Bool := match s.bankCheck b with
    | some (i, r) => decide (e.idx < i) || (e.idx == i && r == 0x0C)
    | none => true
  if s.mm.soft.isEmpty then s
  else ((s.bankEntries b).filter (fun e => e.act == 2 && upto e)).foldl (fun s e => s.planEcc (bitsOf 31 24 e.arg0)) s

/-- A validation finishes (R85). -/
def validationEnd (b : Nat) (s : State) : State :=
  if s.bankState b = 1 then
    let s := ((s.clrB TIDE_CMD (validateBit b)).eccRead (bankAddr b 0) (16 * s.bankLen b)).roleReads b
    match s.bankCheck b with
    | some (i, r) =>
      ((s.setBankState b 3).setReg (TIDE_BANK_FAIL b) (w32 (i % 2 ^ 13 + 2 ^ 16 * r))).setB TIDE_STATUS TIDE_STATUS_VALID_FAIL
    | none => (s.setBankState b 2).setB TIDE_STATUS TIDE_STATUS_VALID_DONE
  else s

/-- A write to a bank that is not active returns it to EMPTY and abandons its validation (R86). -/
def State.bankTouch (s : State) (b : Nat) : State := (s.clrB TIDE_CMD (validateBit b)).setBankState b 0

/-! ## Start, stop, boundaries, swaps (R62, R63, R87, R88) -/

/-- TIDE_BASE as an instant. -/
def State.tideBase (s : State) : Nat := s.instantNow (s.reg TIDE_BASE_SEC).toNat (s.fld TIDE_BASE_NS TIDE_BASE_NS_NS)

/-- The start conditions of R63. -/
def State.tideStartOk (s : State) : Bool :=
  s.bankState (s.fld TIDE_CTL TIDE_CTL_START_BANK) == 2 && decide (s.time.tod + tideAhead ≤ s.tideBase)

/-- The engine starts (R63). -/
def State.tideStart (s : State) : State :=
  let b := s.fld TIDE_CTL TIDE_CTL_START_BANK
  let base := s.tideBase
  let s := ((s.setB TIDE_CTL TIDE_CTL_RUNNING).putF TIDE_CTL TIDE_CTL_ACTIVE_BANK b).setBankState b 4
  let s := ((s.putF TIDE_CYCLE TIDE_CYCLE_LENGTH (s.bankCycle b)).setReg TIDE_CYCLE_CNT 0).setReg TIDE_BASE_CNT 0
  s.modTide fun t => { t with start := base, commit := false, issued := [], issuedN := [], flight := [] }

/-- RUN is written, `old` being TIDE_CTL before the write (R63). -/
def State.tideRun (s : State) (old w : Word) : State :=
  if TIDE_CTL_RUN.get w = 0 then s
  else if s.tideRuns then s.putF TIDE_CTL TIDE_CTL_RUN (TIDE_CTL_RUN.get old)
  else if s.tideStartOk then s.tideStart
  else (s.clrB TIDE_CTL TIDE_CTL_RUN).setB TIDE_STATUS TIDE_STATUS_START_REFUSED

/-- A swap is committed (R87). What the old bank has already issued for the cycle that begins at the boundary is forgotten, since no entry of it
lands from there on; such an entry exists only where a step back (R90) let the swap be armed for a boundary whose entries were being issued. -/
def State.swapCommit (s : State) : State :=
  (s.modTide fun t => { t with commit := true, committed := s.time.tick, issuedN := [], flight := t.flight.filter fun x => !x.next }).stowHeldClear

/-- The swap is decided: committed if the shadow bank is VALID, refused otherwise (R87). -/
def State.swapDecide (s : State) : State :=
  let s := s.clrB TIDE_CMD TIDE_CMD_SWAP_ARM
  if s.bankState (1 - s.activeBank) = 2 then s.swapCommit else s.setB TIDE_STATUS TIDE_STATUS_SWAP_REFUSED

/-- 400 ns before the boundary the swap is decided. -/
def swapDecision (s : State) : State :=
  if s.tideRuns && s.swapHere && decide (s.curCycle.fin ≤ s.time.tod + 400 * 2 ^ 32) then s.swapDecide else s

/-- SWAP_ARM is written, `old` being TIDE_CMD before the write. -/
def State.swapArm (s : State) (old : Word) : State :=
  if TIDE_CMD_SWAP_ARM.get old = 0 then s.modTide fun t => { t with armedAt := s.time.tod } else s

/-- The decision of an armed swap is due (R87). -/
def State.swapDue (s : State) : Bool := s.tideRuns && s.swapHere && decide (s.curCycle.fin ≤ s.time.tod + 400 * 2 ^ 32)

/-- SWAP_DISARM (R88): a decision of the same clock comes first. -/
def State.swapDisarm (s : State) : State :=
  if s.swapArmed && !s.swapDue then s.clrB TIDE_CMD TIDE_CMD_SWAP_ARM
  else
    let s := if s.swapDue then s.swapDecide else s
    s.setIf (s.tide.commit && s.tide.committed == s.time.tick) TIDE_STATUS TIDE_STATUS_DISARM_LATE

/-- A committed swap takes effect at the boundary `e` (R87). -/
def State.swapTake (s : State) (e : Nat) : State :=
  let b := 1 - s.activeBank
  let s := ((s.setBankState (1 - b) 2).setBankState b 4).putF TIDE_CTL TIDE_CTL_ACTIVE_BANK b
  let s := ((s.putF TIDE_BASE_NS TIDE_BASE_NS_NS (todNs e)).setReg TIDE_BASE_SEC (w32 (todSec e))).setReg TIDE_BASE_CNT (s.reg TIDE_CYCLE_CNT)
  ((s.putF TIDE_CYCLE TIDE_CYCLE_LENGTH (s.bankCycle b)).setB TIDE_STATUS TIDE_STATUS_SWAP_DONE).modTide
    fun t => { t with commit := false }

/-- A pending stop lands (R63): gates open, windows drop, the bank returns to VALID, an armed swap is disarmed, and nothing issued
lands any more. A preemption HOLD in force stays: the spec does not say what becomes of it (DESIGN CHOICE, log 101). -/
def State.tideStopLands (s : State) : State :=
  let s := ((s.setBankState s.activeBank 2).clrB TIDE_CTL TIDE_CTL_RUNNING).clrB TIDE_CMD TIDE_CMD_SWAP_ARM
  let s := s.forN 6 (fun s n => s.modPort n fun p => { p with fcWait := 0 })
  (s.modTide fun t => { t with gates := [], win := [], flight := [], issued := [], issuedN := [] }).stowHeldClear

/-- The boundary at the end of the current cycle. A RUN written 0 after the start and before TIDE_BASE stops the engine at the end of cycle 0: the spec
does not say whether TIDE_BASE is a boundary (DESIGN CHOICE, log 101). -/
def State.boundary (s : State) : State :=
  let e := s.curCycle.fin
  if s.tideStopping then (if s.tide.commit then s.swapTake e else s).tideStopLands
  else
    let c := (s.reg TIDE_CYCLE_CNT).toNat
    let s := (s.setReg TIDE_CYCLE_CNT (w32 (c + 1))).setIf (c + 1 == 2 ^ 32) TIDE_STATUS TIDE_STATUS_WRAP
    let s := if s.tide.commit then s.swapTake e else s
    s.modTide fun t => { t with
      start := e, issued := t.issuedN, issuedN := [], flight := t.flight.map (fun x => { x with next := false }) }

/-- Every entry of the current cycle has been issued and has landed. -/
def State.cycleServed (s : State) : Bool :=
  (List.range (s.bankLen s.activeBank)).all (fun i => s.tide.issued.contains i) && s.tide.flight.all (fun x => x.next)

/-- At its instant the boundary comes, after everything that precedes it (R62). -/
def cycleBoundary (s : State) : State :=
  if s.tideRuns && decide (s.curCycle.fin ≤ s.time.tod) && s.cycleServed && !s.swapHere then s.boundary else s

/-! ## Issue (R68) -/

/-- The earlier of two, the first on a tie. -/
def earlier (a b : Nat × Bool × Nat) : Nat × Bool × Nat := if b.1 < a.1 then b else a

/-- The entry to be issued next. -/
def State.nextIssue (s : State) : Option (Nat × Bool × Nat) :=
  match s.waitIssue with
  | [] => none
  | x :: t => some (t.foldl earlier x)

/-- Issue entry i of a cycle: poison is dropped, PARITY skips without a trace, a STOW takes its copy (R66, R70, R150). -/
def State.issue (s : State) (c : CycleAt) (next : Bool) (i : Nat) : State :=
  let s := s.modTide fun t =>
    if next then { t with issuedN := ninsert i t.issuedN } else { t with issued := ninsert i t.issued }
  let w1 := s.entryWord c.bank i 1
  let a0 := s.entryWord c.bank i 2
  let s := s.eccRead (bankAddr c.bank i) 16
  if s.entryPoison c.bank i then s.tideDrop c.bank i dropPOISON
  else if !parityActs (w1Parity w1) c.cnt ∨ 10 < w1Action w1 then s
  else
    let x : Issued := { bank := c.bank, idx := i, lands := s.entryLands c i, next := next, w1 := w1, arg0 := a0,
                        arg1 := s.entryWord c.bank i 3,
                        copy := if w1Action w1 = 2 then s.planCopy (bitsOf 31 24 a0) else none }
    let s := if w1Action w1 = 2 ∧ s.planValid (bitsOf 31 24 a0) then s.planEcc (bitsOf 31 24 a0) else s
    s.modTide fun t => { t with flight := t.flight ++ [x] }

/-- The engine issues the earliest entry whose instant of issue has come (R68). -/
def entryIssue (s : State) : State :=
  match s.nextIssue with
  | some (t, next, i) =>
    if s.tideRuns ∧ t ≤ s.time.tod then s.issue (if next then s.nextCycle else s.curCycle) next i else s
  | none => s

/-! ## Landing (R67, R69, R70) -/

/-- The entry in flight that lands next: the earliest, in entry order within an instant. -/
def State.landing (s : State) : Option Issued :=
  match s.tide.flight with
  | [] => none
  | x :: t => some (t.foldl (fun a b => if b.lands < a.lands ∨ (b.lands = a.lands ∧ b.idx < a.idx) then b else a) x)

/-- An entry that still waits to be issued lands before `x`, or with it and ahead of it in entry order (R69). -/
def State.issueFirst (s : State) (x : Issued) : Bool := s.waitIssue.any (fun (_, next, i) =>
  let l := s.entryLands (if next then s.nextCycle else s.curCycle) i
  decide (l < x.lands) || (l == x.lands && next == x.next && decide (i < x.idx)))

/-- ACTION -/ def Issued.act (x : Issued) : Nat := w1Action x.w1
/-- TARGET -/ def Issued.tgt (x : Issued) : Nat := w1Target x.w1

/-- What landing an entry comes to: performed, held on its buffer (R83), or dropped with a reason (R70). -/
inductive Landed where
  | performed (s : State)
  | held (s : State)
  | dropped (reason : Nat)

/-- PORT reset holds port n (R64). -/
def State.portHeld (s : State) (n : Nat) : Bool := (s.portOf n).reset

/-- GATE lands (R71): the gates, hold or release, and frames overrun by a closing gate. -/
def State.landGate (s : State) (x : Issued) : Landed :=
  let n := x.tgt
  if s.portHeld n then .dropped dropRESET
  else
    let g := bitsOf 7 0 x.arg0
    let p := s.portOf n
    let excess := (p.tx.toList ++ p.cut.toList).filter (fun f => bitOf f.cls (s.gates n) && !bitOf f.cls g)
    let s := excess.foldl (fun s _ => (s.count (TIDE_WIN_OVERRUN n)).setB TIDE_STATUS TIDE_STATUS_OVERRUN) s
    .performed (((s.setGates n g).gateHold n (bitsOf 9 8 x.arg0)).fcGate n (bitOf 7 (s.gates n)) (bitOf 7 g))

/-- An acquire at arming (R73): refused by R80, it is dropped with the STOW's index. -/
def State.armAcquire (s : State) (x : Issued) (b : Nat) : State :=
  if s.hbLineR b then s.hbOp b { publish := false, by' := .tide x.bank x.idx } else s.tideDrop x.bank x.idx dropHB

/-- STOW lands (R73, R150). -/
def State.landStow (s : State) (x : Issued) : Landed :=
  let n := x.tgt
  if s.portHeld n then .dropped dropRESET
  else
    match x.copy with
    | none => .performed (((s.setWin n none).count (STOW_NOPLAN n)).setB STOW_STATUS STOW_STATUS_NOPLAN)
    | some c =>
      let o := x.lands + bitsOf 23 0 x.arg0 * 2 ^ 32
      let s := s.setWin n (some { copy := c, opens := o, closes := o + bitsOf 23 0 x.arg1 * 2 ^ 32, bank := x.bank, idx := x.idx })
      .performed (c.insertBufs.foldl (fun s b => s.armAcquire x b) s)

/-- An operation of entry x lands on buffer n: it is performed at once, or held (R83). -/
def State.landHb (s : State) (x : Issued) (late : Bool) (n : Nat) (publish : Bool) (by' : HbBy) : Landed :=
  let o : HeldOp := { publish := publish, by' := by', mark := bitOf 18 x.w1, late := late }
  if s.hbWaits n o then .held (s.hbOp n o) else .performed (s.hbOp n o)

/-- HAND lands (R80 to R83). -/
def State.landHand (s : State) (x : Issued) (late : Bool) : Landed :=
  let pub := x.arg0 % 4 == 1
  if (if pub then s.hbLineW x.tgt else s.hbLineR x.tgt) then s.landHb x late x.tgt pub (.tide x.bank x.idx) else .dropped dropHB

/-- TRIG lands (R42, R51, R53, R54); `late` in a catch-up. -/
def State.landTrig (s : State) (x : Issued) (late : Bool) : Landed :=
  let op := x.arg0 % 4
  if 16 ≤ x.tgt then .performed (s.putB (TCAP_STATUS (x.tgt - 16)) TCAP_STATUS_WINDOW_OPEN (op == 1))
  else if s.fld (TTRIG_CTL x.tgt) TTRIG_CTL_MODE ≠ 1 then .dropped dropMODE
  else
    let s := s.setIf (late && op != 2 && !s.safe) (TTRIG_CTL x.tgt) TTRIG_CTL_SKIP
    .performed (if op = 0 then s.trigPulse x.tgt else if op = 1 then s.trigDrive x.tgt else s.trigRelease x.tgt)

/-- The status word of CAPT (R341). -/
def State.encStatusWord (s : State) : Nat := packBits ((List.range 32).map (fun n => (s.encOf n).qrec))

/-- The bytes that CAPT writes (R84). -/
def State.captBytes (s : State) (mask arg1 : Nat) : List Nat :=
  ((List.range 32).filter (fun n => bitOf n mask)).flatMap (fun n => leBytes 8 (unsgn 64 (s.encOf n).count))
    ++ (if bitOf 16 arg1 then leBytes 4 s.encStatusWord else [])

/-- CAPT lands (R84, R341): the values are latched, and are in PIM up to 400 ns (100 ticks) later. -/
def State.landCapt (s : State) (x : Issued) : Landed :=
  if s.hbLineW x.tgt then
    let c : CaptWrite := ⟨x.tgt, s.hbW x.tgt + bitsOf 11 0 x.arg1, s.captBytes x.arg0 x.arg1, s.time.tick + Config.freeNat s.free % 101⟩
    let s := (s.modTide fun t => { t with capt := t.capt ++ [c] }).tickFree
    .performed (if bitOf 16 x.arg1 then s.forN 32 (fun s n => s.setEnc n { s.encOf n with qrec := false }) else s)
  else .dropped dropHB

/-- MOTN lands (R315). -/
def State.landMotn (s : State) (x : Issued) (late : Bool) : Landed :=
  let b := bitsOf 7 0 x.arg0
  if s.hbLineR b then s.landHb x late b false (.motn x.bank x.idx x.tgt (bitsOf 19 8 x.arg0)) else .dropped dropHB

/-- DMAS lands (R64, R70, R260). -/
def State.landDmas (s : State) (x : Issued) : Landed :=
  if s.rst.core then .dropped dropRESET
  else if s.dmaActive x.tgt then .dropped dropBUSY
  else .performed (s.dmaStart x.tgt)

/-- EVNT lands (R64, R182). -/
def State.landEvnt (s : State) (x : Issued) : Landed :=
  if s.rst.core || s.engineHeld x.tgt then .dropped dropRESET else .performed (s.raiseEv x.tgt (x.arg0 % 8))

/-- WAKE lands (R140). -/
def State.landWake (s : State) (x : Issued) : Landed :=
  if s.portHeld x.tgt then .dropped dropRESET else .performed (s.portWake x.tgt)

/-- ADCS lands (R343). -/
def State.landAdcs (s : State) (x : Issued) : Landed :=
  if (s.adcOf x.tgt).busy then .dropped dropBUSY else .performed (s.adcStart x.tgt (x.arg0 % 16))

/-- An entry's action lands. -/
def State.landAct (s : State) (x : Issued) (late : Bool) : Landed :=
  match x.act with
  | 1 => s.landGate x
  | 2 => s.landStow x
  | 3 => s.landHand x late
  | 4 => s.landTrig x late
  | 5 => s.landCapt x
  | 6 => s.landMotn x late
  | 7 => s.landDmas x
  | 8 => s.landEvnt x
  | 9 => s.landWake x
  | 10 => s.landAdcs x
  | _ => .performed s

/-- The values of a CAPT are in PIM: a line-side write (R80, R84). -/
def State.captPut (s : State) (c : CaptWrite) : State := (s.store c.addr c.bytes).setB (TIDE_HB_STATE c.buf) TIDE_HB_STATE_WRITTEN

/-- The values of every CAPT that has had its time are put into PIM (R84). -/
def captLand (s : State) : State :=
  let l := s.tide.capt
  (l.filter (fun c => decide (c.ends ≤ s.time.tick))).foldl State.captPut
    (s.modTide fun t => { t with capt := l.filter (fun c => !decide (c.ends ≤ s.time.tick)) })

/-- One TSCLK tick: the pins' synchronisers move on (R351), the time advances (R32), low-power idle is counted (R142), the encoders'
filters take what has been stable for FILT (R338), and CAPT values come into PIM (R84). -/
def tickAdvance (s : State) : State :=
  captLand (((timeAdvance (s.forN 8 State.pioSync)).forN 6 fun s n => lpiTick n s).forN 32 fun s n => encSettle n s)

/-- An entry in flight lands: it leaves the flight, is performed, held or dropped; a CLEAR that waited for its copy is made. -/
def State.land (s : State) (x : Issued) (late : Bool) : State :=
  let s := s.modTide fun t => { t with flight := t.flight.erase x }
  let s := match s.landAct x late with
    | .performed s' => s'.performed x.bank x.idx (bitOf 18 x.w1) late
    | .held s' => s'
    | .dropped r => s.tideDrop x.bank x.idx r
  s.stowHeldClear

/-- The next entry to land lands, if its instant has come, it is one of these actions and no entry to be issued goes ahead of it. -/
def tideLand (p : Issued → Bool) (s : State) : State :=
  match s.landing with
  | some x => if p x && decide (x.lands ≤ s.time.tod) && !s.issueFirst x then s.land x false else s
  | none => s

/-- A frame that arrived on port n by `t` is not judged yet. -/
def State.rxUnjudged (s : State) (n t : Nat) : Bool :=
  match (s.portOf n).rx with
  | some r => r.front.isNone && decide (r.ts ≤ t)
  | none => false

/-- A window whose tolerance has ended is dropped (R73); a frame that arrived before that is judged first. -/
def windowExpiry (n : Nat) (s : State) : State :=
  match s.winOf n with
  | some w => if w.closes + s.winTol < s.time.tod ∧ !s.rxUnjudged n (w.closes + s.winTol) then s.setWin n none else s
  | none => s

/-! ## The TIDE block's registers -/

/-- Writes of the TIDE block that are discarded whole (R24, R63, R74, R78, R81, R86, R92). -/
def tideBad (s : State) (a0 i : Nat) (w : Word) : Bool :=
  if a0 = TIDE_CMD then TIDE_CMD_SWAP_ARM.get w != 0 && TIDE_CMD_SWAP_DISARM.get w != 0
  else if a0 = TIDE_BASE_NS then decide (999999999 < TIDE_BASE_NS_NS.get w)
  else if a0 = TIDE_WIN_TOL then TIDE_WIN_TOL_TOL.get w % 4 != 0 || decide (4096 < TIDE_WIN_TOL_TOL.get w)
  else if a0 = TIDE_BANK_CYCLE 0 ∨ a0 = TIDE_BANK_LEN 0 then s.bankHeld i
  else if a0 = TIDE_HB_CFG 0 then s.hbCfgBad i w
  else if a0 = TIDE_HB_CMD then
    TIDE_HB_CMD_OP.get w == 0 || TIDE_HB_CMD_OP.get w == 3 || !s.hbEn (TIDE_HB_CMD_BUFFER.get w)
  else false

/-- Locks of the TIDE block: START_BANK, the base and the tolerance while running, the swap instant while a swap is armed. -/
def tideLocked (s : State) (a0 : Nat) : Bool :=
  if a0 = TIDE_SWAP_AT_NS ∨ a0 = TIDE_SWAP_AT_SEC then s.swapArmed else s.tideRuns

/-- What a write of TIDE_CMD does. -/
def State.tideCommand (s : State) (old w : Word) : State :=
  let s := if TIDE_CMD_VALIDATE_A.get w ≠ 0 then s.validate 0 else s
  let s := if TIDE_CMD_VALIDATE_B.get w ≠ 0 then s.validate 1 else s
  let s := if TIDE_CMD_SWAP_ARM.get w ≠ 0 then s.swapArm old else s
  if TIDE_CMD_SWAP_DISARM.get w ≠ 0 then s.swapDisarm else s

/-- What a write of the TIDE block does beside setting its fields. -/
def tideHook (a0 i : Nat) (old w : Word) (s : State) : State :=
  if a0 = TIDE_CTL then s.tideRun old w
  else if a0 = TIDE_CMD then s.tideCommand old w
  else if a0 = TIDE_BANK_CYCLE 0 ∨ a0 = TIDE_BANK_LEN 0 then s.bankTouch i
  else if a0 = TIDE_HB_CFG 0 then
    if TIDE_HB_CFG_EN.get old = 0 ∧ TIDE_HB_CFG_EN.get w ≠ 0 then s.hbEnable i
    else if TIDE_HB_CFG_EN.get w = 0 then s.hbDisable i else s
  else if a0 = TIDE_HB_CMD then s.hbCommand w
  else s

/-- SRC bits of TIDE_SUMMARY (R94). -/
def tideSrc (s : State) : Nat := (s.reg TIDE_STATUS).toNat % 2 ^ 16

end Sys2Proof.Machine
end

