-- ==== Sys2Proof/Machine/TimeStep.lean ====
section
/-! DEFINITION. The application of time commands (R32, R34 to R37) and what a step of the time of day does to the triggers
(R42) and the tide engine (R90). -/
namespace Sys2Proof.Machine

/-! ## Catch-up of the tide engine (R90) -/

/-- Entry i of the current cycle, not yet landed, is performed if its instant is at most `t`; `old` is the time before the step. -/
def State.catchOne (old t : Nat) (s : State) (i : Nat) : State :=
  let c := s.curCycle
  let l := s.entryLands c i
  if t < l then s
  else
    let s := if s.tide.issued.contains i then s else s.issue c false i
    match s.tide.flight.find? (fun x => x.idx == i && !x.next) with
    | some x => s.land x (decide (old < l))
    | none => s

/-- The entries of the current cycle up to `t`, in entry order. -/
def State.catchCycle (s : State) (old t : Nat) : State :=
  (List.range (s.bankLen s.activeBank)).foldl (State.catchOne old t) s

/-- Some entry of the current cycle that acts in it and has still to land falls in (old, t]. -/
def State.catchAny (s : State) (old t : Nat) : Bool :=
  let c := s.curCycle
  anyN (s.bankLen c.bank) (fun i => parityActs (w1Parity (s.entryWord c.bank i 1)) c.cnt
    && decide (old < s.entryLands c i) && decide (s.entryLands c i ≤ t)
    && (s.tide.flight.any (fun x => x.idx == i && !x.next) || (!s.tide.issued.contains i && !s.entryPoison c.bank i)))

/-- An armed swap of the boundary ahead is decided. -/
def State.crossSwap (s : State) : State := if s.swapHere then s.swapDecide else s

/-- Boundaries up to `t` are crossed; each cycle left behind was skipped. -/
def crossAll : Nat → Nat → State → State
  | 0, _, s => s
  | k + 1, t, s =>
    if s.tideRuns ∧ s.curCycle.fin ≤ t then crossAll k t ((s.crossSwap.boundary).count TIDE_CYCLES_SKIPPED) else s

/-- A forward step from `old` to `t` (R90). One that crosses no boundary sets STEP_CATCHUP if an acting entry still to land falls in the interval, be
it dropped then: R90's "Either kind" may mean the steps over one boundary and over several only (DESIGN CHOICE, log 101). -/
def State.tideCatchUp (s : State) (old t : Nat) : State :=
  if !s.tideRuns then s
  else if t < s.curCycle.fin then (s.setIf (s.catchAny old t) TIDE_STATUS TIDE_STATUS_STEP_CATCHUP).catchCycle old t
  else
    let s := (s.setB TIDE_STATUS TIDE_STATUS_STEP_CATCHUP).crossSwap
    if !s.tideStopping && decide (s.nextCycle.fin ≤ t) then
      let n := (t - s.curCycle.fin) / (2000 * 2 ^ 32) + 2
      let s := s.modTide fun x => { x with flight := [], issuedN := [] }
      ((crossAll n t s).catchCycle old t).stowHeldClear
    else
      let s := (s.catchCycle old t).boundary
      if s.tideRuns then s.catchCycle old t else s

/-! ## STEP, SET, INC -/

/-- An instant of the time-triggered unit's time, one turn up where that is the time of day. -/
def State.ttUp (s : State) (t : Nat) : Nat := if s.bit TT_CTL TT_CTL_SLAVE_TB then t + todMod else t
/-- What was latched at an SOF, one turn up. -/
def State.sofUp (s : State) (x : CanSof) : CanSof := { x with ts := x.ts + todMod, at' := s.ttUp x.at' }
/-- The end of a window, one turn up; 0 stays the mark of a frame that is not sent again. -/
def State.tillUp (s : State) (t : Nat) : Nat := if t = 0 then 0 else s.ttUp t
/-- A transmission, one turn up. -/
def txUp (t : TxFrame) : TxFrame := { t with ts := t.ts + todMod }

/-- The time line and every instant that the state holds on it move up by one turn, which changes nothing that anything reads: a negative step then
has room (R31). -/
def State.liftTime (s : State) : State :=
  { s with
    time := { s.time with tod := s.time.tod + todMod, trig := s.time.trig.map fun p => (p.1, { p.2 with next := p.2.next + todMod }) }
    tide := { s.tide with
      start := s.tide.start + todMod, armedAt := s.tide.armedAt + todMod,
      flight := s.tide.flight.map fun x => { x with lands := x.lands + todMod },
      win := s.tide.win.map fun p => (p.1, p.2.map fun w => { w with opens := w.opens + todMod, closes := w.closes + todMod }) }
    sw := { s.sw with frames := s.sw.frames.map fun p => (p.1, p.2.map fun f => { f with ts := f.ts + todMod }) }
    port := tmap (fun _ => {}) (fun p => { p with
      rx := p.rx.map fun r => { r with ts := r.ts + todMod }, tx := p.tx.map txUp, cut := p.cut.map txUp }) s.port
    qe := tmap (fun _ => {}) (fun x => match x.wait with | .until t => { x with wait := .until (t + todMod) } | _ => x) s.qe
    can := tmap (fun _ => {}) (fun x => { x with
      tx := x.tx.map fun o => { o with sof := s.sofUp o.sof, till := o.till.map s.tillUp }, rx := x.rx.map s.sofUp,
      spec := x.spec.map fun c => { c with till := c.till.map s.ttUp } }) s.can
    tt := { s.tt with cycAt := s.ttUp s.tt.cycAt }
    tickAt := s.tickAt + todMod / (1000 * 2 ^ 32) }

/-- The time of day moves by `d`: a forward step catches up, a backward one waits (R42, R90, R295). -/
def State.todMove (s : State) (d : Int) : State :=
  let s := if (s.time.tod : Int) + d < 0 then s.liftTime else s
  let old := s.time.tod
  let t := todAdd old d
  let s := s.modTime fun x => { x with tod := t }
  if 0 < d then (s.tideCatchUp old t).forN 16 (fun s n => s.trigStepLate old t n) else s

/-- A refused STEP or SET (R35, R37): the value in 2^-16 ns and KIND. -/
def State.timeRefuse (s : State) (v : Int) (kind : Nat) : State :=
  let v := clampI (-(2 ^ 47)) (2 ^ 47 - 1) v
  let b := unsgn 48 v
  let s := (s.setReg TIME_REFUSED_LO (w32 b)).setReg TIME_REFUSED_HI (w32 (b / 2 ^ 32 + 2 ^ 31 * kind))
  ((s.setB TIME_STATUS TIME_STATUS_JUMP_REFUSED).count TIME_REFUSED_CNT).logEv 0x21 (min ((absI v).toNat / 2 ^ 16) (2 ^ 32 - 1))

/-- TIME_STEP as a signed number of 2^-16 ns. -/
def State.timeStep (s : State) : Int := sgn 48 ((s.reg TIME_STEP_LO).toNat + 2 ^ 32 * s.fld TIME_STEP_HI TIME_STEP_HI_STEP)

/-- FORCE_JUMP is armed. -/
def State.forceJump (s : State) : Bool := s.bit TIME_CMD TIME_CMD_FORCE_JUMP

/-- A pending STEP is applied (R35, R36). -/
def stepApply (s : State) : State :=
  if s.bit TIME_CMD TIME_CMD_STEP then
    let v := s.timeStep
    let ok := s.forceJump || decide (absI v ≤ (s.fld TIME_JUMP_LIMIT TIME_JUMP_LIMIT_LIMIT * 2 ^ 16 : Nat))
    let s := (s.clrB TIME_CMD TIME_CMD_STEP).clrB TIME_CMD TIME_CMD_FORCE_JUMP
    if ok then (s.todMove (v * 2 ^ 16)).restartWdog else s.timeRefuse v 0
  else s

/-- TIME_SET as an instant. -/
def State.timeSet (s : State) : Nat :=
  instant ((s.reg TIME_SET_SEC_LO).toNat + 2 ^ 32 * s.fld TIME_SET_SEC_HI TIME_SET_SEC_HI_SEC) (s.fld TIME_SET_NS TIME_SET_NS_NS)
    + s.fld TIME_SET_FRAC TIME_SET_FRAC_FRAC * 2 ^ 16

/-- What an accepted SET moves the time of day by (R37). -/
def State.setMove (s : State) : Int := (s.timeSet : Int) - (s.time.tod % todMod : Nat)

/-- TIME_SET less the time as SEC, NS and FRAC show it, in units of 2^-16 ns (R37). -/
def State.setDiff (s : State) : Int := (s.timeSet / 2 ^ 16 : Nat) - (s.time.tod % todMod / 2 ^ 16 : Nat)

/-- A pending SET is applied (R36, R37): accepted in FREE or with FORCE_JUMP. -/
def setApply (s : State) : State :=
  if s.bit TIME_CMD TIME_CMD_SET then
    let ok := s.forceJump || s.fld TIME_CTL TIME_CTL_STATE == 0
    let d := s.setMove
    let v := s.setDiff
    let s := (s.clrB TIME_CMD TIME_CMD_SET).clrB TIME_CMD TIME_CMD_FORCE_JUMP
    if ok then s.todMove d else s.timeRefuse v 1
  else s

/-- A pending INC is applied (R32, R40): before the tick of application advances the time by it, so that the watchdog counts from that tick, the
next one. -/
def incApply (s : State) : State :=
  if s.bit TIME_CMD TIME_CMD_INC then
    ((s.clrB TIME_CMD TIME_CMD_INC).modTime fun t => { t with inc := s.timeInc }).restartWdogAt 1
  else s

end Sys2Proof.Machine
end

