-- ==== Sys2Proof/Machine/TimeTrig.lean ====
section
/-! DEFINITION. The time-triggered unit (10, R281 to R290): validation, basic cycles, triggers, time masters, application buffers; the
complete transmission and reception of the controllers, and what writes of the CAN block do. -/
namespace Sys2Proof.Machine

/-- STATE of TT_STATE is set. -/
def State.ttSet (s : State) (v : Nat) : State := s.putF TT_STATE TT_STATE_STATE v
/-- ROLE of TT_STATE. -/
def State.ttRole (s : State) : Nat := s.fld TT_STATE TT_STATE_ROLE
/-- Length of a basic cycle in the unit's time. -/
def State.ttLen (s : State) : Nat := s.fld TT_CYCLE_LEN TT_CYCLE_LEN_NTU * s.ttNtu
/-- Basic cycles of the matrix (R282). -/
def State.ttCycles (s : State) : Nat := 2 ^ s.fld TT_CTL TT_CTL_CC_EXP
/-- Triggers of the list. -/
def State.ttCount (s : State) : Nat := s.fld TT_TRIG_CNT TT_TRIG_CNT_COUNT
/-- An update of every controller in use. -/
def State.ttEach (s : State) (f : State → Nat → State) : State := s.forN 2 fun s n => if s.ttUses n then f s n else s

/-! ## Validation (R284) -/

/-- Reserved bits of a trigger's two words, or a reserved code. -/
def trigCodeBad (a b : Nat) : Bool :=
  decide (5 ≤ taType a) || decide (6 < taRep a) || decide (2 ^ taRep a ≤ taBase a) || bitOf 19 a || bitOf 23 a || bitOf 30 a
    || (if taType a = 1 then b / 2 ^ 20 != 0 else if taType a = 3 then b / 2 ^ 30 != 0
        else if taType a = 4 then b != 0 else b / 2 ^ 16 != 0)

/-- Two triggers act in a common cycle of the matrix. -/
def State.trigMeet (s : State) (a a' : Nat) : Bool := anyN s.ttCycles (fun c => taActs a c && taActs a' c)

/-- The window of trigger k overlaps that of an earlier trigger in a common cycle. -/
def State.trigOverlap (s : State) (k : Nat) : Bool :=
  let a := s.trigA k
  taWindow a && anyN k fun j =>
    let a' := s.trigA j
    taEn a' && taWindow a' && s.trigMeet a a'
      && decide (taMark a < taMark a' + tbLen (s.trigB j)) && decide (taMark a' < taMark a + tbLen (s.trigB k))

/-- TIME_MARK of the last enabled trigger before k. -/
def State.trigPrev (s : State) (k : Nat) : Nat :=
  (List.range k).foldl (fun m j => if taEn (s.trigA j) then taMark (s.trigA j) else m) 0

/-- The first failing condition of trigger k, by its code (0: none). -/
def State.trigFail (s : State) (k : Nat) : Nat :=
  let a := s.trigA k
  let len := s.fld TT_CYCLE_LEN TT_CYCLE_LEN_NTU
  if !taEn a then 0
  else if taMark a < s.trigPrev k then 1
  else if len ≤ taMark a ∨ (taWindow a ∧ len < taMark a + tbLen (s.trigB k)) then 2
  else if trigCodeBad a (s.trigB k) then 3
  else if s.trigOverlap k then 4
  else 0

/-- A reference trigger at TIME_MARK 0 acts in every cycle. -/
def State.ttHasRef (s : State) : Bool := anyN s.ttCount fun k =>
  let a := s.trigA k
  taEn a && taType a == 0 && taMark a == 0 && (List.range s.ttCycles).all (taActs a)

/-- A controller that the settings use is not in NORMAL, or a pair's bit timings differ. -/
def State.ttBusBad (s : State) : Bool :=
  let pair := s.bit TT_CTL TT_CTL_PAIR
  let off n := (s.canOf n).mode != 1
  if pair then off 0 || off 1 || s.reg (CAN_NBT 0) != s.reg (CAN_NBT 1) || s.reg (CAN_DBT 0) != s.reg (CAN_DBT 1)
  else off (s.fld TT_CTL TT_CTL_BUS_SEL)

/-- The first failing trigger with its reason, if validation fails. -/
def State.ttValidate (s : State) : Option (Nat × Nat) :=
  match (List.range s.ttCount).find? (fun k => s.trigFail k != 0) with
  | some k => some (k, s.trigFail k)
  | none =>
    if s.bit TT_CTL TT_CTL_TM_EN ∧ !s.ttHasRef then some (0, 5)
    else if s.ttBusBad then some (0, 6)
    else none

/-- The unit starts with nothing synchronised. -/
def State.ttFresh (s : State) : State := s.modTt fun t => { active := t.active }

/-- EN was written as 1 while it was 0 (R284); frames that CAN0 of a pair holds by then are sent on both buses (R290). -/
def State.ttEnable (s : State) : State :=
  match (s.clrB TT_CTL TT_CTL_EN).ttValidate with
  | some (k, r) =>
    ((s.clrB TT_CTL TT_CTL_EN).setB TT_STATUS TT_STATUS_CFG_FAIL).setReg TT_FAIL (w32 (k % 64 + 2 ^ 8 * r))
  | none =>
    let s := ((s.setReg TT_TUR (s.reg TT_NTU)).setReg TT_STATE 1).ttFresh
    let x := s.canOf 0
    if s.ttPair then ((List.range 3).filterMap (fun i => x.buf ((x.next + i) % 3))).foldl State.canCopy s else s

/-- A reference message of a controller is given up: one that waits goes, one on the bus is not sent again (R287). -/
def CanSt.dropRef (x : CanSt) : CanSt :=
  { x with
    spec := if (x.spec.map (·.src)) = some .ref then none else x.spec
    tx := x.tx.map (fun o => if o.src = .ref then { o with till := some 0 } else o) }

/-- EN falls: the unit is off; copies still to be taken up by CAN1 are dropped. -/
def State.ttDisable (s : State) : State :=
  ((s.clrB TT_CTL TT_CTL_EN).setReg TT_STATE 0).ttFresh.forN 2 fun s n => s.modCan n fun x => { x.dropRef with spec := none, late := [] }

/-- A write of TT_CTL (R284, R286): EN written again ends S3. -/
def State.ttCtl (s : State) (old : Word) : State :=
  let on := s.bit TT_CTL TT_CTL_EN
  if TT_CTL_EN.get old = 0 then (if on then s.ttEnable else s)
  else if !on then s.ttDisable
  else if s.ttLevel = 3 then (s.setReg TT_STATE 1).ttFresh
  else s

/-! ## Levels (R286) -/

/-- The error level takes a value; S3 stays until EN is written again, and entry to S2 or S3 is flagged. -/
def State.ttRaise (s : State) (l : Nat) : State :=
  let old := s.ttLevel
  if old = 3 then s
  else (s.putF TT_STATE TT_STATE_ERR_LEVEL l).setIf (decide (2 ≤ l) && l != old) TT_STATUS TT_STATUS_SCHED_ERR

/-! ## Basic cycles (R281, R282, R290) -/

/-- Misses of a bus without a valid reference message in the cycle that ends. -/
def missNext (ok : Bool) (m : Nat) : Nat := if ok then 0 else min 2 (m + 1)

/-- A pair's bus that carried no valid reference message for two cycles is flagged (R290). -/
def State.ttBusFail (s : State) : State :=
  let m0 := missNext (s.tt.refOk.contains 0) s.tt.miss0
  let m1 := missNext (s.tt.refOk.contains 1) s.tt.miss1
  let s := s.modTt fun t => { t with miss0 := m0, miss1 := m1 }
  if s.ttPair then (s.setIf (m0 == 2) TT_STATUS TT_STATUS_BUS_FAIL0).setIf (m1 == 2) TT_STATUS TT_STATUS_BUS_FAIL1 else s

/-- An exclusive frame still waiting is not sent (R285). -/
def State.ttDropSpec (s : State) (n : Nat) : State :=
  match (s.canOf n).spec with
  | some ⟨.excl _, _, _, _, _⟩ => (s.modCan n fun x => { x with spec := none }).ttFail
  | some _ => s.modCan n fun x => { x with spec := none }
  | none => s

/-- A reference message is on a bus of the unit. -/
def State.refOnBus (s : State) : Bool := anyN 2 fun n =>
  s.ttUses n && (((s.canOf n).tx.any (fun o => o.sof.ref)) || ((s.canOf n).rx.any (fun x => x.ref)))

/-- A basic cycle begins at an instant with a cycle count. A reference message still on the bus has started (R283). -/
def State.ttBegin (s : State) (at' cnt : Nat) : State :=
  let s := if s.tt.begun then s.ttBusFail else s
  let s := s.ttEach State.ttDropSpec
  let p := s.tt.pass
  let s := s.modTt fun t =>
    { t with cycAt := at', begun := true, pass := p + 1, nextT := 0, refOn := s.refOnBus, synced := false, refOk := [], seen := [],
             copies := t.copies.filter (fun c => decide (p ≤ c.pass)) }
  s.putF TT_STATE TT_STATE_CYCLE (cnt % s.ttCycles)

/-- The first instant TT_BASE + k × cycle at or after now, and k (R281). -/
def State.ttSlot (s : State) : Nat × Nat :=
  let base := s.instantNow (s.reg TT_BASE_SEC).toNat (s.fld TT_BASE_NS TT_BASE_NS_NS)
  let len := s.ttLen
  if s.ttNow < base ∨ len = 0 then (base, 0) else (base + (s.ttNow - base) / len * len, (s.ttNow - base) / len)

/-- A basic cycle begins where it is due: after the previous one; for a potential master that is not synchronised at its first slot
(R281, R287). -/
def ttCycleStart (level : Nat) (s : State) : State :=
  let tb := s.bit TT_CTL TT_CTL_SLAVE_TB
  let master := s.ttRole == 2 || (s.ttState == 1 && s.bit TT_CTL TT_CTL_TM_EN)
  let at' := s.ttSlot.1
  let k := s.ttSlot.2
  let cnt := if tb && master then k else if s.tt.begun then s.ttCycle + 1 else 0
  let due := s.tt.cycAt + s.ttLen
  let start := if tb && master then at' else if s.tt.begun then due else s.ttNow
  let isDue :=
    if tb && master then decide (at' ≤ s.ttNow) && (!s.tt.begun || decide (s.tt.cycAt < at'))
    else !s.tt.begun || decide (due ≤ s.ttNow)
  if s.ttOn ∧ (2 ≤ s.ttState ∨ master) ∧ isDue then
    (if s.tt.begun then s.ttRaise level else s).ttBegin start cnt
  else s

/-! ## Reference messages (R287) -/

/-- Own priority. -/
def State.ttPrio (s : State) : Nat := s.fld TT_CTL TT_CTL_MASTER_PRIO

/-- Words and payload of the own reference message (R287); what ISO 11898-4 puts beside the cycle count is open here (log 43). -/
def State.refFrame (s : State) : Nat × Nat × List Nat :=
  let id := s.fld TT_REF_ID TT_REF_ID_ID + s.ttPrio
  let n := if s.bit TT_CTL TT_CTL_LEVEL2 then 4 else 1
  (id + 2 ^ 29 * b2n (s.bit TT_REF_ID TT_REF_ID_IDE), n,
   (s.ttCycle + 64 * (Config.freeNat s.free % 4)) :: (List.range (n - 1)).map (fun k => (Config.freeByte (s.free + k)).toNat))

/-- The own reference message waits on every bus in use until an instant; an exclusive frame that still waits there was not sent (R285). -/
def State.sendRef (s : State) (till : Option Nat) : State :=
  let (w0, w1, d) := s.refFrame
  (s.ttEach fun s n => (s.ttDropSpec n).modCan n fun x => { x with spec := some ⟨.ref, w0, w1, d, till⟩ }).tickFree

/-- The master of the network is priority q, and this node has a role; a change is flagged. -/
def State.ttMaster (s : State) (q role : Nat) : State :=
  let changed := s.ttState == 1 || s.fld TT_STATE TT_STATE_MASTER != q || s.ttRole != role
  ((s.putF TT_STATE TT_STATE_MASTER q).putF TT_STATE TT_STATE_ROLE role).setIf changed TT_STATUS TT_STATUS_MASTER_CHANGE

/-- Bus n carried a valid reference message. -/
def State.ttRefOk (s : State) (n : Nat) : State := s.modTt fun t => { t with refOk := ninsert n t.refOk }

/-- The own reference message was sent: this node is master, and its cycle runs from that SOF unless the time base locks it. One that was
still on its bus when another bus brought a reference of higher priority changes nothing (R287). -/
def State.ttRefSent (s : State) (n : Nat) (x : CanSof) : State :=
  let s := s.ttRefOk n
  if s.ttRole = 1 ∧ s.tt.synced then s
  else
  let s := s.ttMaster s.ttPrio 2
  let s := s.ttSet 3
  if s.tt.synced then s
  else s.modTt fun t => { t with synced := true, cycAt := if s.bit TT_CTL TT_CTL_SLAVE_TB then t.cycAt else x.at' }

/-- The reckoning of TUR by a slave at level 2, within its clamp (R281); ISO 11898-4's result is open here (log 43). -/
def State.ttTur (s : State) : State :=
  if s.bit TT_CTL TT_CTL_LEVEL2 ∧ !s.bit TT_CTL TT_CTL_SLAVE_TB then
    let v := Config.freeNat s.free
    let b := (s.reg TT_NTU).toNat
    let lo := b - b / 1024
    let hi := min (b + b / 1024) 0xFFFFFFFF
    ((s.setReg TT_TUR (w32 (max lo (min hi v)))).setIf (decide (v < lo) || decide (hi < v)) TT_STATUS TT_STATUS_TUR_CLAMP).tickFree
  else s

/-- A node that is not master synchronises from the first valid reference message of a cycle (R287, R290). -/
def State.ttSync (s : State) (cnt : Nat) (x : CanSof) : State :=
  if s.tt.synced ∧ cnt % s.ttCycles = s.ttCycle then s
  else
    let again := s.tt.begun && cnt % s.ttCycles == s.ttCycle && 2 ≤ s.ttState
    let s := if again then s.modTt fun t => { t with cycAt := x.at' } else s.ttBegin x.at' cnt
    let s := (s.modTt fun t => { t with refOn := true, synced := true }).ttTur
    s.ttSet (if s.ttState = 1 then 2 else 3)

/-- An own reference message that still waits is not sent, and one on a bus not sent again: another node's has gone before it (R287). -/
def State.ttDropRef (s : State) : State := s.ttEach fun s n => s.modCan n CanSt.dropRef

/-- A valid reference message of priority q was received on bus n (R287); it counts for the cycle that it begins (R290). -/
def State.ttRefHeard (s : State) (n q : Nat) (f : CanFrame) (x : CanSof) : State :=
  let cnt := bitsOf 5 0 ((rxPayload f).getD 0 0)
  let tm := s.bit TT_CTL TT_CTL_TM_EN
  let s :=
    if !tm then (s.ttMaster q 0).ttSync cnt x
    else if q = s.ttPrio then (((s.setB TT_STATUS TT_STATUS_MASTER_CLASH).ttMaster q 1).ttDropRef).ttSync cnt x
    else if s.ttRole = 2 ∧ s.ttPrio < q then s
    else ((s.ttMaster q 1).ttDropRef).ttSync cnt x
  s.ttRefOk n

/-- A frame was received on a bus of the unit. -/
def State.ttHeard (s : State) (n : Nat) (f : CanFrame) (x : CanSof) : State :=
  if !s.ttUses n then s
  else
    let s := s.modTt fun t => { t with seen := (f.id.val, f.ide) :: t.seen }
    match s.refPrio f.id.val f.ide with
    | some q => if f.fdf ∨ f.rtr ∨ (rxPayload f).isEmpty then s else s.ttRefHeard n q f x
    | none => s

/-- No reference message has started by the backup's instant: it sends its own (R287). -/
def backupReference (s : State) : State :=
  let due := s.tt.cycAt + (s.ttPrio + 1) * s.fld TT_BACKUP_DELAY TT_BACKUP_DELAY_NTU * s.ttNtu
  let waits := anyN 2 fun n => s.ttUses n && (s.canOf n).spec.isSome
  if s.ttOn ∧ s.ttRole = 1 ∧ 2 ≤ s.ttState ∧ s.tt.begun ∧ !s.tt.refOn ∧ s.ttLevel < 3 ∧ due ≤ s.ttNow ∧ !waits then s.sendRef none
  else s

/-! ## Triggers (R283, R285) -/

/-- The active image of an application buffer. -/
def State.abufActive (s : State) (m : Nat) : List Nat := tget (fun _ => []) s.tt.active m

/-- An exclusive frame is handed to one bus; a frame that still waits there was not sent. -/
def State.giveExcl (s : State) (m w0 w1 : Nat) (d : List Nat) (till : Nat) (n : Nat) : State :=
  (s.ttDropSpec n).modCan n fun x => { x with spec := some ⟨.excl m, w0, w1, d, some till⟩ }

/-- TX_EXCL of trigger k (R283, R285). -/
def State.ttExcl (s : State) (k : Nat) : State :=
  let b := s.trigB k
  let m := bitsOf 19 16 b
  let l := s.abufActive m
  let w0 := l.getD 0 0
  let w1 := l.getD 1 0
  let n := if s.bit TT_CTL TT_CTL_PAIR then 0 else s.fld TT_CTL TT_CTL_BUS_SEL
  if s.ttState ≠ 3 ∨ 2 ≤ s.ttLevel then s
  else if !s.bit (TT_ABUF_CTL m) TT_ABUF_CTL_VALID then s.ttFail
  else if tbLen b * s.ttNtu < s.canDur n w0 w1 then (s.setB TT_STATUS TT_STATUS_TOO_LONG).ttFail
  else
    let d := ((l.drop 2).flatMap (leBytes 4)).take (cwBytes w0 w1)
    s.ttEach fun s n => s.giveExcl m w0 w1 d (s.ttWinEnd k) n

/-- RX_CHECK of trigger k. -/
def State.ttCheck (s : State) (k : Nat) : State :=
  let b := s.trigB k
  if s.ttState ≠ 3 ∨ s.tt.seen.contains (bitsOf 28 0 b, bitOf 29 b) then s
  else (s.count TT_RX_MISSED).ttRaise (max 1 s.ttLevel)

/-- WATCH: no reference message has started; the unit falls back to SYNC_OFF. -/
def State.ttWatch (s : State) : State :=
  if s.tt.refOn then s
  else
    let s := (s.setB TT_STATUS TT_STATUS_WATCH).ttEach State.ttDropSpec
    ((s.ttSet 1).putF TT_STATE TT_STATE_ROLE 0).modTt fun t => { t with begun := false }

/-- What trigger k does. -/
def State.ttAct (s : State) (k : Nat) : State :=
  match taType (s.trigA k) with
  | 0 =>
    if s.ttLevel < 3 ∧ (s.ttRole = 2 ∨ (s.ttState = 1 ∧ !s.tt.refOn ∧ s.bit TT_CTL TT_CTL_TM_EN)) then
      s.sendRef (some (s.ttWinEnd k))
    else s
  | 1 => s.ttExcl k
  | 3 => s.ttCheck k
  | 4 => s.ttWatch
  | _ => s

/-- The next trigger of the list that acts in this cycle. -/
def State.ttNext (s : State) : Option Nat :=
  (List.range s.ttCount).find? (fun k => decide (s.tt.nextT ≤ k) && taActs (s.trigA k) s.ttCycle)

/-- The next trigger acts once its time mark is reached. -/
def ttTrigger (s : State) : State :=
  match s.ttNext with
  | some k =>
    if s.ttOn ∧ s.tt.begun ∧ s.tt.cycAt + taMark (s.trigA k) * s.ttNtu ≤ s.ttNow then
      (s.ttAct k).modTt fun t => { t with nextT := if t.begun then k + 1 else 0, seen := [] }
    else s
  | none => s

/-! ## Application buffers (R288) -/

/-- A TX_EXCL reads the buffer: its frame waits or is on the bus. -/
def State.abufRead (s : State) (m : Nat) : Bool := anyN 2 fun n =>
  let x := s.canOf n
  (x.spec.map (·.src)) == some (.excl m) || (x.tx.map (·.src)) == some (.excl m)

/-- Store the 18 words of the application image. -/
def State.putImage (s : State) (m : Nat) (l : List Nat) : State := s.forN 18 fun s j => s.setReg (TT_ABUF_W m j) (w32 (l.getD j 0))

/-- The two images of a buffer are exchanged, once no TX_EXCL reads it. -/
def abufExchange (m : Nat) (s : State) : State :=
  if s.bit (TT_ABUF_CTL m) TT_ABUF_CTL_UPDATE ∧ !s.abufRead m then
    let old := s.abufActive m
    let new := (List.range 18).map (fun j => (s.reg (TT_ABUF_W m j)).toNat)
    let s := (s.putImage m old).modTt fun t => { t with active := tput (fun _ => []) t.active m new }
    (s.clrB (TT_ABUF_CTL m) TT_ABUF_CTL_UPDATE).setB (TT_ABUF_CTL m) TT_ABUF_CTL_VALID
  else s

/-! ## Transmission and reception as a whole -/

/-- A frame was sent (R271, R274, R275, R285, R287). -/
def State.canSent (s : State) (n : Nat) (o : CanOut) : State :=
  let s := (s.canOff n).canTxOk n
  let s := match o.src with
    | .buf b => s.canBufSent n b
    | .ref => if s.ttUses n then s.ttRefSent n o.sof else s
    | .excl _ => s
  s.canSettle n

/-- What a transmission does (R270 to R277, R285). -/
def canTransmit (n : Nat) (part : CanTx) (s : State) : State :=
  match part, (s.canOf n).tx with
  | .start, _ => s.canStart n
  | _, none => s
  | .sent d, some o =>
    let bad := s.canDelayBad n o (some d)
    let s := s.canDelay n o (some d)
    if bad then s.canTxError n o false else s.canSent n o
  | .lost id ide, some o => s.canTxLost n o id.val ide
  | .error ex d, some o => (s.canDelay n o d).canTxError n o ex

/-- What another node's frame does (R271, R276, R278, R279, R287, R290). A frame that FD_EN excludes is not received
(log 44). -/
def canReceive (n : Nat) (part : CanRx) (s : State) : State :=
  let x := s.canOf n
  match part with
  | .start id ide => s.canRxStart n id.val ide
  | .valid f =>
    match x.rx with
    | none => s
    | some v =>
      let fits := !f.fdf || s.bit (CAN_CTL n) CAN_CTL_FD_EN
      let s := s.modCan n fun y => { y with rx := none, acked := fits && s.bit (CAN_CTL n) CAN_CTL_ACK_EN }
      if !fits then s.canSettle n
      else (((s.canRxFall n).canAccept n f v).ttHeard n f v).canSettle n
  | .error primary =>
    if x.mode = 0 ∨ x.boff ∨ x.tx.isSome ∨ s.canTest n then s
    else ((s.modCan n fun y => { y with rx := none }).canRxErr n primary).canSettle n

/-- What a write of the CAN block does beside setting its fields. -/
def canHook (a0 i : Nat) (old w : Word) (s : State) : State :=
  if a0 = CAN_CTL 0 then s.canMode i
  else if a0 = CAN_TX_CANCEL 0 then
    s.forN 3 fun s b => if bitOf b (CAN_TX_CANCEL_CANCEL.get w) then s.canCancel i b else s
  else if a0 = TT_CTL then s.ttCtl old
  else s

end Sys2Proof.Machine
end

