-- ==== Sys2Proof/Machine/Sys.lean ====
section
/-! DEFINITION. The SYS, NVM, CAUSEWAY and HOSTIF blocks' registers (14, 17), the summaries of all blocks and SYS_EVENT (R20, R21), and the interrupt
sources that they make (R378, R379). -/
namespace Sys2Proof.Machine

/-! ## Summaries and interrupt sources -/

/-- SRC bits of the SOUND block: it has no sticky bits (R349). -/
def soundSrc (_ : State) : Nat := 0
/-- SRC bits of SYS_SUMMARY (R493). -/
def sysSrc (s : State) : Nat := (s.reg SYS_STATUS).toNat % 128
/-- SRC bits of CAUSEWAY_SUMMARY (R399). -/
def causewaySrc (s : State) : Nat := (s.reg CW_STATUS).toNat % 64
/-- SRC bits of NVM_SUMMARY (R494). -/
def nvmSrc (s : State) : Nat := (s.reg NVM_STATUS).toNat % 8
/-- SRC bits of HOSTIF_SUMMARY (R401). -/
def hostifSrc (s : State) : Nat := (s.reg HOSTIF_STATUS).toNat % 256

/-- SRC bits of the summary of block k (R20). -/
def blockSrc : Nat → State → Nat
  | 0 => sysSrc | 1 => lhSrc | 2 => mbSrc | 3 => causewaySrc | 4 => timeSrc | 5 => tideSrc
  | 6 => switchSrc | 7 => streamSrc | 8 => portSrc | 9 => stowSrc | 10 => qeSrc | 11 => ferrySrc
  | 12 => dmaSrc | 13 => canSrc | 14 => motionSrc | 15 => chopSrc | 16 => captureSrc | 17 => pilotSrc
  | 18 => soundSrc | 19 => logSrc | 20 => nvmSrc | 21 => testSrc | 22 => dbgSrc | 23 => hostifSrc
  | _ => soundSrc

/-- The summary word of block k. -/
def State.summary (s : State) (k : Nat) : Nat := blockSrc k s % 2 ^ 31 + 2 ^ 31 * b2n (s.bit (SUMMARY k) SUMMARY_SAT)

/-- SYS_EVENT bit k (R21). -/
def State.sysEventBit (s : State) (k : Nat) : Bool :=
  let m := (s.reg (SUMMARY_MASK k)).toNat
  m != 0 && Nat.land (s.summary k) m != 0

/-- SYS_EVENT (R21). -/
def State.sysEvent (s : State) : Word := w32 (packBits ((List.range 24).map s.sysEventBit))

/-- Interrupt source i (R378). -/
def State.irqSource (s : State) (i : Nat) : Bool :=
  if i < 24 then s.sysEventBit i else bitOf (i - 24) (s.reg MB_DB_OUT).toNat

/-- A vector is pending while a source mapped to it is 1 (R378). -/
def State.vecPending (s : State) (v : Nat) : Bool := anyN 56 fun i =>
  s.bit (HOSTIF_MAP i) HOSTIF_MAP_MSIX_EN && s.fld (HOSTIF_MAP i) HOSTIF_MAP_VECTOR == v && s.irqSource i

/-- The host bus interrupts (R379). -/
def State.hbIrq (s : State) : Bool := anyN 56 fun i => s.bit (HOSTIF_MAP i) HOSTIF_MAP_HB_IRQ_EN && s.irqSource i
/-- HB_IRQN is low. -/
def State.hbIrqLow (s : State) : Bool := s.ballLow 257 (!s.rst.chip && s.hbIrq)
/-- The QSPI target interrupts (R379). -/
def State.qstIrq (s : State) : Bool := anyN 56 fun i => s.bit (HOSTIF_MAP i) HOSTIF_MAP_QST_IRQ_EN && s.irqSource i
/-- QST_IRQN is low. -/
def State.qstIrqLow (s : State) : Bool := s.ballLow 258 (!s.rst.chip && s.qstIrq)

/-! ## Dedicated balls (R502) -/

/-- The dedicated output balls that drive a level, by name and number. -/
inductive DedBall where
  | lhFaultn | hbIrqn | qstIrqn | hbRetryn | hbErrn | hbD (k : Nat) | qsfCsn | qsfSck | qsfIo (k : Nat) | qstIo (k : Nat) | mdc | mdio | canTx (n : Nat)
  | lhMiso | tdo
  deriving DecidableEq, Repr

/-- The number of a dedicated ball in State.ball. -/
def DedBall.code : DedBall → Nat
  | .lhFaultn => 256
  | .hbIrqn => 257
  | .qstIrqn => 258
  | .qsfCsn => 259
  | .qsfSck => 260
  | .qsfIo k => 261 + k % 4
  | .qstIo k => 265 + k % 4
  | .mdc => 269
  | .mdio => 270
  | .canTx n => 271 + n % 4
  | .hbRetryn => 300
  | .hbErrn => 301
  | .hbD k => 302 + k % 32
  | .lhMiso => 400
  | .tdo => 401

/-- The host bus is on (R382). -/
def State.hbOn (s : State) : Bool := s.fld HOSTIF_HB_CFG HOSTIF_HB_CFG_MODE == 1 || s.fld HOSTIF_HB_CFG HOSTIF_HB_CFG_MODE == 2

/-- The level that the device's own function gives a dedicated ball between the cycles and frames that the commands stand for (R502), none where it
leaves the ball at high impedance: in CHIP reset every ball but LH_FAULTN. A controller that sends or acknowledges a frame leaves the levels of its bits
open (log 121); MDIO is driven only while PORT_MDIO_CMD sends, so in a read that receives its data at
some moments not, TDO only in Shift-IR and Shift-DR, HB_D, QST_IO and LH_MISO only in a read cycle or a frame, each of which is one command. -/
def State.dedOwn (s : State) : DedBall → Option Bool
  | .lhFaultn => if s.reg LH_FAULT &&& s.reg LH_FAULT_MASK != 0 then some false else none
  | .hbIrqn => if !s.rst.chip && s.hbIrq then some false else none
  | .qstIrqn => if !s.rst.chip && s.qstIrq then some false else none
  | .hbRetryn | .hbErrn => if !s.rst.chip && s.hbOn then some true else none
  | .qsfCsn => if s.rst.chip then none else some true
  | .qsfSck => if s.rst.chip then none else some false
  | .mdc => if s.rst.chip then none else some (!s.mdio.isEmpty && Config.freeBool s.time.tick)
  | .mdio =>
    match s.mdio with
    | [] => none
    | op :: _ => if 2 ≤ op ∧ Config.freeBool (s.time.tick + 1) then none else some (Config.freeBool s.time.tick)
  | .canTx n =>
    let x := s.canOf n
    if s.rst.chip then none
    else if s.bit (TEST_LINK_CTL (8 + n)) TEST_LINK_CTL_GEN then s.linkDrive (8 + n) 0
    else some (!x.busy || s.canTest n || Config.freeBool s.time.tick)
  | .hbD _ | .qsfIo _ | .qstIo _ | .lhMiso | .tdo => none

/-- What the device drives on a dedicated ball. -/
def State.dedLevel (s : State) (b : DedBall) : Option Bool := s.ball b.code (s.dedOwn b)

/-- The SerDes outputs of port n, and those of PCIe, stand at electrical idle (R502): in CHIP reset, until the port's MODE leaves OFF, until link
training begins (R482). -/
def State.txIdle (s : State) (n : Nat) : Bool := s.rst.chip || s.portMode n == 0
/-- PCIE_TX at electrical idle. -/
def State.pcieTxIdle (s : State) : Bool := s.rst.chip || s.cw.perst
/-- The MDI pairs of port n are at high impedance until MODE PHY (R502). -/
def State.mdiHighZ (s : State) (n : Nat) : Bool := s.rst.chip || s.portMode n != 4

/-- Change the causeway record. -/
def State.modCw (s : State) (f : CwSt → CwSt) : State := { s with cw := f s.cw }

/-- A vector that has ceased to be pending may send again (R378): done after every command. -/
def State.settle (s : State) : State :=
  if s.cw.sent.isEmpty then s else s.modCw fun c => { c with sent := c.sent.filter s.vecPending }

/-- A message of vector v may be sent: MSI-X enabled, function and vector unmasked, Bus Master Enable set (R378). -/
def State.msixOpen (s : State) (v : Nat) : Bool :=
  s.bit HOSTIF_PCIE_STATE HOSTIF_PCIE_STATE_MSIX_EN && !s.bit HOSTIF_PCIE_STATE HOSTIF_PCIE_STATE_MSIX_FMASK
    && !s.bit (MSIX_VCTL v) MSIX_VCTL_MASK && s.bit HOSTIF_PCIE_STATE HOSTIF_PCIE_STATE_BME

/-- Send the message of vector v. -/
def State.msixSend (s : State) (v : Nat) : State := s.modCw fun c =>
  { c with sent := ninsert v c.sent,
           msg := some ((s.reg (MSIX_ADDR_LO v)).toNat + 2 ^ 32 * (s.reg (MSIX_ADDR_HI v)).toNat, (s.reg (MSIX_MSG_DATA v)).toNat) }

/-- A vector that is pending and has not yet sent its message sends it once the conditions hold (R378). -/
def msixMessage (v : Nat) (s : State) : State :=
  if s.vecPending v ∧ s.msixOpen v ∧ !s.cw.sent.contains v then s.msixSend v else s

/-! ## The SYS block (R467, R468, R492, R493) -/

/-- Writes of the SYS block that are discarded whole. -/
def sysBad (s : State) (who : Initiator) (a0 : Nat) (w : Word) : Bool :=
  if a0 = SYS_BOOT then who != .hm || decide (8 < SYS_BOOT_STAGE.get w)
  else if a0 = SYS_NODE_ADDR then who != .hm
  else if a0 = SYS_MUSTER then who != .hm || SYS_MUSTER_PAIR.get w == 3 || decide (4 < SYS_MUSTER_MODE.get w)
  else if a0 = SYS_RESET then who != .debug || w.toNat % 4 == 3
  else if a0 = SYS_CLK_CFG then
    SYS_CLK_CFG_TS_SRC.get w == 3
      || (SYS_CLK_CFG_CAN_SRC.get w != s.fld SYS_CLK_CFG SYS_CLK_CFG_CAN_SRC && anyN 4 fun n => s.fld (CAN_CTL n) CAN_CTL_MODE != 0)
  else false

/-- LOCK of the time PLL. -/
def TIME_LOCK : Fld := ⟨3, 3⟩

/-- A write of TS_SRC: the time PLL leaves its reference for the one selected; a write also ends the stay on REFCLK after a loss (R467). -/
def State.tsSource (s : State) (old w : Word) : State :=
  if SYS_CLK_CFG_TS_SRC.get old ≠ SYS_CLK_CFG_TS_SRC.get w ∨ s.rst.tsFell then
    ({ s with rst := { s.rst with tsFell := false } } : State).clrB SYS_CLK_STATUS TIME_LOCK
  else s

/-- What a write of the SYS block does beside setting its fields. -/
def sysHook (a0 : Nat) (old w : Word) (s : State) : State :=
  if a0 = SYS_CLK_CFG then (s.tsSource old w).putF SYS_CLK_CFG SYS_CLK_CFG_CAN_ACTIVE (SYS_CLK_CFG_CAN_SRC.get w)
  else if a0 = SYS_RESET then
    if SYS_RESET_CHIP.get w ≠ 0 then s.resetReq .chip 6 else if SYS_RESET_CORE.get w ≠ 0 then s.resetReq .core 6 else s
  else s

/-- Both bucks are in regulation. -/
def State.railsUp (s : State) : Bool := !s.rst.vinBad && !s.rst.lhOff && !s.rst.rail

/-- Registers of the SYS block that read the live state. -/
def sysView (s : State) (a0 : Nat) : Option Word :=
  if a0 = SYS_EVENT then some s.sysEvent
  else if a0 = SYS_PWR then
    some (w32 (b2n s.railsUp + 2 * b2n s.railsUp + 2 ^ 8 * packBits ((List.range 8).map (fun b => !s.rst.banks.contains b))))
  else none

/-! ## The NVM block and the MRAM's writers (R483, R494) -/

/-- An MRAM write that its initiator may not make: it ends with a bus error and the first one is kept (R483). -/
def State.nvmDenied (s : State) (a : Nat) : State :=
  if s.bit NVM_STATUS NVM_STATUS_WR_DENIED then s
  else (s.setB NVM_STATUS NVM_STATUS_WR_DENIED).setReg NVM_DENIED_ADDR (w32 a)

/-- Byte k of a number. -/
def byteAt (k n : Nat) : Nat := n / 256 ^ k % 256

/-- A number with byte k set. -/
def byteSet (k n v : Nat) : Nat := putBits (8 * k + 7) (8 * k) n v

/-- A byte of the settings and counts that the system record holds (R483). -/
def State.nvByte (s : State) : Config.NvCell → Nat
  | .ops k => byteAt (k % 4) s.lh.nvOps
  | .pcc k => byteAt (k % 4) s.lh.nvPcc
  | .enforce => b2n s.nv.enforce
  | .key i k => (s.nv.keys.getD i []).getD k 0
  | .mac k => byteAt (k % 6) (s.nv.mac.getD 0)
  | .etype k => byteAt (k % 2) s.nv.etype
  | .pair => s.nv.pair
  | .mode => s.nv.mode

/-- A byte of them is written through memory. A MAC address of 0 is none (DESIGN CHOICE, log 116). -/
def State.nvWrite (s : State) (v : Nat) : Config.NvCell → State
  | .ops k => { s with lh := { s.lh with nvOps := byteSet (k % 4) s.lh.nvOps v } }
  | .pcc k => { s with lh := { s.lh with nvPcc := byteSet (k % 4) s.lh.nvPcc v } }
  | .enforce => { s with nv := { s.nv with enforce := bitOf 0 v } }
  | .key i k =>
    let keys := s.nv.keys ++ List.replicate (4 - s.nv.keys.length) []
    let key := keys.getD i [] ++ List.replicate (32 - (keys.getD i []).length) 0
    { s with nv := { s.nv with keys := keys.set i (key.set k v) } }
  | .mac k =>
    let m := byteSet (k % 6) (s.nv.mac.getD 0) v
    { s with nv := { s.nv with mac := if m = 0 then none else some m } }
  | .etype k => { s with nv := { s.nv with etype := byteSet (k % 2) s.nv.etype v } }
  | .pair => { s with nv := { s.nv with pair := v % 4 } }
  | .mode => { s with nv := { s.nv with mode := v % 8 } }

/-- What a byte of the system record holds; none for plain memory. -/
def sysCellOf (a : Nat) : Option Config.NvCell := if 0x50000000 ≤ a ∧ a < 0x50001000 then Config.sysCell (a - 0x50000000) else none

/-- A byte of MRAM as a reader meets it. -/
def State.mramByte (s : State) (a : Nat) : Nat := match sysCellOf a with | some c => s.nvByte c | none => s.rd8 a

/-- A write of MRAM through the memory map: the settings and counts of the system record change with their bytes (R423, R435, R483). -/
def State.mramPut (s : State) (a : Nat) (bs : List Nat) : State :=
  let plain := bs.mapIdx (fun k b => if (sysCellOf (a + k)).isSome then s.rd8 (a + k) else b)
  (bs.mapIdx (fun k b => (a + k, b))).foldl (fun s p => match sysCellOf p.1 with | some c => s.nvWrite p.2 c | none => s) (s.mramStore a plain)

/-- An initiator may write the MRAM at an offset (R483). -/
def State.mramMayWrite (s : State) (who : Initiator) (off : Nat) : Bool :=
  if off < 0x5000 then who == .hm || who == .debug
  else if off < 0x15000 then who == .debug
  else if off < 0x20000 then s.bit NVM_CTL NVM_CTL_WREN
  else who == .hm || who == .debug

/-! ## The CAUSEWAY block (R394, R398, R399) -/

/-- Entries of the posted-write error log in use. -/
def State.pwlogCount (s : State) : Nat := ((List.range 16).filter (fun i => s.bit (CW_PWLOG_INFO i) CW_PWLOG_INFO_VALID)).length

/-- CLEAR in CW_PWLOG_CTL frees every entry (R394). -/
def State.pwlogClear (s : State) : State := s.forN 16 fun s i => (s.setReg (CW_PWLOG_ADDR i) 0).setReg (CW_PWLOG_INFO i) 0

/-- What a write of the CAUSEWAY block does beside setting its fields. -/
def causewayHook (a0 : Nat) (w : Word) (s : State) : State :=
  if a0 = CW_PWLOG_CTL then (if CW_PWLOG_CTL_CLEAR.get w ≠ 0 then s.pwlogClear else s) else s

/-- Registers of the CAUSEWAY block that read the live state. -/
def causewayView (s : State) (a0 : Nat) : Option Word :=
  if a0 = CW_PWLOG_CTL then some (CW_PWLOG_CTL_COUNT.put 0 s.pwlogCount) else none

/-! ## The HOSTIF block (R378, R400, R401) -/

/-- Writes of the HOSTIF block that are discarded whole. -/
def hostifBad (a0 : Nat) (w : Word) : Bool := a0 == HOSTIF_HB_CFG && decide (HOSTIF_HB_CFG_RD_WAIT.get w < 2)

/-- What a write of the HOSTIF block does beside setting its fields: MSIX_REARM sends a further message (R378). -/
def hostifHook (a0 : Nat) (w : Word) (s : State) : State :=
  if a0 = HOSTIF_MSIX_REARM then
    let v := HOSTIF_MSIX_REARM_VECTOR.get w
    if s.vecPending v ∧ s.msixOpen v then s.msixSend v else s
  else s

/-- Registers of the HOSTIF block that read the live state: the PBA. -/
def hostifView (s : State) (a0 : Nat) : Option Word :=
  if a0 = MSIX_PBA_LO then some (w32 (packBits ((List.range 32).map s.vecPending)))
  else if a0 = MSIX_PBA_HI then some (w32 (packBits ((List.range 32).map (fun v => s.vecPending (v + 32)))))
  else none

end Sys2Proof.Machine
end

