-- ==== Sys2Proof/Machine/Bus.lean ====
section
/-! DEFINITION. The interconnect (01): the address map and its attributes (R15, R16), register accesses by access code (R8, R13, R22 to R24), memory accesses
(R27 to R29, R86, R164, R174, R182, R363, R364, R483), outbound windows (R396, R397), atomics, and who waits. -/
namespace Sys2Proof.Machine

/-! ## Address map (R15, R17) -/

/-- The regions of the address map. -/
inductive Region where
  | rom | hmIram | hmSp | pim | qeIram (n : Nat) | qeSp (n : Nat) | frameBuf | pool | stow | tideBank (b : Nat)
  | pilotMem (k : Nat) | dmaBuf | regs (k : Nat) | mram | flash | outbound (w : Nat)
  deriving DecidableEq, Repr

/-- The region of an address, with the region's first address. -/
def regionOf (a : Nat) : Option (Region × Nat) :=
  let q := (a - 0x20000000) / 0x20000
  let qb := 0x20000000 + q * 0x20000
  if a < 0x10000 then some (.rom, 0)
  else if 0x08000000 ≤ a ∧ a < 0x08020000 then some (.hmIram, 0x08000000)
  else if 0x08100000 ≤ a ∧ a < 0x08140000 then some (.hmSp, 0x08100000)
  else if 0x10000000 ≤ a ∧ a < 0x10100000 then some (.pim, 0x10000000)
  else if 0x20000000 ≤ a ∧ q < 24 then
    (if a < qb + 0x8000 then some (.qeIram q, qb) else if qb + 0x10000 ≤ a then some (.qeSp q, qb + 0x10000) else none)
  else if 0x30000000 ≤ a ∧ a < 0x30200000 then some (.frameBuf, 0x30000000)
  else if 0x38000000 ≤ a ∧ a < 0x38040000 then some (.pool, 0x38000000)
  else if 0x39000000 ≤ a ∧ a < 0x39040000 then some (.stow, 0x39000000)
  else if 0x3A000000 ≤ a ∧ a < 0x3A020000 then some (.tideBank 0, 0x3A000000)
  else if 0x3A020000 ≤ a ∧ a < 0x3A040000 then some (.tideBank 1, 0x3A020000)
  else if 0x3B000000 ≤ a ∧ a < 0x3B002000 then some (.pilotMem ((a - 0x3B000000) / 0x400), 0x3B000000 + (a - 0x3B000000) / 0x400 * 0x400)
  else if 0x3C000000 ≤ a ∧ a < 0x3C004000 then some (.dmaBuf, 0x3C000000)
  else if 0x40000000 ≤ a ∧ a < 0x40180000 then some (.regs (blockOf a), 0x40000000 + blockOf a * 0x10000)
  else if 0x50000000 ≤ a ∧ a < 0x50400000 then some (.mram, 0x50000000)
  else if 0x60000000 ≤ a ∧ a < 0x68000000 then some (.flash, 0x60000000)
  else if 0x80000000 ≤ a ∧ a < 0x100000000 then some (.outbound ((a - 0x80000000) / 0x10000000), a / 0x10000000 * 0x10000000)
  else none

/-- Attribute A: atomic operations are accepted. -/
def Region.atomics : Region → Bool
  | .hmSp | .pim | .qeSp _ | .dmaBuf => true
  | _ => false

/-- Attribute S: an access may change state. -/
def State.sideEffect (s : State) : Region → Bool
  | .regs _ => true
  | .outbound w => !s.bit (CW_OWIN_CTL w) CW_OWIN_CTL_PREF
  | _ => false

/-- What a CORE reset holds (R471). -/
def Region.coreHeld : Region → Bool
  | .hmIram | .hmSp | .qeIram _ | .qeSp _ | .pool => true
  | .regs k => k == 2 || k == 10 || k == 11 || k == 12
  | _ => false

/-- A memory access of `n` bytes: 8 to 128 bits at any place within a 16-byte line (R13). -/
def memFits (a n : Nat) : Bool := (n == 1 || n == 2 || n == 4 || n == 8 || n == 16) && decide (a % 16 + n ≤ 16)

/-- The initiator is a DMA engine, which reaches memory in 128-bit beats (R252). -/
def isDmaEngine : Initiator → Bool
  | .dmaRead _ => true
  | .dmaWrite _ => true
  | _ => false

/-- An access fits a memory region; of a DMA beat, `n` bytes are those that the transfer takes or gives. -/
def accessFits (who : Initiator) (a n : Nat) : Bool := memFits a n || (isDmaEngine who && decide (0 < n ∧ a % 16 + n ≤ 16))

/-! ## Registers -/

/-- Writes of a register of block k that are discarded whole. -/
def State.blockBad (s : State) (who : Initiator) (k a0 i j : Nat) (w : Word) : Bool :=
  match k with
  | 0 => sysBad s who a0 w | 1 => lhBad s who a0 i w | 2 => mbBad a0 w | 4 => timeBad s a0 i w | 5 => tideBad s a0 i w
  | 6 => switchBad s a0 w | 7 => streamBad s a0 w | 8 => portBad s a0 i w | 9 => stowBad s a0 w | 10 => qeBad s who a0 i w
  | 11 => ferryBad s a0 w | 13 => canBad s a0 i j w | 14 => motionBad s a0 i w | 15 => chopBad s a0 i w | 16 => captureBad a0 w
  | 17 => pilotBad a0 w | 19 => logBad s a0 w | 21 => testBad s a0 i w | 22 => dbgBad who a0 | 23 => hostifBad a0 w
  | _ => false

/-- The unit that an RWL field belongs to runs (R8). -/
def State.blockLocked (s : State) (k a0 i : Nat) : Bool :=
  match k with
  | 4 => timeLocked s i | 5 => tideLocked s a0 | 6 => s.tideRuns | 10 => qeLocked s a0 i | 12 => dmaLocked s i | 13 => canLocked s a0 i
  | 14 => motionLocked s a0 i | 15 => chopLocked s i | 16 => captureLocked s a0 i | 17 => pilotLocked s i
  | _ => false

/-- Writes that end with a bus error by the rules of their block. -/
def State.blockWrErr (s : State) (who : Initiator) (k a0 i : Nat) (w : Word) : Bool :=
  match k with
  | 1 => lhWrErr s who a0 w | 2 => mbWrErr who a0 | 11 => ferryWrErr s a0 i | 17 => pilotWrErr s a0 i
  | _ => false

/-- What a write does beside setting its fields. LATCH of a group reads its buffer (R315). -/
def blockHook (who : Initiator) (k a0 i : Nat) (old w : Word) (s : State) : State :=
  match k with
  | 0 => sysHook a0 old w s | 1 => lhHook a0 i old w s | 2 => mbHook who a0 i w s | 3 => causewayHook a0 w s | 4 => timeHook a0 i old w s
  | 5 => tideHook a0 i old w s | 6 => switchHook a0 w s | 7 => streamHook a0 w s | 8 => portHook a0 i old w s | 9 => stowHook a0 w s
  | 10 => qeHook a0 i old w s | 11 => ferryHook a0 i w s | 12 => dmaHook a0 i old w s | 13 => canHook a0 i old w s
  | 14 => if a0 = GRP_CMD 0 ∧ grpCmd w = 8 then s.grpLatch i else motionHook a0 i w s
  | 15 => chopHook a0 i old w s | 16 => captureHook a0 i w s | 17 => pilotHook a0 i old w s | 18 => soundHook a0 i old w s | 19 => logHook a0 i old w s
  | 21 => testHook a0 i old w s | 23 => hostifHook a0 w s
  | _ => s

/-- What a register reads where that is not what is stored. -/
def State.blockView (s : State) (k a0 i : Nat) : Option Word :=
  match k with
  | 0 => sysView s a0 | 2 => mbView s a0 i | 3 => causewayView s a0 | 4 => timeView s a0 i | 6 => switchView s a0 i | 8 => portView s a0 i
  | 9 => stowView s a0 | 10 => qeView s a0 i | 11 => ferryView s a0 i | 12 => dmaView s a0 i | 13 => canView s a0 i | 14 => motionView s a0 i
  | 15 => chopView s a0 i | 16 => captureView s a0 i | 17 => pilotView s a0 i | 19 => logView s a0 | 22 => dbgView s a0 | 23 => hostifView s a0
  | _ => none

/-- What a read changes. -/
def blockRead (who : Initiator) (k a0 i : Nat) (s : State) : State :=
  match k with
  | 2 => mbRead who a0 s | 4 => timeRead a0 i s | 11 => ferryRead a0 i s | 14 => motionRead a0 i s | 16 => captureRead a0 i s
  | 17 => pilotRead a0 i s
  | _ => s

/-- The low word of a 64-bit counter (R23). -/
def isCount64 (a0 : Nat) : Bool := a0 == PORT_OCTETS_TX_LO 0 || a0 == PORT_OCTETS_RX_LO 0
/-- The high word of a 64-bit counter (R23). -/
def isCount64Hi (a0 : Nat) : Bool := a0 == PORT_OCTETS_TX_HI 0 || a0 == PORT_OCTETS_RX_HI 0

/-- A register read: what it returns and what it changes. A read of the high word of a 64-bit counter gives what the latest read of its low word
latched, 0 before the first, also where other reads of it came in between: R23 fixes only the read that follows a low-word read (DESIGN CHOICE, log
122). -/
def State.regRead (s : State) (who : Initiator) (a : Nat) : State × BusEnd × Nat :=
  match findReg a with
  | none => (s, .busError, 0)
  | some (row, l) =>
    let k := blockOf a
    let a0 := 0x40000000 + k * 0x10000 + row.off
    let i := l.headD 0
    if k = 21 ∧ !l.isEmpty ∧ !linkExists i then (s, .busError, 0)
    else if row.off = 0xFFF0 then (s, .done, s.summary k)
    else if isCount64 a0 then ({ s with latch := tput (fun _ => 0) s.latch (a + 4) (s.reg (a + 4)) }, .done, (s.reg a).toNat)
    else if isCount64Hi a0 then (s, .done, (tget (fun _ => 0) s.latch a).toNat)
    else (blockRead who k a0 i s, .done, ((s.blockView k a0 i).getD (s.reg a)).toNat)

/-- A field of the stored word after a write of `w` over `old` (R8, R22). -/
def storeField (old w new : Word) (f : FldRow) : Word :=
  match f.acc with
  | .rw | .rwl => f.fld.put new (f.fld.get w)
  | .w1c => f.fld.put new (f.fld.get old - Nat.land (f.fld.get old) (f.fld.get w))
  | .w1s => f.fld.put new (Nat.lor (f.fld.get old) (f.fld.get w))
  | .cnt => f.fld.put new 0
  | .ro | .wo => new

/-- The stored word after a write of `w` over `old`. Reserved bits keep reading 0 (R24). -/
def RegRow.written (r : RegRow) (old w : Word) : Word := r.flds.foldl (storeField old w) old

/-- A counter written with something other than zero (R22). -/
def RegRow.countBad (r : RegRow) (w : Word) : Bool := r.flds.any (fun f => f.acc == .cnt && f.fld.get w != 0)

/-- A write that would change an RWL field. -/
def RegRow.lockBad (r : RegRow) (old w : Word) : Bool := r.flds.any (fun f => f.acc == .rwl && f.fld.get w != f.fld.get old)

/-- A write that its block ends with a bus error; a link of TEST that does not exist answers none (R449). -/
def State.wrErr (s : State) (who : Initiator) (k a0 : Nat) (l : List Nat) (w : Word) : Bool :=
  (k == 21 && !l.isEmpty && !linkExists (l.headD 0)) || s.blockWrErr who k a0 (l.headD 0) w

/-- Why the MAILBOX block rejects a write (R403 to R405). -/
def State.wrReject (s : State) (who : Initiator) (k a0 i : Nat) (w : Word) : Option Nat := if k = 2 then s.mbCause who a0 i w else none

/-- A write that is discarded whole (R8, R22, R24). -/
def State.wrBad (s : State) (who : Initiator) (a k a0 : Nat) (row : RegRow) (l : List Nat) (w : Word) : Bool :=
  s.blockBad who k a0 (l.headD 0) (l.getD 1 0) w || row.countBad w || (s.blockLocked k a0 (l.headD 0) && row.lockBad (s.reg a) w)

/-- The registers after a write that is taken: the register by its access codes (R8), and a 64-bit counter's other half (R23). -/
def State.stored (s : State) (a a0 : Nat) (row : RegRow) (w : Word) : State :=
  let s := s.setReg a (row.written (s.reg a) w)
  if isCount64 a0 then s.setReg (a + 4) 0 else s

/-- A register write: an error by its block's rules, a discard (R24), or the fields set by their access codes and the write's effect. -/
def State.regWrite (s : State) (who : Initiator) (a : Nat) (w : Word) : State × BusEnd :=
  match findReg a with
  | none => (s, .busError)
  | some (row, l) =>
    let k := blockOf a
    let a0 := 0x40000000 + k * 0x10000 + row.off
    let i := l.headD 0
    if s.wrErr who k a0 l w then (s, .busError)
    else if (s.wrReject who k a0 i w).isSome then (s.mbReject who i ((s.wrReject who k a0 i w).getD 0), .busError)
    else if s.wrBad who a k a0 row l w then (s.cfgReject a, .done)
    else (blockHook who k a0 i (s.reg a) w (s.stored a a0 row w), .done)

/-- An MSI-X table or PBA address (R378). -/
def isMsixTable (a : Nat) : Bool := decide (0x40178000 ≤ a ∧ a < 0x40178400) || decide (0x40179000 ≤ a ∧ a < 0x40179008)

/-- The 64-bit access that PCIe alone may make, to the MSI-X table and the PBA (R378). -/
def msixWide (who : Initiator) (a n : Nat) : Bool := who == .pcie && n == 8 && a % 8 == 0 && isMsixTable a

/-! ## Accesses that cannot end yet (R13, R387, R396, R397) -/

/-- The entry of an access that has ended and not been taken up; `wr`: a write. -/
def State.ended (s : State) (who : Initiator) (a : Nat) (wr : Bool := false) : Option WaitAcc :=
  s.cw.waits.find? (fun x => x.isOf who a wr && x.result.isSome)

/-- Drop the waiting write of an outbound window. -/
def State.unwait (s : State) (who : Initiator) (a : Nat) : State :=
  s.modCw fun c => { c with waits := c.waits.filter (fun x => !(x.isOf who a true && x.result.isNone)) }

/-- Take up the end of an access: its entry is dropped. -/
def State.takeEnded (s : State) (who : Initiator) (a : Nat) (wr : Bool := false) : State :=
  s.modCw fun c => { c with waits := c.waits.eraseP (fun x => x.isOf who a wr && x.result.isSome) }

/-- Change the first entry that satisfies `p`. -/
def updFirst {α : Type} (p : α → Bool) (f : α → α) : List α → List α
  | [] => []
  | x :: t => if p x then f x :: t else x :: updFirst p f t

/-- An operation that holds a request buffer of its own: of the writes of one request the last does (R397). -/
def CwOp.isRequest : CwOp → Bool
  | .write _ _ _ _ more _ => !more
  | .ahead _ => false
  | _ => true

/-- Requests in the causeway's buffers: outbound ones that hold a buffer and have not ended, whoever still wants them (R397). -/
def State.cwOutHeld (s : State) : Nat := ((s.cw.strays ++ s.cw.waits).filter (fun x => x.buf && x.result.isNone)).length
/-- Inbound requests held. -/
def State.cwInHeld (s : State) : Nat := s.cw.ifs.foldl (fun n p => n + (p.2.ops.filter CwOp.isRequest).length) 0
/-- An outbound request finds a buffer (R397). -/
def State.cwRoom (s : State) : Bool := decide (s.cwOutHeld < 24) && decide (s.cwOutHeld + s.cwInHeld < 32)

/-- An access waits. -/
def State.addWait (s : State) (who : Initiator) (a : Nat) (buf : Bool) : State :=
  if s.cw.waits.any (fun x => x.who == who && x.addr == a && x.result.isNone) then s
  else s.modCw fun c => { c with waits := c.waits ++ [{ who := who, addr := a, buf := buf }] }

/-- The waiting access of an initiator at an address ends. -/
def State.endWait (s : State) (who : Initiator) (a : Nat) (r : BusEnd × Nat) (wr : Bool := false) : State :=
  s.modCw fun c => { c with waits := updFirst (fun x => x.isOf who a wr && x.result.isNone) (fun x => { x with result := some r }) c.waits }

/-- Requests may be sent: Bus Master Enable set, link up (R396). -/
def State.outLink (s : State) : Bool := s.bit HOSTIF_PCIE_STATE HOSTIF_PCIE_STATE_BME && s.bit HOSTIF_PCIE_STATE HOSTIF_PCIE_STATE_LINK_UP
/-- Window w passes requests: enabled, Bus Master Enable set, link up (R396). -/
def State.outOpen (s : State) (w : Nat) : Bool := s.bit (CW_OWIN_CTL w) CW_OWIN_CTL_EN && s.outLink

/-- The PCIe address that an outbound address maps to (R396). -/
def State.outAddr (s : State) (w a : Nat) : Nat :=
  (s.reg (CW_OWIN_HI w)).toNat * 2 ^ 32 + (s.reg (CW_OWIN_LO w)).toNat + a % 0x10000000

/-- An outbound request waits, with the bytes of a write; one that finds a buffer is accepted, for the PCIe address that it maps to then (R396,
R399). -/
def State.addOut (s : State) (who : Initiator) (w a : Nat) (bytes : Option (List Nat)) : State :=
  if s.cw.waits.any (fun x => x.isOf who a bytes.isSome && x.result.isNone) then s
  else s.modCw fun c => { c with waits := c.waits ++
    [{ who := who, addr := a, buf := s.cwRoom, pci := if s.cwRoom then some (s.outAddr w a) else none, bytes := bytes }] }

/-- Where an outbound request may go now: on the link, to a PCIe address; nowhere, a bus error; or it waits for a buffer. A change of its window
applies until the request is accepted, Bus Master Enable and the link until it is sent (R396, R399; log 126). -/
def State.outRoute (s : State) (x : WaitAcc) : BusEnd × Nat :=
  let w := (x.addr - 0x80000000) / 0x10000000
  if x.buf then (if s.outLink then (.done, x.pci.getD 0) else (.busError, 0))
  else if !s.outOpen w then (.busError, 0)
  else if s.cwRoom then (.done, s.outAddr w x.addr)
  else (.waiting, 0)

/-- An earlier outbound request of `who` is still to be sent; the order of an initiator's requests is kept (R397). -/
def State.outEarlier (s : State) (who : Initiator) (a : Nat) : Bool :=
  (s.cw.strays ++ s.cw.waits.takeWhile (fun x => !(x.isOf who a true && x.result.isNone))).any
    fun x => x.who == who && x.result.isNone && !x.sent && decide (0x80000000 ≤ x.addr)

/-- A read of an outbound window: a request that waits for its completion. -/
def State.outRead (s : State) (who : Initiator) (w a : Nat) : State × BusEnd × Nat :=
  if s.outOpen w then (s.addOut who w a none, .waiting, 0) else (s, .busError, 0)

/-- A write of an outbound window: it goes out once it has a buffer and the requests before it are sent; until then it waits with its bytes. -/
def State.outWrite (s : State) (who : Initiator) (w a : Nat) (bs : List Nat) : State × BusEnd :=
  let x := (s.cw.waits.find? (fun x => x.isOf who a true && x.result.isNone)).getD { who := who, addr := a, bytes := some bs }
  match s.outRoute x with
  | (.busError, _) => (s.unwait who a, .busError)
  | (.done, p) =>
    if s.outEarlier who a then (s.addOut who w a (some bs), .waiting)
    else ((s.unwait who a).modCw fun c => { c with out := some (p, bs) }, .done)
  | _ => (s.addOut who w a (some bs), .waiting)

/-- Another initiator's lock holds the region (R387). -/
def State.lockedOut (s : State) (who : Initiator) (base : Nat) : Bool :=
  match s.cw.lock with
  | some l => l.taken.isSome && !l.broken && l.region == base && who != .hostBus
  | none => false

/-! ## Memories -/

/-- An access that a lock held back and that is made now waits no longer. -/
def State.lockPassed (s : State) (who : Initiator) (a : Nat) : State :=
  if s.cw.waits.isEmpty then s
  else s.modCw fun c => { c with waits := c.waits.filter (fun x => !(x.who == who && x.addr == a && x.result.isNone && decide (x.addr < 0x80000000))) }

/-- The engine whose own port the initiator is. -/
def engineOf : Initiator → Option Nat
  | .qe n => some n.val
  | .hm => some 24
  | _ => none

/-- Low memory of an engine answers the initiator (R174). -/
def State.lowOpen (s : State) (who : Initiator) (n off : Nat) : Bool :=
  decide (0x80 ≤ off) || engineOf who == some n || decide ((s.qeOf n).run = .stopped) || decide ((s.qeOf n).run = .halted)

/-- The engine of a scratchpad region. -/
def Region.spEngine : Region → Option Nat
  | .hmSp => some 24
  | .qeSp n => some n
  | _ => none

/-- A memory read of `n` bytes that ends well or in poison. -/
def State.memGet (s : State) (a n : Nat) : State × BusEnd × Nat :=
  let s := s.eccRead a n
  (s, if s.poisonedN a n then .poisoned else .done, s.rdN a n)

/-- The low bytes of a number in `n` bytes from the raw window of the ferry pool (R239). -/
def State.poolGet (s : State) (a n : Nat) : Nat :=
  ofLe ((List.range n).map (fun k => (s.rawCell ((a + k - 0x38000000) / 64) ((a + k) % 64 / 4)) / 2 ^ (8 * (a % 4 + k - (a % 4 + k) / 4 * 4)) % 256))

/-- Bytes written to the raw window of the ferry pool. -/
def State.poolPut (s : State) (a : Nat) (bs : List Nat) : State :=
  (bs.mapIdx (fun k b => (a + k, b))).foldl (fun s x =>
    s.setRawCell ((x.1 - 0x38000000) / 64) (x.1 % 64 / 4) (fun w => { w with data := putBits (8 * (x.1 % 4) + 7) (8 * (x.1 % 4)) w.data x.2, bad := false })) s

/-- The words of a pilot set that `n` bytes at `a` touch. -/
def pilotWords (a n : Nat) : List Nat := (List.range ((a % 4 + n + 3) / 4)).map (fun k => (a % 0x400) / 4 + k)

/-- Those of them whose 24 bits the write gives anew, and with them their parity: a word is corrected only by rewriting it (R364). -/
def pilotRewritten (a n : Nat) : List Nat :=
  (pilotWords a n).filter fun w => decide (a % 0x400 ≤ 4 * w ∧ 4 * w + 3 ≤ a % 0x400 + n)

/-- A read of the frame buffer through its window. -/
def State.fbGet (s : State) (a n : Nat) : State × BusEnd × Nat :=
  let s := s.eccRead a n
  (s, if s.poisonedN a n then .poisoned else .done, ofLe ((List.range n).map (fun k => s.fbByte (a + k))))

/-- A read of MRAM through the memory map (R483, R484). -/
def State.mramGet (s : State) (a n : Nat) : State × BusEnd × Nat :=
  let s := s.eccRead a n
  (s, if s.poisonedN a n then .poisoned else .done, ofLe ((List.range n).map (fun k => s.mramByte (a + k))))

/-- A read on the interconnect of `n` bytes at `a`: the state after it, how it ended, the data. The flash's pins read 0 while their bank is down
(R463). -/
def State.busRead (s : State) (who : Initiator) (a n : Nat) : State × BusEnd × Nat :=
  if s.rst.chip then (s, .busError, 0)
  else match s.ended who a with
  | some x => let r := x.result.getD (.busError, 0); (s.takeEnded who a, r.1, r.2)
  | none =>
    match regionOf a with
    | none => (s, .busError, 0)
    | some (r, base) =>
      if s.rst.core ∧ r.coreHeld then (s, .busError, 0)
      else if s.lockedOut who base then (s.addWait who a false, .waiting, 0)
      else let s := s.lockPassed who a; match r with
        | .regs _ =>
          if n = 4 ∧ a % 4 = 0 then s.regRead who a
          else if msixWide who a n then
            let (s, e, lo) := s.regRead who a
            let (s, _, hi) := s.regRead who (a + 4)
            (s, e, lo + 2 ^ 32 * hi)
          else (s, .busError, 0)
        | r =>
          if !accessFits who a n then (s, .busError, 0)
          else match r with
            | .outbound w => s.outRead who w a
            | .pool => (s, .done, s.poolGet a n)
            | .frameBuf => s.fbGet a n
            | .mram => s.mramGet a n
            | .flash => if s.rst.banks.contains 6 then (s, .done, 0) else s.memGet a n
            | .pilotMem k => if (pilotWords a n).any (s.psetOf k).bad.contains then (s, .busError, 0) else s.memGet a n
            | r => match r.spEngine with
              | some e => if s.lowOpen who e (a - base) then s.memGet a n else (s, .busError, 0)
              | none => s.memGet a n

/-- A write to a scratchpad: low memory keeps its fixed bits (R173, R175); the second port of the mooring area raises MOOR (R182). -/
def State.spPut (s : State) (who : Initiator) (e a : Nat) (off : Nat) (bs : List Nat) : State :=
  let s := s.store a bs
  let s := if off < 0x80 then s.fixLow e else s
  if e < 24 ∧ 0xF000 ≤ off ∧ engineOf who ≠ some e then s.raiseMoor e ((off - 0xF000) / 16) else s

/-- A write on the interconnect of bytes at `a`: the state after it and how it ended. -/
def State.busWrite (s : State) (who : Initiator) (a : Nat) (bs : List Nat) : State × BusEnd :=
  let n := bs.length
  if s.rst.chip then (s, .busError)
  else match s.ended who a true with
  | some x => let r := x.result.getD (.busError, 0); (s.takeEnded who a true, r.1)
  | none =>
    match regionOf a with
    | none => (s, .busError)
    | some (r, base) =>
      if s.rst.core ∧ r.coreHeld then (s, .busError)
      else if s.lockedOut who base then (s.addWait who a false, .waiting)
      else let s := s.lockPassed who a; match r with
        | .regs _ =>
          if n = 4 ∧ a % 4 = 0 then s.regWrite who a (w32 (ofLe bs))
          else if msixWide who a n then
            let (s, e) := s.regWrite who a (w32 (ofLe (bs.take 4)))
            let (s, _) := s.regWrite who (a + 4) (w32 (ofLe (bs.drop 4)))
            (s, e)
          else (s, .busError)
        | r =>
          if !accessFits who a n then (s, .busError)
          else match r with
            | .rom => (s, .busError)
            | .flash => (s, .busError)
            | .outbound w => s.outWrite who w a bs
            | .pool => (s.poolPut a bs, .done)
            | .frameBuf => (s.fbStore a bs, .done)
            | .hmIram => if who = .hm ∨ who = .debug then (s.store a bs, .done) else (s, .busError)
            | .qeIram q => if (s.qeOf q).run = .stopped then (s.store a bs, .done) else (s, .busError)
            | .stow =>
              if ((List.range ((a % 8 + n + 7) / 8)).map (fun k => (a - base) / 8 + k)).any s.stowWriteRefused then (s, .busError)
              else (s.store a bs, .done)
            | .tideBank b => if s.bankHeld b then (s, .busError) else ((s.store a bs).bankTouch b, .done)
            | .pilotMem k =>
              let right := match who with
                | .qe q => match s.berthOf q.val with
                  | some b => s.fld (BERTH_RES b) BERTH_RES_KIND == 3 && s.fld (BERTH_RES b) BERTH_RES_INDEX == k
                  | none => false
                | _ => true
              if !right || (pilotWords a n).any (s.pilotWordLocked k) then (s, .busError)
              else
                let s := (bs.mapIdx (fun j b => (a + j, b))).foldl (fun s x => if x.1 % 4 = 3 then s else s.wr8 x.1 x.2) s
                (s.setPset k { s.psetOf k with bad := (s.psetOf k).bad.filter (fun x => !(pilotRewritten a n).contains x) }, .done)
            | .mram =>
              if s.rst.vinBad then (s, .busError)
              else if s.mramMayWrite who (a - base) then (s.mramPut a bs, .done) else (s.nvmDenied a, .busError)
            | r => match r.spEngine with
              | some e => if s.lowOpen who e (a - base) then (s.spPut who e a (a - base) bs, .done) else (s, .busError)
              | none => (s.store a bs, .done)

/-- An atomic operation on the interconnect (R16, R235), of PCIe on PIM only: `f` gives the new value, or none where nothing is written. -/
def State.busAtomic (s : State) (who : Initiator) (a n : Nat) (f : Nat → Option Nat) : State × BusEnd × Nat :=
  match regionOf a with
  | none => (s, .busError, 0)
  | some (r, _) =>
    if !r.atomics || !(n == 4 || n == 8) || (who == .pcie && r != .pim) then (s, .busError, 0)
    else match s.busRead who a n with
      | (s1, .done, v) => match f v with
        | none => (s1, .done, v)
        | some v' => match s1.busWrite who a (leBytes n v') with
          | (s2, .done) => (s2, .done, v)
          | (_, e) => (s, e, 0)
      | (s1, .waiting, _) => (s1, .waiting, 0)
      | (s1, e, _) => (s1, e, 0)

/-- Bytes from address `a` on cut into runs: at bytes that are not enabled and at line boundaries. -/
def runsOf (a : Nat) (cur : List Nat) : List (Option Nat) → List (Nat × List Nat)
  | [] => if cur.isEmpty then [] else [(a - cur.length, cur)]
  | none :: t => if cur.isEmpty then runsOf (a + 1) [] t else (a - cur.length, cur) :: runsOf (a + 1) [] t
  | some b :: t =>
    if a % 16 = 0 ∧ !cur.isEmpty then (a - cur.length, cur) :: runsOf (a + 1) [b] t else runsOf (a + 1) (cur ++ [b]) t

/-- A run cut into accesses of legal widths (R13), widest first. -/
def widthsOf (a : Nat) (bs : List Nat) : List Nat → List (Nat × List Nat)
  | [] => []
  | w :: t => if w ≤ bs.length then (a, bs.take w) :: widthsOf (a + w) (bs.drop w) t else widthsOf a bs t

/-- The accesses that write bytes of which some may not be enabled. -/
def accessesOf (a : Nat) (l : List (Option Nat)) : List (Nat × List Nat) :=
  (runsOf a [] l).flatMap (fun r => widthsOf r.1 r.2 [16, 8, 4, 2, 1])

/-- Make writes in order; the address of the first that fails, and that of one which must wait (then nothing after it is made). -/
def State.busWriteAll (s : State) (who : Initiator) : List (Nat × List Nat) → State × Option Nat × Option Nat
  | [] => (s, none, none)
  | (a, bs) :: t =>
    match s.busWrite who a bs with
    | (s, .waiting) => (s, none, some a)
    | (s, e) =>
      let (s, r, w) := s.busWriteAll who t
      (s, if e = .done then r else some a, w)

/-- Read `n` bytes in 32-bit pieces up to the first that does not end well or in poison: how it ended, the bytes, whether one was
poisoned. -/
def State.busReadAll (s : State) (who : Initiator) (a : Nat) : Nat → State × BusEnd × List Nat × Bool
  | 0 => (s, .done, [], false)
  | k + 1 =>
    match s.busRead who a 4 with
    | (s, .busError, _) => (s, .busError, [], false)
    | (s, .waiting, _) => (s, .waiting, [], false)
    | (s, e, v) =>
      let (s, e', bs, p) := s.busReadAll who (a + 4) k
      (s, e', leBytes 4 v ++ bs, p || e == .poisoned)

end Sys2Proof.Machine
end

