-- ==== Sys2Proof/Machine/Causeway.lean ====
section
/-! DEFINITION. The host interfaces (14): PCIe, the parallel host bus, the QSPI target; write ordering and the fence (R374, R394, R395), delayed
transactions (R391, R392), prefetch (R393), the lock (R387), outbound requests (R396, R397). Interface 0 is PCIe, 1 the host bus, 2 the
QSPI target. -/
namespace Sys2Proof.Machine

/-- Interface k. -/
def State.ifOf (s : State) (k : Nat) : CwIfSt := tget (fun _ => {}) s.cw.ifs k
/-- Store interface k. -/
def State.setIfc (s : State) (k : Nat) (x : CwIfSt) : State := s.modCw fun c => { c with ifs := tput (fun _ => {}) c.ifs k x }
/-- Change interface k. -/
def State.modIf (s : State) (k : Nat) (f : CwIfSt → CwIfSt) : State := s.setIfc k (f (s.ifOf k))

/-- The interconnect initiator of interface k (R12). -/
def ifWho (k : Nat) : Initiator := if k = 0 then .pcie else if k = 1 then .hostBus else .qspi
/-- The fence bit of interface k. -/
def fenceBit (k : Nat) : Fld := ⟨k, k⟩
/-- A fence is pending on interface k. -/
def State.fenced (s : State) (k : Nat) : Bool := s.bit CW_FENCE (fenceBit k)
/-- The interface of an initiator. -/
def ifNum : Initiator → Option Nat
  | .pcie => some 0
  | .hostBus => some 1
  | .qspi => some 2
  | _ => none
/-- An interface answers. -/
def State.reply (s : State) (k : Nat) (fin : CwFin) (data : List Nat := []) (poison : Bool := false) : State :=
  s.modIf k fun x => { x with reply := ⟨fin, data, poison, []⟩ }
/-- PCIe sends completions, each with its EP (R377). -/
def State.sendCpls (s : State) (fin : CwFin) (l : List (List Nat × Bool)) : State :=
  s.modIf 0 fun x => { x with reply := ⟨fin, l.flatMap Prod.fst, l.any Prod.snd, l⟩ }

/-! ## Errors of PCIe (R377, R380) -/

/-- An error in the AER capability: it is noted, and the first that is not masked with its packet's header. -/
def AerSt.note (x : AerSt) (e : AerErr) (h : Option TlpHead) : AerSt :=
  { x with status := if x.status.contains e then x.status else x.status ++ [e]
           first := if x.first.isNone && !x.mask.contains e then some (e, h) else x.first }
/-- The endpoint reports an error in its AER capability. -/
def State.aer (s : State) (e : AerErr) (h : Option TlpHead := none) : State := s.modCw fun c => { c with aer := c.aer.note e h }
/-- A packet arrives (R375, R380): a malformed one, or one whose ECRC is wrong while ECRC is checked, is reported and has no other effect. -/
def State.tlpIn (s : State) (flaw : Option TlpFlaw) (h : TlpHead) (f : State → State) : State :=
  match flaw with
  | none => f s
  | some .malformed => s.aer .malformedTlp (some h)
  | some .ecrc => if s.cw.aer.check then s.aer .ecrc (some h) else f s
/-- A request is answered Unsupported Request. -/
def State.sendUr (s : State) (h : Option TlpHead := none) : State :=
  ((s.setB HOSTIF_STATUS HOSTIF_STATUS_UR_SENT).aer .unsupportedRequest h).reply 0 .unsupported
/-- A request is completed with Completer Abort, after the completions already sent. -/
def State.sendCa (s : State) (h : TlpHead) (l : List (List Nat × Bool)) : State :=
  ((s.setB HOSTIF_STATUS HOSTIF_STATUS_CA_SENT).aer .completerAbort (some h)).sendCpls .completerAbort l

/-! ## Posted writes, their failures and the fence (R374, R394, R395) -/

/-- A posted write of interface k with number `seq` fails. -/
def State.pwFail (s : State) (k seq addr cause : Nat) : State :=
  let s := (s.setB CW_STATUS CW_STATUS_PW_FAIL).setB CW_FENCE (fenceBit k)
  match (List.range 16).find? (fun i => !s.bit (CW_PWLOG_INFO i) CW_PWLOG_INFO_VALID) with
  | some i => (s.setReg (CW_PWLOG_ADDR i) (w32 addr)).setReg (CW_PWLOG_INFO i) (w32 (seq % 2 ^ 16 + 2 ^ 16 * k + 2 ^ 20 * cause + 2 ^ 31))
  | none => s.setB CW_STATUS CW_STATUS_LOG_OVF

/-- A held read of a P region that a write of the interface to `n` bytes at `a` discards (R391). -/
def State.overlapsHeld (s : State) (a n : Nat) (d : Delayed) : Bool :=
  !d.write && decide (lineOf a ≤ lineOf d.addr) && decide (lineOf d.addr ≤ lineOf (a + n - 1))
    && (match regionOf d.addr with | some (r, _) => !s.sideEffect r | none => false)

/-- The prefetched lines of interface k are discarded, those still on their way too (R393). -/
def State.dropLines (s : State) (k : Nat) : State := s.modIf k fun x => { x with lines := [], pre := x.pre.map fun p => (p.1, false) }

/-- Fetches of interface k, on their way, of the lines of held reads `l` that are discarded: what they bring is discarded too (R391). -/
def State.dropFetches (s : State) (k : Nat) (l : List Delayed) : State :=
  if l.isEmpty then s
  else
    let gone (line : Nat) : Bool := l.any fun d => lineOf d.addr == line
    (s.forget fun x => x.who == ifWho k && x.bytes.isNone && decide (0x80000000 ≤ x.addr) && gone (lineOf x.addr)).modIf k fun x =>
      { x with pre := x.pre.filter fun p => !gone p.1 }

/-- A write is accepted on interface k: it is counted, the prefetched lines go, held reads of its lines go with their fetches (R391, R393, R394). -/
def State.countWrite (s : State) (k a n : Nat) : State :=
  ((s.dropLines k).dropFetches k ((s.ifOf k).dl.filter (s.overlapsHeld a n))).modIf k fun x =>
    { x with seq := (x.seq + 1) % 2 ^ 16, dl := x.dl.filter (fun d => !s.overlapsHeld a n d) }

/-- A posted write is accepted. -/
def State.postWrite (s : State) (k a : Nat) (bytes : List (Option Nat)) (cause : Nat) (more : Bool := false) : State :=
  let q := (s.ifOf k).seq
  (s.countWrite k a bytes.length).modIf k fun x => { x with ops := x.ops ++ [.write q a bytes cause more false] }

/-- Take the front operation off interface k. -/
def State.popOp (s : State) (k : Nat) : State := s.modIf k fun x => { x with ops := x.ops.drop 1, mute := x.mute - 1, got := [] }

/-- The accesses of a posted write: one 32-bit or MSI-X access on a register block, else the enabled bytes by width. -/
def writeAccesses (a : Nat) (bytes : List (Option Nat)) : List (Nat × List Nat) :=
  if 0x40000000 ≤ a ∧ a < 0x40180000 ∧ bytes.all Option.isSome then [(a, bytes.filterMap id)] else accessesOf a bytes

/-- A posted write fails at `f` on the far side, if at all; it is entered once (R394). -/
def State.writeEnds (s : State) (k seq : Nat) (failed : Bool) (f : Option Nat) : State :=
  match f with
  | some f => if failed then s else s.pwFail k seq f 1
  | none => s

/-- Perform the posted write at the front of interface k; what of it must wait stays there. -/
def State.landWrite (s : State) (k seq a : Nat) (bytes : List (Option Nat)) (cause : Nat) (more failed : Bool) : State :=
  if cause ≠ 0 then (s.popOp k).pwFail k seq a cause
  else match s.busWriteAll (ifWho k) (writeAccesses a bytes) with
    | (s, f, some b) => (s.writeEnds k seq failed f).modIf k fun x =>
        { x with ops := .write seq b (bytes.drop (b - a)) 0 more (failed || f.isSome) :: x.ops.drop 1 }
    | (s, f, none) => (s.popOp k).writeEnds k seq failed f

/-! ## Abandoned words, lines -/

/-- A word of a side-effecting region that the host has not taken (R392). -/
def State.lostWord (s : State) (k addr ben data : Nat) : State :=
  let s := s.count CW_LOST_CNT
  if s.bit CW_STATUS CW_STATUS_DISCARD_SE then s
  else (((s.setB CW_STATUS CW_STATUS_DISCARD_SE).setReg CW_LOST_DATA (w32 data)).setReg CW_LOST_ADDR (w32 addr)).setReg CW_LOST_INFO (w32 (ben % 16 + 2 ^ 16 * k))

/-- The region of an address is marked S, or there is none. -/
def State.isSide (s : State) (a : Nat) : Bool := match regionOf a with | some (r, _) => s.sideEffect r | none => false
/-- The region of an address is marked P. -/
def State.isPre (s : State) (a : Nat) : Bool := match regionOf a with | some (r, _) => !s.sideEffect r | none => false

/-- An accepted operation that discards the lines of interface k is still to be performed, a write or a read of a region S: a line fetched before it
is not held (R393). -/
def State.linesBarred (s : State) (k : Nat) : Bool := (s.ifOf k).ops.any fun o => match o with
  | .write _ _ _ _ _ _ => true
  | .delayed id => (s.ifOf k).dl.any fun d => d.id == id && d.result.isNone && (d.write || s.isSide d.addr)
  | _ => false

/-- Interface k holds a line that it has fetched, two at most. -/
def State.holdLine (s : State) (k line v : Nat) : State :=
  if s.linesBarred k then s else s.modIf k fun x => { x with lines := (x.lines ++ [(line, s.time.tick, v)]).drop (x.lines.length - 1) }
/-- Interface k holds the line of an address, which is of a P region. -/
def State.lineHeld (s : State) (k a : Nat) : Option Nat :=
  if s.isPre a then ((s.ifOf k).lines.find? (fun l => l.1 == lineOf a)).map (fun l => l.2.2) else none

/-- Fetch the line of an address ahead, if it is of a P region and reads well; that of an outbound window comes with its completion (R393). -/
def State.fetchLine (s : State) (k a : Nat) : State :=
  if !s.isPre a || s.linesBarred k || (s.lineHeld k a).isSome || (s.ifOf k).pre.any (fun p => p.1 == lineOf a && p.2) then s
  else match s.busRead (ifWho k) (lineOf a * 16) 16 with
    | (t, .done, v) => t.holdLine k (lineOf a) v
    | (t, .waiting, _) => if 0x80000000 ≤ a then t.modIf k fun x => { x with pre := x.pre ++ [(lineOf a, true)] } else s
    | (t, _, _) => t

/-- The word at `a` of a line. -/
def lineWord (a v : Nat) : Nat := v / 2 ^ (8 * (a % 16)) % 2 ^ 32

/-- Read the word at `a` for interface k: of an outbound window that is marked P with its whole line (R393). -/
def State.cwRead (s : State) (k a : Nat) : State × BusEnd × Nat :=
  if s.isPre a ∧ 0x80000000 ≤ a then
    match s.lineHeld k a with
    | some v => (s, .done, lineWord a v)
    | none => match s.busRead (ifWho k) (lineOf a * 16) 16 with
      | (s, .done, v) => (s.holdLine k (lineOf a) v, .done, lineWord a v)
      | r => r
  else s.busRead (ifWho k) a 4

/-- A read of a line ahead ends: the line is held if it is still wanted. -/
def State.preLand (s : State) (who : Initiator) (a : Nat) : State :=
  match ifNum who, s.ended who a with
  | some k, some x => match (s.ifOf k).pre.find? (fun p => 16 * p.1 == a) with
    | some p =>
      let r := x.result.getD (.busError, 0)
      let s := (s.takeEnded who a).modIf k fun x => { x with pre := x.pre.filter fun q => q.1 != p.1 }
      if p.2 ∧ r.1 = .done then s.holdLine k p.1 r.2 else s
    | none => s
  | _, _ => s

/-- The lines that a good read of the word at `a` makes the interface hold: its own, and after the last word of a line the next, of whatever region
marked P. -/
def State.prefetch (s : State) (k a : Nat) : State :=
  let s := s.fetchLine k a
  if a % 16 = 12 then s.fetchLine k (a + 4) else s

/-! ## Performing what an interface has accepted -/

/-- Change the delayed transaction with a number. -/
def State.modDl (s : State) (k id : Nat) (f : Delayed → Delayed) : State :=
  s.modIf k fun x => { x with dl := updFirst (fun d => d.id == id) f x.dl }

/-- The result of a delayed transaction arrives (R391). -/
def State.setResult (s : State) (k id : Nat) (err : Bool) (v : Nat) : State :=
  s.modDl k id fun d => { d with result := some (err, v), at' := s.time.tick }

/-- A locked read that is issued takes the lock (R387). -/
def State.takeLock (s : State) (d : Delayed) : State :=
  if d.locked then s.modCw fun c => { c with lock := c.lock.map (fun l => if l.taken.isNone ∧ !l.broken then { l with taken := some s.time.tick } else l) } else s

/-- Bytes of a delayed write, with its byte enables. -/
def Delayed.bytes (d : Delayed) : List (Option Nat) := (List.range 4).map (fun i => if bitOf i d.ben then some (d.data / 2 ^ (8 * i) % 256) else none)

/-- Perform the delayed transaction `d` of interface k. -/
def State.doDelayed (s : State) (k : Nat) (d : Delayed) : State :=
  if d.result.isSome then s.popOp k
  else if d.write then
    if 0x40000000 ≤ d.addr ∧ d.addr < 0x40180000 ∧ d.ben ≠ 15 then (s.popOp k).setResult k d.id true 0
    else match s.busWriteAll (ifWho k) (writeAccesses d.addr d.bytes) with
      | (s, _, some _) => s
      | (s, r, none) => (s.popOp k).setResult k d.id r.isSome 0
  else if s.fenced k then ((s.popOp k).clrB CW_FENCE (fenceBit k)).setResult k d.id true 0
  else if 0x40000000 ≤ d.addr ∧ d.addr < 0x40180000 ∧ d.ben ≠ 15 then (s.popOp k).setResult k d.id true 0
  else match (s.takeLock d).cwRead k d.addr with
    | (s, .waiting, _) => s
    | (s, .done, v) => ((s.popOp k).setResult k d.id false v).prefetch k d.addr
    | (s, _, _) => (s.popOp k).setResult k d.id true 0

/-- The new value of an AtomicOp on an operand of `n` bytes. -/
def atomicValue (kind : AtomicKind) (n a b old : Nat) : Option Nat :=
  match kind with
  | .fetchAdd => some ((old + a) % 2 ^ (8 * n))
  | .swap => some (a % 2 ^ (8 * n))
  | .cas => if old = a % 2 ^ (8 * n) then some (b % 2 ^ (8 * n)) else none

/-- An access of the PCIe read in front: one that has ended already while another of that read waited is not made again. -/
def State.pcieGet (s : State) (a n : Nat) : State × BusEnd × Nat :=
  match (s.ifOf 0).got.find? (fun x => x.1 == (a, n)) with
  | some x => (s, x.2)
  | none => match s.busRead .pcie a n with
    | (s, .waiting, v) => (s, .waiting, v)
    | (s, e, v) => (s.modIf 0 fun x => { x with got := x.got ++ [((a, n), e, v)] }, e, v)

/-- Read runs of bytes (address, width) up to the first that does not end well or in poison: how it ended, the bytes by their addresses,
whether one was poisoned. -/
def State.readRuns (s : State) : List (Nat × Nat) → State × BusEnd × List (Nat × Nat) × Bool
  | [] => (s, .done, [], false)
  | (a, n) :: t =>
    match s.pcieGet a n with
    | (s, .busError, _) => (s, .busError, [], false)
    | (s, .waiting, _) => (s, .waiting, [], false)
    | (s, e, v) =>
      let (s, e', l, p) := s.readRuns t
      (s, e', (leBytes n v).mapIdx (fun i b => (a + i, b)) ++ l, p || e == .poisoned)

/-- Read the enabled bytes of the DW at `a`, and no others (R393); a byte that is not enabled comes with a free value. -/
def State.readDw (s : State) (a be : Nat) : State × BusEnd × List Nat × Bool :=
  if be = 15 then match s.pcieGet a 4 with | (s, e, v) => (s, e, leBytes 4 v, e == .poisoned)
  else
    let runs := (accessesOf a ((List.range 4).map fun i => if bitOf i be then some 0 else none)).map fun r => (r.1, r.2.length)
    match s.readRuns runs with
    | (s, e, l, p) => (s.tickFree, e, (List.range 4).map fun i =>
        match l.find? (fun x => x.1 == a + i) with | some x => x.2 | none => (Config.freeByte (4 * s.free + i)).toNat, p)

/-- The DWs of a completion, from `a` on. -/
def State.readDws (s : State) (a : Nat) : List Nat → State × BusEnd × List Nat × Bool
  | [] => (s, .done, [], false)
  | be :: t =>
    match s.readDw a be with
    | (s, .busError, _, _) => (s, .busError, [], false)
    | (s, .waiting, _, _) => (s, .waiting, [], false)
    | (s, _, bs, p) =>
      let (s, e, l, q) := s.readDws (a + 4) t
      (s, e, bs ++ l, p || q)

/-- The DWs of a read cut into completions of at most 256 bytes that end at 64-byte boundaries (R377). -/
def cplSplit (a : Nat) : Nat → List Nat → List (Nat × List Nat)
  | 0, _ => []
  | _, [] => []
  | f + 1, bes =>
    let k := (256 - a % 64) / 4
    (a, bes.take k) :: cplSplit (a + 4 * k) f (bes.drop k)

/-- Fetch the completions of a read in order: how that ended, those complete before the end, and every byte fetched. -/
def State.readCpls (s : State) : List (Nat × List Nat) → State × BusEnd × List (List Nat × Bool) × List Nat
  | [] => (s, .done, [], [])
  | (a, bes) :: t =>
    match s.readDws a bes with
    | (s, .done, bs, p) =>
      let (s, e, l, all) := s.readCpls t
      (s, e, (bs, p) :: l, bs ++ all)
    | (s, e, bs, _) => (s, e, [], bs)

/-- The completions of a PCIe read. -/
def State.pcieFetch (s : State) (a : Nat) (bes : List Nat) : State × BusEnd × List (List Nat × Bool) × List Nat :=
  s.readCpls (cplSplit a bes.length bes)

/-- A PCIe read reaches its turn: the fence, a request that only Completer Abort answers, or the completions. -/
def State.doRead (s : State) (a : Nat) (bes : List Nat) : State :=
  let s' := s.popOp 0
  let h : TlpHead := ⟨.memRead, a, 4 * bes.length⟩
  if s.fenced 0 then (s'.clrB CW_FENCE (fenceBit 0)).sendCa h []
  else if bes = [] then s'.sendCa h []
  else match s.pcieFetch a bes with
    | (s, .waiting, _, _) => s
    | (s, .done, l, _) => (s.popOp 0).sendCpls .done l
    | (s, _, l, _) => (s.popOp 0).sendCa h l

/-- An AtomicOp reaches its turn. -/
def State.doAtomic (s : State) (a n : Nat) (kind : AtomicKind) (x y : Nat) : State :=
  let s' := s.popOp 0
  let h : TlpHead := ⟨.atomicOp, a, n⟩
  if s.fenced 0 then (s'.clrB CW_FENCE (fenceBit 0)).sendCa h []
  else match s.busAtomic .pcie a n (atomicValue kind n x y) with
    | (s, .waiting, _) => s
    | (s, .done, v) => (s.popOp 0).sendCpls .done [(leBytes n v, false)]
    | (s, .poisoned, v) => (s.popOp 0).sendCpls .done [(leBytes n v, true)]
    | (s, _, _) => (s.popOp 0).sendCa h []

/-- Perform the front operation of interface k. -/
def State.serveOp (s : State) (k : Nat) : State :=
  match (s.ifOf k).ops with
  | [] => s
  | .write q a bs c more failed :: _ => s.landWrite k q a bs c more failed
  | .ahead _ :: _ => s.popOp k
  | .read a bes :: _ => s.doRead a bes
  | .atomic a n kind x y :: _ => s.doAtomic a n kind x y
  | .delayed id :: _ => match (s.ifOf k).dl.find? (fun d => d.id == id) with
    | some d => s.doDelayed k d
    | none => s.popOp k

/-- What has been read of a side-effecting region for a host that is gone (R381, R392): every word that a PCIe read fetched. -/
def State.abandon (s : State) (o : CwOp) (s' : State) : State :=
  match o with
  | .read a bes =>
    if s.isSide a ∧ !s.fenced 0 then
      match s.pcieFetch a bes with
      | (_, .waiting, _, _) => s'
      | (_, _, _, all) => (bes.mapIdx (fun i be => (i, be))).foldl (fun s x =>
          if 4 * x.1 < all.length then s.lostWord 0 (a + 4 * x.1) x.2 (ofLe (slice all (4 * x.1) 4)) else s) s'
    else s'
  | _ => s'

/-- The lines that have come to the front of interface k are fetched. -/
def fetchAhead (k : Nat) : Nat → State → State
  | 0, s => s
  | fuel + 1, s =>
    match (s.ifOf k).ops with
    | .ahead a :: _ => fetchAhead k fuel ((s.popOp k).prefetch k a)
    | _ => s

/-- Perform the front operation of interface k; one accepted before a reset of the interface is not answered (R381). -/
def State.serve (s : State) (k : Nat) : State :=
  let x := s.ifOf k
  if x.mute = 0 then let t := s.serveOp k; fetchAhead k (t.ifOf k).ops.length t
  else match x.ops with
    | [] => s
    | o :: _ => (s.abandon o (s.serveOp k)).modIf k fun y => { y with reply := x.reply }

/-- The operation is a write. -/
def CwOp.isWrite : CwOp → Bool
  | .write _ _ _ _ _ _ => true
  | _ => false

/-- Perform the writes at the front of interface k and the first operation after them (R374). -/
def serveThrough (k : Nat) : Nat → State → State
  | 0, s => s
  | fuel + 1, s =>
    match (s.ifOf k).ops with
    | [] => s
    | o :: _ => if o.isWrite then serveThrough k fuel (s.serve k) else s.serve k

/-- The interface's next read, atomic or delayed transaction is performed, after every write accepted before it. -/
def State.serveNext (s : State) (k : Nat) : State := serveThrough k ((s.ifOf k).ops.length + 1) s

/-- The posted write at the front of interface k lands or fails. -/
def State.serveWrite (s : State) (k : Nat) : State :=
  match (s.ifOf k).ops with
  | .write _ _ _ _ _ _ :: _ => s.serve k
  | _ => s

/-- The posted write at the front of interface k fails at its target (R394); one that would land is left for its access. -/
def postedWriteFailure (k : Nat) (s : State) : State :=
  match (s.ifOf k).ops with
  | .write q a bs c more failed :: _ =>
    let s' := s.landWrite k q a bs c more failed
    if s'.bit CW_FENCE (fenceBit k) ∧ !failed ∧ (c ≠ 0 ∨ (s.busWriteAll (ifWho k) (writeAccesses a bs)).2.1.isSome) then s' else s
  | _ => s

/-! ## PCIe (R375 to R381) -/

/-- First internal address and size of the BAR that begins at BAR register `bar` (R376): each takes two registers. -/
def State.barOf (s : State) (bar : Nat) : Nat × Nat :=
  match bar with
  | 0 => (0x40000000, 2 ^ 24)
  | 2 => (0x10000000, 2 ^ 22)
  | 4 => ((s.reg HOSTIF_BAR4_BASE).toNat, 2 ^ 26)
  | _ => (0, 0)

/-- The request reaches a register block (R377). -/
def toRegs (bar a : Nat) : Bool := bar == 0 || (decide (0x40000000 ≤ a) && decide (a < 0x40180000))

/-- The bytes of a DW with its byte enables. -/
def dwBytes (be : Nat) (w : Nat) : List (Option Nat) := (List.range 4).map (fun i => if bitOf i be then some (w / 2 ^ (8 * i) % 256) else none)

/-- The writes into which an MWr to a register block divides (R377, R394). -/
def State.postDws (s : State) (a : Nat) : List (Nat × Nat) → State
  | [] => s
  | [d] => s.postWrite 0 a (dwBytes d.1 d.2) (if d.1 = 15 then 0 else 1)
  | d :: e :: t =>
    if d.1 = 15 ∧ e.1 = 15 ∧ a % 8 = 0 ∧ isMsixTable a then (s.postWrite 0 a (dwBytes 15 d.2 ++ dwBytes 15 e.2) 0 !t.isEmpty).postDws (a + 8) t
    else (s.postWrite 0 a (dwBytes d.1 d.2) (if d.1 = 15 then 0 else 1) true).postDws (a + 4) (e :: t)

/-- An outbound request with a buffer, not yet on the link: it may lose the buffer (R397). -/
def WaitAcc.mayLose (x : WaitAcc) : Bool := x.buf && !x.sent && x.result.isNone

/-- No buffer is free, and an outbound request may lose its own (R397). -/
def State.takesBack (s : State) : Bool :=
  !decide (s.cwOutHeld + s.cwInHeld < 32) && (s.cw.waits.any WaitAcc.mayLose || s.cw.strays.any WaitAcc.mayLose)

/-- An inbound request that finds no free buffer takes that of the youngest outbound request not yet on the link (R397). -/
def State.inboundRoom (s : State) : State :=
  if !s.takesBack then s
  else
    let take (l : List WaitAcc) : List WaitAcc := (updFirst WaitAcc.mayLose (fun x => { x with buf := false }) l.reverse).reverse
    let own := s.cw.waits.any WaitAcc.mayLose
    (s.modCw fun c => if own then { c with waits := take c.waits } else { c with strays := take c.strays }).count CW_OUT_RETRY

/-- An MWr (R377): DW offset in the BAR, DWs with their byte enables, EP. -/
def pcieMwr (bar dw : Nat) (dws : List (Nat × Nat)) (ep : Bool) (s : State) : State :=
  let (base, size) := s.barOf bar
  let a := base + 4 * dw
  let h : TlpHead := ⟨.memWrite, a, 4 * dws.length⟩
  if size < 4 * dw + 4 * dws.length then s.sendUr (some h)
  else
    let s := s.inboundRoom
    if ep then
      ((s.postWrite 0 a (dws.flatMap (fun d => dwBytes d.1 d.2)) 2).setB HOSTIF_STATUS HOSTIF_STATUS_POISON_RX).aer .poisonedTlp (some h)
    else if toRegs bar a then s.postDws a dws
    else s.postWrite 0 a (dws.flatMap (fun d => dwBytes d.1 d.2)) 0

/-- An MRd (R377): DW offset in the BAR, the byte enables of its DWs. -/
def pcieMrd (bar dw : Nat) (bes : List Nat) (s : State) : State :=
  let (base, size) := s.barOf bar
  let a := base + 4 * dw
  if size < 4 * dw + 4 * bes.length then s.sendUr (some ⟨.memRead, a, 4 * bes.length⟩)
  else
    let bad := toRegs bar a && !(bes == [15] || (bes == [15, 15] && a % 8 == 0 && isMsixTable a))
    s.inboundRoom.modIf 0 fun x => { x with ops := x.ops ++ [.read a (if bad then [] else bes)] }

/-- An AtomicOp (R377): operands of `n` bytes. -/
def pcieAtomicop (bar dw n : Nat) (kind : AtomicKind) (a b : Nat) (s : State) : State :=
  let (base, size) := s.barOf bar
  let addr := base + 4 * dw
  if size < 4 * dw + n ∨ (n ≠ 4 ∧ n ≠ 8) then s.sendUr (some ⟨.atomicOp, addr, n⟩)
  else
    let pim := 0x10000000 ≤ addr ∧ addr < 0x10100000
    s.inboundRoom.modIf 0 fun x => { x with ops := x.ops ++ [if pim then .atomic addr n kind a b else .read addr []] }

/-- A request that is not supported; a Type 1 message is discarded in silence (R377). -/
def unsupportedRequest (k : UrKind) (s : State) : State :=
  match k with
  | .vendorMessage1 => s
  | k => s.sendUr (some ⟨.unsupported k, 0, 0⟩)

/-- The state of an interface after its reset: what must still wait is performed later, unanswered. -/
def CwIfSt.cleared (x : CwIfSt) (ops : List CwOp) : CwIfSt := { ops := ops, mute := ops.length, got := x.got }

/-- Everything accepted on interface k is performed (R381). -/
def serveAll (k : Nat) : Nat → State → State
  | 0, s => s
  | fuel + 1, s =>
    match (s.ifOf k).ops with
    | [] => s
    | o :: _ => serveAll k fuel (s.abandon o (s.serveOp k))

/-- What becomes of a delayed transaction that the host no longer collects (R392). -/
def State.expireEntry (s : State) (k : Nat) (d : Delayed) : State :=
  match d.result with
  | none => s
  | some (err, v) =>
    if d.write then (if err then s.pwFail k d.seq d.addr 1 else s)
    else if err || !s.isSide d.addr then s.count CW_DR_EXPIRED
    else s.lostWord k d.addr d.ben v

/-- Interface k is reset (R381): what it accepted lands, reads in progress are kept as abandoned, its fence clears. -/
def State.ifReset (s : State) (k : Nat) : State :=
  let s := serveAll k ((s.ifOf k).ops.length) s
  let s := ((s.ifOf k).dl.filter (fun d => !d.write)).foldl (fun s d => s.expireEntry k d) s
  let rest := (s.ifOf k).ops.filter fun o => match o with | .delayed _ => false | .ahead _ => false | _ => true
  (s.setIfc k ((s.ifOf k).cleared rest)).clrB CW_FENCE (fenceBit k)

/-- An access that waits is a line being fetched ahead (R393). -/
def State.isAhead (s : State) (x : WaitAcc) : Bool :=
  match ifNum x.who with | some k => (s.ifOf k).pre.any (fun p => 16 * p.1 == x.addr) | none => false

/-- Outbound requests not yet completed end with a bus error (R381); those that fetch lines ahead, and those that nobody wants, end without a
trace. -/
def State.outEndAll (s : State) : State :=
  let s := s.modCw fun c => { c with
    strays := [],
    waits := (c.waits.filter fun x => !s.isAhead x).map (fun x => if x.result.isNone ∧ 0x80000000 ≤ x.addr then { x with result := some (.busError, 0) } else x) }
  [0, 1, 2].foldl (fun s k => s.modIf k fun x => { x with pre := [] }) s

/-- The PCIe function returns to its reset state: configuration space, and outbound requests end with a bus error (R381). -/
def State.pcieReset (s : State) : State :=
  let s := s.outEndAll.ifReset 0
  let s := ((s.clrB HOSTIF_PCIE_STATE HOSTIF_PCIE_STATE_BME).clrB HOSTIF_PCIE_STATE HOSTIF_PCIE_STATE_MSIX_EN).clrB HOSTIF_PCIE_STATE HOSTIF_PCIE_STATE_MSIX_FMASK
  s.modCw fun c => { c with cfg := [], aer := {} }

/-- The link is down. -/
def State.linkGone (s : State) : State := s.setReg HOSTIF_PCIE_STATE (w32 ((s.reg HOSTIF_PCIE_STATE).toNat / 2 ^ 8 * 2 ^ 8))

/-- A reset of the PCIe interface only (R381). In CHIP and CAUSEWAY reset it is absorbed (R473), while the level of PCIE_PERSTN and a link that
goes down stay facts. -/
def pcieInterfaceReset (r : PcieReset) (s : State) : State :=
  if s.rst.chip ∨ s.rst.cw then
    let s := match r with | .perstnLow => s.modCw fun c => { c with perst := true } | _ => s
    match r with | .functionLevel => s | _ => if s.rst.chip then s else s.linkGone
  else match r with
  | .functionLevel => s.pcieReset.setB HOSTIF_STATUS HOSTIF_STATUS_HOT_RESET
  | .hotReset => s.pcieReset.linkGone.setB HOSTIF_STATUS HOSTIF_STATUS_HOT_RESET
  | .linkDown => s.pcieReset.linkGone.setB HOSTIF_STATUS HOSTIF_STATUS_LINK_DOWN
  | .perstnLow => (s.pcieReset.linkGone.setB HOSTIF_STATUS HOSTIF_STATUS_LINK_DOWN).modCw fun c => { c with perst := true }

/-- PCIE_PERSTN rises (R482); while its bank is down it reads low (R500). -/
def pciePerstnRising (s : State) : State := if s.rst.banks.contains 6 then s else s.modCw fun c => { c with perst := false }

/-- Link training completes at the highest speed and width that both sides have: the endpoint has 8 GT/s and ×2 (R375). -/
def pcieLinkUp (speed width : Nat) (s : State) : State :=
  if s.cw.perst then s
  else
    let s := (s.setB HOSTIF_PCIE_STATE HOSTIF_PCIE_STATE_LINK_UP).setB SYS_CLK_STATUS ⟨4, 4⟩
    (s.putF HOSTIF_PCIE_STATE HOSTIF_PCIE_STATE_SPEED (min speed 2 + 1)).putF HOSTIF_PCIE_STATE HOSTIF_PCIE_STATE_WIDTH (min width 1 + 1)

/-- A configuration write of the host (R375, R378, R380). -/
def configurationWrite (f : CfgField) (s : State) : State :=
  match f with
  | .busMaster on => s.putB HOSTIF_PCIE_STATE HOSTIF_PCIE_STATE_BME on
  | .msixEnable on => s.putB HOSTIF_PCIE_STATE HOSTIF_PCIE_STATE_MSIX_EN on
  | .functionMask on => s.putB HOSTIF_PCIE_STATE HOSTIF_PCIE_STATE_MSIX_FMASK on
  | .ecrcGenerate on => s.modCw fun c => { c with aer := { c.aer with gen := on } }
  | .ecrcCheck on => s.modCw fun c => { c with aer := { c.aer with check := on } }
  | .aerMask e on => s.modCw fun c => { c with aer := { c.aer with mask := if on then e :: c.aer.mask.erase e else c.aer.mask.erase e } }
  | .aerFatal e on => s.modCw fun c => { c with aer := { c.aer with fatal := if on then e :: c.aer.fatal.erase e else c.aer.fatal.erase e } }
  | .aerClear e => s.modCw fun c => { c with aer := { c.aer with
      status := c.aer.status.erase e, first := if c.aer.first.map Prod.fst = some e then none else c.aer.first } }
  | .other dw w => s.modCw fun c => { c with cfg := tput (fun _ => 0) c.cfg dw.val w.toNat }

/-- What configuration space tells of the endpoint beside what the host writes there (R375, R380): identity, the most payload and completion
timeout ranges that it supports, the Function Level Reset. -/
structure CfgIdentity where
  id           : Word
  classRev     : Word
  maxPayload   : Nat
  timeoutRange : Nat
  flr          : Bool
  deriving DecidableEq, Repr

/-- The endpoint's identity, which HOSTIF_PCI_ID and HOSTIF_PCI_CLASS show too. -/
def State.cfgIdentity (s : State) : CfgIdentity := ⟨s.reg HOSTIF_PCI_ID, s.reg HOSTIF_PCI_CLASS, 256, 0, true⟩

/-- A packet that the endpoint sends now carries ECRC (R375). -/
def State.sendsEcrc (s : State) : Bool := s.cw.aer.gen

/-! ## Outbound requests (R396, R397) -/

/-- An outbound request of `who` at `a`, one that satisfies `p`, ends: one that its initiator no longer wants leaves nothing, another gives its initiator
the end, or a line ahead. -/
def State.outEnds (s : State) (who : Initiator) (a : Nat) (wr : Bool) (p : WaitAcc → Bool) (r : BusEnd × Nat) : State :=
  if s.cw.strays.any (fun x => x.isOf who a wr && p x) then s.modCw fun c => { c with strays := c.strays.eraseP fun x => x.isOf who a wr && p x }
  else (s.endWait who a r wr).preLand who a

/-- An outbound request goes out on the link: the oldest of its initiator that has a buffer, or finds one; one that may not go ends with a bus error. A
write leaves with its bytes, and has ended with that (R396). -/
def State.outSend (s : State) (who : Initiator) (a : Nat) : State :=
  match (s.cw.strays ++ s.cw.waits).find? (fun x => x.who == who && x.result.isNone && !x.sent && decide (0x80000000 ≤ x.addr)) with
  | some x =>
    if x.addr ≠ a then s
    else match s.outRoute x, x.bytes with
      | (.waiting, _), _ => s
      | (.done, p), some bs => (s.modCw fun c => { c with out := some (p, bs) }).outEnds who a true (!·.sent) (.done, 0)
      | (.done, p), none => s.modCw fun c => { c with
          waits := updFirst (fun y => y.isOf who a false && y.result.isNone) (fun y => { y with buf := true, sent := true, pci := some p }) c.waits }
      | (_, _), b => s.outEnds who a b.isSome (!·.sent) (.busError, 0)
  | none => s

/-- An outbound read of `who` at `a` is on the link. -/
def State.readSent (s : State) (who : Initiator) (a : Nat) : Bool :=
  (s.cw.strays ++ s.cw.waits).any fun x => x.isOf who a false && x.sent && x.result.isNone

/-- The completion of an outbound read arrives (R396): it is delivered, with EP as poisoned data, which the endpoint reports as requester (R380), or
discarded where nobody wants it (R260); or it is unexpected. -/
def outboundCompletion (who : Initiator) (a : Nat) (r : BusEnd × Nat) (s : State) : State :=
  if s.readSent who a then (if r.1 = .poisoned then s.aer .poisonedTlp (some ⟨.completion, a, 0⟩) else s).outEnds who a false (·.sent) r
  else
    let s := s.aer .unexpectedCompletion (some ⟨.completion, a, 0⟩)
    if s.cw.late.contains (who, a) then
      (s.setB CW_STATUS CW_STATUS_LATE_CPL).modCw fun c => { c with late := c.late.erase (who, a) }
    else s

/-- An outbound read has had no completion for 4,096 core cycles (R380). -/
def completionTimeout (who : Initiator) (a : Nat) (s : State) : State :=
  if s.readSent who a then
    ((s.outEnds who a false (·.sent) (.busError, 0)).aer .completionTimeout).modCw fun c => { c with late := c.late ++ [(who, a)] }
  else s

/-- An outbound request has not been accepted, that is found no buffer, for 4,096 core cycles (R397). -/
def outStarved (who : Initiator) (a : Nat) (s : State) : State :=
  match (s.cw.strays ++ s.cw.waits).find? (fun x => x.who == who && x.addr == a && !x.buf && x.result.isNone && decide (0x80000000 ≤ x.addr)) with
  | some x => (s.outEnds who a x.bytes.isSome (!·.buf) (.busError, 0)).setB CW_STATUS CW_STATUS_OUT_STARVED
  | none => s

/-! ## Delayed reads and writes (R385, R391, R393) -/

/-- Remove a delayed transaction. -/
def State.dropDl (s : State) (k id : Nat) : State := s.modIf k fun x => { x with dl := x.dl.filter (fun d => d.id != id) }

/-- A delayed transaction is accepted. -/
def State.addDl (s : State) (k : Nat) (d : Delayed) : State := s.modIf k fun x =>
  { x with dl := x.dl ++ [{ d with id := x.next }], ops := x.ops ++ [.delayed x.next], next := x.next + 1 }

/-- The end of a delayed read whose result has come. -/
def State.collect (s : State) (k id : Nat) : State × CwFin × Nat :=
  match (s.ifOf k).dl.find? (fun d => d.id == id) with
  | some d => match d.result with
    | none => (s, .retry, 0)
    | some (err, v) => (s.dropDl k id, if err then .error else .done, v)
  | none => (s, .retry, 0)

/-- A read of the word at `a` on interface k: how it ends now, and the word (R385, R391, R393, R395). `quick`: what the interface has accepted
reaches its turn within the cycle, so the data of a read that need not wait is present. A read of a locked sequence is issued even where its line
is held, since the lock is taken by that (R387). The next line, which a hit asks for, is fetched after what has been accepted earlier (R374). -/
def State.hostRead (s : State) (k a ben : Nat) (locked quick : Bool) : State × CwFin × Nat :=
  let s := if s.isSide a ∨ (s.lineHeld k a).isNone then s.dropLines k else s
  match (s.ifOf k).dl.find? (fun d => !d.write && d.addr == a && d.ben == ben) with
  | some d => (if quick ∧ d.result.isNone then s.serveNext k else s).collect k d.id
  | none =>
    if s.fenced k then (s.clrB CW_FENCE (fenceBit k), .error, 0)
    else match (if locked then none else s.lineHeld k a) with
      | some v => (if (s.ifOf k).ops.isEmpty then s.prefetch k a else s.modIf k fun x => { x with ops := x.ops ++ [.ahead a] }, .done, lineWord a v)
      | none =>
        if 4 ≤ (s.ifOf k).dl.length then (s, .retry, 0)
        else
          let id := (s.ifOf k).next
          let s := s.inboundRoom.addDl k { id := 0, write := false, addr := a, ben := ben, data := 0, locked := locked }
          if quick then (s.serveNext k).collect k id else (s, .retry, 0)

/-- A delayed write of the word at `a` on interface k. -/
def State.hostDelayedWrite (s : State) (k a ben data : Nat) (locked : Bool) : State × CwFin :=
  match (s.ifOf k).dl.find? (fun d => d.write && d.addr == a && d.ben == ben && d.data == data) with
  | some d => match d.result with
    | none => (s, .retry)
    | some (err, _) => (s.dropDl k d.id, if err then .error else .done)
  | none =>
    if 4 ≤ (s.ifOf k).dl.length then (s, .retry)
    else
      let q := (s.ifOf k).seq
      ((s.inboundRoom.countWrite k a 4).addDl k { id := 0, write := true, addr := a, ben := ben, data := data, locked := locked, seq := q }, .retry)

/-- The operation holds a word of the write buffer: a write that a discarded frame left to fail holds none (R389, R390). -/
def CwOp.isWord : CwOp → Bool
  | .write _ _ bs _ _ _ => !bs.isEmpty
  | _ => false
/-- Words of the write buffer that posted writes of interface k hold. -/
def State.bufferedWords (s : State) (k : Nat) : Nat := ((s.ifOf k).ops.filter CwOp.isWord).length

/-! ## The parallel host bus (R382 to R387) -/

/-- The host bus is 16 bits wide. -/
def State.hbNarrow (s : State) : Bool := !s.bit HOSTIF_HB_CFG HOSTIF_HB_CFG_WIDTH
/-- Hold nothing of a 16-bit pair. -/
def State.dropHalf (s : State) : State := s.modIf 1 fun x => { x with half := none }
/-- Hold half of a 16-bit pair (R386). -/
def State.holdHalf (s : State) (a : Nat) (write : Bool) (v : Nat) : State := s.modIf 1 fun x => { x with half := some (a, write, v) }
/-- The half held for the word at `a`. -/
def State.halfOf (s : State) (a : Nat) (write : Bool) : Option Nat :=
  match (s.ifOf 1).half with | some (b, w, v) => if b = a ∧ w = write then some v else none | none => none

/-- HB_LOCKN high ends a locked sequence and releases the lock (R387). -/
def State.lockSample (s : State) (lockn : Bool) : State := if lockn then s.modCw fun c => { c with lock := none } else s

/-- The rules of R387 for an access to `a` within or at the start of a locked sequence: whether it ends in error, and the state. -/
def State.lockRule (s : State) (a : Nat) (read lockn : Bool) : State × Bool :=
  match s.cw.lock with
  | some l =>
    if l.broken then (s, true)
    else if (regionOf a).map Prod.snd = some l.region then (s, false)
    else (s.modCw fun c => { c with lock := none }, true)
  | none =>
    if lockn || !read then (s, false)
    else match regionOf a with
      | some (r, base) => if r.atomics then (s.modCw fun c => { c with lock := some { region := base } }, false) else (s, true)
      | none => (s, true)

/-- A locked sequence is in progress. -/
def State.lockedSeq (s : State) : Bool := s.cw.lock.isSome

/-- A write of the host bus that is held as a delayed write (R391). -/
def State.heldWrite (s : State) (a ben data : Nat) : Option Delayed :=
  (s.ifOf 1).dl.find? (fun d => d.write && d.addr == a && d.ben == ben && d.data == data)

/-- Registers take 32-bit accesses only (R13). -/
def wordOnly (a : Nat) : Bool := decide (0x40000000 ≤ a) && decide (a < 0x40180000)

/-- End a host bus cycle. -/
def State.hbEnd (s : State) (fin : CwFin) (v n : Nat) : State := s.reply 1 fin (if fin = .done then leBytes n v else [])

/-- The host bus control page (R383): an access at `a` of 0xFFFFF0 to 0xFFFFFF. The page is in no region, so in a locked sequence such an access
ends in error and releases the lock, and after a break it ends in error like every other (R387; DEDUCED, log 126). -/
def hbControlPage (a : Nat) (write : Bool) (ben data : Nat) (s : State) : State :=
  if !s.hbOn then s
  else if s.lockedSeq then (s.modCw fun c => { c with lock := c.lock.filter HbLock.broken }).dropHalf.hbEnd .error 0 0
  else if s.hbNarrow then
    if a = 0xFFFFF0 ∧ ben % 4 = 3 then
      (if write then (s.holdHalf 0 true (data % 2 ^ 16)).hbEnd .done 0 0
       else (s.holdHalf 0 false ((s.reg HOSTIF_HB_PAGE).toNat / 2 ^ 16)).hbEnd .done ((s.reg HOSTIF_HB_PAGE).toNat % 2 ^ 16) 2)
    else if a = 0xFFFFF2 ∧ ben % 4 = 3 then
      match s.halfOf 0 write with
      | some v => if write then ((s.dropHalf.regWrite .hostBus HOSTIF_HB_PAGE (w32 (v + 2 ^ 16 * (data % 2 ^ 16)))).1).hbEnd .done 0 0
                  else s.dropHalf.hbEnd .done v 2
      | none => s.dropHalf.hbEnd .error 0 0
    else s.dropHalf.hbEnd .error 0 0
  else if a / 4 = 0xFFFFF0 / 4 ∧ ben = 15 then
    (if write then ((s.dropHalf.regWrite .hostBus HOSTIF_HB_PAGE (w32 data)).1).hbEnd .done 0 0
     else s.dropHalf.hbEnd .done (s.reg HOSTIF_HB_PAGE).toNat 4)
  else s.dropHalf.hbEnd .error 0 0

/-- The word, its byte enables and the place of a 16-bit access in it. -/
def hbLane (narrow : Bool) (a ben : Nat) : Nat × Nat × Nat :=
  if narrow then (a / 4 * 4, ben % 4 * (if a % 4 < 2 then 1 else 4), a % 4 / 2) else (a / 4 * 4, ben % 16, 0)

/-- A read cycle of the host bus (R383 to R387). -/
def hbReadCycle (off ben : Nat) (lockn quick : Bool) (s : State) : State :=
  if !s.hbOn then s
  else
    let s := s.lockSample lockn
    if 0xFFFFF0 ≤ off then (if !lockn ∧ !s.lockedSeq then s.dropHalf.hbEnd .error 0 0 else hbControlPage off false ben 0 s)
    else
      let nr := s.hbNarrow
      let (wa, ben4, hi) := hbLane nr (s.fld HOSTIF_HB_PAGE HOSTIF_HB_PAGE_PAGE * 2 ^ 24 + off) ben
      match s.lockRule wa true lockn with
      | (s, true) => s.dropHalf.hbEnd .error 0 0
      | (s, false) =>
        if nr ∧ wordOnly wa then
          if ben % 4 ≠ 3 then s.dropHalf.hbEnd .error 0 0
          else if hi = 1 then (match s.halfOf wa false with | some v => s.dropHalf.hbEnd .done v 2 | none => s.dropHalf.hbEnd .error 0 0)
          else match s.dropHalf.hostRead 1 wa 15 s.lockedSeq quick with
            | (s, fin, v) => (if fin = .done then s.holdHalf wa false (v / 2 ^ 16) else s).hbEnd fin (v % 2 ^ 16) 2
        else match s.dropHalf.hostRead 1 wa ben4 s.lockedSeq quick with
          | (s, fin, v) => if nr then s.hbEnd fin (v / 2 ^ (16 * hi) % 2 ^ 16) 2 else s.hbEnd fin v 4

/-- A write of a word on the host bus: posted, delayed, or retried (R385); the reissue of a held delayed write is one wherever it comes (R391). -/
def State.hbCycleWrite (s : State) (wa ben4 data : Nat) : State × CwFin :=
  if s.isSide wa ∨ s.lockedSeq ∨ (s.heldWrite wa ben4 data).isSome then s.hostDelayedWrite 1 wa ben4 data s.lockedSeq
  else if 16 ≤ s.bufferedWords 1 then (s, .retry)
  else (s.inboundRoom.postWrite 1 wa (dwBytes ben4 data) 0, .done)

/-- The held write that a cycle reissues, if its result has come: its number, whether it failed (R391). -/
def State.heldEnd (s : State) (a ben data : Nat) : Option (Nat × Bool) := (s.heldWrite a ben data).bind fun d => d.result.map fun (r : Bool × Nat) => (d.id, r.1)

/-- The held write of a 16-bit pair whose high half `v` comes, its low half being kept (R386). -/
def State.heldPair (s : State) (a v : Nat) : Option (Nat × Bool) := (s.halfOf a true).bind fun l => s.heldEnd a 15 (l + 2 ^ 16 * v)

/-- A held write whose reissue has ended is freed. -/
def State.dropHeld (s : State) (h : Option (Nat × Bool)) : State := match h with | some p => s.dropDl 1 p.1 | none => s

/-- A write cycle of the host bus (R383 to R387). The low half of a pair is kept while its high half is retried. A held write that has landed is
done at its reissue, whatever has become of the lock (R26, R387); one that has failed ends in error and is freed (R391). -/
def hbWriteCycle (off ben data : Nat) (lockn : Bool) (s : State) : State :=
  if !s.hbOn then s
  else
    let s := s.lockSample lockn
    if 0xFFFFF0 ≤ off then hbControlPage off true ben data s
    else
      let nr := s.hbNarrow
      let (wa, ben4, hi) := hbLane nr (s.fld HOSTIF_HB_PAGE HOSTIF_HB_PAGE_PAGE * 2 ^ 24 + off) ben
      let w := if nr then data % 2 ^ 16 * 2 ^ (16 * hi) else data
      let held := if nr ∧ wordOnly wa then (if hi = 1 ∧ ben % 4 = 3 then s.heldPair wa (data % 2 ^ 16) else none) else s.heldEnd wa ben4 w
      match (if held.map Prod.snd = some false then (s, false) else s.lockRule wa false lockn) with
      | (s, true) => (s.dropHeld held).dropHalf.hbEnd .error 0 0
      | (s, false) =>
        if nr ∧ wordOnly wa then
          if ben % 4 ≠ 3 then s.dropHalf.hbEnd .error 0 0
          else if hi = 0 then (s.holdHalf wa true (data % 2 ^ 16)).hbEnd .done 0 0
          else match s.halfOf wa true with
            | none => s.dropHalf.hbEnd .error 0 0
            | some v => match s.hbCycleWrite wa 15 (v + 2 ^ 16 * (data % 2 ^ 16)) with
              | (s, fin) => (if fin = .retry then s else s.dropHalf).hbEnd fin 0 0
        else match s.dropHalf.hbCycleWrite wa ben4 w with
          | (s, fin) => s.hbEnd fin 0 0

/-- A lock has been held for 2 µs (R387). -/
def lockBroken (s : State) : State :=
  match s.cw.lock with
  | some l => match l.taken with
    | some t =>
      if l.broken ∨ s.time.tick < t + 500 then s
      else
        let s := (s.setB CW_STATUS CW_STATUS_LOCK_BROKEN).count CW_LOCK_BROKEN
        let s := s.modCw fun c => { c with lock := some { l with broken := true } }
        s.modIf 1 fun x => { x with dl := x.dl.map (fun d =>
          if d.locked ∧ d.write ∧ d.result.isNone then { d with result := some (true, 0), at' := s.time.tick } else d) }
    | none => s
  | none => s

/-! ## The QSPI target (R388 to R390) -/

/-- The write buffer has room for 16 words (R389). -/
def State.qstRoom (s : State) : Bool := s.bufferedWords 2 == 0

/-- The status byte (R389). -/
def State.qstStatus (s : State) (fin : CwFin) : Nat :=
  (match fin with | .done => 0 | .retry => 1 | _ => 2) + 4 * b2n s.qstRoom + 8 * b2n s.qstIrq

/-- A WRITE frame with its complete words (R390). -/
def qspiWrite (a : Nat) (ws : List Nat) (s : State) : State :=
  let s := s.inboundRoom
  if !s.qstRoom then (s.postWrite 2 a [] 3).setB HOSTIF_STATUS HOSTIF_STATUS_QST_OVERRUN
  else if a % 4 ≠ 0 then s.postWrite 2 a [] 1
  else
    let s := ((ws.take 16).mapIdx (fun i w => (i, w))).foldl
      (fun s x => s.postWrite 2 (a + 4 * x.1) (dwBytes 15 x.2) 0 (decide (x.1 + 1 < ws.length))) s
    if 16 < ws.length then s.modIf 2 fun x => { x with ops := x.ops ++ [.write x.seq (a + 64) [] 3 false false] } else s

/-- A READ frame (R388, R389). -/
def qspiRead (a : Nat) (quick : Bool) (s : State) : State :=
  if a % 4 ≠ 0 then let s := s.clrB CW_FENCE (fenceBit 2); s.reply 2 .error [s.qstStatus .error, 0, 0, 0, 0]
  else match s.hostRead 2 a 15 false quick with
    | (s, fin, v) => s.reply 2 fin (s.qstStatus fin :: leBytes 4 (if fin = .done then v else 0))

/-- A STATUS frame. -/
def qspiStatus (s : State) : State := s.reply 2 .done [s.qstStatus .done]
/-- An ID frame. -/
def qspiId (s : State) : State := s.reply 2 .done (leBytes 4 (s.reg SYS_ID).toNat)
/-- A frame with an unknown command byte. -/
def qstBadcmd (code : Nat) (s : State) : State :=
  if code = 0x02 ∨ code = 0x0B ∨ code = 0x05 ∨ code = 0x9F then s else s.setB HOSTIF_STATUS HOSTIF_STATUS_QST_BADCMD

/-! ## Time limits (R392, R393) -/

/-- 64 µs in TSCLK ticks. -/
def holdTicks : Nat := 16000

/-- Delayed transactions of interface k whose result is 64 µs old expire (R392). -/
def delayedExpiry (k : Nat) (s : State) : State :=
  let old (d : Delayed) : Bool := d.result.isSome && decide (d.at' + holdTicks ≤ s.time.tick)
  let s' := ((s.ifOf k).dl.filter old).foldl (fun s d => s.expireEntry k d) s
  s'.modIf k fun x => { x with dl := x.dl.filter (fun d => !old d) }

/-- Prefetched lines of interface k that are 64 µs old go (R393). -/
def prefetchExpiry (k : Nat) (s : State) : State :=
  s.modIf k fun x => { x with lines := x.lines.filter (fun l => decide (s.time.tick < l.2.1 + holdTicks)) }

end Sys2Proof.Machine
end

