-- ==== Sys2Proof/Machine/Power.lean ====
section
/-! DEFINITION. Power, clocks, resets and the start of the boot ROM (17, R461 to R478): what the supplies and references do, the CHIP, CORE and
CAUSEWAY resets, their release. -/
namespace Sys2Proof.Machine

/-- Change the record of resets and supplies. -/
def State.modRst (s : State) (f : RstSt → RstSt) : State := { s with rst := f s.rst }
/-- Change the record of the harbourmaster's software. -/
def State.modHm (s : State) (f : HmSt → HmSt) : State := { s with hm := f s.hm }

/-! ## Supplies and clocks (R461 to R470) -/

/-- VIN rises through 2.65 V: the lighthouse starts if it had no power. -/
def vinValid (s : State) : State :=
  let s := s.modRst fun r => { r with vinBad := false }
  if s.rst.lhOff then
    let s := s.lhPowerUp.modRst fun r => { r with lhOff := false }
    if s.rst.banks.contains 7 then lhSafen true s else s
  else s

/-- VIN falls below 2.55 V: CHIP reset with SOURCE POWER. -/
def vinInvalid (s : State) : State := if s.rst.vinBad then s else (s.modRst fun r => { r with vinBad := true }).resetReq .chip 0

/-- VCORE or VANA leaves regulation while VIN is valid (R464). -/
def railOutOfRegulation (s : State) : State := if s.rst.vinBad then s else (s.modRst fun r => { r with rail := true }).resetReq .chip 0

/-- REFCLK is lost or the core PLL unlocks (R469). -/
def refclkFailure (s : State) : State := (s.modRst fun r => { r with clk := true }).resetReq .chip 0

/-- RESETN, filtered (R474). -/
def resetn (low : Bool) (s : State) : State :=
  if low ∧ !s.rst.pin then (s.modRst fun r => { r with pin := true }).resetReq .chip 1
  else if low then s
  else if s.rst.banks.contains 7 then s
  else s.modRst fun r => { r with pin := false }

/-- Bank b falls or rises (R463, R500): inputs of a bank that is down read 0, which takes RESETN and LH_SAFEN with bank 7 and PCIE_PERSTN with
bank 6; TRSTN reads low with bank 7 too, which resets the TAP (R453). -/
def bankDown (b : Nat) (up : Bool) (s : State) : State :=
  if up then s.modRst fun r => { r with banks := nerase b r.banks }
  else if s.rst.banks.contains b then s
  else
    let s := s.modRst fun r => { r with banks := ninsert b r.banks }
    let s := s.setIf (!s.rst.chip) SYS_STATUS SYS_STATUS_BANK_DOWN
    if b = 7 then resetn true (lhSafen true (tapReset s)) else if b = 6 then pcieInterfaceReset .perstnLow s else s

/-- TSREF shows no edge for 2 µs (R467). -/
def tsrefLost (s : State) : State :=
  if s.bit SYS_CLK_CFG SYS_CLK_CFG_TS_ACTIVE then
    (((s.setB SYS_STATUS SYS_STATUS_TSREF_LOST).clrB SYS_CLK_CFG SYS_CLK_CFG_TS_ACTIVE).clrB SYS_CLK_STATUS TIME_LOCK).modRst fun r => { r with tsFell := true }
  else s

/-- The time PLL locks to the reference selected, or to REFCLK after a loss (R467); TSREF shows no edge to lock to while its bank is down (R463,
R500). -/
def timePllLocked (s : State) : State :=
  if s.fld SYS_CLK_CFG SYS_CLK_CFG_TS_SRC ≠ 0 ∧ !s.rst.tsFell ∧ s.rst.banks.contains 6 then s
  else (s.setB SYS_CLK_STATUS TIME_LOCK).putB SYS_CLK_CFG SYS_CLK_CFG_TS_ACTIVE (s.fld SYS_CLK_CFG SYS_CLK_CFG_TS_SRC != 0 && !s.rst.tsFell)

/-- CAN_REF shows no edge for 1 µs (R468). -/
def canrefLost (s : State) : State :=
  if s.bit SYS_CLK_CFG SYS_CLK_CFG_CAN_ACTIVE then
    (s.setB SYS_STATUS SYS_STATUS_CANREF_LOST).clrB SYS_CLK_CFG SYS_CLK_CFG_CAN_ACTIVE
  else s

/-! ## The boot ROM begins (R456, R471, R477 to R480) -/

/-- STAGE values of SYS_BOOT (R493). -/
def stROM : Nat := 1
/-- LOADING -/ def stLOADING : Nat := 2
/-- WAIT_HOST -/ def stWAIT : Nat := 3
/-- MUSTER -/ def stMUSTER : Nat := 4
/-- DOWNLOAD -/ def stDOWNLOAD : Nat := 5
/-- FIRMWARE -/ def stFIRMWARE : Nat := 6
/-- FAILED -/ def stFAILED : Nat := 7
/-- HELD -/ def stHELD : Nat := 8

/-- What the harbourmaster runs, with its stage. -/
def State.hmStage (s : State) (r : HmRun) (st : Nat) : State := (s.putF SYS_BOOT SYS_BOOT_STAGE st).modHm fun h => { h with run := r }

/-- Ring bit b of MB_DB_OUT. -/
def State.ringOut (s : State) (b : Nat) : State := s.setReg MB_DB_OUT (w32 (withBit (s.reg MB_DB_OUT).toNat b true))

/-- The ROM waits for an image: it rings bit 16 on entering its wait (R480). -/
def State.romWait (s : State) : State := (s.hmStage .waitHost stWAIT).ringOut 16

/-- The muster begins: the pair of ports enters its mode (R487), by way of OFF where a port stands in another one (R129). -/
def State.musterEnter (s : State) : State :=
  let p := 2 * s.fld SYS_MUSTER SYS_MUSTER_PAIR
  let mode := s.fld SYS_MUSTER SYS_MUSTER_MODE
  let put (s : State) (n m : Nat) : State := (s.regWrite .hm (PORT_CTL n) (PORT_CTL_MODE.put (s.reg (PORT_CTL n)) m)).1
  let up (s : State) (n : Nat) : State :=
    let old := s.fld (PORT_CTL n) PORT_CTL_MODE
    put (if old = 0 ∨ old = mode then s else put s n 0) n mode
  (up (up s p) (p + 1)).hmStage .muster stMUSTER

/-- BOOT of the straps. -/
def State.bootStrap (s : State) : Nat := s.fld SYS_STRAPS SYS_STRAPS_BOOT

/-- The boot ROM starts under BOOT; DEBUG_HALT and HM_HOLD leave the harbourmaster HALTED before its first instruction. -/
def State.bootRom (s : State) : State :=
  if s.bootStrap = 7 ∨ s.bit DBG_CTL DBG_CTL_HM_HOLD then
    (s.setQe 24 { run := .halted, cause := HaltCause.code .debug }).hmStage .held stHELD
  else if s.bootStrap = 5 then s.musterEnter
  else if 2 ≤ s.bootStrap ∧ s.bootStrap ≤ 4 then s.romWait
  else s.hmStage .rom stROM

/-! ## CHIP reset (R471, R473, R475, R478) -/

/-- Sources of the pending requests of a scope. -/
def State.reqSources (s : State) (sc : Scope) : List Nat := (s.rst.req.filter (fun r => r.1 == sc)).map Prod.snd

/-- The lowest of the sources. -/
def lowest (l : List Nat) : Nat := l.foldl min 7

/-- Registers that CHIP reset keeps: LIGHTHOUSE and DEBUG. -/
def chipKeeps (a : Nat) : Bool := blockOf a == 1 || blockOf a == 22

/-- Memory that CHIP reset keeps: the boot ROM, MRAM and the flash behind its window. -/
def chipKeepsMem (a : Nat) : Bool := decide (a < 0x10000) || inMram a || (decide (0x60000000 ≤ a) && decide (a < 0x68000000))

/-- Every block at its reset values, but for what R471 keeps: the lighthouse, the TAP and DEBUG, MRAM and what stands for it, the supplies and
pins. -/
def State.chipFresh (s : State) : State :=
  { regs := s.regs.filter (fun p => chipKeeps p.1)
    mem := s.mem.filter (fun p => chipKeepsMem p.1)
    mm := { poison := s.mm.poison.filter (fun l => chipKeepsMem (16 * l)), soft := s.mm.soft.filter (fun l => chipKeepsMem (16 * l)), wback := [] }
    free := s.free, lh := { s.lh with clock := {}, clockAt := 0, wdogAt := [] }, tap := { s.tap with links := [] }, rst := { s.rst with tsFell := false }, cw := { perst := s.cw.perst }
    nv := s.nv, pending := s.pending, mio := s.mio
    pset := (s.pset.filter (fun p => p.2.ext != 0)).map (fun p => (p.1, { ext := p.2.ext })) }

/-- A CHIP reset that has been requested begins; one from another source than POWER leaves the PLLs running (R474). -/
def chipReset (s : State) : State :=
  match s.reqSources .chip with
  | [] => s
  | l =>
    let src := lowest l
    let pcieLock := bitsOf 4 4 (s.reg SYS_CLK_STATUS).toNat
    let s := s.chipFresh
    let s := (s.setReg LH_RESET_CAUSE (w32 (src * 16))).setReg SYS_CLK_STATUS (w32 (if src = 0 then 0 else 16 * pcieLock))
    { s with rst := { s.rst with chip := true, core := false, cw := false, req := [] }, lh := { s.lh with codes := s.lh.codes ++ [(0x02, src)] } }

/-- VIN falls below 2.0 V: the lighthouse and the whole device are in reset (R461). -/
def lighthousePowerLoss (s : State) : State :=
  let s := (vinInvalid s).modRst fun r => { r with lhOff := true }
  if s.rst.chip then s else chipReset s

/-- CHIP reset is released (R474 to R478): straps are sampled, the clocks have locked, the held codes reach the recorder, the boot ROM starts. -/
def chipResetRelease (boot addrMode : Nat) (width : Bool) (s : State) : State :=
  if !s.rst.chip || s.rst.pin || s.rst.vinBad || s.rst.lhOff then s
  else
    let up := !s.rst.banks.contains 7
    let boot := if up then boot else 0
    let mode := if up then addrMode else 0
    let width := up && width
    let s := s.modRst fun r => { r with chip := false, rail := false, clk := false }
    let s := s.setReg SYS_STRAPS (w32 (boot + 16 * mode + 64 * b2n width))
    let s := s.setReg SYS_CLK_STATUS (s.reg SYS_CLK_STATUS ||| 15)
    let s := (s.putF HOSTIF_HB_CFG HOSTIF_HB_CFG_MODE mode).putB HOSTIF_HB_CFG HOSTIF_HB_CFG_WIDTH width
    let s := s.setIf (mode == 3) HOSTIF_STATUS HOSTIF_STATUS_HB_MODE_BAD
    let s := s.setReg SYS_MUSTER (w32 (s.nv.etype % 65536 + 2 ^ 16 * s.nv.pair + 2 ^ 20 * s.nv.mode))
    let codes := s.lh.codes
    let s := s.modLh fun l => { l with codes := [] }
    let s := codes.foldl (fun s c => s.logEv c.1 c.2) s
    (s.wdogRestart 24).bootRom

/-! ## CORE and CAUSEWAY resets (R471) -/

/-- Registers that a CORE reset returns to their reset values: QECTL, FERRY, DMA; MAILBOX has R409. -/
def coreClears (a : Nat) : Bool := blockOf a == 10 || blockOf a == 11 || blockOf a == 12

/-- The pool keeps the words that its queues held (R471, R475). -/
def State.fqEmptied (s : State) : State := s.fq.foldl (fun s p => (p.2.real.zipIdx).foldl (fun s w => s.fqLeave (p.2.poolWord w.2) w.1.data) s) s

/-- The harbourmaster's software after a CORE reset: a locked node keeps its originator (R489). -/
def State.hmAfterCore (s : State) : HmSt := if s.bit SYS_NODE_ADDR SYS_NODE_ADDR_LOCKED then { muster := { adopted := s.hm.muster.adopted } } else {}

/-- A CORE reset that has been requested begins; a CHIP request in the same clock goes first (R473). -/
def coreReset (s : State) : State :=
  match s.reqSources .core with
  | [] => s
  | l =>
    if !(s.reqSources .chip).isEmpty || s.rst.chip then s
    else
      let src := lowest l
      let s := s.fqEmptied
      let s : State := { s with
        regs := s.regs.filter (fun p => !coreClears p.1), qe := [], fq := [], txRR := [], dma := [], hm := s.hmAfterCore,
        rst := { s.rst with core := true, req := s.rst.req.filter (fun r => r.1 != .core) } }
      let s := s.forget fun x => match x.who with
        | .qe _ => true | .hm => true | .dmaRead _ => true | .dmaWrite _ => true | _ => false
      let s := s.mbCoreReset.forN 4 State.canCoreReset
      let s := if s.bit TT_CTL TT_CTL_EN then (s.clrB TT_CTL TT_CTL_EN).ttDisable else s
      (s.setReg LH_RESET_CAUSE (w32 (1 + src * 16))).logEv 0x03 src

/-- The CORE reset ends and the boot ROM runs again. -/
def coreResetEnd (s : State) : State :=
  if s.rst.core then ((s.modRst fun r => { r with core := false }).wdogRestart 24).bootRom else s

/-- A CAUSEWAY reset that has been requested begins: all three interfaces (R381, R471). -/
def causewayReset (s : State) : State :=
  if (s.reqSources .causeway).isEmpty ∨ !(s.reqSources .chip).isEmpty then s
  else
    let s := (((s.modCw fun c => { c with lock := none }).pcieReset.ifReset 1).ifReset 2).modRst fun r => { r with cw := true, req := r.req.filter (fun x => x.1 != .causeway) }
    s.logEv 0x05 0

/-- The CAUSEWAY reset ends. -/
def causewayResetEnd (s : State) : State := s.modRst fun r => { r with cw := false }

end Sys2Proof.Machine
end

