-- ==== Sys2Proof/Machine/LhPort.lean ====
section
/-! DEFINITION. The lighthouse port (16, R446, R447): requests, their status and the response. -/
namespace Sys2Proof.Machine

/-- STATUS OK -/ def lhOK : Nat := 0
/-- FRAME -/ def lhFRAME : Nat := 1
/-- BAD_CMD -/ def lhBADCMD : Nat := 2
/-- BAD_ADDR -/ def lhBADADDR : Nat := 3
/-- PENDING -/ def lhPENDING : Nat := 4
/-- ERROR -/ def lhERROR : Nat := 5
/-- KEY -/ def lhKEY : Nat := 6
/-- RECORD_BAD -/ def lhRECBAD : Nat := 7

/-- The status of the coming response changes. -/
def State.lhStatus (s : State) (st : Nat) : State := s.modLh fun l => { l with resp := { l.resp with status := st } }

/-- A request is accepted with its outcome: state, status, data. -/
def State.lhAccept (s : State) (cmd : Nat) (r : State × Nat × Nat) : State :=
  r.1.modLh fun l => { l with resp := ⟨cmd, r.2.1, (s.lh.resp.seq + 1) % 256, r.2.2⟩ }

/-- The bytes of a response: CMD, STATUS, SEQ, DATA and the CRC over them. -/
def LhResp.bytes (r : LhResp) : List Nat :=
  let b := [r.cmd % 256, r.status % 256, r.seq % 256] ++ beBytes 4 r.data
  b ++ [crc8 b]

/-- What a frame shifts out on LH_MISO while the request is shifted in: the response to the previous accepted request, with STATUS PENDING while that
is in progress. -/
def State.lhOut (s : State) : State := s.modLh fun l =>
  { l with miso := (if l.busy then { l.resp with status := lhPENDING } else l.resp).bytes }

/-- A frame that is executed: 64 clocks, and the right CRC over bytes 0 to 6. -/
def lhFrameGood (clocks : Nat) (bytes : List Nat) : Bool := clocks == 64 && crc8 (bytes.take 7) == bytes.getD 7 0

/-- The command codes of R447. -/
def lhKnown (c : Nat) : Bool := c ≤ 4 || (16 ≤ c && c ≤ 18) || (32 ≤ c && c ≤ 34)

/-- A well-formed frame with request `cmd`: it is discarded while a request is in progress (R446); ADDR and DATA must be 0 where the table
requires it. -/
def State.lhRequest (s : State) (cmd : Nat) (zeros : Bool) (f : State → State × Nat × Nat) : State :=
  if s.rst.lhOff || s.rst.banks.contains 7 then s
  else
    let s := s.lhOut
    if s.lh.busy then (s.setB LH_FAULT LH_FAULT_FRAME).lhStatus lhPENDING
    else s.lhAccept cmd (if zeros then f s else (s, lhBADCMD, 0))

/-- A frame that is not executed: one with a wrong CRC or length (FRAME), one that comes while a request is in progress, or one with a command code
that is not in the table (BAD_CMD). A good frame whose code is in the table is that command's own row. -/
def lhFrameRefused (clocks : Nat) (bytes : List Nat) (s : State) : State :=
  let c := bytes.getD 0 0
  if s.rst.lhOff || s.rst.banks.contains 7 then s
  else if !lhFrameGood clocks bytes then (s.lhOut.setB LH_FAULT LH_FAULT_FRAME).lhStatus lhFRAME
  else if lhKnown c && !s.lh.busy then s
  else s.lhRequest c false fun s => (s, lhBADCMD, 0)

/-- NOP. -/
def lhNop (addr data : Nat) (s : State) : State := s.lhRequest 0x00 (addr == 0 && data == 0) fun s => (s, lhOK, 0)

/-- An offset that names a register of the block at `base`. -/
def lhOffset (base addr : Nat) : Bool := addr % 4 == 0 && (findReg (base + addr)).isSome

/-- READ_LH. -/
def readLh (addr data : Nat) (s : State) : State := s.lhRequest 0x01 (data == 0) fun s =>
  if !lhOffset 0x40010000 addr then (s, lhBADADDR, 0)
  else match s.regRead .lhPort (0x40010000 + addr) with
    | (s, _, v) => (s, lhOK, v)

/-- WRITE_LH. In CHIP reset a write changes no register of a block that is held there: a discarded one leaves SYS_STATUS in reset, and the locks of PLLs
that run on stay (R474). -/
def writeLh (addr data : Nat) (s : State) : State := s.lhRequest 0x02 true fun s =>
  if !lhOffset 0x40010000 addr then (s, lhBADADDR, 0)
  else match s.regWrite .lhPort (0x40010000 + addr) (w32 data) with
    | (s', .done) => (if s.rst.chip then { s' with regs := s'.regs.filter (fun p => chipKeeps p.1 || p.1 == SYS_CLK_STATUS) } else s', lhOK, 0)
    | (s', _) => (s', lhERROR, 0)

/-- READ_MB, through the core island. -/
def readMb (addr data : Nat) (s : State) : State := s.lhRequest 0x03 (data == 0) fun s =>
  if !lhOffset 0x40020000 addr then (s, lhBADADDR, 0)
  else match s.busRead .lhPort (0x40020000 + addr) 4 with
    | (s, .done, v) => (s, lhOK, v)
    | (s, _, _) => (s, lhERROR, 0)

/-- WRITE_MB, as sender class 0x3. -/
def writeMb (addr data : Nat) (s : State) : State := s.lhRequest 0x04 true fun s =>
  if !lhOffset 0x40020000 addr then (s, lhBADADDR, 0)
  else match s.busWrite .lhPort (0x40020000 + addr) (leBytes 4 data) with
    | (s, .done) => (s, lhOK, 0)
    | (s, _) => (s, lhERROR, 0)

/-- SAFE sets LATCH. -/
def lhSafe (addr data : Nat) (s : State) : State := s.lhRequest 0x10 (addr == 0 && data == 0) fun s =>
  let s := s.latchSet 2
  (s, lhOK, (s.reg LH_STATE).toNat)

/-- RELEASE clears LATCH. -/
def lhRelease (addr data : Nat) (s : State) : State := s.lhRequest 0x11 (addr == 0 && data == 0) fun s =>
  let s := s.latchClear
  (s, lhOK, (s.reg LH_STATE).toNat)

/-- CHIP_RESET with its key. -/
def lhChipReset (addr data : Nat) (s : State) : State := s.lhRequest 0x12 (addr == 0) fun s =>
  if data = 0xA55A then (s.resetReq .chip 2, lhOK, 0) else (s, lhKEY, 0)

/-- LOG_FREEZE: in progress until the freeze holds. -/
def lhLogFreeze (addr data : Nat) (s : State) : State := s.lhRequest 0x20 (addr == 0 && data == 0) fun s =>
  let held := s.bit LOG_CTL LOG_CTL_FROZEN
  (s.modLh fun l => { l with freeze := true, busy := !held }, if held then lhOK else lhPENDING, 0)

/-- LOG_THAW ends the port's own freeze. -/
def lhLogThaw (addr data : Nat) (s : State) : State := s.lhRequest 0x21 (addr == 0 && data == 0) fun s =>
  ((s.modLh fun l => { l with freeze := false }).thawed, lhOK, 0)

/-- LOG_READ: a word of a record as MRAM holds it. -/
def lhLogRead (addr data : Nat) (s : State) : State := s.lhRequest 0x22 (data == 0) fun s =>
  if 27 < addr % 256 then (s, lhBADADDR, 0)
  else
    let s := s.recFetch (addr / 256 % 256)
    let (w, bad) := s.readRecord (addr / 256 % 256)
    (s.setIf (bad && !s.rst.chip) LOG_STATUS LOG_STATUS_RECORD_BAD, if bad then lhRECBAD else lhOK, (recImage w bad).getD (addr % 256) 0)

end Sys2Proof.Machine
end

