-- ==== Sys2Proof/Machine/Flags.lean ====
section
/-! DEFINITION. The flag computations of the quay engine instructions (R219) and the arithmetic they come from. Values are numbers below
2^s at operand size s; `fl` is the STATUS word (R175). -/
namespace Sys2Proof.Machine

/-- Top bit of a value of width w. -/
def topBit (w v : Nat) : Bool := bitOf (w - 1) v

/-- Z and N from a result of width w; the other flags stay (the move, logic and bit-field class). -/
def flagsZN (fl w r : Nat) : Nat := withBit (withBit fl flZ (r == 0)) flN (topBit w r)

/-- Set all four flags. -/
def flagsAll (fl w r : Nat) (c v : Bool) : Nat := withBit (withBit (flagsZN fl w r) flC c) flV v

/-- Set Z alone. -/
def flagsZ (fl : Nat) (z : Bool) : Nat := withBit fl flZ z

/-- A sum of width w with carry in, and its flags: carry out of bit w − 1 and signed overflow. -/
def addFl (fl w a b : Nat) (cin : Bool) : Nat × Nat :=
  let r := (a + b + b2n cin) % 2 ^ w
  let x := sgn w a + sgn w b + (b2n cin : Nat)
  (r, flagsAll fl w r (decide (2 ^ w ≤ a + b + b2n cin)) (decide (sgn w r ≠ x)))

/-- A difference of width w with borrow in, and its flags: C is 1 when a borrow occurs. -/
def subFl (fl w a b : Nat) (bin : Bool) : Nat × Nat :=
  let r := (a + 2 ^ w + 2 ^ w - b - b2n bin) % 2 ^ w
  let x := sgn w a - sgn w b - (b2n bin : Nat)
  (r, flagsAll fl w r (decide (a < b + b2n bin)) (decide (sgn w r ≠ x)))

/-- Flags of a multiply: C and V are 0. -/
def mulFl (fl w r : Nat) : Nat := flagsAll fl w r false false

/-- Flags of a shift or rotate by k: C is the last bit out, unchanged when k is 0. -/
def shiftFl (fl w r k : Nat) (out : Bool) : Nat :=
  let fl := flagsZN fl w r
  if k = 0 then fl else withBit fl flC out

/-- Shift left by k, below w. -/
def shlFl (fl w b k : Nat) : Nat × Nat :=
  let r := b * 2 ^ k % 2 ^ w
  (r, shiftFl fl w r k (bitOf (w - k) b))

/-- Logical shift right. -/
def shrFl (fl w b k : Nat) : Nat × Nat :=
  let r := b / 2 ^ k
  (r, shiftFl fl w r k (bitOf (k - 1) b))

/-- Arithmetic shift right. -/
def sarFl (fl w b k : Nat) : Nat × Nat :=
  let r := unsgn w (sgn w b / (2 ^ k : Nat))
  (r, shiftFl fl w r k (bitOf (k - 1) b))

/-- Rotate left. -/
def rolFl (fl w b k : Nat) : Nat × Nat :=
  let r := (b * 2 ^ k + b / 2 ^ (w - k)) % 2 ^ w
  (r, shiftFl fl w r k (bitOf 0 r))

/-- Rotate right. -/
def rorFl (fl w b k : Nat) : Nat × Nat :=
  let r := (b / 2 ^ k + b * 2 ^ (w - k)) % 2 ^ w
  (r, shiftFl fl w r k (topBit w r))

/-- Sign extension of a value of width w to width v. -/
def signExt (w v b : Nat) : Nat := unsgn v (sgn w b)

/-- Bytes of a value of width w in reverse order. -/
def byteSwap (w b : Nat) : Nat := ofLe (leBytes (w / 8) b).reverse

/-- Position and width of a field operand (R224). -/
def fieldOf (c : Nat) : Nat × Nat := (bitsOf 5 0 c, bitsOf 11 6 c + 1)

/-- A bit field of a value of width w, zero-extended: bits at or above w − 1 read 0 (R224). -/
def bfx (w b c : Nat) : Nat := b % 2 ^ (w - 1) / 2 ^ (fieldOf c).1 % 2 ^ (fieldOf c).2

/-- A bit field sign-extended from its top bit, within w. -/
def bfxs (w b c : Nat) : Nat := unsgn w (sgn (fieldOf c).2 (bfx w b c))

/-- A value of width w with a field replaced by the low bits of b; field bits at or above w − 1 are not written (R224). -/
def bfi (w a b c : Nat) : Nat :=
  let p := (fieldOf c).1
  let n := min (fieldOf c).2 (w - 1 - p)
  (a / 2 ^ (p + n) * 2 ^ (p + n) + b % 2 ^ n * 2 ^ p + a % 2 ^ p) % 2 ^ w

/-- Ones' complement sum of R226: fold the carries of a sum back in. -/
def onesFold (n : Nat) : Nat := let m := n / 65536 + n % 65536; m / 65536 + m % 65536

/-- The 16-bit words of bytes, first byte most significant. -/
def csumWords : List Nat → Nat
  | [] => 0
  | [a] => a * 256
  | a :: b :: t => a * 256 + b + csumWords t

/-- Whether a branch of BF is taken (R223). -/
def bfCond (fl cond : Nat) : Bool :=
  match cond with
  | 0 => bitOf flZ fl | 1 => !bitOf flZ fl | 2 => bitOf flC fl | 3 => !bitOf flC fl
  | 4 => bitOf flN fl | 5 => !bitOf flN fl | 6 => bitOf flV fl | _ => !bitOf flV fl

end Sys2Proof.Machine
end

