-- ==== Sys2Proof/Machine/Operands.lean ====
section
/-! DEFINITION. Operands of the quay engine instructions (08): specifiers and their static checks (R206 to R209), effective addresses
(R210 to R214), streams (R215 to R217), and the order in which operands are handled (R218, R237). -/
namespace Sys2Proof.Machine

/-- How a part of an instruction ends: with a result; in a fault (cause, ADDRESS) over the state its accesses left; it cannot go on, with
the state in which the engine waits; it begins a wait. -/
inductive QR (α : Type) where
  | ok (a : α)
  | fault (s : State) (cause addr : Nat)
  | wait (s : State)
  | waitFor (w : QWait)

/-- Carry on with a result. -/
def QR.bind {α β : Type} (x : QR α) (f : α → QR β) : QR β :=
  match x with
  | .ok a => f a
  | .fault s c a => .fault s c a
  | .wait s => .wait s
  | .waitFor w => .waitFor w

/-! ## Specifiers -/

/-- What the opcode table says of an operand, with its width in bits: `free` is not decoded (R228), `atom` the m operand of R235, `spd` and
`spm` its other written operand, which stays in the scratchpad. -/
inductive OpKind where
  | none
  | free
  | src (w : Nat)
  | dst (w : Nat)
  | mod (w : Nat)
  | addr (w : Nat)
  | field (w : Nat)
  | cond
  | target
  | table
  | fqFlags
  | scope
  | atom (w : Nat)
  | spd (w : Nat)
  | spm (w : Nat)
  deriving DecidableEq, Repr

/-- Width of an operand. -/
def OpKind.width : OpKind → Nat
  | .src w => w | .dst w => w | .mod w => w | .addr w => w | .field w => w | .atom w => w | .spd w => w | .spm w => w
  | _ => 16

/-- The operand is written. -/
def OpKind.writes : OpKind → Bool
  | .dst _ => true | .mod _ => true | .atom _ => true | .spd _ => true | .spm _ => true
  | _ => false

/-- The operand is read. -/
def OpKind.reads : OpKind → Bool
  | .none => false | .free => false | .dst _ => false | .spd _ => false | .addr _ => false
  | _ => true

/-- MODE of a specifier. -/
def modeOf (x : Nat) : Nat := bitsOf 17 14 x
/-- FIELD of a specifier. -/
def fieldBits (x : Nat) : Nat := bitsOf 13 0 x

/-- Modes in the scratchpad (R235). -/
def spMode (m : Nat) : Bool := (decide (1 ≤ m) && decide (m ≤ 9)) || m == 0xD

/-- Restrictions of R209 that hold for every operand of width w: reserved modes, the window's width, a stream's FIELD and its absence
on the harbourmaster. -/
def modeFits (hm : Bool) (w x : Nat) : Bool :=
  let m := modeOf x
  decide (m ≤ 0xD) && (m != 0xB || w == 32) && (m != 0xC || (fieldBits x == 0 && !hm))

/-- The static checks of an operand (R208, R209, R222 to R224, R231, R235, R236). -/
def OpKind.fits (hm : Bool) (k : OpKind) (x : Nat) : Bool :=
  let m := modeOf x
  let f := fieldBits x
  match k with
  | .none => x == 0
  | .free => true
  | .src w => modeFits hm w x
  | .dst w => modeFits hm w x && m != 0
  | .mod w => modeFits hm w x && m != 0 && m != 0xC
  | .addr w => modeFits hm w x && m != 4 && m != 5
  | .field w => modeFits hm w x && (m != 0 || f / 2 ^ 12 == 0)
  | .cond => m == 0 && decide (f ≤ 7)
  | .target => modeFits hm 16 x && m != 0xA && m != 0xC
  | .table => modeFits hm 16 x && m != 0xA
  | .fqFlags => m == 0 && decide (f ≤ 1)
  | .scope => m == 0 && decide (f ≤ 4)
  | .atom _ => spMode m || m == 0xA
  | .spd _ => spMode m
  | .spm _ => spMode m

/-- The three specifiers of a word. -/
def specA (w : Nat) : Nat := bitsOf 53 36 w
/-- B. -/
def specB (w : Nat) : Nat := bitsOf 35 18 w
/-- C. -/
def specC (w : Nat) : Nat := bitsOf 17 0 w
/-- BASE of a word. -/
def baseOf (w : Nat) : Nat := bitsOf 63 56 w
/-- SIZE of a word. -/
def sizeCode (w : Nat) : Nat := bitsOf 55 54 w
/-- The operand size in bits (R207). -/
def sizeBits (w : Nat) : Nat := 8 * 2 ^ sizeCode w

/-! ## The scratchpad through the engine's own port -/

/-- A scratchpad read of `k` bytes; poison is MEMERR with the scratchpad address (R28). -/
def State.spRead (s : State) (n a k : Nat) : QR (State × Nat) :=
  match s.memGet (spBase n + a) k with
  | (s, .poisoned, _) => .fault s 3 a
  | (s, _, v) => .ok (s, v)

/-- A scratchpad write. -/
def State.spWrite (s : State) (n a : Nat) (bs : List Nat) : State := s.spPut (engineWho n) n (spBase n + a) a bs

/-! ## Effective addresses -/

/-- Where an operand lies: nowhere (immediate), a scratchpad byte address, a scratchpad bit address, an interconnect address, an offset of
the I/O window, a stream. -/
inductive Ea where
  | imm (v : Nat)
  | sp (a : Nat)
  | bits (a : Nat)
  | glob (a : Nat)
  | io (a : Nat)
  | stream
  deriving DecidableEq, Repr

/-- Pointers advanced so far: address of the pointer word, its new value. -/
abbrev Ups := List (Nat × Nat)

/-- A pointer word or half of a low memory word, as a later operand sees it (R218). -/
def State.ptrWord (s : State) (n a : Nat) (ups : Ups) : QR (State × Nat) :=
  (s.spRead n a 4).bind fun r =>
    match ups.reverse.find? (fun u => u.1 == a) with
    | some u => .ok (r.1, u.2)
    | none => .ok r

/-- A formed operand: the state after the pointer reads, pointers advanced, the place. -/
abbrev Formed := State × Ups × Ea

/-- Form an operand's address (R209 to R212). -/
def State.formEa (s : State) (n w x : Nat) (ups : Ups) : QR Formed :=
  let f := fieldBits x
  let base (a : Nat) (g : State → Nat → QR Formed) : QR Formed := (s.ptrWord n a ups).bind fun r => g r.1 (r.2 % 65536)
  let anchor := 8 * bitsOf 13 11 x
  match modeOf x with
  | 0x0 => .ok (s, ups, .imm (unsgn w (sgn 14 f)))
  | 0x1 => .ok (s, ups, .sp (4 * f))
  | 0x2 => .ok (s, ups, .sp f)
  | 0x3 => base (4 * f) fun s p => .ok (s, ups, .sp p)
  | 0x4 => (s.ptrWord n (4 * f) ups).bind fun r =>
      .ok (r.1, ups ++ [(4 * f, putBits 15 0 r.2 (r.2 + w / 8))], .sp (r.2 % 65536))
  | 0x5 => (s.ptrWord n (4 * f) ups).bind fun r =>
      let p := (r.2 + 65536 - w / 8) % 65536
      .ok (r.1, ups ++ [(4 * f, putBits 15 0 r.2 p)], .sp p)
  | 0x6 => base anchor fun s p => .ok (s, ups, .sp ((p + bitsOf 10 0 x) % 65536))
  | 0x7 => base anchor fun s p => (s.ptrWord n (8 * bitsOf 10 8 x + 4) ups).bind fun r =>
      .ok (r.1, ups, .sp (unsgn 16 ((p : Int) + sgn 32 r.2 * (w / 8 : Nat) + (bitsOf 7 0 x : Nat))))
  | 0x8 => base 0x48 fun s p => .ok (s, ups, .sp (unsgn 16 ((p : Int) + sgn 14 f)))
  | 0x9 => base 0x40 fun s p => .ok (s, ups, .sp (unsgn 16 ((p : Int) + sgn 14 f)))
  | 0xA => (s.ptrWord n (4 * f) ups).bind fun r => .ok (r.1, ups, .glob r.2)
  | 0xB => .ok (s, ups, .io (4 * f))
  | 0xC => .ok (s, ups, .stream)
  | _ => base anchor fun s p => .ok (s, ups, .bits ((8 * p + bitsOf 10 0 x) % 2 ^ 19))

/-- The pointers that an operand advances are its last entry of the list; an operand that is none forms nothing. -/
def State.formOp (s : State) (n : Nat) (k : OpKind) (x : Nat) (ups : Ups) : QR Formed :=
  match k with
  | .none => .ok (s, ups, .imm 0)
  | .free => .ok (s, ups, .imm 0)
  | .target => if modeOf x = 0 then .ok (s, ups, .imm 0) else s.formEa n 16 x ups
  | k => s.formEa n k.width x ups

/-- The extent check of an operand (R189): the address that fails it. -/
def Ea.badExtent (e : Ea) (k : OpKind) : Option Nat :=
  let w := k.width
  let atom := match k with | .atom _ => true | _ => false
  if (match k with | .addr _ => true | .none => true | .free => true | _ => false) then none
  else match e with
    | .sp a => if 65536 < a + w / 8 ∨ (atom ∧ a % (w / 8) ≠ 0) then some a else none
    | .bits b => if 2 ^ 19 < b + w ∨ (atom ∧ b % w ≠ 0) then some (b / 8) else none
    | .glob a => if 16 < a % 16 + w / 8 ∨ (atom ∧ a % (w / 8) ≠ 0) then some a else none
    | _ => none

/-! ## Streams -/

/-- The receive stream as a read finds it and takes from it (R216). -/
structure RxView where
  words : List FqWord
  pos   : Nat
  ended : Bool
  trunc : Bool
  opn   : Bool
  taken : Nat := 0
  deriving DecidableEq, Repr

/-- RXQ of an engine. -/
def State.rxq (s : State) (n : Nat) : Nat := s.fld (QE_CFG n) QE_CFG_RXQ
/-- TXQ of an engine. -/
def State.txq (s : State) (n : Nat) : Nat := s.fld (QE_CFG n) QE_CFG_TXQ

/-- The receive stream as it stands. -/
def State.rxView (s : State) (n : Nat) : RxView :=
  let q := s.qeOf n
  { words := (s.fqOf (s.rxq n)).words, pos := q.rxPos, ended := q.ended, trunc := q.trunc, opn := q.rxOpen }

/-- Take bytes of the receive stream: a poisoned word is reported, missing bytes wait, after the end zeros come (R215, R216). The fuel
bounds the words passed. -/
def rxTake : Nat → RxView → List Nat → Nat → Sum Bool (RxView × List Nat)
  | 0, _, _, _ => .inl false
  | _, v, acc, 0 => .inr (v, acc.reverse)
  | fuel + 1, v, acc, k + 1 =>
    if v.ended then .inr (v, acc.reverse ++ List.replicate (k + 1) 0)
    else match v.words with
      | [] => .inl false
      | w :: t =>
        if w.trunc then rxTake fuel { v with words := t, pos := 0, ended := true, trunc := true, opn := false, taken := v.taken + 1 } acc (k + 1)
        else if w.poison || w.bad then .inl true
        else
          let b := w.bytes.getD v.pos 0
          if v.pos + 1 < w.bytes.length then rxTake fuel { v with pos := v.pos + 1, opn := true } (b :: acc) k
          else rxTake fuel { v with words := t, pos := 0, ended := w.last, opn := !w.last, taken := v.taken + 1 } (b :: acc) k

/-- The receive stream as a read leaves it. -/
def State.rxCommit (s : State) (n : Nat) (v : RxView) : State :=
  let s := s.fqPopN (s.rxq n) v.taken
  s.setQe n { s.qeOf n with rxPos := v.pos, ended := v.ended, trunc := v.trunc, rxOpen := v.opn }
/-- A faulting instruction has consumed no stream byte (R218): the receive stream and its queue are as they were in `s0`, before it. -/
def State.rxBack (s s0 : State) (n : Nat) : State :=
  let q := s0.qeOf n
  (s.setFq (s0.rxq n) (s0.fqOf (s0.rxq n))).setQe n { s.qeOf n with rxPos := q.rxPos, ended := q.ended, trunc := q.trunc, rxOpen := q.rxOpen }
/-- A fault of an instruction whose reads take from the stream gives the stream back. -/
def QR.giveBack {α : Type} (x : QR α) (s0 : State) (n : Nat) (takes : Bool) : QR α :=
  match x with
  | .fault s c a => .fault (if takes then s.rxBack s0 n else s) c a
  | x => x

/-- The transmit queue takes `k` words (R217, R240); after a flush it drops the rest of the packet (R245). -/
def State.txRoom (s : State) (n k : Nat) : Bool :=
  let q := s.fqOf (s.txq n)
  k == 0 || (q.en && q.discard) || s.fqRoomN (s.txq n) k

/-- Words that appending `k` bytes completes and pushes. -/
def State.txPushes (s : State) (n k : Nat) : Nat := ((s.qeOf n).txBuf.length + k - 1) / 4

/-- Append bytes: the last completed word is held back (R217). -/
def State.txAppend (s : State) (n : Nat) : List Nat → State
  | [] => s
  | b :: t =>
    let q := s.qeOf n
    let s := if q.txBuf.length = 4 then
        (s.setQe n { q with txBuf := [b], txOpen := true }).fqPush (s.txq n) ⟨ofLe q.txBuf, false, false, 0, false, false⟩
      else s.setQe n { q with txBuf := q.txBuf ++ [b], txOpen := true }
    s.txAppend n t

/-! ## Reading and writing operands -/

/-- The register that a window offset maps (R204). -/
def State.ioAddr (s : State) (n off : Nat) : Option Nat :=
  if off ≤ 0x3C then some (QE_CTL n + off)
  else if 0x100 ≤ off ∧ off ≤ 0x110 then (s.berthOf n).map (fun b => BERTH_CFG b + (off - 0x100))
  else none

/-- An access of engine n that cannot end yet leaves everything as it was but for its wait. -/
def State.stallOn (s0 s : State) (n a : Nat) : State :=
  match s.cw.waits.find? (fun x => x.who == engineWho n && x.addr == a && x.result.isNone) with
  | some x =>
    if s0.cw.waits.any (fun y => y.who == engineWho n && y.addr == a && y.result.isNone) then s0
    else s0.modCw fun c => { c with waits := c.waits ++ [x] }
  | none => s0

/-- The end of a bus access as an instruction sees it: BUSERR or MEMERR with the address `a`, a wait at `g`. -/
def busEnd {α : Type} (s0 s : State) (n a g : Nat) (e : BusEnd) (v : α) : QR (State × α) :=
  match e with
  | .done => .ok (s, v)
  | .busError => .fault s 4 a
  | .poisoned => .fault s 3 a
  | .waiting => .wait (s0.stallOn s n g)

/-- Read an operand of kind k (R218, R237); `s0` is the state before the instruction. What it takes of the stream is gone for the reads after it.
A BUSERR through the I/O window names the window offset (DESIGN CHOICE, log 125). -/
def State.readEa (s s0 : State) (n : Nat) (k : OpKind) (e : Ea) : QR (State × Nat) :=
  let w := k.width
  match e with
  | .imm v => .ok (s, v)
  | .sp a => s.spRead n a (w / 8)
  | .bits b => (s.spRead n (b / 8) ((b % 8 + w + 7) / 8)).bind fun r => .ok (r.1, r.2 / 2 ^ (b % 8) % 2 ^ w)
  | .glob a =>
    let refused : Bool := match k with
      | .atom _ => !((regionOf a).any (fun r => r.1.atomics))
      | _ => false
    if refused then .fault s 4 a
    else
      let (s1, fin, v) := s.busRead (engineWho n) a (w / 8)
      busEnd s0 s1 n a a fin v
  | .io off => match s.ioAddr n off with
    | none => .fault s 4 off
    | some g =>
      let (s1, fin, v) := s.regRead (engineWho n) g
      busEnd s0 s1 n off g fin v
  | .stream => match rxTake ((s.rxView n).words.length + w / 8 + 1) (s.rxView n) [] (w / 8) with
    | .inl true => .fault s 3 (s.rxq n)
    | .inl false => .waitFor .stream
    | .inr (rx, bs) => .ok (if rx.taken = 0 ∧ rx.pos = (s.qeOf n).rxPos then s else s.rxCommit n rx, ofLe bs)

/-- Write an operand. A BUSERR through the I/O window names the window offset (DESIGN CHOICE, log 125). -/
def State.writeEa (s : State) (n w : Nat) (e : Ea) (v : Nat) : State × BusEnd × Nat × Nat :=
  match e with
  | .imm _ => (s, .done, 0, 0)
  | .sp a => (s.spWrite n a (leBytes (w / 8) v), .done, 0, 0)
  | .bits b =>
    let k := (b % 8 + w + 7) / 8
    let old := s.rdN (spBase n + b / 8) k
    (s.spWrite n (b / 8) (leBytes k (putBits (b % 8 + w - 1) (b % 8) old v)), .done, 0, 0)
  | .glob a => let (s, e) := s.busWrite (engineWho n) a (leBytes (w / 8) v); (s, e, a, a)
  | .io off => match s.ioAddr n off with
    | none => (s, .busError, off, off)
    | some g => let (s, e) := s.regWrite (engineWho n) g (w32 v); (s, e, off, g)
  | .stream => (s.txAppend n (leBytes (w / 8) v), .done, 0, 0)

/-- A write of an instruction: an operand with its width and value, or a pointer word. -/
inductive QWrite where
  | op (w : Nat) (e : Ea) (v : Nat)
  | ptr (a v : Nat)
  deriving DecidableEq, Repr

/-- Make writes in order; the end of the one that failed or waits. -/
def State.qWrites (s : State) (n : Nat) : List QWrite → State × BusEnd × Nat × Nat
  | [] => (s, .done, 0, 0)
  | .ptr a v :: t => (s.spWrite n a (leBytes 4 v)).qWrites n t
  | .op w e v :: t =>
    match s.writeEa n w e v with
    | (s, .done, _, _) => s.qWrites n t
    | r => r

/-- All writes of an instruction (R218); `s0` is the state before it, `sr` the state after its source reads. A write that faults leaves nothing
of the instruction but those reads and what the write's own access did (R186, R237). -/
def State.commitWrites (s s0 sr : State) (n : Nat) (ws : List QWrite) : QR State :=
  let bytes := ws.foldl (fun k x => match x with | .op w .stream _ => k + w / 8 | _ => k) 0
  if bytes ≠ 0 ∧ !s.txRoom n (s.txPushes n bytes) then .waitFor .stream
  else match s.qWrites n ws with
    | (s1, .done, _, _) => .ok s1
    | (s1, .waiting, _, g) => .wait (s0.stallOn s1 n g)
    | (_, _, a, _) =>
      let only := ws.filter (fun x => match x with | .op _ (.glob _) _ => true | .op _ (.io _) _ => true | _ => false)
      .fault (sr.qWrites n only).1 4 a

end Sys2Proof.Machine
end

