-- ==== Sys2Proof/Machine/QeIsa.lean ====
section
/-! DEFINITION. The quay engine instruction set (08): the opcode table, what each instruction computes, and the execution of one
instruction of an engine with its repeats, waits and faults. -/
namespace Sys2Proof.Machine

/-! ## The opcode table -/

/-- Values an instruction works on: operands as read (0 where not read), addresses formed, operand size in bits, STATUS, index of the next
instruction. -/
structure Vals where
  a    : Nat
  b    : Nat
  c    : Nat
  size : Nat
  fl   : Nat
  next : Nat
  eb   : Ea := .imm 0

/-- What an instruction does: values for A and B, STATUS, PC, whether a breakpoint at the new PC is passed over (R195), a repeat count. -/
structure Res where
  st    : State
  wa    : Option Nat := none
  wb    : Option Nat := none
  fl    : Option Nat := none
  pc    : Option Nat := none
  pass  : Bool := false
  count : Nat := 0

/-- An instruction of the opcode table: BASE, the SIZE codes it accepts, operand kinds at size s, its operation for engine n. -/
structure QInstr where
  base  : Nat
  sizes : List Nat
  a     : Nat → OpKind
  b     : Nat → OpKind
  c     : Nat → OpKind
  body  : Nat → State → Vals → QR Res

/-- SIZE codes of an instruction of all sizes. -/
def allSizes : List Nat := [0, 1, 2, 3]
/-- An operand marked "—". -/
def kNone (_ : Nat) : OpKind := .none

/-- A result in A with flags. -/
def retA (s : State) (r : Nat × Nat) : QR Res := .ok { st := s, wa := some r.1, fl := some r.2 }

/-- A ← f B C with flags: three operands of size s. -/
def alu3 (base : Nat) (f : Vals → Nat × Nat) : QInstr := ⟨base, allSizes, .dst, .src, .src, fun _ s v => retA s (f v)⟩
/-- A ← f B with flags: two operands of size s. -/
def alu2 (base : Nat) (sizes : List Nat) (dw : Nat → Nat) (f : Vals → Nat × Nat) : QInstr :=
  ⟨base, sizes, fun w => .dst (dw w), .src, kNone, fun _ s v => retA s (f v)⟩
/-- The move and logic class: Z and N of the result at width w. -/
def zn (v : Vals) (w r : Nat) : Nat × Nat := (r, flagsZN v.fl w r)

/-- Branch on a condition, with flags. -/
def branch (s : State) (fl : Nat) (taken : Bool) (v : Vals) : QR Res := .ok { st := s, fl := some fl, pc := if taken then some v.c else none }
/-- A compare and branch: A − B sets the subtract flags. -/
def cmpBranch (base : Nat) (p : Nat → Nat → Nat → Bool) : QInstr :=
  ⟨base, allSizes, .src, .src, fun _ => .target, fun _ s v => branch s (subFl v.fl v.size v.a v.b false).2 (p v.size v.a v.b) v⟩
/-- A bit test and branch. -/
def bitBranch (base : Nat) (want : Bool) : QInstr :=
  ⟨base, allSizes, .src, .src, fun _ => .target,
    fun _ s v => let t := bitOf (v.b % v.size) v.a; branch s (flagsZ v.fl (!t)) (t == want) v⟩

/-- 0x01 -/ def iNop : QInstr := ⟨0x01, [0], kNone, kNone, kNone, fun _ s _ => .ok { st := s }⟩
/-- 0x02 -/ def iMov : QInstr := alu2 0x02 allSizes id fun v => zn v v.size v.b
/-- 0x03 -/ def iSext : QInstr := alu2 0x03 [0, 1, 2] (fun _ => 64) fun v => zn v 64 (signExt v.size 64 v.b)
/-- 0x04 -/ def iZext : QInstr := alu2 0x04 [0, 1, 2] (fun _ => 64) fun v => zn v 64 v.b

/-- The address of an operand, for LEA: an immediate or a stream has none that the spec states (a free value). -/
def Ea.address (e : Ea) (s : State) : State × Nat :=
  match e with
  | .sp a => (s, a) | .bits b => (s, b) | .glob a => (s, a) | .io a => (s, a)
  | .imm _ => (s.tickFree, (Config.freeWord s.free).toNat) | .stream => (s.tickFree, (Config.freeWord s.free).toNat)

/-- 0x05 -/
def iLea : QInstr := ⟨0x05, allSizes, fun _ => .dst 32, .addr, kNone,
  fun _ s v => let (s, x) := v.eb.address s; .ok { st := s, wa := some x }⟩
/-- 0x06 -/ def iBswap : QInstr := alu2 0x06 [1, 2, 3] id fun v => zn v v.size (byteSwap v.size v.b)
/-- 0x08 -/ def iAdd : QInstr := alu3 0x08 fun v => addFl v.fl v.size v.b v.c false
/-- 0x09 -/ def iAdc : QInstr := alu3 0x09 fun v => addFl v.fl v.size v.b v.c (bitOf flC v.fl)
/-- 0x0A -/ def iSub : QInstr := alu3 0x0A fun v => subFl v.fl v.size v.b v.c false
/-- 0x0B -/ def iSbb : QInstr := alu3 0x0B fun v => subFl v.fl v.size v.b v.c (bitOf flC v.fl)
/-- 0x0C -/ def iNeg : QInstr := alu2 0x0C allSizes id fun v => subFl v.fl v.size 0 v.b false
/-- A multiply with its flags. -/
def mulRes (v : Vals) (r : Nat) : Nat × Nat := (r, mulFl v.fl v.size r)
/-- 0x0D -/ def iMul : QInstr := alu3 0x0D fun v => mulRes v (v.b * v.c % 2 ^ v.size)
/-- 0x0E -/ def iMulhu : QInstr := alu3 0x0E fun v => mulRes v (v.b * v.c / 2 ^ v.size)
/-- 0x0F -/
def iMulhs : QInstr := alu3 0x0F fun v => mulRes v (unsgn v.size (sgn v.size v.b * sgn v.size v.c / (2 ^ v.size : Nat)))
/-- 0x10 -/
def iMac : QInstr := ⟨0x10, allSizes, .mod, .src, .src,
  fun _ s v => retA s (addFl v.fl v.size v.a (v.b * v.c % 2 ^ v.size) false)⟩
/-- 0x14 -/ def iAnd : QInstr := alu3 0x14 fun v => zn v v.size (v.b &&& v.c)
/-- 0x15 -/ def iOr : QInstr := alu3 0x15 fun v => zn v v.size (v.b ||| v.c)
/-- 0x16 -/ def iXor : QInstr := alu3 0x16 fun v => zn v v.size (v.b ^^^ v.c)
/-- 0x17 -/ def iAndn : QInstr := alu3 0x17 fun v => zn v v.size (v.b - (v.b &&& v.c))
/-- 0x18 -/ def iNot : QInstr := alu2 0x18 allSizes id fun v => zn v v.size (2 ^ v.size - 1 - v.b)
/-- 0x1A -/ def iShl : QInstr := alu3 0x1A fun v => shlFl v.fl v.size v.b (v.c % v.size)
/-- 0x1B -/ def iShr : QInstr := alu3 0x1B fun v => shrFl v.fl v.size v.b (v.c % v.size)
/-- 0x1C -/ def iSar : QInstr := alu3 0x1C fun v => sarFl v.fl v.size v.b (v.c % v.size)
/-- 0x1D -/ def iRol : QInstr := alu3 0x1D fun v => rolFl v.fl v.size v.b (v.c % v.size)
/-- 0x1E -/ def iRor : QInstr := alu3 0x1E fun v => rorFl v.fl v.size v.b (v.c % v.size)
/-- A bit-field instruction with a field operand C. -/
def fieldOp (base : Nat) (k : Nat → OpKind) (f : Vals → Nat) : QInstr :=
  ⟨base, allSizes, k, .src, .field, fun _ s v => retA s (zn v v.size (f v))⟩
/-- 0x20 -/ def iBfx : QInstr := fieldOp 0x20 .dst fun v => bfx v.size v.b v.c
/-- 0x21 -/ def iBfxs : QInstr := fieldOp 0x21 .dst fun v => bfxs v.size v.b v.c
/-- 0x22 -/ def iBfi : QInstr := fieldOp 0x22 .mod fun v => bfi v.size v.a v.b v.c
/-- 0x23 -/ def iBset : QInstr := alu3 0x23 fun v => zn v v.size (withBit v.b (v.c % v.size) true)
/-- 0x24 -/ def iBclr : QInstr := alu3 0x24 fun v => zn v v.size (withBit v.b (v.c % v.size) false)
/-- 0x28 -/ def iBeq : QInstr := cmpBranch 0x28 fun _ a b => a == b
/-- 0x29 -/ def iBne : QInstr := cmpBranch 0x29 fun _ a b => a != b
/-- 0x2A -/ def iBlt : QInstr := cmpBranch 0x2A fun w a b => decide (sgn w a < sgn w b)
/-- 0x2B -/ def iBge : QInstr := cmpBranch 0x2B fun w a b => decide (sgn w b ≤ sgn w a)
/-- 0x2C -/ def iBltu : QInstr := cmpBranch 0x2C fun _ a b => decide (a < b)
/-- 0x2D -/ def iBgeu : QInstr := cmpBranch 0x2D fun _ a b => decide (b ≤ a)
/-- 0x2E -/ def iBbs : QInstr := bitBranch 0x2E true
/-- 0x2F -/ def iBbc : QInstr := bitBranch 0x2F false
/-- 0x30 -/ def iJmp : QInstr := ⟨0x30, [0], kNone, kNone, fun _ => .target, fun _ s v => .ok { st := s, pc := some v.c }⟩
/-- 0x31 -/
def iBf : QInstr := ⟨0x31, [0], fun _ => .cond, kNone, fun _ => .target,
  fun _ s v => .ok { st := s, pc := if bfCond v.fl v.a then some v.c else none }⟩
/-- 0x32 -/
def iDjnz : QInstr := ⟨0x32, allSizes, .mod, kNone, fun _ => .target,
  fun _ s v => let r := (v.a + 2 ^ v.size - 1) % 2 ^ v.size; .ok { st := s, wa := some r, pc := if r ≠ 0 then some v.c else none }⟩

/-- SP, or another address word of low memory (R173). -/
def State.spWord (s : State) (n a : Nat) : QR (State × Nat) := (s.spRead n a 8).bind fun r => .ok (r.1, r.2 % 65536)

/-- CALL (R190, R227); SP − 8 is taken modulo 2^16 (R211). -/
def callBody (n : Nat) (s : State) (v : Vals) : QR Res :=
  (s.spWord n 0x40).bind fun r =>
    let sp := (r.2 + 65528) % 65536
    let s := (r.1.spWrite n sp (leBytes 8 (v.next % iramSize n))).spWrite n 0x40 (leBytes 2 sp)
    .ok { st := s, pc := some v.c }
/-- 0x34 -/ def iCall : QInstr := ⟨0x34, [0], kNone, kNone, fun _ => .target, callBody⟩

/-- The checks of CALL and RET that come before the source reads (R237). -/
def stackCheck (n base : Nat) (s : State) : QR State :=
  if base = 0x34 ∨ base = 0x35 then
    (s.spWord n 0x40).bind fun r =>
      if r.2 % 8 ≠ 0 then .fault r.1 7 r.2
      else if base = 0x35 then .ok r.1
      else (r.1.spWord n 0x50).bind fun l =>
        if (r.2 + 65528) % 65536 < l.2 then .fault l.1 2 ((r.2 + 65528) % 65536) else .ok l.1
  else .ok s

/-- RET (R227). -/
def retBody (n : Nat) (s : State) (_ : Vals) : QR Res :=
  (s.spWord n 0x40).bind fun r => (r.1.spRead n r.2 8).bind fun x =>
    .ok { st := x.1.spWrite n 0x40 (leBytes 2 ((r.2 + 8) % 65536)), pc := some x.2 }
/-- 0x35 -/ def iRet : QInstr := ⟨0x35, [0], kNone, kNone, kNone, retBody⟩
/-- An operand that is not decoded. -/
def kFree (_ : Nat) : OpKind := .free
/-- 0x36: cause 0x08 (R228). -/
def iTrap : QInstr := ⟨0x36, [0], kFree, kFree, kFree, fun _ s _ => .fault s 8 0⟩
/-- 0x37: PC from TRAP_PC, IE from PIE, TRAP cleared (R188). -/
def iRett : QInstr := ⟨0x37, [0], kNone, kNone, kNone, fun n s v =>
  (s.spRead n 0x68 8).bind fun r =>
    .ok { st := r.1, fl := some (withBit (withBit v.fl flIE (bitOf flPIE v.fl)) flTRAP false), pc := some r.2, pass := true }⟩

/-- 0x38 -/
def iCrc32 : QInstr := ⟨0x38, allSizes, fun _ => .mod 32, .src, kNone,
  fun _ s v => retA s (zn v 32 (crc32On v.a (leBytes (v.size / 8) v.b)))⟩

/-- Table steps of CRC16R and CRC16N over bytes (R225): entry `ix crc byte` of the table at t, then `mix crc entry`. -/
def crc16Bytes (n t : Nat) (ix : Nat → Nat → Nat) (mix : Nat → Nat → Nat) : List Nat → State → Nat → QR (State × Nat)
  | [], s, c => .ok (s, c)
  | b :: bs, s, c =>
    let a := (t + 2 * ix c b) % 65536
    if a = 65535 then .fault s 7 a
    else (s.spRead n a 2).bind fun r => crc16Bytes n t ix mix bs r.1 (mix c r.2)
/-- A table CRC-16. -/
def crc16Instr (base : Nat) (ix mix : Nat → Nat → Nat) : QInstr := ⟨base, allSizes, fun _ => .mod 16, .src, fun _ => .table,
  fun n s v => (crc16Bytes n v.c ix mix (leBytes (v.size / 8) v.b) s v.a).bind fun r => retA r.1 (zn v 16 r.2)⟩
/-- 0x39 -/ def iCrc16r : QInstr := crc16Instr 0x39 (fun c b => (c ^^^ b) % 256) (fun c e => (c / 256) ^^^ e)
/-- 0x3A -/ def iCrc16n : QInstr := crc16Instr 0x3A (fun c b => (c / 256 ^^^ b) % 256) (fun c e => (c * 256 % 65536) ^^^ e)
/-- 0x3B -/
def iCsum : QInstr := ⟨0x3B, [1, 2, 3], fun _ => .mod 16, .src, kNone,
  fun _ s v => retA s (zn v 16 (onesFold (v.a + csumWords (leBytes (v.size / 8) v.b))))⟩
/-- 0x3C: the count of a REP, iterations to run. -/
def iRep : QInstr := ⟨0x3C, [0], kNone, fun _ => .src 8, kNone, fun _ s v => .ok { st := s, count := v.b + 1 }⟩
/-- 0x3D: the count of a REPI from B. -/
def iRepi : QInstr := ⟨0x3D, [0], kNone, fun _ => .src 16, kNone, fun _ s v => .ok { st := s, count := v.b }⟩
/-- A REPI that takes its count from 0x0060 and clears RPT (R229): B is not read. -/
def iRepiSaved : QInstr := ⟨0x3D, [0], kNone, kFree, kNone,
  fun n s v => (s.spRead n 0x60 8).bind fun r => .ok { st := r.1, fl := some (withBit v.fl flRPT false), count := r.2 }⟩

/-- FQPUSH (R231). -/
def fqpushBody (_ : Nat) (s : State) (v : Vals) : QR Res :=
  let q := v.a % 512
  if ((s.fqOf q).en && (s.fqOf q).discard) || s.fqRoom q then
    .ok { st := s.fqPush q ⟨v.b, bitOf 0 v.c, false, 0, false, false⟩, fl := some (flagsZ v.fl false) }
  else .ok { st := s, fl := some (flagsZ v.fl true) }
/-- 0x40 -/ def iFqpush : QInstr := ⟨0x40, [0], fun _ => .src 16, fun _ => .src 32, fun _ => .fqFlags, fqpushBody⟩
/-- FQPOP (R231). -/
def fqpopBody (_ : Nat) (s : State) (v : Vals) : QR Res :=
  let q := v.b % 512
  match s.fqHead q with
  | none => .ok { st := s, wa := some 0, fl := some (withBit (withBit (withBit (withBit v.fl flZ true) flC false) flV false) flN false) }
  | some w =>
    .ok { st := s.fqPop q,
          wa := some (w.data + 2 ^ 32 * (1 + 2 * b2n w.last + 4 * b2n w.poison + 8 * b2n w.trunc)),
          fl := some (withBit (withBit (withBit (withBit v.fl flZ false) flC w.last) flV w.poison) flN w.trunc) }
/-- 0x41 -/ def iFqpop : QInstr := ⟨0x41, [0], fun _ => .dst 64, fun _ => .src 16, kNone, fqpopBody⟩
/-- 0x42 -/
def iFqpkt : QInstr := ⟨0x42, [0], fun _ => .dst 32, fun _ => .src 16, kNone,
  fun _ s v => retA s (zn v 32 ((s.fqOf (v.b % 512)).packets))⟩

/-- SNEXT (R232): words that are there are discarded; the END word that is not yet there is waited for, the packet staying the current one. -/
def snextBody (n : Nat) (s : State) (v : Vals) : QR Res :=
  if 24 ≤ n then .ok { st := s, fl := some (flagsZ v.fl true) }
  else
    let q := s.qeOf n
    let (s, got) := if q.ended then (s, true) else s.fqSkip (s.rxq n)
    let q := { s.qeOf n with rxPos := 0 }
    if got then .ok { st := s.setQe n { q with ended := false, trunc := false, rxOpen := false }, fl := some (flagsZ v.fl (!s.fqComplete (s.rxq n))) }
    else .wait (s.setQe n { q with wait := .stream })
/-- 0x43 -/ def iSnext : QInstr := ⟨0x43, [0], kNone, kNone, kNone, snextBody⟩
/-- SCLOSE (R217, R232). -/
def scloseBody (n : Nat) (s : State) (v : Vals) : QR Res :=
  let q := s.qeOf n
  if q.txBuf.isEmpty then .ok { st := s, fl := some (flagsZ v.fl true) }
  else if !s.txRoom n 1 then .waitFor .stream
  else
    let s := (s.setQe n { q with txBuf := [], txOpen := false }).fqPush (s.txq n) ⟨ofLe q.txBuf, true, false, q.txBuf.length % 4, false, false⟩
    .ok { st := s, fl := some (flagsZ v.fl false) }
/-- 0x44 -/ def iSclose : QInstr := ⟨0x44, [0], kNone, kNone, kNone, scloseBody⟩
/-- 0x45 -/
def iSstat : QInstr := ⟨0x45, [0], fun _ => .dst 32, kNone, kNone, fun n s v =>
  let q := s.qeOf n
  retA s (zn v 32 (b2n q.ended + 2 * b2n q.trunc + 4 * b2n q.rxOpen + 8 * b2n q.txOpen))⟩

/-- Flags and result of a WAITE that ends with events e (R233). -/
def waiteDone (s : State) (v : Vals) (e : Nat) : QR Res :=
  .ok { st := s, wa := some e, fl := some (withBit (withBit v.fl flZ (e == 0)) flN (bitOf 31 e)) }
/-- The events that WAITE clears: the edge sources (R182). -/
def edgeEvents (e : Nat) : Nat := putBits 15 8 e 0
/-- WAITE (R233): the mask of a wait in progress is the one it began with. -/
def waiteBody (n : Nat) (s : State) (v : Vals) : QR Res :=
  let (m, t) := match (s.qeOf n).wait with
    | .events m t => (m, t)
    | _ => (v.b, v.c)
  let e := s.qevents n &&& m
  if m = 0 then waiteDone s v 0
  else if e = 0 then .waitFor (.events m t)
  else waiteDone (s.clearEv n (edgeEvents e)) v e
/-- 0x48 -/ def iWaite : QInstr := ⟨0x48, [0], fun _ => .dst 32, fun _ => .src 32, fun _ => .src 32, waiteBody⟩
/-- A WAITE whose timeout has passed: 0 in A and Z set; N, which the spec does not name here, as for A = 0. -/
def iWaiteTimeout : QInstr := { iWaite with body := fun _ s v => waiteDone s v 0 }
/-- The instant of WAITT (R234). -/
def State.waittInstant (s : State) (b : Nat) : Nat := s.instantNow (b / 2 ^ 32) (min (b % 2 ^ 30) 999999999)
/-- 0x49 -/
def iWaitt : QInstr := ⟨0x49, [0], kNone, fun _ => .src 64, kNone, fun n s v =>
  let t := match (s.qeOf n).wait with
    | .until t => t
    | _ => s.waittInstant v.b
  if t ≤ s.time.tod then .ok { st := s } else .waitFor (.until t)⟩
/-- 0x4A: it takes time alone (R234). -/
def iYield : QInstr := ⟨0x4A, [0], kNone, fun _ => .src 8, kNone, fun _ s _ => .ok { st := s }⟩

/-- 0x4C -/
def iSwap : QInstr := ⟨0x4C, [2, 3], .spd, .atom, .src, fun _ s v => .ok { st := s, wa := some v.b, wb := some v.c }⟩
/-- 0x4D -/
def iTas : QInstr := ⟨0x4D, [2, 3], .spd, .atom, kNone,
  fun _ s v => .ok { st := s, wa := some v.b, wb := some 1, fl := some (flagsZ v.fl (v.b == 0)) }⟩
/-- 0x4E -/
def iCas : QInstr := ⟨0x4E, [2, 3], .atom, .spm, .src, fun _ s v =>
  if v.a = v.b then .ok { st := s, wa := some v.c, fl := some (flagsZ v.fl true) }
  else .ok { st := s, wb := some v.a, fl := some (flagsZ v.fl false) }⟩

/-- A reset of a named scope, with SOURCE 5 (R236, R472). -/
def State.scopeReset (s : State) (scope i : Nat) : State :=
  let hist (s : State) : State := s.setReg LH_RESET_HIST (w32 (withBit (s.reg LH_RESET_HIST).toNat 5 true))
  match scope with
  | 0 => s.resetReq .chip 5
  | 1 => s.resetReq .core 5
  | 2 => (hist s).berthReset i
  | 3 => s.resetReq .causeway 5
  | _ => (hist s).portReset i

/-- SCOPE (R236): the reset follows the retirement; an instance out of range requests nothing. -/
def scopeBody (_ : Nat) (s : State) (v : Vals) : QR Res :=
  if (v.a = 2 ∧ 24 ≤ v.b) ∨ (v.a = 4 ∧ 6 ≤ v.b) then .ok { st := s, fl := some (flagsZ v.fl true) }
  else .ok { st := s.scopeReset v.a v.b, fl := some (flagsZ v.fl false) }
/-- 0xF0; B is the instance, as 8 bits. -/
def iScope : QInstr := ⟨0xF0, [0], fun _ => .scope, fun _ => .src 8, kNone, scopeBody⟩
/-- 0xF1 -/
def iLogev : QInstr := ⟨0xF1, [0], fun _ => .src 8, fun _ => .src 32, kNone, fun _ s v =>
  if v.a < 0x80 then .ok { st := s, fl := some (flagsZ v.fl true) }
  else .ok { st := s.logEv v.a v.b, fl := some (flagsZ v.fl false) }⟩
/-- 0xF2: every write lands at once in this model. -/
def iIfence : QInstr := ⟨0xF2, [0], kNone, kNone, kNone, fun _ s _ => .ok { st := s }⟩

/-- The opcode table (R220). -/
def qTable : List QInstr :=
  [iNop, iMov, iSext, iZext, iLea, iBswap, iAdd, iAdc, iSub, iSbb, iNeg, iMul, iMulhu, iMulhs, iMac]
  ++ [iAnd, iOr, iXor, iAndn, iNot, iShl, iShr, iSar, iRol, iRor, iBfx, iBfxs, iBfi, iBset, iBclr]
  ++ [iBeq, iBne, iBlt, iBge, iBltu, iBgeu, iBbs, iBbc, iJmp, iBf, iDjnz, iCall, iRet, iTrap, iRett]
  ++ [iCrc32, iCrc16r, iCrc16n, iCsum, iRep, iRepi, iFqpush, iFqpop, iFqpkt, iSnext, iSclose, iSstat]
  ++ [iWaite, iWaitt, iYield, iSwap, iTas, iCas, iScope, iLogev, iIfence]

/-- The instruction of a BASE on engine n: 0xF0 to 0xF2 are the harbourmaster's (R221). -/
def qLookup (n base : Nat) : Option QInstr := if base ≥ 0xF0 ∧ n ≠ 24 then none else qTable.find? (fun i => i.base == base)

/-! ## One instruction -/

/-- The static checks of an instruction word (R237, 2). -/
def QInstr.static (i : QInstr) (n w : Nat) : Bool :=
  let hm := n == 24
  let z := sizeBits w
  i.sizes.contains (sizeCode w) && (i.a z).fits hm (specA w) && (i.b z).fits hm (specB w) && (i.c z).fits hm (specC w)

/-- Read an operand if its kind says so. -/
def State.readOp (s s0 : State) (n : Nat) (k : OpKind) (e : Ea) : QR (State × Nat) :=
  if k.reads then s.readEa s0 n k e else .ok (s, 0)

/-- The word `w` of instruction `i` has a source in stream mode. -/
def QInstr.takesStream (i : QInstr) (w : Nat) : Bool :=
  let z := sizeBits w
  ((i.b z).reads && modeOf (specB w) == 0xC) || ((i.c z).reads && modeOf (specC w) == 0xC) || ((i.a z).reads && modeOf (specA w) == 0xC)

/-- The instructions whose operation uses STATUS: ADC, SBB, BF, RETT and REPI. -/
def readsStatus (base : Nat) : Bool := [0x09, 0x0B, 0x31, 0x37, 0x3D].contains base
/-- The read of STATUS by an instruction that uses it, after its sources; poison in it is MEMERR at 0x0058 (R28). -/
def State.readStatus (s : State) (n base : Nat) : QR State :=
  if readsStatus base then (s.spRead n 0x58 8).bind fun r => .ok r.1 else .ok s

/-- The index that a branch target names (R222): an immediate is relative to the next instruction. -/
def targetOf (k : OpKind) (x next v n : Nat) : Nat :=
  if k = .target ∧ modeOf x = 0 then unsgn 32 ((next : Int) + sgn 14 (fieldBits x)) % iramSize n else v

/-- The writes of an operand: its value, then its pointer. -/
def opWrites (k : OpKind) (e : Ea) (v : Option Nat) (up : Ups) : List QWrite :=
  (match v with | some x => if k.writes then [.op k.width e x] else [] | none => []) ++ up.map (fun u => .ptr u.1 u.2)

/-- An instruction whose operands have been read: the state after the reads, the values, the
places of A, B and C, the pointers that B, C and A advance. -/
structure OpsIn where
  st : State
  v  : Vals
  ea : Ea
  eb : Ea
  ec : Ea
  pb : Ups
  pc : Ups
  pa : Ups

/-- The static checks, pointers, addresses, extents and reads of instruction `i`, whose word is `w`, on engine n, in the order of R218 and
R237; `next` is the index of the instruction after it. -/
def State.readAll (s0 : State) (n : Nat) (i : QInstr) (w next : Nat) : QR OpsIn :=
  let z := sizeBits w
  let ka := i.a z
  let kb := i.b z
  let kc := i.c z
  if !i.static n w then .fault s0 1 0
  else
  (s0.formOp n kb (specB w) []).bind fun fb =>
  (fb.1.formOp n kc (specC w) fb.2.1).bind fun fc =>
  (fc.1.formOp n ka (specA w) fc.2.1).bind fun fa =>
  let eb := fb.2.2
  let ec := fc.2.2
  let ea := fa.2.2
  match ((eb.badExtent kb).or (ec.badExtent kc)).or (ea.badExtent ka) with
  | some a => .fault fa.1 7 a
  | none =>
  (stackCheck n i.base fa.1).bind fun s =>
  (((s.readOp s0 n kb eb).bind fun rb =>
  (rb.1.readOp s0 n kc ec).bind fun rc =>
  (rc.1.readOp s0 n ka ea).bind fun ra =>
  (ra.1.readStatus n i.base).bind fun s =>
  let v : Vals := { a := ra.2, b := rb.2, c := targetOf kc (specC w) next rc.2 n, size := z, fl := s.qflags n, next := next, eb := eb }
  let nb := fb.2.1.length
  let nc := fc.2.1.length
  .ok ⟨s, v, ea, eb, ec, fa.2.1.take nb, (fa.2.1.take nc).drop nb, fa.2.1.drop nc⟩).giveBack s0 n (i.takesStream w))

/-- What instruction `i` leaves of its operation's result: STATUS, the operands and pointers, in the order of R218; `s0` is
the state before the instruction. -/
def State.commitAll (s0 : State) (n : Nat) (i : QInstr) (o : OpsIn) (r : Res) : QR Res :=
  let s := match r.fl with | some fl => r.st.setQflags n fl | none => r.st
  let ws := opWrites (i.b o.v.size) o.eb r.wb o.pb ++ opWrites (i.c o.v.size) o.ec none o.pc ++ opWrites (i.a o.v.size) o.ea r.wa o.pa
  (s.commitWrites s0 o.st n ws).bind fun s => .ok { r with st := s }

/-- Execute instruction `i`, whose word is `w`, on engine n, without its PC: operands, operation, writes. -/
def State.runInstr (s0 : State) (n : Nat) (i : QInstr) (w next : Nat) : QR Res :=
  (s0.readAll n i w next).bind fun o => ((i.body n o.st o.v).bind fun r => s0.commitAll n i o r).giveBack s0 n (i.takesStream w)

/-- The engine begins a wait: everything else stays as it was (R215, R233, R234). -/
def State.beginWait (s : State) (n : Nat) (w : QWait) : State := s.setQe n { s.qeOf n with wait := w }

/-- A fault of the instruction at the PC: trap entry (R186); TRAP names the next instruction. -/
def State.qeFault (s : State) (n cause addr word : Nat) (fetch : Bool) : State :=
  let pc := (s.qeOf n).pc
  (s.trapEntry n { cause := cause, vector := cause, addr := addr, fetch := fetch, word := word,
                   pc := if cause = 8 then pc + 1 else pc }).stepDone n

/-- The instruction retires: PC, and what waits for it. -/
def State.qeRetire (s : State) (n pc : Nat) (pass : Bool) : State :=
  (s.setQe n { s.qeOf n with pc := pc % iramSize n, wait := .none, skipBp := pass, rep := none }).stepDone n

/-- Fetch the word at an index; a poisoned word is MEMERR with FETCH = 1 (R186). -/
def State.qeFetch (s : State) (n pc : Nat) : QR (State × Nat) :=
  match s.memGet (iramBase n + 8 * (pc % iramSize n)) 8 with
  | (s, .poisoned, _) => .fault s 3 0
  | (s, _, w) => .ok (s, w)

/-- TRAP_WORD of a fetch that failed. -/
def badFetchWord : Nat := 2 ^ 64 - 1

/-- A breakpoint is taken before the instruction at its PC: BREAK trap with the word fetched there, or halt (R195). A fetch that meets poison is the
fault of that instruction, which comes first (R188). -/
def breakpoint (n : Nat) (s : State) : State :=
  let q := s.qeOf n
  if q.run = .running ∧ q.wait = .none ∧ !s.qeStalled n then
    if s.bpMode n = 1 then
      match s.qeFetch n q.pc with
      | .ok (s, w) => s.trapEntry n { cause := 6, vector := 6, word := w, pc := q.pc }
      | .fault s c a => s.qeFault n c a badFetchWord true
      | _ => s
    else if s.bpMode n = 2 then s.qeHalt n .brk
    else s
  else s

/-- Execute instruction `i` at the PC of engine n. -/
def State.qeDo (s : State) (n : Nat) (i : QInstr) : State :=
  let pc := (s.qeOf n).pc
  match s.qeFetch n pc with
  | .fault s c a => s.qeFault n c a badFetchWord true
  | .wait s => s
  | .waitFor _ => s
  | .ok (s, w) =>
    match s.runInstr n i w (pc + 1) with
    | .ok r => r.st.qeRetire n (r.pc.getD (pc + 1)) r.pass
    | .fault s c a => s.qeFault n c a w false
    | .wait s => s
    | .waitFor q => s.beginWait n q

/-- A word of a reserved BASE traps EMU (R221). -/
def State.qeEmu (s : State) (n : Nat) : State :=
  match s.qeFetch n (s.qeOf n).pc with
  | .ok (s, w) => s.qeFault n 1 0 w false
  | .fault s c a => s.qeFault n c a badFetchWord true
  | _ => s

/-! ## Repeats (R229, R230) -/

/-- What a prefix may precede. -/
def repeatable (base : Nat) : Bool :=
  base == 1 || (decide (2 ≤ base) && decide (base ≤ 0x24)) || (decide (0x38 ≤ base) && decide (base ≤ 0x3B)) || base == 0x40 || base == 0x41

/-- The repeat in progress as one that nothing interrupts: so it stands within an iteration. -/
def State.inIter (s : State) (n : Nat) (r : RepSt) : State := s.setQe n { s.qeOf n with rep := some { r with int := false } }
/-- The repeat in progress as it is between iterations. -/
def State.outIter (s : State) (n : Nat) (r : RepSt) : State := s.setQe n { s.qeOf n with rep := some r }

/-- One iteration of the repeat in progress: the state, and whether a further iteration may follow at once. -/
def State.repIter (s : State) (n : Nat) : State × Bool :=
  match (s.qeOf n).rep with
  | none => (s, false)
  | some r =>
    match qLookup n (baseOf r.word) with
    | none => (s, false)
    | some i =>
      let pc := (s.qeOf n).pc
      match (s.inIter n r).runInstr n i r.word (pc + 2) with
      | .ok x =>
        if r.left ≤ 1 then (x.st.qeRetire n (pc + 2) false, false)
        else ((x.st.setQe n { x.st.qeOf n with rep := some { r with left := r.left - 1 }, wait := .none }), !r.int)
      | .fault s c a => ((s.outIter n r).qeFault n c a r.word false, false)
      | .wait s => (s.outIter n r, false)
      | .waitFor q => (s.beginWait n q, false)

/-- The iterations of a REP, all of them unless one faults or waits. -/
def repAll : Nat → Nat → State → State
  | 0, _, s => s
  | k + 1, n, s =>
    match s.repIter n with
    | (s, true) => repAll k n s
    | (s, false) => s

/-- Go on with the repeat in progress: all of a REP, one iteration of a REPI; a STEP or HALT takes effect after it, not while the iteration stalls in
a global access (R191). -/
def State.repGo (s : State) (n : Nat) : State :=
  match (s.qeOf n).rep with
  | none => s
  | some r =>
    if r.int then
      let t := (s.repIter n).1
      if t.qeStalled n then t else t.stepDone n
    else repAll r.left n s

/-- Execute the prefix at the PC (`int`: REPI): its count, the checks of the instruction after it, and the first iterations. -/
def State.qePrefix (s : State) (n : Nat) (int : Bool) : State :=
  if (s.qeOf n).rep.isSome then (s.setQe n { s.qeOf n with wait := .none }).repGo n
  else
    let pc := (s.qeOf n).pc
    let i := if !int then iRep else if bitOf flRPT (s.qflags n) && !bitOf flTRAP (s.qflags n) then iRepiSaved else iRepi
    match s.qeFetch n pc with
    | .fault s c a => s.qeFault n c a badFetchWord true
    | .wait s => s
    | .waitFor _ => s
    | .ok (s, w) =>
      if !(if int then iRepi else iRep).static n w then s.qeFault n 1 0 w false
      else match s.qeFetch n (pc + 1) with
        | .fault s c a => s.qeFault n c a badFetchWord true
        | .wait s => s
        | .waitFor _ => s
        | .ok (s, w2) =>
          let fits := match qLookup n (baseOf w2) with
            | some j => repeatable (baseOf w2) && j.static n w2
            | none => false
          if !fits then s.qeFault n 1 0 w2 false
          else match s.runInstr n i w (pc + 1) with
            | .fault s c a => s.qeFault n c a w false
            | .wait s => s
            | .waitFor q => s.beginWait n q
            | .ok r =>
              if r.count = 0 then r.st.qeRetire n (pc + 2) false
              else (r.st.setQe n { r.st.qeOf n with rep := some ⟨int, r.count, w2⟩, wait := .none }).repGo n

/-! ## The commands -/

/-- An engine executes: it is running, or a stop has reached it and it first ends the instruction in progress. -/
def State.qeActive (s : State) (n : Nat) : Bool :=
  let q := s.qeOf n
  q.run == .running || (q.run == .stopping && (s.qeStalled n || q.inRep))

/-- Engine n is at the instruction at its PC: no wait, and no event or breakpoint to be taken first (R188); under STEP the instruction goes
first (R191). -/
def State.qeReady (s : State) (n : Nat) : Bool :=
  let q := s.qeOf n
  s.qeActive n && q.wait == .none
    && (q.run != .running || q.step || s.qeStalled n || q.inRep || ((s.qeIrq n).isNone && s.bpMode n == 0))

/-- BASE of the word at the PC. -/
def State.qeBase (s : State) (n : Nat) : Nat := baseOf (s.iword n (s.qeOf n).pc)

/-- The instruction at the PC, whatever it is. -/
def State.qeAny (s : State) (n : Nat) : State :=
  let b := s.qeBase n
  if b = 0x3C then s.qePrefix n false
  else if b = 0x3D then s.qePrefix n true
  else match qLookup n b with
    | some i => s.qeDo n i
    | none => s.qeEmu n

/-- Engine n executes instruction `i` if that is what stands at its PC. -/
def qeRow (i : QInstr) (n : Nat) (s : State) : State := if s.qeReady n && s.qeBase n == i.base && (n == 24 || i.base < 0xF0) then s.qeDo n i else s

/-- Engine n executes a prefix. -/
def qePrefixRow (int : Bool) (n : Nat) (s : State) : State :=
  if s.qeReady n && s.qeBase n == (if int then 0x3D else 0x3C) then s.qePrefix n int else s

/-- Engine n meets a word of a reserved BASE. -/
def emu (n : Nat) (s : State) : State := if s.qeReady n && (qLookup n (s.qeBase n)).isNone then s.qeEmu n else s

/-- A waiting engine goes on: no event interrupt comes first (R233). -/
def State.qeWaiting (s : State) (n : Nat) : Bool := s.qeActive n && ((s.qeOf n).run != .running || (s.qeIrq n).isNone)

/-- Bytes or room of a stream that an instruction waits for have come (R215). -/
def streamWaitEnd (n : Nat) (s : State) : State :=
  if (s.qeOf n).wait = .stream ∧ s.qeWaiting n then (s.setQe n { s.qeOf n with wait := .none }).qeAny n else s

/-- A masked event has come (R233). -/
def waiteComplete (n : Nat) (s : State) : State :=
  match (s.qeOf n).wait with
  | .events m _ => if s.qeWaiting n ∧ s.qevents n &&& m ≠ 0 then s.qeDo n iWaite else s
  | _ => s

/-- The timeout of a WAITE has passed with no masked event pending (R233). -/
def waiteTimeout (n : Nat) (s : State) : State :=
  match (s.qeOf n).wait with
  | .events m t => if s.qeWaiting n ∧ t ≠ 0 ∧ s.qevents n &&& m = 0 then s.qeDo n iWaiteTimeout else s
  | _ => s

/-- The instant of a WAITT has come (R234). -/
def waittComplete (n : Nat) (s : State) : State :=
  match (s.qeOf n).wait with
  | .until t => if s.qeWaiting n ∧ t ≤ s.time.tod then s.qeDo n iWaitt else s
  | _ => s

end Sys2Proof.Machine
end

