-- ==== Sys2Proof/Machine/DmaXfer.lean ====
section
/-! DEFINITION. What moves the data of a DMA channel (09): descriptor fetch and check (R253, R254), segments and reshuffle (R251, R252, R256),
completion (R255). -/
namespace Sys2Proof.Machine

/-- COUNT + 1 -/ def DmaSt.streams (x : DmaSt) : Nat := bitsOf 3 0 (x.word 4) + 1
/-- Element bytes -/ def DmaSt.esize (x : DmaSt) : Nat := 2 ^ bitsOf 9 8 (x.word 4)
/-- MSBF -/ def DmaSt.msbf (x : DmaSt) : Bool := bitOf 12 (x.word 4)
/-- STRIDE -/ def DmaSt.stride (x : DmaSt) : Nat := bitsOf 23 0 (x.word 5)

/-- The checks of R254: some of them fails. Fields that a mode does not use must be 0. -/
def DmaSt.badDesc (x : DmaSt) : Bool :=
  let m := x.mode
  let rsa := x.word 4
  let planes := m == 3 || m == 4
  decide (4 < m) || x.len == 0 || (!x.last && x.word 3 % 32 != 0)
    || (m == 0 && (rsa != 0 || x.word 5 != 0))
    || (m != 0 && (x.srcFq || x.dstFq || x.word 6 != 0))
    || (x.srcFq && x.srcFix) || (x.dstFq && x.dstFix)
    || ((m == 1 || m == 2) && (x.streams == 1 || x.len % (x.streams * x.esize) != 0 || x.msbf))
    || (planes && (x.len % 8 != 0 || bitOf 3 rsa || bitsOf 9 8 rsa != 0))
    || bitsOf 7 4 rsa != 0 || bitsOf 11 10 rsa != 0 || rsa / 2 ^ 13 != 0 || x.word 5 / 2 ^ 24 != 0
    || decide (0x28 < x.sel) || x.word 6 / 2 ^ 18 != 0
    || (x.srcFix && x.word 1 % 4 != 0) || (x.dstFix && x.word 2 % 4 != 0)

/-- An access that cannot end yet leaves everything as it was before `s0` but for its wait. -/
def State.stallWho (s0 s : State) (who : Initiator) (a : Nat) : State :=
  match s.cw.waits.find? (fun x => x.who == who && x.addr == a && x.result.isNone) with
  | some x =>
    if s0.cw.waits.any (fun y => y.who == who && y.addr == a && y.result.isNone) then s0
    else s0.modCw fun c => { c with waits := c.waits ++ [x] }
  | none => s0

/-- How a piece of a transfer ends: done, with what it gave; halted; it cannot go on now. -/
inductive DmaR (α : Type) where
  | ok (s : State) (v : α)
  | halt (s : State)
  | stop (s : State)

/-- Carry on. -/
def DmaR.bind {α β : Type} (x : DmaR α) (f : State → α → DmaR β) : DmaR β :=
  match x with
  | .ok s v => f s v
  | .halt s => .halt s
  | .stop s => .stop s

/-- The state that is left. -/
def DmaR.state {α : Type} : DmaR α → State
  | .ok s _ => s
  | .halt s => s
  | .stop s => s

/-- A register is reached with a fixed address only (R252). -/
def dmaReg (fixed : Bool) (a : Nat) : Bool := !fixed && (match regionOf a with | some (.regs _, _) => true | _ => false)

/-- Read one piece for channel n: a bus error or poison halts it (R258). -/
def State.dmaGet (s s0 : State) (n : Nat) (fixed : Bool) (a k : Nat) : DmaR (List Nat) :=
  if dmaReg fixed a then .halt (s.dmaHalt n 1 a 0 (s.dmaNext n))
  else match s.busRead (dmaR n) a k with
    | (s, .done, v) => .ok s (leBytes k v)
    | (s, .poisoned, _) => .halt (s.dmaHalt n 2 a 0 (s.dmaNext n))
    | (s, .busError, _) => .halt (s.dmaHalt n 1 a 0 (s.dmaNext n))
    | (s1, .waiting, _) => .stop (s0.stallWho s1 (dmaR n) a)

/-- Read pieces in order. -/
def State.dmaGets (s s0 : State) (n : Nat) (fixed : Bool) : List (Nat × Nat) → DmaR (List Nat)
  | [] => .ok s []
  | (a, k) :: t => (s.dmaGet s0 n fixed a k).bind fun s bs => (s.dmaGets s0 n fixed t).bind fun s bs' => .ok s (bs ++ bs')

/-- Write pieces in order. -/
def State.dmaPuts (s s0 : State) (n : Nat) (fixed : Bool) : List (Nat × List Nat) → DmaR Unit
  | [] => .ok s ()
  | (a, bs) :: t =>
    if dmaReg fixed a then .halt (s.dmaHalt n 1 a 1 (s.dmaNext n))
    else match s.busWrite (dmaW n) a bs with
      | (s, .done) => s.dmaPuts s0 n fixed t
      | (s1, .waiting) => .stop (s0.stallWho s1 (dmaW n) a)
      | (s, _) => .halt (s.dmaHalt n 1 a 1 (s.dmaNext n))

/-! ## Fetch -/

/-- The rest of a packet that a halt cut is discarded (R258); whether it is gone. -/
def State.dmaSkip (s : State) (n : Nat) : State × Bool :=
  match (s.dmaOf n).skipQ with
  | none => (s, true)
  | some q =>
    let (s, got) := s.fqSkip q
    if got then (s.setDma n { s.dmaOf n with skipQ := none }, true) else (s, false)

/-- A channel that has no descriptor fetches the one at DMAn_NEXT as two beats and checks it (R253, R254, R259). -/
def descriptorFetch (n : Nat) (s : State) : State :=
  if !s.dmaActive n || (s.dmaOf n).fetched || s.rst.core then s
  else
    let d := s.dmaNext n
    ((s.dmaGets s n false [(d, 16), (d + 16, 16)]).bind fun s bs =>
      let ws := (List.range 8).map (fun i => leAt bs (4 * i) 4)
      let x : DmaSt := { skipQ := (s.dmaOf n).skipQ, desc := ws }
      let s := (s.count (DMA_HOPS n)).clrB (DMA_CTL n) DMA_CTL_START
      if x.badDesc then .halt (s.dmaHalt n 4 d 0 d) else .ok (s.setDma n x) ()).state

/-! ## Segments -/

/-- Bits of a pixel group: byte of plane p of eight pixels (R256). -/
def planeByte (msbf : Bool) (p : Nat) (px : List Nat) : Nat :=
  packBits ((List.range 8).map (fun j => bitOf p (px.getD (if msbf then 7 - j else j) 0)))
/-- Pixel j of a group from its plane bytes. -/
def pixelOf (msbf : Bool) (planes : List Nat) (j : Nat) : Nat :=
  packBits (planes.map (fun b => bitOf (if msbf then 7 - j else j) b))

/-- How a side of a transfer lies in memory: in one run, a run for each stream, a run for each plane (R256). -/
inductive DmaLay where
  | whole | streams | planes
  deriving DecidableEq, Repr

/-- The layout of the source side or of the destination side. -/
def DmaSt.lay (x : DmaSt) (dst : Bool) : DmaLay :=
  match x.mode, dst with
  | 1, false => .streams
  | 2, true => .streams
  | 3, true => .planes
  | 4, false => .planes
  | _, _ => .whole

/-- Elements of stream k among the first i elements. -/
def DmaSt.row (x : DmaSt) (k i : Nat) : Nat := (i + x.streams - 1 - k) / x.streams

/-- Where the segment that begins after `m` bytes begins in run k of a side. -/
def DmaSt.first (x : DmaSt) (lay : DmaLay) (k m : Nat) : Nat :=
  match lay with
  | .whole => m
  | .streams => x.row k (m / x.esize) * x.esize
  | .planes => m / 8

/-- What the transfer must have moved before byte b of run k is due: whole elements, whole groups of eight pixels. -/
def DmaSt.due (x : DmaSt) (lay : DmaLay) (k b : Nat) : Nat :=
  match lay with
  | .streams => (b / x.esize * x.streams + k) * x.esize
  | .planes => 8 * b
  | .whole => match x.mode with | 2 => b / x.esize * x.esize | 3 => b / 8 * 8 | _ => b

/-- Part of a run: run, place of its first byte there, address, length. -/
structure DmaPart where
  strm : Nat
  off  : Nat
  addr : Nat
  len  : Nat
  deriving DecidableEq, Repr

/-- What the segment covers of each run of a side at `base`. -/
def DmaSt.runs (x : DmaSt) (dst : Bool) : List DmaPart :=
  let lay := x.lay dst
  let base := if dst then x.word 2 else x.word 1
  (List.range (if lay = .whole then 1 else x.streams)).map fun k =>
    let a := x.first lay k x.moved
    ⟨k, a, base + k * x.stride + a, x.first lay k (x.moved + x.goal) - a⟩

/-- Its 128-bit beats (R252). -/
def DmaPart.beats (p : DmaPart) : List DmaPart :=
  if p.len = 0 then []
  else (linesOf p.addr p.len).map fun l =>
    let a := max p.addr (16 * l)
    ⟨p.strm, p.off + (a - p.addr), a, min (p.addr + p.len) (16 * l + 16) - a⟩

/-- A beat takes its place: one that is due earlier comes first. -/
def dmaInsert (due : DmaPart → Nat) (b : DmaPart) : List DmaPart → List DmaPart
  | [] => [b]
  | c :: t => if due b < due c then b :: c :: t else c :: dmaInsert due b t

/-- The beats of the segment under way on a side, in the order in which the mode takes up what they hold (R256). -/
def DmaSt.beats (x : DmaSt) (dst : Bool) : List DmaPart :=
  (x.runs dst).flatMap DmaPart.beats |>.foldl (fun l b => dmaInsert (fun c => x.due (x.lay dst) c.strm c.off) b l) []

/-- The reads of the segment under way: beats, or 32-bit words at a fixed address (R252). -/
def DmaSt.reads (x : DmaSt) : List DmaPart :=
  if x.srcFix then (List.range ((x.goal + 3) / 4)).map fun i => ⟨0, x.moved + 4 * i, x.word 1, min 4 (x.goal - 4 * i)⟩
  else x.beats false

/-- The read engine is done with the segment: `k` bytes of it are there, after a failure those whose beats came before it. -/
def State.dmaFilled (s : State) (n k : Nat) (fail : Option (Nat × Nat)) : State :=
  s.setDma n { s.dmaOf n with goal := k, drain := true, fail := fail }

/-- The region takes a beat. -/
def State.dmaKeep (s : State) (n : Nat) (b : DmaBeat) : State := s.setDma n { s.dmaOf n with got := (s.dmaOf n).got ++ [b] }

/-- The read engine fills the region from memory or a register (R251): an access that must wait leaves the rest for later; a bus error or poison ends
the segment ahead of its beat (R258). -/
def State.dmaFill (s : State) (n : Nat) : List DmaPart → State
  | [] => s.dmaFilled n (s.dmaOf n).goal none
  | b :: t =>
    let x := s.dmaOf n
    let k := x.due (x.lay false) b.strm b.off - x.moved
    if dmaReg x.srcFix b.addr then s.dmaFilled n k (some (1, b.addr))
    else match s.busRead (dmaR n) b.addr (if x.srcFix then 4 else b.len) with
      | (s, .done, v) => (s.dmaKeep n ⟨b.strm, b.off, leBytes b.len v⟩).dmaFill n t
      | (s, .poisoned, _) => s.dmaFilled n k (some (2, b.addr))
      | (s, .busError, _) => s.dmaFilled n k (some (1, b.addr))
      | (s, .waiting, _) => s

/-- Bytes in the region. -/
def DmaSt.held (x : DmaSt) : Nat := (x.got.map (·.bytes.length)).sum

/-- The read engine fills the region from a queue, up to the end of its packet, as far as its words go (R252). -/
def State.dmaFillQ (s : State) (n : Nat) : Nat → State
  | 0 => s.dmaFilled n (s.dmaOf n).held none
  | fuel + 1 =>
    let x := s.dmaOf n
    let k := x.held
    if x.srcDone ∨ x.goal ≤ k then s.dmaFilled n k none
    else match (s.fqOf x.srcQ).words with
      | [] => s.dmaFilled n k none
      | w :: _ =>
        if w.trunc then ((s.fqPop x.srcQ).setDma n { x with srcDone := true, trunc := true }).dmaFilled n k none
        else if w.poison || w.bad then s.dmaFilled n k (some (2, x.srcQ))
        else
          let bs := w.bytes.take (x.len - x.moved - k)
          let y := { x with srcDone := w.last, oversize := x.oversize || decide (bs.length < w.bytes.length) }
          (((s.fqPop x.srcQ).setDma n y).dmaKeep n ⟨0, x.moved + k, bs⟩).dmaFillQ n fuel

/-- What run k of the source gave, from its first byte in the segment on. -/
def DmaSt.gave (x : DmaSt) (k : Nat) : List Nat := (x.got.filter (fun b => b.strm == k)).flatMap (·.bytes)

/-- What the segment puts into run k of the destination (R256). -/
def DmaSt.gives (x : DmaSt) (k : Nat) : List Nat :=
  let e := x.esize
  let i0 := x.moved / e
  match x.mode with
  | 0 => (x.gave 0).take x.goal
  | 1 => (List.range (x.goal / e)).flatMap fun i =>
      let r := (i0 + i) % x.streams
      slice (x.gave r) (((i0 + i) / x.streams - x.row r i0) * e) e
  | 2 => ((List.range (x.goal / e)).filter (fun i => (i0 + i) % x.streams == k)).flatMap fun i => slice (x.gave 0) (i * e) e
  | 3 => (List.range (x.goal / 8)).map fun g => planeByte x.msbf k (slice (x.gave 0) (8 * g) 8)
  | _ => (List.range (x.goal / 8)).flatMap fun g =>
      (List.range 8).map (pixelOf x.msbf ((List.range x.streams).map fun p => (x.gave p).getD g 0))

/-- Bytes four at a time. -/
def wordsOf (bs : List Nat) : List (List Nat) := (List.range ((bs.length + 3) / 4)).map fun i => (bs.drop (4 * i)).take 4

/-- The writes of the segment under way to memory or a fixed address. Bytes of a fixed word that the transfer does not have are open: free values, which
`free` numbers. -/
def DmaSt.writes (x : DmaSt) (free : Nat) : List (Nat × List Nat) :=
  if x.dstFix then (wordsOf (x.gives 0)).map fun bs =>
    (x.word 2, bs ++ (List.range (4 - bs.length)).map (fun k => (Config.freeByte (16 * free + k)).toNat))
  else
    let runs := (List.range (if x.lay true = .whole then 1 else x.streams)).map x.gives
    (x.beats true).map fun b => (b.addr, slice (runs.getD b.strm []) (b.off - x.first (x.lay true) b.strm x.moved) b.len)

/-- The write engine has made a write. -/
def State.dmaPutOne (s : State) (n : Nat) : State := s.setDma n { s.dmaOf n with put := (s.dmaOf n).put + 1 }

/-- The write engine empties the region (R251), and whether it has: an access that must wait leaves the rest for later, a bus error halts the channel
(R258), and so may a write to the channel's own register. -/
def State.dmaEmpty (s : State) (n : Nat) : List (Nat × List Nat) → State × Bool
  | [] => (s, true)
  | (a, bs) :: t =>
    let x := s.dmaOf n
    if x.goal = 0 then (s, false)
    else if dmaReg x.dstFix a then (s.dmaHalt n 1 a 1 (s.dmaNext n), false)
    else match s.busWrite (dmaW n) a bs with
      | (s, .done) => (if (s.dmaOf n).goal = 0 then s else s.dmaPutOne n).dmaEmpty n t
      | (s, .waiting) => (s, false)
      | (s, _) => (s.dmaHalt n 1 a 1 (s.dmaNext n), false)

/-- The write engine empties the region into a queue, and whether it has: words are pushed as long as there is room, and the last one is kept until
the packet ends (R252). -/
def State.dmaEmptyQ (s : State) (n : Nat) : List (List Nat) → State × Bool
  | [] => (s, true)
  | bs :: t =>
    let x := s.dmaOf n
    if x.dstBuf.isEmpty then (s.setDma n { x with dstBuf := bs, put := x.put + 1 }).dmaEmptyQ n t
    else if !s.dmaRoom x.dstQ then (s, false)
    else ((s.setDma n { x with dstBuf := bs, dstOpen := true, put := x.put + 1 }).fqPush x.dstQ
      ⟨ofLe x.dstBuf, false, false, 0, false, false⟩).dmaEmptyQ n t

/-- The write engine works on the segment under way. -/
def State.dmaDrain (s : State) (n : Nat) : State × Bool :=
  let x := s.dmaOf n
  if x.dstFq then s.dmaEmptyQ n ((wordsOf (x.gives 0)).drop x.put) else s.dmaEmpty n ((x.writes s.free).drop x.put)

/-- Bytes of a fixed destination word that the segment does not have were open. -/
def State.dmaPad (s : State) (n : Nat) : State := if (s.dmaOf n).dstFix ∧ (s.dmaOf n).goal % 4 ≠ 0 then s.tickFree else s

/-- The segment is moved and the region given up (R251); where the read engine had stopped early, the channel halts now (R258). -/
def State.dmaEnd (s : State) (n : Nat) : State :=
  let x := s.dmaOf n
  let s := (s.dmaPad n).setDma n { x with moved := x.moved + x.goal, burst := x.burst - x.goal, goal := 0, got := [], drain := false, put := 0,
                                          fail := none, region := false }
  match x.fail with
  | some (cause, a) => s.dmaHalt n cause a 0 (s.dmaNext n)
  | none => s

/-- Words that queue q takes now. -/
def State.dmaFits (s : State) (q : Nat) : Nat :=
  if (s.fqOf q).en && (s.fqOf q).discard then 512 else ((List.range 513).takeWhile (fun r => s.fqRoomN q r)).length - 1

/-- Bytes that the next segment may move: at most 2 KiB, within the descriptor and the granted burst (R251, R257), and no more than a destination queue
has room for, one word being kept (R252). -/
def State.dmaSize (s : State) (n : Nat) : Nat :=
  let x := s.dmaOf n
  let left := min 2048 (x.len - x.moved)
  let k := if x.sel = 0 then left else min left x.burst
  if x.dstFq then min k (4 * (s.dmaFits x.dstQ + b2n x.dstBuf.isEmpty)) else k

/-- The read engine fills the region of the segment under way. -/
def State.dmaRead (s : State) (n : Nat) : State :=
  let x := s.dmaOf n
  if x.drain then s
  else if x.srcFq then s.dmaFillQ n (x.goal + 1)
  else s.dmaFill n (x.reads.drop x.got.length)

/-- A channel with a region moves a segment, or goes on with one whose accesses had to wait: the read engine fills the region, then the write engine
empties it (R251). -/
def State.dmaSegment (s : State) (n : Nat) : State :=
  let s := if (s.dmaOf n).goal = 0 then s.setDma n { s.dmaOf n with goal := s.dmaSize n } else s
  let s := s.dmaRead n
  if (s.dmaOf n).drain then
    match s.dmaDrain n with
    | (s, true) => s.dmaEnd n
    | (s, false) => s
  else s

/-- A channel that holds a region, or wins one, moves a segment (R251). -/
def segmentTransfer (n : Nat) (s : State) : State :=
  if !s.dmaActive n || !(s.dmaOf n).fetched || s.rst.core then s
  else match s.dmaSkip n with
    | (s, false) => s
    | (s, true) =>
      if (s.dmaOf n).goal = 0 ∧ s.dmaSize n = 0 then s
      else if s.dmaHolds n then s.dmaSegment n
      else if s.dmaWins n then (s.dmaTake n).dmaSegment n
      else s

/-! ## Completion -/

/-- What a queue source still holds of the packet is discarded (R252): whether its end has been taken. -/
def State.dmaExcess (s : State) (n : Nat) : State × Bool :=
  let x := s.dmaOf n
  if !x.srcFq || x.srcDone then (s, true)
  else match (s.fqOf x.srcQ).words with
    | [] => (s, false)
    | w :: _ =>
      if w.trunc then ((s.fqPop x.srcQ).setDma n { x with srcDone := true, trunc := true }, true)
      else
        let t := (headPacket (s.fqOf x.srcQ).words).any (fun w => w.trunc)
        let (s, got) := s.fqSkip x.srcQ
        (s.setDma n { x with oversize := true, srcDone := got, trunc := x.trunc || t }, got)

/-- The destination packet's last word, with END and VB; whether it found room. -/
def State.dmaClose (s : State) (n : Nat) : State × Bool :=
  let x := s.dmaOf n
  if !x.dstFq || x.dstBuf.isEmpty then (s, true)
  else if !s.dmaRoom x.dstQ then (s, false)
  else ((s.setDma n { x with dstBuf := [], dstOpen := false }).fqPush x.dstQ ⟨ofLe x.dstBuf, true, false, x.dstBuf.length % 4, false, false⟩, true)

/-- BYTES: what was read from the source; UNPLANE reads a bit for each pixel and plane. -/
def DmaSt.bytesRead (x : DmaSt) : Nat := if x.mode = 4 then x.moved / 8 * x.streams else x.moved
/-- The STATUS word written back. -/
def DmaSt.status (x : DmaSt) : Nat := x.bytesRead % 2 ^ 24 + 2 ^ 28 * b2n x.oversize + 2 ^ 29 * b2n x.trunc + 2 ^ 31

/-- NOTIFY and LAST act, and the next descriptor is fetched (R255, R259). `late`: an ABORT comes in the same clock, and loses to
a final completion (R260). -/
def State.dmaDone (s : State) (n : Nat) (late : Bool) : State :=
  let x := s.dmaOf n
  let s := if x.notify then (s.setB (DMA_STATUS n) DMA_STATUS_DESC_DONE).raiseDmaw n else s
  let clear (s : State) : State := s.setDma n { skipQ := none }
  if x.last then
    let s := ((clear s).putF (DMA_STATE n) DMA_STATE_STATE 0).setB (DMA_STATUS n) DMA_STATUS_CHAIN_DONE
    s.setIf late (DMA_STATUS n) DMA_STATUS_ABORT_LATE
  else
    let lim := (s.reg DMA_HOPLIMIT).toNat
    if lim ≠ 0 ∧ (s.reg (DMA_HOPS n)).toNat = lim then (clear s).dmaHalt n 3 0 0 (x.word 3)
    else
      let s := descriptorFetch n ((clear s).setReg (DMA_NEXT n) (w32 (x.word 3)))
      if late then s.dmaAbort n else s

/-- A descriptor whose data is all moved completes, in the order of R255. -/
def descriptorComplete (n : Nat) (late : Bool) (s : State) : State :=
  let x := s.dmaOf n
  if !s.dmaActive n || !x.fetched || s.rst.core || x.goal != 0 || !(x.srcDone || x.moved == x.len) then s
  else match s.dmaExcess n with
    | (s, false) => s
    | (s, true) => match s.dmaClose n with
      | (s, false) => s
      | (s, true) =>
        if x.wb then
          match s.dmaPuts s n false [(s.dmaNext n + 0x1C, leBytes 4 (s.dmaOf n).status)] with
          | .ok s _ => s.dmaDone n late
          | r => r.state
        else s.dmaDone n late

end Sys2Proof.Machine
end

