-- ==== Sys2Proof/Machine/HmImage.lean ====
section
/-! DEFINITION. Images (15, R419 to R423): where they lie, the manifest, their checks, their placement; the MRAM's slots (17, R485). -/
namespace Sys2Proof.Machine

/-! ## The MRAM's slots (R483, R485) -/

/-- Copy j of the directory entry of slot i. -/
def slotAddr (j i : Nat) : Nat := 0x50001000 + j * 0x2000 + i * 128
/-- Page p of the image area. -/
def pageAddr (p : Nat) : Nat := 0x50020000 + p * 4096
/-- Pages that n bytes take. -/
def pagesFor (n : Nat) : Nat := (n + 4095) / 4096

/-- A copy's CRC holds. -/
def State.slotGood (s : State) (j i : Nat) : Bool :=
  !s.poisonedN (slotAddr j i) 128 && s.rdN (slotAddr j i + 124) 4 == crc32 (s.rdBytes (slotAddr j i) 124)
/-- The two copies of slot i's entry are read (R27, R484). -/
def State.slotRead (s : State) (i : Nat) : State := (s.mramRead (slotAddr 0 i) 128).mramRead (slotAddr 1 i) 128
/-- The whole directory is read. -/
def State.dirRead (s : State) : State := (s.mramRead (slotAddr 0 0) 8192).mramRead (slotAddr 1 0) 8192

/-- SEQ of a copy. -/
def State.slotSeq (s : State) (j i : Nat) : Nat := s.rdN (slotAddr j i + 72) 4

/-- The copy that readers take: the one whose CRC holds, the higher SEQ if both hold. -/
def State.slotCopy (s : State) (i : Nat) : Option Nat :=
  if s.slotGood 0 i && s.slotGood 1 i then some (if s.slotSeq 0 i < s.slotSeq 1 i then 1 else 0)
  else if s.slotGood 0 i then some 0
  else if s.slotGood 1 i then some 1
  else none

/-- Slot i is VALID: the address of its entry. -/
def State.slotValid (s : State) (i : Nat) : Option Nat :=
  match s.slotCopy i with
  | some j => if s.rd8 (slotAddr j i + 76) = 1 then some (slotAddr j i) else none
  | none => none

/-- A word of a slot's entry. -/
def State.slotWord (s : State) (a k : Nat) : Nat := s.rdN (a + 4 * k) 4

/-- Page p holds the image of a VALID slot. -/
def State.pageUsed (s : State) (p : Nat) : Bool := anyN 64 fun i =>
  match s.slotValid i with
  | some a => decide (s.slotWord a 16 ≤ p) && decide (p < s.slotWord a 16 + pagesFor (s.slotWord a 17))
  | none => false

/-- The lowest run of n free pages from p on. -/
def State.freePages (s : State) (n : Nat) : Option Nat :=
  (List.range (993 - n)).find? (fun p => !(List.range n).any (fun k => s.pageUsed (p + k)))

/-- The older copy of slot i is written with SEQ + 1: 72 bytes of manifest, page and length, and STATE. -/
def State.slotPut (s : State) (i : Nat) (head : List Nat) (st : Nat) : State :=
  let (j, seq) := match s.slotCopy i with
    | some j => (1 - j, (s.slotSeq j i + 1) % 2 ^ 32)
    | none => (0, 1)
  let bs := head ++ leBytes 4 seq ++ [st] ++ List.replicate 47 0
  s.mramStore (slotAddr j i) (bs ++ leBytes 4 (crc32 bs))

/-- An image is stored in slot i: free pages are written and read back, then the entry (R485). Answers the STATUS. -/
def State.slotStore (s : State) (i : Nat) (img : List Nat) : State × Nat :=
  let s := s.dirRead
  match s.freePages (pagesFor img.length) with
  | none => (s, 0x0E)
  | some p =>
    let s := (s.mramStore (pageAddr p) img).mramRead (pageAddr p) img.length
    if s.poisonedN (pageAddr p) img.length then (s, 0x0D)
    else (s.slotPut i (img.take 64 ++ leBytes 4 p ++ leBytes 4 img.length) 1, 0)

/-- A slot is emptied. -/
def State.slotErase (s : State) (i a : Nat) : State := s.slotPut i (s.rdBytes a 72) 0

/-! ## Where an image lies (R419) -/

/-- The words of an image request: SOURCE, SLOT, ADDR_LO, ADDR_HI, length. -/
structure ImgReq where
  source : Nat
  slot   : Nat
  lo     : Nat
  hi     : Nat
  len    : Nat
  deriving DecidableEq, Repr

/-- The image request in four payload words. -/
def imgReqOf (ws : List Nat) : ImgReq := ⟨bitsOf 3 0 (ws.getD 0 0), bitsOf 21 16 (ws.getD 0 0), ws.getD 1 0, ws.getD 2 0, ws.getD 3 0⟩

/-- The first payload word, counted from `k`, that holds a reserved or out-of-range value. -/
def imgReqBad (ws : List Nat) (k : Nat) : Option Nat :=
  let r := imgReqOf ws
  if 4 ≤ r.source then some k
  else if r.source = 2 ∧ r.lo ≠ 0 then some (k + 1)
  else if r.source ≠ 1 ∧ r.hi ≠ 0 then some (k + 2)
  else if r.source = 2 ∧ r.len ≠ 0 then some (k + 3)
  else none

/-- n bytes read one by one. -/
def State.busBytes (s : State) (a : Nat) : Nat → State × Option (List Nat)
  | 0 => (s, some [])
  | n + 1 => match s.busRead .hm a 1 with
    | (s, .done, v) => match s.busBytes (a + 1) n with
      | (s, some l) => (s, some (v :: l))
      | (s, none) => (s, none)
    | (s, _, _) => (s, none)

/-- n bytes, a multiple of 4, read by the harbourmaster; none on a bus error or poison. -/
def State.hmRead (s : State) (a n : Nat) : State × Option (List Nat) :=
  if a % 4 = 0 then
    match s.busReadAll .hm a (n / 4) with
    | (s, .done, l, false) => (s, some l)
    | (s, _, _, _) => (s, none)
  else s.busBytes a n

/-- Window 7 is programmed for a PCIe read (R419). -/
def State.window7 (s : State) (r : ImgReq) : State :=
  (((s.regWrite .hm (CW_OWIN_LO 7) (w32 r.lo)).1.regWrite .hm (CW_OWIN_HI 7) (w32 r.hi)).1.regWrite .hm (CW_OWIN_CTL 7) 1).1

/-- The internal address of an image's first byte and its stated length; none for an empty slot. -/
def State.imgPlace (s : State) (r : ImgReq) : Option (Nat × Nat) :=
  match r.source with
  | 0 => some (r.lo, r.len)
  | 1 => some (0xF0000000 + r.lo % 0x10000000, r.len)
  | 2 => (s.slotValid r.slot).map (fun a => (pageAddr (s.slotWord a 16), s.slotWord a 17))
  | _ => some (0x60000000 + r.lo, r.len)

/-- Bytes [off, off + n) of an image at a; `ext` is what the link delivers where the image lies behind an outbound window, none where
its read fails there. A read beyond the flash window fails (R419). -/
def State.imgRead (s : State) (r : ImgReq) (a off n : Nat) (ext : Option (List Nat)) : State × Option (List Nat) :=
  if r.source = 1 ∨ (r.source = 0 ∧ 0x80000000 ≤ a ∧ a < 0x100000000) then
    let w := if r.source = 1 then 7 else (a - 0x80000000) / 0x10000000
    let l := ext.map (fun l => slice (l ++ List.replicate (off + n - l.length) 0) off n)
    (s, if s.outOpen w then l else none)
  else if r.source = 3 ∧ 0x68000000 < a + off + n then (s, none)
  else s.hmRead (a + off) n

/-! ## The manifest and the checks (R420 to R422) -/

/-- Word k of a manifest. -/
def manW (m : List Nat) (k : Nat) : Nat := ofLe (slice m (4 * k) 4)
/-- TYPE -/ def manType (m : List Nat) : Nat := bitsOf 15 8 (manW m 1)
/-- SIGNED -/ def manSigned (m : List Nat) : Bool := bitOf 16 (manW m 1)
/-- TARGET -/ def manTarget (m : List Nat) : Nat := manW m 2
/-- LOAD -/ def manLoad (m : List Nat) : Nat := manW m 3
/-- LENGTH -/ def manLen (m : List Nat) : Nat := manW m 4
/-- ENTRY -/ def manEntry (m : List Nat) : Nat := manW m 5
/-- VERSION -/ def manVersion (m : List Nat) : Nat := manW m 6

/-- TARGET as R421 allows it for the type. -/
def manTargetBad (m : List Nat) : Bool :=
  let t := manTarget m
  match manType m with
  | 1 => bitsOf 23 0 t == 0 || bitsOf 30 24 t != 0
  | 2 => t != 0x01000000
  | 3 => t == 0 || decide (256 ≤ t)
  | 4 => t != 1 && t != 2
  | _ => t != 0

/-- LOAD, LENGTH or ENTRY outside the table of R421, as far as the manifest alone tells. -/
def manRangeBad (m : List Nat) : Bool :=
  let ld := manLoad m
  let n := manLen m
  let e := manEntry m
  match manType m with
  | 1 =>
    if bitOf 31 (manTarget m) then n % 4 != 0 || decide (ld < 0x80) || decide (0x10000 < ld + n) || e != 0
    else n % 8 != 0 || decide (32768 < 8 * ld + n) || decide (4096 ≤ e)
  | 2 => ld != 0 || n % 8 != 0 || decide (131072 < n) || decide (16384 ≤ e)
  | 3 => n % 4 != 0 || decide (256 ≤ ld) || decide (1024 < 4 * ld + n) || e != 0
  | 4 => ld != 0 || n % 16 != 0 || decide (n < 16) || decide (131072 < n) || decide (e < 2000) || decide (1000000000 < e)
  | _ => ld != 0 || n % 8 != 0 || e != 0

/-- The length of the whole image (R419). -/
def manWhole (m : List Nat) : Nat := 64 + manLen m + 64 * b2n (manSigned m)

/-- The checks that the manifest alone decides, in the order of their DETAIL codes; 0 where all hold. `within` are the engines of the berth
for BERTH_RELOAD, `len` is the request's length; that of a stowage set is checked after its records are found whole. -/
def manCheck (m : List Nat) (len : Nat) (within : Option Nat) : Nat :=
  if manW m 0 ≠ 0x554D464C then 2
  else if bitsOf 7 0 (manW m 1) ≠ 1 then 3
  else if manType m = 0 ∨ 7 ≤ manType m then 4
  else if bitsOf 31 17 (manW m 1) ≠ 0 ∨ (slice m 32 32).any (· != 0) then 5
  else if manTargetBad m then 6
  else if within.any (fun e => manType m != 2 && (manType m != 1 || Nat.land (bitsOf 23 0 (manTarget m)) e != bitsOf 23 0 (manTarget m))) then 6
  else if manRangeBad m then 7
  else if manType m ≠ 5 ∧ len ≠ manWhole m then 8
  else 0

/-- One record of a stowage set (R167): PLAN word, signature, CTL, entries. -/
structure StowRec where
  plan    : Nat
  sigLo   : Nat
  sigHi   : Nat
  ctl     : Nat
  entries : List Nat
  deriving DecidableEq, Repr

/-- The records of a stowage set; none if they are not whole. -/
def stowRecs : Nat → List Nat → Option (List StowRec)
  | _, [] => some []
  | 0, _ => none
  | k + 1, b =>
    let ctl := ofLe (slice b 12 4)
    let n := 16 + 8 * ctlCount ctl
    if b.length < 16 ∨ b.length < n then none
    else
      let r : StowRec := ⟨ofLe (slice b 0 4), ofLe (slice b 4 4), ofLe (slice b 8 4), ctl, (List.range (ctlCount ctl)).map (fun i => ofLe (slice b (16 + 8 * i) 8))⟩
      (stowRecs k (b.drop n)).map (r :: ·)

/-- The first failing record of a stowage set: its index and reason (R165, R167). A PLAN word with bits [31:8] not 0 fails as HEADER: the table of
R165 does not list it (DESIGN CHOICE, log 124). -/
def State.stowRecsFail (s : State) : Nat → List StowRec → Option (Nat × Nat)
  | _, [] => none
  | k, r :: t =>
    if 256 ≤ r.plan then some (k, 1)
    else match s.planCheck r.ctl 0 (r.entries.map some) with
      | some (_, why) => some (k, why)
      | none => s.stowRecsFail (k + 1) t

/-- The records of a CONFIG image: address and value. -/
def cfgRecs (b : List Nat) : List (Nat × Nat) :=
  (List.range (b.length / 8)).map (fun i => (ofLe (slice b (8 * i) 4), ofLe (slice b (8 * i + 4) 4)))

/-- An address that a CONFIG image may not name (R421). -/
def cfgAddrBad (a : Nat) : Bool :=
  a % 4 != 0 || decide (a < 0x40000000) || decide (0x4017FFFF < a) || blockOf a == 2 || (decide (QE_CTL 24 ≤ a) && decide (a < QE_CTL 25))

/-- The index of the first element that satisfies p. -/
def firstIdx {α : Type} (p : α → Bool) (l : List α) : Option Nat := (l.mapIdx (fun i x => (i, p x))).find? (·.2) |>.map (·.1)

/-- The words that a PILOT image places in a set. -/
def pilotSpan (m : List Nat) : List Nat := (List.range (manLen m / 4)).map (fun i => manLoad m + i)
/-- The pilot sets of a PILOT image. -/
def pilotSets (m : List Nat) : List Nat := (List.range 8).filter (fun k => bitOf k (manTarget m))
/-- The engines of a QE_CODE image. -/
def codeEngines (m : List Nat) : List Nat := (List.range 24).filter (fun n => bitOf n (manTarget m))
/-- The bank of a TIDE_BANK image. -/
def imgBank (m : List Nat) : Nat := if manTarget m = 2 then 1 else 0

/-- DETAIL STATE: a target engine runs, the bank is ACTIVE, or a running pilot's window covers a word. -/
def State.imgStateBad (s : State) (m : List Nat) : Bool :=
  match manType m with
  | 1 => (codeEngines m).any (fun n => decide ((s.qeOf n).run ≠ .stopped))
  | 3 => (pilotSets m).any (fun k => (pilotSpan m).any (s.pilotWordLocked k))
  | 4 => s.bankState (imgBank m) == 4
  | _ => false

/-- Enforcement is on: ENFORCE stored in MRAM, and not overridden by the debug port (R423, R456). -/
def State.enforcing (s : State) : Bool := s.nv.enforce && !s.bit DBG_CTL DBG_CTL_ENF_OVR

/-- Installed keys. -/
def State.keyList (s : State) : List (List Nat) := s.nv.keys.filter (fun k => k.any (· != 0))

/-- An image as read and checked: DETAIL (0 where every check holds), SUB, INDEX, its bytes as far as read. -/
structure ImgOut where
  detail : Nat := 0
  sub    : Nat := 0
  index  : Nat := 0
  bytes  : List Nat := []
  deriving DecidableEq, Repr

/-- Who asks for the checks: BERTH_RELOAD with the berth's engines, IMAGE_VERIFY and MRAM_STORE, IMAGE_LOAD, the boot ROM. -/
inductive ImgUse where
  | reload (engines : Nat) | keep | load | boot
  deriving DecidableEq, Repr

/-- The engines of the berth. -/
def ImgUse.within : ImgUse → Option Nat
  | .reload e => some e
  | _ => none

/-- The checks of a whole image, after those of its manifest (R422). -/
def State.imgCheckBody (s : State) (use : ImgUse) (len : Nat) (b : List Nat) : ImgOut :=
  let m := b.take 64
  let body := slice b 64 (manLen m)
  let recs := stowRecs body.length body
  let fail (d sub idx : Nat) : ImgOut := ⟨d, sub, idx, b⟩
  if manType m = 5 ∧ recs = none then fail 7 0 0
  else if len ≠ manWhole m then fail 8 0 0
  else if crc32 (b.take 28 ++ body) ≠ manW m 7 then fail 9 0 0
  else if s.enforcing ∧ !manSigned m then fail 0x0A 0 0
  else if manSigned m ∧ !s.keyList.any (fun k => edVerify k (m ++ body) (slice b (64 + manLen m) 64)) then fail 0x0B 0 0
  else match (if manType m = 5 then s.stowRecsFail 0 (recs.getD []) else none) with
    | some (i, why) => fail 0x0C why i
    | none => match (if manType m = 6 then firstIdx (fun r => cfgAddrBad r.1) (cfgRecs body) else none) with
      | some i => fail 0x0C 0 i
      | none =>
        if use.within.isNone ∧ s.imgStateBad m then fail 0x0D 0 0
        else if (match use with | .reload _ => manType m == 2 | .load => manType m == 2 | .boot => manType m != 2 | .keep => false) then fail 0x0E 0 0
        else fail 0 0 0

/-- Read an image and check it in full (R422): the first failure, or the whole image. -/
def State.imgFetch (s : State) (use : ImgUse) (r : ImgReq) (ext : Option (List Nat)) : State × ImgOut :=
  let s := if r.source = 1 then s.window7 r else if r.source = 2 then s.slotRead r.slot else s
  match s.imgPlace r with
  | none => (s, { detail := 1 })
  | some (a, len) =>
    match s.imgRead r a 0 64 ext with
    | (s, none) => (s, { detail := 1 })
    | (s, some m) =>
      let d := manCheck m len use.within
      if d ≠ 0 then (s, { detail := d, bytes := m })
      else match s.imgRead r a 64 (manWhole m - 64) ext with
        | (s, none) => (s, { detail := 1, bytes := m })
        | (s, some rest) => (s, s.imgCheckBody use len (m ++ rest))

/-! ## Placement (R421) -/

/-- Writes in order, each as the accesses that R13 allows, up to the first that ends with an error; its index. -/
def State.placeAll (s : State) : Nat → List (Nat × List Nat) → State × Option Nat
  | _, [] => (s, none)
  | k, (a, bs) :: t => match s.busWriteAll .hm (accessesOf a (bs.map some)) with
    | (s, none, none) => s.placeAll (k + 1) t
    | (s, _, _) => (s, some k)

/-- Words of a body with the addresses from a on. -/
def wordsAt (a : Nat) (b : List Nat) : List (Nat × List Nat) := (List.range (b.length / 4)).map (fun i => (a + 4 * i, slice b (4 * i) 4))

/-- Body of QE_CODE into one engine, and ENTRY into its QEn_CFG. -/
def State.placeCode (s : State) (m body : List Nat) : List Nat → State × Option Nat
  | [] => (s, none)
  | n :: t =>
    let a := if bitOf 31 (manTarget m) then spBase n + manLoad m else iramBase n + 8 * manLoad m
    match s.placeAll 0 (wordsAt a body) with
    | (s, some k) => (s, some k)
    | (s, none) =>
      let s := if bitOf 31 (manTarget m) then s else (s.regWrite .hm (QE_CFG n) (QE_CFG_ENTRY.put (s.reg (QE_CFG n)) (manEntry m))).1
      s.placeCode m body t

/-- Body of PILOT into each set. -/
def State.placePilot (s : State) (m body : List Nat) : List Nat → State × Option Nat
  | [] => (s, none)
  | k :: t => match s.placeAll 0 (wordsAt (pilotAddr k (manLoad m)) body) with
    | (s, some i) => (s, some i)
    | (s, none) => s.placePilot m body t

/-- Body of TIDE_BANK into its bank, then the length of the cycle and of the list. -/
def State.placeBank (s : State) (m body : List Nat) : State × Option Nat :=
  let b := imgBank m
  match s.placeAll 0 (wordsAt (bankAddr b 0) body) with
  | (s, some i) => (s, some i)
  | (s, none) =>
    (((s.regWrite .hm (TIDE_BANK_CYCLE b) (w32 (manEntry m))).1.regWrite .hm (TIDE_BANK_LEN b) (w32 (manLen m / 16))).1, none)

/-- The lowest range of n entries of the stowage RAM outside every valid plan. -/
def State.stowRoom (s : State) (n : Nat) : Option Nat :=
  let ends := (List.range 256).filterMap (fun p =>
    if s.planValid p then some (s.fld (STOW_PLAN_BASE p) STOW_PLAN_BASE_BASE + ctlCount (s.reg (STOW_PLAN_CTL p)).toNat) else none)
  let free (j : Nat) : Bool := decide (j + n ≤ 32768) && !anyN 256 (fun p => s.planValid p
    && decide (s.fld (STOW_PLAN_BASE p) STOW_PLAN_BASE_BASE < j + n)
    && decide (j < s.fld (STOW_PLAN_BASE p) STOW_PLAN_BASE_BASE + ctlCount (s.reg (STOW_PLAN_CTL p)).toNat))
  (0 :: ends).filter free |>.foldl (fun r j => some (match r with | some k => min k j | none => j)) none

/-- The records of a stowage set are committed one after the other. Where no range of the RAM is left for a record, the command stops there and the
earlier records stay committed: R167 is silent (DESIGN CHOICE, log 124). -/
def State.placeStow (s : State) : Nat → List StowRec → State × Option Nat
  | _, [] => (s, none)
  | k, r :: t => match s.stowRoom r.entries.length with
    | none => (s, some k)
    | some j => match s.placeAll 0 (r.entries.mapIdx (fun i e => (stowEntryAddr (j + i), leBytes 8 e))) with
      | (s, some _) => (s, some k)
      | (s, none) =>
        let s := ((((s.setReg STOW_STAGE_SIG_LO (w32 r.sigLo)).setReg STOW_STAGE_SIG_HI (w32 (r.sigHi))).setReg STOW_STAGE_CTL
          (w32 (r.ctl % 2 ^ 30))).setReg STOW_STAGE_BASE (w32 j))
        let s := commitEnd (s.commitStart (w32 (r.plan % 256)))
        if s.planValid (r.plan % 256) && s.fld (STOW_PLAN_BASE (r.plan % 256)) STOW_PLAN_BASE_BASE == j then s.placeStow (k + 1) t
        else (s, some k)

/-- A register write that the device discards: it sets CFG_REJECT. -/
def State.discards (s : State) (a : Nat) (w : Word) : Bool :=
  ((s.clrB SYS_STATUS SYS_STATUS_CFG_REJECT).regWrite .hm a w).1.bit SYS_STATUS SYS_STATUS_CFG_REJECT

/-- The records of a CONFIG image are written in order, up to the first that is discarded or meets a bus error. -/
def State.placeConfig (s : State) : Nat → List (Nat × Nat) → State × Option Nat
  | _, [] => (s, none)
  | k, (a, v) :: t =>
    let bad := s.discards a (w32 v)
    match s.busWrite .hm a (leBytes 4 v) with
    | (s, .done) => if bad then (s, some k) else s.placeConfig (k + 1) t
    | (s, _) => (s, some k)

/-- Placement of a checked image; the index of the record or word at which it stopped. -/
def State.imgPut (s : State) (b : List Nat) : State × Option Nat :=
  let m := b.take 64
  let body := slice b 64 (manLen m)
  match manType m with
  | 1 => s.placeCode m body (codeEngines m)
  | 3 => s.placePilot m body (pilotSets m)
  | 4 => s.placeBank m body
  | 5 => s.placeStow 0 ((stowRecs body.length body).getD [])
  | 6 => s.placeConfig 0 (cfgRecs body)
  | _ => (s, none)

/-- A stowage set can be placed: no commit or clear runs, and no plan that it names is being copied or about to be (R166). -/
def State.imgPutReady (s : State) (b : List Nat) : Bool :=
  let m := b.take 64
  let body := slice b 64 (manLen m)
  manType m != 5 || (!s.stowBusy && ((stowRecs body.length body).getD []).all (fun r => !s.copyHolds (r.plan % 256)))

/-- Words of the response of an image command: DETAIL, TYPE and SUB; VERSION; INDEX (R417). -/
def imgWords (o : ImgOut) : List Nat :=
  let m := o.bytes.take 64
  [o.detail + 2 ^ 8 * manType m + 2 ^ 16 * o.sub, manVersion m, o.index]

end Sys2Proof.Machine
end

