-- ==== Sys2Proof/Machine/HmCmd.lean ====
section
/-! DEFINITION. The harbourmaster's command set (15, R411 to R427) and what the boot ROM serves of it (17, R480): taking a request, the checks of
R413, each command, its response, long commands, abort. -/
namespace Sys2Proof.Machine

/-! ## Requests and responses (R411 to R413) -/

/-- A request taken from a mailbox: mailbox, code, LENGTH, TAG, FLAGS, payload words, the sender's class. -/
structure Req where
  m     : Nat
  code  : Nat
  len   : Nat
  tag   : Nat
  flags : Nat
  ws    : List Nat
  cls   : Nat
  deriving DecidableEq, Repr

/-- Payload word k, counted from 1. -/
def Req.w (r : Req) (k : Nat) : Nat := r.ws.getD (k - 1) 0

/-- The request that mailbox m holds. -/
def State.reqOf (s : State) (m : Nat) : Req :=
  let h := (s.reg (MB_DATA m 0)).toNat
  let n := bitsOf 23 16 h
  { m := m, code := bitsOf 31 24 h, len := n, tag := bitsOf 15 8 h, flags := bitsOf 7 0 h,
    ws := (List.range (min n 15)).map (fun i => (s.reg (MB_DATA m (i + 1))).toNat), cls := s.fld (MB_STAMP m) MB_STAMP_CLASS }

/-- An answer: STATUS and payload words. -/
abbrev Answer := Nat × List Nat

/-- The STATUS values of R413. -/
def stOK : Nat := 0
/-- BAD_COMMAND -/ def stCOMMAND : Nat := 1
/-- BAD_LENGTH -/ def stLENGTH : Nat := 2
/-- BAD_FLAGS -/ def stFLAGS : Nat := 3
/-- BAD_PARAM -/ def stPARAM : Nat := 4
/-- BUSY -/ def stBUSY : Nat := 5
/-- DENIED -/ def stDENIED : Nat := 6
/-- NOT_FOUND -/ def stNOTFOUND : Nat := 7
/-- IMAGE -/ def stIMAGE : Nat := 8
/-- STATE -/ def stSTATE : Nat := 9
/-- VALIDATION -/ def stVALIDATION : Nat := 10
/-- ABORTED -/ def stABORTED : Nat := 11
/-- LATE -/ def stLATE : Nat := 12
/-- HW_ERROR -/ def stHW : Nat := 13

/-- A register write by the harbourmaster. -/
def State.hmW (s : State) (a v : Nat) : State := (s.regWrite .hm a (w32 v)).1
/-- A register read by the harbourmaster: the state after it and the word. -/
def State.hmR (s : State) (a : Nat) : State × Nat := let (s, _, v) := s.regRead .hm a; (s, v)
/-- Reads in order. -/
def State.hmRs (s : State) : List Nat → State × List Nat
  | [] => (s, [])
  | a :: t => let (s, v) := s.hmR a; let (s, vs) := s.hmRs t; (s, v :: vs)

/-- The response is posted in MB(16 + m) and its doorbell rung unless QUIET (R410, R411). -/
def State.mbPost (s : State) (m code tag flags : Nat) (a : Answer) : State :=
  let h := code * 2 ^ 24 + a.2.length * 2 ^ 16 + tag * 2 ^ 8 + a.1
  let s := ((h :: a.2).mapIdx (fun i v => (i, v))).foldl (fun s p => s.hmW (MB_DATA (16 + m) p.1) p.2) s
  let s := s.hmW (MB_CTL (16 + m)) 1
  if bitOf 0 flags then s else s.hmW MB_DB_OUT_SET (2 ^ m)

/-- The long command taken from mailbox m. -/
def State.longOf (s : State) (m : Nat) : Option LongCmd := s.hm.long.find? (fun l => l.m == m)
/-- Change it. -/
def State.setLong (s : State) (l : LongCmd) : State := s.modHm fun h => { h with long := h.long.map (fun x => if x.m = l.m then l else x) }
/-- A long command ends with its response. -/
def State.endLong (s : State) (l : LongCmd) (a : Answer) : State :=
  (s.modHm fun h => { h with long := h.long.filter (fun x => x.m != l.m) }).mbPost l.m l.code l.tag l.flags a

/-! ## Objects (R415) -/

/-- What a command needs or holds. -/
inductive HmObj where
  | image | berth (b : Nat) | tide | axis (n : Nat) | group (g : Nat)
  deriving DecidableEq, Repr

/-- The objects that a command of this code and payload writes. -/
def State.objsOf (s : State) (code : Nat) (ws : List Nat) : List HmObj :=
  let w := ws.headD 0
  match code with
  | 0x03 => if bitsOf 2 0 w = 2 then [.berth (bitsOf 12 8 w)] else []
  | 0x10 => [.image] | 0x11 => [.image] | 0x12 => [.image]
  | 0x20 => [.berth (bitsOf 4 0 w)] | 0x21 => [.berth (bitsOf 4 0 w)] | 0x22 => [.berth (bitsOf 4 0 w)] | 0x23 => [.berth (bitsOf 4 0 w)]
  | 0x24 => [.image, .berth (bitsOf 4 0 w)]
  | 0x30 => [.tide] | 0x31 => [.tide] | 0x32 => [.tide] | 0x33 => [.tide]
  | 0x60 => [.axis (bitsOf 4 0 w)] | 0x61 => [.axis (bitsOf 4 0 w)]
  | 0x63 => .group (bitsOf 2 0 w) :: (s.grpAxes (bitsOf 2 0 w)).map .axis
  | _ => []

/-- The objects that long commands hold. -/
def State.heldObjs (s : State) : List HmObj := s.hm.long.flatMap (fun l => s.objsOf l.code l.words)

/-! ## Taking a request (R412, R413, R480) -/

/-- Codes of R417. -/
def hmCodes : List Nat :=
  [0x01, 0x02, 0x03, 0x04, 0x05, 0x10, 0x11, 0x12, 0x13, 0x14, 0x20, 0x21, 0x22, 0x23, 0x24, 0x30, 0x31, 0x32, 0x33, 0x40, 0x41, 0x42, 0x43,
   0x50, 0x51, 0x52, 0x60, 0x61, 0x62, 0x63, 0x70, 0x71, 0x72, 0x80, 0x81]
/-- Codes that the boot ROM serves (R480). -/
def romCodes : List Nat := [0x01, 0x02, 0x10]

/-- The standard firmware serves the mailboxes: it has started and rung bit 16, its engine runs, and no reset holds it. -/
def State.firmwareServes (s : State) : Bool :=
  s.hm.run == .firmware && s.hm.loaded && decide ((s.qeOf 24).run = .running) && !s.rst.chip && !s.rst.core
/-- The boot ROM serves the mailboxes: it waits for an image. -/
def State.romServes (s : State) : Bool := s.hm.run == .waitHost && !s.rst.chip && !s.rst.core && s.hm.start.isNone
/-- The codes served. -/
def State.served (s : State) : List Nat := if s.romServes then romCodes else hmCodes

/-- A command taken from mailbox m is in progress: a long one, or an ABORT that waits for its STOP. -/
def State.inProgress (s : State) (m : Nat) : Bool := (s.longOf m).isSome || s.hm.long.any (fun l => l.aborters.any (fun p => p.1 == m))

/-- A request of mailbox m is held back (R412): by a response not yet released, or by a command in progress. -/
def State.heldBack (s : State) (m : Nat) : Bool := (s.mbOf (16 + m)).full || s.inProgress m

/-- A short command is still to be answered: a RESET of scope BERTH that waits for its berth (R418), an ABORT whose STOP is still to act (R416). -/
def State.shortWaits (s : State) : Bool := s.hm.long.any (fun l => l.code == 3 || !l.aborters.isEmpty)

/-- A request can be taken from mailbox m (R412): it is FULL and not held back, and it is the first of the arrival queue, but for those held back,
or already read from it. None is taken before a short command taken before it is answered (R414). -/
def State.takes (s : State) (m : Nat) : Bool :=
  (s.firmwareServes || s.romServes) && (s.mbOf m).full && !s.heldBack m && !s.shortWaits
    && (!s.arrival.contains m || (s.arrival.takeWhile (· != m)).all s.heldBack)

/-- The long commands that run; a RESET that waits for its berth is none (R417). -/
def State.longRuns (s : State) : List LongCmd := s.hm.long.filter (fun l => l.code != 0x03)

/-- The request is copied and its mailbox released. -/
def State.take (s : State) (m : Nat) : State := ({ s with arrival := s.arrival.erase m } : State).hmW (MB_CTL m) 2

/-- What R413 checks of a command, and what it does: the LENGTHs allowed, the first bad payload word, long or not, its action: an
answer at once, or none for a long command that goes on. -/
structure CmdSpec where
  lens  : Req → Bool
  param : Req → Option Nat := fun _ => none
  long  : Bool := false
  run   : State → Req → State × Option Answer

/-- The sender class may not issue the command (R427, R480). -/
def State.deniedTo (s : State) (r : Req) : Bool :=
  if s.romServes then
    r.code == 0x10 && (if 2 ≤ s.bootStrap ∧ s.bootStrap ≤ 4 then r.cls != s.bootStrap - 2 else decide (4 < r.cls))
  else r.code == 0x05 && s.nv.enforce && (r.cls == 9 || r.cls == 10)

/-- The first check of R413 that fails. -/
def State.hmCheck (s : State) (c : CmdSpec) (r : Req) : Option Answer :=
  if !s.served.contains r.code then some (stCOMMAND, [])
  else if 2 ≤ r.flags then some (stFLAGS, [])
  else if !c.lens r || decide (15 < r.len) then some (stLENGTH, [])
  else match c.param r with
    | some k => some (stPARAM, [k])
    | none =>
      if s.deniedTo r then some (stDENIED, [])
      else if (s.objsOf r.code r.ws).any s.heldObjs.contains || (c.long && decide (4 ≤ s.longRuns.length)) then some (stBUSY, [])
      else none

/-- A command of the code given, taken from mailbox m: checked, carried out, answered. A request of a code that is not served is answered
BAD_COMMAND; one of another served code is another command's. -/
def hmCommand (m code : Nat) (c : CmdSpec) (s : State) : State :=
  if !s.takes m then s
  else
    let r := s.reqOf m
    if r.code ≠ code ∧ s.served.contains r.code then s
    else
      let s := s.take m
      match s.hmCheck c r with
      | some a => s.mbPost m r.code r.tag r.flags a
      | none => match c.run s r with
        | (s, some a) => s.mbPost m r.code r.tag r.flags a
        | (s, none) => s

/-- A long command begins. -/
def State.addLong (s : State) (r : Req) (f : LongCmd → LongCmd) : State :=
  s.modHm fun h => { h with long := h.long ++ [f { m := r.m, code := r.code, tag := r.tag, flags := r.flags, words := r.ws, since := s.time.tick }] }

/-- An answer at once. -/
def now (s : State) (a : Answer) : State × Option Answer := (s, some a)

/-- Register writes in order, each with the payload word it comes from: BAD_PARAM with that word's index at the first that the device
discards, HW_ERROR at the first that meets a bus error. -/
def State.cmdWrites (s : State) : List (Nat × Nat × Nat) → State × Option Answer
  | [] => (s, none)
  | (a, v, k) :: t =>
    let bad := s.discards a (w32 v)
    match s.regWrite .hm a (w32 v) with
    | (s, .done) => if bad then (s, some (stPARAM, [k])) else s.cmdWrites t
    | (s, _) => (s, some (stHW, []))

/-- Register writes, then an action if none was refused. -/
def State.writesThen (s : State) (l : List (Nat × Nat × Nat)) (f : State → State × Option Answer) : State × Option Answer :=
  match s.cmdWrites l with
  | (s, some a) => (s, some a)
  | (s, none) => f s

/-- Done, with nothing to say. -/
def okEmpty (s : State) : State × Option Answer := now s (stOK, [])

/-- A write sets a status bit that the firmware looks at afterwards. -/
def State.setsBit (s : State) (a v sa : Nat) (f : Fld) : Bool := ((s.clrB sa f).hmW a v).bit sa f

/-- Word k is below n, or BAD_PARAM names it. -/
def below (k n v : Nat) : Option Nat := if v < n then none else some k

/-! ## Housekeeping commands -/

/-- IDENTIFY 0x01 -/
def cIdentify : CmdSpec where
  lens r := r.len == 0
  run s _ := now s (stOK, [(s.reg SYS_ID).toNat, if s.romServes then 0 else s.hm.version, b2n s.nv.enforce + 16 * s.keyList.length])

/-- ECHO 0x02 -/
def cEcho : CmdSpec where
  lens _ := true
  run s r := now s (stOK, r.ws)

/-- RESET of a berth is answered once it has been made: while an engine of it cannot stop yet, the answer waits (R418). -/
def State.resetBerth (s : State) (r : Req) (b : Nat) : State × Option Answer :=
  let t := berthResetEnd b (s.scopeReset 2 b)
  if t.bit (BERTH_STATE b) BERTH_STATE_RESETTING then (t.addLong r id, none) else okEmpty t

/-- RESET 0x03 (R418): BERTH and PORT are made first, the others wait for the release of the response. -/
def cReset : CmdSpec where
  lens r := r.len == 1
  param r :=
    let sc := bitsOf 2 0 (r.w 1)
    let i := bitsOf 12 8 (r.w 1)
    if 5 ≤ sc ∨ (sc = 2 ∧ 24 ≤ i) ∨ (sc = 4 ∧ 6 ≤ i) then some 1 else none
  run s r :=
    let i := bitsOf 12 8 (r.w 1)
    let post (sc : Scope) : State := s.modHm fun h => { h with resets := h.resets ++ [(sc, r.m, s.time.tick)] }
    match bitsOf 2 0 (r.w 1) with
    | 0 => okEmpty (post .chip)
    | 1 => okEmpty (post .core)
    | 2 => s.resetBerth r i
    | 3 => okEmpty (post .causeway)
    | _ => okEmpty (portResetEnd i (s.scopeReset 4 i))

/-- SECURITY_SET 0x05 (R423) -/
def cSecuritySet : CmdSpec where
  lens r := r.len == (if bitOf 15 (r.w 1) then 9 else 1)
  run s r :=
    let k := bitsOf 9 8 (r.w 1)
    let keys := s.nv.keys ++ List.replicate (4 - s.nv.keys.length) []
    let keys := if bitOf 15 (r.w 1) then keys.set k (((r.ws.drop 1).take 8).flatMap (leBytes 4)) else s.nv.keys
    okEmpty (if s.rst.vinBad then s else { s with nv := { s.nv with enforce := bitOf 0 (r.w 1), keys := keys } })

/-! ## Images (R419 to R423, R485) -/

/-- The image words of a request begin at payload word k + 1. -/
def imgWs (r : Req) (k : Nat) : List Nat := r.ws.drop k

/-- What follows a read and checked image: an answer IMAGE, or the command goes on with the image's bytes. -/
def imgGoOn (r : Req) (words : ImgOut → List Nat) (p : State × ImgOut) : State × Option Answer :=
  if p.2.detail ≠ 0 then now p.1 (stIMAGE, words p.2) else (p.1.addLong r fun l => { l with image := p.2.bytes }, none)

/-- The ROM's IMAGE_LOAD (R480): the image is started after the response. -/
def romLoad (r : Req) (p : State × ImgOut) : State × Option Answer :=
  if p.2.detail ≠ 0 then now (p.1.putF SYS_BOOT SYS_BOOT_ERROR p.2.detail) (stIMAGE, imgWords p.2)
  else
    let q := imgReqOf (imgWs r 0)
    now (p.1.modHm fun h => { h with start := some (p.2.bytes, r.m, p.1.time.tick), slot := if q.source = 2 then some q.slot else none })
      (stOK, imgWords p.2)

/-- IMAGE_LOAD 0x10 -/
def cImageLoad (ext : Option (List Nat)) : CmdSpec where
  lens r := r.len == 4
  param r := imgReqBad (imgWs r 0) 1
  long := true
  run s r :=
    if s.romServes then romLoad r (s.imgFetch .boot (imgReqOf (imgWs r 0)) ext)
    else imgGoOn r imgWords (s.imgFetch .load (imgReqOf (imgWs r 0)) ext)

/-- IMAGE_VERIFY 0x11 -/
def cImageVerify (ext : Option (List Nat)) : CmdSpec where
  lens r := r.len == 4
  param r := imgReqBad (imgWs r 0) 1
  long := true
  run s r := imgGoOn r imgWords (s.imgFetch .keep (imgReqOf (imgWs r 0)) ext)

/-- MRAM_STORE 0x12 -/
def cMramStore (ext : Option (List Nat)) : CmdSpec where
  lens r := r.len == 4
  param r := if (imgReqOf (imgWs r 0)).source = 2 then some 1 else imgReqBad (imgWs r 0) 1
  long := true
  run s r := imgGoOn r imgWords (s.imgFetch .keep (imgReqOf (imgWs r 0)) ext)

/-- MRAM_ERASE 0x13 -/
def cMramErase : CmdSpec where
  lens r := r.len == 1
  run s r :=
    let s := s.slotRead (bitsOf 5 0 (r.w 1))
    match s.slotValid (bitsOf 5 0 (r.w 1)) with
    | some a => okEmpty (s.slotErase (bitsOf 5 0 (r.w 1)) a)
    | none => now s (stNOTFOUND, [])

/-- MRAM_LIST 0x14 -/
def cMramList : CmdSpec where
  lens r := r.len == 1
  run s r :=
    let s := s.slotRead (bitsOf 5 0 (r.w 1))
    match s.slotValid (bitsOf 5 0 (r.w 1)) with
    | some a =>
      let m := s.rdBytes a 64
      now s (stOK, [2 ^ 8 * manType m, manVersion m, manTarget m, s.slotWord a 17])
    | none => now s (stNOTFOUND, [])

/-! ## Berths (R424 to R426) -/

/-- The berth of a request, and BAD_PARAM for one that does not exist. -/
def berthArg (r : Req) : Nat := bitsOf 4 0 (r.w 1)
/-- BAD_PARAM of a berth number. -/
def berthParam (r : Req) : Option Nat := below 1 24 (berthArg r)

/-- Why a berth's configuration is discarded (R424): a broken range, an engine that is not STOPPED, a resource of another berth. -/
def State.berthWhy (s : State) (b k : Nat) (range : Bool) (cfg res fq : Nat) : Answer :=
  if range then (stPARAM, [k])
  else if anyN 24 (fun c => s.berthClash b c cfg res fq) then (stBUSY, [])
  else (stSTATE, [])

/-- Write one configuration word of a berth. -/
def State.berthPut (s : State) (b a v k : Nat) (range : Bool) (f : State → State × Option Answer) : State × Option Answer :=
  if s.discards a (w32 v) then
    let pick (r : Nat) : Nat := if a = r then v else (s.reg r).toNat
    now (s.hmW a v) (s.berthWhy b k range (pick (BERTH_CFG b) % 2 ^ 24) (pick (BERTH_RES b)) (pick (BERTH_FQ b)))
  else f (s.hmW a v)

/-- BERTH_CREATE 0x20 -/
def cBerthCreate : CmdSpec where
  lens r := r.len == 3
  param := berthParam
  run s r :=
    let b := berthArg r
    let fq := w32 (r.w 3)
    s.berthPut b (BERTH_CFG b) (r.w 2) 2 (decide (8 < popCount 24 (r.w 2))) fun s =>
      s.berthPut b (BERTH_FQ b) (r.w 3) 3
        (decide (64 < BERTH_FQ_FQ_COUNT.get fq) || decide (512 < BERTH_FQ_FQ_BASE.get fq + BERTH_FQ_FQ_COUNT.get fq)) okEmpty

/-- BERTH_ASSIGN 0x21 -/
def cBerthAssign : CmdSpec where
  lens r := r.len == 2
  param := berthParam
  run s r := s.berthPut (berthArg r) (BERTH_RES (berthArg r)) (r.w 2) 2 (berthResReserved (w32 (r.w 2))) okEmpty

/-- START of a berth; STATE where it is refused (R199, R424). -/
def State.berthGo (s : State) (b : Nat) (words : List Nat) : State × Option Answer :=
  let ok := (s.berthEngines b).all (fun n => decide ((s.qeOf n).run = .stopped))
  now (s.hmW (BERTH_CTL b) 1) (if ok then stOK else stSTATE, words)

/-- BERTH_START 0x22 -/
def cBerthStart : CmdSpec where
  lens r := r.len == 1
  param := berthParam
  run s r := s.berthGo (berthArg r) []

/-- The berth reads STOPPED: no engine of it is in another state. -/
def State.berthStopped (s : State) (b : Nat) : Bool := decide (s.berthState b ≤ 1) && !s.bit (BERTH_STATE b) BERTH_STATE_RESETTING

/-- Stages of a stop: 0 not begun (BERTH_RELOAD has read and checked its image), 1 the grace period, 2 the reset. NOTIFY begins it; a
GRACE of 0 resets at once (R425). -/
def State.stopBegin (s : State) (l : LongCmd) : State :=
  let b := bitsOf 4 0 (l.words.headD 0)
  let s := s.hmW (BERTH_CTL b) 8
  if bitsOf 31 16 (l.words.headD 0) = 0 then
    (s.hmW (BERTH_CTL b) 4).setLong { l with stage := 2, since := s.time.tick, resetUsed := true }
  else s.setLong { l with stage := 1, since := s.time.tick }

/-- BERTH_STOP 0x23 -/
def cBerthStop : CmdSpec where
  lens r := r.len == 1
  param := berthParam
  long := true
  run s r :=
    let s := s.addLong r id
    match s.longOf r.m with
    | some l => (s.stopBegin l, none)
    | none => (s, none)

/-- A berth not stopped within GRACE is reset (R425). -/
def graceExpiry (m : Nat) (s : State) : State :=
  match s.longOf m with
  | some l =>
    let w := l.words.headD 0
    if (l.code = 0x23 ∨ l.code = 0x24) ∧ l.stage = 1 ∧ s.firmwareServes ∧ !s.berthStopped (bitsOf 4 0 w)
        ∧ l.since + 250 * bitsOf 31 16 w ≤ s.time.tick then
      (s.hmW (BERTH_CTL (bitsOf 4 0 w)) 4).setLong { l with stage := 2, resetUsed := true }
    else s
  | none => s

/-- Words of BERTH_RELOAD's response: RESET_USED and DETAIL, VERSION. -/
def reloadWords (used : Bool) (o : ImgOut) : List Nat := [b2n used + 2 ^ 8 * o.detail, manVersion (o.bytes.take 64)]

/-- BERTH_RELOAD 0x24 -/
def cBerthReload (ext : Option (List Nat)) : CmdSpec where
  lens r := r.len == 5
  param r := match berthParam r with
    | some k => some k
    | none => imgReqBad (imgWs r 1) 2
  long := true
  run s r := imgGoOn r (reloadWords false)
    (s.imgFetch (.reload (s.fld (BERTH_CFG (berthArg r)) BERTH_CFG_ENGINES)) (imgReqOf (imgWs r 1)) ext)

/-! ## Tide (R417) -/

/-- TIDE_VALIDATE 0x30: for the ACTIVE bank, whose validation the device ignores, STATE. -/
def cTideValidate : CmdSpec where
  lens r := r.len == 1
  long := true
  run s r :=
    let b := bitsOf 0 0 (r.w 1)
    let held := s.bankHeld b
    let s := s.hmW TIDE_CMD (2 ^ b)
    if held then let (s, v) := s.hmR (TIDE_BANK_FAIL b); now s (stSTATE, [v]) else (s.addLong r id, none)

/-- TIDE_SWAP 0x31: INDEX keeps the bank that was active. -/
def cTideSwap : CmdSpec where
  lens r := r.len == 2
  long := true
  run s r := s.writesThen [(TIDE_SWAP_AT_NS, r.w 1, 1), (TIDE_SWAP_AT_SEC, r.w 2, 2)] fun s =>
    let b := s.activeBank
    ((s.hmW TIDE_CMD 16).addLong r fun l => { l with index := b }, none)

/-- TIDE_START 0x32; a refused start answers STATE. -/
def cTideStart : CmdSpec where
  lens r := r.len == 3
  run s r := s.writesThen [(TIDE_BASE_NS, r.w 2, 2), (TIDE_BASE_SEC, r.w 3, 3)] fun s =>
    let v := 1 + 2 * bitsOf 0 0 (r.w 1)
    let refused := s.setsBit TIDE_CTL v TIDE_STATUS TIDE_STATUS_START_REFUSED
    s.writesThen [(TIDE_CTL, v, 1)] fun s => now s (if refused then stSTATE else stOK, [])

/-- TIDE_STOP 0x33 -/
def cTideStop : CmdSpec where
  lens r := r.len == 0
  run s _ := okEmpty (s.hmW TIDE_CTL (2 * s.fld TIDE_CTL TIDE_CTL_START_BANK))

/-! ## Ports and streams -/

/-- PORT_SET 0x40: MODE passes through OFF where it changes between two others (R129). -/
def cPortSet : CmdSpec where
  lens r := r.len == 6
  param r := below 1 6 (bitsOf 2 0 (r.w 1))
  run s r :=
    let n := bitsOf 2 0 (r.w 1)
    let ctl := w32 (r.w 2)
    let old := s.fld (PORT_CTL n) PORT_CTL_MODE
    let v := (PORT_CTL_RESTART_AN.put ctl 1).toNat
    let off := if old ≠ PORT_CTL_MODE.get ctl ∧ old ≠ 0 ∧ PORT_CTL_MODE.get ctl ≠ 0 then
      [(PORT_CTL n, (PORT_CTL_MODE.put (s.reg (PORT_CTL n)) 0).toNat, 2)] else []
    s.writesThen ([(PORT_AN_ADV n, r.w 3, 3), (PORT_FC_CTL n, r.w 4, 4), (PORT_EEE_CTL n, r.w 5, 5), (PORT_MM_CTL n, r.w 6, 6)] ++ off ++
      [(PORT_CTL n, v, 2)]) okEmpty

/-- PORT_STATUS 0x41 -/
def cPortStatus : CmdSpec where
  lens r := r.len == 1
  param r := below 1 6 (bitsOf 2 0 (r.w 1))
  run s r :=
    let n := bitsOf 2 0 (r.w 1)
    let (s, l) := s.hmRs [PORT_LINK n, PORT_STATUS n, PORT_MM_STATUS n]
    now s (stOK, l)

/-- A stream operation ends: BUSY clears (R126). -/
def streamOperationEnd (s : State) : State := s.clrB STREAM_CMD STREAM_CMD_BUSY

/-- STREAM_SET 0x42: the window is written, then WRITE; BUSY is awaited before and after. -/
def cStreamSet : CmdSpec where
  lens r := r.len == 9
  run s r :=
    let ctx := bitsOf 9 0 (r.w 1)
    (streamOperationEnd s).writesThen ((STREAM_SEL, ctx, 1) :: strWinRegs.mapIdx (fun i a => (a, r.w (i + 2), i + 2))) fun s =>
      okEmpty (streamOperationEnd (s.hmW STREAM_CMD 2))

/-- STREAM_GET 0x43 -/
def cStreamGet : CmdSpec where
  lens r := r.len == 1
  run s r :=
    let s := (streamOperationEnd s).hmW STREAM_SEL (bitsOf 9 0 (r.w 1))
    let (s, l) := (streamOperationEnd (s.hmW STREAM_CMD 1)).hmRs strCntRegs
    now s (stOK, l)

/-! ## Time -/

/-- TIME_GET 0x50 -/
def cTimeGet : CmdSpec where
  lens r := r.len == 0
  run s _ :=
    let (s, l) := s.hmRs [TIME_NOW_FRAC, TIME_NOW_NS, TIME_NOW_SEC_LO, TIME_NOW_SEC_HI, TIME_CTL, TIME_INC_LO, TIME_INC_HI]
    now s (stOK, [l.getD 1 0, l.getD 2 0, l.getD 3 0 % 2 ^ 16 + 2 ^ 16 * (l.getD 4 0 % 4), l.getD 5 0, l.getD 6 0])

/-- The tick of application of the command written comes (R34). -/
def State.timeApplied (s : State) : State := kickApply (incApply (setApply (stepApply s)))

/-- TIME_CORRECT 0x51 -/
def cTimeCorrect : CmdSpec where
  lens r := r.len == 9
  run s r := s.writesThen [(TIME_STEP_LO, r.w 2, 2), (TIME_STEP_HI, r.w 3, 3), (TIME_INC_LO, r.w 4, 4), (TIME_INC_HI, r.w 5, 5),
      (TIME_SET_FRAC, r.w 6, 6), (TIME_SET_NS, r.w 7, 7), (TIME_SET_SEC_LO, r.w 8, 8), (TIME_SET_SEC_HI, r.w 9, 9)] fun s =>
    s.writesThen [(TIME_CMD, r.w 1, 1)] fun s =>
      let refused := (s.clrB TIME_STATUS TIME_STATUS_JUMP_REFUSED).timeApplied.bit TIME_STATUS TIME_STATUS_JUMP_REFUSED
      let (s, v) := s.timeApplied.hmR TIME_STATUS
      now s (if refused then stSTATE else stOK, [v])

/-- TIME_STATE 0x52 -/
def cTimeState : CmdSpec where
  lens r := r.len == 2
  run s r := s.writesThen [(TIME_CTL, r.w 1, 1), (TIME_WDOG, r.w 2, 2)] okEmpty

/-! ## Axes and groups -/

/-- AXn_STATUS and AXn_STATE. -/
def State.axWords (s : State) (n : Nat) : State × List Nat := s.hmRs [AX_STATUS n, AX_STATE n]
/-- GRPg_STATUS and GRPg_STATE. -/
def State.grpWords (s : State) (g : Nat) : State × List Nat := s.hmRs [GRP_STATUS g, GRP_STATE g]

/-- A command bit is written to an axis, where it acts at the next profile tick (R295); the command goes on. -/
def State.axGo (s : State) (r : Req) (v : Nat) : State × Option Answer :=
  ((s.hmW (AX_CMD (bitsOf 4 0 (r.w 1))) v).addLong r id, none)

/-- AXIS_MOVE 0x60 -/
def cAxisMove : CmdSpec where
  lens r := r.len == 6
  long := true
  run s r :=
    let n := bitsOf 4 0 (r.w 1)
    s.writesThen [(AX_TARGET_LO n, r.w 2, 2), (AX_TARGET_HI n, r.w 3, 3), (AX_VMAX n, r.w 4, 4), (AX_ACC n, r.w 5, 5), (AX_DEC n, r.w 6, 6)]
      fun s => s.axGo r 1

/-- AXIS_HOME 0x61 -/
def cAxisHome : CmdSpec where
  lens r := r.len == 1
  long := true
  run s r := s.axGo r 8

/-- AXIS_STOP 0x62: always accepted. -/
def cAxisStop : CmdSpec where
  lens r := r.len == 1
  run s r := okEmpty (s.hmW (AX_CMD (bitsOf 4 0 (r.w 1))) (if bitOf 8 (r.w 1) then 4 else 2))

/-- GROUP_MOVE 0x63 -/
def cGroupMove : CmdSpec where
  lens r := r.len == 1
  long := true
  run s r :=
    ((s.hmW (GRP_CMD (bitsOf 2 0 (r.w 1))) 1).addLong r id, none)

/-! ## Logbook and test -/

/-- LOG_FREEZE 0x70 -/
def cLogFreeze : CmdSpec where
  lens r := r.len == 0
  run s _ := okEmpty (s.hmW LOG_CTL 1)

/-- LOG_THAW 0x72 -/
def cLogThaw : CmdSpec where
  lens r := r.len == 0
  run s _ := okEmpty (s.hmW LOG_CTL 0)

/-- Logbook codes in use: those of R432 and the firmware's. -/
def logCodeUsed (c : Nat) : Bool :=
  [0x01, 0x02, 0x03, 0x04, 0x05, 0x06, 0x08, 0x09, 0x0A, 0x10, 0x11, 0x12, 0x21, 0x22, 0x30, 0x40, 0x41, 0x42, 0x43, 0x50, 0x60].contains c
    || decide (0x80 ≤ c)

/-- LOG_READ 0x71 -/
def cLogRead : CmdSpec where
  lens r := r.len == 1
  param r := below 1 28 (bitsOf 15 8 (r.w 1))
  run s r :=
    let c := bitsOf 7 0 (r.w 1)
    let off := bitsOf 15 8 (r.w 1)
    if !logCodeUsed c then now s (stNOTFOUND, [])
    else
      let s := logOperationEnd ((s.hmW LOG_SEL c).hmW LOG_CMD 1)
      let (s, l) := s.hmRs ((List.range (min 15 (28 - off))).map (fun i => LOG_REC (off + i)))
      now s (stOK, l)

/-- The link of a test command. -/
def linkParam (r : Req) : Option Nat := if linkExists (r.w 1) then none else some 1

/-- TEST_PATTERN 0x80 -/
def cTestPattern : CmdSpec where
  lens r := r.len == 2
  param := linkParam
  run s r := s.writesThen [(TEST_LINK_CTL (r.w 1), r.w 2, 2)] okEmpty

/-- TEST_RESULT 0x81 -/
def cTestResult : CmdSpec where
  lens r := r.len == 1
  param := linkParam
  run s r :=
    let (s, l) := s.hmRs [TEST_LINK_STATE (r.w 1), TEST_LINK_ERR (r.w 1), TEST_LINK_BITS (r.w 1)]
    now s (stOK, l)

/-! ## The end of a long command (R414, R417) -/

/-- What a placement came to: OK, or HW_ERROR with INDEX naming the record or word. -/
def placed (o : ImgOut) : Option Nat → Answer
  | none => (stOK, imgWords o)
  | some k => (stHW, imgWords { o with index := k })

/-- An image command ends: placement, nothing, or the MRAM write. -/
def State.imageEnds (s : State) (l : LongCmd) : State × Option Answer :=
  let o : ImgOut := { bytes := l.image }
  if l.code = 0x11 then now s (stOK, imgWords o)
  else if l.code = 0x12 then
    let (s, st) := s.slotStore (imgReqOf l.words).slot l.image
    now s (st, imgWords o)
  else if !s.imgPutReady l.image then (s, none)
  else let (s, r) := s.imgPut l.image; now s (placed o r)

/-- BERTH_RELOAD goes on (R426): the stop begins, or the stopped berth's code is placed and the berth started. -/
def State.reloadEnds (s : State) (l : LongCmd) : State × Option Answer :=
  let b := bitsOf 4 0 (l.words.headD 0)
  let o : ImgOut := { bytes := l.image }
  if l.stage = 0 then (s.stopBegin l, none)
  else if !s.berthStopped b then (s, none)
  else match s.imgPut l.image with
    | (s, some _) => now s (stHW, reloadWords l.resetUsed o)
    | (s, none) => s.berthGo b (reloadWords l.resetUsed o)

/-- A command of AXn_CMD with one of these bits still waits for its tick. -/
def State.axWaits (s : State) (n : Nat) (bits : Nat) : Bool :=
  (s.axOf n).acts.any fun a => match a with | .cmd w => w.toNat &&& bits != 0 | .load _ => false
/-- A command of GRPg_CMD with one of these bits still waits for its tick. -/
def State.grpWaits (s : State) (g : Nat) (bits : Nat) : Bool := (s.grpOf g).acts.any fun w => w.toNat &&& bits != 0

/-- A move or homing ends at IDLE; in FAULT it has ended too; one whose START or HOME was refused answers STATE (R417). -/
def State.axEnds (s : State) (l : LongCmd) : State × Option Answer :=
  let n := bitsOf 4 0 (l.words.headD 0)
  let x := s.axOf n
  if s.axWaits n (if l.code = 0x61 then 8 else 1) then (s, none)
  else if x.refused ∨ x.st = .idle ∨ x.st = .fault then
    let bad := x.refused || x.st == .fault || (l.code == 0x61 && !x.homed)
    let (s, ws) := s.axWords n
    now s (if bad then stSTATE else stOK, ws)
  else (s, none)

/-- What a long command's end comes to: an answer, or none while it is not at its end. -/
def State.longEnds (s : State) (l : LongCmd) : State × Option Answer :=
  let w := l.words.headD 0
  match l.code with
  | 0x03 => if s.bit (BERTH_STATE (bitsOf 12 8 w)) BERTH_STATE_RESETTING then (s, none) else okEmpty s
  | 0x10 => s.imageEnds l | 0x11 => s.imageEnds l | 0x12 => s.imageEnds l
  | 0x23 => if s.berthStopped (bitsOf 4 0 w) then now s (stOK, [b2n l.resetUsed]) else (s, none)
  | 0x24 => s.reloadEnds l
  | 0x30 =>
    let b := bitsOf 0 0 w
    if s.bankState b = 1 then (s, none)
    else
      let st := if s.bankState b = 3 then stVALIDATION else if s.bankState b = 0 then stSTATE else stOK
      let (s, v) := s.hmR (TIDE_BANK_FAIL b)
      now s (st, [v])
  | 0x31 =>
    if s.swapArmed ∨ s.tide.commit then (s, none)
    else
      let st := if s.activeBank = l.index then stSTATE else stOK
      let (s, v) := s.hmR TIDE_BASE_CNT
      now s (st, [v])
  | 0x60 => s.axEnds l | 0x61 => s.axEnds l
  | 0x63 =>
    let g := bitsOf 2 0 w
    let x := s.grpOf g
    if s.grpWaits g 1 then (s, none)
    else if x.refused ∨ x.st = .idle ∨ x.st = .fault then
      let (s, ws) := s.grpWords g
      now s (if x.refused ∨ x.st = .fault then stSTATE else stOK, ws)
    else (s, none)
  | _ => (s, none)

/-! ## ABORT (R416) -/

/-- Words of an aborted command's own response. -/
def State.abortWords (s : State) (l : LongCmd) : State × List Nat :=
  let w := l.words.headD 0
  match l.code with
  | 0x23 => (s, [b2n l.resetUsed])
  | 0x24 => (s, reloadWords l.resetUsed { bytes := l.image })
  | 0x31 => let (s, v) := s.hmR TIDE_BASE_CNT; (s, [v])
  | 0x60 => s.axWords (bitsOf 4 0 w)
  | 0x61 => s.axWords (bitsOf 4 0 w)
  | 0x63 => s.grpWords (bitsOf 2 0 w)
  | _ => (s, imgWords { bytes := l.image })

/-- The aborted command ends with ABORTED, and ABORT answers OK. -/
def State.aborted (s : State) (l : LongCmd) : State × Option Answer :=
  let (s, ws) := s.abortWords l
  now (s.endLong l (stABORTED, ws)) (stOK, [])

/-- A stop that came too late: the command answers OK, ABORT answers LATE. -/
def State.tooLate (s : State) (l : LongCmd) : State × Option Answer :=
  let (s, ws) := s.abortWords l
  now (s.endLong l (stOK, ws)) (stLATE, [])

/-- A STOP is written for an abort. It acts at the next profile tick (R295), and ABORT waits for that. -/
def State.abortStop (s : State) (l : LongCmd) (r : Req) (a : Nat) : State × Option Answer :=
  ((if l.aborters.isEmpty then s.hmW a 2 else s).setLong { l with aborters := l.aborters ++ [(r.m, r.tag, r.flags)] }, none)

/-- The STOP of an abort still waits for its tick; else whether it came too late. -/
def State.stopCame (s : State) (l : LongCmd) : Option Bool :=
  let w := l.words.headD 0
  if l.code = 0x63 then (if s.grpWaits (bitsOf 2 0 w) 2 then none else some (s.grpOf (bitsOf 2 0 w)).late)
  else if s.axWaits (bitsOf 4 0 w) 2 then none else some (s.axOf (bitsOf 4 0 w)).late

/-- The START or HOME of a command was refused: it has ended by itself. -/
def State.startRefused (s : State) (l : LongCmd) : Bool :=
  let w := l.words.headD 0
  if l.code = 0x63 then (s.grpOf (bitsOf 2 0 w)).refused else (s.axOf (bitsOf 4 0 w)).refused

/-- A command ends by itself under an ABORT, which answers LATE. -/
def State.endsFirst (s : State) (l : LongCmd) : State × Option Answer :=
  match s.longEnds l with
  | (s, some a) => now (s.endLong l a) (stLATE, [])
  | (s, none) => (s, none)

/-- The STOP of an abort has acted: the command ends, and every ABORT of it is answered (R26, R416). -/
def State.abortEnds (s : State) (l : LongCmd) : State :=
  match s.stopCame l with
  | none => s
  | some late => match if s.startRefused l then s.endsFirst l else if late then s.tooLate l else s.aborted l with
    | (s, some a) => l.aborters.foldl (fun s p => s.mbPost p.1 0x04 p.2.1 p.2.2 a) s
    | (s, none) => s

/-- A long command ends and its response is posted; nothing while it is not at its end. -/
def longCommandEnd (m : Nat) (s : State) : State :=
  if !s.firmwareServes then s
  else match s.longOf m with
    | none => s
    | some l =>
      if !l.aborters.isEmpty then s.abortEnds l
      else match s.longEnds l with
        | (s, some a) => s.endLong l a
        | (s, none) => s

/-- A command that starts axis n waits, or the axis moves. -/
def State.axRuns (s : State) (n : Nat) : Bool := s.axWaits n 9 || ((s.axOf n).st != .idle && (s.axOf n).st != .fault)
/-- A command that starts group g waits, or the group moves. -/
def State.grpRuns (s : State) (g : Nat) : Bool := s.grpWaits g 1 || ((s.grpOf g).st != .idle && (s.grpOf g).st != .fault)

/-- ABORT of a long command; a BERTH_STOP whose berth already reads STOPPED has completed, and a swap that DISARM_LATE tells of, or that is no longer armed, stands (R88). -/
def State.abortOf (s : State) (l : LongCmd) (r : Req) : State × Option Answer :=
  let w := l.words.headD 0
  let late : State × Option Answer := now s (stLATE, [])
  match l.code with
  | 0x23 => if l.stage ≠ 1 then late else if s.berthStopped (bitsOf 4 0 w) then s.tooLate l else s.aborted l
  | 0x24 => if l.stage = 0 then s.aborted l else late
  | 0x30 => late
  | 0x31 =>
    if s.swapArmed ∧ !s.setsBit TIDE_CMD 32 TIDE_STATUS TIDE_STATUS_DISARM_LATE then (s.hmW TIDE_CMD 32).aborted l
    else now (s.hmW TIDE_CMD 32) (stLATE, [])
  | 0x60 => if s.axRuns (bitsOf 4 0 w) then s.abortStop l r (AX_CMD (bitsOf 4 0 w)) else late
  | 0x61 => if s.axRuns (bitsOf 4 0 w) then s.abortStop l r (AX_CMD (bitsOf 4 0 w)) else late
  | 0x63 => if s.grpRuns (bitsOf 2 0 w) then s.abortStop l r (GRP_CMD (bitsOf 2 0 w)) else late
  | _ => s.aborted l

/-- ABORT 0x04 -/
def cAbort : CmdSpec where
  lens r := r.len == 1
  run s r := match (s.longOf (bitsOf 3 0 (r.w 1))).filter (fun l => l.code != 0x03) with
    | none => now s (stNOTFOUND, [])
    | some l => s.abortOf l r

/-! ## A posted reset begins (R418) -/

/-- 1 ms in TSCLK ticks. -/
def msTicks : Nat := 250000

/-- A posted CHIP, CORE or CAUSEWAY reset begins at the release of its response, or 1 ms after it. -/
def resetBegin (m : Nat) (s : State) : State :=
  match s.hm.resets.find? (fun r => r.2.1 == m) with
  | none => s
  | some r =>
    if s.rst.chip ∨ s.rst.core ∨ ((s.mbOf (16 + m)).full ∧ s.time.tick < r.2.2 + msTicks) then s
    else (s.modHm fun h => { h with resets := h.resets.filter (fun x => x.2.1 != m) }).scopeReset
      (match r.1 with | .chip => 0 | .core => 1 | .causeway => 3) 0

end Sys2Proof.Machine
end

