-- ==== Sys2Proof/Machine/Boot.lean ====
section
/-! DEFINITION. The boot ROM and the start of the standard firmware (17, R477 to R481), the muster and its download (R486 to R491). -/
namespace Sys2Proof.Machine

/-! ## The harbourmaster's image (R479) -/

/-- A checked HM_FW image is placed in HM IRAM from index 0, ENTRY goes to QEn_CFG, and it starts. -/
def State.bootStart (s : State) (b : List Nat) : State :=
  let m := b.take 64
  let s := s.store (iramBase 24) (slice b 64 (manLen m))
  let s := (s.setReg HM_CFG (HM_CFG_ENTRY.put (s.reg HM_CFG) (manEntry m))).qeStart 24
  (s.hmStage .firmware stFIRMWARE).modHm fun h => { h with version := manVersion m, start := none }

/-- The length of the image at a, as its manifest gives it. -/
def State.imgSpan (s : State) (a : Nat) : State × Nat :=
  match s.hmRead a 64 with
  | (s, some m) => (s, 64 + manLen m + 64 * b2n (manSigned m))
  | (s, none) => (s, 0)

/-- The firmware comes upon process image memory: an access that waits while another initiator's lock holds it (R387). -/
def State.fwTouch (s : State) : State := if s.lockedOut .hm 0x10000000 then s.addWait .hm 0x10000000 false else s

/-- Where BOOT says that the firmware lies: two places for MRAM and FLASH. -/
def State.bootPlaces (s : State) : List ImgReq :=
  if s.bootStrap = 0 ∨ s.bootStrap = 6 then [⟨2, 0, 0, 0, 0⟩, ⟨2, 1, 0, 0, 0⟩]
  else if s.bootStrap = 1 then [⟨3, 0, 0, 0, (s.imgSpan 0x60000000).2⟩, ⟨3, 1, 0x100000, 0, (s.imgSpan 0x60100000).2⟩]
  else []

/-- The places are tried in order; FALLBACK is set when the second is tried, ERROR holds the DETAIL of the last failure. -/
def State.bootTry (s : State) (second : Bool) : List ImgReq → State
  | [] => if s.bootStrap = 6 then s.musterEnter else s.romWait
  | r :: t =>
    let s := s.setIf second SYS_STATUS SYS_STATUS_FALLBACK
    match s.imgFetch .boot r none with
    | (s, o) =>
      if o.detail = 0 then (s.putF SYS_BOOT SYS_BOOT_SLOT r.slot).bootStart o.bytes
      else (s.putF SYS_BOOT SYS_BOOT_ERROR o.detail).bootTry true t

/-- The first image of a downloaded stream is checked and started; a failure waits for a new session (R477, R491). -/
def State.bootStream (s : State) (len : Nat) : State :=
  let (s, span) := s.imgSpan 0x10000000
  let r := s.imgFetch .boot ⟨0, 0, 0x10000000, 0, span⟩ none
  if r.2.detail = 0 then (r.1.bootStart r.2.bytes).modHm fun h => { h with muster := { h.muster with rest := [span, len] } }
  else ((r.1.hmStage .muster stFAILED).putF SYS_BOOT SYS_BOOT_ERROR r.2.detail).modHm fun h =>
    { h with start := none, muster := { h.muster with failed := true } }

/-- The boot ROM checks and places an image and starts it: from the place that BOOT names, one that a host has loaded (at the release of its
response, or 1 ms after it), or the first of a downloaded stream. A harbourmaster held before its first instruction and resumed begins so too. -/
def bootImageStart (s : State) : State :=
  match s.hm.run with
  | .rom => (s.hmStage .rom stLOADING).bootTry false s.bootPlaces
  | .waitHost => match s.hm.start with
    | some (b, m, t) =>
      if (s.mbOf (16 + m)).full ∧ s.time.tick < t + msTicks then s
      else (match s.hm.slot with | some i => s.putF SYS_BOOT SYS_BOOT_SLOT i | none => s).bootStart b
    | none => s
  | .muster => match s.hm.start with
    | some (_, _, len) => s.bootStream len
    | none => s
  | .held =>
    if s.bootStrap = 7 ∨ (s.qeOf 24).run ≠ .running then s
    else
      let s := s.setQe 24 {}
      if s.bootStrap = 5 then s.musterEnter
      else if 2 ≤ s.bootStrap ∧ s.bootStrap ≤ 4 then s.romWait
      else (s.hmStage .rom stLOADING).bootTry false s.bootPlaces
  | _ => s

/-! ## The standard firmware's start (R481) -/

/-- How far the start gets with an image or with all of them: done, stopped with a value, or it waits for a plan to be free (R166). -/
inductive LoadEnd where
  | done | failed (v : Nat) | waits
  deriving DecidableEq, Repr

/-- Apply one image as IMAGE_LOAD would; its DETAIL if it fails. A placement that stops part way has none and counts as 0. -/
def State.applyImage (s : State) (r : ImgReq) : State × LoadEnd :=
  match s.imgFetch .load r none with
  | (t, o) =>
    if o.detail ≠ 0 then (t, .failed o.detail)
    else if !t.imgPutReady o.bytes then (s, .waits)
    else match t.imgPut o.bytes with
      | (t, some _) => (t, .failed 0)
      | (t, none) => (t, .done)

/-- The image of slot i, if it is VALID and no firmware, is applied; a failure is slot × 256 + DETAIL. -/
def State.applySlot (s : State) (i : Nat) : State × LoadEnd :=
  let s := s.slotRead i
  match s.slotValid i with
  | none => (s, .done)
  | some a =>
    if manType (s.rdBytes a 64) = 2 then (s, .done)
    else match s.applyImage ⟨2, i, 0, 0, 0⟩ with
      | (s, .failed d) => (s, .failed (i * 256 + d))
      | (s, .waits) => (s.modHm fun h => { h with next := i }, .waits)
      | (s, .done) => (s, .done)

/-- The slots in order, up to the first that fails or waits. -/
def State.applySlots (s : State) : List Nat → State × LoadEnd
  | [] => (s, .done)
  | i :: t => match s.applySlot i with
    | (s, .done) => s.applySlots t
    | r => r

/-- The remaining images of a stream, in order, up to the first failure, as 0xFF00 + DETAIL. -/
def State.applyStream (s : State) (len : Nat) : Nat → Nat → State × LoadEnd
  | 0, _ => (s, .done)
  | k + 1, off =>
    if len ≤ off then (s, .done)
    else
      let (s, n) := s.imgSpan (0x10000000 + off)
      match s.applyImage ⟨0, 0, 0x10000000 + off, 0, n⟩ with
      | (s, .failed d) => (s, .failed (0xFF00 + d))
      | (s, .waits) => (s.modHm fun h => { h with next := 32, muster := { h.muster with rest := [off, len] } }, .waits)
      | (s, .done) => s.applyStream len k (off + n)

/-- Started firmware applies the slots and then the rest of the stream, stops at the first failure with code 0x80, and rings bit 16. A stowage
set waits as IMAGE_LOAD would (R166), and the start goes on from it. -/
def autoload (s : State) : State :=
  if s.hm.run ≠ .firmware ∨ s.hm.loaded ∨ (s.qeOf 24).run ≠ .running ∨ s.rst.core then s
  else
    let (s, r) := s.applySlots ((List.range (32 - s.hm.next)).map (· + s.hm.next))
    let (s, r) := match r, s.hm.muster.rest with
      | .done, [off, len] => s.applyStream len (len / 64) off
      | _, _ => (s, r)
    match r with
    | .waits => s
    | .failed v => ((s.logEv 0x80 v).ringOut 16).modHm fun h => { h with loaded := true }
    | .done => (s.ringOut 16).modHm fun h => { h with loaded := true }

/-! ## The muster (R486 to R491) -/

/-- The fields of a muster frame (R486), its bytes from the destination address on without the FCS. -/
structure MFrame where
  type    : Nat
  origin  : Nat
  prio    : Nat
  flags   : Nat
  counter : Nat
  session : Nat
  index   : Nat
  span    : Nat
  data    : List Nat
  deriving DecidableEq, Repr

/-- The muster frame in the bytes, if it is one: fields out of range make it none. -/
def State.mframe (s : State) (b : List Nat) : Option MFrame :=
  let f : MFrame := ⟨b.getD 14 0, beAt b 16 6, b.getD 22 0, b.getD 23 0, beAt b 24 2, beAt b 26 2, beAt b 28 2, beAt b 30 2, b.drop 32⟩
  let ok := decide (60 ≤ b.length) && beAt b 0 6 == 0xFFFFFFFFFFFF && beAt b 12 2 == s.fld SYS_MUSTER SYS_MUSTER_ETYPE && b.getD 15 0 == 1
    && decide (f.flags < 4)
    && (match f.type with
      | 1 => true
      | 2 => f.counter == 0 && decide (1 ≤ f.span) && decide (f.span ≤ 1024) && decide (f.span ≤ f.data.length) && decide (f.index < 1024)
      | 3 => f.counter == 0 && decide (1 ≤ f.index) && decide (f.index ≤ 1024)
      | 4 => f.span == 0 || (f.span == 256 && decide (32 ≤ f.data.length))
      | _ => false)
  if ok then some f else none

/-- The node's MAC address as a sender of muster frames. -/
def State.musterMac (s : State) : Nat := s.nv.mac.getD (0x020000000000 + (s.reg SYS_UID_LO).toNat + 2 ^ 32 * (s.fld SYS_UID_HI SYS_UID_HI_UID % 256))

/-- Change the muster's record. -/
def State.modMuster (s : State) (f : MusterSt → MusterSt) : State := s.modHm fun h => { h with muster := f h.muster }

/-- Bytes leave on a port. -/
def State.musterSend (s : State) (p : Nat) (b : List Nat) : State := s.modMuster fun u => { u with sent := u.sent ++ [(p, b)] }

/-- A frame with the node as its sender. -/
def State.fromHere (s : State) (b : List Nat) : List Nat := slice b 0 6 ++ beBytes 6 s.musterMac ++ b.drop 12

/-- The upstream port. -/
def State.upstream (s : State) : Nat := 2 * s.fld SYS_MUSTER SYS_MUSTER_PAIR + s.fld SYS_NODE_ADDR SYS_NODE_ADDR_UPSTREAM
/-- The node is locked. -/
def State.musterLocked (s : State) : Bool := s.bit SYS_NODE_ADDR SYS_NODE_ADDR_LOCKED

/-- One originator is preferred over another: lower PRIO, then lower ORIGIN. -/
def preferred (a b : Nat × Nat) : Bool := decide (a.1 < b.1) || (a.1 == b.1 && decide (a.2 < b.2))

/-- The frame is the adopted originator's. -/
def State.adoptedIs (s : State) (f : MFrame) : Bool := s.hm.muster.adopted.any (fun a => a.2 == f.origin)

/-- A COUNT frame goes on to the other port with the counter of the node's address plus 1. -/
def State.countOn (s : State) (q : Nat) (b : List Nat) (flags : Nat) : State :=
  let addr := s.fld SYS_NODE_ADDR SYS_NODE_ADDR_ADDR
  let ovf := addr = 0 ∨ addr = 0xFFFF
  let b := s.fromHere b
  s.musterSend (otherPort q) (b.take 23 ++ [if ovf then setBitTo 1 true flags else flags] ++ beBytes 2 (if ovf then 0 else addr + 1) ++ b.drop 26)

/-- A COUNT frame on port q (R488, R489). -/
def musterCount (q : Nat) (b : List Nat) (s : State) : State :=
  let s := s.modMuster fun u => { u with sent := [] }
  match s.mframe b with
  | none => s
  | some f =>
    if f.type ≠ 1 ∨ !s.musterPort q then s
    else if s.musterLocked then
      (if s.adoptedIs f ∧ q = s.upstream then s.countOn q b f.flags else s)
    else
      let better := s.hm.muster.adopted.all (fun a => preferred (f.prio, f.origin) a && a.2 != f.origin)
      let s := if better then
          ((s.setIf s.hm.muster.adopted.isSome SYS_STATUS SYS_STATUS_MUSTER_CLASH).putF SYS_NODE_ADDR SYS_NODE_ADDR_UPSTREAM (q % 2)).modMuster
            fun u => { u with adopted := some (f.prio, f.origin) }
        else s
      if s.adoptedIs f ∧ q = s.upstream then
        let excess := bitOf 1 f.flags || f.counter == 0
        let addr := if excess then 0 else f.counter
        let s := (s.setIf excess SYS_STATUS SYS_STATUS_MUSTER_OVF).putF SYS_NODE_ADDR SYS_NODE_ADDR_ADDR addr
        let s := (s.putB SYS_NODE_ADDR SYS_NODE_ADDR_VALID (addr != 0)).countOn q b f.flags
        if bitOf 0 f.flags then s.setB SYS_NODE_ADDR SYS_NODE_ADDR_LOCKED else s
      else s

/-- A new session: the staged stream is discarded. -/
def State.newSession (s : State) (n : Nat) : State :=
  if s.hm.muster.session = some n then s
  else (s.modMuster fun u => { u with session := some n, blocks := [], dones := 0, failed := false }).modHm fun h => { h with start := none }

/-- A BLOCK frame on port q (R489, R490): it locks the address, is staged in PIM and goes on downstream. A session that was given up stays so
(R491). -/
def musterBlock (q : Nat) (b : List Nat) (s : State) : State :=
  let s := s.modMuster fun u => { u with sent := [] }
  match s.mframe b with
  | none => s
  | some f =>
    if f.type ≠ 2 ∨ !s.musterPort q ∨ !s.adoptedIs f ∨ q ≠ s.upstream then s
    else
      let s := (s.setB SYS_NODE_ADDR SYS_NODE_ADDR_LOCKED).newSession f.session
      let s := if s.hm.muster.failed then s else s.hmStage .muster stDOWNLOAD
      let s := s.fwTouch.store (0x10000000 + f.index * 1024) (f.data.take f.span)
      let s := s.modMuster fun u => { u with blocks := tput (fun _ => 0) u.blocks f.index f.span }
      s.musterSend (otherPort q) (s.fromHere b)

/-- Block i is held. -/
def State.blockHeld (s : State) (i : Nat) : Bool := tget (fun _ => 0) s.hm.muster.blocks i != 0

/-- A REQUEST frame of the node: SPAN 0 as a report, or the bitmap of missing blocks from INDEX on, bit 0 most significant. -/
def State.requestFrame (s : State) (f : MFrame) (idx span : Nat) (missing : Nat → Bool) : List Nat :=
  let byte (k : Nat) : Nat := packBits ((List.range 8).map (fun j => missing (idx + 8 * k + (7 - j))))
  let b := beBytes 6 0xFFFFFFFFFFFF ++ beBytes 6 s.musterMac ++ beBytes 2 (s.fld SYS_MUSTER SYS_MUSTER_ETYPE) ++ [4, 1] ++ beBytes 6 f.origin
    ++ [f.prio, 0] ++ beBytes 2 (s.fld SYS_NODE_ADDR SYS_NODE_ADDR_ADDR) ++ beBytes 2 f.session ++ beBytes 2 idx ++ beBytes 2 span
    ++ (if span = 0 then [] else (List.range 32).map byte)
  padTo60 b

/-- A DONE frame on port q (R491): it goes on downstream from a node that is locked or not. A stream that reads as poison fails its check
(DESIGN CHOICE, log 115). -/
def musterDone (q : Nat) (b : List Nat) (s : State) : State :=
  let s := s.modMuster fun u => { u with sent := [] }
  match s.mframe b with
  | none => s
  | some f =>
    if f.type ≠ 3 ∨ !s.musterPort q ∨ !s.adoptedIs f ∨ q ≠ s.upstream then s
    else
      let s := (s.musterSend (otherPort q) (s.fromHere b)).newSession f.session
      if s.hm.muster.failed ∨ s.hm.start.isSome then s
      else
        let s := s.modMuster fun u => { u with dones := u.dones + 1 }
        let missing (i : Nat) : Bool := decide (i < f.index) && !s.blockHeld i
        let failed (s : State) : State :=
          if s.hm.muster.dones = 8 then
            ((s.hmStage .muster stFAILED).putF SYS_BOOT SYS_BOOT_ERROR 1).modMuster fun u => { u with failed := true }
          else s
        match (List.range f.index).find? missing with
        | some i => failed (s.musterSend q (s.requestFrame f i 256 missing))
        | none =>
          let len := beAt f.data 4 4
          let s := s.fwTouch.eccRead 0x10000000 len
          if len ≤ f.index * 1024 ∧ !s.poisonedN 0x10000000 len ∧ crc32 (s.rdBytes 0x10000000 len) = beAt f.data 0 4 then
            (s.musterSend q (s.requestFrame f 0 0 missing)).modHm fun h => { h with start := some ([], 0, len) }
          else
            let s := s.modMuster fun u => { u with blocks := [] }
            failed ((List.range ((f.index + 255) / 256)).foldl
              (fun s k => s.musterSend q (s.requestFrame f (256 * k) 256 (fun i => decide (i < f.index)))) s)

/-- A REQUEST frame from downstream goes on upstream unchanged (R491). -/
def musterRequest (q : Nat) (b : List Nat) (s : State) : State :=
  let s := s.modMuster fun u => { u with sent := [] }
  match s.mframe b with
  | none => s
  | some f =>
    if f.type ≠ 4 ∨ !s.musterPort q ∨ !s.adoptedIs f ∨ q = s.upstream then s else s.musterSend s.upstream b

end Sys2Proof.Machine
end

