-- ==== Sys2Proof/Machine/Deliver.lean ====
section
/-! DEFINITION. Delivery of converter results to a handover buffer or a ferry queue (12). -/
namespace Sys2Proof.Machine

/-- The oldest complete sequence of converter c is delivered (R344). -/
def adcResults (c : Nat) (s : State) : State :=
  let x := s.adcOf c
  match x.out with
  | [] => s
  | (q, res, at') :: t =>
    let s := (s.setAdc c { x with out := t }).setB (ADC_STATUS c) ADC_STATUS_DONE
    let bs := res.flatMap (leBytes 2)
    let drop (s : State) : State := (s.setB (ADC_STATUS c) ADC_STATUS_DROP).count (ADC_DROP_CNT c)
    if s.fld (ADC_SEQ_CFG c q) ADC_SEQ_CFG_DEST = 0 then
      let n := s.fld (ADC_SEQ_CFG c q) ADC_SEQ_CFG_BUF
      let off := s.fld (ADC_SEQ_BOFF c q) ADC_SEQ_BOFF_BOFF
      if s.hbLineW n && decide (off + bs.length ≤ s.hbSize n) then s.hbWrite n off bs else drop s
    else
      let f := s.fld (ADC_SEQ_CFG c q) ADC_SEQ_CFG_FQ
      let ws := packWords (leBytes 4 (q + 16 * c + 2 ^ 16 * res.length) ++ leBytes 4 (todNs at') ++ bs)
      if s.fqRoomN f ws.length then s.fqPushAll f ws else drop (s.fqDrop f)

end Sys2Proof.Machine
end

