-- ==== Sys2Proof/Machine/Row.lean ====
section
/-! DEFINITION. What the commands share: when each kind of command acts, register accesses, accesses on the interconnect and their time limit (01),
outbound requests (14), the ACCESS register of the debug port (16). -/
namespace Sys2Proof.Machine

/-! ## When a command acts (R470 to R472) -/

/-- The debug port takes up the end of its access (R455). -/
def State.tapTake (s : State) : State :=
  if s.cw.waits.isEmpty then s
  else match s.cw.waits.find? (fun x => x.who == .debug && x.result.isSome) with
    | some x =>
      let r := x.result.getD (.busError, 0)
      let s := s.takeEnded .debug x.addr
      s.modTap fun t => { t with result := if r.1 = .done then 0 else 2, data := r.2 }
    | none => s

/-- What settles after every command: the debug port takes up the end of its access (R455), a DMA channel that waits for a queue gives its region
up (R251), the bits of link tests are counted (R451), a vector that has ceased to be pending may send again (R378), and a watchdog of the lighthouse that was held restarts (R443). -/
def State.after (s : State) : State := s.tapTake.dmaYield.testCount.settle.wdogWake

/-- A command's answer: the next state, with what settles after every command. -/
def answer (s : State) : Host.Outcome State Fault Refusal := .next s.after

/-- A command that acts at any time. -/
def anyTime (f : State → State) (s : State) : Host.Outcome State Fault Refusal := answer (f s)
/-- A command of a unit that CHIP reset holds. -/
def chipOn (f : State → State) (s : State) : Host.Outcome State Fault Refusal := answer (if s.rst.chip then s else f s)
/-- A command of a unit that CORE reset holds too. -/
def coreOn (f : State → State) (s : State) : Host.Outcome State Fault Refusal := answer (if s.rst.chip ∨ s.rst.core then s else f s)
/-- An access that the boot ROM or the firmware makes in `f` waits for a lock of the host bus (R387). -/
def State.fwWaits (f : State → State) (s : State) : Bool :=
  s.cw.lock.isSome && (f (s.modCw fun c => { c with waits := c.waits.filter (·.who != .hm) })).cw.waits.any
    (fun x => x.who == .hm && decide (x.addr < 0x80000000))
/-- A command in which the boot ROM or the firmware reaches memory: while an access of it waits for a lock, the whole command waits. -/
def fwOn (f : State → State) (s : State) : Host.Outcome State Fault Refusal := coreOn (fun s => if s.fwWaits f then s else f s) s
/-- A command of a host interface, which CAUSEWAY reset holds too. -/
def hostOn (f : State → State) (s : State) : Host.Outcome State Fault Refusal := answer (if s.rst.chip ∨ s.rst.cw then s else f s)
/-- A command that comes on balls of bank `b` of a host interface: while the bank is down its inputs read 0, and none comes (R463, R500). -/
def bankOn (b : Nat) (f : State → State) (s : State) : Host.Outcome State Fault Refusal := hostOn (fun s => if s.rst.banks.contains b then s else f s) s
/-- A command that comes on the balls of the TAP (R453): none comes while their bank is down (R500). -/
def tapOn (f : State → State) (s : State) : Host.Outcome State Fault Refusal :=
  answer (if s.rst.lhOff ∨ s.rst.banks.contains 7 then s else f s)
/-- A command of a unit that works while the lighthouse has power. -/
def powerOn (f : State → State) (s : State) : Host.Outcome State Fault Refusal := answer (if s.rst.lhOff then s else f s)

/-! ## Accesses -/

/-- Record how an access ended. -/
def State.record (who : Initiator) (a : Nat) (r : State × BusEnd × Nat) : State := { r.1 with access := some ⟨who, a, r.2.1, r.2.2⟩ }

/-- The lighthouse port reaches the MAILBOX block only (R12). -/
def reaches (who : Initiator) (a : Nat) : Bool := who != .lhPort || (decide (0x40020000 ≤ a) && decide (a < 0x40030000))

/-- The host interface of `who` has its balls' bank: bank 0 for the host bus, bank 6 for the QSPI target (R463, R500). -/
def State.bankUp (s : State) : Initiator → Bool
  | .hostBus => !s.rst.banks.contains 0
  | .qspi => !s.rst.banks.contains 6
  | _ => true

/-- An access that `who` may make: one that it reaches, and not through a host interface in a CAUSEWAY reset or whose bank is down (R12, R463, R471). -/
def State.mayAccess (s : State) (who : Initiator) (a : Nat) : Bool := reaches who a && !(s.rst.cw && (ifNum who).isSome) && s.bankUp who

/-- Nothing that the initiator's host interface accepted earlier is still to be performed (R374). -/
def State.isNext (s : State) (who : Initiator) : Bool := match ifNum who with | some k => (s.ifOf k).ops.isEmpty | none => true

/-- What the initiator's host interface accepted earlier is performed, in order, as far as one step goes: the writes in front and the first operation
after them (R374). -/
def State.performEarlier (s : State) (who : Initiator) : State := match ifNum who with | some k => s.serveNext k | none => s

/-- An access of the initiator at `a` has been made already and waits. -/
def State.waitsAt (s : State) (who : Initiator) (a : Nat) : Bool := s.cw.waits.any fun x => x.who == who && x.addr == a

/-- A write at `a` is posted on the initiator's host interface; on the host bus one to a region S or of a locked sequence is delayed (R385, R387). -/
def State.posts (s : State) (who : Initiator) (a : Nat) : Bool := (ifNum who).isSome && !(who == .hostBus && (s.isSide a || s.lockedSeq))

/-- A request at `a` that its host interface has not held so far finds a buffer, or takes one (R397). -/
def State.findsRoom (s : State) (who : Initiator) (a : Nat) : State := if s.waitsAt who a then s else s.inboundRoom

/-- It takes one back from an outbound request. -/
def State.needsRoom (s : State) (who : Initiator) (a : Nat) : Bool := (ifNum who).isSome && !s.waitsAt who a && s.takesBack

/-- A write of `n` bytes at `a` is accepted: a host interface finds a buffer for it, counts it and discards its lines (R391, R393, R394, R397); one that
waits has been counted. -/
def State.admitWrite (s : State) (who : Initiator) (a n : Nat) : State :=
  match ifNum who with
  | some k => if s.posts who a || !s.waitsAt who a then (s.findsRoom who a).countWrite k a n else s
  | none => s

/-- A read at `a` is accepted: a host interface finds a buffer for it, and discards its lines at one of a region S and at one that hits neither (R393,
R397). -/
def State.admitRead (s : State) (who : Initiator) (a : Nat) : State :=
  match ifNum who with
  | some k => let s := s.findsRoom who a; if s.isSide a || (s.lineHeld k a).isNone then s.dropLines k else s
  | none => s

/-- The next read of the initiator meets the fence of its interface (R395). -/
def State.fenceMet (s : State) (who : Initiator) (a : Nat) : Bool :=
  match ifNum who with | some k => s.fenced k && !s.waitsAt who a | none => false

/-- The number that the initiator's next write takes (R394). -/
def State.writeSeq (s : State) (who : Initiator) : Nat := match ifNum who with | some k => (s.ifOf k).seq | none => 0

/-- A write of `bs` at `a` has been made as `r`: a posted one that failed is logged, one that must wait is kept in its interface's order (R374, R394). -/
def State.writeMade (who : Initiator) (a seq : Nat) (bs : List Nat) (r : State × BusEnd × Nat) : State × BusEnd × Nat :=
  match ifNum who, r.2.1 with
  | some k, .busError => (r.1.pwFail k seq a 1, r.2)
  | some k, .waiting => (r.1.modIf k fun x => { x with ops := [.write seq a (bs.map some) 0 false false] }, r.2)
  | _, _ => r

/-- A read or an atomic operation has been made as `r`: PCIe answers a bus error with Completer Abort (R377, R395). -/
def State.readMade (who : Initiator) (h : TlpHead) (r : State × BusEnd × Nat) : State × BusEnd × Nat :=
  if who = .pcie ∧ r.2.1 = .busError then (r.1.sendCa h [], r.2) else r

/-- An access in its turn (R374): what the host interface accepted earlier goes first, and while some of that is left the access waits, a
posted write in the interface's order. `bs` are the bytes of a write, none of a read or an atomic operation, which counts as a read (R395); `h` is
the head of such a request on PCIe. -/
def State.inTurn (s : State) (who : Initiator) (a : Nat) (bs : List Nat) (h : TlpHead) (f : State → State × BusEnd × Nat) : State :=
  if !s.mayAccess who a then s
  else
    let s := if s.isNext who then s else s.performEarlier who
    if !s.isNext who then
      match ifNum who with
      | some k => State.record who a (if !bs.isEmpty && s.posts who a then s.inboundRoom.postWrite k a (bs.map some) 0 else s, .waiting, 0)
      | none => s
    else if bs.isEmpty then
      match ifNum who with
      | some k => State.record who a (State.readMade who h (if s.fenceMet who a then (s.clrB CW_FENCE (fenceBit k), .busError, 0) else f (s.admitRead who a)))
      | none => State.record who a (f s)
    else
      let r := f (s.admitWrite who a bs.length)
      State.record who a (if s.posts who a then State.writeMade who a (s.writeSeq who) bs r else r)

/-- One write of the word `w` at `a`. -/
def State.rowWrite (s : State) (who : Initiator) (a : Nat) (w : Word) : State := s.inTurn who a (leBytes 4 w.toNat) ⟨.memWrite, a, 4⟩ fun s =>
  ((s.busWrite who a (leBytes 4 w.toNat)).1, (s.busWrite who a (leBytes 4 w.toNat)).2, 0)

/-- One read of the word at `a`. -/
def State.rowRead (s : State) (who : Initiator) (a : Nat) : State := s.inTurn who a [] ⟨.memRead, a, 4⟩ fun s => s.busRead who a 4

/-- A command that is a register write. -/
def writeReg (who : Initiator) (a : Nat) (w : Word) (s : State) : Host.Outcome State Fault Refusal := chipOn (fun s => s.rowWrite who a w) s
/-- A command that is a register read. -/
def readReg (who : Initiator) (a : Nat) (s : State) : Host.Outcome State Fault Refusal := chipOn (fun s => s.rowRead who a) s

/-- The address lies in the register blocks (R17). -/
def isRegister (a : Nat) : Bool := decide (0x40000000 ≤ a) && decide (a < 0x40180000)

/-- The address belongs to a tide bank: its table, or the registers of its cycle and length (R68). -/
def isBank (a : Nat) : Bool :=
  (decide (0x3A000000 ≤ a) && decide (a < 0x3A040000)) || [TIDE_BANK_CYCLE 0, TIDE_BANK_CYCLE 1, TIDE_BANK_LEN 0, TIDE_BANK_LEN 1].contains a

/-- The engine and the mooring word of an address that another initiator reaches through the second port (R180). -/
def mooringOf (who : Initiator) (a : Nat) : Option (Nat × Nat) :=
  match regionOf a with
  | some (.qeSp e, base) => if 0xF000 ≤ a - base ∧ engineOf who ≠ some e then some (e, (a - base - 0xF000) / 16) else none
  | _ => none

/-- The bytes that a write of `bs` at `a` leaves, where the engine writes the lanes of the line set in `lanes` in the same cycle (R181): those
lanes stay the engine's. -/
def State.laneMerge (s : State) (a lanes : Nat) (bs : List Nat) : List Nat :=
  if lanes = 0 then bs else bs.mapIdx (fun k b => if bitOf ((a + k) % 16) lanes then s.rd8 (a + k) else b)

/-- The operation writes. -/
def busWrites : BusOp → Bool
  | .read _ => false
  | _ => true

/-- Perform an operation, with the engine's lanes of a collision. -/
def State.doOp (s : State) (who : Initiator) (a : Nat) (op : BusOp) (lanes : Nat) : State × BusEnd × Nat :=
  let put (n v : Nat) : Nat := ofLe (s.laneMerge a lanes (leBytes n v))
  match op with
  | .read n => s.busRead who a n
  | .write n d => let r := s.busWrite who a (s.laneMerge a lanes (leBytes n d.toNat)); (r.1, r.2, 0)
  | .swap n d => s.busAtomic who a n (fun _ => some (put n d.toNat))
  | .tas n => s.busAtomic who a n (fun _ => some (put n 1))
  | .cas n old new => s.busAtomic who a n (fun v => if v = old.toNat % 2 ^ (8 * n) then some (put n new.toNat) else none)

/-- Both ports have written a mooring word of engine `p.1` (R181). -/
def State.moorCollide (s : State) (p : Nat × Nat) : State :=
  let s := if s.bit (QE_STATUS p.1) QE_STATUS_MOOR_COLLIDE then s
    else (s.setB (QE_STATUS p.1) QE_STATUS_MOOR_COLLIDE).putF (QE_MOOR p.1) QE_MOOR_COLLIDE_WORD p.2
  s.logEv 0x43 p.1

/-- An operation with the collision that it may meet; `lanes` are the lanes of its mooring word that the engine writes in the same cycle. -/
def State.accessOp (s : State) (who : Initiator) (a : Nat) (op : BusOp) (lanes : Nat) : State × BusEnd × Nat :=
  match mooringOf who a with
  | some p =>
    let r := s.doOp who a op lanes
    (if busWrites op ∧ lanes ≠ 0 ∧ r.2.1 = .done then r.1.moorCollide p else r.1, r.2)
  | none => s.doOp who a op 0

/-- A disturbance of the memory at `a` before an access: none, one that can be corrected, one that cannot. Words of the ferry pool and of pilot
memory have parity alone, which either fails (R239, R364). -/
def State.upsetAt (s : State) (a upset : Nat) : State :=
  if upset = 0 then s
  else match regionOf a with
    | some (.pool, _) => s.setRawCell ((a - 0x38000000) / 64) (a % 64 / 4) (fun w => { w with bad := true })
    | some (.pilotMem k, _) => s.setPset k { s.psetOf k with bad := (pilotWords a 1).foldl (fun l x => ninsert x l) (s.psetOf k).bad }
    | _ => if (memIdOf (lineOf a)).isSome || inMram a then s.upset (lineOf a) (upset == 2) else s

/-- The debug port's access is in progress. -/
def State.tapBusy (s : State) : Bool := s.cw.waits.any (fun x => x.who == .debug && x.result.isNone)

/-- An access of the debug port: what it leaves in the ACCESS register (R455). -/
def State.tapEnd (r : State × BusEnd × Nat) : State :=
  r.1.modTap fun t => { t with result := (match r.2.1 with | .done => 0 | .waiting => 1 | _ => 2), data := r.2.2 }

/-- The bytes of a plain write. -/
def opBytes : BusOp → List Nat
  | .write n d => leBytes n d.toNat
  | _ => []

/-- The head of an operation's request. -/
def opHead (a : Nat) : BusOp → TlpHead
  | .read n => ⟨.memRead, a, n⟩
  | .write n _ => ⟨.memWrite, a, n⟩
  | .swap n _ => ⟨.atomicOp, a, n⟩
  | .tas n => ⟨.atomicOp, a, n⟩
  | .cas n _ _ => ⟨.atomicOp, a, n⟩

/-- An access on the interconnect, in its turn. -/
def interconnectAccess (who : Initiator) (a : Nat) (op : BusOp) (lanes upset : Nat) (s : State) : State :=
  s.inTurn who a (opBytes op) (opHead a op) fun s =>
    let r := (s.upsetAt a upset).accessOp who a op lanes
    if who = .debug ∧ s.tapBusy ∧ s.tap.addr = a then (State.tapEnd r, r.2) else r

/-- The engine whose banked scratchpad an address lies in (R179). -/
def bankedOf (a : Nat) : Option Nat :=
  match regionOf a with
  | some (.hmSp, base) => if 0x80 ≤ a - base then some 24 else none
  | some (.qeSp e, base) => if 0x80 ≤ a - base ∧ a - base < 0xF000 then some e else none
  | _ => none

/-- An access has not been served within 4,096 core cycles (R13, R179); an outbound request has its own limits (R380, R397). -/
def busTimeout (who : Initiator) (a : Nat) (op : BusOp) (s : State) : State :=
  if 0x80000000 ≤ a ∨ !reaches who a then s
  else match regionOf a with
    | none => State.record who a (s.accessOp who a op 0)
    | some _ =>
      let s := if s.cw.waits.any (fun x => x.who == who && x.addr == a && x.result.isNone) then s.endWait who a (.busError, 0)
        else s.modCw fun c => { c with waits := c.waits ++ [{ who := who, addr := a, buf := false, result := some (.busError, 0) }] }
      let s := match (bankedOf a).filter (fun e => engineOf who != some e) with
        | some e => (s.setB (QE_STATUS e) QE_STATUS_STARVED).logEv 0x42 e
        | none => s
      State.record who a (s, .busError, 0)

/-! ## Single commands -/

/-- Engine n, which a write that makes `t` of `s` let go by STEP, executes the instruction at its PC (R202). -/
def qeStepRow (n : Nat) (s t : State) : State :=
  if (s.qeOf n).run = .halted ∧ (t.qeOf n).run = .running ∧ (t.qeOf n).step then t.qeAny n else t

/-- A profile tick, once its instant has come (R297). -/
def profileTick (s : State) : State := if s.tickDue then (s.motionTick.forN 8 State.chopTick).tickTaken else s

/-- An outbound request is made, if it is not waiting already, and goes out on the link (R396). -/
def outboundRequest (who : Initiator) (a : Nat) (op : BusOp) (s : State) : State :=
  if a < 0x80000000 then s
  else
    let s := if (s.cw.strays ++ s.cw.waits).any (fun x => x.isOf who a (busWrites op) && x.result.isNone && !x.sent) then s else interconnectAccess who a op 0 0 s
    s.outSend who a

/-- The end of an outbound read by its completion (R396). -/
def outEnd : OutEnd → BusEnd × Nat
  | .data v p => (if p then .poisoned else .done, v.toNat)
  | .unsupported => (.busError, 0)
  | .abort => (.busError, 0)

/-- What Capture-DR loads into the data register that the instruction selects, least significant bit first (R453, R455): the identification, the
ACCESS register with the result, address and data of the latest access, the boundary register, or the bypass register's 0. -/
def State.tapCapture (s : State) : List Bool :=
  let bits (n v : Nat) : List Bool := (List.range n).map fun i => bitOf i v
  match s.tap.ir with
  | .idcode => bits 32 (s.reg DBG_IDCODE).toNat
  | .debug => bits 104 ((if s.tapBusy then 1 else s.tap.result) % 4 + 2 ^ 4 * (s.tap.addr % 2 ^ 32) + 2 ^ 36 * (s.tap.data % 2 ^ 64))
  | .extest | .extestPulse | .extestTrain | .samplePreload =>
    (List.range Config.boundaryLength).map fun i => match Config.cellBall i with
      | some c => if c < 256 then s.pinLevel c else Config.freeBool (s.free + i)
      | none => Config.freeBool (s.free + i)
  | .clamp | .highz | .bypass => [false]

/-- A scan of the selected data register, `n` bits long: its capture is shifted out. -/
def State.tapScan (s : State) (n : Nat) : State :=
  s.modTap fun t => { t with ctl := t.ctl.walk (scanTms false n), out := s.tdo s.tapCapture }

/-- A row that selects an instruction: its code is shifted in, and a scan of the data register that it selects, `n` bits long, shifts the capture out.
The bits shifted in leave that register as it was (DESIGN CHOICE, log 72). -/
def State.tapSelect (s : State) (code n : Nat) : State := (s.tapLoad code).tapScan n

/-- SAMPLE/PRELOAD captures the balls and loads the boundary register with the bits shifted in. -/
def samplePreload (l : List Bool) (s : State) : State :=
  ((s.tapLoad 0x02).tapScan l.length).modTap fun t => { t with boundary := l }

/-- Update-DR of the ACCESS register (R455): the state of the latest access is shifted out, and the new one is discarded while an access is in progress. -/
def accessUpdate (op size a data : Nat) (s : State) : State :=
  if s.tap.ir ≠ .debug then s
  else
    let s := s.tapScan 104
    let t := s.modTap fun t => { t with addr := a }
    if s.tapBusy ∨ op = 0 then s
    else if op = 3 then t.modTap fun t => { t with result := 3 }
    else
      let s := t.setB DBG_STATUS DBG_STATUS_USED
      let r := s.accessOp .debug a (if op = 1 then .read (2 ^ size) else .write (2 ^ size) (BitVec.ofNat 128 data)) 0
      State.tapEnd (State.record .debug a r, r.2)

end Sys2Proof.Machine
end

