-- ==== Sys2Proof/Machine/RowBoot.lean ====
section
/-! DEFINITION. What the commands of this family do: The boot ROM, the start of the firmware and the muster (17, R477 to R491). -/
namespace Sys2Proof.Machine

/-- BOOT_IMAGE_START (R479): The boot ROM checks and places a harbourmaster image and starts it. -/
def execBootImageStart (s : State) : Host.Outcome State Fault Refusal := fwOn bootImageStart s
/-- AUTOLOAD (R481): Started firmware applies the valid MRAM slots and stream images, then rings doorbell bit 16. -/
def execAutoload (s : State) : Host.Outcome State Fault Refusal := fwOn autoload s
/-- MUSTER_COUNT (R488): A COUNT frame from the adopted or preferred originator sets the node's address and is forwarded with the counter raised. -/
def execMusterCount (q : Fin 6) (bytes : List (BitVec 8)) (s : State) : Host.Outcome State Fault Refusal := coreOn (musterCount q.val (bytes.map BitVec.toNat)) s
/-- MUSTER_BLOCK (R490): A BLOCK frame from upstream is staged in PIM and forwarded downstream, locking the address. -/
def execMusterBlock (q : Fin 6) (bytes : List (BitVec 8)) (s : State) : Host.Outcome State Fault Refusal := fwOn (musterBlock q.val (bytes.map BitVec.toNat)) s
/-- MUSTER_DONE (R491): A DONE frame triggers the CRC check and start, or a REQUEST for missing blocks. -/
def execMusterDone (q : Fin 6) (bytes : List (BitVec 8)) (s : State) : Host.Outcome State Fault Refusal := fwOn (musterDone q.val (bytes.map BitVec.toNat)) s
/-- MUSTER_REQUEST (R491): A REQUEST frame from downstream is forwarded upstream unchanged. -/
def execMusterRequest (q : Fin 6) (bytes : List (BitVec 8)) (s : State) : Host.Outcome State Fault Refusal := coreOn (musterRequest q.val (bytes.map BitVec.toNat)) s

end Sys2Proof.Machine
end

