-- ==== Sys2Proof/Machine/RowBus.lean ====
section
/-! DEFINITION. What the commands of this family do: Accesses on the interconnect, the memories and their errors (01; 16 R448). -/
namespace Sys2Proof.Machine

/-- REGISTER_WRITE (R8): A write to a register that has no row of its own sets its fields by their access codes, or is discarded whole on a reserved encoding or locked RWL field. -/
def execRegisterWrite (who : Initiator) (a w : Word) (s : State) : Host.Outcome State Fault Refusal := chipOn (fun s => if isRegister a.toNat then s.rowWrite who a.toNat w else s) s
/-- INTERCONNECT_ACCESS (R12): An initiator's read, write or atomic operation is arbitrated round robin at its target and served under the address map and its attributes. -/
def execInterconnectAccess (who : Initiator) (a : Word) (op : BusOp) (lanes : BitVec 16) (upset : Fin 3) (s : State) : Host.Outcome State Fault Refusal := chipOn (interconnectAccess who a.toNat op lanes.toNat upset.val) s
/-- BUS_TIMEOUT (R13): A target that has not responded within 4,096 core cycles ends the access with a bus error. -/
def execBusTimeout (who : Initiator) (a : Word) (op : BusOp) (s : State) : Host.Outcome State Fault Refusal := chipOn (busTimeout who a.toNat op) s
/-- CORRECTION_WRITE_BACK (R27): A corrected word is written back at the next cycle in which its memory is free. -/
def execCorrectionWriteBack (line : Nat) (s : State) : Host.Outcome State Fault Refusal := chipOn (correctionWriteBack line) s
/-- DREDGER_PASS (R448): The dredger reads, corrects and writes back every word of each symbol-coded memory once per pass. -/
def execDredgerPass (soft hard : List Nat) (s : State) : Host.Outcome State Fault Refusal := chipOn (dredgerPass soft hard) s
/-- DREDGE_LATE (R448): A pass not finished within PASS_MS sets DREDGE_LATE and raises logbook code 0x12. -/
def execDredgeLate (s : State) : Host.Outcome State Fault Refusal := chipOn dredgeLate s

end Sys2Proof.Machine
end

