-- ==== Sys2Proof/Machine/RowCan.lean ====
section
/-! DEFINITION. What the commands of this family do: The CAN FD controllers and the time-triggered unit (10). -/
namespace Sys2Proof.Machine

/-- CAN_MODE (R268): A write of MODE in CANn_CTL requests INIT, NORMAL or RESTRICTED operation. -/
def execCanMode (who : Initiator) (n : Fin 4) (w : Word) (s : State) : Host.Outcome State Fault Refusal := writeReg who (CAN_CTL n.val) (w) s
/-- CAN_MODE_EFFECT (R268): The requested CAN mode takes effect after 11 recessive bits, or at the end of the frame in progress. -/
def execCanModeEffect (n : Fin 4) (s : State) : Host.Outcome State Fault Refusal := chipOn (canModeEffect n.val) s
/-- TX_BUFFER_LOAD (R272): A complete transmit packet is popped into a free transmit buffer, or discarded whole as bad. -/
def execTxBufferLoad (n : Fin 4) (s : State) : Host.Outcome State Fault Refusal := chipOn (txBufferLoad n.val) s
/-- CAN_TRANSMIT (R273): A controller transmits the buffer that would win arbitration and records success, lost arbitration or error. -/
def execCanTransmit (n : Fin 4) (part : CanTx) (s : State) : Host.Outcome State Fault Refusal := chipOn (canTransmit n.val part) s
/-- BUS_OFF_RECOVERY (R271): The recovery sequence of 128 × 11 recessive bits completes and the controller returns error active. -/
def execBusOffRecovery (n : Fin 4) (s : State) : Host.Outcome State Fault Refusal := chipOn (busOffRecovery n.val) s
/-- CAN_TX_CANCEL (R275): A write to CANn_TX_CANCEL cancels transmit buffers, or reports the cancel late. -/
def execCanTxCancel (who : Initiator) (n : Fin 4) (w : Word) (s : State) : Host.Outcome State Fault Refusal := writeReg who (CAN_TX_CANCEL n.val) (w) s
/-- CAN_RECEIVE (R278): A valid received frame is filtered and pushed into RXQ0 or RXQ1, or discarded. -/
def execCanReceive (n : Fin 4) (part : CanRx) (s : State) : Host.Outcome State Fault Refusal := chipOn (canReceive n.val part) s
/-- TT_ENABLE (R284): A write of EN = 1 to TT_CTL validates the trigger list and enables the time-triggered unit or sets CFG_FAIL. -/
def execTtEnable (who : Initiator) (w : Word) (s : State) : Host.Outcome State Fault Refusal := writeReg who TT_CTL (TT_CTL_EN.put w 1) s
/-- TT_CYCLE_START (R281): A basic cycle of the system matrix begins and the cycle count advances. -/
def execTtCycleStart (level : Fin 4) (s : State) : Host.Outcome State Fault Refusal := chipOn (ttCycleStart level.val) s
/-- TT_TRIGGER (R283): At its time mark a trigger acts: reference, exclusive send, arbitrating window, receive check or watch. -/
def execTtTrigger (s : State) : Host.Outcome State Fault Refusal := chipOn ttTrigger s
/-- BACKUP_REFERENCE (R287): A backup whose delay passes without a reference message sends its own and takes over. -/
def execBackupReference (s : State) : Host.Outcome State Fault Refusal := chipOn backupReference s
/-- UPDATE (R288): A write of UPDATE checks an application buffer image and requests its exchange. -/
def execUpdate (who : Initiator) (m : Fin 16) (w : Word) (s : State) : Host.Outcome State Fault Refusal := writeReg who (TT_ABUF_CTL m.val) (TT_ABUF_CTL_UPDATE.put w 1) s
/-- ABUF_EXCHANGE (R288): At the first clock with no TX_EXCL reading the buffer the application and active images are exchanged. -/
def execAbufExchange (m : Fin 16) (s : State) : Host.Outcome State Fault Refusal := chipOn (abufExchange m.val) s

end Sys2Proof.Machine
end

