-- ==== Sys2Proof/Machine/RowChop.lean ====
section
/-! DEFINITION. What the commands of this family do: Current regulation, encoders and converters (12). -/
namespace Sys2Proof.Machine

/-- CHOP_CYCLE_START (R333): A chopping cycle begins, taking changing half-bridges off for the dead time. -/
def execChopCycleStart (n : Fin 8) (ph : Fin 2) (s : State) : Host.Outcome State Fault Refusal := chipOn (chopCycleStart n.val ph.val) s
/-- DEAD_TIME_END (R333): After DEAD the new IN is applied, the coil is driven and blanking starts. -/
def execDeadTimeEnd (n : Fin 8) (ph : Fin 2) (s : State) : Host.Outcome State Fault Refusal := chipOn (deadTimeEnd n.val ph.val) s
/-- BLANK_END (R333): After BLANK the threshold comparator is enabled, ending the on phase at once if already tripped. -/
def execBlankEnd (n : Fin 8) (ph : Fin 2) (v : Int) (s : State) : Host.Outcome State Fault Refusal := chipOn (blankEnd n.val ph.val v) s
/-- COMPARATOR_TRIP (R333): The threshold comparator trips, the trip time is recorded and decay begins. -/
def execComparatorTrip (n : Fin 8) (ph : Fin 2) (v : Int) (s : State) : Host.Outcome State Fault Refusal := chipOn (comparatorTrip n.val ph.val v) s
/-- OFF_TIME_END (R333): TOFF after the trip the decay ends and the next chopping cycle begins. -/
def execOffTimeEnd (n : Fin 8) (ph : Fin 2) (s : State) : Host.Outcome State Fault Refusal := chipOn (offTimeEnd n.val ph.val) s
/-- OVER_CURRENT (R335): An over-current trip takes the axis's bridges off, sets OC_A or OC_B and faults the axis. -/
def execOverCurrent (n : Fin 8) (va vb : Int) (s : State) : Host.Outcome State Fault Refusal := chipOn (overCurrent n.val va vb) s
/-- REST_DELAY_EXPIRY (R332): After REST_DELAY of standstill the current falls to I_REST. -/
def execRestDelayExpiry (n : Fin 8) (s : State) : Host.Outcome State Fault Refusal := chipOn (restDelayExpiry n.val) s
/-- ENCODER_EDGE (R338): A filtered encoder input edge counts the counter up or down, or sets QERR. -/
def execEncoderEdge (n : Fin 32) (a b : Bool) (s : State) : Host.Outcome State Fault Refusal := chipOn (fun s => let s := (s.pinSeen (0x60 + n.val) a).pinSeen (0x80 + n.val) b; encoderEdge n.val (s.inputLevel (0x60 + n.val)) (s.inputLevel (0x80 + n.val)) s) s
/-- INDEX_EDGE (R340): An index edge latches the count and time, sets INDEX and zeroes the count by IDX_MODE. -/
def execIndexEdge (n : Fin 32) (z : Bool) (s : State) : Host.Outcome State Fault Refusal := chipOn (fun s => let s := s.pinSeen (0xA0 + n.val) z; indexEdge n.val (s.inputLevel (0xA0 + n.val)) s) s
/-- ENC_COUNT_LO_WRITE (R339): A write of ENCn_COUNT_LO is held until ENCn_COUNT_HI is written. -/
def execEncCountLoWrite (who : Initiator) (n : Fin 32) (w : Word) (s : State) : Host.Outcome State Fault Refusal := writeReg who (ENC_COUNT_LO n.val) (w) s
/-- ENC_COUNT_HI_WRITE (R339): A write of ENCn_COUNT_HI loads both halves of the count at one motion clock. -/
def execEncCountHiWrite (who : Initiator) (n : Fin 32) (w : Word) (s : State) : Host.Outcome State Fault Refusal := writeReg who (ENC_COUNT_HI n.val) (w) s
/-- ENC_COUNT_LO_READ (R339): A read of ENCn_COUNT_LO latches the high word. -/
def execEncCountLoRead (who : Initiator) (n : Fin 32) (s : State) : Host.Outcome State Fault Refusal := readReg who (ENC_COUNT_LO n.val) s
/-- ADC_START (R343): START in ADCc_CMD starts a sequence, or sets START_REFUSED while BUSY. -/
def execAdcStart (who : Initiator) (c : Fin 2) (w : Word) (s : State) : Host.Outcome State Fault Refusal := writeReg who (ADC_CMD c.val) (ADC_CMD_START.put w 1) s
/-- CONVERSION (R343): Every 100 ns of a running sequence the converter samples its next channel. -/
def execConversion (c : Fin 2) (v : Int) (s : State) : Host.Outcome State Fault Refusal := chipOn (conversion c.val v) s
/-- ADC_RESULTS (R344): Within 400 ns of the last sample the results go to a handover buffer or a ferry packet, or are dropped. -/
def execAdcResults (c : Fin 2) (s : State) : Host.Outcome State Fault Refusal := chipOn (adcResults c.val) s
/-- SOUND_SEL (R329): A write of SOUND_SELi changes an input's source at one tick without producing an edge. -/
def execSoundSel (who : Initiator) (k : Fin 216) (pin : Bool) (w : Word) (s : State) : Host.Outcome State Fault Refusal := chipOn (fun s => (s.setOutside (SOUND_SEL_PIN.get w) pin).rowWrite who (SOUND_SEL k.val) w) s

end Sys2Proof.Machine
end

