-- ==== Sys2Proof/Machine/RowDbg.lean ====
section
/-! DEFINITION. What the commands of this family do: Link tests, the TAP and the debug port (16, R449 to R456). -/
namespace Sys2Proof.Machine

/-- TEST_LINK_CTL (R449): A write of TEST_LINKL_CTL restarts a link's generator and checker and takes the link from its function. -/
def execTestLinkCtl (who : Initiator) (l : Fin 64) (w : Word) (s : State) : Host.Outcome State Fault Refusal := writeReg who (TEST_LINK_CTL l.val) (w) s
/-- CHECKER_LOCKED (R451): A test lane's checker locks after 64 consecutive correct bits and sets its LOCKED bit. -/
def execCheckerLocked (l : Fin 64) (lane : Fin 8) (s : State) : Host.Outcome State Fault Refusal := chipOn (checkerLocked l.val lane.val) s
/-- LANE_ERR (R451): A wrong bit on a locked test lane counts in TEST_LINKL_ERR and sets the lane's LANE_ERR bit. -/
def execLaneErr (l : Fin 64) (lane : Fin 8) (n : Nat) (s : State) : Host.Outcome State Fault Refusal := chipOn (laneErr l.val lane.val n) s
/-- LOCK_LOST (R451): A lane seeing 32 wrong bits in 64 loses lock and sets LOCK_LOST. -/
def execLockLost (l : Fin 64) (lane : Fin 8) (n : Nat) (s : State) : Host.Outcome State Fault Refusal := chipOn (lockLost l.val lane.val n) s
/-- TAP_RESET (R453): TRSTN or five TCK cycles with TMS high reset the TAP. -/
def execTapReset (s : State) : Host.Outcome State Fault Refusal := tapOn tapReset s
/-- EXTEST (R454): EXTEST makes the balls follow the boundary register. -/
def execExtest (s : State) : Host.Outcome State Fault Refusal := tapOn (fun s => s.tapSelect 0x00 Config.boundaryLength) s
/-- IDCODE (R453): IDCODE selects the identification register. -/
def execIdcode (s : State) : Host.Outcome State Fault Refusal := tapOn (fun s => s.tapSelect 0x01 32) s
/-- EXTEST_PULSE (R454): EXTEST_PULSE tests AC-coupled lanes with pulses. -/
def execExtestPulse (s : State) : Host.Outcome State Fault Refusal := tapOn (fun s => s.tapSelect 0x04 Config.boundaryLength) s
/-- EXTEST_TRAIN (R454): EXTEST_TRAIN tests AC-coupled lanes with trains. -/
def execExtestTrain (s : State) : Host.Outcome State Fault Refusal := tapOn (fun s => s.tapSelect 0x05 Config.boundaryLength) s
/-- CLAMP (R454): CLAMP holds the balls from the boundary register with the bypass path selected. -/
def execClamp (s : State) : Host.Outcome State Fault Refusal := tapOn (fun s => s.tapSelect 0x06 1) s
/-- HIGHZ (R453): HIGHZ places the outputs at high impedance. -/
def execHighz (s : State) : Host.Outcome State Fault Refusal := tapOn (fun s => s.tapSelect 0x07 1) s
/-- DEBUG (R455): DEBUG selects the ACCESS register of the debug port. -/
def execDebug (s : State) : Host.Outcome State Fault Refusal := tapOn (fun s => s.tapLoad 0x20) s
/-- BYPASS (R453): BYPASS selects the one-bit bypass register. -/
def execBypass (s : State) : Host.Outcome State Fault Refusal := tapOn (fun s => s.tapSelect 0x3F 1) s
/-- SAMPLE_PRELOAD (R453): SAMPLE/PRELOAD captures and loads the boundary register. -/
def execSamplePreload (l : List Bool) (s : State) : Host.Outcome State Fault Refusal := tapOn (samplePreload l) s
/-- ACCESS_UPDATE (R455): Update-DR of ACCESS starts a debug read or write on the interconnect. -/
def execAccessUpdate (op size : Fin 4) (a : Word) (data : BitVec 64) (s : State) : Host.Outcome State Fault Refusal := tapOn (accessUpdate op.val size.val a.toNat data.toNat) s
/-- SYS_RESET_CHIP (R493): SYS_RESET CHIP from the debug port requests a CHIP reset. -/
def execSysResetChip (who : Initiator) (w : Word) (s : State) : Host.Outcome State Fault Refusal := writeReg who SYS_RESET (SYS_RESET_CHIP.put w 1) s
/-- SYS_RESET_CORE (R493): SYS_RESET CORE from the debug port requests a CORE reset. -/
def execSysResetCore (who : Initiator) (w : Word) (s : State) : Host.Outcome State Fault Refusal := writeReg who SYS_RESET (SYS_RESET_CORE.put w 1) s

end Sys2Proof.Machine
end

