-- ==== Sys2Proof/Machine/RowFerry.lean ====
section
/-! DEFINITION. What the commands of this family do: Ferry queues and DMA (09). -/
namespace Sys2Proof.Machine

/-- FQ_DATA_WRITE (R243): A write of FQn_DATA pushes a word without END, or ends with a bus error when there is no room. -/
def execFqDataWrite (who : Initiator) (q : Fin 512) (w : Word) (s : State) : Host.Outcome State Fault Refusal := writeReg who (FQ_DATA q.val) (w) s
/-- FQ_TAG_WRITE (R243): A write of FQn_TAG pushes a word with END. -/
def execFqTagWrite (who : Initiator) (q : Fin 512) (w : Word) (s : State) : Host.Outcome State Fault Refusal := writeReg who (FQ_TAG q.val) (w) s
/-- FQ_DATA_READ (R243): A read of FQn_DATA pops a word and loads its tags into FQn_TAG. -/
def execFqDataRead (who : Initiator) (q : Fin 512) (s : State) : Host.Outcome State Fault Refusal := readReg who (FQ_DATA q.val) s
/-- FERRY_FLUSH (R245): A write of FERRY_FLUSH empties a queue, leaving a terminator for a cut head packet and discarding an open tail. -/
def execFerryFlush (who : Initiator) (w : Word) (s : State) : Host.Outcome State Fault Refusal := writeReg who FERRY_FLUSH (w) s
/-- FERRY_Q_CTL_FLUSH (R245): FLUSH in FERRY_Q_CTL flushes the queue selected by FERRY_SEL. -/
def execFerryQCtlFlush (who : Initiator) (w : Word) (s : State) : Host.Outcome State Fault Refusal := writeReg who FERRY_Q_CTL (FERRY_Q_CTL_FLUSH.put w 1) s
/-- SWITCH_PORT_TRANSMIT (R249): P6 or P7 takes a complete packet round robin from its queues and sends it into the switch, or discards a bad one. -/
def execSwitchPortTransmit (p : Fin 2) (s : State) : Host.Outcome State Fault Refusal := coreOn (switchPortTransmit (6 + p.val)) s
/-- DMA_START (R260): DMAn_CTL START starts an idle or halted channel at DMAn_NEXT. -/
def execDmaStart (who : Initiator) (ch : Fin 32) (w : Word) (s : State) : Host.Outcome State Fault Refusal := writeReg who (DMA_CTL ch.val) (DMA_CTL_START.put w 1) s
/-- ABORT (R260): DMAn_CTL ABORT halts a running or waiting channel. -/
def execAbort (who : Initiator) (ch : Fin 32) (w : Word) (s : State) : Host.Outcome State Fault Refusal := writeReg who (DMA_CTL ch.val) (DMA_CTL_ABORT.put w 1) s
/-- DESCRIPTOR_FETCH (R254): A channel fetches and checks a descriptor, halting with DESC on any violation. -/
def execDescriptorFetch (ch : Fin 32) (s : State) : Host.Outcome State Fault Refusal := coreOn (descriptorFetch ch.val) s
/-- SEGMENT_TRANSFER (R251): A channel that wins a buffer region reads a segment and writes it, reshuffling as its mode gives. -/
def execSegmentTransfer (ch : Fin 32) (s : State) : Host.Outcome State Fault Refusal := coreOn (segmentTransfer ch.val) s
/-- BURST_GRANT (R257): A pending request is granted one burst when the channel wins a region. -/
def execBurstGrant (ch : Fin 32) (s : State) : Host.Outcome State Fault Refusal := coreOn (burstGrant ch.val) s
/-- DREQ (R257): A DREQ input from the sound asserts or withdraws a level request. -/
def execDreq (k : Fin 8) (on : Bool) (s : State) : Host.Outcome State Fault Refusal := chipOn (fun s => s.inputEdge (0xD0 + k.val) on (dreqLevel k.val)) s
/-- DESCRIPTOR_COMPLETE (R255): A descriptor completes: writes land, status is written back, NOTIFY and LAST act, and the next descriptor is fetched. -/
def execDescriptorComplete (ch : Fin 32) (late : Bool) (s : State) : Host.Outcome State Fault Refusal := coreOn (descriptorComplete ch.val late) s

end Sys2Proof.Machine
end

