-- ==== Sys2Proof/Machine/RowHm.lean ====
section
/-! DEFINITION. What the commands of this family do: The harbourmaster's commands (15, R411 to R427); m is the inbound mailbox of the request. -/
namespace Sys2Proof.Machine

/-- IDENTIFY (R417): IDENTIFY answers SYS_ID, the firmware version and the security state. -/
def execIdentify (m : Fin 16) (s : State) : Host.Outcome State Fault Refusal := coreOn (hmCommand m.val 0x01 cIdentify) s
/-- ECHO (R417): ECHO answers with its request words. -/
def execEcho (m : Fin 16) (s : State) : Host.Outcome State Fault Refusal := coreOn (hmCommand m.val 0x02 cEcho) s
/-- RESET (R418): The RESET command performs a reset of the named scope, answering before or after it. -/
def execReset (m : Fin 16) (s : State) : Host.Outcome State Fault Refusal := coreOn (hmCommand m.val 0x03 cReset) s
/-- RESET_BEGIN (R418): A posted CHIP, CORE or CAUSEWAY reset begins at the response's release or 1 ms after it. -/
def execResetBegin (m : Fin 16) (s : State) : Host.Outcome State Fault Refusal := coreOn (resetBegin m.val) s
/-- MB_ABORT (R416): ABORT ends a long command at its next abort point, or answers LATE or NOT_FOUND. -/
def execMbAbort (m : Fin 16) (s : State) : Host.Outcome State Fault Refusal := coreOn (hmCommand m.val 0x04 cAbort) s
/-- SECURITY_SET (R423): SECURITY_SET stores ENFORCE and a public key in MRAM. -/
def execSecuritySet (m : Fin 16) (s : State) : Host.Outcome State Fault Refusal := coreOn (hmCommand m.val 0x05 cSecuritySet) s
/-- IMAGE_LOAD (R421): IMAGE_LOAD reads, checks and places an image of its type. -/
def execImageLoad (m : Fin 16) (ext : Option (List (BitVec 8))) (s : State) : Host.Outcome State Fault Refusal := fwOn (hmCommand m.val 0x10 (cImageLoad (ext.map fun l => l.map BitVec.toNat))) s
/-- IMAGE_VERIFY (R422): IMAGE_VERIFY reads and checks an image without placing it. -/
def execImageVerify (m : Fin 16) (ext : Option (List (BitVec 8))) (s : State) : Host.Outcome State Fault Refusal := fwOn (hmCommand m.val 0x11 (cImageVerify (ext.map fun l => l.map BitVec.toNat))) s
/-- MRAM_STORE (R485): MRAM_STORE writes an image into an MRAM slot atomically. -/
def execMramStore (m : Fin 16) (ext : Option (List (BitVec 8))) (s : State) : Host.Outcome State Fault Refusal := fwOn (hmCommand m.val 0x12 (cMramStore (ext.map fun l => l.map BitVec.toNat))) s
/-- MRAM_ERASE (R417): MRAM_ERASE empties an MRAM slot. -/
def execMramErase (m : Fin 16) (s : State) : Host.Outcome State Fault Refusal := coreOn (hmCommand m.val 0x13 cMramErase) s
/-- MRAM_LIST (R417): MRAM_LIST answers the type, version, target and length of a slot. -/
def execMramList (m : Fin 16) (s : State) : Host.Outcome State Fault Refusal := coreOn (hmCommand m.val 0x14 cMramList) s
/-- BERTH_CREATE (R424): BERTH_CREATE writes a berth's engines and queues. -/
def execBerthCreate (m : Fin 16) (s : State) : Host.Outcome State Fault Refusal := coreOn (hmCommand m.val 0x20 cBerthCreate) s
/-- BERTH_ASSIGN (R424): BERTH_ASSIGN writes a berth's binding. -/
def execBerthAssign (m : Fin 16) (s : State) : Host.Outcome State Fault Refusal := coreOn (hmCommand m.val 0x21 cBerthAssign) s
/-- BERTH_START (R424): BERTH_START starts a berth, answering STATE if refused. -/
def execBerthStart (m : Fin 16) (s : State) : Host.Outcome State Fault Refusal := coreOn (hmCommand m.val 0x22 cBerthStart) s
/-- BERTH_STOP (R425): BERTH_STOP notifies a berth and waits GRACE for it to stop. -/
def execBerthStop (m : Fin 16) (s : State) : Host.Outcome State Fault Refusal := coreOn (hmCommand m.val 0x23 cBerthStop) s
/-- GRACE_EXPIRY (R425): A berth not stopped within GRACE is reset and RESET_USED is set. -/
def execGraceExpiry (m : Fin 16) (s : State) : Host.Outcome State Fault Refusal := coreOn (graceExpiry m.val) s
/-- BERTH_RELOAD (R426): BERTH_RELOAD checks a QE_CODE image, stops the berth, places the image and restarts it. -/
def execBerthReload (m : Fin 16) (ext : Option (List (BitVec 8))) (s : State) : Host.Outcome State Fault Refusal := fwOn (hmCommand m.val 0x24 (cBerthReload (ext.map fun l => l.map BitVec.toNat))) s
/-- TIDE_VALIDATE (R417): TIDE_VALIDATE validates a tide bank and answers its result. -/
def execTideValidate (m : Fin 16) (s : State) : Host.Outcome State Fault Refusal := coreOn (hmCommand m.val 0x30 cTideValidate) s
/-- TIDE_SWAP (R417): TIDE_SWAP arms a swap at the given instant and answers after it. -/
def execTideSwap (m : Fin 16) (s : State) : Host.Outcome State Fault Refusal := coreOn (hmCommand m.val 0x31 cTideSwap) s
/-- TIDE_START (R417): TIDE_START writes the base and starts the tide engine. -/
def execTideStart (m : Fin 16) (s : State) : Host.Outcome State Fault Refusal := coreOn (hmCommand m.val 0x32 cTideStart) s
/-- TIDE_STOP (R417): TIDE_STOP stops the tide engine. -/
def execTideStop (m : Fin 16) (s : State) : Host.Outcome State Fault Refusal := coreOn (hmCommand m.val 0x33 cTideStop) s
/-- PORT_SET (R417): PORT_SET writes a port's configuration and restarts negotiation. -/
def execPortSet (m : Fin 16) (s : State) : Host.Outcome State Fault Refusal := coreOn (hmCommand m.val 0x40 cPortSet) s
/-- PORT_STATUS (R417): PORT_STATUS answers a port's link, status and preemption status. -/
def execPortStatus (m : Fin 16) (s : State) : Host.Outcome State Fault Refusal := coreOn (hmCommand m.val 0x41 cPortStatus) s
/-- STREAM_SET (R417): STREAM_SET writes a stream context through the STREAM window. -/
def execStreamSet (m : Fin 16) (s : State) : Host.Outcome State Fault Refusal := coreOn (hmCommand m.val 0x42 cStreamSet) s
/-- STREAM_GET (R417): STREAM_GET answers a stream context's counters. -/
def execStreamGet (m : Fin 16) (s : State) : Host.Outcome State Fault Refusal := coreOn (hmCommand m.val 0x43 cStreamGet) s
/-- TIME_GET (R417): TIME_GET answers the time, state and increment. -/
def execTimeGet (m : Fin 16) (s : State) : Host.Outcome State Fault Refusal := coreOn (hmCommand m.val 0x50 cTimeGet) s
/-- TIME_CORRECT (R417): TIME_CORRECT writes correction operands and TIME_CMD and answers TIME_STATUS. -/
def execTimeCorrect (m : Fin 16) (s : State) : Host.Outcome State Fault Refusal := coreOn (hmCommand m.val 0x51 cTimeCorrect) s
/-- TIME_STATE (R417): TIME_STATE writes TIME_CTL and TIME_WDOG. -/
def execTimeState (m : Fin 16) (s : State) : Host.Outcome State Fault Refusal := coreOn (hmCommand m.val 0x52 cTimeState) s
/-- AXIS_MOVE (R417): AXIS_MOVE writes an axis's target and profile and starts it, answering when idle. -/
def execAxisMove (m : Fin 16) (s : State) : Host.Outcome State Fault Refusal := coreOn (hmCommand m.val 0x60 cAxisMove) s
/-- AXIS_HOME (R417): AXIS_HOME starts homing and answers when it ends. -/
def execAxisHome (m : Fin 16) (s : State) : Host.Outcome State Fault Refusal := coreOn (hmCommand m.val 0x61 cAxisHome) s
/-- AXIS_STOP (R415): AXIS_STOP writes STOP or ESTOP to an axis, always accepted. -/
def execAxisStop (m : Fin 16) (s : State) : Host.Outcome State Fault Refusal := coreOn (hmCommand m.val 0x62 cAxisStop) s
/-- GROUP_MOVE (R417): GROUP_MOVE starts a group with its members' targets and answers at its end. -/
def execGroupMove (m : Fin 16) (s : State) : Host.Outcome State Fault Refusal := coreOn (hmCommand m.val 0x63 cGroupMove) s
/-- LOG_FREEZE (R417): The LOG_FREEZE command freezes the logbook. -/
def execLogFreeze (m : Fin 16) (s : State) : Host.Outcome State Fault Refusal := coreOn (hmCommand m.val 0x70 cLogFreeze) s
/-- LOG_READ (R417): The LOG_READ command answers up to 15 record words. -/
def execLogRead (m : Fin 16) (s : State) : Host.Outcome State Fault Refusal := coreOn (hmCommand m.val 0x71 cLogRead) s
/-- LOG_THAW (R417): The LOG_THAW command ends the core-side freeze. -/
def execLogThaw (m : Fin 16) (s : State) : Host.Outcome State Fault Refusal := coreOn (hmCommand m.val 0x72 cLogThaw) s
/-- TEST_PATTERN (R449): TEST_PATTERN writes a test link's control word. -/
def execTestPattern (m : Fin 16) (s : State) : Host.Outcome State Fault Refusal := coreOn (hmCommand m.val 0x80 cTestPattern) s
/-- TEST_RESULT (R417): TEST_RESULT answers a test link's checker state and error count. -/
def execTestResult (m : Fin 16) (s : State) : Host.Outcome State Fault Refusal := coreOn (hmCommand m.val 0x81 cTestResult) s
/-- LONG_COMMAND_END (R414): A long command ends and its response is posted in the matching outbound mailbox. -/
def execLongCommandEnd (m : Fin 16) (s : State) : Host.Outcome State Fault Refusal := fwOn (longCommandEnd m.val) s

end Sys2Proof.Machine
end

