-- ==== Sys2Proof/Machine/RowHost.lean ====
section
/-! DEFINITION. What the commands of this family do: The host causeway (14). -/
namespace Sys2Proof.Machine

/-- PCIE_MWR (R377): An inbound PCIe memory write is split and posted as its target region requires. -/
def execPcieMwr (bar : Fin 6) (dw : Nat) (dws : List (BitVec 4 × Word)) (ep : Tlp Bool) (s : State) : Host.Outcome State Fault Refusal := hostOn (fun s => s.tlpIn ep.flaw ⟨.memWrite, (s.barOf bar.val).1 + 4 * dw, 4 * dws.length⟩ (pcieMwr bar.val dw (dws.map fun d => (d.1.toNat, d.2.toNat)) ep.val)) s
/-- PCIE_MRD (R377): An inbound PCIe memory read is issued after earlier writes, or completed with Completer Abort. -/
def execPcieMrd (bar : Fin 6) (dw : Nat) (bes : Tlp (List (BitVec 4))) (s : State) : Host.Outcome State Fault Refusal := hostOn (fun s => s.tlpIn bes.flaw ⟨.memRead, (s.barOf bar.val).1 + 4 * dw, 4 * bes.val.length⟩ (pcieMrd bar.val dw (bes.val.map BitVec.toNat))) s
/-- PCIE_ATOMICOP (R377): An inbound PCIe AtomicOp is performed on PIM or completed with an error. -/
def execPcieAtomicop (bar : Fin 6) (dw bytes : Nat) (kind : Tlp AtomicKind) (x y : BitVec 64) (s : State) : Host.Outcome State Fault Refusal := hostOn (fun s => s.tlpIn kind.flaw ⟨.atomicOp, (s.barOf bar.val).1 + 4 * dw, bytes⟩ (pcieAtomicop bar.val dw bytes kind.val x.toNat y.toNat)) s
/-- UNSUPPORTED_REQUEST (R377): An inbound PCIe request the endpoint does not support is answered Unsupported Request. -/
def execUnsupportedRequest (kind : UrKind) (s : State) : Host.Outcome State Fault Refusal := hostOn (unsupportedRequest kind) s
/-- PCIE_COMPLETION (R373): Read data arrives from the interconnect and the endpoint sends its completions. -/
def execPcieCompletion (s : State) : Host.Outcome State Fault Refusal := hostOn (fun s => s.serveNext 0) s
/-- MSIX_MESSAGE (R378): A vector becoming pending, or its conditions coming to hold, sends one MSI-X message. -/
def execMsixMessage (v : Fin 64) (s : State) : Host.Outcome State Fault Refusal := hostOn (msixMessage v.val) s
/-- HOSTIF_MSIX_REARM (R378): A write of a vector number to HOSTIF_MSIX_REARM resends it if pending and unmasked. -/
def execHostifMsixRearm (who : Initiator) (w : Word) (s : State) : Host.Outcome State Fault Refusal := writeReg who HOSTIF_MSIX_REARM (w) s
/-- PCIE_INTERFACE_RESET (R381): A hot reset, link down or Function Level Reset resets the PCIe interface only. -/
def execPcieInterfaceReset (kind : PcieReset) (s : State) : Host.Outcome State Fault Refusal := anyTime (pcieInterfaceReset kind) s
/-- OUTBOUND_REQUEST (R396): An access to an outbound window is sent as a PCIe request, or ends with a bus error. -/
def execOutboundRequest (who : Initiator) (a : Word) (op : BusOp) (s : State) : Host.Outcome State Fault Refusal := hostOn (outboundRequest who a.toNat op) s
/-- OUTBOUND_COMPLETION (R396): A completion for an outbound read arrives and is delivered, or is unexpected and sets LATE_CPL. -/
def execOutboundCompletion (who : Initiator) (a : Word) (fin : Tlp OutEnd) (s : State) : Host.Outcome State Fault Refusal := hostOn (fun s => s.tlpIn fin.flaw ⟨.completion, a.toNat, 0⟩ (outboundCompletion who a.toNat (outEnd fin.val))) s
/-- COMPLETION_TIMEOUT (R380): An outbound read unanswered within 4,096 core cycles ends with a bus error. -/
def execCompletionTimeout (who : Initiator) (a : Word) (s : State) : Host.Outcome State Fault Refusal := chipOn (completionTimeout who a.toNat) s
/-- OUT_STARVED (R397): An outbound request not accepted within 4,096 core cycles ends with a bus error and sets OUT_STARVED. -/
def execOutStarved (who : Initiator) (a : Word) (s : State) : Host.Outcome State Fault Refusal := chipOn (outStarved who a.toNat) s
/-- HB_READ_CYCLE (R385): A host bus read cycle ends done with data, in retry with a delayed read, or in error. -/
def execHbReadCycle (a : Word) (ben : BitVec 4) (lockn : Cyc Bool) (s : State) : Host.Outcome State Fault Refusal := bankOn 0 (hbReadCycle a.toNat ben.toNat lockn.val lockn.quick) s
/-- HB_WRITE_CYCLE (R385): A host bus write cycle is posted, delayed or retried. -/
def execHbWriteCycle (a : Word) (ben : BitVec 4) (data : Word) (lockn : Bool) (s : State) : Host.Outcome State Fault Refusal := bankOn 0 (hbWriteCycle a.toNat ben.toNat data.toNat lockn) s
/-- HB_CONTROL_PAGE (R383): An access at the top 16 bytes of the window reaches HOSTIF_HB_PAGE within its cycle. -/
def execHbControlPage (a : Word) (write : Bool) (ben : BitVec 4) (data : Word) (s : State) : Host.Outcome State Fault Refusal := bankOn 0 (hbControlPage a.toNat write ben.toNat data.toNat) s
/-- LOCK_BROKEN (R387): A host bus lock held for 2 µs is broken, releasing the target and erroring later accesses. -/
def execLockBroken (s : State) : Host.Outcome State Fault Refusal := chipOn lockBroken s
/-- QSPI_WRITE (R390): A QSPI WRITE frame posts 1 to 16 words, or is discarded with OVERRUN. -/
def execQspiWrite (a : Word) (ws : List Word) (s : State) : Host.Outcome State Fault Refusal := bankOn 6 (qspiWrite a.toNat (ws.map BitVec.toNat)) s
/-- QSPI_READ (R388): A QSPI READ frame returns a word with READY, RETRY or ERROR status. -/
def execQspiRead (a : Cyc Word) (s : State) : Host.Outcome State Fault Refusal := bankOn 6 (qspiRead a.val.toNat a.quick) s
/-- QSPI_STATUS (R389): A QSPI STATUS frame returns the interface state. -/
def execQspiStatus (s : State) : Host.Outcome State Fault Refusal := bankOn 6 qspiStatus s
/-- QSPI_ID (R388): A QSPI ID frame returns SYS_ID. -/
def execQspiId (s : State) : Host.Outcome State Fault Refusal := bankOn 6 qspiId s
/-- QST_BADCMD (R388): A QSPI frame with an unknown command byte is discarded and sets QST_BADCMD. -/
def execQstBadcmd (code : BitVec 8) (s : State) : Host.Outcome State Fault Refusal := bankOn 6 (qstBadcmd code.toNat) s
/-- DELAYED_RESULT (R391): The result of a delayed read or write arrives and is held for the matching reissue. -/
def execDelayedResult (k : Fin 2) (s : State) : Host.Outcome State Fault Refusal := hostOn (fun s => s.serveNext (k.val + 1)) s
/-- DELAYED_EXPIRY (R392): A delayed transaction expires 64 µs after its result and is discarded, kept in CW_LOST_DATA or failed. -/
def execDelayedExpiry (k : Fin 2) (s : State) : Host.Outcome State Fault Refusal := hostOn (delayedExpiry (k.val + 1)) s
/-- PREFETCH_EXPIRY (R393): Prefetched lines are discarded 64 µs after they were fetched. -/
def execPrefetchExpiry (k : Fin 2) (s : State) : Host.Outcome State Fault Refusal := hostOn (prefetchExpiry (k.val + 1)) s
/-- POSTED_WRITE_FAILURE (R394): A posted write failing at its target is logged and sets the interface's read fence. -/
def execPostedWriteFailure (k : Fin 3) (s : State) : Host.Outcome State Fault Refusal := hostOn (postedWriteFailure k.val) s
/-- CLEAR (R394): CLEAR in CW_PWLOG_CTL frees every posted-write error log entry. -/
def execClear (who : Initiator) (w : Word) (s : State) : Host.Outcome State Fault Refusal := writeReg who CW_PWLOG_CTL (CW_PWLOG_CTL_CLEAR.put w 1) s
/-- PCIE_PERSTN_RISING (R482): PCIE_PERSTN rises and link training starts within 1 ms. -/
def execPciePerstnRising (s : State) : Host.Outcome State Fault Refusal := anyTime pciePerstnRising s
/-- PCIE_LINK_UP (R375): PCIe link training completes at the highest common speed and width, and LINK_UP, SPEED and WIDTH are set. -/
def execPcieLinkUp (speed : Fin 4) (width : Fin 4) (s : State) : Host.Outcome State Fault Refusal := hostOn (pcieLinkUp speed.val width.val) s
/-- CONFIGURATION_WRITE (R378): A host configuration write sets Bus Master Enable, MSI-X enable, the function mask or other configuration space fields. -/
def execConfigurationWrite (f : CfgField) (s : State) : Host.Outcome State Fault Refusal := hostOn (configurationWrite f) s

end Sys2Proof.Machine
end

