-- ==== Sys2Proof/Machine/RowLh.lean ====
section
/-! DEFINITION. What the commands of this family do: The lighthouse, its port, safe state and watchdogs (16, R440 to R447, R470). -/
namespace Sys2Proof.Machine

/-- LH_SAFEN (R441): A filtered fall or rise of LH_SAFEN enters or leaves safe state. -/
def execLhSafen (low : Bool) (s : State) : Host.Outcome State Fault Refusal := powerOn (lhSafen low) s
/-- SAFE_REQ (R441): A write of SAFE_REQ in LH_CTL sets LATCH. -/
def execSafeReq (who : Initiator) (w : Word) (s : State) : Host.Outcome State Fault Refusal := writeReg who LH_CTL (LH_CTL_SAFE_REQ.put w 1) s
/-- LH_CTL_RELEASE (R441): RELEASE in LH_CTL clears LATCH while HOST_RELEASE is set. -/
def execLhCtlRelease (who : Initiator) (w : Word) (s : State) : Host.Outcome State Fault Refusal := writeReg who LH_CTL (LH_CTL_RELEASE.put w 1) s
/-- SAFE_STATE_ENTRY (R442): Safe state takes effect on bridges, steps, axes, triggers and pilot pins within 2 µs. -/
def execSafeStateEntry (s : State) : Host.Outcome State Fault Refusal := powerOn safeStateEntry s
/-- SAFE_STATE_RELEASE (R441): Safe state ends and triggers and pilot pins return to their states. -/
def execSafeStateRelease (s : State) : Host.Outcome State Fault Refusal := powerOn safeStateRelease s
/-- LH_WATCHDOG_EXPIRY (R443): A lighthouse watchdog expires, raising its code and taking its ACTION. -/
def execLhWatchdogExpiry (k : Fin 25) (s : State) : Host.Outcome State Fault Refusal := powerOn (lhWatchdogExpiry k.val) s
/-- LH_KICK (R444): A write of LH_KICK restarts a lighthouse watchdog, or ends with a bus error. -/
def execLhKick (who : Initiator) (w : Word) (s : State) : Host.Outcome State Fault Refusal := writeReg who LH_KICK (w) s
/-- LH_FRAME_REFUSED (R446): A lighthouse port frame with a wrong CRC or length, or arriving while a request is pending, is not executed. -/
def execLhFrameRefused (f : LhFrame) (s : State) : Host.Outcome State Fault Refusal := powerOn (lhFrameRefused f.clocks (f.bytes.map BitVec.toNat)) s
/-- LH_NOP (R447): The lighthouse port NOP command does nothing. -/
def execLhNop (a : BitVec 16) (data : Word) (s : State) : Host.Outcome State Fault Refusal := powerOn (lhNop a.toNat data.toNat) s
/-- READ_LH (R447): READ_LH reads a LIGHTHOUSE register. -/
def execReadLh (a : BitVec 16) (data : Word) (s : State) : Host.Outcome State Fault Refusal := powerOn (readLh a.toNat data.toNat) s
/-- WRITE_LH (R447): WRITE_LH writes a LIGHTHOUSE register. -/
def execWriteLh (a : BitVec 16) (data : Word) (s : State) : Host.Outcome State Fault Refusal := powerOn (writeLh a.toNat data.toNat) s
/-- READ_MB (R447): READ_MB reads a MAILBOX register through the core island. -/
def execReadMb (a : BitVec 16) (data : Word) (s : State) : Host.Outcome State Fault Refusal := powerOn (readMb a.toNat data.toNat) s
/-- WRITE_MB (R447): WRITE_MB writes a MAILBOX register as sender class 0x3. -/
def execWriteMb (a : BitVec 16) (data : Word) (s : State) : Host.Outcome State Fault Refusal := powerOn (writeMb a.toNat data.toNat) s
/-- LH_SAFE (R447): The lighthouse port SAFE command sets LATCH. -/
def execLhSafe (a : BitVec 16) (data : Word) (s : State) : Host.Outcome State Fault Refusal := powerOn (lhSafe a.toNat data.toNat) s
/-- LH_RELEASE (R447): The lighthouse port RELEASE command clears LATCH. -/
def execLhRelease (a : BitVec 16) (data : Word) (s : State) : Host.Outcome State Fault Refusal := powerOn (lhRelease a.toNat data.toNat) s
/-- LH_CHIP_RESET (R447): The lighthouse port CHIP_RESET command with its key requests a CHIP reset. -/
def execLhChipReset (a : BitVec 16) (data : Word) (s : State) : Host.Outcome State Fault Refusal := powerOn (lhChipReset a.toNat data.toNat) s
/-- LH_LOG_FREEZE (R447): The lighthouse port LOG_FREEZE freezes the logbook within 1 ms. -/
def execLhLogFreeze (a : BitVec 16) (data : Word) (s : State) : Host.Outcome State Fault Refusal := powerOn (lhLogFreeze a.toNat data.toNat) s
/-- LH_LOG_THAW (R447): The lighthouse port LOG_THAW ends its own freeze. -/
def execLhLogThaw (a : BitVec 16) (data : Word) (s : State) : Host.Outcome State Fault Refusal := powerOn (lhLogThaw a.toNat data.toNat) s
/-- LH_LOG_READ (R447): The lighthouse port LOG_READ reads a record word from MRAM. -/
def execLhLogRead (a : BitVec 16) (data : Word) (s : State) : Host.Outcome State Fault Refusal := powerOn (lhLogRead a.toNat data.toNat) s
/-- LH_FREEZE_TIMEOUT (R447): If MRAM is not current 1 ms after a lighthouse port LOG_FREEZE, the freeze holds at that instant with MRAM as it stands. -/
def execLhFreezeTimeout (s : State) : Host.Outcome State Fault Refusal := powerOn lhFreezeTimeout s
/-- XTAL_SWITCH (R470): After 1 s of crystal oscillation lighthouse timing switches to the crystal, and back when it stops. -/
def execXtalSwitch (on : Bool) (s : State) : Host.Outcome State Fault Refusal := powerOn (xtalSwitch on) s

end Sys2Proof.Machine
end

