-- ==== Sys2Proof/Machine/RowLog.lean ====
section
/-! DEFINITION. What the commands of this family do: The logbook (16, R431 to R439). -/
namespace Sys2Proof.Machine

/-- LOG_EVENT (R431): A write of LOG_EVENT raises a firmware logbook event of code 0x80 to 0xFF. -/
def execLogEvent (who : Initiator) (w : Word) (s : State) : Host.Outcome State Fault Refusal := writeReg who LOG_EVENT (w) s
/-- RECORD_WRITE (R437): A changed record is written to both MRAM copies within 10 ms. -/
def execRecordWrite (c : BitVec 8) (s : State) : Host.Outcome State Fault Refusal := chipOn (recordWrite c.toNat) s
/-- BREAKWATER_WINDOW_END (R436): A breakwater window closes after BW_WIN ms. -/
def execBreakwaterWindowEnd (c : BitVec 8) (s : State) : Host.Outcome State Fault Refusal := chipOn (breakwaterWindowEnd c.toNat) s
/-- FREEZE (R438): A write of FREEZE in LOG_CTL starts or ends the core-side freeze. -/
def execFreeze (who : Initiator) (w : Word) (s : State) : Host.Outcome State Fault Refusal := writeReg who LOG_CTL (w) s
/-- FROZEN (R438): Once every changed record is in MRAM the freeze holds and FROZEN reads 1. -/
def execFrozen (s : State) : Host.Outcome State Fault Refusal := chipOn frozen s
/-- STAGED_EVENTS_APPLY (R438): When the last freeze ends the staged events are applied in order. -/
def execStagedEventsApply (s : State) : Host.Outcome State Fault Refusal := chipOn stagedEventsApply s
/-- LOG_CMD_READ (R439): LOG_CMD READ loads a record's working copy into LOG_REC0 to LOG_REC27. -/
def execLogCmdRead (who : Initiator) (w : Word) (s : State) : Host.Outcome State Fault Refusal := writeReg who LOG_CMD (LOG_CMD_OP.put w 1) s
/-- WRITE_CFG (R439): LOG_CMD WRITE_CFG writes LOG_REC7 to LOG_REC9 into a record. -/
def execWriteCfg (who : Initiator) (w : Word) (s : State) : Host.Outcome State Fault Refusal := writeReg who LOG_CMD (LOG_CMD_OP.put w 2) s
/-- LOG_CMD_CLEAR (R439): LOG_CMD CLEAR resets a record's counts and bins, keeping its configuration. -/
def execLogCmdClear (who : Initiator) (w : Word) (s : State) : Host.Outcome State Fault Refusal := writeReg who LOG_CMD (LOG_CMD_OP.put w 3) s
/-- LOG_OPERATION_END (R439): A LOG_CMD operation ends within 1 µs and BUSY clears. -/
def execLogOperationEnd (s : State) : Host.Outcome State Fault Refusal := chipOn logOperationEnd s
/-- OPSEC_SAVE (R435): Every 16 s the lighthouse writes the operating-second count to MRAM. -/
def execOpsecSave (s : State) : Host.Outcome State Fault Refusal := powerOn opsecSave s
/-- OPERATING_SECOND (R435): Each second of the lighthouse clock with VIN in range raises LH_OPSEC by 1, saturating. -/
def execOperatingSecond (s : State) : Host.Outcome State Fault Refusal := powerOn operatingSecond s

end Sys2Proof.Machine
end

