-- ==== Sys2Proof/Machine/RowMail.lean ====
section
/-! DEFINITION. What the commands of this family do: Mailboxes and doorbells (15, R402 to R410). -/
namespace Sys2Proof.Machine

/-- MAILBOX_DATA_WRITE (R403): A write to a mailbox data word claims or fills the mailbox, or is rejected. -/
def execMailboxDataWrite (who : Initiator) (m : Fin 32) (k : Fin 16) (w : Word) (s : State) : Host.Outcome State Fault Refusal := writeReg who (MB_DATA m.val k.val) (w) s
/-- GO (R404): GO fills a mailbox, stamps it and queues its arrival or sets RESPONSE. -/
def execGo (who : Initiator) (m : Fin 32) (w : Word) (s : State) : Host.Outcome State Fault Refusal := writeReg who (MB_CTL m.val) (MB_CTL_GO.put w 1) s
/-- RELEASE (R404): RELEASE clears FULL of a mailbox, raising SOFT6 for an outbound one. -/
def execRelease (who : Initiator) (m : Fin 32) (w : Word) (s : State) : Host.Outcome State Fault Refusal := writeReg who (MB_CTL m.val) (MB_CTL_RELEASE.put w 1) s
/-- CLAIM_LAPSED (R403): A claim lapses MB_CLAIM_TIME after the owner's last write and sets CLAIM_LAPSED. -/
def execClaimLapsed (m : Fin 32) (s : State) : Host.Outcome State Fault Refusal := coreOn (claimLapsed m.val) s
/-- MB_ARRIVAL (R407): A harbourmaster read of MB_ARRIVAL pops the head of the arrival queue. -/
def execMbArrival (who : Initiator) (s : State) : Host.Outcome State Fault Refusal := readReg who MB_ARRIVAL s
/-- MB_DB_IN_SET (R410): A write of MB_DB_IN_SET sets inbound doorbell bits and raises SOFT5. -/
def execMbDbInSet (who : Initiator) (w : Word) (s : State) : Host.Outcome State Fault Refusal := writeReg who MB_DB_IN_SET (w) s
/-- MB_DB_OUT_SET (R410): A write of MB_DB_OUT_SET sets outbound doorbell bits, which are interrupt sources. -/
def execMbDbOutSet (who : Initiator) (w : Word) (s : State) : Host.Outcome State Fault Refusal := writeReg who MB_DB_OUT_SET (w) s

end Sys2Proof.Machine
end

