-- ==== Sys2Proof/Machine/RowMotion.lean ====
section
/-! DEFINITION. What the commands of this family do: Motion profiles, homing and groups (11). -/
namespace Sys2Proof.Machine

/-- PROFILE_TICK (R295): Every 1 µs tick each axis and group updates its profile, issues steps and tests completion and limits. -/
def execProfileTick (s : State) : Host.Outcome State Fault Refusal := chipOn profileTick s
/-- AXIS_CMD_START (R299): AXn_CMD START starts a position or velocity move, or is refused with a reason. -/
def execAxisCmdStart (who : Initiator) (n : Fin 32) (w : Word) (s : State) : Host.Outcome State Fault Refusal := writeReg who (AX_CMD n.val) (AX_CMD_START.put w 1) s
/-- AXIS_CMD_STOP (R299): AXn_CMD STOP decelerates a moving or homing axis, or its group, to standstill. -/
def execAxisCmdStop (who : Initiator) (n : Fin 32) (w : Word) (s : State) : Host.Outcome State Fault Refusal := writeReg who (AX_CMD n.val) (AX_CMD_STOP.put w 1) s
/-- ESTOP (R299): AXn_CMD ESTOP decelerates at EDEC ignoring jerk. -/
def execEstop (who : Initiator) (n : Fin 32) (w : Word) (s : State) : Host.Outcome State Fault Refusal := writeReg who (AX_CMD n.val) (AX_CMD_ESTOP.put w 1) s
/-- HOME (R317): AXn_CMD HOME starts the homing method. -/
def execHome (who : Initiator) (n : Fin 32) (w : Word) (s : State) : Host.Outcome State Fault Refusal := writeReg who (AX_CMD n.val) (AX_CMD_HOME.put w 1) s
/-- ARM_NEXT (R303): AXn_CMD ARM_NEXT queues a next move, or in IDLE starts it. -/
def execArmNext (who : Initiator) (n : Fin 32) (w : Word) (s : State) : Host.Outcome State Fault Refusal := writeReg who (AX_CMD n.val) (AX_CMD_ARM_NEXT.put w 1) s
/-- AXIS_CMD_CLEAR (R299): AXn_CMD CLEAR returns a faulted axis to IDLE. -/
def execAxisCmdClear (who : Initiator) (n : Fin 32) (w : Word) (s : State) : Host.Outcome State Fault Refusal := writeReg who (AX_CMD n.val) (AX_CMD_CLEAR.put w 1) s
/-- GRP_START (R313): GRPg_CMD START starts a linear move or puts a cyclic group in RUNNING. -/
def execGrpStart (who : Initiator) (g : Fin 8) (w : Word) (s : State) : Host.Outcome State Fault Refusal := writeReg who (GRP_CMD g.val) (GRP_CMD_START.put w 1) s
/-- GRP_STOP (R314): GRPg_CMD STOP decelerates the group to standstill. -/
def execGrpStop (who : Initiator) (g : Fin 8) (w : Word) (s : State) : Host.Outcome State Fault Refusal := writeReg who (GRP_CMD g.val) (GRP_CMD_STOP.put w 1) s
/-- GRP_ESTOP (R314): GRPg_CMD ESTOP decelerates the group at its emergency deceleration. -/
def execGrpEstop (who : Initiator) (g : Fin 8) (w : Word) (s : State) : Host.Outcome State Fault Refusal := writeReg who (GRP_CMD g.val) (GRP_CMD_ESTOP.put w 1) s
/-- LATCH (R315): GRPg_CMD LATCH performs a MOTN on the buffer and offset in GRPg_SRC. -/
def execLatch (who : Initiator) (g : Fin 8) (w : Word) (s : State) : Host.Outcome State Fault Refusal := writeReg who (GRP_CMD g.val) (GRP_CMD_LATCH.put w 1) s
/-- GRP_CLEAR (R326): GRPg_CMD CLEAR returns a faulted group to IDLE. -/
def execGrpClear (who : Initiator) (g : Fin 8) (w : Word) (s : State) : Host.Outcome State Fault Refusal := writeReg who (GRP_CMD g.val) (GRP_CMD_CLEAR.put w 1) s
/-- AX_POS_LO_WRITE (R325): A write of AXn_POS_LO is held until AXn_POS_HI is written. -/
def execAxPosLoWrite (who : Initiator) (n : Fin 32) (w : Word) (s : State) : Host.Outcome State Fault Refusal := writeReg who (AX_POS_LO n.val) (w) s
/-- AX_POS_HI_WRITE (R322): A write of AXn_POS_HI loads both halves, redefining the position without moving the motor and clearing HOMED. -/
def execAxPosHiWrite (who : Initiator) (n : Fin 32) (w : Word) (s : State) : Host.Outcome State Fault Refusal := writeReg who (AX_POS_HI n.val) (w) s
/-- AX_POS_LO_READ (R325): A read of AXn_POS_LO latches the high word for the next read of AXn_POS_HI. -/
def execAxPosLoRead (who : Initiator) (n : Fin 32) (s : State) : Host.Outcome State Fault Refusal := readReg who (AX_POS_LO n.val) s
/-- RAW_INPUT_EDGE (R309): A raw edge of a limit or home input is timestamped and latches the commanded position. -/
def execRawInputEdge (n : Fin 32) (k : Fin 3) (level : Bool) (s : State) : Host.Outcome State Fault Refusal := chipOn (fun s => let s := s.pinSeen (32 * k.val + n.val) level; rawInputEdge n.val k.val (s.inputLevel (32 * k.val + n.val)) s) s
/-- DEBOUNCE_EXPIRY (R309): A raw level held for FILT microseconds becomes the filtered level. -/
def execDebounceExpiry (n : Fin 32) (k : Fin 3) (s : State) : Host.Outcome State Fault Refusal := chipOn (debounceExpiry n.val k.val) s

end Sys2Proof.Machine
end

