-- ==== Sys2Proof/Machine/RowPilot.lean ====
section
/-! DEFINITION. What the commands of this family do: Pilots (13). -/
namespace Sys2Proof.Machine

/-- DRIVE (R356): The pilot DRIVE instruction drives the OUT group from SHIFT, by exchange, or with zeros or ones. -/
def execDrive (n : Fin 32) (ext clash : BitVec 8) (parity : Bool) (s : State) : Host.Outcome State Fault Refusal := chipOn (fun s => s.pilotStep n.val 1 ext.toNat clash.toNat parity (driveOut n.val) (driveBody n.val)) s
/-- SAMPLE (R356): The pilot SAMPLE instruction inserts the IN group into SHIFT or WA. -/
def execSample (n : Fin 32) (ext clash : BitVec 8) (parity : Bool) (s : State) : Host.Outcome State Fault Refusal := chipOn (fun s => s.pilotStep n.val 2 ext.toNat clash.toNat parity noDrive (sampleBody n.val)) s
/-- LOAD (R360): The pilot LOAD instruction pops a word from the transmit queue, waiting or underrunning when empty. -/
def execLoad (n : Fin 32) (ext clash : BitVec 8) (parity : Bool) (s : State) : Host.Outcome State Fault Refusal := chipOn (fun s => s.pilotStep n.val 3 ext.toNat clash.toNat parity noDrive (loadBody n.val)) s
/-- STORE (R360): The pilot STORE instruction pushes a word to the receive queue, waiting or overrunning when full. -/
def execStore (n : Fin 32) (ext clash : BitVec 8) (parity : Bool) (s : State) : Host.Outcome State Fault Refusal := chipOn (fun s => s.pilotStep n.val 4 ext.toNat clash.toNat parity noDrive (storeBody n.val)) s
/-- AWAIT (R358): The pilot AWAIT instruction begins waiting for a pin condition, timer or KICK. -/
def execAwait (n : Fin 32) (ext clash : BitVec 8) (parity : Bool) (s : State) : Host.Outcome State Fault Refusal := chipOn (fun s => s.pilotStep n.val 5 ext.toNat clash.toNat parity noDrive (awaitBody n.val)) s
/-- COUNT (R356): The pilot COUNT instruction decrements WA or WB or tests BCNT and chooses LOOP or NEXT. -/
def execCount (n : Fin 32) (ext clash : BitVec 8) (parity : Bool) (s : State) : Host.Outcome State Fault Refusal := chipOn (fun s => s.pilotStep n.val 6 ext.toNat clash.toNat parity noDrive (countBody n.val)) s
/-- SIGNAL (R356): The pilot SIGNAL instruction raises a DMA request, PSIG events or the SIG flag. -/
def execSignal (n : Fin 32) (ext clash : BitVec 8) (parity : Bool) (s : State) : Host.Outcome State Fault Refusal := chipOn (fun s => s.pilotStep n.val 7 ext.toNat clash.toNat parity noDrive (signalBody n.val)) s
/-- MOVE (R356): The pilot MOVE instruction copies between registers, constants and pins. -/
def execMove (n : Fin 32) (ext clash : BitVec 8) (parity : Bool) (s : State) : Host.Outcome State Fault Refusal := chipOn (fun s => s.pilotStep n.val 8 ext.toNat clash.toNat parity (moveOut n.val) (moveBody n.val)) s
/-- AWAIT_COMPLETE (R358): The awaited condition holds and the pilot completes at the next pilot clock. -/
def execAwaitComplete (n : Fin 32) (ext : List (BitVec 8)) (s : State) : Host.Outcome State Fault Refusal := chipOn (awaitComplete n.val (ext.map BitVec.toNat)) s
/-- PILOT_QUEUE_WAIT_END (R360): A waiting LOAD or STORE finds its word or room and completes. -/
def execPilotQueueWaitEnd (n : Fin 32) (s : State) : Host.Outcome State Fault Refusal := chipOn (pilotQueueWaitEnd n.val) s
/-- DWELL_END (R354): The dwell count runs out and the successor instruction executes. -/
def execDwellEnd (n : Fin 32) (s : State) : Host.Outcome State Fault Refusal := chipOn (dwellEnd n.val) s
/-- PILOT_START (R365): PLn_CTL START runs a stopped pilot from ENTRY, or sets START_REFUSED. -/
def execPilotStart (who : Initiator) (n : Fin 32) (w : Word) (s : State) : Host.Outcome State Fault Refusal := writeReg who (PL_CTL n.val) (PL_CTL_START.put w 1) s
/-- PILOT_STOP (R366): PLn_CTL STOP stops a running or halted pilot between pilot clocks. -/
def execPilotStop (who : Initiator) (n : Fin 32) (w : Word) (s : State) : Host.Outcome State Fault Refusal := writeReg who (PL_CTL n.val) (PL_CTL_STOP.put w 1) s
/-- PILOT_KICK (R358): PLn_CTL KICK releases a pilot waiting on AWAIT KICK. -/
def execPilotKick (who : Initiator) (n : Fin 32) (w : Word) (s : State) : Host.Outcome State Fault Refusal := writeReg who (PL_CTL n.val) (PL_CTL_KICK.put w 1) s
/-- PILOT_FLUSH (R361): PLn_CTL FLUSH empties both pilot queues. -/
def execPilotFlush (who : Initiator) (n : Fin 32) (w : Word) (s : State) : Host.Outcome State Fault Refusal := writeReg who (PL_CTL n.val) (PL_CTL_FLUSH.put w 1) s
/-- PS_START (R365): PSs_CTL START starts several pilots of a set in the same clock. -/
def execPsStart (who : Initiator) (k : Fin 8) (w : Word) (s : State) : Host.Outcome State Fault Refusal := writeReg who (PS_CTL k.val) (w) s
/-- PS_STOP (R365): PSs_CTL STOP stops several pilots of a set in the same clock. -/
def execPsStop (who : Initiator) (k : Fin 8) (w : Word) (s : State) : Host.Outcome State Fault Refusal := writeReg who (PS_CTL k.val) (w) s
/-- PL_TXDATA (R359): A write of PLn_TXDATA pushes a word to the pilot's transmit queue, or ends with a bus error when full. -/
def execPlTxdata (who : Initiator) (n : Fin 32) (w : Word) (s : State) : Host.Outcome State Fault Refusal := writeReg who (PL_TXDATA n.val) (w) s
/-- PL_RXDATA (R359): A read of PLn_RXDATA pops the oldest received word, or sets EMPTY_READ. -/
def execPlRxdata (who : Initiator) (n : Fin 32) (s : State) : Host.Outcome State Fault Refusal := readReg who (PL_RXDATA n.val) s
/-- ILLEGAL (R367): A pilot executes a word with a reserved OP, such as the zero word left by CHIP reset, and halts with ILLEGAL. -/
def execIllegal (n : Fin 32) (parity : Bool) (s : State) : Host.Outcome State Fault Refusal := chipOn (pilotIllegal n.val parity) s

end Sys2Proof.Machine
end

