-- ==== Sys2Proof/Machine/RowPort.lean ====
section
/-! DEFINITION. What the commands of this family do: The Ethernet ports (05). -/
namespace Sys2Proof.Machine

/-- PORT_MODE (R129): A write of MODE in PORTn_CTL selects OFF, SGMII, 1000BASE-X, 2500BASE-X or PHY operation. -/
def execPortMode (who : Initiator) (n : Fin 6) (w : Word) (s : State) : Host.Outcome State Fault Refusal := writeReg who (PORT_CTL n.val) (w) s
/-- PORT_CTL_RESET (R138): A write of RESET holds port n in PORT reset for 1 µs, flushing its queues and dropping its window and tide actions. -/
def execPortCtlReset (who : Initiator) (n : Fin 6) (w : Word) (s : State) : Host.Outcome State Fault Refusal := writeReg who (PORT_CTL n.val) (PORT_CTL_RESET.put w 1) s
/-- PORT_RESET_END (R138): 1 µs after the reset write the port leaves reset and retrains. -/
def execPortResetEnd (n : Fin 6) (s : State) : Host.Outcome State Fault Refusal := chipOn (portResetEnd n.val) s
/-- RESTART_AN (R130): A write of RESTART_AN restarts link and negotiation, reading PORTn_AN_ADV. -/
def execRestartAn (who : Initiator) (n : Fin 6) (w : Word) (s : State) : Host.Outcome State Fault Refusal := writeReg who (PORT_CTL n.val) (PORT_CTL_RESTART_AN.put w 1) s
/-- LINK_UP (R137): The link comes up, setting UP and LINK_UP and starting preemption verification. -/
def execLinkUp (n : Fin 6) (fin : LinkEnd) (s : State) : Host.Outcome State Fault Refusal := chipOn (linkUp n.val fin) s
/-- LINK_LOSS (R137): Loss of link abandons the frame in transmission, ends the frame in reception in error and stops new frames. -/
def execLinkLoss (n : Fin 6) (s : State) : Host.Outcome State Fault Refusal := chipOn (linkLoss n.val) s
/-- LINK_FILTER_EXPIRY (R137): When LINK_FILTER expires the link is declared down, counted, and queues are flushed if FLUSH_ON_DOWN is set. -/
def execLinkFilterExpiry (n : Fin 6) (s : State) : Host.Outcome State Fault Refusal := chipOn (linkFilterExpiry n.val) s
/-- PAUSE_FRAME (R135): A received PAUSE frame with PAUSE_EN stops the starting of frames for its pause time. -/
def execPauseFrame (n : Fin 6) (quanta : BitVec 16) (s : State) : Host.Outcome State Fault Refusal := chipOn (pauseFrame n.val quanta.toNat) s
/-- PFC_FRAME (R135): A received PFC frame with PFC_EN stops the mapped classes for their times. -/
def execPfcFrame (n : Fin 6) (vec : BitVec 16) (times : List (BitVec 16)) (s : State) : Host.Outcome State Fault Refusal := chipOn (pfcFrame n.val vec.toNat (times.map BitVec.toNat)) s
/-- UNSUP_OPCODE (R136): A MAC control frame of another opcode, or with its enable clear, is counted and ignored. -/
def execUnsupOpcode (n : Fin 6) (s : State) : Host.Outcome State Fault Refusal := chipOn (unsupOpcode n.val) s
/-- PAUSE_EXPIRY (R135): A pause timer runs out and the paused classes may start frames again. -/
def execPauseExpiry (n : Fin 6) (prio : Option (Fin 8)) (s : State) : Host.Outcome State Fault Refusal := chipOn (pauseExpiry n.val (prio.map Fin.val)) s
/-- SEND (R136): A write of SEND in PORTn_FC_TX sends one PAUSE or PFC frame ahead of classes 0 to 6. -/
def execSend (who : Initiator) (n : Fin 6) (w : Word) (s : State) : Host.Outcome State Fault Refusal := writeReg who (PORT_FC_TX n.val) (PORT_FC_TX_SEND.put w 1) s
/-- LPI_ENTRY (R139): After EEE_IDLE microseconds with empty queues the port enters low-power idle. -/
def execLpiEntry (n : Fin 6) (s : State) : Host.Outcome State Fault Refusal := chipOn (lpiEntry n.val) s
/-- WAKE_ON_QUEUE (R140): With WAKE_ON_QUEUE set, a frame queued for a sleeping port wakes it. -/
def execWakeOnQueue (n : Fin 6) (s : State) : Host.Outcome State Fault Refusal := chipOn (wakeOnQueue n.val) s
/-- WAKE_COMPLETE (R140): TW_EFF after a wake the port can start frames again. -/
def execWakeComplete (n : Fin 6) (s : State) : Host.Outcome State Fault Refusal := chipOn (wakeComplete n.val) s
/-- LPI_RX (R139): The link partner enters or leaves low-power idle, changing LPI_RX and counting the receive LPI transitions and microseconds. -/
def execLpiRx (n : Fin 6) (idle : Bool) (s : State) : Host.Outcome State Fault Refusal := chipOn (lpiRx n.val idle) s
/-- VERIFY_TIMER_EXPIRY (R141): Each VERIFY_TIME a verify mPacket is resent, and after three unanswered attempts verification FAILS. -/
def execVerifyTimerExpiry (n : Fin 6) (s : State) : Host.Outcome State Fault Refusal := chipOn (verifyTimerExpiry n.val) s
/-- VERIFY_RESPONSE (R141): A response mPacket sets VERIFY_STATE to SUCCEEDED and MM_VERIFY_OK. -/
def execVerifyResponse (n : Fin 6) (s : State) : Host.Outcome State Fault Refusal := chipOn (verifyResponse n.val) s
/-- PORT_MM_CTL (R141): A write of PORTn_MM_CTL restarts preemption verification from INIT. -/
def execPortMmCtl (who : Initiator) (n : Fin 6) (w : Word) (s : State) : Host.Outcome State Fault Refusal := writeReg who (PORT_MM_CTL n.val) (w) s
/-- PORT_MDIO_CMD (R132): A write of PORT_MDIO_CMD starts a clause 22 or 45 MDIO operation. -/
def execPortMdioCmd (who : Initiator) (w : Word) (s : State) : Host.Outcome State Fault Refusal := writeReg who PORT_MDIO_CMD (w) s
/-- MDIO_OPERATION_END (R132): An MDIO operation ends and BUSY clears. -/
def execMdioOperationEnd (data : BitVec 16) (s : State) : Host.Outcome State Fault Refusal := chipOn (mdioEnd data.toNat) s

end Sys2Proof.Machine
end

