-- ==== Sys2Proof/Machine/RowPower.lean ====
section
/-! DEFINITION. What the commands of this family do: Power, clocks and resets (17, R461 to R478). -/
namespace Sys2Proof.Machine

/-- VIN_VALID (R461): VIN rising through 2.65 V starts the lighthouse and the power-up sequence. -/
def execVinValid (s : State) : Host.Outcome State Fault Refusal := anyTime vinValid s
/-- VIN_INVALID (R461): VIN falling below 2.55 V stops the bucks and holds the device in CHIP reset. -/
def execVinInvalid (s : State) : Host.Outcome State Fault Refusal := anyTime vinInvalid s
/-- LIGHTHOUSE_POWER_LOSS (R461): VIN falling below 2.0 V holds the lighthouse and the whole device in reset, so that the lighthouse state is lost until it powers up again. -/
def execLighthousePowerLoss (s : State) : Host.Outcome State Fault Refusal := anyTime lighthousePowerLoss s
/-- RAIL_OUT_OF_REGULATION (R464): VCORE or VANA leaving regulation enters CHIP reset and restarts the bucks. -/
def execRailOutOfRegulation (s : State) : Host.Outcome State Fault Refusal := anyTime railOutOfRegulation s
/-- BANK_DOWN (R463): A VDDIO bank falling or rising changes BANK_UP and, when falling after release, sets BANK_DOWN. -/
def execBankDown (b : Fin 8) (up : Bool) (s : State) : Host.Outcome State Fault Refusal := anyTime (bankDown b.val up) s
/-- REFCLK_FAILURE (R469): REFCLK lost for 10 µs or core PLL unlock enters CHIP reset. -/
def execRefclkFailure (s : State) : Host.Outcome State Fault Refusal := anyTime refclkFailure s
/-- TSREF_LOST (R467): TSREF without an edge for 2 µs makes the time PLL fall back to REFCLK. -/
def execTsrefLost (s : State) : Host.Outcome State Fault Refusal := chipOn tsrefLost s
/-- CANREF_LOST (R468): CAN_REF without an edge for 1 µs switches the CAN island to the pilot PLL. -/
def execCanrefLost (s : State) : Host.Outcome State Fault Refusal := chipOn canrefLost s
/-- TS_SRC (R467): A write of TS_SRC switches the time PLL reference without losing a tick. -/
def execTsSrc (who : Initiator) (w : Word) (s : State) : Host.Outcome State Fault Refusal := writeReg who SYS_CLK_CFG (w) s
/-- TIME_PLL_LOCKED (R467): The time PLL locks to the newly selected reference within 200 µs and TS_ACTIVE reads 1. -/
def execTimePllLocked (s : State) : Host.Outcome State Fault Refusal := chipOn timePllLocked s
/-- RESETN (R474): RESETN held low starts and holds a CHIP reset. -/
def execResetn (low : Bool) (s : State) : Host.Outcome State Fault Refusal := anyTime (resetn low) s
/-- CHIP_RESET (R471): A CHIP reset returns every block except MRAM, lighthouse and TAP to reset and initialises every RAM. -/
def execChipReset (s : State) : Host.Outcome State Fault Refusal := anyTime chipReset s
/-- CHIP_RESET_RELEASE (R478): CHIP reset is released, straps are sampled and the boot ROM starts. -/
def execChipResetRelease (boot : BitVec 3) (mode : BitVec 2) (wide : Bool) (s : State) : Host.Outcome State Fault Refusal := anyTime (chipResetRelease boot.toNat mode.toNat wide) s
/-- CORE_RESET (R471): A CORE reset returns the engines, ferry, DMA and mailboxes to reset for 20 µs. -/
def execCoreReset (s : State) : Host.Outcome State Fault Refusal := anyTime coreReset s
/-- CORE_RESET_END (R471): The CORE reset ends and the boot ROM runs again. -/
def execCoreResetEnd (s : State) : Host.Outcome State Fault Refusal := anyTime coreResetEnd s
/-- CAUSEWAY_RESET (R471): A CAUSEWAY reset resets all three host interfaces for 2 µs. -/
def execCausewayReset (s : State) : Host.Outcome State Fault Refusal := anyTime causewayReset s
/-- CAUSEWAY_RESET_END (R471): After 2 µs the CAUSEWAY reset ends and the three host interfaces run again. -/
def execCausewayResetEnd (s : State) : Host.Outcome State Fault Refusal := anyTime causewayResetEnd s

end Sys2Proof.Machine
end

