-- ==== Sys2Proof/Machine/RowQe.lean ====
section
/-! DEFINITION. What the commands of this family do: Quay engines and berths (07): control, events, watchdogs. -/
namespace Sys2Proof.Machine

/-- STREAM_WAIT_END (R215): Bytes or room that a waiting stream operand needs become available and the instruction proceeds. -/
def execStreamWaitEnd (n : Fin 25) (s : State) : Host.Outcome State Fault Refusal := coreOn (streamWaitEnd n.val) s
/-- EVENT_INTERRUPT (R184): At a boundary with IE set an enabled pending event is taken through its vector. -/
def execEventInterrupt (n : Fin 25) (s : State) : Host.Outcome State Fault Refusal := coreOn (eventInterrupt n.val) s
/-- BREAKPOINT (R195): Reaching a breakpoint PC traps BREAK or halts the engine before the instruction executes. -/
def execBreakpoint (n : Fin 25) (s : State) : Host.Outcome State Fault Refusal := coreOn (breakpoint n.val) s
/-- EVENT_SET (R182): A write of QEn_EVENT_SET sets SOFT event bits of an engine. -/
def execEventSet (who : Initiator) (n : Fin 25) (w : Word) (s : State) : Host.Outcome State Fault Refusal := writeReg who (QE_EVENT_SET n.val) (w) s
/-- QE_TIMER (R183): Every PERIOD core cycles the engine timer sets its TIMER event. -/
def execQeTimer (n : Fin 25) (s : State) : Host.Outcome State Fault Refusal := coreOn (qeTimer n.val) s
/-- QE_START (R191): QEn_CTL START clears events and STATUS, records RESET and starts a stopped engine at ENTRY. -/
def execQeStart (who : Initiator) (n : Fin 25) (w : Word) (s : State) : Host.Outcome State Fault Refusal := writeReg who (QE_CTL n.val) (QE_CTL_START.put w 1) s
/-- QE_STOP (R191): QEn_CTL STOP moves a running engine to STOPPING, or a halted one to STOPPED. -/
def execQeStop (who : Initiator) (n : Fin 25) (w : Word) (s : State) : Host.Outcome State Fault Refusal := writeReg who (QE_CTL n.val) (QE_CTL_STOP.put w 1) s
/-- QE_HALT (R191): QEn_CTL HALT halts a running engine at the next boundary. -/
def execQeHalt (who : Initiator) (n : Fin 25) (w : Word) (s : State) : Host.Outcome State Fault Refusal := writeReg who (QE_CTL n.val) (QE_CTL_HALT.put w 1) s
/-- QE_RESUME (R191): QEn_CTL RESUME runs a halted engine from its PC. -/
def execQeResume (who : Initiator) (n : Fin 25) (w : Word) (s : State) : Host.Outcome State Fault Refusal := writeReg who (QE_CTL n.val) (QE_CTL_RESUME.put w 1) s
/-- QE_STEP (R191): QEn_CTL STEP executes one instruction of a halted engine and halts again. -/
def execQeStep (who : Initiator) (n : Fin 25) (w : Word) (s : State) : Host.Outcome State Fault Refusal := coreOn (fun s => qeStepRow n.val s (s.rowWrite who (QE_CTL n.val) (QE_CTL_STEP.put w 1))) s
/-- QE_STOP_LANDS (R192): A pending stop lands at the next instruction boundary and the engine reads STOPPED. -/
def execQeStopLands (n : Fin 25) (s : State) : Host.Outcome State Fault Refusal := coreOn (qeStopLands n.val) s
/-- QE_WATCHDOG_EXPIRY (R194): The engine watchdog expires, trapping WATCHDOG or on a second expiry halting with WDOG. -/
def execQeWatchdogExpiry (n : Fin 25) (s : State) : Host.Outcome State Fault Refusal := coreOn (qeWatchdogExpiry n.val) s
/-- KICK (R194): A write of KICK to QEn_WDOG restarts the engine watchdog. -/
def execKick (who : Initiator) (n : Fin 25) (w : Word) (s : State) : Host.Outcome State Fault Refusal := writeReg who (QE_WDOG n.val) (QE_WDOG_KICK.put w 1) s
/-- BERTH_CTL_START (R199): BERTHb_CTL START starts every engine of a fully stopped berth in one clock. -/
def execBerthCtlStart (who : Initiator) (b : Fin 24) (w : Word) (s : State) : Host.Outcome State Fault Refusal := writeReg who (BERTH_CTL b.val) (BERTH_CTL_START.put w 1) s
/-- BERTH_CTL_STOP (R199): BERTHb_CTL STOP stops each engine of the berth. -/
def execBerthCtlStop (who : Initiator) (b : Fin 24) (w : Word) (s : State) : Host.Outcome State Fault Refusal := writeReg who (BERTH_CTL b.val) (BERTH_CTL_STOP.put w 1) s
/-- NOTIFY (R199): BERTHb_CTL NOTIFY sets STOP_REQ in each engine of the berth. -/
def execNotify (who : Initiator) (b : Fin 24) (w : Word) (s : State) : Host.Outcome State Fault Refusal := writeReg who (BERTH_CTL b.val) (BERTH_CTL_NOTIFY.put w 1) s
/-- BERTH_CTL_RESET (R199): BERTHb_CTL RESET starts a BERTH reset that stops the engines, clears events and flushes the berth's queues. -/
def execBerthCtlReset (who : Initiator) (b : Fin 24) (w : Word) (s : State) : Host.Outcome State Fault Refusal := writeReg who (BERTH_CTL b.val) (BERTH_CTL_RESET.put w 1) s
/-- BERTH_RESET_END (R199): The BERTH reset finishes when the berth reads STOPPED. -/
def execBerthResetEnd (b : Fin 24) (s : State) : Host.Outcome State Fault Refusal := coreOn (berthResetEnd b.val) s

end Sys2Proof.Machine
end

