-- ==== Sys2Proof/Machine/RowQeIsa.lean ====
section
/-! DEFINITION. What the commands of this family do: The instructions of the quay engines and the harbourmaster (08); n = 24 is the harbourmaster. -/
namespace Sys2Proof.Machine

/-- NOP (R220): The NOP instruction does nothing. -/
def execNop (n : Fin 25) (s : State) : Host.Outcome State Fault Refusal := coreOn (qeRow iNop n.val) s
/-- MOV (R220): MOV copies B to A. -/
def execMov (n : Fin 25) (s : State) : Host.Outcome State Fault Refusal := coreOn (qeRow iMov n.val) s
/-- SEXT (R220): SEXT sign-extends B to 64 bits into A. -/
def execSext (n : Fin 25) (s : State) : Host.Outcome State Fault Refusal := coreOn (qeRow iSext n.val) s
/-- ZEXT (R220): ZEXT zero-extends B to 64 bits into A. -/
def execZext (n : Fin 25) (s : State) : Host.Outcome State Fault Refusal := coreOn (qeRow iZext n.val) s
/-- LEA (R220): LEA writes the address of B into A. -/
def execLea (n : Fin 25) (s : State) : Host.Outcome State Fault Refusal := coreOn (qeRow iLea n.val) s
/-- BSWAP (R220): BSWAP writes B with its byte order reversed into A. -/
def execBswap (n : Fin 25) (s : State) : Host.Outcome State Fault Refusal := coreOn (qeRow iBswap n.val) s
/-- ADD (R220): ADD writes B + C into A and sets the add flags. -/
def execAdd (n : Fin 25) (s : State) : Host.Outcome State Fault Refusal := coreOn (qeRow iAdd n.val) s
/-- ADC (R220): ADC writes B + C + carry into A. -/
def execAdc (n : Fin 25) (s : State) : Host.Outcome State Fault Refusal := coreOn (qeRow iAdc n.val) s
/-- SUB (R220): SUB writes B − C into A and sets the subtract flags. -/
def execSub (n : Fin 25) (s : State) : Host.Outcome State Fault Refusal := coreOn (qeRow iSub n.val) s
/-- SBB (R220): SBB writes B − C − carry into A. -/
def execSbb (n : Fin 25) (s : State) : Host.Outcome State Fault Refusal := coreOn (qeRow iSbb n.val) s
/-- NEG (R220): NEG writes 0 − B into A. -/
def execNeg (n : Fin 25) (s : State) : Host.Outcome State Fault Refusal := coreOn (qeRow iNeg n.val) s
/-- MUL (R220): MUL writes the low s bits of B × C into A. -/
def execMul (n : Fin 25) (s : State) : Host.Outcome State Fault Refusal := coreOn (qeRow iMul n.val) s
/-- MULHU (R220): MULHU writes the high s bits of the unsigned product into A. -/
def execMulhu (n : Fin 25) (s : State) : Host.Outcome State Fault Refusal := coreOn (qeRow iMulhu n.val) s
/-- MULHS (R220): MULHS writes the high s bits of the signed product into A. -/
def execMulhs (n : Fin 25) (s : State) : Host.Outcome State Fault Refusal := coreOn (qeRow iMulhs n.val) s
/-- MAC (R220): MAC adds the low s bits of B × C to A. -/
def execMac (n : Fin 25) (s : State) : Host.Outcome State Fault Refusal := coreOn (qeRow iMac n.val) s
/-- AND (R220): AND writes B AND C into A. -/
def execAnd (n : Fin 25) (s : State) : Host.Outcome State Fault Refusal := coreOn (qeRow iAnd n.val) s
/-- OR (R220): OR writes B OR C into A. -/
def execOr (n : Fin 25) (s : State) : Host.Outcome State Fault Refusal := coreOn (qeRow iOr n.val) s
/-- XOR (R220): XOR writes B XOR C into A. -/
def execXor (n : Fin 25) (s : State) : Host.Outcome State Fault Refusal := coreOn (qeRow iXor n.val) s
/-- ANDN (R220): ANDN writes B AND NOT C into A. -/
def execAndn (n : Fin 25) (s : State) : Host.Outcome State Fault Refusal := coreOn (qeRow iAndn n.val) s
/-- NOT (R220): NOT writes NOT B into A. -/
def execNot (n : Fin 25) (s : State) : Host.Outcome State Fault Refusal := coreOn (qeRow iNot n.val) s
/-- SHL (R220): SHL shifts B left by C mod s into A. -/
def execShl (n : Fin 25) (s : State) : Host.Outcome State Fault Refusal := coreOn (qeRow iShl n.val) s
/-- SHR (R220): SHR shifts B logically right into A. -/
def execShr (n : Fin 25) (s : State) : Host.Outcome State Fault Refusal := coreOn (qeRow iShr n.val) s
/-- SAR (R220): SAR shifts B arithmetically right into A. -/
def execSar (n : Fin 25) (s : State) : Host.Outcome State Fault Refusal := coreOn (qeRow iSar n.val) s
/-- ROL (R220): ROL rotates B left into A. -/
def execRol (n : Fin 25) (s : State) : Host.Outcome State Fault Refusal := coreOn (qeRow iRol n.val) s
/-- ROR (R220): ROR rotates B right into A. -/
def execRor (n : Fin 25) (s : State) : Host.Outcome State Fault Refusal := coreOn (qeRow iRor n.val) s
/-- BFX (R224): BFX extracts a bit field of B, zero-extended, into A. -/
def execBfx (n : Fin 25) (s : State) : Host.Outcome State Fault Refusal := coreOn (qeRow iBfx n.val) s
/-- BFXS (R224): BFXS extracts a bit field of B, sign-extended, into A. -/
def execBfxs (n : Fin 25) (s : State) : Host.Outcome State Fault Refusal := coreOn (qeRow iBfxs n.val) s
/-- BFI (R224): BFI inserts the low bits of B into a field of A. -/
def execBfi (n : Fin 25) (s : State) : Host.Outcome State Fault Refusal := coreOn (qeRow iBfi n.val) s
/-- BSET (R220): BSET writes B with bit C mod s set into A. -/
def execBset (n : Fin 25) (s : State) : Host.Outcome State Fault Refusal := coreOn (qeRow iBset n.val) s
/-- BCLR (R220): BCLR writes B with bit C mod s cleared into A. -/
def execBclr (n : Fin 25) (s : State) : Host.Outcome State Fault Refusal := coreOn (qeRow iBclr n.val) s
/-- BEQ (R222): BEQ branches if A equals B. -/
def execBeq (n : Fin 25) (s : State) : Host.Outcome State Fault Refusal := coreOn (qeRow iBeq n.val) s
/-- BNE (R222): BNE branches if A differs from B. -/
def execBne (n : Fin 25) (s : State) : Host.Outcome State Fault Refusal := coreOn (qeRow iBne n.val) s
/-- BLT (R222): BLT branches if A is less than B, signed. -/
def execBlt (n : Fin 25) (s : State) : Host.Outcome State Fault Refusal := coreOn (qeRow iBlt n.val) s
/-- BGE (R222): BGE branches if A is at least B, signed. -/
def execBge (n : Fin 25) (s : State) : Host.Outcome State Fault Refusal := coreOn (qeRow iBge n.val) s
/-- BLTU (R222): BLTU branches if A is less than B, unsigned. -/
def execBltu (n : Fin 25) (s : State) : Host.Outcome State Fault Refusal := coreOn (qeRow iBltu n.val) s
/-- BGEU (R222): BGEU branches if A is at least B, unsigned. -/
def execBgeu (n : Fin 25) (s : State) : Host.Outcome State Fault Refusal := coreOn (qeRow iBgeu n.val) s
/-- BBS (R222): BBS branches if bit B mod s of A is 1. -/
def execBbs (n : Fin 25) (s : State) : Host.Outcome State Fault Refusal := coreOn (qeRow iBbs n.val) s
/-- BBC (R222): BBC branches if bit B mod s of A is 0. -/
def execBbc (n : Fin 25) (s : State) : Host.Outcome State Fault Refusal := coreOn (qeRow iBbc n.val) s
/-- JMP (R222): JMP branches to its target. -/
def execJmp (n : Fin 25) (s : State) : Host.Outcome State Fault Refusal := coreOn (qeRow iJmp n.val) s
/-- BF (R223): BF branches on the flag condition named by A. -/
def execBf (n : Fin 25) (s : State) : Host.Outcome State Fault Refusal := coreOn (qeRow iBf n.val) s
/-- DJNZ (R220): DJNZ decrements A and branches if it is not zero. -/
def execDjnz (n : Fin 25) (s : State) : Host.Outcome State Fault Refusal := coreOn (qeRow iDjnz n.val) s
/-- CALL (R227): CALL pushes the return index at SP − 8 and branches, trapping STACK below STACK_LIMIT. -/
def execCall (n : Fin 25) (s : State) : Host.Outcome State Fault Refusal := coreOn (qeRow iCall n.val) s
/-- RET (R227): RET pops the return index and continues there. -/
def execRet (n : Fin 25) (s : State) : Host.Outcome State Fault Refusal := coreOn (qeRow iRet n.val) s
/-- TRAP (R228): The TRAP instruction traps with cause 0x08 through vector 8. -/
def execTrap (n : Fin 25) (s : State) : Host.Outcome State Fault Refusal := coreOn (qeRow iTrap n.val) s
/-- RETT (R188): RETT returns from a trap, restoring the PC from TRAP_PC and IE from PIE. -/
def execRett (n : Fin 25) (s : State) : Host.Outcome State Fault Refusal := coreOn (qeRow iRett n.val) s
/-- CRC32 (R225): CRC32 updates the 32-bit CRC in A with the bytes of B. -/
def execCrc32 (n : Fin 25) (s : State) : Host.Outcome State Fault Refusal := coreOn (qeRow iCrc32 n.val) s
/-- CRC16R (R225): CRC16R updates a reflected table CRC-16 in A with the bytes of B. -/
def execCrc16r (n : Fin 25) (s : State) : Host.Outcome State Fault Refusal := coreOn (qeRow iCrc16r n.val) s
/-- CRC16N (R225): CRC16N updates a non-reflected table CRC-16 in A with the bytes of B. -/
def execCrc16n (n : Fin 25) (s : State) : Host.Outcome State Fault Refusal := coreOn (qeRow iCrc16n n.val) s
/-- CSUM (R226): CSUM adds B to A as a ones' complement sum. -/
def execCsum (n : Fin 25) (s : State) : Host.Outcome State Fault Refusal := coreOn (qeRow iCsum n.val) s
/-- REP (R229): REP repeats the next instruction B + 1 times without interruption. -/
def execRep (n : Fin 25) (s : State) : Host.Outcome State Fault Refusal := coreOn (qePrefixRow false n.val) s
/-- REPI (R229): REPI repeats the next instruction B times, checking for interrupts between iterations. -/
def execRepi (n : Fin 25) (s : State) : Host.Outcome State Fault Refusal := coreOn (qePrefixRow true n.val) s
/-- FQPUSH (R231): FQPUSH pushes one word into a ferry queue, or sets Z if there is no room. -/
def execFqpush (n : Fin 25) (s : State) : Host.Outcome State Fault Refusal := coreOn (qeRow iFqpush n.val) s
/-- FQPOP (R231): FQPOP pops one word with its tags from a ferry queue, or sets Z if empty. -/
def execFqpop (n : Fin 25) (s : State) : Host.Outcome State Fault Refusal := coreOn (qeRow iFqpop n.val) s
/-- FQPKT (R220): FQPKT reads a queue's packet counter into A. -/
def execFqpkt (n : Fin 25) (s : State) : Host.Outcome State Fault Refusal := coreOn (qeRow iFqpkt n.val) s
/-- SNEXT (R232): SNEXT discards the rest of the receive stream's packet and clears ENDED and TRUNC. -/
def execSnext (n : Fin 25) (s : State) : Host.Outcome State Fault Refusal := coreOn (qeRow iSnext n.val) s
/-- SCLOSE (R217): SCLOSE pushes the held or partial transmit word tagged END. -/
def execSclose (n : Fin 25) (s : State) : Host.Outcome State Fault Refusal := coreOn (qeRow iSclose n.val) s
/-- SSTAT (R232): SSTAT writes the stream state into A. -/
def execSstat (n : Fin 25) (s : State) : Host.Outcome State Fault Refusal := coreOn (qeRow iSstat n.val) s
/-- WAITE (R233): WAITE begins waiting for masked events or a timeout, completing at once for B = 0. -/
def execWaite (n : Fin 25) (s : State) : Host.Outcome State Fault Refusal := coreOn (qeRow iWaite n.val) s
/-- WAITE_COMPLETE (R233): A masked event arrives and WAITE writes the events to A and clears their edge bits. -/
def execWaiteComplete (n : Fin 25) (s : State) : Host.Outcome State Fault Refusal := coreOn (waiteComplete n.val) s
/-- WAITE_TIMEOUT (R233): C core cycles pass and WAITE completes with A = 0 and Z set. -/
def execWaiteTimeout (n : Fin 25) (s : State) : Host.Outcome State Fault Refusal := coreOn (waiteTimeout n.val) s
/-- WAITT (R234): WAITT begins waiting until the time of day reaches the instant in B. -/
def execWaitt (n : Fin 25) (s : State) : Host.Outcome State Fault Refusal := coreOn (qeRow iWaitt n.val) s
/-- WAITT_COMPLETE (R234): The time of day reaches the instant, or a forward step passes it, and WAITT completes. -/
def execWaittComplete (n : Fin 25) (s : State) : Host.Outcome State Fault Refusal := coreOn (waittComplete n.val) s
/-- YIELD (R234): YIELD leaves every bank and the mooring port idle for B + 1 cycles. -/
def execYield (n : Fin 25) (s : State) : Host.Outcome State Fault Refusal := coreOn (qeRow iYield n.val) s
/-- SWAP (R235): The SWAP instruction atomically reads B into A and writes C into B. -/
def execSwap (n : Fin 25) (s : State) : Host.Outcome State Fault Refusal := coreOn (qeRow iSwap n.val) s
/-- TAS (R235): TAS atomically reads B into A and writes 1 into B. -/
def execTas (n : Fin 25) (s : State) : Host.Outcome State Fault Refusal := coreOn (qeRow iTas n.val) s
/-- CAS (R235): CAS atomically compares and swaps its operand. -/
def execCas (n : Fin 25) (s : State) : Host.Outcome State Fault Refusal := coreOn (qeRow iCas n.val) s
/-- SCOPE (R236): The harbourmaster SCOPE instruction requests a reset of the named scope and instance. -/
def execScope (n : Fin 25) (s : State) : Host.Outcome State Fault Refusal := coreOn (qeRow iScope n.val) s
/-- LOGEV (R236): LOGEV counts a logbook event of code 0x80 to 0xFF with its value. -/
def execLogev (n : Fin 25) (s : State) : Host.Outcome State Fault Refusal := coreOn (qeRow iLogev n.val) s
/-- IFENCE (R236): IFENCE waits for earlier IRAM writes to land and discards later fetches. -/
def execIfence (n : Fin 25) (s : State) : Host.Outcome State Fault Refusal := coreOn (qeRow iIfence n.val) s
/-- EMU (R221): A quay engine or the harbourmaster executes a word whose BASE is reserved, including never-written IRAM and the division codes, and traps EMU. -/
def execEmu (n : Fin 25) (s : State) : Host.Outcome State Fault Refusal := coreOn (emu n.val) s

end Sys2Proof.Machine
end

