-- ==== Sys2Proof/Machine/RowStow.lean ====
section
/-! DEFINITION. What the commands of this family do: Stowage plans (06). -/
namespace Sys2Proof.Machine

/-- COMMIT (R165): STOW_CMD COMMIT starts checking the staged header and entries of plan p. -/
def execCommit (who : Initiator) (w : Word) (s : State) : Host.Outcome State Fault Refusal := writeReg who STOW_CMD (STOW_CMD_OP.put w 1) s
/-- COMMIT_END (R165): A commit completes, installing plan p with COMMIT_DONE, or refusing it with COMMIT_FAIL and STOW_FAIL. -/
def execCommitEnd (s : State) : Host.Outcome State Fault Refusal := chipOn commitEnd s
/-- STOW_CLEAR (R166): STOW_CMD CLEAR sets plan p invalid and frees its range. -/
def execStowClear (who : Initiator) (w : Word) (s : State) : Host.Outcome State Fault Refusal := writeReg who STOW_CMD (STOW_CMD_OP.put w 2) s

end Sys2Proof.Machine
end

