-- ==== Sys2Proof/Machine/RowSwitch.lean ====
section
/-! DEFINITION. What the commands of this family do: The switch (04): frames, the MAC and VLAN tables, stream contexts. -/
namespace Sys2Proof.Machine

/-- FRAME_RECEIVE (R98): A frame arriving at a switch port is parsed, classified, windowed, filtered, metered, checked and resolved to its egress queues. -/
def execFrameReceive (n : Fin 6) (part : RxPart) (s : State) : Host.Outcome State Fault Refusal := chipOn (frameReceive n.val part) s
/-- CUT_THROUGH (R111): A processed class 7 frame starts at its egress as soon as its first bytes are in memory with its gate open and the line idle. -/
def execCutThrough (n : Fin 6) (part : CtPart) (s : State) : Host.Outcome State Fault Refusal := chipOn (cutThrough n.val part) s
/-- FRAME_TRANSMIT (R106): An egress port starts the highest eligible class's head frame and sends it with its tag changes and stowage egress operations. -/
def execFrameTransmit (n : Fin 6) (part : TxPart) (s : State) : Host.Outcome State Fault Refusal := chipOn (frameTransmit n.val part) s
/-- LOOKUP (R105): The MAC LOOKUP operation searches the key and loads SW_MAC_DATA. -/
def execLookup (who : Initiator) (w : Word) (s : State) : Host.Outcome State Fault Refusal := writeReg who SW_MAC_CMD (SW_MAC_CMD_OP.put w 1) s
/-- MAC_WRITE (R105): The MAC WRITE operation installs or removes the entry for the key. -/
def execMacWrite (who : Initiator) (w : Word) (s : State) : Host.Outcome State Fault Refusal := writeReg who SW_MAC_CMD (SW_MAC_CMD_OP.put w 2) s
/-- MAC_DELETE (R105): The MAC DELETE operation removes the key and reports whether it was present. -/
def execMacDelete (who : Initiator) (w : Word) (s : State) : Host.Outcome State Fault Refusal := writeReg who SW_MAC_CMD (SW_MAC_CMD_OP.put w 3) s
/-- MAC_FLUSH (R105): The MAC FLUSH operation removes every dynamic entry on the named ports. -/
def execMacFlush (who : Initiator) (w : Word) (s : State) : Host.Outcome State Fault Refusal := writeReg who SW_MAC_CMD (SW_MAC_CMD_OP.put w 4) s
/-- READ_INDEX (R105): The MAC READ_INDEX operation loads the entry at INDEX into the key and data registers. -/
def execReadIndex (who : Initiator) (w : Word) (s : State) : Host.Outcome State Fault Refusal := writeReg who SW_MAC_CMD (SW_MAC_CMD_OP.put w 5) s
/-- MAC_OPERATION_END (R105): A MAC table operation completes within 64 core cycles and BUSY clears. -/
def execMacOperationEnd (s : State) : Host.Outcome State Fault Refusal := chipOn (fun s => s.clrB SW_MAC_CMD SW_MAC_CMD_BUSY) s
/-- AGEING_PASS (R103): Once per second every dynamic MAC entry ages by 1 and those reaching SW_AGE_TIME are removed. -/
def execAgeingPass (s : State) : Host.Outcome State Fault Refusal := chipOn agePass s
/-- VLAN_READ (R124): SW_VLAN_CMD READ loads the VLAN entry into SW_VLAN_DATA. -/
def execVlanRead (who : Initiator) (w : Word) (s : State) : Host.Outcome State Fault Refusal := writeReg who SW_VLAN_CMD (SW_VLAN_CMD_OP.put w 1) s
/-- VLAN_WRITE (R101): SW_VLAN_CMD WRITE stores SW_VLAN_DATA in the VLAN entry. -/
def execVlanWrite (who : Initiator) (w : Word) (s : State) : Host.Outcome State Fault Refusal := writeReg who SW_VLAN_CMD (SW_VLAN_CMD_OP.put w 2) s
/-- STREAM_READ (R126): STREAM_CMD READ copies a context's configuration and counter snapshot into the window. -/
def execStreamRead (who : Initiator) (w : Word) (s : State) : Host.Outcome State Fault Refusal := writeReg who STREAM_CMD (STREAM_CMD_OP.put w 1) s
/-- STREAM_WRITE (R126): STREAM_CMD WRITE copies the window into a context, refilling buckets and emptying redundancy history. -/
def execStreamWrite (who : Initiator) (w : Word) (s : State) : Host.Outcome State Fault Refusal := writeReg who STREAM_CMD (STREAM_CMD_OP.put w 2) s
/-- STREAM_CLEAR (R126): STREAM_CMD CLEAR clears the context's counters. -/
def execStreamClear (who : Initiator) (w : Word) (s : State) : Host.Outcome State Fault Refusal := writeReg who STREAM_CMD (STREAM_CMD_OP.put w 3) s
/-- UNBLOCK (R126): STREAM_CMD UNBLOCK clears SDU_BLOCKED and RED_BLOCKED. -/
def execUnblock (who : Initiator) (w : Word) (s : State) : Host.Outcome State Fault Refusal := writeReg who STREAM_CMD (STREAM_CMD_OP.put w 4) s
/-- STREAM_OPERATION_END (R126): A stream window operation completes within 64 core cycles and BUSY clears. -/
def execStreamOperationEnd (s : State) : Host.Outcome State Fault Refusal := chipOn streamOperationEnd s

end Sys2Proof.Machine
end

