-- ==== Sys2Proof/Machine/RowTide.lean ====
section
/-! DEFINITION. What the commands of this family do: The tide engine and the handover buffers (03). -/
namespace Sys2Proof.Machine

/-- RUN_START (R63): A write of RUN = 1 while stopped starts the tide engine at TIDE_BASE if the start bank is VALID and the base lies far enough ahead. -/
def execRunStart (who : Initiator) (w : Word) (s : State) : Host.Outcome State Fault Refusal := writeReg who TIDE_CTL (TIDE_CTL_RUN.put w 1) s
/-- RUN_STOP (R63): A write of RUN = 0 requests the tide engine to stop at the next cycle boundary. -/
def execRunStop (who : Initiator) (w : Word) (s : State) : Host.Outcome State Fault Refusal := writeReg who TIDE_CTL (TIDE_CTL_RUN.put w 0) s
/-- CYCLE_BOUNDARY (R62): At each boundary a new tide cycle begins, TIDE_CYCLE_CNT advances, and any landed stop or committed swap takes effect. -/
def execCycleBoundary (s : State) : Host.Outcome State Fault Refusal := chipOn cycleBoundary s
/-- ENTRY_ISSUE (R68): The tide engine issues an entry its action lead before OFFSET, subject to PARITY, so that its effect lands at OFFSET. -/
def execEntryIssue (s : State) : Host.Outcome State Fault Refusal := chipOn entryIssue s
/-- TIDE_NOP (R67): A NOP entry lands with no effect. -/
def execTideNop (s : State) : Host.Outcome State Fault Refusal := chipOn (tideLand fun x => x.act == 0) s
/-- GATE (R71): A GATE action lands and sets the port's eight transmission gates and its preemption hold or release. -/
def execGate (s : State) : Host.Outcome State Fault Refusal := chipOn (tideLand fun x => x.act == 1) s
/-- STOW (R73): A STOW action lands, copies the plan into the port's plan store, arms the window and acquires the plan's INSERT buffers. -/
def execStow (s : State) : Host.Outcome State Fault Refusal := chipOn (tideLand fun x => x.act == 2) s
/-- HAND_PUBLISH (R81): A HAND PUBLISH action lands and exchanges W and P of a written buffer, or is skipped as empty or tainted. -/
def execHandPublish (s : State) : Host.Outcome State Fault Refusal := chipOn (tideLand fun x => x.act == 3 && x.arg0 % 4 == 1) s
/-- HAND_ACQUIRE (R82): A HAND ACQUIRE action lands and exchanges R and P when FRESH, or sets STALE. -/
def execHandAcquire (s : State) : Host.Outcome State Fault Refusal := chipOn (tideLand fun x => x.act == 3 && x.arg0 % 4 != 1) s
/-- TRIG (R51): A TRIG action lands and pulses, drives active or drives inactive a trigger in MODE TIDE, or opens or closes a capture window. -/
def execTrig (s : State) : Host.Outcome State Fault Refusal := chipOn (tideLand fun x => x.act == 4) s
/-- CAPT (R84): A CAPT action latches the selected encoder counters, and optionally the status word, into the buffer's writer slot. -/
def execCapt (s : State) : Host.Outcome State Fault Refusal := chipOn (tideLand fun x => x.act == 5) s
/-- MOTN (R315): A MOTN action acquires a buffer and hands its setpoints to a cyclic group. -/
def execMotn (s : State) : Host.Outcome State Fault Refusal := chipOn (tideLand fun x => x.act == 6) s
/-- DMAS (R260): A DMAS action starts a DMA channel on its programmed chain, or is dropped BUSY. -/
def execDmas (s : State) : Host.Outcome State Fault Refusal := chipOn (tideLand fun x => x.act == 7) s
/-- EVNT (R182): An EVNT action raises tide event line k in a quay engine or the harbourmaster. -/
def execEvnt (s : State) : Host.Outcome State Fault Refusal := chipOn (tideLand fun x => x.act == 8) s
/-- WAKE (R140): A WAKE action brings a port out of low-power idle. -/
def execWake (s : State) : Host.Outcome State Fault Refusal := chipOn (tideLand fun x => x.act == 9) s
/-- ADCS (R343): An ADCS action starts an ADC sequence, or is dropped BUSY. -/
def execAdcs (s : State) : Host.Outcome State Fault Refusal := chipOn (tideLand fun x => x.act == 10) s
/-- VALIDATE_A (R85): A write of VALIDATE_A starts validation of bank A if it is not ACTIVE. -/
def execValidateA (who : Initiator) (w : Word) (s : State) : Host.Outcome State Fault Refusal := writeReg who TIDE_CMD (TIDE_CMD_VALIDATE_A.put w 1) s
/-- VALIDATE_B (R85): A write of VALIDATE_B starts validation of bank B if it is not ACTIVE. -/
def execValidateB (who : Initiator) (w : Word) (s : State) : Host.Outcome State Fault Refusal := writeReg who TIDE_CMD (TIDE_CMD_VALIDATE_B.put w 1) s
/-- VALIDATION_END (R85): A validation finishes with the bank VALID and VALID_DONE, or FAILED with VALID_FAIL and the first failing entry. -/
def execValidationEnd (b : Fin 2) (s : State) : Host.Outcome State Fault Refusal := chipOn (validationEnd b.val) s
/-- TIDE_BANK_WRITE (R86): A write to a non-active bank's memory or its CYCLE or LEN returns it to EMPTY and abandons any validation. -/
def execTideBankWrite (who : Initiator) (a w : Word) (s : State) : Host.Outcome State Fault Refusal := chipOn (fun s => if isBank a.toNat then s.rowWrite who a.toNat w else s) s
/-- SWAP_ARM (R87): A write of SWAP_ARM arms a swap to the bank that is not active. -/
def execSwapArm (who : Initiator) (w : Word) (s : State) : Host.Outcome State Fault Refusal := writeReg who TIDE_CMD (TIDE_CMD_SWAP_ARM.put w 1) s
/-- SWAP_DISARM (R88): A write of SWAP_DISARM cancels an armed swap. -/
def execSwapDisarm (who : Initiator) (w : Word) (s : State) : Host.Outcome State Fault Refusal := writeReg who TIDE_CMD (TIDE_CMD_SWAP_DISARM.put w 1) s
/-- SWAP_DECISION (R87): 400 ns before the swap boundary the swap is committed if the shadow bank is VALID, or refused with SWAP_REFUSED. -/
def execSwapDecision (s : State) : Host.Outcome State Fault Refusal := chipOn swapDecision s
/-- TIDE_HB_CFG (R78): A write of TIDE_HBn_CFG places or disables a handover buffer, resetting its slot roles on enable. -/
def execTideHbCfg (who : Initiator) (n : Fin 256) (w : Word) (s : State) : Host.Outcome State Fault Refusal := writeReg who (TIDE_HB_CFG n.val) (w) s
/-- HB_CMD_PUBLISH (R81): A TIDE_HB_CMD PUBLISH exchanges W and P of a buffer whatever WRITTEN and TAINT hold. -/
def execHbCmdPublish (who : Initiator) (w : Word) (s : State) : Host.Outcome State Fault Refusal := writeReg who TIDE_HB_CMD (TIDE_HB_CMD_OP.put w 1) s
/-- HB_CMD_ACQUIRE (R82): A TIDE_HB_CMD ACQUIRE exchanges R and P when FRESH, or sets STALE. -/
def execHbCmdAcquire (who : Initiator) (w : Word) (s : State) : Host.Outcome State Fault Refusal := writeReg who TIDE_HB_CMD (TIDE_HB_CMD_OP.put w 2) s
/-- HELD_OPERATION_APPLY (R83): A publish or acquire held behind a line-side write or insertion is applied in order when that hold ends. -/
def execHeldOperationApply (n : Fin 256) (s : State) : Host.Outcome State Fault Refusal := chipOn (heldOperationApply n.val) s
/-- WINDOW_EXPIRY (R73): An armed stowage window whose tolerance ends unconsumed is dropped. -/
def execWindowExpiry (n : Fin 6) (s : State) : Host.Outcome State Fault Refusal := chipOn (windowExpiry n.val) s

end Sys2Proof.Machine
end

