-- ==== Sys2Proof/Machine/RowTime.lean ====
section
/-! DEFINITION. What the commands of this family do: The time base (02). -/
namespace Sys2Proof.Machine

/-- TIME_ADVANCE (R32): On every TSCLK tick the time of day advances by the increment in force, with the hidden residue carrying into FRAC. -/
def execTimeAdvance (s : State) : Host.Outcome State Fault Refusal := chipOn tickAdvance s
/-- TIME_CMD_STEP (R34): A write of STEP to TIME_CMD makes a step pending until its tick of application. -/
def execTimeCmdStep (who : Initiator) (w : Word) (s : State) : Host.Outcome State Fault Refusal := writeReg who TIME_CMD (TIME_CMD_STEP.put w 1) s
/-- TIME_CMD_SET (R34): A write of SET to TIME_CMD makes a set pending until its tick of application. -/
def execTimeCmdSet (who : Initiator) (w : Word) (s : State) : Host.Outcome State Fault Refusal := writeReg who TIME_CMD (TIME_CMD_SET.put w 1) s
/-- TIME_CMD_INC (R34): A write of INC to TIME_CMD, with TIME_INC in range, makes an increment load pending until its tick of application. -/
def execTimeCmdInc (who : Initiator) (w : Word) (s : State) : Host.Outcome State Fault Refusal := writeReg who TIME_CMD (TIME_CMD_INC.put w 1) s
/-- TIME_CMD_KICK (R34): A write of KICK to TIME_CMD schedules a restart of the state watchdog at its own tick of application. -/
def execTimeCmdKick (who : Initiator) (w : Word) (s : State) : Host.Outcome State Fault Refusal := writeReg who TIME_CMD (TIME_CMD_KICK.put w 1) s
/-- FORCE_JUMP (R36): A write of FORCE_JUMP arms a one-shot permission for the next STEP or SET to pass the jump limit or the state gate. -/
def execForceJump (who : Initiator) (w : Word) (s : State) : Host.Outcome State Fault Refusal := writeReg who TIME_CMD (TIME_CMD_FORCE_JUMP.put w 1) s
/-- DISARM (R36): A write of DISARM clears an armed FORCE_JUMP without consuming it. -/
def execDisarm (who : Initiator) (w : Word) (s : State) : Host.Outcome State Fault Refusal := writeReg who TIME_CMD (TIME_CMD_DISARM.put w 1) s
/-- STEP_APPLY (R35): At its tick of application a pending STEP adds TIME_STEP to the time, or is refused beyond TIME_JUMP_LIMIT without FORCE_JUMP. -/
def execStepApply (s : State) : Host.Outcome State Fault Refusal := chipOn stepApply s
/-- SET_APPLY (R37): At its tick of application a pending SET loads the time from TIME_SET when STATE is FREE or FORCE_JUMP is armed, and is refused otherwise. -/
def execSetApply (s : State) : Host.Outcome State Fault Refusal := chipOn setApply s
/-- INC_APPLY (R32): At its tick of application a pending INC loads the increment in force from TIME_INC and restarts the state watchdog. -/
def execIncApply (s : State) : Host.Outcome State Fault Refusal := chipOn incApply s
/-- KICK_APPLY (R40): At its tick of application a KICK restarts the state watchdog. -/
def execKickApply (s : State) : Host.Outcome State Fault Refusal := chipOn kickApply s
/-- TIME_CTL_STATE (R39): A write of STATE in TIME_CTL moves the synchronisation state, restarting the state watchdog when it writes SYNC. -/
def execTimeCtlState (who : Initiator) (w : Word) (s : State) : Host.Outcome State Fault Refusal := writeReg who TIME_CTL (w) s
/-- TIME_WDOG (R40): A write of TIME_WDOG sets the state watchdog interval and restarts or stops the watchdog when the write lands. -/
def execTimeWdog (who : Initiator) (w : Word) (s : State) : Host.Outcome State Fault Refusal := writeReg who TIME_WDOG (w) s
/-- STATE_WATCHDOG_EXPIRY (R40): Expiry of the state watchdog in SYNC moves STATE to HOLDOVER, sets HOLDOVER_ENTERED and counts logbook code 0x22. -/
def execStateWatchdogExpiry (s : State) : Host.Outcome State Fault Refusal := chipOn stateWatchdogExpiry s
/-- TIME_NOW_FRAC (R33): A read of TIME_NOW_FRAC latches NS and SEC of the same tick for the following reads. -/
def execTimeNowFrac (who : Initiator) (s : State) : Host.Outcome State Fault Refusal := readReg who TIME_NOW_FRAC s
/-- TIME_PTP_TXTS_KEY (R46): A read of TIME_PTPn_TXTS_KEY pops the head of the egress timestamp FIFO and latches its NS and SEC. -/
def execTimePtpTxtsKey (who : Initiator) (n : Fin 6) (s : State) : Host.Outcome State Fault Refusal := readReg who (TIME_PTP_TXTS_KEY n.val) s
/-- TRIGGER_MODE (R52): A write of MODE in TTRIGn_CTL selects OFF, TIDE, PERIODIC or SOFT, after checks on WIDTH, PERIOD and START. -/
def execTriggerMode (who : Initiator) (n : Fin 16) (w : Word) (s : State) : Host.Outcome State Fault Refusal := writeReg who (TTRIG_CTL n.val) (w) s
/-- PERIODIC_RISE (R51): At each START + k × PERIOD a PERIODIC trigger starts a pulse of WIDTH ticks. -/
def execPeriodicRise (n : Fin 16) (s : State) : Host.Outcome State Fault Refusal := chipOn (periodicRise n.val) s
/-- PULSE (R51): A write of PULSE in SOFT mode starts or restarts one pulse of WIDTH. -/
def execPulse (who : Initiator) (n : Fin 16) (w : Word) (s : State) : Host.Outcome State Fault Refusal := writeReg who (TTRIG_CTL n.val) (TTRIG_CTL_PULSE.put w 1) s
/-- PULSE_END (R52): WIDTH ticks after its latest rise a trigger pulse ends and the output goes inactive. -/
def execPulseEnd (n : Fin 16) (s : State) : Host.Outcome State Fault Refusal := chipOn (pulseEnd n.val) s
/-- CAPTURE_EDGE (R54): A selected edge on a TCAP input, in CONTINUOUS mode or inside an open window, is timestamped into the unit's FIFO or dropped with OVERFLOW. -/
def execCaptureEdge (n : Fin 16) (rising : Bool) (s : State) : Host.Outcome State Fault Refusal := chipOn (fun s => s.inputEdge (0xC0 + n.val) rising (captureEdge n.val)) s
/-- TCAP_TS_NS (R55): A read of TCAPn_TS_NS pops the head of the capture FIFO and latches its SEC. -/
def execTcapTsNs (who : Initiator) (n : Fin 16) (s : State) : Host.Outcome State Fault Refusal := readReg who (TCAP_TS_NS n.val) s

end Sys2Proof.Machine
end

