-- ==== Sys2Proof/Machine/Dispatch.lean ====
section
/-! DEFINITION. What each command does: one arm per row of the operation table. -/
namespace Sys2Proof.Machine

def exec (i : Instr) (s : State) : Host.Outcome State Fault Refusal :=
  match i with
  | .registerWrite who a w => Sys2Proof.Machine.execRegisterWrite who a w s
  | .interconnectAccess who a op lanes upset => Sys2Proof.Machine.execInterconnectAccess who a op lanes upset s
  | .busTimeout who a op => Sys2Proof.Machine.execBusTimeout who a op s
  | .correctionWriteBack line => Sys2Proof.Machine.execCorrectionWriteBack line s
  | .dredgerPass soft hard => Sys2Proof.Machine.execDredgerPass soft hard s
  | .dredgeLate => Sys2Proof.Machine.execDredgeLate s
  | .timeAdvance => Sys2Proof.Machine.execTimeAdvance s
  | .timeCmdStep who w => Sys2Proof.Machine.execTimeCmdStep who w s
  | .timeCmdSet who w => Sys2Proof.Machine.execTimeCmdSet who w s
  | .timeCmdInc who w => Sys2Proof.Machine.execTimeCmdInc who w s
  | .timeCmdKick who w => Sys2Proof.Machine.execTimeCmdKick who w s
  | .forceJump who w => Sys2Proof.Machine.execForceJump who w s
  | .disarm who w => Sys2Proof.Machine.execDisarm who w s
  | .stepApply => Sys2Proof.Machine.execStepApply s
  | .setApply => Sys2Proof.Machine.execSetApply s
  | .incApply => Sys2Proof.Machine.execIncApply s
  | .kickApply => Sys2Proof.Machine.execKickApply s
  | .timeCtlState who w => Sys2Proof.Machine.execTimeCtlState who w s
  | .timeWdog who w => Sys2Proof.Machine.execTimeWdog who w s
  | .stateWatchdogExpiry => Sys2Proof.Machine.execStateWatchdogExpiry s
  | .timeNowFrac who => Sys2Proof.Machine.execTimeNowFrac who s
  | .timePtpTxtsKey who n => Sys2Proof.Machine.execTimePtpTxtsKey who n s
  | .triggerMode who n w => Sys2Proof.Machine.execTriggerMode who n w s
  | .periodicRise n => Sys2Proof.Machine.execPeriodicRise n s
  | .pulse who n w => Sys2Proof.Machine.execPulse who n w s
  | .pulseEnd n => Sys2Proof.Machine.execPulseEnd n s
  | .captureEdge n rising => Sys2Proof.Machine.execCaptureEdge n rising s
  | .tcapTsNs who n => Sys2Proof.Machine.execTcapTsNs who n s
  | .runStart who w => Sys2Proof.Machine.execRunStart who w s
  | .runStop who w => Sys2Proof.Machine.execRunStop who w s
  | .cycleBoundary => Sys2Proof.Machine.execCycleBoundary s
  | .entryIssue => Sys2Proof.Machine.execEntryIssue s
  | .tideNop => Sys2Proof.Machine.execTideNop s
  | .gate => Sys2Proof.Machine.execGate s
  | .stow => Sys2Proof.Machine.execStow s
  | .handPublish => Sys2Proof.Machine.execHandPublish s
  | .handAcquire => Sys2Proof.Machine.execHandAcquire s
  | .trig => Sys2Proof.Machine.execTrig s
  | .capt => Sys2Proof.Machine.execCapt s
  | .motn => Sys2Proof.Machine.execMotn s
  | .dmas => Sys2Proof.Machine.execDmas s
  | .evnt => Sys2Proof.Machine.execEvnt s
  | .wake => Sys2Proof.Machine.execWake s
  | .adcs => Sys2Proof.Machine.execAdcs s
  | .validateA who w => Sys2Proof.Machine.execValidateA who w s
  | .validateB who w => Sys2Proof.Machine.execValidateB who w s
  | .validationEnd b => Sys2Proof.Machine.execValidationEnd b s
  | .tideBankWrite who a w => Sys2Proof.Machine.execTideBankWrite who a w s
  | .swapArm who w => Sys2Proof.Machine.execSwapArm who w s
  | .swapDisarm who w => Sys2Proof.Machine.execSwapDisarm who w s
  | .swapDecision => Sys2Proof.Machine.execSwapDecision s
  | .tideHbCfg who n w => Sys2Proof.Machine.execTideHbCfg who n w s
  | .hbCmdPublish who w => Sys2Proof.Machine.execHbCmdPublish who w s
  | .hbCmdAcquire who w => Sys2Proof.Machine.execHbCmdAcquire who w s
  | .heldOperationApply n => Sys2Proof.Machine.execHeldOperationApply n s
  | .windowExpiry n => Sys2Proof.Machine.execWindowExpiry n s
  | .frameReceive n part => Sys2Proof.Machine.execFrameReceive n part s
  | .cutThrough n part => Sys2Proof.Machine.execCutThrough n part s
  | .frameTransmit n part => Sys2Proof.Machine.execFrameTransmit n part s
  | .lookup who w => Sys2Proof.Machine.execLookup who w s
  | .macWrite who w => Sys2Proof.Machine.execMacWrite who w s
  | .macDelete who w => Sys2Proof.Machine.execMacDelete who w s
  | .macFlush who w => Sys2Proof.Machine.execMacFlush who w s
  | .readIndex who w => Sys2Proof.Machine.execReadIndex who w s
  | .macOperationEnd => Sys2Proof.Machine.execMacOperationEnd s
  | .ageingPass => Sys2Proof.Machine.execAgeingPass s
  | .vlanRead who w => Sys2Proof.Machine.execVlanRead who w s
  | .vlanWrite who w => Sys2Proof.Machine.execVlanWrite who w s
  | .streamRead who w => Sys2Proof.Machine.execStreamRead who w s
  | .streamWrite who w => Sys2Proof.Machine.execStreamWrite who w s
  | .streamClear who w => Sys2Proof.Machine.execStreamClear who w s
  | .unblock who w => Sys2Proof.Machine.execUnblock who w s
  | .streamOperationEnd => Sys2Proof.Machine.execStreamOperationEnd s
  | .portMode who n w => Sys2Proof.Machine.execPortMode who n w s
  | .portCtlReset who n w => Sys2Proof.Machine.execPortCtlReset who n w s
  | .portResetEnd n => Sys2Proof.Machine.execPortResetEnd n s
  | .restartAn who n w => Sys2Proof.Machine.execRestartAn who n w s
  | .linkUp n fin => Sys2Proof.Machine.execLinkUp n fin s
  | .linkLoss n => Sys2Proof.Machine.execLinkLoss n s
  | .linkFilterExpiry n => Sys2Proof.Machine.execLinkFilterExpiry n s
  | .pauseFrame n quanta => Sys2Proof.Machine.execPauseFrame n quanta s
  | .pfcFrame n vec times => Sys2Proof.Machine.execPfcFrame n vec times s
  | .unsupOpcode n => Sys2Proof.Machine.execUnsupOpcode n s
  | .pauseExpiry n prio => Sys2Proof.Machine.execPauseExpiry n prio s
  | .send who n w => Sys2Proof.Machine.execSend who n w s
  | .lpiEntry n => Sys2Proof.Machine.execLpiEntry n s
  | .wakeOnQueue n => Sys2Proof.Machine.execWakeOnQueue n s
  | .wakeComplete n => Sys2Proof.Machine.execWakeComplete n s
  | .verifyTimerExpiry n => Sys2Proof.Machine.execVerifyTimerExpiry n s
  | .verifyResponse n => Sys2Proof.Machine.execVerifyResponse n s
  | .portMmCtl who n w => Sys2Proof.Machine.execPortMmCtl who n w s
  | .portMdioCmd who w => Sys2Proof.Machine.execPortMdioCmd who w s
  | .mdioOperationEnd data => Sys2Proof.Machine.execMdioOperationEnd data s
  | .commit who w => Sys2Proof.Machine.execCommit who w s
  | .commitEnd => Sys2Proof.Machine.execCommitEnd s
  | .stowClear who w => Sys2Proof.Machine.execStowClear who w s
  | .nop n => Sys2Proof.Machine.execNop n s
  | .mov n => Sys2Proof.Machine.execMov n s
  | .sext n => Sys2Proof.Machine.execSext n s
  | .zext n => Sys2Proof.Machine.execZext n s
  | .lea n => Sys2Proof.Machine.execLea n s
  | .bswap n => Sys2Proof.Machine.execBswap n s
  | .add n => Sys2Proof.Machine.execAdd n s
  | .adc n => Sys2Proof.Machine.execAdc n s
  | .sub n => Sys2Proof.Machine.execSub n s
  | .sbb n => Sys2Proof.Machine.execSbb n s
  | .neg n => Sys2Proof.Machine.execNeg n s
  | .mul n => Sys2Proof.Machine.execMul n s
  | .mulhu n => Sys2Proof.Machine.execMulhu n s
  | .mulhs n => Sys2Proof.Machine.execMulhs n s
  | .mac n => Sys2Proof.Machine.execMac n s
  | .and n => Sys2Proof.Machine.execAnd n s
  | .or n => Sys2Proof.Machine.execOr n s
  | .xor n => Sys2Proof.Machine.execXor n s
  | .andn n => Sys2Proof.Machine.execAndn n s
  | .not n => Sys2Proof.Machine.execNot n s
  | .shl n => Sys2Proof.Machine.execShl n s
  | .shr n => Sys2Proof.Machine.execShr n s
  | .sar n => Sys2Proof.Machine.execSar n s
  | .rol n => Sys2Proof.Machine.execRol n s
  | .ror n => Sys2Proof.Machine.execRor n s
  | .bfx n => Sys2Proof.Machine.execBfx n s
  | .bfxs n => Sys2Proof.Machine.execBfxs n s
  | .bfi n => Sys2Proof.Machine.execBfi n s
  | .bset n => Sys2Proof.Machine.execBset n s
  | .bclr n => Sys2Proof.Machine.execBclr n s
  | .beq n => Sys2Proof.Machine.execBeq n s
  | .bne n => Sys2Proof.Machine.execBne n s
  | .blt n => Sys2Proof.Machine.execBlt n s
  | .bge n => Sys2Proof.Machine.execBge n s
  | .bltu n => Sys2Proof.Machine.execBltu n s
  | .bgeu n => Sys2Proof.Machine.execBgeu n s
  | .bbs n => Sys2Proof.Machine.execBbs n s
  | .bbc n => Sys2Proof.Machine.execBbc n s
  | .jmp n => Sys2Proof.Machine.execJmp n s
  | .bf n => Sys2Proof.Machine.execBf n s
  | .djnz n => Sys2Proof.Machine.execDjnz n s
  | .call n => Sys2Proof.Machine.execCall n s
  | .ret n => Sys2Proof.Machine.execRet n s
  | .trap n => Sys2Proof.Machine.execTrap n s
  | .rett n => Sys2Proof.Machine.execRett n s
  | .crc32 n => Sys2Proof.Machine.execCrc32 n s
  | .crc16r n => Sys2Proof.Machine.execCrc16r n s
  | .crc16n n => Sys2Proof.Machine.execCrc16n n s
  | .csum n => Sys2Proof.Machine.execCsum n s
  | .rep n => Sys2Proof.Machine.execRep n s
  | .repi n => Sys2Proof.Machine.execRepi n s
  | .fqpush n => Sys2Proof.Machine.execFqpush n s
  | .fqpop n => Sys2Proof.Machine.execFqpop n s
  | .fqpkt n => Sys2Proof.Machine.execFqpkt n s
  | .snext n => Sys2Proof.Machine.execSnext n s
  | .sclose n => Sys2Proof.Machine.execSclose n s
  | .sstat n => Sys2Proof.Machine.execSstat n s
  | .waite n => Sys2Proof.Machine.execWaite n s
  | .waiteComplete n => Sys2Proof.Machine.execWaiteComplete n s
  | .waiteTimeout n => Sys2Proof.Machine.execWaiteTimeout n s
  | .waitt n => Sys2Proof.Machine.execWaitt n s
  | .waittComplete n => Sys2Proof.Machine.execWaittComplete n s
  | .yield n => Sys2Proof.Machine.execYield n s
  | .swap n => Sys2Proof.Machine.execSwap n s
  | .tas n => Sys2Proof.Machine.execTas n s
  | .cas n => Sys2Proof.Machine.execCas n s
  | .scope n => Sys2Proof.Machine.execScope n s
  | .logev n => Sys2Proof.Machine.execLogev n s
  | .ifence n => Sys2Proof.Machine.execIfence n s
  | .streamWaitEnd n => Sys2Proof.Machine.execStreamWaitEnd n s
  | .eventInterrupt n => Sys2Proof.Machine.execEventInterrupt n s
  | .breakpoint n => Sys2Proof.Machine.execBreakpoint n s
  | .eventSet who n w => Sys2Proof.Machine.execEventSet who n w s
  | .qeTimer n => Sys2Proof.Machine.execQeTimer n s
  | .qeStart who n w => Sys2Proof.Machine.execQeStart who n w s
  | .qeStop who n w => Sys2Proof.Machine.execQeStop who n w s
  | .qeStopLands n => Sys2Proof.Machine.execQeStopLands n s
  | .qeHalt who n w => Sys2Proof.Machine.execQeHalt who n w s
  | .qeResume who n w => Sys2Proof.Machine.execQeResume who n w s
  | .qeStep who n w => Sys2Proof.Machine.execQeStep who n w s
  | .qeWatchdogExpiry n => Sys2Proof.Machine.execQeWatchdogExpiry n s
  | .kick who n w => Sys2Proof.Machine.execKick who n w s
  | .berthCtlStart who b w => Sys2Proof.Machine.execBerthCtlStart who b w s
  | .berthCtlStop who b w => Sys2Proof.Machine.execBerthCtlStop who b w s
  | .notify who b w => Sys2Proof.Machine.execNotify who b w s
  | .berthCtlReset who b w => Sys2Proof.Machine.execBerthCtlReset who b w s
  | .berthResetEnd b => Sys2Proof.Machine.execBerthResetEnd b s
  | .fqDataWrite who q w => Sys2Proof.Machine.execFqDataWrite who q w s
  | .fqTagWrite who q w => Sys2Proof.Machine.execFqTagWrite who q w s
  | .fqDataRead who q => Sys2Proof.Machine.execFqDataRead who q s
  | .ferryFlush who w => Sys2Proof.Machine.execFerryFlush who w s
  | .ferryQCtlFlush who w => Sys2Proof.Machine.execFerryQCtlFlush who w s
  | .switchPortTransmit p => Sys2Proof.Machine.execSwitchPortTransmit p s
  | .dmaStart who ch w => Sys2Proof.Machine.execDmaStart who ch w s
  | .abort who ch w => Sys2Proof.Machine.execAbort who ch w s
  | .descriptorFetch ch => Sys2Proof.Machine.execDescriptorFetch ch s
  | .segmentTransfer ch => Sys2Proof.Machine.execSegmentTransfer ch s
  | .burstGrant ch => Sys2Proof.Machine.execBurstGrant ch s
  | .dreq k on => Sys2Proof.Machine.execDreq k on s
  | .descriptorComplete ch late => Sys2Proof.Machine.execDescriptorComplete ch late s
  | .canMode who n w => Sys2Proof.Machine.execCanMode who n w s
  | .canModeEffect n => Sys2Proof.Machine.execCanModeEffect n s
  | .txBufferLoad n => Sys2Proof.Machine.execTxBufferLoad n s
  | .canTransmit n part => Sys2Proof.Machine.execCanTransmit n part s
  | .busOffRecovery n => Sys2Proof.Machine.execBusOffRecovery n s
  | .canTxCancel who n w => Sys2Proof.Machine.execCanTxCancel who n w s
  | .canReceive n part => Sys2Proof.Machine.execCanReceive n part s
  | .ttEnable who w => Sys2Proof.Machine.execTtEnable who w s
  | .ttCycleStart level => Sys2Proof.Machine.execTtCycleStart level s
  | .ttTrigger => Sys2Proof.Machine.execTtTrigger s
  | .backupReference => Sys2Proof.Machine.execBackupReference s
  | .update who m w => Sys2Proof.Machine.execUpdate who m w s
  | .abufExchange m => Sys2Proof.Machine.execAbufExchange m s
  | .profileTick => Sys2Proof.Machine.execProfileTick s
  | .axisCmdStart who n w => Sys2Proof.Machine.execAxisCmdStart who n w s
  | .axisCmdStop who n w => Sys2Proof.Machine.execAxisCmdStop who n w s
  | .estop who n w => Sys2Proof.Machine.execEstop who n w s
  | .home who n w => Sys2Proof.Machine.execHome who n w s
  | .armNext who n w => Sys2Proof.Machine.execArmNext who n w s
  | .axisCmdClear who n w => Sys2Proof.Machine.execAxisCmdClear who n w s
  | .grpStart who g w => Sys2Proof.Machine.execGrpStart who g w s
  | .grpStop who g w => Sys2Proof.Machine.execGrpStop who g w s
  | .grpEstop who g w => Sys2Proof.Machine.execGrpEstop who g w s
  | .latch who g w => Sys2Proof.Machine.execLatch who g w s
  | .grpClear who g w => Sys2Proof.Machine.execGrpClear who g w s
  | .axPosLoWrite who n w => Sys2Proof.Machine.execAxPosLoWrite who n w s
  | .axPosHiWrite who n w => Sys2Proof.Machine.execAxPosHiWrite who n w s
  | .axPosLoRead who n => Sys2Proof.Machine.execAxPosLoRead who n s
  | .rawInputEdge n k level => Sys2Proof.Machine.execRawInputEdge n k level s
  | .debounceExpiry n k => Sys2Proof.Machine.execDebounceExpiry n k s
  | .chopCycleStart n ph => Sys2Proof.Machine.execChopCycleStart n ph s
  | .deadTimeEnd n ph => Sys2Proof.Machine.execDeadTimeEnd n ph s
  | .blankEnd n ph v => Sys2Proof.Machine.execBlankEnd n ph v s
  | .comparatorTrip n ph v => Sys2Proof.Machine.execComparatorTrip n ph v s
  | .offTimeEnd n ph => Sys2Proof.Machine.execOffTimeEnd n ph s
  | .overCurrent n va vb => Sys2Proof.Machine.execOverCurrent n va vb s
  | .restDelayExpiry n => Sys2Proof.Machine.execRestDelayExpiry n s
  | .encoderEdge n a b => Sys2Proof.Machine.execEncoderEdge n a b s
  | .indexEdge n z => Sys2Proof.Machine.execIndexEdge n z s
  | .encCountLoWrite who n w => Sys2Proof.Machine.execEncCountLoWrite who n w s
  | .encCountHiWrite who n w => Sys2Proof.Machine.execEncCountHiWrite who n w s
  | .encCountLoRead who n => Sys2Proof.Machine.execEncCountLoRead who n s
  | .adcStart who c w => Sys2Proof.Machine.execAdcStart who c w s
  | .conversion c v => Sys2Proof.Machine.execConversion c v s
  | .adcResults c => Sys2Proof.Machine.execAdcResults c s
  | .soundSel who k pin w => Sys2Proof.Machine.execSoundSel who k pin w s
  | .drive n ext clash parity => Sys2Proof.Machine.execDrive n ext clash parity s
  | .sample n ext clash parity => Sys2Proof.Machine.execSample n ext clash parity s
  | .load n ext clash parity => Sys2Proof.Machine.execLoad n ext clash parity s
  | .store n ext clash parity => Sys2Proof.Machine.execStore n ext clash parity s
  | .await n ext clash parity => Sys2Proof.Machine.execAwait n ext clash parity s
  | .awaitComplete n ext => Sys2Proof.Machine.execAwaitComplete n ext s
  | .count n ext clash parity => Sys2Proof.Machine.execCount n ext clash parity s
  | .signal n ext clash parity => Sys2Proof.Machine.execSignal n ext clash parity s
  | .move n ext clash parity => Sys2Proof.Machine.execMove n ext clash parity s
  | .pilotQueueWaitEnd n => Sys2Proof.Machine.execPilotQueueWaitEnd n s
  | .dwellEnd n => Sys2Proof.Machine.execDwellEnd n s
  | .pilotStart who n w => Sys2Proof.Machine.execPilotStart who n w s
  | .pilotStop who n w => Sys2Proof.Machine.execPilotStop who n w s
  | .pilotKick who n w => Sys2Proof.Machine.execPilotKick who n w s
  | .pilotFlush who n w => Sys2Proof.Machine.execPilotFlush who n w s
  | .psStart who k w => Sys2Proof.Machine.execPsStart who k w s
  | .psStop who k w => Sys2Proof.Machine.execPsStop who k w s
  | .plTxdata who n w => Sys2Proof.Machine.execPlTxdata who n w s
  | .plRxdata who n => Sys2Proof.Machine.execPlRxdata who n s
  | .pcieMwr bar dw dws ep => Sys2Proof.Machine.execPcieMwr bar dw dws ep s
  | .pcieMrd bar dw bes => Sys2Proof.Machine.execPcieMrd bar dw bes s
  | .pcieAtomicop bar dw bytes kind x y => Sys2Proof.Machine.execPcieAtomicop bar dw bytes kind x y s
  | .unsupportedRequest kind => Sys2Proof.Machine.execUnsupportedRequest kind s
  | .pcieCompletion => Sys2Proof.Machine.execPcieCompletion s
  | .msixMessage v => Sys2Proof.Machine.execMsixMessage v s
  | .hostifMsixRearm who w => Sys2Proof.Machine.execHostifMsixRearm who w s
  | .pcieInterfaceReset kind => Sys2Proof.Machine.execPcieInterfaceReset kind s
  | .outboundRequest who a op => Sys2Proof.Machine.execOutboundRequest who a op s
  | .outboundCompletion who a fin => Sys2Proof.Machine.execOutboundCompletion who a fin s
  | .completionTimeout who a => Sys2Proof.Machine.execCompletionTimeout who a s
  | .outStarved who a => Sys2Proof.Machine.execOutStarved who a s
  | .hbReadCycle a ben lockn => Sys2Proof.Machine.execHbReadCycle a ben lockn s
  | .hbWriteCycle a ben data lockn => Sys2Proof.Machine.execHbWriteCycle a ben data lockn s
  | .hbControlPage a write ben data => Sys2Proof.Machine.execHbControlPage a write ben data s
  | .lockBroken => Sys2Proof.Machine.execLockBroken s
  | .qspiWrite a ws => Sys2Proof.Machine.execQspiWrite a ws s
  | .qspiRead a => Sys2Proof.Machine.execQspiRead a s
  | .qspiStatus => Sys2Proof.Machine.execQspiStatus s
  | .qspiId => Sys2Proof.Machine.execQspiId s
  | .qstBadcmd code => Sys2Proof.Machine.execQstBadcmd code s
  | .delayedResult k => Sys2Proof.Machine.execDelayedResult k s
  | .delayedExpiry k => Sys2Proof.Machine.execDelayedExpiry k s
  | .prefetchExpiry k => Sys2Proof.Machine.execPrefetchExpiry k s
  | .postedWriteFailure k => Sys2Proof.Machine.execPostedWriteFailure k s
  | .clear who w => Sys2Proof.Machine.execClear who w s
  | .mailboxDataWrite who m k w => Sys2Proof.Machine.execMailboxDataWrite who m k w s
  | .go who m w => Sys2Proof.Machine.execGo who m w s
  | .release who m w => Sys2Proof.Machine.execRelease who m w s
  | .claimLapsed m => Sys2Proof.Machine.execClaimLapsed m s
  | .mbArrival who => Sys2Proof.Machine.execMbArrival who s
  | .mbDbInSet who w => Sys2Proof.Machine.execMbDbInSet who w s
  | .mbDbOutSet who w => Sys2Proof.Machine.execMbDbOutSet who w s
  | .identify m => Sys2Proof.Machine.execIdentify m s
  | .echo m => Sys2Proof.Machine.execEcho m s
  | .reset m => Sys2Proof.Machine.execReset m s
  | .resetBegin m => Sys2Proof.Machine.execResetBegin m s
  | .mbAbort m => Sys2Proof.Machine.execMbAbort m s
  | .securitySet m => Sys2Proof.Machine.execSecuritySet m s
  | .imageLoad m ext => Sys2Proof.Machine.execImageLoad m ext s
  | .imageVerify m ext => Sys2Proof.Machine.execImageVerify m ext s
  | .mramStore m ext => Sys2Proof.Machine.execMramStore m ext s
  | .mramErase m => Sys2Proof.Machine.execMramErase m s
  | .mramList m => Sys2Proof.Machine.execMramList m s
  | .berthCreate m => Sys2Proof.Machine.execBerthCreate m s
  | .berthAssign m => Sys2Proof.Machine.execBerthAssign m s
  | .berthStart m => Sys2Proof.Machine.execBerthStart m s
  | .berthStop m => Sys2Proof.Machine.execBerthStop m s
  | .graceExpiry m => Sys2Proof.Machine.execGraceExpiry m s
  | .berthReload m ext => Sys2Proof.Machine.execBerthReload m ext s
  | .tideValidate m => Sys2Proof.Machine.execTideValidate m s
  | .tideSwap m => Sys2Proof.Machine.execTideSwap m s
  | .tideStart m => Sys2Proof.Machine.execTideStart m s
  | .tideStop m => Sys2Proof.Machine.execTideStop m s
  | .portSet m => Sys2Proof.Machine.execPortSet m s
  | .portStatus m => Sys2Proof.Machine.execPortStatus m s
  | .streamSet m => Sys2Proof.Machine.execStreamSet m s
  | .streamGet m => Sys2Proof.Machine.execStreamGet m s
  | .timeGet m => Sys2Proof.Machine.execTimeGet m s
  | .timeCorrect m => Sys2Proof.Machine.execTimeCorrect m s
  | .timeState m => Sys2Proof.Machine.execTimeState m s
  | .axisMove m => Sys2Proof.Machine.execAxisMove m s
  | .axisHome m => Sys2Proof.Machine.execAxisHome m s
  | .axisStop m => Sys2Proof.Machine.execAxisStop m s
  | .groupMove m => Sys2Proof.Machine.execGroupMove m s
  | .logFreeze m => Sys2Proof.Machine.execLogFreeze m s
  | .logRead m => Sys2Proof.Machine.execLogRead m s
  | .logThaw m => Sys2Proof.Machine.execLogThaw m s
  | .testPattern m => Sys2Proof.Machine.execTestPattern m s
  | .testResult m => Sys2Proof.Machine.execTestResult m s
  | .longCommandEnd m => Sys2Proof.Machine.execLongCommandEnd m s
  | .logEvent who w => Sys2Proof.Machine.execLogEvent who w s
  | .recordWrite c => Sys2Proof.Machine.execRecordWrite c s
  | .breakwaterWindowEnd c => Sys2Proof.Machine.execBreakwaterWindowEnd c s
  | .freeze who w => Sys2Proof.Machine.execFreeze who w s
  | .frozen => Sys2Proof.Machine.execFrozen s
  | .stagedEventsApply => Sys2Proof.Machine.execStagedEventsApply s
  | .logCmdRead who w => Sys2Proof.Machine.execLogCmdRead who w s
  | .writeCfg who w => Sys2Proof.Machine.execWriteCfg who w s
  | .logCmdClear who w => Sys2Proof.Machine.execLogCmdClear who w s
  | .opsecSave => Sys2Proof.Machine.execOpsecSave s
  | .lhSafen low => Sys2Proof.Machine.execLhSafen low s
  | .safeReq who w => Sys2Proof.Machine.execSafeReq who w s
  | .lhCtlRelease who w => Sys2Proof.Machine.execLhCtlRelease who w s
  | .safeStateEntry => Sys2Proof.Machine.execSafeStateEntry s
  | .safeStateRelease => Sys2Proof.Machine.execSafeStateRelease s
  | .lhWatchdogExpiry k => Sys2Proof.Machine.execLhWatchdogExpiry k s
  | .lhKick who w => Sys2Proof.Machine.execLhKick who w s
  | .lhFrameRefused cmd => Sys2Proof.Machine.execLhFrameRefused cmd s
  | .lhNop a data => Sys2Proof.Machine.execLhNop a data s
  | .readLh a data => Sys2Proof.Machine.execReadLh a data s
  | .writeLh a data => Sys2Proof.Machine.execWriteLh a data s
  | .readMb a data => Sys2Proof.Machine.execReadMb a data s
  | .writeMb a data => Sys2Proof.Machine.execWriteMb a data s
  | .lhSafe a data => Sys2Proof.Machine.execLhSafe a data s
  | .lhRelease a data => Sys2Proof.Machine.execLhRelease a data s
  | .lhChipReset a data => Sys2Proof.Machine.execLhChipReset a data s
  | .lhLogFreeze a data => Sys2Proof.Machine.execLhLogFreeze a data s
  | .lhLogThaw a data => Sys2Proof.Machine.execLhLogThaw a data s
  | .lhLogRead a data => Sys2Proof.Machine.execLhLogRead a data s
  | .xtalSwitch on => Sys2Proof.Machine.execXtalSwitch on s
  | .testLinkCtl who l w => Sys2Proof.Machine.execTestLinkCtl who l w s
  | .lockLost l lane units => Sys2Proof.Machine.execLockLost l lane units s
  | .tapReset => Sys2Proof.Machine.execTapReset s
  | .extest => Sys2Proof.Machine.execExtest s
  | .idcode => Sys2Proof.Machine.execIdcode s
  | .samplePreload l => Sys2Proof.Machine.execSamplePreload l s
  | .extestPulse => Sys2Proof.Machine.execExtestPulse s
  | .extestTrain => Sys2Proof.Machine.execExtestTrain s
  | .clamp => Sys2Proof.Machine.execClamp s
  | .highz => Sys2Proof.Machine.execHighz s
  | .debug => Sys2Proof.Machine.execDebug s
  | .bypass => Sys2Proof.Machine.execBypass s
  | .accessUpdate op size a data => Sys2Proof.Machine.execAccessUpdate op size a data s
  | .sysResetChip who w => Sys2Proof.Machine.execSysResetChip who w s
  | .sysResetCore who w => Sys2Proof.Machine.execSysResetCore who w s
  | .vinValid => Sys2Proof.Machine.execVinValid s
  | .vinInvalid => Sys2Proof.Machine.execVinInvalid s
  | .railOutOfRegulation => Sys2Proof.Machine.execRailOutOfRegulation s
  | .bankDown b up => Sys2Proof.Machine.execBankDown b up s
  | .refclkFailure => Sys2Proof.Machine.execRefclkFailure s
  | .tsrefLost => Sys2Proof.Machine.execTsrefLost s
  | .canrefLost => Sys2Proof.Machine.execCanrefLost s
  | .tsSrc who w => Sys2Proof.Machine.execTsSrc who w s
  | .resetn low => Sys2Proof.Machine.execResetn low s
  | .chipReset => Sys2Proof.Machine.execChipReset s
  | .chipResetRelease boot mode wide => Sys2Proof.Machine.execChipResetRelease boot mode wide s
  | .coreReset => Sys2Proof.Machine.execCoreReset s
  | .coreResetEnd => Sys2Proof.Machine.execCoreResetEnd s
  | .causewayReset => Sys2Proof.Machine.execCausewayReset s
  | .bootImageStart => Sys2Proof.Machine.execBootImageStart s
  | .autoload => Sys2Proof.Machine.execAutoload s
  | .musterCount q bytes => Sys2Proof.Machine.execMusterCount q bytes s
  | .musterBlock q bytes => Sys2Proof.Machine.execMusterBlock q bytes s
  | .musterDone q bytes => Sys2Proof.Machine.execMusterDone q bytes s
  | .musterRequest q bytes => Sys2Proof.Machine.execMusterRequest q bytes s
  | .emu n => Sys2Proof.Machine.execEmu n s
  | .illegal n parity => Sys2Proof.Machine.execIllegal n parity s
  | .lpiRx n idle => Sys2Proof.Machine.execLpiRx n idle s
  | .pciePerstnRising => Sys2Proof.Machine.execPciePerstnRising s
  | .pcieLinkUp speed width => Sys2Proof.Machine.execPcieLinkUp speed width s
  | .configurationWrite f => Sys2Proof.Machine.execConfigurationWrite f s
  | .causewayResetEnd => Sys2Proof.Machine.execCausewayResetEnd s
  | .timePllLocked => Sys2Proof.Machine.execTimePllLocked s
  | .checkerLocked l lane => Sys2Proof.Machine.execCheckerLocked l lane s
  | .laneErr l lane units => Sys2Proof.Machine.execLaneErr l lane units s
  | .logOperationEnd => Sys2Proof.Machine.execLogOperationEnd s
  | .lhFreezeTimeout => Sys2Proof.Machine.execLhFreezeTimeout s
  | .operatingSecond => Sys2Proof.Machine.execOperatingSecond s
  | .lighthousePowerLoss => Sys2Proof.Machine.execLighthousePowerLoss s

end Sys2Proof.Machine
end

