-- ==== Sys2Proof/Safety.lean ====
section
/-! DEFINITION. What counts as a safe run of the block, in the terms that claims use: the block never stops, and its tables keep their
canonical form. -/
namespace Sys2Proof.Machine

/-- A step ends in a next state. -/
def State.goesOn (s : State) : Prop := ∃ t, step s = .next t

/-- The registers and the memory are in canonical form: keys rising, no entry equal to what an unlisted key reads as. -/
def State.storeOk (s : State) : Prop :=
  twf resetWord s.regs = true ∧ Memory.wf s.mem = true ∧ twf (fun _ => 0) s.latch = true ∧ twf (fun _ => 0) s.held = true

/-- The records of the block's units that stand beside their registers are in canonical form: one table for each kind of unit. -/
def State.unitsOk (s : State) : Prop :=
  twf (fun _ => []) s.hb = true ∧ twf (fun _ => {}) s.port = true ∧ twf (fun _ => {}) s.qe = true ∧ twf (fun _ => {}) s.fq = true
  ∧ twf (fun _ => 0) s.txRR = true ∧ twf (fun _ => {}) s.dma = true ∧ twf (fun _ => {}) s.can = true ∧ twf (fun _ => {}) s.ax = true
  ∧ twf (fun _ => {}) s.grp = true ∧ twf (fun _ => {}) s.chop = true ∧ twf (fun _ => {}) s.enc = true ∧ twf (fun _ => {}) s.adc = true
  ∧ twf (fun _ => {}) s.pilot = true ∧ twf (fun _ => {}) s.pset = true ∧ twf (fun _ => {}) s.mb = true

/-- The register store, the memories and the unit records that `storeOk` and `unitsOk` name are in canonical form, so that equal contents are equal
data. It says nothing of the tables nested inside a unit's record, such as the switch's tables or the boundary registers. -/
def State.Inv (s : State) : Prop := s.storeOk ∧ s.unitsOk

/-! ## Accesses that are served -/

/-- A field that lies in the word, as every field does. -/
def Fld.ok (f : Fld) : Prop := f.lo ≤ f.hi ∧ f.hi < 32

/-- The target of an access of `who` at `a` serves it now: no reset holds the target (R471), no earlier access of `who` there has ended and not been
taken up, and no lock of the host bus keeps `who` out (R387). -/
def State.serves (s : State) (who : Initiator) (a : Nat) : Bool :=
  !s.rst.chip && (s.ended who a).isNone &&
    match regionOf a with
    | some (r, base) => !(s.rst.core && r.coreHeld) && !s.lockedOut who base
    | none => false

/-- An access of `who` at `a` is answered now: `who` may make it (R12), nothing that its host interface accepted earlier is still to be performed (R374),
it takes no buffer back from an outbound request (R397; where it does, the access goes on as in the state with the buffer taken back), and the target
serves it. -/
def State.answers (s : State) (who : Initiator) (a : Nat) : Bool := s.mayAccess who a && s.isNext who && !s.needsRoom who a && s.serves who a

/-- A read of `who` at `a` is answered now, and meets no fence of its host interface (R395). -/
def State.readTaken (s : State) (who : Initiator) (a : Nat) : Bool := s.answers who a && !s.fenceMet who a

/-- The state in which a write of a word at `a` is made: its host interface has accepted it (R391, R393, R394), and a lock that it waited for is
passed (R387). -/
def State.atWrite (s : State) (who : Initiator) (a : Nat) : State := (s.admitWrite who a 4).lockPassed who a

/-- The state in which a read at `a` is made. -/
def State.atRead (s : State) (who : Initiator) (a : Nat) : State := (s.admitRead who a).lockPassed who a

/-- A write of the register at `a` is taken: answered, and neither ended with an error or a rejection by its block's rules nor discarded whole (R8,
R22, R24, R403). -/
def State.writeTaken (s : State) (who : Initiator) (a : Nat) (w : Word) : Bool :=
  s.answers who a &&
    match findReg a with
    | some (row, l) =>
      let u := s.atWrite who a
      let k := blockOf a
      let a0 := 0x40000000 + k * 0x10000 + row.off
      !u.wrErr who k a0 l w && (u.wrReject who k a0 (l.headD 0) w).isNone && !u.wrBad who a k a0 row l w
    | none => false

/-- The record of an access that ended well with the data `v`. -/
def State.noted (s : State) (who : Initiator) (a v : Nat) : State := State.record who a (s, .done, v)

/-- The word of the register at `a` after a write of `w`: its fields by their access codes (R8). -/
def State.wordAfter (s : State) (a : Nat) (w : Word) : Word :=
  match findReg a with
  | some (row, _) => row.written (s.reg a) w
  | none => s.reg a

/-- The state after a write of `w` at `a` that is taken and does `f` beside setting the register's fields. -/
def State.did (s : State) (who : Initiator) (a : Nat) (w : Word) (f : State → State) : State :=
  ((f ((s.atWrite who a).setReg a (s.wordAfter a w))).noted who a 0).after

/-- The state after a read at `a` that ends well with the data `v` and does `f`. -/
def State.gave (s : State) (who : Initiator) (a v : Nat) (f : State → State) : State := ((f (s.atRead who a)).noted who a v).after

/-! ## Instructions that complete -/

/-- Engine n, held by no reset, is to execute the word `w`, which stands at its PC, as instruction `i`: `s1` is the state once it is fetched,
`o` its operands as they read. -/
structure State.qeReads (s : State) (n : Nat) (i : QInstr) (w : Nat) (s1 : State) (o : OpsIn) : Prop where
  chip  : s.rst.chip = false
  core  : s.rst.core = false
  ready : s.qeReady n = true
  base  : s.qeBase n = i.base
  owner : n = 24 ∨ i.base < 0xF0
  fetch : s.qeFetch n (s.qeOf n).pc = .ok (s1, w)
  reads : s1.readAll n i w ((s.qeOf n).pc + 1) = .ok o

/-- The command `c` completes as instruction `i` of engine n wherever the operands read, satisfy `p`, and the writes land: the operation's result
is `r`, a function of the operands, and the engine goes on at the index that the result names, else at the next one. -/
def State.completes (s : State) (n : Nat) (i : QInstr) (c : Instr) (p : OpsIn → Prop) (r : OpsIn → Res) : Prop :=
  ∀ w s1 o t, s.qeReads n i w s1 o → p o → s1.commitAll n i o (r o) = .ok t →
    exec c s = .next (t.st.qeRetire n ((r o).pc.getD ((s.qeOf n).pc + 1)) (r o).pass).after

/-! ## Pilots that execute -/

/-- Pilot n, RUNNING and at an execute clock, is to execute the word `w` that stands at its PC with opcode `op`: its parity is right and it is legal
(R354, R356, R367). -/
structure State.pilotRuns (s : State) (n op w : Nat) : Prop where
  chip  : s.rst.chip = false
  ready : s.pilotExecutes n = true
  word  : s.pilotWord n = w
  op    : plOp w = op
  good  : (s.psetOf (n / 4)).bad.contains (s.pilotOf n).pc = false
  legal : s.plIllegal n w = false

/-- Pilot n at an execute clock with the word `w`, `ext` lying at its set's balls from outside: the side pins and the OUT pins take their levels, but
for the positions in `clash`, which a lower-numbered pilot drives (R352, R355), and NEXT names the successor. -/
def State.pilotDrove (s : State) (n w ext clash : Nat) (out : State → List (Nat × Bool)) : State :=
  let u := s.presentPins (n / 4) ext
  (u.drivePins n clash (mergeDrive u.free (u.sideGroup n (plMark w)) (out u))).tickFree.modPilot n fun x => { x with next := plNext w }

/-! ## Mailbox commands that are carried out -/

/-- Mailbox m holds a request of code `c` and LENGTH `n` that the harbourmaster takes and that passes the checks of R413 common to all commands:
the code is served, FLAGS is legal, the sender may issue it, no object it writes is held, and for a long command fewer than four run. -/
structure State.hmTakes (s : State) (m c n : Nat) (long : Bool) : Prop where
  chip   : s.rst.chip = false
  core   : s.rst.core = false
  takes  : s.takes m = true
  code   : (s.reqOf m).code = c
  len    : (s.reqOf m).len = n
  fits   : n ≤ 15
  served : (s.take m).served.contains c = true
  flags  : (s.reqOf m).flags < 2
  may    : (s.take m).deniedTo (s.reqOf m) = false
  free   : ((s.take m).objsOf c (s.reqOf m).ws).any (s.take m).heldObjs.contains = false
  room   : long = true → (s.take m).longRuns.length < 4

/-- The state in which the request of mailbox m is answered `a`, its command having left the state `u`. -/
def State.hmAnswers (s : State) (m : Nat) (u : State) (a : Answer) : State :=
  (u.mbPost m (s.reqOf m).code (s.reqOf m).tag (s.reqOf m).flags a).after

/-! ## Handover buffers -/

/-- The three slots of handover buffer n have different roles (R79). -/
def State.slotsApart (s : State) (n : Nat) : Prop :=
  let w := s.fld (TIDE_HB_STATE n) TIDE_HB_STATE_W
  let p := s.fld (TIDE_HB_STATE n) TIDE_HB_STATE_P
  let r := s.fld (TIDE_HB_STATE n) TIDE_HB_STATE_R
  w ≠ p ∧ p ≠ r ∧ r ≠ w

end Sys2Proof.Machine
end

