-- ==== Sys2Proof/Certificates/Slice0/Obligations.lean ====
section
/-! DEFINITION. The statements for the provers. -/
open Sys2Proof Sys2Proof.Machine

/-- A step runs the command at the front of the queue on the state with the rest of the queue. For every command c, queue q and state s whose pending
queue is c followed by q, step of s is exec c on s with the queue q. -/
def Obligations.StepRunsTheFrontCommand : Prop :=
  ∀ (s : State) (c : Instr) (q : List Instr), s.pending = c :: q → step s = exec c { s with pending := q }

/-- A step on an empty queue leaves the state as it is (the model's choice, log 1). For every state whose pending queue is empty, step answers that
same state. This is the model's own choice (log 1): time passes only by the commands of the table. -/
def Obligations.StepIdlesOnAnEmptyQueue : Prop :=
  ∀ s : State, s.pending = [] → step s = .next s

/-- Every command answers a next state from every state. For every command and every state there is a next state that exec answers: no command faults
and none is refused. -/
def Obligations.EveryCommandAnswersANextState : Prop :=
  ∀ (c : Instr) (s : State), ∃ t, exec c s = .next t

/-- Every step keeps the registers, the memory and the unit records in canonical form. From every state whose registers, memory, latches and held
half-writes are in canonical form (keys strictly rising, no entry equal to what an unlisted key reads as), and whose tables of unit records are (handover
buffers' held operations, ports, engines, ferry queues, round-robin places, DMA channels, CAN controllers, axes, groups, choppers, encoders, converters,
pilots, pilot sets, mailboxes), a step that answers a next state answers one in that form. Tables nested in a record (those of the switch, the debug port,
the lighthouse, the tide engine, the logbook, the causeway and the time-triggered unit) have no form in State.Inv. -/
def Obligations.StepKeepsTablesCanonical : Prop :=
  ∀ s t : State, s.Inv → step s = .next t → t.Inv

/-- Reset meets the invariant, and SYS_ID, the time and the increment hold their reset values. State.reset has the tables that State.Inv names in
canonical form and an empty queue. There SYS_ID reads 0x3224_1110, the time of day is 0 and the increment in force is 4.0 ns. That the model is the BI grade is the
model's choice (log 5). -/
def Obligations.ResetIsCanonicalAndReadsItsValues : Prop :=
  (State.reset.Inv ∧ State.reset.pending = [])
  ∧ (State.reset.reg SYS_ID = 0x32241110 ∧ State.reset.time.tod % todMod = 0 ∧ State.reset.time.inc = 0x0400000000)

/-- A memory write lands its bytes, clears the poison of the words it covers whole, and leaves every other word poisoned as it was. For every
canonical state, address and byte list, after the memory write State.store every written byte reads as written and every other byte as before; a
128-bit word (line) is poisoned afterwards exactly when it was poisoned before and the write does not cover it whole. So a write that covers a
poisoned word whole replaces it and clears its poison, and a partial write completes and leaves the word poisoned. -/
def Obligations.WholeWordWritesClearPoison : Prop :=
  ∀ (s : State) (a : Nat) (bs : List Nat), s.Inv →
    (∀ b, (s.store a bs).rd8 b = if a ≤ b ∧ b < a + bs.length then bs.getD (b - a) 0 % 256 else s.rd8 b)
    ∧ ∀ l, l ∈ (s.store a bs).mm.poison ↔ l ∈ s.mm.poison ∧ ¬(a ≤ 16 * l ∧ 16 * l + 16 ≤ a + bs.length)

/-- The time of day keeps its field ranges, carries and borrows one second at the ends of NS, wraps SEC at 2^48, and is 0 at reset. The time of day is
one number in units of 2^-32 ns, modulo 2^48 s. For every time of day, SEC is below 2^48, NS at most 999,999,999 and FRAC below 2^16. Moved by any
signed amount d whose sum with the part below a second is n: for n within the second SEC is unchanged; for n of one second or more one second is
subtracted and SEC rises by 1, from 2^48 - 1 to 0; for negative n one second is added and SEC falls by 1, from 0 to 2^48 - 1. The time of day is 0
in State.reset. -/
def Obligations.TimeOfDayCarriesIntoSeconds : Prop :=
  (todSec State.reset.time.tod = 0 ∧ State.reset.time.tod % secUnits = 0) ∧ ∀ t, todSec t < 2 ^ 48 ∧ todNs t < 1000000000 ∧ todFrac t < 2 ^ 16
    ∧ ∀ d : Int, let n : Int := t % secUnits + d
      let t' := todAdd t d
      (0 ≤ n ∧ n < secUnits → todSec t' = todSec t ∧ ((t' % secUnits : Nat) : Int) = n)
      ∧ (secUnits ≤ n ∧ n < 2 * secUnits → todSec t' = (todSec t + 1) % 2 ^ 48 ∧ ((t' % secUnits : Nat) : Int) = n - secUnits)
      ∧ (-secUnits ≤ n ∧ n < 0 → todSec t' = (todSec t + (2 ^ 48 - 1)) % 2 ^ 48 ∧ ((t' % secUnits : Nat) : Int) = n + secUnits)

/-- A counter field saturates at all ones, sets SAT when it gets there, and leaves everything else alone. For every canonical state, register and
field, counting n events makes the field the smaller of its all-ones value and its old value plus n. If it reaches all ones by that, SAT of its
block's summary reads 1. Every other field of the register and every other register but the summary are unchanged. -/
def Obligations.CounterFieldsSaturate : Prop :=
  ∀ (s : State) (a n : Nat) (f : Fld), s.Inv → f.ok → a ≠ SUMMARY (blockOf a) →
    let top := 2 ^ (f.hi - f.lo + 1) - 1
    (s.countN a f n).fld a f = min top (s.fld a f + n)
    ∧ (s.fld a f < top → top ≤ s.fld a f + n → (s.countN a f n).bit (SUMMARY (blockOf a)) SUMMARY_SAT = true)
    ∧ (∀ g : Fld, g.ok → (f.hi < g.lo ∨ g.hi < f.lo) → (s.countN a f n).fld a g = s.fld a g)
    ∧ ∀ b, b ≠ a → b ≠ SUMMARY (blockOf a) → (s.countN a f n).reg b = s.reg b

/-- CSUM gives the 16-bit ones' complement sum of A and the bytes of B, 0 only when both are 0. For every 16-bit A and up to eight bytes of B taken as
16-bit words, the first byte the most significant, the result is a 16-bit number that agrees with A plus those words modulo 65,535 (end-around
carry), and it is 0 exactly when A and every byte of B are 0 (so a result of 0xFFFF stays 0xFFFF). The body of CSUM writes that result to A with
the bytes of B in memory order. -/
def Obligations.CsumIsTheOnesComplementSum : Prop :=
  (∀ (a : Nat) (bs : List Nat), a < 65536 → bs.length ≤ 8 → (∀ b ∈ bs, b < 256) →
    let sum := a + ((List.range bs.length).map fun i => bs.getD i 0 * (if i % 2 = 0 then 256 else 1)).sum
    let r := onesFold (a + csumWords bs)
    r < 65536 ∧ r % 65535 = sum % 65535 ∧ (r = 0 ↔ a = 0 ∧ ∀ b ∈ bs, b = 0))
  ∧ (∀ (n : Nat) (s : State) (v : Vals), iCsum.body n s v = retA s (zn v 16 (onesFold (v.a + csumWords (leBytes (v.size / 8) v.b)))))

/-- BFX takes the field bits below the top bit of the operand and zeros above them; BFI replaces those field bits and no other. For every width w,
operands and field operand C with position p and width n: bit i of the extracted field is bit p + i of the source where i is below n and p + i
below w - 1, else 0; bit i of the inserted value is bit i - p of B where i is from p to p + n - 1 and below w - 1, and bit i of A elsewhere, for i
below w, and 0 above. -/
def Obligations.BitFieldsAreTakenAndReplaced : Prop :=
  ∀ (w a b c : Nat), a < 2 ^ w → let p := bitsOf 5 0 c
    let n := bitsOf 11 6 c + 1
    (∀ i, (bfx w b c).testBit i = (decide (i < n ∧ p + i < w - 1) && b.testBit (p + i)))
    ∧ ∀ i, (bfi w a b c).testBit i = (decide (i < w) && if p ≤ i ∧ i < p + n ∧ i < w - 1 then b.testBit (i - p) else a.testBit i)

/-- A publish or an acquire keeps the writer, published and reader slots of a handover buffer three different slots. From every canonical state in
which W, P and R of buffer n differ pairwise, a publish by either side and an acquire leave W, P and R of that buffer pairwise different. -/
def Obligations.HandoverSlotsStayApart : Prop :=
  ∀ (s : State) (n : Nat) (soft : Bool), s.Inv → n < 256 → s.slotsApart n → (s.hbPublish n soft).slotsApart n ∧ (s.hbAcquire n).slotsApart n

/-- SYS_EVENT bit k is the OR of the enabled summary bits of block k, and a write of SYS_EVENT changes nothing. Bit k of SYS_EVENT, for k below 24, is
1 exactly when some bit is 1 in both the summary and the mask of block k; bits 24 and above are 0; a read of SYS_EVENT returns that word and
changes nothing; a write of any word leaves a canonical state as it was, so the bits clear only as their sources do. -/
def Obligations.SysEventIsTheOrOfEnabledBits : Prop :=
  ∀ (s : State), (∀ k < 24, s.sysEvent.getLsbD k = true ↔
      ∃ i < 32, (s.summary k).testBit i = true ∧ (s.reg (SUMMARY_MASK k)).getLsbD i = true)
    ∧ (∀ k, 24 ≤ k → s.sysEvent.getLsbD k = false)
    ∧ (∀ who, s.regRead who SYS_EVENT = (s, .done, s.sysEvent.toNat))
    ∧ (s.Inv → ∀ who w, s.regWrite who SYS_EVENT w = (s, .done))

/-- TIME_JUMP_LIMIT resets to 1,000 and takes 1 to 1,000,000,000; any other value is discarded whole as a reserved encoding. TIME_JUMP_LIMIT resets to
1,000. A register write of it that is answered sets the register when its value is 1 to 1,000,000,000, and nothing else; for 0 or more than
1,000,000,000 the register keeps its value and the write is discarded with CFG_REJECT. -/
def Obligations.JumpLimitTakesOnlyItsRange : Prop :=
  resetWord TIME_JUMP_LIMIT = 1000 ∧ ∀ (s : State) (who : Initiator) (w : Word), s.answers who TIME_JUMP_LIMIT = true →
    let v := TIME_JUMP_LIMIT_LIMIT.get w
    (1 ≤ v ∧ v ≤ 1000000000 → exec (.registerWrite who 0x40040040 w) s = .next (s.did who TIME_JUMP_LIMIT w id))
    ∧ (v = 0 ∨ 1000000000 < v → exec (.registerWrite who 0x40040040 w) s
        = .next ((((s.atWrite who TIME_JUMP_LIMIT).cfgReject TIME_JUMP_LIMIT).noted who TIME_JUMP_LIMIT 0).after))

/-- Reading the low word of a 64-bit octet counter latches the high word; writing 0 to it clears both; the high word is read-only. For each port and
each of its two octet counters: a read of the low word returns it, and while the latch it leaves stands, a read of the high word returns the high
word of that moment; a write of 0 to the low word clears both words; a write of the high word changes nothing. -/
def Obligations.OctetCountersLatchTheirHighWord : Prop :=
  ∀ (s : State) (who : Initiator) (n : Fin 6), s.Inv → ∀ lo ∈ [PORT_OCTETS_TX_LO n, PORT_OCTETS_RX_LO n],
    (∃ s1, s.regRead who lo = (s1, .done, (s.reg lo).toNat)
      ∧ ∀ t : State, t.latch = s1.latch → (t.regRead who (lo + 4)).2 = (.done, (s.reg (lo + 4)).toNat))
    ∧ (∃ s2, s.regWrite who lo 0 = (s2, .done) ∧ s2.reg lo = 0 ∧ s2.reg (lo + 4) = 0)
    ∧ ∀ w, s.regWrite who (lo + 4) w = (s, .done)

/-- A register write that is discarded changes only CFG_REJECT and, if that was 0, SYS_REJECT_ADDR. For every canonical state and every register write
that its block's rules discard (a reserved encoding, a locked RWL field that would change, a counter written with other than zero), the access
ends well, CFG_REJECT reads 1, SYS_REJECT_ADDR holds the address unless CFG_REJECT was set already, and every other register and all other state
are unchanged. -/
def Obligations.DiscardedWritesChangeNothingElse : Prop :=
  ∀ (s : State) (who : Initiator) (a : Nat) (w : Word) (row : RegRow) (l : List Nat), s.Inv → findReg a = some (row, l) →
    let k := blockOf a
    let a0 := 0x40000000 + k * 0x10000 + row.off
    s.wrErr who k a0 l w = false → s.wrReject who k a0 (l.headD 0) w = none → s.wrBad who a k a0 row l w = true →
    ∃ t, s.regWrite who a w = (t, .done) ∧ (∀ b, b ≠ SYS_STATUS → b ≠ SYS_REJECT_ADDR → t.reg b = s.reg b)
      ∧ t.bit SYS_STATUS SYS_STATUS_CFG_REJECT = true
      ∧ t.reg SYS_REJECT_ADDR = (if s.bit SYS_STATUS SYS_STATUS_CFG_REJECT then s.reg SYS_REJECT_ADDR else w32 a)
      ∧ t = { s with regs := t.regs }

/-- Every field of every register takes a write by its access code. For every address that is a register, every field of its row, every old word and
written word: after the write an RW or RWL field holds the written bits, a W1C field has the written ones cleared, a W1S field has them added, a
counter field is 0, and an RO or WO field is as before. -/
def Obligations.WritesFollowTheAccessCodes : Prop :=
  ∀ (a : Nat) (row : RegRow) (l : List Nat) (f : FldRow) (old w : Word), findReg a = some (row, l) → f ∈ row.flds →
    f.fld.get (row.written old w) = match f.acc with
      | .rw | .rwl => f.fld.get w
      | .w1c => f.fld.get old - Nat.land (f.fld.get old) (f.fld.get w)
      | .w1s => Nat.lor (f.fld.get old) (f.fld.get w)
      | .cnt => 0
      | .ro | .wo => f.fld.get old

/-- An access that no region covers, and an atomic operation outside the regions marked A, end with a bus error and change nothing. For every state: a
read, a write or an atomic operation at an address that no region covers, with no earlier access there to take up, ends with a bus error and changes
nothing; an atomic operation at an address whose region is not marked A does too, and one of PCIe anywhere but in PIM. -/
def Obligations.UnservedAccessesEndWithBusErrors : Prop :=
  (∀ (s : State) (who : Initiator) (a n : Nat) (bs : List Nat), regionOf a = none →
    (s.ended who a = none → s.busRead who a n = (s, .busError, 0)) ∧ (s.ended who a true = none → s.busWrite who a bs = (s, .busError)))
  ∧ (∀ (s : State) (who : Initiator) (a n : Nat) (f : Nat → Option Nat),
    (regionOf a = none → s.ended who a = none → s.busAtomic who a n f = (s, .busError, 0))
    ∧ ∀ r : Region × Nat, regionOf a = some r → r.1.atomics = false ∨ (who = .pcie ∧ r.1 ≠ .pim) → s.busAtomic who a n f = (s, .busError, 0))

/-- What settles after every command touches only the debug port's result, accesses, DMA regions, link-test counts, vectors sent and watchdogs. For
every canonical state, what is done after every command (State.after) leaves every field as it is but the
debug port's RESULT and DATA, the list of waiting accesses, the region that a DMA channel gives up, the progress of the link tests with their BITS
counters and the summary of their block, the list of interrupt vectors sent, and the restarts and holds of the lighthouse's watchdogs. -/
def Obligations.SettlingTouchesOnlyPortWaitsRegionsLinksVectorsAndWatchdogs : Prop :=
  ∀ s : State, s.Inv → ∃ r d links waits sent wat held dma regs, s.after
      = { s with tap := { s.tap with result := r, data := d, links := links }, cw := { s.cw with sent := sent, waits := waits }
                 lh := { s.lh with wdogAt := wat, held := held }, dma := dma, regs := regs }
    ∧ (∀ n, s.after.dmaOf n = s.dmaOf n ∨ s.after.dmaOf n = { s.dmaOf n with region := false })
    ∧ ∀ b, (∀ l, b ≠ TEST_LINK_BITS l ∧ b ≠ SUMMARY (blockOf (TEST_LINK_BITS l))) → s.after.reg b = s.reg b

/-- Writes of the TIME registers request the commands, move the state, restart the watchdog and act on triggers. A write that is taken sets the
register by its access codes and does what its row says beside. Every clause concludes with the next state that exec answers, under hypotheses on
the state and the operands alone. That a write which changes MODE of a trigger ends its pulse, and that MODE and PULSE written together pulse, is
the model's choice (log 100). Commands: TIME_CMD_STEP, TIME_CMD_SET, TIME_CMD_INC, TIME_CMD_KICK, FORCE_JUMP, DISARM, TIME_CTL_STATE, TIME_WDOG,
TRIGGER_MODE, PULSE. -/
def Obligations.TimeRegisterWritesAct : Prop :=
  (∀ (s : State) (who : Initiator) (w : Word),
    let eff (w : Word) (u : State) : State :=
      let u := if TIME_CMD_KICK.get w ≠ 0 then u.modTime fun t => { t with kick := t.kick + 1 } else u
      if TIME_CMD_DISARM.get w ≠ 0 then u.clrB TIME_CMD TIME_CMD_FORCE_JUMP else u
    let ok (w : Word) : Bool := s.writeTaken who TIME_CMD w
    (ok (TIME_CMD_STEP.put w 1) → exec (.timeCmdStep who w) s = .next (s.did who TIME_CMD (TIME_CMD_STEP.put w 1) (eff (TIME_CMD_STEP.put w 1))))
    ∧ (ok (TIME_CMD_SET.put w 1) → exec (.timeCmdSet who w) s = .next (s.did who TIME_CMD (TIME_CMD_SET.put w 1) (eff (TIME_CMD_SET.put w 1))))
    ∧ (ok (TIME_CMD_INC.put w 1) → exec (.timeCmdInc who w) s = .next (s.did who TIME_CMD (TIME_CMD_INC.put w 1) (eff (TIME_CMD_INC.put w 1))))
    ∧ (ok (TIME_CMD_KICK.put w 1) → exec (.timeCmdKick who w) s = .next (s.did who TIME_CMD (TIME_CMD_KICK.put w 1) (eff (TIME_CMD_KICK.put w 1))))
    ∧ (ok (TIME_CMD_FORCE_JUMP.put w 1) →
        exec (.forceJump who w) s = .next (s.did who TIME_CMD (TIME_CMD_FORCE_JUMP.put w 1) (eff (TIME_CMD_FORCE_JUMP.put w 1))))
    ∧ (ok (TIME_CMD_DISARM.put w 1) → exec (.disarm who w) s = .next (s.did who TIME_CMD (TIME_CMD_DISARM.put w 1) (eff (TIME_CMD_DISARM.put w 1)))))
  ∧ (∀ (s : State) (who : Initiator) (w : Word), s.writeTaken who TIME_CTL w = true →
    exec (.timeCtlState who w) s = .next (s.did who TIME_CTL w fun u =>
      let v := if s.fld TIME_CTL TIME_CTL_STATE = 1 ∧ TIME_CTL_STATE.get w = 1 ∧ u.stateWdogDue then
        (u.setB TIME_STATUS TIME_STATUS_HOLDOVER_ENTERED).logEv 0x22 0 else u
      v.modTime fun t => { t with
        wdogEnd := if v.fld TIME_CTL TIME_CTL_STATE = 1 ∧ v.fld TIME_WDOG TIME_WDOG_INTERVAL ≠ 0
          then some (t.tick + 250 * v.fld TIME_WDOG TIME_WDOG_INTERVAL) else none }))
  ∧ (∀ (s : State) (who : Initiator) (w : Word), s.writeTaken who TIME_WDOG w = true →
    exec (.timeWdog who w) s = .next (s.did who TIME_WDOG w fun u => u.modTime fun t => { t with
      wdogEnd := if u.fld TIME_CTL TIME_CTL_STATE = 1 ∧ u.fld TIME_WDOG TIME_WDOG_INTERVAL ≠ 0
        then some (t.tick + 250 * u.fld TIME_WDOG TIME_WDOG_INTERVAL) else none }))
  ∧ (∀ (s : State) (who : Initiator) (n : Fin 16) (w : Word), s.writeTaken who (TTRIG_CTL n) w = true →
    let pulse (v : Word) (u : State) : State := if TTRIG_CTL_PULSE.get v ≠ 0 ∧ TTRIG_CTL_MODE.get v = 3 then u.trigPulse n else u
    exec (.triggerMode who n w) s = .next (s.did who (TTRIG_CTL n) w fun u => pulse w <|
      if TTRIG_CTL_MODE.get w = s.fld (TTRIG_CTL n) TTRIG_CTL_MODE then u
      else
        let u := u.setTrig n { u.trigOf n with active := false, endTick := none }
        if u.fld (TTRIG_CTL n) TTRIG_CTL_MODE = 2 then
          u.setTrig n { u.trigOf n with next := u.firstRise n }
        else u))
  ∧ (∀ (s : State) (who : Initiator) (n : Fin 16) (w : Word), s.writeTaken who (TTRIG_CTL n) (TTRIG_CTL_PULSE.put w 1) = true →
    TTRIG_CTL_PULSE.get (TTRIG_CTL_PULSE.put w 1) ≠ 0 → TTRIG_CTL_MODE.get (TTRIG_CTL_PULSE.put w 1) = 3 →
    s.fld (TTRIG_CTL n) TTRIG_CTL_MODE = 3 →
    exec (.pulse who n w) s = .next (s.did who (TTRIG_CTL n) (TTRIG_CTL_PULSE.put w 1) fun u => if u.safe then u else
      u.setTrig n { u.trigOf n with active := true, endTick := some (u.time.tick + u.fld (TTRIG_WIDTH n) TTRIG_WIDTH_WIDTH) }))

/-- The time advances; pending STEP, SET, INC and KICK are applied; the watchdog, triggers and captures act. Each time event does what its rule says
when it is due. Every clause concludes with the next state that exec answers, under hypotheses on the state and the operands alone. Commands:
TIME_ADVANCE, STEP_APPLY, SET_APPLY, INC_APPLY, KICK_APPLY, STATE_WATCHDOG_EXPIRY, PERIODIC_RISE, PULSE_END, CAPTURE_EDGE. -/
def Obligations.TimeEventsMoveTheTime : Prop :=
  (∀ (s : State), s.rst.chip = false →
    exec .timeAdvance s = .next (captLand ((((s.forN 8 State.pioSync).modTime fun t => { t with tod := t.tod + t.inc, tick := t.tick + 1 }).forN 6
      (fun u n => lpiTick n u)).forN 32 fun u n => encSettle n u)).after)
  ∧ (∀ (s : State), s.rst.chip = false → s.bit TIME_CMD TIME_CMD_STEP = true →
    let u := (s.clrB TIME_CMD TIME_CMD_STEP).clrB TIME_CMD TIME_CMD_FORCE_JUMP
    let ok := s.bit TIME_CMD TIME_CMD_FORCE_JUMP || decide (absI s.timeStep ≤ (s.fld TIME_JUMP_LIMIT TIME_JUMP_LIMIT_LIMIT * 2 ^ 16 : Nat))
    exec .stepApply s = .next (if ok then (u.todMove (s.timeStep * 2 ^ 16)).restartWdog
      else u.timeRefuse s.timeStep 0).after)
  ∧ (∀ (s : State), s.rst.chip = false → s.bit TIME_CMD TIME_CMD_SET = true →
    let u := (s.clrB TIME_CMD TIME_CMD_SET).clrB TIME_CMD TIME_CMD_FORCE_JUMP
    let ok := s.bit TIME_CMD TIME_CMD_FORCE_JUMP || s.fld TIME_CTL TIME_CTL_STATE == 0
    exec .setApply s = .next (if ok then u.todMove ((s.timeSet : Int) - (s.time.tod % todMod : Nat))
      else u.timeRefuse ((s.timeSet / 2 ^ 16 : Nat) - (s.time.tod % todMod / 2 ^ 16 : Nat)) 1).after)
  ∧ (∀ (s : State), s.rst.chip = false → s.bit TIME_CMD TIME_CMD_INC = true →
    exec .incApply s = .next (((s.clrB TIME_CMD TIME_CMD_INC).modTime fun t => { t with inc := s.timeInc }).restartWdogAt 1).after)
  ∧ (∀ (s : State), s.rst.chip = false → 0 < s.time.kick →
    exec .kickApply s = .next ((s.modTime fun t => { t with kick := t.kick - 1 }).restartWdog).after)
  ∧ (∀ (s : State) (e : Nat), s.rst.chip = false → s.time.wdogEnd = some e → e ≤ s.time.tick → s.fld TIME_CTL TIME_CTL_STATE = 1 →
    exec .stateWatchdogExpiry s = .next ((((s.modTime fun t => { t with wdogEnd := none }).putF TIME_CTL TIME_CTL_STATE 2).setB
      TIME_STATUS TIME_STATUS_HOLDOVER_ENTERED).logEv 0x22 0).after)
  ∧ (∀ (s : State) (n : Fin 16), s.rst.chip = false → s.fld (TTRIG_CTL n) TTRIG_CTL_MODE = 2 → (s.trigOf n).next ≤ s.time.tod →
    exec (.periodicRise n) s
      = .next ((s.setTrig n { s.trigOf n with next := (s.trigOf n).next + s.trigPeriod n }).trigPulse n).after)
  ∧ (∀ (s : State) (n : Fin 16) (e : Nat), s.rst.chip = false → (s.trigOf n).endTick = some e → e ≤ s.time.tick →
    exec (.pulseEnd n) s = .next (s.setTrig n { s.trigOf n with active := false, endTick := none }).after)
  ∧ (∀ (s : State) (n : Fin 16) (level : Bool), s.rst.chip = false →
    let u := s.pinSeen (0xC0 + n.val) level
    (u.inputLevel (0xC0 + n.val) = u.inputSeen (0xC0 + n.val) → exec (.captureEdge n level) s = .next u.after)
    ∧ ∀ rising, u.inputLevel (0xC0 + n.val) = rising → u.inputSeen (0xC0 + n.val) = !rising →
      let u := u.seeInput (0xC0 + n.val) rising
      exec (.captureEdge n level) s = .next (if !u.tcapSelected n rising then u
      else if (u.tcapOf n).length < 8 then
        (u.setTcap n (u.tcapOf n ++ [⟨rising, todNs u.time.tod, todSec u.time.tod % 2 ^ 32⟩])).setB (TCAP_STATUS n) TCAP_STATUS_CAPTURED
      else (u.setB (TCAP_STATUS n) TCAP_STATUS_OVERFLOW).count (TCAP_LOST n)).after)

/-- Reads of the time latch the instant, and reads of the timestamp FIFOs pop their heads. A read that is answered returns the word and changes what
its rule says. Every clause concludes with the next state that exec answers, under hypotheses on the state and the operands alone. Commands:
TIME_NOW_FRAC, TIME_PTP_TXTS_KEY, TCAP_TS_NS. -/
def Obligations.TimeReadsLatchTheInstant : Prop :=
  (∀ (s : State) (who : Initiator), s.readTaken who TIME_NOW_FRAC = true →
    exec (.timeNowFrac who) s = .next (s.gave who TIME_NOW_FRAC (w32 (todFrac s.time.tod)).toNat fun u =>
      ((u.setReg TIME_NOW_NS (w32 (todNs s.time.tod))).setReg TIME_NOW_SEC_LO (w32 (todSec s.time.tod))).setReg TIME_NOW_SEC_HI
        (w32 (todSec s.time.tod / 2 ^ 32))))
  ∧ (∀ (s : State) (who : Initiator) (n : Fin 6), s.readTaken who (TIME_PTP_TXTS_KEY n) = true →
    (s.txtsOf n = [] → exec (.timePtpTxtsKey who n) s = .next (s.gave who (TIME_PTP_TXTS_KEY n) 0 id))
    ∧ ∀ e l, s.txtsOf n = e :: l → exec (.timePtpTxtsKey who n) s = .next (s.gave who (TIME_PTP_TXTS_KEY n)
        (w32 (2 ^ 31 + e.msgType % 16 * 2 ^ 24 + e.domain % 256 * 2 ^ 16 + e.seqId % 65536)).toNat fun u =>
        ((u.setTxts n l).setReg (TIME_PTP_TXTS_NS n) (w32 (e.ns * 4 + e.quarter))).setReg (TIME_PTP_TXTS_SEC n) (w32 e.sec)))
  ∧ (∀ (s : State) (who : Initiator) (n : Fin 16), s.readTaken who (TCAP_TS_NS n) = true →
    (s.tcapOf n = [] → exec (.tcapTsNs who n) s = .next (s.gave who (TCAP_TS_NS n) 0 id))
    ∧ ∀ e l, s.tcapOf n = e :: l → exec (.tcapTsNs who n) s = .next (s.gave who (TCAP_TS_NS n) (w32 (2 ^ 31 + b2n e.rising * 2 ^ 30 + e.ns)).toNat fun u =>
        (u.setTcap n l).setReg (TCAP_TS_SEC n) (w32 e.sec)))

/-- Writes of TIDE_CTL start and stop the tide engine, and TIDE_CMD validates banks and arms or disarms a swap. A write that is taken sets the
register and does what its row says beside. Every clause concludes with the next state that exec answers, under hypotheses on the state and the
operands alone. Commands: RUN_START, RUN_STOP, VALIDATE_A, VALIDATE_B, SWAP_ARM, SWAP_DISARM. -/
def Obligations.TideRegisterWritesAct : Prop :=
  (∀ (s : State) (who : Initiator) (w : Word), s.writeTaken who TIDE_CTL (TIDE_CTL_RUN.put w 1) = true →
    exec (.runStart who w) s = .next (s.did who TIDE_CTL (TIDE_CTL_RUN.put w 1) fun u =>
      if u.bit TIDE_CTL TIDE_CTL_RUNNING then u.putF TIDE_CTL TIDE_CTL_RUN (s.fld TIDE_CTL TIDE_CTL_RUN)
      else if u.bankState (u.fld TIDE_CTL TIDE_CTL_START_BANK) = 2 ∧ u.time.tod + 1024 * 2 ^ 32 ≤ u.tideBase then u.tideStart
      else (u.clrB TIDE_CTL TIDE_CTL_RUN).setB TIDE_STATUS TIDE_STATUS_START_REFUSED))
  ∧ (∀ (s : State) (who : Initiator) (w : Word), s.writeTaken who TIDE_CTL (TIDE_CTL_RUN.put w 0) = true →
    exec (.runStop who w) s = .next (s.did who TIDE_CTL (TIDE_CTL_RUN.put w 0) id))
  ∧ (∀ (s : State) (who : Initiator) (w : Word), s.writeTaken who TIDE_CMD (TIDE_CMD_VALIDATE_A.put w 1) = true →
    TIDE_CMD_VALIDATE_B.get w = 0 → TIDE_CMD_SWAP_ARM.get w = 0 → TIDE_CMD_SWAP_DISARM.get w = 0 →
    exec (.validateA who w) s = .next (s.did who TIDE_CMD (TIDE_CMD_VALIDATE_A.put w 1) fun u =>
      if u.bankHeld 0 then u.clrB TIDE_CMD TIDE_CMD_VALIDATE_A
      else ((u.setB TIDE_CMD TIDE_CMD_VALIDATE_A).putF (TIDE_BANK_STATE 0) TIDE_BANK_STATE_STATE 1).setReg (TIDE_BANK_FAIL 0) 0))
  ∧ (∀ (s : State) (who : Initiator) (w : Word), s.writeTaken who TIDE_CMD (TIDE_CMD_VALIDATE_B.put w 1) = true →
    TIDE_CMD_VALIDATE_A.get w = 0 → TIDE_CMD_SWAP_ARM.get w = 0 → TIDE_CMD_SWAP_DISARM.get w = 0 →
    exec (.validateB who w) s = .next (s.did who TIDE_CMD (TIDE_CMD_VALIDATE_B.put w 1) fun u =>
      if u.bankHeld 1 then u.clrB TIDE_CMD TIDE_CMD_VALIDATE_B
      else ((u.setB TIDE_CMD TIDE_CMD_VALIDATE_B).putF (TIDE_BANK_STATE 1) TIDE_BANK_STATE_STATE 1).setReg (TIDE_BANK_FAIL 1) 0))
  ∧ (∀ (s : State) (who : Initiator) (w : Word), s.writeTaken who TIDE_CMD (TIDE_CMD_SWAP_ARM.put w 1) = true → TIDE_CMD_VALIDATE_A.get w = 0 →
    TIDE_CMD_VALIDATE_B.get w = 0 → TIDE_CMD_SWAP_DISARM.get w = 0 →
    exec (.swapArm who w) s = .next (s.did who TIDE_CMD (TIDE_CMD_SWAP_ARM.put w 1) fun u =>
      if s.fld TIDE_CMD TIDE_CMD_SWAP_ARM = 0 then u.modTide fun t => { t with armedAt := u.time.tod } else u))
  ∧ (∀ (s : State) (who : Initiator) (w : Word), s.writeTaken who TIDE_CMD (TIDE_CMD_SWAP_DISARM.put w 1) = true →
    TIDE_CMD_VALIDATE_A.get w = 0 → TIDE_CMD_VALIDATE_B.get w = 0 → TIDE_CMD_SWAP_ARM.get w = 0 →
    exec (.swapDisarm who w) s = .next (s.did who TIDE_CMD (TIDE_CMD_SWAP_DISARM.put w 1) fun u =>
      let due := u.bit TIDE_CTL TIDE_CTL_RUNNING ∧ u.swapHere ∧ u.curCycle.fin ≤ u.time.tod + 400 * 2 ^ 32
      if u.bit TIDE_CMD TIDE_CMD_SWAP_ARM ∧ ¬due then u.clrB TIDE_CMD TIDE_CMD_SWAP_ARM
      else
        let v := if due then u.swapDecide else u
        if v.tide.commit ∧ v.tide.committed = v.time.tick then v.setB TIDE_STATUS TIDE_STATUS_DISARM_LATE else v))

/-- The tide engine passes cycle boundaries, issues entries and lands the effect of each action code. The entries that are due are issued, and the
effects of each action land. Every clause concludes with the next state that exec answers, under hypotheses on the state and the operands alone.
The tick at which a capture entry lands within its 400 ns is a free value (log 2). What the clause of a stop at a boundary says is the model's choice:
that a committed swap is made first (log 16), that a HOLD stays in force (log 101) and that the cycle count stays (log 15). Commands: CYCLE_BOUNDARY, ENTRY_ISSUE, TIDE_NOP, GATE, STOW,
HAND_PUBLISH, HAND_ACQUIRE, TRIG, CAPT, MOTN, DMAS, EVNT, WAKE, ADCS. -/
def Obligations.TideEntriesRunAndLand : Prop :=
  (∀ (s : State), s.rst.chip = false → s.bit TIDE_CTL TIDE_CTL_RUNNING = true → s.bit TIDE_CTL TIDE_CTL_RUN = true →
    s.curCycle.fin ≤ s.time.tod → s.cycleServed = true → s.swapHere = false →
    exec .cycleBoundary s = .next (let e := s.curCycle.fin
      let c := (s.reg TIDE_CYCLE_CNT).toNat
      let u := s.setReg TIDE_CYCLE_CNT (w32 (c + 1))
      let u := if c + 1 = 2 ^ 32 then u.setB TIDE_STATUS TIDE_STATUS_WRAP else u
      let u := if u.tide.commit then u.swapTake e else u
      u.modTide fun t => { t with
        start := e, issued := t.issuedN, issuedN := [], flight := t.flight.map fun x => { x with next := false } }).after)
  ∧ (∀ (s : State), s.rst.chip = false → s.bit TIDE_CTL TIDE_CTL_RUNNING = true → s.bit TIDE_CTL TIDE_CTL_RUN = false →
    s.curCycle.fin ≤ s.time.tod → s.cycleServed = true → s.swapHere = false →
    let u := if s.tide.commit then s.swapTake s.curCycle.fin else s
    let v := ((u.putF (TIDE_BANK_STATE u.activeBank) TIDE_BANK_STATE_STATE 2).clrB TIDE_CTL TIDE_CTL_RUNNING).clrB TIDE_CMD TIDE_CMD_SWAP_ARM
    let w := v.forN 6 fun r n => r.modPort n fun p => { p with fcWait := 0 }
    exec .cycleBoundary s
      = .next (w.modTide fun t => { t with gates := [], win := [], flight := [], issued := [], issuedN := [] }).stowHeldClear.after)
  ∧ (∀ (s : State) (t i : Nat) (next : Bool), s.rst.chip = false → s.bit TIDE_CTL TIDE_CTL_RUNNING = true → s.nextIssue = some (t, next, i) →
    t ≤ s.time.tod →
    let c := if next then s.nextCycle else s.curCycle
    parityActs (w1Parity (s.entryWord c.bank i 1)) c.cnt = true → w1Action (s.entryWord c.bank i 1) ≤ 10 →
    let stow := w1Action (s.entryWord c.bank i 1) = 2
    let p := bitsOf 31 24 (s.entryWord c.bank i 2)
    let u := (s.modTide fun t => if next then { t with issuedN := ninsert i t.issuedN } else { t with issued := ninsert i t.issued }).eccRead
      (bankAddr c.bank i) 16
    let x : Issued := ⟨c.bank, i, c.start + u.entryWord c.bank i 0 * 2 ^ 32, next, s.entryWord c.bank i 1, s.entryWord c.bank i 2,
      u.entryWord c.bank i 3, if stow then u.planCopy p else none⟩
    u.entryPoison c.bank i = false →
    exec .entryIssue s = .next ((if stow ∧ u.planValid p then u.planEcc p else u).modTide fun t => { t with flight := t.flight ++ [x] }).after)
  ∧ (∀ (s : State) (x : Issued), s.rst.chip = false → s.landing = some x → x.lands ≤ s.time.tod → s.issueFirst x = false →
    let u := s.modTide fun t => { t with flight := t.flight.erase x }
    let done (r : State) : State := ((if bitOf 18 x.w1 then
      (r.setB TIDE_STATUS TIDE_STATUS_MARK).setReg TIDE_MARK_IDX (w32 (x.idx % 2 ^ 13 + 2 ^ 13 * (x.bank % 2))) else r).stowHeldClear).after
    let n := x.tgt
    let op (publish : Bool) (by' : HbBy) : HeldOp := { publish := publish, by' := by', mark := bitOf 18 x.w1 }
    let hand (b : Nat) (o : HeldOp) : State := if u.hbHeld b ≠ [] ∨ u.hbBlocked b o = true then
        ((u.setHbHeld b (u.hbHeld b ++ [o])).setB TIDE_STATUS TIDE_STATUS_HAND_DEFER).stowHeldClear.after
      else done (u.hbApply b o)
    (x.act = 0 → exec .tideNop s = .next (done u))
    ∧ (x.act = 1 → s.portHeld n = false → exec .gate s = .next (done
        ((((u.portOf n).tx.toList ++ (u.portOf n).cut.toList).filter (fun f => bitOf f.cls (u.gates n) && !bitOf f.cls (bitsOf 7 0 x.arg0))).foldl
          (fun r _ => (r.count (TIDE_WIN_OVERRUN n)).setB TIDE_STATUS TIDE_STATUS_OVERRUN) u |>.setGates n (bitsOf 7 0 x.arg0)
          |>.gateHold n (bitsOf 9 8 x.arg0) |>.fcGate n (bitOf 7 (u.gates n)) (bitOf 7 (bitsOf 7 0 x.arg0)))))
    ∧ (∀ c, x.act = 2 → s.portHeld n = false → x.copy = some c → exec .stow s = .next (done
        (let o := x.lands + bitsOf 23 0 x.arg0 * 2 ^ 32
         c.insertBufs.foldl (fun r b => r.armAcquire x b)
          (u.setWin n (some { copy := c, opens := o, closes := o + bitsOf 23 0 x.arg1 * 2 ^ 32, bank := x.bank, idx := x.idx })))))
    ∧ (x.act = 3 → x.arg0 % 4 = 1 → s.hbLineW n = true → exec .handPublish s = .next (hand n (op true (.tide x.bank x.idx))))
    ∧ (x.act = 3 → x.arg0 % 4 ≠ 1 → s.hbLineR n = true → exec .handAcquire s = .next (hand n (op false (.tide x.bank x.idx))))
    ∧ (x.act = 4 → n < 16 → s.fld (TTRIG_CTL n) TTRIG_CTL_MODE = 1 → exec .trig s = .next (done
        (if x.arg0 % 4 = 0 then u.trigPulse n else if x.arg0 % 4 = 1 then u.trigDrive n else u.trigRelease n)))
    ∧ (x.act = 4 → 16 ≤ n → exec .trig s = .next (done (u.putB (TCAP_STATUS (n - 16)) TCAP_STATUS_WINDOW_OPEN (x.arg0 % 4 == 1))))
    ∧ (x.act = 4 → n < 16 → s.fld (TTRIG_CTL n) TTRIG_CTL_MODE ≠ 1 → exec .trig s = .next (u.tideDrop x.bank x.idx 5).stowHeldClear.after)
    ∧ (x.act = 5 → s.hbLineW n = true →
        exec .capt s = .next (done (let v := (u.modTide fun t => { t with
            capt := t.capt ++ [⟨n, u.hbW n + bitsOf 11 0 x.arg1, u.captBytes x.arg0 x.arg1, u.time.tick + Config.freeNat u.free % 101⟩] }).tickFree
          if bitOf 16 x.arg1 then v.forN 32 fun r k => r.setEnc k { r.encOf k with qrec := false } else v)))
    ∧ (x.act = 6 → s.hbLineR (bitsOf 7 0 x.arg0) = true →
        exec .motn s = .next (hand (bitsOf 7 0 x.arg0) (op false (.motn x.bank x.idx n (bitsOf 19 8 x.arg0)))))
    ∧ (x.act = 7 → s.rst.core = false → s.dmaActive n = false → exec .dmas s = .next (done (u.dmaStart n)))
    ∧ (x.act = 8 → s.rst.core = false → s.engineHeld n = false → exec .evnt s = .next (done (u.raiseEv n (x.arg0 % 8))))
    ∧ (x.act = 9 → s.portHeld n = false → exec .wake s = .next (done (u.portWake n)))
    ∧ (x.act = 10 → (s.adcOf n).busy = false → exec .adcs s = .next (done (u.adcStart n (x.arg0 % 16)))))

/-- Tide banks are validated, written and swapped; handover buffers are configured, published and acquired. Validation ends, bank writes and swap
decisions, handover writes and held operations do what their rules say. Every clause concludes with the next state that exec answers, under
hypotheses on the state and the operands alone. Commands: VALIDATION_END, TIDE_BANK_WRITE, SWAP_DECISION, TIDE_HB_CFG, HB_CMD_PUBLISH,
HB_CMD_ACQUIRE, HELD_OPERATION_APPLY, WINDOW_EXPIRY. -/
def Obligations.TideBanksAndHandoverBuffersAct : Prop :=
  (∀ (s : State) (b : Fin 2), s.rst.chip = false → s.bankState b = 1 →
    let u := ((s.clrB TIDE_CMD (if b.val = 0 then TIDE_CMD_VALIDATE_A else TIDE_CMD_VALIDATE_B)).eccRead (bankAddr b 0) (16 * s.bankLen b)).roleReads b
    exec (.validationEnd b) s = .next (match u.bankCheck b with
      | some (i, r) => ((u.putF (TIDE_BANK_STATE b) TIDE_BANK_STATE_STATE 3).setReg (TIDE_BANK_FAIL b)
          (w32 (i % 2 ^ 13 + 2 ^ 16 * r))).setB TIDE_STATUS TIDE_STATUS_VALID_FAIL
      | none => (u.putF (TIDE_BANK_STATE b) TIDE_BANK_STATE_STATE 2).setB TIDE_STATUS TIDE_STATUS_VALID_DONE).after)
  ∧ (∀ (a : Nat) (b : Fin 2), 0x3A000000 + b.val * 0x20000 ≤ a → a < 0x3A020000 + b.val * 0x20000 →
    regionOf a = some (.tideBank b.val, 0x3A000000 + b.val * 0x20000))
  ∧ (∀ (s : State) (who : Initiator) (a w : Word) (b : Fin 2), 0x3A000000 + b.val * 0x20000 ≤ a.toNat → a.toNat < 0x3A020000 + b.val * 0x20000 →
    s.answers who a.toNat = true → memFits a.toNat 4 = true → s.bankHeld b = false →
    exec (.tideBankWrite who a w) s = .next ((((s.atWrite who a.toNat).store a.toNat (leBytes 4 w.toNat)).clrB TIDE_CMD
      (if b.val = 0 then TIDE_CMD_VALIDATE_A else TIDE_CMD_VALIDATE_B)).putF (TIDE_BANK_STATE b) TIDE_BANK_STATE_STATE 0 |>.noted who a.toNat 0).after)
  ∧ (∀ (s : State) (who : Initiator) (b : Fin 2) (w : Word),
    (s.writeTaken who (TIDE_BANK_CYCLE b) w = true → exec (.tideBankWrite who (w32 (TIDE_BANK_CYCLE b)) w) s = .next (s.did who (TIDE_BANK_CYCLE b) w fun u =>
      (u.clrB TIDE_CMD (if b.val = 0 then TIDE_CMD_VALIDATE_A else TIDE_CMD_VALIDATE_B)).putF (TIDE_BANK_STATE b) TIDE_BANK_STATE_STATE 0))
    ∧ (s.writeTaken who (TIDE_BANK_LEN b) w = true → exec (.tideBankWrite who (w32 (TIDE_BANK_LEN b)) w) s = .next (s.did who (TIDE_BANK_LEN b) w fun u =>
      (u.clrB TIDE_CMD (if b.val = 0 then TIDE_CMD_VALIDATE_A else TIDE_CMD_VALIDATE_B)).putF (TIDE_BANK_STATE b) TIDE_BANK_STATE_STATE 0)))
  ∧ (∀ (s : State), s.rst.chip = false → s.bit TIDE_CTL TIDE_CTL_RUNNING = true → s.swapHere = true →
    s.curCycle.fin ≤ s.time.tod + 400 * 2 ^ 32 →
    let u := s.clrB TIDE_CMD TIDE_CMD_SWAP_ARM
    exec .swapDecision s = .next (if u.bankState (1 - u.activeBank) = 2 then (u.modTide fun t => { t with
        commit := true, committed := u.time.tick, issuedN := [], flight := t.flight.filter fun x => !x.next }).stowHeldClear
      else u.setB TIDE_STATUS TIDE_STATUS_SWAP_REFUSED).after)
  ∧ (∀ (s : State) (who : Initiator) (n : Fin 256) (w : Word), s.writeTaken who (TIDE_HB_CFG n) w = true →
    exec (.tideHbCfg who n w) s = .next (s.did who (TIDE_HB_CFG n) w fun u =>
      if TIDE_HB_CFG_EN.get w = 0 then u.setHbHeld n ((u.hbHeld n).map fun o => { o with lost := true })
      else if s.fld (TIDE_HB_CFG n) TIDE_HB_CFG_EN = 0 then
        u.setReg (TIDE_HB_STATE n) (w32 (0x24 + 2 ^ 16 * u.fld (TIDE_HB_STATE n) TIDE_HB_STATE_SEQ))
      else u))
  ∧ (∀ (s : State) (who : Initiator) (w : Word), s.writeTaken who TIDE_HB_CMD (TIDE_HB_CMD_OP.put w 1) = true →
    exec (.hbCmdPublish who w) s = .next (s.did who TIDE_HB_CMD (TIDE_HB_CMD_OP.put w 1) fun u =>
      let n := TIDE_HB_CMD_BUFFER.get w
      if u.hbHeld n ≠ [] ∨ u.hbWriting n then
        (u.setHbHeld n (u.hbHeld n ++ [{ publish := true, by' := .soft }])).setB TIDE_STATUS TIDE_STATUS_HAND_DEFER
      else u.hbExchangeW n))
  ∧ (∀ (s : State) (who : Initiator) (w : Word), s.writeTaken who TIDE_HB_CMD (TIDE_HB_CMD_OP.put w 2) = true →
    exec (.hbCmdAcquire who w) s = .next (s.did who TIDE_HB_CMD (TIDE_HB_CMD_OP.put w 2) fun u =>
      let n := TIDE_HB_CMD_BUFFER.get w
      if u.hbHeld n ≠ [] ∨ u.hbInserting n then
        (u.setHbHeld n (u.hbHeld n ++ [{ publish := false, by' := .soft }])).setB TIDE_STATUS TIDE_STATUS_HAND_DEFER
      else u.hbAcquire n))
  ∧ (∀ (s : State) (n : Fin 256) (o : HeldOp), s.rst.chip = false → s.hbHeld n = [o] → s.hbEn n = true → o.lost = false →
    (if o.publish then s.hbWriting n else s.hbInserting n) = false →
    exec (.heldOperationApply n) s = .next (let u := s.hbApply n o
      let v := match o.by' with
        | .tide b i => u.performed b i o.mark o.late
        | .motn b i _ _ => u.performed b i o.mark o.late
        | _ => u
      v.setHbHeld n []).after)
  ∧ (∀ (s : State) (n : Fin 6) (w : Window), s.rst.chip = false → s.winOf n = some w →
    w.closes + s.fld TIDE_WIN_TOL TIDE_WIN_TOL_TOL * 2 ^ 32 < s.time.tod → (s.portOf n).rx = none →
    exec (.windowExpiry n) s = .next (s.setWin n none).after)

/-- The MAC, VLAN and stream tables take their look-ups, reads, writes, deletions, flushes and ageing. Each table operation begins with its command
bit and acts at its end. Every clause concludes with the next state that exec answers, under hypotheses on the state and the operands alone. What
FOUND says after a WRITE with VALID = 1, and that LOOKUP, WRITE and DELETE clear FULL, is the model's choice (log 102). Commands: LOOKUP,
MAC_WRITE, MAC_DELETE, MAC_FLUSH, READ_INDEX, MAC_OPERATION_END, AGEING_PASS, VLAN_READ, VLAN_WRITE, STREAM_READ, STREAM_WRITE, STREAM_CLEAR,
UNBLOCK, STREAM_OPERATION_END. -/
def Obligations.SwitchTablesTakeOperations : Prop :=
  (∀ (s : State) (who : Initiator) (w : Word), s.writeTaken who SW_MAC_CMD (SW_MAC_CMD_OP.put w 1) = true →
    exec (.lookup who w) s = .next (s.did who SW_MAC_CMD (SW_MAC_CMD_OP.put w 1) fun u =>
      let data (v : Word) (found : Nat) : State := ((u.setReg SW_MAC_DATA v).clrB SW_MAC_CMD SW_MAC_CMD_FULL).putF SW_MAC_CMD SW_MAC_CMD_FOUND found
      (match (u.macFind u.macKey.1 u.macKey.2).bind u.macAt with
        | some e => data (w32 (e.ports % 256 + 2 ^ 8 * b2n e.static + 2 ^ 9 + 2 ^ 16 * e.age)) 1
        | none => data 0 0).setB SW_MAC_CMD SW_MAC_CMD_BUSY))
  ∧ (∀ (s : State) (who : Initiator) (w : Word), s.writeTaken who SW_MAC_CMD (SW_MAC_CMD_OP.put w 2) = true →
    exec (.macWrite who w) s = .next (s.did who SW_MAC_CMD (SW_MAC_CMD_OP.put w 2) fun u =>
      let e : MacEntry := ⟨u.macKey.1, u.macKey.2, u.fld SW_MAC_DATA SW_MAC_DATA_PORTS, u.bit SW_MAC_DATA SW_MAC_DATA_STATIC, 0⟩
      let found (v : State) (b : Nat) : State := (v.clrB SW_MAC_CMD SW_MAC_CMD_FULL).putF SW_MAC_CMD SW_MAC_CMD_FOUND b
      (if u.fld SW_MAC_DATA SW_MAC_DATA_VALID = 0 then u.macDelete
        else match u.macFind e.mac e.fid with
          | some i => found (u.setMac i (some e)) 1
          | none => match u.macVictim e.mac e.fid with
            | some i => found (u.setMac i (some e)) 0
            | none => (found u 0).setB SW_MAC_CMD SW_MAC_CMD_FULL).setB SW_MAC_CMD SW_MAC_CMD_BUSY))
  ∧ (∀ (s : State) (who : Initiator) (w : Word), s.writeTaken who SW_MAC_CMD (SW_MAC_CMD_OP.put w 3) = true →
    exec (.macDelete who w) s = .next (s.did who SW_MAC_CMD (SW_MAC_CMD_OP.put w 3) fun u =>
      let found (v : State) (b : Nat) : State := (v.clrB SW_MAC_CMD SW_MAC_CMD_FULL).putF SW_MAC_CMD SW_MAC_CMD_FOUND b
      (match u.macFind u.macKey.1 u.macKey.2 with
        | some i => found (u.setMac i none) 1
        | none => found u 0).setB SW_MAC_CMD SW_MAC_CMD_BUSY))
  ∧ (∀ (s : State) (who : Initiator) (w : Word), s.writeTaken who SW_MAC_CMD (SW_MAC_CMD_OP.put w 4) = true →
    exec (.macFlush who w) s = .next (s.did who SW_MAC_CMD (SW_MAC_CMD_OP.put w 4) fun u =>
      (u.sw.mac.foldl (fun (v : State) p => match p.2 with
        | some e => if !e.static && (e.ports &&& u.fld SW_MAC_DATA SW_MAC_DATA_PORTS) != 0 then v.setMac p.1 none else v
        | none => v) u).setB SW_MAC_CMD SW_MAC_CMD_BUSY))
  ∧ (∀ (s : State) (who : Initiator) (w : Word), s.writeTaken who SW_MAC_CMD (SW_MAC_CMD_OP.put w 5) = true →
    exec (.readIndex who w) s = .next (s.did who SW_MAC_CMD (SW_MAC_CMD_OP.put w 5) fun u =>
      let load (lo hi data : Word) : State := ((u.setReg SW_MAC_KEY_LO lo).setReg SW_MAC_KEY_HI hi).setReg SW_MAC_DATA data
      (match u.macAt (u.fld SW_MAC_CMD SW_MAC_CMD_INDEX) with
        | some e => load (w32 e.mac) (w32 (e.mac / 2 ^ 32 + 2 ^ 16 * e.fid)) (w32 (e.ports % 256 + 2 ^ 8 * b2n e.static + 2 ^ 9 + 2 ^ 16 * e.age))
        | none => load 0 0 0).setB SW_MAC_CMD SW_MAC_CMD_BUSY))
  ∧ (∀ (s : State), s.rst.chip = false →
    exec .macOperationEnd s = .next (s.clrB SW_MAC_CMD SW_MAC_CMD_BUSY).after)
  ∧ (∀ (s : State), s.rst.chip = false →
    exec .ageingPass s = .next (s.sw.mac.foldl (fun (v : State) p => match p.2 with
      | some e =>
        if e.static then v
        else v.setMac p.1 (if s.fld SW_AGE_TIME SW_AGE_TIME_SECONDS ≠ 0 ∧ s.fld SW_AGE_TIME SW_AGE_TIME_SECONDS ≤ min 0xFFFF (e.age + 1) then none
          else some { e with age := min 0xFFFF (e.age + 1) })
      | none => v) s).after)
  ∧ (∀ (s : State) (who : Initiator) (w : Word), s.writeTaken who SW_VLAN_CMD (SW_VLAN_CMD_OP.put w 1) = true →
    exec (.vlanRead who w) s = .next (s.did who SW_VLAN_CMD (SW_VLAN_CMD_OP.put w 1) fun u =>
      u.setReg SW_VLAN_DATA (w32 (u.vlanAt (SW_VLAN_CMD_VID.get w)))))
  ∧ (∀ (s : State) (who : Initiator) (w : Word), s.writeTaken who SW_VLAN_CMD (SW_VLAN_CMD_OP.put w 2) = true →
    exec (.vlanWrite who w) s = .next (s.did who SW_VLAN_CMD (SW_VLAN_CMD_OP.put w 2) fun u =>
      u.modSw fun x => { x with vlan := tput vlanReset x.vlan (SW_VLAN_CMD_VID.get w) (u.reg SW_VLAN_DATA).toNat }))
  ∧ (∀ (s : State) (who : Initiator) (w : Word), s.writeTaken who STREAM_CMD (STREAM_CMD_OP.put w 1) = true →
    exec (.streamRead who w) s = .next (s.did who STREAM_CMD (STREAM_CMD_OP.put w 1) fun u =>
      let x := u.strOf (u.fld STREAM_SEL STREAM_SEL_CONTEXT)
      let v := (strWinRegs.zip (List.range 8)).foldl (fun (v : State) p => v.setReg p.1 (x.word p.2)) u
      let v := (v.putB STREAM_FILTER STREAM_FILTER_SDU_BLOCKED x.sduBlk).putB STREAM_FILTER STREAM_FILTER_RED_BLOCKED x.redBlk
      ((strCntRegs.zip (List.range 7)).foldl (fun (v : State) p => v.setReg p.1 (w32 (x.ctr p.2))) v).setB STREAM_CMD STREAM_CMD_BUSY))
  ∧ (∀ (s : State) (who : Initiator) (w : Word), s.writeTaken who STREAM_CMD (STREAM_CMD_OP.put w 2) = true →
    exec (.streamWrite who w) s = .next (s.did who STREAM_CMD (STREAM_CMD_OP.put w 2) fun u =>
      let c := u.fld STREAM_SEL STREAM_SEL_CONTEXT
      let k := ((List.range 6).find? (fun k => !u.oldUsed k)).getD 0
      let x := u.strOf c
      let keep (fr : Front) : Front := if fr.stream = some c ∧ fr.before.isNone then { fr with before := some k } else fr
      let u := u.forN 6 fun v n => v.modPort n fun p => { p with rx := p.rx.map fun r => { r with front := r.front.map keep } }
      let u := if u.oldUsed k then u.modSw fun y => { y with olds := tput (fun _ => {}) y.olds k x } else u
      let ws := (strWinRegs.map fun a => (u.reg a).toNat).set 2 ((u.reg STREAM_FILTER).toNat % 2 ^ 24)
      (u.setStr c { u.strOf c with
        cfg := if ws.all (fun w => w == 0) then [] else ws, cbs := u.fld STREAM_CBS STREAM_CBS_BYTES * bucketUnit,
        ebs := u.fld STREAM_EBS STREAM_EBS_BYTES * bucketUnit, filled := u.time.tick, hist := none }).setB STREAM_CMD STREAM_CMD_BUSY))
  ∧ (∀ (s : State) (who : Initiator) (w : Word), s.writeTaken who STREAM_CMD (STREAM_CMD_OP.put w 3) = true →
    exec (.streamClear who w) s = .next (s.did who STREAM_CMD (STREAM_CMD_OP.put w 3) fun u =>
      let c := u.fld STREAM_SEL STREAM_SEL_CONTEXT
      (u.setStr c { u.strOf c with cnt := [] }).setB STREAM_CMD STREAM_CMD_BUSY))
  ∧ (∀ (s : State) (who : Initiator) (w : Word), s.writeTaken who STREAM_CMD (STREAM_CMD_OP.put w 4) = true →
    exec (.unblock who w) s = .next (s.did who STREAM_CMD (STREAM_CMD_OP.put w 4) fun u =>
      let c := u.fld STREAM_SEL STREAM_SEL_CONTEXT
      (u.setStr c { u.strOf c with sduBlk := false, redBlk := false }).setB STREAM_CMD STREAM_CMD_BUSY))
  ∧ (∀ (s : State), s.rst.chip = false →
    exec .streamOperationEnd s = .next (s.clrB STREAM_CMD STREAM_CMD_BUSY).after)

/-- Frames are received, cut through and transmitted, and stowage plan sets are committed and cleared. Each of these does what its rule says when it
is due. Every clause concludes with the next state that exec answers, under hypotheses on the state and the operands alone. That octet counters
count a length less 18 (log 21, PRESUMED), the part hand (log 104), how a frame cut at 2,048 bytes goes out (log 102) and that a resume may go ahead of a
PAUSE or PFC frame that waits (log 123) are the model's.
Commands: FRAME_RECEIVE, CUT_THROUGH, FRAME_TRANSMIT, COMMIT, COMMIT_END, STOW_CLEAR. -/
def Obligations.FramesPassPortsAndStowagePlans : Prop :=
  (∀ (s : State) (n : Fin 6) (r : RxFrame) (fr : Front), s.rst.chip = false → (s.portOf n).rx = some r → r.frame = none → r.front = some fr → s.Inv →
    (∀ bs, exec (.frameReceive n (.more bs)) s = .next (s.setRx n (some { r with
        bytes := (r.bytes ++ bs.map (fun b => b % 256)).take (s.fld (PORT_MAX_FRAME n) PORT_MAX_FRAME_BYTES + 1) })).after)
    ∧ (64 ≤ r.bytes.length → r.bytes.length ≤ s.fld (PORT_MAX_FRAME n) PORT_MAX_FRAME_BYTES → fcsGood r.bytes = true → r.cutOff = false → r.frags = 0 →
        beAt r.bytes 12 2 ≠ 0x8808 →
        exec (.frameReceive n (.finish .ok)) s = .next (let u := (s.count (PORT_FRAMES_RX n)).count64 (PORT_OCTETS_RX_LO n) (PORT_OCTETS_RX_HI n) (r.bytes.length - 18)
          let u := if daOf r.bytes = 0xFFFFFFFFFFFF then u.count (PORT_BCAST_RX n)
            else if r.bytes.getD 0 0 % 2 = 1 then u.count (PORT_MCAST_RX n) else u
          (u.switchIn n r.ts r.bytes fr 0 r.demoted false []).setRx n none).after))
  ∧ (∀ (s : State) (n : Fin 6) (q : Fin 16) (bs : List Nat) (k : Nat), s.rst.chip = false → s.portLive n = true → (s.portOf n).rx = none →
    (k ≠ 0 → s.bit (PORT_MM_CTL n) PORT_MM_CTL_PREEMPT_EN = false →
      exec (.frameReceive n (.start q bs k)) s = .next s.after ∧ ∀ e, exec (.frameReceive n (.whole q bs k e)) s = .next s.after)
    ∧ (k = 0 ∨ s.bit (PORT_MM_CTL n) PORT_MM_CTL_PREEMPT_EN = true → (s.Inv → bs.length < 14 → bs.length ≤ s.fld (PORT_MAX_FRAME n) PORT_MAX_FRAME_BYTES →
      exec (.frameReceive n (.start q bs k)) s = .next (s.setRx n (some
        { bytes := bs.map (fun b => b % 256), ts := s.stamp q (s.reg (PORT_TS_ADJ_RX n)), frags := k })).after)
    ∧ (∀ e, exec (.frameReceive n (.whole q bs k e)) s = .next (rxFinish n e (s.setRx n (some
        { bytes := (bs.map fun b => b % 256).take (s.fld (PORT_MAX_FRAME n) PORT_MAX_FRAME_BYTES + 1),
          ts := s.stamp q (s.reg (PORT_TS_ADJ_RX n)), frags := k }))).after)))
  ∧ (∀ (s : State) (n : Fin 6) (e : Fin 2) (i : Nat) (f : Frame), s.rst.chip = false →
    ((List.range 8).map (fun k => 7 - k)).findSome? (s.handHead (6 + e.val)) = some (i, f) →
    exec (.frameReceive n (.hand e)) s = .next ((s.deliver f (6 + e.val)).frameGone i (6 + e.val)).after)
  ∧ (∀ (s : State) (n : Fin 6) (t : TxFrame) (f : Frame), s.rst.chip = false → (s.portOf n).tx = some t →
    (∀ q : Fin 16, t.sfd = false →
      let v := (s.modPort n fun p => { p with tx := some { t with ts := s.stamp q (s.reg (PORT_TS_ADJ_TX n)), sfd := true } }).after
      exec (.cutThrough n (.sfd q)) s = .next v ∧ exec (.frameTransmit n (.sfd q)) s = .next v)
    ∧ (∀ k, s.frameAt t.frame = some f →
      let k' := if f.done then k else min k (min 2048 f.sendable)
      let r := s.txJudge n k'
      let j := r.txNow n t
      let body := if f.done then r.copyBody f n else bodyOf f.bytes
      let u := r.insertEcc (j.acts f) j.head.length (min k' body.length)
      let t' := j.sentTo ((u.leave f n j.ts body j.skips).2.take k')
        (u.insertPoison (j.acts f) j.head.length (min k' body.length) || u.framePoison f j.head.length k')
      let v := u.modPort n fun p => { p with tx := some t' }
      let v := (if f.done = false ∧ 2048 ≤ t'.head.length then v.txFinish n else v).after
      exec (.cutThrough n (.sent k)) s = .next v ∧ exec (.frameTransmit n (.sent k)) s = .next v)
    ∧ (s.frameAt t.frame = some f → f.done = true → f.oversize = false →
      let v := (s.txSend n t f (s.copyBody f n) f.bad).after
      (t.ct = true → exec (.cutThrough n .finish) s = .next v) ∧ exec (.frameTransmit n .finish) s = .next v)
    ∧ (s.frameAt t.frame = some f → f.oversize = true → f.done = true →
      let v := (((s.count (SW_PORT_CT_OVERSIZE n)).setB SW_STATUS SW_STATUS_CT_OVERSIZE).txSend n t f f.bytes true).after
      (t.ct = true → exec (.cutThrough n .finish) s = .next v) ∧ exec (.frameTransmit n .finish) s = .next v))
  ∧ (∀ (s : State) (n : Fin 6) (bad : List Nat), s.rst.chip = false → s.lineFree n = true →
    (∀ i f, s.ctHead n = some (i, f) → exec (.cutThrough n (.start bad)) s = .next (s.txBegin n i f true bad).after)
    ∧ (let u := s.fcDefer n
      (∀ i f, u.eligible n 7 u.time.tod = some (i, f) → u.leaveLen f n ≤ 9216 →
        exec (.frameTransmit n (.start bad)) s = .next (u.txBegin n i f false bad).after)
      ∧ (u.eligible n 7 u.time.tod = none →
        (∀ i f, u.ctHead n = some (i, f) → exec (.frameTransmit n (.start bad)) s = .next (u.txBegin n i f true bad).after)
        ∧ (u.ctHead n = none → u.controlOk n u.time.tod = true → exec (.frameTransmit n (.start bad)) s = .next (u.sendControl n).after)
        ∧ ∀ i f, u.ctHead n = none → u.controlOk n u.time.tod = false → u.selectFrom n u.time.tod 0 = some (i, f) → u.leaveLen f n ≤ 9216 →
          exec (.frameTransmit n (.start bad)) s = .next (u.txBegin n i f false bad).after)))
  ∧ (∀ (s : State) (n : Fin 6), s.rst.chip = false →
    (∀ k t f, (s.portOf n).tx = some t → s.frameAt t.frame = some f → t.pre = true → t.base < k → t.fmin ≤ k - t.base + 4 →
        k + 64 ≤ s.leaveLen f n → (s.tideHold n || s.paused n t.cls || s.expressReady n t.c6) = true →
        exec (.frameTransmit n (.cut k)) s = .next ((s.modPort n fun p => { p with
          tx := none, cut := some { t with frags := t.frags + 1, base := k } }).count (PORT_MM_FRAG_TX n)).after)
    ∧ (∀ t, (s.portOf n).cut = some t → s.lineFree n = true → s.tideHold n = false → s.paused n t.cls = false → s.expressReady n t.c6 = false →
        exec (.frameTransmit n .resume) s = .next (s.modPort n fun p => { p with tx := some t, cut := none }).after))
  ∧ (∀ (s : State) (who : Initiator) (w : Word), s.writeTaken who STOW_CMD (STOW_CMD_OP.put w 1) = true →
    exec (.commit who w) s = .next (s.did who STOW_CMD (STOW_CMD_OP.put w 1) fun u =>
      u.setReg STOW_CMD (w32 (STOW_CMD_PLAN.get w + 2 ^ 8 + 2 ^ 31))))
  ∧ (∀ (s : State), s.rst.chip = false → s.bit STOW_CMD STOW_CMD_BUSY = true → s.fld STOW_CMD STOW_CMD_OP = 1 →
    s.copying (s.fld STOW_CMD STOW_CMD_PLAN) = false → s.copyDue (s.fld STOW_CMD STOW_CMD_PLAN) = false →
    let p := s.fld STOW_CMD STOW_CMD_PLAN
    let ctl := (s.reg STOW_STAGE_CTL).toNat
    let base := s.fld STOW_STAGE_BASE STOW_STAGE_BASE_BASE
    let u := s.eccRead (stowEntryAddr base) (8 * ctlCount ctl)
    exec .commitEnd s = .next ((match u.planCheck ctl base ((List.range (ctlCount ctl)).map fun k => u.stowRead (base + k)) with
      | some (i, r) => (u.setB STOW_STATUS STOW_STATUS_COMMIT_FAIL).setReg STOW_FAIL (w32 (i % 128 + 2 ^ 8 * p + 2 ^ 16 * r))
      | none => ((((u.setReg (STOW_PLAN_SIG_LO p) (w32 (u.reg STOW_STAGE_SIG_LO).toNat)).setReg (STOW_PLAN_SIG_HI p)
          (w32 (u.reg STOW_STAGE_SIG_HI).toNat)).setReg (STOW_PLAN_CTL p) (w32 (ctl % 2 ^ 30 + 2 ^ 31))).setReg (STOW_PLAN_BASE p)
          (w32 base)).setB STOW_STATUS STOW_STATUS_COMMIT_DONE).setReg STOW_CMD 0).after)
  ∧ (∀ (s : State) (who : Initiator) (w : Word), s.writeTaken who STOW_CMD (STOW_CMD_OP.put w 2) = true →
    exec (.stowClear who w) s = .next (s.did who STOW_CMD (STOW_CMD_OP.put w 2) fun u =>
      let p := STOW_CMD_PLAN.get w
      if u.copying p ∨ u.copyDue p then { u.setReg STOW_CMD (w32 (p + 2 ^ 9 + 2 ^ 31)) with tide := { u.tide with clears := [p] } }
      else (u.clrB (STOW_PLAN_CTL p) STOW_PLAN_CTL_VALID).setB STOW_STATUS STOW_STATUS_COMMIT_DONE))

/-- Writes of the port control registers reset, restart negotiation, send, verify and start MDIO operations. A write that is taken sets the register
and does what its row says beside. Every clause concludes with the next state that exec answers, under hypotheses on the state and the operands
alone. That RESTART_AN takes the link down past LINK_FILTER and flushes in every case is the model's choice (log 123). Commands: PORT_MODE, PORT_CTL_RESET, RESTART_AN, SEND, PORT_MM_CTL, PORT_MDIO_CMD. -/
def Obligations.PortControlWrites : Prop :=
  (∀ (s : State) (who : Initiator) (n : Fin 6) (w : Word), s.writeTaken who (PORT_CTL n) w = true → PORT_CTL_RESET.get w = 0 →
    PORT_CTL_MODE.get w ≠ s.fld (PORT_CTL n) PORT_CTL_MODE →
    exec (.portMode who n w) s = .next (s.did who (PORT_CTL n) w fun u =>
      if PORT_CTL_MODE.get w = 0 then (u.lineLost n).portDown n (u.flushOnDown n) else u.startLink n))
  ∧ (∀ (s : State) (who : Initiator) (n : Fin 6) (w : Word), s.writeTaken who (PORT_CTL n) (PORT_CTL_RESET.put w 1) = true →
    PORT_CTL_MODE.get w = s.fld (PORT_CTL n) PORT_CTL_MODE → PORT_CTL_RESTART_AN.get w = 0 →
    exec (.portCtlReset who n w) s = .next (s.did who (PORT_CTL n) (PORT_CTL_RESET.put w 1) fun u =>
      if (u.portOf n).reset then u
      else
        let v := (((u.lineLost n).portDown n true).setB (PORT_STATUS n) PORT_STATUS_LINK_DOWN).setTxts n []
        ((v.setWin n none).modPort n fun p => { p with reset := true, pause := false, pfc := [] }).logEv 0x06 n))
  ∧ (∀ (s : State) (who : Initiator) (n : Fin 6) (w : Word), s.writeTaken who (PORT_CTL n) (PORT_CTL_RESTART_AN.put w 1) = true →
    PORT_CTL_MODE.get w = s.fld (PORT_CTL n) PORT_CTL_MODE → PORT_CTL_MODE.get w ≠ 0 → PORT_CTL_RESET.get w = 0 →
    exec (.restartAn who n w) s = .next (s.did who (PORT_CTL n) (PORT_CTL_RESTART_AN.put w 1) fun u =>
      ((u.lineLost n).portDown n (u.flushOnDown n)).startLink n))
  ∧ (∀ (s : State) (who : Initiator) (n : Fin 6) (w : Word), s.writeTaken who (PORT_FC_TX n) (PORT_FC_TX_SEND.put w 1) = true →
    exec (.send who n w) s = .next (s.did who (PORT_FC_TX n) (PORT_FC_TX_SEND.put w 1) fun u => u.fcDefer n))
  ∧ (∀ (s : State) (who : Initiator) (n : Fin 6) (w : Word), s.writeTaken who (PORT_MM_CTL n) w = true →
    exec (.portMmCtl who n w) s = .next (s.did who (PORT_MM_CTL n) w fun u =>
      let st := if (!u.bit (PORT_MM_CTL n) PORT_MM_CTL_PREEMPT_EN || u.bit (PORT_MM_CTL n) PORT_MM_CTL_VERIFY_DIS) = true then 0
        else if u.bit (PORT_LINK n) PORT_LINK_UP then 2 else 1
      (u.modPort n fun p => { p with tries := if st = 2 then 1 else 0 }).putF (PORT_MM_STATUS n) PORT_MM_STATUS_VERIFY_STATE st))
  ∧ (∀ (s : State) (who : Initiator) (w : Word), s.writeTaken who PORT_MDIO_CMD w = true →
    exec (.portMdioCmd who w) s = .next (s.did who PORT_MDIO_CMD w fun u =>
      ({ u with mdio := [PORT_MDIO_CMD_OP.get w] } : State).setB PORT_MDIO_CMD PORT_MDIO_CMD_BUSY))

/-- Link, pause, energy, verification and MDIO events of the ports act on their status. Each event does what its rule says when it is due. Every
clause concludes with the next state that exec answers, under hypotheses on the state and the operands alone. Commands: PORT_RESET_END, LINK_UP,
LINK_LOSS, LINK_FILTER_EXPIRY, PAUSE_FRAME, PFC_FRAME, UNSUP_OPCODE, PAUSE_EXPIRY, LPI_ENTRY, WAKE_ON_QUEUE, WAKE_COMPLETE, LPI_RX,
VERIFY_TIMER_EXPIRY, VERIFY_RESPONSE, MDIO_OPERATION_END. -/
def Obligations.PortEventsAct : Prop :=
  (∀ (s : State) (n : Fin 6), s.rst.chip = false → (s.portOf n).reset = true →
    exec (.portResetEnd n) s = .next (((s.modPort n fun p => { p with reset := false }).startLink n).verifyRestart n).after)
  ∧ (∀ (s : State) (n : Fin 6) (sp : Fin 4) (a : Nat) (par : Bool), s.rst.chip = false → s.portMode n ≠ 0 → (s.portOf n).reset = false →
    s.portTest n = false → speedOffered (s.portMode n) (PORT_AN_ADV_SPEED_FORCE.get (w32 (s.portOf n).adv)) = true →
    (s.portOf n).filter = false → s.portUp n = false →
    speedAllowed (s.portMode n) (PORT_AN_ADV_SPEED_FORCE.get (w32 (s.portOf n).adv)) sp = true →
    exec (.linkUp n (.up sp a par)) s = .next (let u := (s.setReg (PORT_AN_LP n) (w32 (a % 256))).modPort n fun p => { p with line := true, filter := false }
      let u := (u.putF (PORT_LINK n) PORT_LINK_SPEED sp).setIf (par && s.portMode n == 4 && decide (sp.val ≤ 1)) (PORT_STATUS n) PORT_STATUS_PD_LINK
      (((u.setB (PORT_LINK n) PORT_LINK_UP).setB (PORT_STATUS n) PORT_STATUS_LINK_UP).raiseLink n).verifyRestart n).after)
  ∧ (∀ (s : State) (n : Fin 6), s.rst.chip = false → (s.portOf n).line = true →
    exec (.linkLoss n) s = .next (let u := s.lineLost n
      if u.fld (PORT_LINK_FILTER n) PORT_LINK_FILTER_MS = 0 then (u.portDown n (u.flushOnDown n)).startLink n
      else u.modPort n fun p => { p with filter := true }).after)
  ∧ (∀ (s : State) (n : Fin 6), s.rst.chip = false → (s.portOf n).filter = true →
    exec (.linkFilterExpiry n) s = .next ((s.portDown n (s.flushOnDown n)).startLink n).after)
  ∧ (∀ (s : State) (n : Fin 6) (q : BitVec 16), s.rst.chip = false → s.portLive n = true → s.bit (PORT_FC_CTL n) PORT_FC_CTL_PAUSE_EN = true →
    exec (.pauseFrame n q) s = .next (((s.modPort n fun p => { p with pause := q.toNat != 0 }).count (PORT_PAUSE_RX n)).setB
      (PORT_STATUS n) PORT_STATUS_PAUSE_RX).after)
  ∧ (∀ (s : State) (n : Fin 6) (v : BitVec 16) (ts : List (BitVec 16)), s.rst.chip = false → s.portLive n = true →
    s.bit (PORT_FC_CTL n) PORT_FC_CTL_PFC_EN = true →
    let upd (l : List Nat) (q : Nat) : List Nat :=
      if bitOf q v.toNat then (if (ts.map BitVec.toNat).getD q 0 % 65536 ≠ 0 then ninsert q l else nerase q l) else l
    exec (.pfcFrame n v ts) s = .next (((s.modPort n fun p => { p with pfc := (List.range 8).foldl upd p.pfc }).count (PORT_PFC_RX n)).setB
      (PORT_STATUS n) PORT_STATUS_PAUSE_RX).after)
  ∧ (∀ (s : State) (n : Fin 6), s.rst.chip = false → s.portLive n = true →
    exec (.unsupOpcode n) s = .next (s.count (PORT_UNSUP_OPCODE n)).after)
  ∧ (∀ (s : State) (n : Fin 6), s.rst.chip = false →
    exec (.pauseExpiry n none) s = .next (s.modPort n fun p => { p with pause := false }).after
    ∧ ∀ q, exec (.pauseExpiry n (some q)) s = .next (s.modPort n fun p => { p with pfc := nerase q.val p.pfc }).after)
  ∧ (∀ (s : State) (n : Fin 6), s.rst.chip = false → s.portLive n = true → s.bit (PORT_EEE_CTL n) PORT_EEE_CTL_EEE_EN = true →
    (s.eeeMin n).isSome = true → s.eeePartner n = true → s.portIdle n = true → (s.portOf n).lpi = .awake →
    exec (.lpiEntry n) s = .next (((s.modPort n fun p => { p with lpi := .asleep, lpiAt := s.time.tick - p.lpiRest }).setB (PORT_LINK n) PORT_LINK_LPI_TX).count
      (PORT_LPI_TX_TRANS n)).after)
  ∧ (∀ (s : State) (n : Fin 6), s.rst.chip = false → s.bit (PORT_EEE_CTL n) PORT_EEE_CTL_WAKE_ON_QUEUE = true →
    (List.range 8).all (fun c => (s.swq (8 * n + c)).isEmpty) = false → (s.portOf n).lpi = .asleep →
    let u := lpiTick n s
    exec (.wakeOnQueue n) s = .next (((u.modPort n fun p => { p with lpiRest := u.time.tick - p.lpiAt }).clrB (PORT_LINK n) PORT_LINK_LPI_TX).modPort n
      fun p => { p with lpi := .waking, tw := max (s.fld (PORT_EEE_TW n) PORT_EEE_TW_TW_SYS) ((s.eeeMin n).getD 0) }).after)
  ∧ (∀ (s : State) (n : Fin 6), s.rst.chip = false → (s.portOf n).lpi = .waking →
    exec (.wakeComplete n) s = .next (s.modPort n fun p => { p with lpi := .awake }).after)
  ∧ (∀ (s : State) (n : Fin 6), s.rst.chip = false → s.portLive n = true →
    (s.bit (PORT_LINK n) PORT_LINK_LPI_RX = false → exec (.lpiRx n true) s = .next (((s.modPort n fun p => { p with lpiRxAt := s.time.tick - p.lpiRxRest }).setB
        (PORT_LINK n) PORT_LINK_LPI_RX).count (PORT_LPI_RX_TRANS n)).after)
    ∧ (s.bit (PORT_LINK n) PORT_LINK_LPI_RX = true → let u := lpiTick n s
        exec (.lpiRx n false) s = .next ((u.modPort n fun p => { p with lpiRxRest := u.time.tick - p.lpiRxAt }).clrB (PORT_LINK n) PORT_LINK_LPI_RX).after))
  ∧ (∀ (s : State) (n : Fin 6), s.rst.chip = false → s.fld (PORT_MM_STATUS n) PORT_MM_STATUS_VERIFY_STATE = 2 →
    exec (.verifyTimerExpiry n) s = .next (if (s.portOf n).tries < 3 then s.modPort n fun p => { p with tries := p.tries + 1 }
      else (s.putF (PORT_MM_STATUS n) PORT_MM_STATUS_VERIFY_STATE 4).setB (PORT_STATUS n) PORT_STATUS_MM_VERIFY_FAIL).after)
  ∧ (∀ (s : State) (n : Fin 6), s.rst.chip = false → s.fld (PORT_MM_STATUS n) PORT_MM_STATUS_VERIFY_STATE = 2 →
    exec (.verifyResponse n) s = .next ((s.putF (PORT_MM_STATUS n) PORT_MM_STATUS_VERIFY_STATE 3).setB (PORT_STATUS n) PORT_STATUS_MM_VERIFY_OK).after)
  ∧ (∀ (s : State) (d : BitVec 16) (op : Nat) (l : List Nat), s.rst.chip = false → s.mdio = op :: l →
    exec (.mdioOperationEnd d) s = .next (({ (if 2 ≤ op then s.setReg PORT_MDIO_DATA (w32 (if s.rst.banks.contains 6 then 0 else d.toNat)) else s) with
      mdio := [] } : State).clrB PORT_MDIO_CMD PORT_MDIO_CMD_BUSY).after)

/-- The engines' moves, extensions, additions, subtractions and multiplications complete with their result and flags. Where the instruction is
fetched, its operands read and its writes land, it completes with the result and flags written out, and the engine goes on at the next index.
Every clause concludes with the next state that exec answers, under hypotheses on the state and the operands alone. Commands: NOP, MOV, SEXT,
ZEXT, BSWAP, ADD, ADC, SUB, SBB, NEG, MUL, MULHU, MULHS, MAC. -/
def Obligations.EngineMovesAndAddsComplete : Prop :=
  (∀ (s : State) (n : Fin 25),
    s.completes n iNop (.nop n) (fun _ => True) fun o =>
      { st := o.st })
  ∧ (∀ (s : State) (n : Fin 25),
    s.completes n iMov (.mov n) (fun _ => True) fun o =>
      { st := o.st, wa := some (o.v.b), fl := some (flagsZN o.v.fl (o.v.size) (o.v.b)) })
  ∧ (∀ (s : State) (n : Fin 25),
    s.completes n iSext (.sext n) (fun _ => True) fun o =>
      { st := o.st, wa := some (unsgn 64 (sgn o.v.size o.v.b)), fl := some (flagsZN o.v.fl (64) (unsgn 64 (sgn o.v.size o.v.b))) })
  ∧ (∀ (s : State) (n : Fin 25),
    s.completes n iZext (.zext n) (fun _ => True) fun o =>
      { st := o.st, wa := some (o.v.b), fl := some (flagsZN o.v.fl (64) (o.v.b)) })
  ∧ (∀ (s : State) (n : Fin 25),
    s.completes n iBswap (.bswap n) (fun _ => True) fun o =>
      { st := o.st, wa := some (ofLe (leBytes (o.v.size / 8) o.v.b).reverse), fl := some (flagsZN o.v.fl (o.v.size) (ofLe (leBytes (o.v.size / 8) o.v.b).reverse)) })
  ∧ (∀ (s : State) (n : Fin 25),
    s.completes n iAdd (.add n) (fun _ => True) fun o =>
      let r := (o.v.b + o.v.c + b2n false) % 2 ^ o.v.size
      { st := o.st, wa := some r, fl := some (flagsAll o.v.fl o.v.size r (decide (2 ^ o.v.size ≤ o.v.b + o.v.c + b2n false))
        (decide (sgn o.v.size r ≠ sgn o.v.size (o.v.b) + sgn o.v.size (o.v.c) + (b2n false : Nat)))) })
  ∧ (∀ (s : State) (n : Fin 25),
    s.completes n iAdc (.adc n) (fun _ => True) fun o =>
      let r := (o.v.b + o.v.c + b2n (bitOf flC o.v.fl)) % 2 ^ o.v.size
      { st := o.st, wa := some r, fl := some (flagsAll o.v.fl o.v.size r (decide (2 ^ o.v.size ≤ o.v.b + o.v.c + b2n (bitOf flC o.v.fl)))
        (decide (sgn o.v.size r ≠ sgn o.v.size (o.v.b) + sgn o.v.size (o.v.c) + (b2n (bitOf flC o.v.fl) : Nat)))) })
  ∧ (∀ (s : State) (n : Fin 25),
    s.completes n iSub (.sub n) (fun _ => True) fun o =>
      let r := (o.v.b + 2 ^ o.v.size + 2 ^ o.v.size - o.v.c - b2n false) % 2 ^ o.v.size
      { st := o.st, wa := some r, fl := some (flagsAll o.v.fl o.v.size r (decide (o.v.b < o.v.c + b2n false))
        (decide (sgn o.v.size r ≠ sgn o.v.size (o.v.b) - sgn o.v.size (o.v.c) - (b2n false : Nat)))) })
  ∧ (∀ (s : State) (n : Fin 25),
    s.completes n iSbb (.sbb n) (fun _ => True) fun o =>
      let r := (o.v.b + 2 ^ o.v.size + 2 ^ o.v.size - o.v.c - b2n (bitOf flC o.v.fl)) % 2 ^ o.v.size
      { st := o.st, wa := some r, fl := some (flagsAll o.v.fl o.v.size r (decide (o.v.b < o.v.c + b2n (bitOf flC o.v.fl)))
        (decide (sgn o.v.size r ≠ sgn o.v.size (o.v.b) - sgn o.v.size (o.v.c) - (b2n (bitOf flC o.v.fl) : Nat)))) })
  ∧ (∀ (s : State) (n : Fin 25),
    s.completes n iNeg (.neg n) (fun _ => True) fun o =>
      let r := (0 + 2 ^ o.v.size + 2 ^ o.v.size - o.v.b - b2n false) % 2 ^ o.v.size
      { st := o.st, wa := some r, fl := some (flagsAll o.v.fl o.v.size r (decide (0 < o.v.b + b2n false))
        (decide (sgn o.v.size r ≠ sgn o.v.size (0) - sgn o.v.size (o.v.b) - (b2n false : Nat)))) })
  ∧ (∀ (s : State) (n : Fin 25),
    s.completes n iMul (.mul n) (fun _ => True) fun o =>
      let r := o.v.b * o.v.c % 2 ^ o.v.size
      { st := o.st, wa := some r, fl := some (flagsAll o.v.fl o.v.size r false false) })
  ∧ (∀ (s : State) (n : Fin 25),
    s.completes n iMulhu (.mulhu n) (fun _ => True) fun o =>
      let r := o.v.b * o.v.c / 2 ^ o.v.size
      { st := o.st, wa := some r, fl := some (flagsAll o.v.fl o.v.size r false false) })
  ∧ (∀ (s : State) (n : Fin 25),
    s.completes n iMulhs (.mulhs n) (fun _ => True) fun o =>
      let r := unsgn o.v.size (sgn o.v.size o.v.b * sgn o.v.size o.v.c / (2 ^ o.v.size : Nat))
      { st := o.st, wa := some r, fl := some (flagsAll o.v.fl o.v.size r false false) })
  ∧ (∀ (s : State) (n : Fin 25),
    s.completes n iMac (.mac n) (fun _ => True) fun o =>
      let r := (o.v.a + (o.v.b * o.v.c % 2 ^ o.v.size) + b2n false) % 2 ^ o.v.size
      { st := o.st, wa := some r, fl := some (flagsAll o.v.fl o.v.size r (decide (2 ^ o.v.size ≤ o.v.a + (o.v.b * o.v.c % 2 ^ o.v.size) + b2n false))
        (decide (sgn o.v.size r ≠ sgn o.v.size (o.v.a) + sgn o.v.size ((o.v.b * o.v.c % 2 ^ o.v.size)) + (b2n false : Nat)))) })

/-- The engines' logic, shift and rotate instructions complete with their result and flags. Where the instruction is fetched, its operands read and
its writes land, it completes with the result and flags written out, and the engine goes on at the next index. Every clause concludes with the
next state that exec answers, under hypotheses on the state and the operands alone. Commands: AND, OR, XOR, ANDN, NOT, SHL, SHR, SAR, ROL, ROR. -/
def Obligations.EngineLogicAndShiftsComplete : Prop :=
  (∀ (s : State) (n : Fin 25),
    s.completes n iAnd (.and n) (fun _ => True) fun o =>
      { st := o.st, wa := some (o.v.b &&& o.v.c), fl := some (flagsZN o.v.fl (o.v.size) (o.v.b &&& o.v.c)) })
  ∧ (∀ (s : State) (n : Fin 25),
    s.completes n iOr (.or n) (fun _ => True) fun o =>
      { st := o.st, wa := some (o.v.b ||| o.v.c), fl := some (flagsZN o.v.fl (o.v.size) (o.v.b ||| o.v.c)) })
  ∧ (∀ (s : State) (n : Fin 25),
    s.completes n iXor (.xor n) (fun _ => True) fun o =>
      { st := o.st, wa := some (o.v.b ^^^ o.v.c), fl := some (flagsZN o.v.fl (o.v.size) (o.v.b ^^^ o.v.c)) })
  ∧ (∀ (s : State) (n : Fin 25),
    s.completes n iAndn (.andn n) (fun _ => True) fun o =>
      { st := o.st, wa := some (o.v.b - (o.v.b &&& o.v.c)), fl := some (flagsZN o.v.fl (o.v.size) (o.v.b - (o.v.b &&& o.v.c))) })
  ∧ (∀ (s : State) (n : Fin 25),
    s.completes n iNot (.not n) (fun _ => True) fun o =>
      { st := o.st, wa := some (2 ^ o.v.size - 1 - o.v.b), fl := some (flagsZN o.v.fl (o.v.size) (2 ^ o.v.size - 1 - o.v.b)) })
  ∧ (∀ (s : State) (n : Fin 25),
    s.completes n iShl (.shl n) (fun _ => True) fun o =>
      let k := o.v.c % o.v.size
      let r := o.v.b * 2 ^ k % 2 ^ o.v.size
      { st := o.st, wa := some r, fl := some (if k = 0 then flagsZN o.v.fl o.v.size r
        else withBit (flagsZN o.v.fl o.v.size r) flC (bitOf (o.v.size - k) o.v.b)) })
  ∧ (∀ (s : State) (n : Fin 25),
    s.completes n iShr (.shr n) (fun _ => True) fun o =>
      let k := o.v.c % o.v.size
      let r := o.v.b / 2 ^ k
      { st := o.st, wa := some r, fl := some (if k = 0 then flagsZN o.v.fl o.v.size r
        else withBit (flagsZN o.v.fl o.v.size r) flC (bitOf (k - 1) o.v.b)) })
  ∧ (∀ (s : State) (n : Fin 25),
    s.completes n iSar (.sar n) (fun _ => True) fun o =>
      let k := o.v.c % o.v.size
      let r := unsgn o.v.size (sgn o.v.size o.v.b / (2 ^ k : Nat))
      { st := o.st, wa := some r, fl := some (if k = 0 then flagsZN o.v.fl o.v.size r
        else withBit (flagsZN o.v.fl o.v.size r) flC (bitOf (k - 1) o.v.b)) })
  ∧ (∀ (s : State) (n : Fin 25),
    s.completes n iRol (.rol n) (fun _ => True) fun o =>
      let k := o.v.c % o.v.size
      let r := (o.v.b * 2 ^ k + o.v.b / 2 ^ (o.v.size - k)) % 2 ^ o.v.size
      { st := o.st, wa := some r, fl := some (if k = 0 then flagsZN o.v.fl o.v.size r
        else withBit (flagsZN o.v.fl o.v.size r) flC (bitOf 0 r)) })
  ∧ (∀ (s : State) (n : Fin 25),
    s.completes n iRor (.ror n) (fun _ => True) fun o =>
      let k := o.v.c % o.v.size
      let r := (o.v.b / 2 ^ k + o.v.b * 2 ^ (o.v.size - k)) % 2 ^ o.v.size
      { st := o.st, wa := some r, fl := some (if k = 0 then flagsZN o.v.fl o.v.size r
        else withBit (flagsZN o.v.fl o.v.size r) flC (bitOf (o.v.size - 1) r)) })

/-- The engines' bit and bit-field instructions complete with their result and flags. Where the instruction is fetched, its operands read and its
writes land, it completes with the result and flags written out, and the engine goes on at the next index. A field of C's position p and width n
is taken, and replaced, only below the top bit of the operand. Every clause concludes with the next state that exec answers, under hypotheses on
the state and the operands alone. Commands: BFX, BFXS, BFI, BSET, BCLR. -/
def Obligations.EngineBitFieldsComplete : Prop :=
  (∀ (s : State) (n : Fin 25),
    s.completes n iBfx (.bfx n) (fun _ => True) fun o =>
      let r := o.v.b % 2 ^ (o.v.size - 1) / 2 ^ bitsOf 5 0 o.v.c % 2 ^ (bitsOf 11 6 o.v.c + 1)
      { st := o.st, wa := some r, fl := some (flagsZN o.v.fl o.v.size r) })
  ∧ (∀ (s : State) (n : Fin 25),
    s.completes n iBfxs (.bfxs n) (fun _ => True) fun o =>
      let k := bitsOf 11 6 o.v.c + 1
      let r := unsgn o.v.size (sgn k (o.v.b % 2 ^ (o.v.size - 1) / 2 ^ bitsOf 5 0 o.v.c % 2 ^ k))
      { st := o.st, wa := some r, fl := some (flagsZN o.v.fl o.v.size r) })
  ∧ (∀ (s : State) (n : Fin 25),
    s.completes n iBfi (.bfi n) (fun _ => True) fun o =>
      let p := bitsOf 5 0 o.v.c
      let k := min (bitsOf 11 6 o.v.c + 1) (o.v.size - 1 - p)
      let r := (o.v.a / 2 ^ (p + k) * 2 ^ (p + k) + o.v.b % 2 ^ k * 2 ^ p + o.v.a % 2 ^ p) % 2 ^ o.v.size
      { st := o.st, wa := some r, fl := some (flagsZN o.v.fl o.v.size r) })
  ∧ (∀ (s : State) (n : Fin 25),
    s.completes n iBset (.bset n) (fun _ => True) fun o =>
      let r := withBit o.v.b (o.v.c % o.v.size) true
      { st := o.st, wa := some r, fl := some (flagsZN o.v.fl o.v.size r) })
  ∧ (∀ (s : State) (n : Fin 25),
    s.completes n iBclr (.bclr n) (fun _ => True) fun o =>
      let r := withBit o.v.b (o.v.c % o.v.size) false
      { st := o.st, wa := some r, fl := some (flagsZN o.v.fl o.v.size r) })

/-- The engines' branches, returns from trap and waits that end at once complete at the index their condition names. Where the instruction is fetched
and its operands read, it completes at the index that its condition names. Every clause concludes with the next state that exec answers, under
hypotheses on the state and the operands alone. Commands: BEQ, BNE, BLT, BGE, BLTU, BGEU, BBS, BBC, JMP, BF, DJNZ, RETT, WAITT, YIELD, IFENCE. -/
def Obligations.EngineBranchesComplete : Prop :=
  (∀ (s : State) (n : Fin 25),
    s.completes n iBeq (.beq n) (fun _ => True) fun o =>
      { st := o.st, fl := some (subFl o.v.fl o.v.size o.v.a o.v.b false).2, pc := if o.v.a == o.v.b then some o.v.c else none })
  ∧ (∀ (s : State) (n : Fin 25),
    s.completes n iBne (.bne n) (fun _ => True) fun o =>
      { st := o.st, fl := some (subFl o.v.fl o.v.size o.v.a o.v.b false).2, pc := if o.v.a != o.v.b then some o.v.c else none })
  ∧ (∀ (s : State) (n : Fin 25),
    s.completes n iBlt (.blt n) (fun _ => True) fun o =>
      { st := o.st, fl := some (subFl o.v.fl o.v.size o.v.a o.v.b false).2, pc := if decide (sgn o.v.size o.v.a < sgn o.v.size o.v.b) then some o.v.c else none })
  ∧ (∀ (s : State) (n : Fin 25),
    s.completes n iBge (.bge n) (fun _ => True) fun o =>
      { st := o.st, fl := some (subFl o.v.fl o.v.size o.v.a o.v.b false).2, pc := if decide (sgn o.v.size o.v.b ≤ sgn o.v.size o.v.a) then some o.v.c else none })
  ∧ (∀ (s : State) (n : Fin 25),
    s.completes n iBltu (.bltu n) (fun _ => True) fun o =>
      { st := o.st, fl := some (subFl o.v.fl o.v.size o.v.a o.v.b false).2, pc := if decide (o.v.a < o.v.b) then some o.v.c else none })
  ∧ (∀ (s : State) (n : Fin 25),
    s.completes n iBgeu (.bgeu n) (fun _ => True) fun o =>
      { st := o.st, fl := some (subFl o.v.fl o.v.size o.v.a o.v.b false).2, pc := if decide (o.v.b ≤ o.v.a) then some o.v.c else none })
  ∧ (∀ (s : State) (n : Fin 25),
    s.completes n iBbs (.bbs n) (fun _ => True) fun o =>
      let t := bitOf (o.v.b % o.v.size) o.v.a
      { st := o.st, fl := some (withBit o.v.fl flZ (!t)), pc := if t == true then some o.v.c else none })
  ∧ (∀ (s : State) (n : Fin 25),
    s.completes n iBbc (.bbc n) (fun _ => True) fun o =>
      let t := bitOf (o.v.b % o.v.size) o.v.a
      { st := o.st, fl := some (withBit o.v.fl flZ (!t)), pc := if t == false then some o.v.c else none })
  ∧ (∀ (s : State) (n : Fin 25),
    s.completes n iJmp (.jmp n) (fun _ => True) fun o =>
      { st := o.st, pc := some o.v.c })
  ∧ (∀ (s : State) (n : Fin 25),
    s.completes n iBf (.bf n) (fun _ => True) fun o =>
      { st := o.st, pc := if bfCond o.v.fl o.v.a then some o.v.c else none })
  ∧ (∀ (s : State) (n : Fin 25),
    s.completes n iDjnz (.djnz n) (fun _ => True) fun o =>
      let r := (o.v.a + 2 ^ o.v.size - 1) % 2 ^ o.v.size
      { st := o.st, wa := some r, pc := if r ≠ 0 then some o.v.c else none })
  ∧ (∀ (s : State) (n : Fin 25) (x : State × Nat),
    s.completes n iRett (.rett n) (fun o => o.st.spRead n.val 0x68 8 = .ok x) fun o =>
      { st := x.1, fl := some (withBit (withBit o.v.fl flIE (bitOf flPIE o.v.fl)) flTRAP false), pc := some x.2, pass := true })
  ∧ (∀ (s : State) (n : Fin 25),
    s.completes n iWaitt (.waitt n) (fun o => (o.st.qeOf n.val).wait = .none ∧ o.st.instantNow (o.v.b / 2 ^ 32) (min (o.v.b % 2 ^ 30) 999999999) ≤ o.st.time.tod) fun o =>
      { st := o.st })
  ∧ (∀ (s : State) (n : Fin 25),
    s.completes n iYield (.yield n) (fun _ => True) fun o =>
      { st := o.st })
  ∧ (∀ (s : State) (n : Fin 25),
    s.completes n iIfence (.ifence n) (fun _ => True) fun o =>
      { st := o.st })

/-- The engines' address, check-code, atomic, queue and stream instructions complete with their result. Where the instruction is fetched, its operands
read, its condition holds and its writes land, it completes with the result written out. Every clause concludes with the next state that exec
answers, under hypotheses on the state and the operands alone. Commands: LEA, CRC32, CSUM, CRC16R, CRC16N, SWAP, TAS, CAS, FQPUSH, FQPOP, FQPKT,
SCLOSE, SSTAT, SNEXT, WAITE. -/
def Obligations.EngineAccessInstructionsComplete : Prop :=
  (∀ (s : State) (n : Fin 25) (a : Nat),
    s.completes n iLea (.lea n) (fun o => o.v.eb = .sp a ∨ o.v.eb = .bits a ∨ o.v.eb = .glob a ∨ o.v.eb = .io a) fun o =>
      { st := o.st, wa := some a })
  ∧ (∀ (s : State) (n : Fin 25),
    s.completes n iCrc32 (.crc32 n) (fun _ => True) fun o =>
      { st := o.st, wa := some (crc32On o.v.a (leBytes (o.v.size / 8) o.v.b)), fl := some (flagsZN o.v.fl (32) (crc32On o.v.a (leBytes (o.v.size / 8) o.v.b))) })
  ∧ (∀ (s : State) (n : Fin 25),
    s.completes n iCsum (.csum n) (fun _ => True) fun o =>
      { st := o.st, wa := some (onesFold (o.v.a + csumWords (leBytes (o.v.size / 8) o.v.b))), fl := some (flagsZN o.v.fl (16) (onesFold (o.v.a + csumWords (leBytes (o.v.size / 8) o.v.b)))) })
  ∧ (∀ (s : State) (n : Fin 25) (x : State × Nat),
    s.completes n iCrc16r (.crc16r n) (fun o => crc16Bytes n.val o.v.c (fun c b => (c ^^^ b) % 256) (fun c e => (c / 256) ^^^ e) (leBytes (o.v.size / 8) o.v.b) o.st o.v.a = .ok x) fun o =>
      { st := x.1, wa := some x.2, fl := some (flagsZN o.v.fl 16 x.2) })
  ∧ (∀ (s : State) (n : Fin 25) (x : State × Nat),
    s.completes n iCrc16n (.crc16n n) (fun o => crc16Bytes n.val o.v.c (fun c b => (c / 256 ^^^ b) % 256) (fun c e => (c * 256 % 65536) ^^^ e) (leBytes (o.v.size / 8) o.v.b) o.st o.v.a = .ok x) fun o =>
      { st := x.1, wa := some x.2, fl := some (flagsZN o.v.fl 16 x.2) })
  ∧ (∀ (s : State) (n : Fin 25),
    s.completes n iSwap (.swap n) (fun _ => True) fun o =>
      { st := o.st, wa := some (o.v.b), wb := some (o.v.c) })
  ∧ (∀ (s : State) (n : Fin 25),
    s.completes n iTas (.tas n) (fun _ => True) fun o =>
      { st := o.st, wa := some (o.v.b), wb := some (1), fl := some (withBit o.v.fl flZ (o.v.b == 0)) })
  ∧ (∀ (s : State) (n : Fin 25),
    s.completes n iCas (.cas n) (fun _ => True) fun o =>
      if o.v.a = o.v.b then { st := o.st, wa := some o.v.c, fl := some (withBit o.v.fl flZ true) }
      else { st := o.st, wb := some o.v.a, fl := some (withBit o.v.fl flZ false) })
  ∧ (∀ (s : State) (n : Fin 25),
    s.completes n iFqpush (.fqpush n) (fun o => ((o.st.fqOf (o.v.a % 512)).en = true ∧ (o.st.fqOf (o.v.a % 512)).discard = true) ∨ o.st.fqRoom (o.v.a % 512) = true) fun o =>
      { st := o.st.fqPush (o.v.a % 512) ⟨o.v.b, bitOf 0 o.v.c, false, 0, false, false⟩, fl := some (withBit o.v.fl flZ false) })
  ∧ (∀ (s : State) (n : Fin 25) (x : FqWord),
    s.completes n iFqpop (.fqpop n) (fun o => o.st.fqHead (o.v.b % 512) = some x) fun o =>
      { st := o.st.fqPop (o.v.b % 512), wa := some (x.data + 2 ^ 32 * (1 + 2 * b2n x.last + 4 * b2n x.poison + 8 * b2n x.trunc)),
        fl := some (withBit (withBit (withBit (withBit o.v.fl flZ false) flC x.last) flV x.poison) flN x.trunc) })
  ∧ (∀ (s : State) (n : Fin 25),
    s.completes n iFqpkt (.fqpkt n) (fun _ => True) fun o =>
      { st := o.st, wa := some ((o.st.fqOf (o.v.b % 512)).packets), fl := some (flagsZN o.v.fl (32) ((o.st.fqOf (o.v.b % 512)).packets)) })
  ∧ (∀ (s : State) (n : Fin 25),
    s.completes n iSclose (.sclose n) (fun o => (o.st.qeOf n.val).txBuf ≠ [] ∧ o.st.txRoom n.val 1 = true) fun o =>
      { st := (o.st.setQe n.val { o.st.qeOf n.val with txBuf := [], txOpen := false }).fqPush (o.st.txq n.val)
          ⟨ofLe (o.st.qeOf n.val).txBuf, true, false, (o.st.qeOf n.val).txBuf.length % 4, false, false⟩,
        fl := some (withBit o.v.fl flZ false) })
  ∧ (∀ (s : State) (n : Fin 25),
    s.completes n iSstat (.sstat n) (fun _ => True) fun o =>
      let q := o.st.qeOf n.val
      let r := b2n q.ended + 2 * b2n q.trunc + 4 * b2n q.rxOpen + 8 * b2n q.txOpen
      { st := o.st, wa := some r, fl := some (flagsZN o.v.fl 32 r) })
  ∧ (∀ (s : State) (n : Fin 25),
    s.completes n iSnext (.snext n) (fun o => n.val < 24 ∧ (o.st.qeOf n.val).ended = true) fun o =>
      { st := o.st.setQe n.val { o.st.qeOf n.val with rxPos := 0, ended := false, trunc := false, rxOpen := false },
        fl := some (withBit o.v.fl flZ (!o.st.fqComplete (o.st.rxq n.val))) })
  ∧ (∀ (s : State) (n : Fin 25),
    s.completes n iWaite (.waite n) (fun o => (o.st.qeOf n.val).wait = .none ∧ o.st.qevents n.val &&& o.v.b ≠ 0) fun o =>
      let e := o.st.qevents n.val &&& o.v.b
      { st := o.st.clearEv n.val (putBits 15 8 e 0), wa := some e, fl := some (withBit (withBit o.v.fl flZ (e == 0)) flN (bitOf 31 e)) })

/-- The engines' calls, returns, traps, privileged instructions, repeats and waits complete. Calls push and returns pop, a call below the limit traps
STACK, TRAP and EMU enter their vectors, repeats begin and waits end, as written out. Every clause concludes with the next state that exec
answers, under hypotheses on the state and the operands alone. That WAITE writes 0 and clears N at its time-out is the model's reading (log 34).
EMU is stated for the BASEs that no row of the opcode table has. Commands: CALL, RET, SCOPE, LOGEV, TRAP, EMU, REP, REPI, WAITE_COMPLETE,
WAITE_TIMEOUT, WAITT_COMPLETE. -/
def Obligations.EngineCallsRepeatsAndWaitsComplete : Prop :=
  (∀ (s : State) (n : Fin 25) (x : State × Nat),
    s.completes n iCall (.call n) (fun o => o.st.spWord n 0x40 = .ok x) fun o =>
      let sp := (x.2 + 65528) % 65536
      { st := (x.1.spWrite n sp (leBytes 8 (o.v.next % iramSize n))).spWrite n 0x40 (leBytes 2 sp), pc := some o.v.c })
  ∧ (∀ (s s1 : State) (n : Fin 25) (w : Nat) (fc : Formed) (x l : State × Nat), s.rst.chip = false → s.rst.core = false → s.qeReady n = true →
    s.qeBase n = 0x34 → s.qeFetch n (s.qeOf n).pc = .ok (s1, w) → iCall.static n w = true → s1.formOp n .target (specC w) [] = .ok fc →
    fc.2.2.badExtent .target = none → fc.1.spWord n 0x40 = .ok x → x.2 % 8 = 0 → x.1.spWord n 0x50 = .ok l → (x.2 + 65528) % 65536 < l.2 →
    exec (.call n) s = .next ((l.1.trapEntry n { cause := 2, vector := 2, addr := (x.2 + 65528) % 65536, word := w, pc := (l.1.qeOf n).pc }).stepDone n).after)
  ∧ (∀ (s : State) (n : Fin 25) (x y : State × Nat),
    s.completes n iRet (.ret n) (fun o => o.st.spWord n 0x40 = .ok x ∧ x.1.spRead n x.2 8 = .ok y) fun o =>
      { st := y.1.spWrite n 0x40 (leBytes 2 ((x.2 + 8) % 65536)), pc := some y.2 })
  ∧ (∀ (s : State) (n : Fin 25),
    s.completes n iScope (.scope n) (fun o => ¬((o.v.a = 2 ∧ 24 ≤ o.v.b) ∨ (o.v.a = 4 ∧ 6 ≤ o.v.b))) fun o =>
      { st := o.st.scopeReset o.v.a o.v.b, fl := some (withBit o.v.fl flZ false) })
  ∧ (∀ (s : State) (n : Fin 25),
    s.completes n iLogev (.logev n) (fun o => 0x80 ≤ o.v.a) fun o => { st := o.st.logEv o.v.a o.v.b, fl := some (withBit o.v.fl flZ false) })
  ∧ (∀ (s s1 : State) (n : Fin 25) (w : Nat) (o : OpsIn), s.qeReads n iTrap w s1 o →
    exec (.trap n) s = .next ((o.st.trapEntry n { cause := 8, vector := 8, word := w, pc := (o.st.qeOf n).pc + 1 }).stepDone n).after)
  ∧ (∀ (s s1 : State) (n : Fin 25) (w : Nat), s.rst.chip = false → s.rst.core = false → s.qeReady n = true → qLookup n (s.qeBase n) = none →
    s.qeFetch n (s.qeOf n).pc = .ok (s1, w) →
    exec (.emu n) s = .next ((s1.trapEntry n { cause := 1, vector := 1, word := w, pc := (s1.qeOf n).pc }).stepDone n).after)
  ∧ (∀ (s s1 s2 : State) (n : Fin 25) (w w2 : Nat) (o : OpsIn) (t : Res) (j : QInstr), s.rst.chip = false → s.rst.core = false →
    s.qeReady n = true → s.qeBase n = 0x3C → (s.qeOf n).rep = none → s.qeFetch n (s.qeOf n).pc = .ok (s1, w) → iRep.static n w = true →
    s1.qeFetch n ((s.qeOf n).pc + 1) = .ok (s2, w2) → qLookup n (baseOf w2) = some j → repeatable (baseOf w2) = true → j.static n w2 = true →
    s2.readAll n iRep w ((s.qeOf n).pc + 1) = .ok o → s2.commitAll n iRep o { st := o.st, count := o.v.b + 1 } = .ok t →
    exec (.rep n) s = .next ((t.st.setQe n { t.st.qeOf n with rep := some ⟨false, o.v.b + 1, w2⟩, wait := .none }).repGo n).after)
  ∧ (∀ (s s1 s2 : State) (n : Fin 25) (w w2 : Nat) (o : OpsIn) (t : Res) (j : QInstr), s.rst.chip = false → s.rst.core = false →
    s.qeReady n = true → s.qeBase n = 0x3D → (s.qeOf n).rep = none → s.qeFetch n (s.qeOf n).pc = .ok (s1, w) →
    bitOf flRPT (s.qflags n) = false → iRepi.static n w = true → s1.qeFetch n ((s.qeOf n).pc + 1) = .ok (s2, w2) →
    qLookup n (baseOf w2) = some j → repeatable (baseOf w2) = true → j.static n w2 = true → s2.readAll n iRepi w ((s.qeOf n).pc + 1) = .ok o →
    s2.commitAll n iRepi o { st := o.st, count := o.v.b } = .ok t →
    exec (.repi n) s = .next (if o.v.b = 0 then t.st.qeRetire n ((s.qeOf n).pc + 2) false
      else (t.st.setQe n { t.st.qeOf n with rep := some ⟨true, o.v.b, w2⟩, wait := .none }).repGo n).after)
  ∧ (∀ (s s1 : State) (n : Fin 25) (w m k : Nat) (o : OpsIn) (t : Res), s.rst.chip = false → s.rst.core = false →
    (s.qeOf n).wait = .events m k → s.qeWaiting n = true → s.qevents n &&& m ≠ 0 → s.qeFetch n (s.qeOf n).pc = .ok (s1, w) →
    s1.readAll n iWaite w ((s.qeOf n).pc + 1) = .ok o → (o.st.qeOf n).wait = .events m k → o.st.qevents n &&& m ≠ 0 →
    s1.commitAll n iWaite o { st := o.st.clearEv n (putBits 15 8 (o.st.qevents n &&& m) 0), wa := some (o.st.qevents n &&& m), fl := some (withBit (withBit o.v.fl flZ (o.st.qevents n &&& m == 0)) flN (bitOf 31 (o.st.qevents n &&& m))) } = .ok t →
    exec (.waiteComplete n) s = .next (t.st.qeRetire n ((s.qeOf n).pc + 1) false).after)
  ∧ (∀ (s s1 : State) (n : Fin 25) (w m k : Nat) (o : OpsIn) (t : Res), s.rst.chip = false → s.rst.core = false →
    (s.qeOf n).wait = .events m k → s.qeWaiting n = true → k ≠ 0 → s.qevents n &&& m = 0 → s.qeFetch n (s.qeOf n).pc = .ok (s1, w) →
    s1.readAll n iWaiteTimeout w ((s.qeOf n).pc + 1) = .ok o →
    s1.commitAll n iWaiteTimeout o { st := o.st, wa := some 0, fl := some (withBit (withBit o.v.fl flZ true) flN false) } = .ok t →
    exec (.waiteTimeout n) s = .next (t.st.qeRetire n ((s.qeOf n).pc + 1) false).after)
  ∧ (∀ (s s1 : State) (n : Fin 25) (w k : Nat) (o : OpsIn) (t : Res), s.rst.chip = false → s.rst.core = false → (s.qeOf n).wait = .until k →
    s.qeWaiting n = true → k ≤ s.time.tod → s.qeFetch n (s.qeOf n).pc = .ok (s1, w) → s1.readAll n iWaitt w ((s.qeOf n).pc + 1) = .ok o →
    (o.st.qeOf n).wait = .until k → k ≤ o.st.time.tod → s1.commitAll n iWaitt o { st := o.st } = .ok t →
    exec (.waittComplete n) s = .next (t.st.qeRetire n ((s.qeOf n).pc + 1) false).after)

/-- Writes of the engine and berth control registers start, stop, halt, resume, step, kick and reset. A write that is taken sets the register and does
what its row says beside. Every clause concludes with the next state that exec answers, under hypotheses on the state and the operands alone.
Commands: EVENT_SET, QE_START, QE_STOP, QE_HALT, QE_RESUME, QE_STEP, KICK, BERTH_CTL_START, BERTH_CTL_STOP, NOTIFY, BERTH_CTL_RESET. -/
def Obligations.EngineControlWrites : Prop :=
  (∀ (s : State) (who : Initiator) (n : Fin 25) (w : Word), s.writeTaken who (QE_EVENT_SET n) w = true →
    exec (.eventSet who n w) s = .next (s.did who (QE_EVENT_SET n) w fun u =>
      u.setReg (QE_EVENT n) (u.reg (QE_EVENT n) ||| (w &&& QE_EVENT_SET_SOFT.mask))))
  ∧ (∀ (s : State) (who : Initiator) (n : Fin 25) (w : Word), s.writeTaken who (QE_CTL n) (QE_CTL_START.put w 1) = true →
    exec (.qeStart who n w) s = .next (s.did who (QE_CTL n) (QE_CTL_START.put w 1) fun u =>
      if (u.qeOf n).run = .stopped ∧ (u.berthOf n).isSome then
        let v := (u.setReg (QE_EVENT n) 0).setQflags n 0
        let v := ((v.setLow n 0x78 0).setLow n 0x68 (u.qeOf n).pc).setLow n 0x70 0
        v.setQe n { run := .running, pc := v.fld (QE_CFG n) (if n.val = 24 then HM_CFG_ENTRY else QE_CFG_ENTRY) }
      else u.setB (QE_STATUS n) QE_STATUS_START_REFUSED))
  ∧ (∀ (s : State) (who : Initiator) (n : Fin 25) (w : Word), s.writeTaken who (QE_CTL n) (QE_CTL_STOP.put w 1) = true →
    QE_CTL_START.get w = 0 →
    exec (.qeStop who n w) s = .next (s.did who (QE_CTL n) (QE_CTL_STOP.put w 1) fun u => match (u.qeOf n).run with
      | .running => u.setQe n { u.qeOf n with run := .stopping, step := false, haltReq := false }
      | .halted => u.setQe n { u.qeOf n with run := .stopped, cause := 0, wait := .none, step := false }
      | _ => u))
  ∧ (∀ (s : State) (who : Initiator) (n : Fin 25) (w : Word), s.writeTaken who (QE_CTL n) (QE_CTL_HALT.put w 1) = true →
    QE_CTL_START.get w = 0 → QE_CTL_STOP.get w = 0 →
    exec (.qeHalt who n w) s = .next (s.did who (QE_CTL n) (QE_CTL_HALT.put w 1) fun u =>
      if (u.qeOf n).run = .running then
        if u.qeStalled n || (u.qeOf n).inRep then u.setQe n { u.qeOf n with haltReq := true } else u.qeHalt n .debug
      else u))
  ∧ (∀ (s : State) (who : Initiator) (n : Fin 25) (w : Word), s.writeTaken who (QE_CTL n) (QE_CTL_RESUME.put w 1) = true →
    QE_CTL_START.get w = 0 → QE_CTL_STOP.get w = 0 → QE_CTL_HALT.get w = 0 →
    exec (.qeResume who n w) s = .next (s.did who (QE_CTL n) (QE_CTL_RESUME.put w 1) fun u =>
      if (u.qeOf n).run = .halted then u.setQe n { u.qeOf n with run := .running, cause := 0, skipBp := true, wait := .none } else u))
  ∧ (∀ (s : State) (who : Initiator) (n : Fin 25) (w : Word), s.writeTaken who (QE_CTL n) (QE_CTL_STEP.put w 1) = true → s.rst.core = false →
    (s.qeOf n).run = .halted → s.Inv → QE_CTL_START.get w = 0 → QE_CTL_STOP.get w = 0 → QE_CTL_HALT.get w = 0 → QE_CTL_RESUME.get w = 0 →
    exec (.qeStep who n w) s = .next
      ((((s.atWrite who (QE_CTL n)).setReg (QE_CTL n) (s.wordAfter (QE_CTL n) (QE_CTL_STEP.put w 1))).setQe n
        { s.qeOf n with run := .running, cause := 0, step := true, skipBp := true, wait := .none }).noted who (QE_CTL n) 0 |>.qeAny n).after)
  ∧ (∀ (s : State) (who : Initiator) (n : Fin 25) (w : Word), s.writeTaken who (QE_WDOG n) (QE_WDOG_KICK.put w 1) = true →
    exec (.kick who n w) s = .next (s.did who (QE_WDOG n) (QE_WDOG_KICK.put w 1) fun u =>
      (u.setReg (QE_WDOG n) (s.reg (QE_WDOG n))).setQe n { u.qeOf n with wdogHit := false }))
  ∧ (∀ (s : State) (who : Initiator) (b : Fin 24) (w : Word), s.writeTaken who (BERTH_CTL b) (BERTH_CTL_START.put w 1) = true →
    exec (.berthCtlStart who b w) s = .next (s.did who (BERTH_CTL b) (BERTH_CTL_START.put w 1) fun u =>
      let es := u.berthEngines b
      if es.all (fun n => decide ((u.qeOf n).run = .stopped)) then es.foldl State.qeStart u
      else (es.filter (fun n => decide ((u.qeOf n).run ≠ .stopped))).foldl (fun v n => v.setB (QE_STATUS n) QE_STATUS_START_REFUSED) u))
  ∧ (∀ (s : State) (who : Initiator) (b : Fin 24) (w : Word), s.writeTaken who (BERTH_CTL b) (BERTH_CTL_STOP.put w 1) = true →
    BERTH_CTL_START.get w = 0 →
    exec (.berthCtlStop who b w) s = .next (s.did who (BERTH_CTL b) (BERTH_CTL_STOP.put w 1) fun u => (u.berthEngines b).foldl State.qeStop u))
  ∧ (∀ (s : State) (who : Initiator) (b : Fin 24) (w : Word), s.writeTaken who (BERTH_CTL b) (BERTH_CTL_NOTIFY.put w 1) = true →
    BERTH_CTL_START.get w = 0 → BERTH_CTL_STOP.get w = 0 → BERTH_CTL_RESET.get w = 0 →
    exec (.notify who b w) s = .next (s.did who (BERTH_CTL b) (BERTH_CTL_NOTIFY.put w 1) fun u =>
      (u.berthEngines b).foldl (fun v n => v.raiseEv n 30) u))
  ∧ (∀ (s : State) (who : Initiator) (b : Fin 24) (w : Word), s.writeTaken who (BERTH_CTL b) (BERTH_CTL_RESET.put w 1) = true →
    BERTH_CTL_START.get w = 0 → BERTH_CTL_STOP.get w = 0 →
    exec (.berthCtlReset who b w) s = .next (s.did who (BERTH_CTL b) (BERTH_CTL_RESET.put w 1) fun u =>
      if u.bit (BERTH_STATE b) BERTH_STATE_RESETTING then u
      else (((u.berthEngines b).foldl State.qeStop u).setB (BERTH_STATE b) BERTH_STATE_RESETTING).logEv 0x04 b))

/-- Engine events, interrupts, breakpoints, timers, landings of stops and watchdogs act. Each event does what its rule says when it is due. Every
clause concludes with the next state that exec answers, under hypotheses on the state and the operands alone. That an interrupt which ends a wait
under STEP ends the step, and that engines started during a BERTH reset are stopped again, is the model's reading (log 105). Which of two breakpoints at
one PC counts, and that a halt forgets a pending stop, is the model's choice (log 125). The watchdog of an engine in STOPPING is not stated. Commands: STREAM_WAIT_END, EVENT_INTERRUPT, BREAKPOINT, QE_TIMER, QE_STOP_LANDS, QE_WATCHDOG_EXPIRY,
BERTH_RESET_END. -/
def Obligations.EngineEventsAct : Prop :=
  (∀ (s : State) (n : Fin 25), s.rst.chip = false → s.rst.core = false → (s.qeOf n).wait = .stream → s.qeWaiting n = true →
    exec (.streamWaitEnd n) s = .next ((s.setQe n { s.qeOf n with wait := .none }).qeAny n).after)
  ∧ (∀ (s : State) (n : Fin 25) (e : Nat), s.rst.chip = false → s.rst.core = false → s.qeEventOpen n = true → s.qeIrq n = some e →
    exec (.eventInterrupt n) s = .next ((s.trapEntry n { cause := 0x10, vector := 16 + e / 2, event := e, pc := (s.qeOf n).pc }).stepDone n).after)
  ∧ (∀ (s : State) (n : Fin 25), s.rst.chip = false → s.rst.core = false → (s.qeOf n).run = .running → (s.qeOf n).wait = .none →
    s.qeStalled n = false →
    (s.bpMode n = 1 →
      (∀ u w, s.qeFetch n (s.qeOf n).pc = .ok (u, w) →
        exec (.breakpoint n) s = .next (u.trapEntry n { cause := 6, vector := 6, word := w, pc := (s.qeOf n).pc }).after)
      ∧ ∀ u c a, s.qeFetch n (s.qeOf n).pc = .fault u c a → exec (.breakpoint n) s = .next (u.qeFault n c a badFetchWord true).after)
    ∧ (s.bpMode n = 2 → exec (.breakpoint n) s = .next (s.qeHalt n .brk).after))
  ∧ (∀ (s : State) (n : Fin 25), s.rst.chip = false → s.rst.core = false → s.fld (QE_TIMER n) QE_TIMER_PERIOD ≠ 0 →
    exec (.qeTimer n) s = .next (s.setReg (QE_EVENT n) (w32 (withBit (s.reg (QE_EVENT n)).toNat 29 true))).after)
  ∧ (∀ (s : State) (n : Fin 25), s.rst.chip = false → s.rst.core = false → (s.qeOf n).run = .stopping → s.qeStalled n = false →
    (s.qeOf n).inRep = false →
    exec (.qeStopLands n) s = .next (let u := (s.saveRep n).dropReads n
      u.setQe n { u.qeOf n with run := .stopped, wait := .none }).after)
  ∧ (∀ (s : State) (n : Fin 25), s.rst.chip = false → s.rst.core = false → (s.qeOf n).run = .running → s.qeStalled n = false →
    (s.qeOf n).inRep = false → s.fld (QE_WDOG n) QE_WDOG_TIMEOUT ≠ 0 →
    exec (.qeWatchdogExpiry n) s = .next (if (s.qeOf n).wdogHit ∨ bitOf flTRAP (s.qflags n) then
        (((s.eccRead (spBase n + 0x58) 8).qeHalt n .wdog).setB (QE_STATUS n) QE_STATUS_WDOG).logEv 0x41 n
      else ((s.setQe n { s.qeOf n with wdogHit := true }).trapEntry n { cause := 5, vector := 5, pc := (s.qeOf n).pc }).stepDone n).after)
  ∧ (∀ (s : State) (b : Fin 24), s.rst.chip = false → s.rst.core = false → s.bit (BERTH_STATE b) BERTH_STATE_RESETTING = true →
    let es := s.berthEngines b
    let u := es.foldl (fun v n => Machine.qeStopLands n (v.qeStop n)) s
    (es.all (fun n => decide ((u.qeOf n).run = .stopped)) = false → exec (.berthResetEnd b) s = .next u.after)
    ∧ (es.all (fun n => decide ((u.qeOf n).run = .stopped)) = true → exec (.berthResetEnd b) s = .next (
      let u := es.foldl (fun v n => v.setReg (QE_EVENT n) 0) u
      let u := (List.range (u.berthFq b).2).foldl (fun v k => v.fqFlush ((v.berthFq b).1 + k)) u
      u.clrB (BERTH_STATE b) BERTH_STATE_RESETTING).after))

/-- Ferry queues push, pop, tag and flush through their registers, and feed the switch ports. A write or read that is taken does what its row says.
Every clause concludes with the next state that exec answers, under hypotheses on the state and the operands alone. Commands: FQ_DATA_WRITE,
FQ_TAG_WRITE, FQ_DATA_READ, FERRY_FLUSH, FERRY_Q_CTL_FLUSH, SWITCH_PORT_TRANSMIT. -/
def Obligations.FerryQueuesPushPopAndFlush : Prop :=
  (∀ (s : State) (who : Initiator) (q : Fin 512) (w : Word), s.writeTaken who (FQ_DATA q) w = true →
    exec (.fqDataWrite who q w) s = .next (s.did who (FQ_DATA q) w fun u =>
      (u.setReg (FQ_DATA q) 0).fqPush q ⟨w.toNat, false, false, 0, false, false⟩))
  ∧ (∀ (s : State) (who : Initiator) (q : Fin 512) (w : Word), s.writeTaken who (FQ_TAG q) w = true →
    exec (.fqTagWrite who q w) s = .next (s.did who (FQ_TAG q) w fun u => u.fqPush q ⟨w.toNat, true, false, 0, false, false⟩))
  ∧ (∀ (s : State) (who : Initiator) (q : Fin 512), s.readTaken who (FQ_DATA q) = true →
    (s.fqHead q = none → exec (.fqDataRead who q) s = .next (s.gave who (FQ_DATA q) 0 fun u => u.setReg (FQ_TAG q) 0))
    ∧ ∀ x, s.fqHead q = some x → exec (.fqDataRead who q) s = .next (s.gave who (FQ_DATA q) (w32 x.data).toNat fun u =>
        (u.fqPop q).setReg (FQ_TAG q) (w32 (1 + 2 * b2n x.last + 4 * b2n x.poison + 8 * b2n x.trunc + 16 * x.vb))))
  ∧ (∀ (s : State) (who : Initiator) (w : Word), s.writeTaken who FERRY_FLUSH w = true →
    exec (.ferryFlush who w) s = .next (s.did who FERRY_FLUSH w fun u => u.fqFlush (FERRY_FLUSH_QUEUE.get w)))
  ∧ (∀ (s : State) (who : Initiator) (w : Word), s.writeTaken who FERRY_Q_CTL (FERRY_Q_CTL_FLUSH.put w 1) = true →
    exec (.ferryQCtlFlush who w) s = .next (s.did who FERRY_Q_CTL (FERRY_Q_CTL_FLUSH.put w 1) fun u => u.fqFlush u.fqSel))
  ∧ (∀ (s : State) (p : Fin 2), s.rst.chip = false → s.rst.core = false → ∀ (j q : Nat), s.txqNext (6 + p) = some (j, q) →
    let ws := (headPacket (s.fqOf q).words).map (fun x => { x with poison := x.poison || x.bad })
    let u : State := { s.fqPopN q ws.length with txRR := tput (fun _ => 0) s.txRR (6 + p) j }
    let bs := ws.flatMap FqWord.bytes
    let hd := leAt bs 0 4
    let bad := ws.any (fun x => x.trunc) || hd / 2 ^ 26 != 0 || decide (bitsOf 13 0 hd < 14) || decide (9212 < bitsOf 13 0 hd)
      || bitsOf 13 0 hd != (bs.drop 4).length
    let fs := addFcs (padTo60 (bs.drop 4)) false
    (bad = true → exec (.switchPortTransmit p) s = .next ((u.count FERRY_TX_BAD).setB FERRY_STATUS FERRY_STATUS_TX_BAD).after)
    ∧ (bad = false → exec (.switchPortTransmit p) s = .next (u.switchIn (6 + p) u.time.tod fs
          (u.frontOf (6 + p) fs (if bitOf 17 hd then some (bitsOf 16 14 hd) else none)) (putBits (6 + p) (6 + p) (bitsOf 25 18 hd) 0) false false
          (poisonBytes ws)).after))

/-- DMA channels start, fetch descriptors, move segments on request, complete and abort. Each of these does what its rule says when it is due. Every
clause concludes with the next state that exec answers, under hypotheses on the state and the operands alone. How a segment is cut and when its writes
begin is the model's choice (log 117). Commands: DMA_START, ABORT,
DESCRIPTOR_FETCH, SEGMENT_TRANSFER, BURST_GRANT, DREQ, DESCRIPTOR_COMPLETE. -/
def Obligations.DmaChannelsRunDescriptors : Prop :=
  (∀ (s : State) (who : Initiator) (n : Fin 32) (w : Word), s.writeTaken who (DMA_CTL n) (DMA_CTL_START.put w 1) = true →
    DMA_CTL_ABORT.get w = 0 →
    exec (.dmaStart who n w) s = .next (s.did who (DMA_CTL n) (DMA_CTL_START.put w 1) fun u =>
      (u.setReg (DMA_CTL n) (s.reg (DMA_CTL n))).dmaStart n))
  ∧ (∀ (s : State) (who : Initiator) (n : Fin 32) (w : Word), s.writeTaken who (DMA_CTL n) (DMA_CTL_ABORT.put w 1) = true →
    DMA_CTL_START.get w = 0 →
    exec (.abort who n w) s = .next (s.did who (DMA_CTL n) (DMA_CTL_ABORT.put w 1) fun u =>
      (u.setReg (DMA_CTL n) (s.reg (DMA_CTL n))).dmaAbort n))
  ∧ (∀ (s t : State) (n : Fin 32) (bs : List Nat), s.rst.chip = false → s.rst.core = false → s.dmaActive n = true →
    (s.dmaOf n).fetched = false → s.dmaGets s n false [(s.dmaNext n, 16), (s.dmaNext n + 16, 16)] = .ok t bs →
    let x : DmaSt := { skipQ := (t.dmaOf n).skipQ, desc := (List.range 8).map (fun i => leAt bs (4 * i) 4) }
    let u := (t.count (DMA_HOPS n)).clrB (DMA_CTL n) DMA_CTL_START
    (x.badDesc = false → exec (.descriptorFetch n) s = .next (u.setDma n x).after)
    ∧ (x.badDesc = true → exec (.descriptorFetch n) s = .next (u.dmaHalt n 4 (s.dmaNext n) 0 (s.dmaNext n)).after))
  ∧ (∀ (s t : State) (n : Fin 32), s.rst.chip = false → s.rst.core = false → s.dmaActive n = true → (s.dmaOf n).fetched = true →
    s.dmaSkip n = (t, true) → (t.dmaOf n).goal ≠ 0 ∨ t.dmaSize n ≠ 0 →
    let moveOn (u : State) : State :=
      let u := if (u.dmaOf n).goal = 0 then u.setDma n { u.dmaOf n with goal := u.dmaSize n } else u
      let u := u.dmaRead n
      if (u.dmaOf n).drain = false then u
      else if (u.dmaDrain n).2 = false then (u.dmaDrain n).1
      else (u.dmaDrain n).1.dmaEnd n
    (t.dmaHolds n = true → exec (.segmentTransfer n) s = .next (moveOn t).after)
    ∧ (t.dmaHolds n = false → t.dmaWins n = true →
        exec (.segmentTransfer n) s = .next (moveOn ({ t with txRR := tput (fun _ => 0) t.txRR (8 + t.dmaPrio n) n }.setDma n
          { t.dmaOf n with region := true })).after)
    ∧ (t.dmaHolds n = false → t.dmaWins n = false → exec (.segmentTransfer n) s = .next t.after))
  ∧ (∀ (s : State) (n : Fin 32), s.rst.chip = false → s.rst.core = false → (s.dmaOf n).sel ≠ 0 → (s.dmaOf n).burst = 0 →
    s.dmaWins n = true →
    let x := s.dmaOf n
    let granted (u : State) : State := (u.dmaTake n).setDma n { (u.dmaTake n).dmaOf n with burst := min x.burstLen (x.len - x.moved) }
    (x.sel ≤ 0x20 → exec (.burstGrant n) s = .next (granted (s.putF (DMA_STATE n) DMA_STATE_PENDING (s.fld (DMA_STATE n) DMA_STATE_PENDING - 1))).after)
    ∧ (0x20 < x.sel → exec (.burstGrant n) s = .next (granted s).after))
  ∧ (∀ (s : State) (k : Fin 8) (level : Bool), s.rst.chip = false →
    let u := s.pinSeen (0xD0 + k) level
    (u.inputLevel (0xD0 + k) = u.inputSeen (0xD0 + k) → exec (.dreq k level) s = .next u.after)
    ∧ (u.inputLevel (0xD0 + k) = true → u.inputSeen (0xD0 + k) = false →
        exec (.dreq k level) s = .next (let u := u.seeInput (0xD0 + k) true; ({ u with dreq := ninsert k u.dreq } : State)).after)
    ∧ (u.inputLevel (0xD0 + k) = false → u.inputSeen (0xD0 + k) = true →
        exec (.dreq k level) s = .next (let u := u.seeInput (0xD0 + k) false
        ({ u with dreq := nerase k u.dreq } : State).forN 32 fun v n =>
          v.setIf (v.dmaActive n && (v.dmaOf n).sel == k + 0x21 && decide (0 < (v.dmaOf n).burst)) (DMA_STATUS n) DMA_STATUS_REQ_WITHDRAWN).after))
  ∧ (∀ (s t u : State) (n : Fin 32) (late : Bool), s.rst.chip = false → s.rst.core = false → s.dmaActive n = true → (s.dmaOf n).fetched = true →
    (s.dmaOf n).goal = 0 → ((s.dmaOf n).srcDone || (s.dmaOf n).moved == (s.dmaOf n).len) = true → s.dmaExcess n = (t, true) → t.dmaClose n = (u, true) →
    ((s.dmaOf n).wb = false → exec (.descriptorComplete n late) s = .next (u.dmaDone n late).after)
    ∧ ∀ v, (s.dmaOf n).wb = true →
        u.dmaPuts u n false [(u.dmaNext n + 0x1C, leBytes 4 (u.dmaOf n).status)] = .ok v () →
        exec (.descriptorComplete n late) s = .next (v.dmaDone n late).after)

/-- CAN controllers change mode, load, send, cancel and receive; the time-triggered unit runs its schedule. Each of these does what its rule says when
it is due. Every clause concludes with the next state that exec answers, under hypotheses on the state and the operands alone. The steps of the error
counters are those of ISO 11898-1 (log 42, PRESUMED), and when a change of mode takes effect is the model's choice (log 106); a frame of FD format on a
controller whose FD_EN is 0 (log 44) is left out. Commands: CAN_MODE, CAN_MODE_EFFECT, TX_BUFFER_LOAD, CAN_TRANSMIT, BUS_OFF_RECOVERY, CAN_TX_CANCEL, CAN_RECEIVE, TT_ENABLE, TT_CYCLE_START, TT_TRIGGER,
BACKUP_REFERENCE, UPDATE, ABUF_EXCHANGE. -/
def Obligations.CanControllersAndScheduleAct : Prop :=
  (∀ (s : State) (who : Initiator) (n : Fin 4) (w : Word), s.writeTaken who (CAN_CTL n) w = true →
    exec (.canMode who n w) s = .next (s.did who (CAN_CTL n) w fun u => u.canMode n))
  ∧ (∀ (s : State) (n : Fin 4), s.rst.chip = false → (s.canOf n).busy = false → s.fld (CAN_CTL n) CAN_CTL_MODE ≠ 0 → s.canKept n = false →
    ((s.canOf n).mode = 0 → (s.canOf n).drain = false →
      exec (.canModeEffect n) s = .next (s.setCan n { s.canOf n with mode := s.fld (CAN_CTL n) CAN_CTL_MODE }).after)
    ∧ ((s.canOf n).mode ≠ 0 → exec (.canModeEffect n) s = .next (s.setCan n { s.canOf n with integ := false }).after))
  ∧ (∀ (s : State) (n : Fin 4) (b : Nat), s.rst.chip = false → (s.canOf n).slot (s.bit (CAN_CTL n) CAN_CTL_TXPRIO) = some b → (s.canOf n).mode ≠ 0 → s.canTest n = false →
    s.ttPair = false → s.fqComplete (s.fld (CAN_FQ n) CAN_FQ_TXQ) = true →
    let q := s.fld (CAN_FQ n) CAN_FQ_TXQ
    let p := txPacket (s.bit (CAN_CTL n) CAN_CTL_FD_EN) (headPacket (s.fqOf q).words)
    let u := (s.fqSkip q).1
    (∀ w0 w1 d, p = some (w0, w1, d) →
      exec (.txBufferLoad n) s = .next (u.canFill n b { w0 := w0, w1 := w1, data := d, fifo := s.bit (CAN_CTL n) CAN_CTL_TXPRIO }).after)
    ∧ (p = none → exec (.txBufferLoad n) s = .next ((u.count (CAN_TX_BAD_CNT n)).setB (CAN_STATUS n) CAN_STATUS_TX_BAD).after))
  ∧ (∀ (s : State) (n : Fin 4), s.rst.chip = false →
    (∀ b f, s.canMay n = true → (s.canOf n).spec = none → (s.canOf n).nextTx = some (b, f) → s.ttAllows n f = true →
      exec (.canTransmit n .start) s = .next ((s.modCan n fun x => x.setBuf b (some { f with tries := f.tries + 1, sof := some s.time.tod })).canPut n
        (.buf b) f.w0 f.w1 f.data none).after)
    ∧ (∀ d o b, (s.canOf n).tx = some o → o.src = .buf b → s.canDelayBad n o (some d) = false →
      exec (.canTransmit n (.sent d)) s = .next ((((((s.canDelay n o (some d)).canOff n).canTxOk n).canBufSent n b).canSettle n).after))
    ∧ (∀ id ide o b, (s.canOf n).tx = some o → o.src = .buf b →
      exec (.canTransmit n (.lost id ide)) s = .next ((((((s.canOff n).count (CAN_ARB_LOST n)).modCan n fun x => { x with
        rx := some { o.sof with ref := (s.refPrio id ide).isSome && s.ttUses n } }).ttRefStart n id ide).canFailed n b).after))
    ∧ (∀ ex d o b, (s.canOf n).tx = some o → o.src = .buf b →
      exec (.canTransmit n (.error ex d)) s = .next ((((((s.canDelay n o d).canOff n).canTxErr n ex).canFailed n b).canSettle n).after)))
  ∧ (∀ (s : State) (n : Fin 4), s.rst.chip = false → (s.canOf n).boff = true → (s.canOf n).recov = true → s.canKept n = false →
    exec (.busOffRecovery n) s = .next (s.setCan n { s.canOf n with boff := false, recov := false, tec := 0, rec' := 0 }).after)
  ∧ (∀ (s : State) (who : Initiator) (n : Fin 4) (w : Word), s.writeTaken who (CAN_TX_CANCEL n) w = true →
    exec (.canTxCancel who n w) s = .next (s.did who (CAN_TX_CANCEL n) w fun u =>
      u.forN 3 fun v b => if bitOf b (CAN_TX_CANCEL_CANCEL.get w) then v.canCancel n b else v))
  ∧ (∀ (s : State) (n : Fin 4), s.rst.chip = false →
    (∀ id ide, (s.canOf n).mode ≠ 0 → (s.canOf n).boff = false → (s.canOf n).integ = false → (s.canOf n).busy = false → s.canKept n = false →
      exec (.canReceive n (.start id ide)) s = .next ((s.modCan n fun y => { y with rx := some (s.canSof n ((s.refPrio id ide).isSome)) }).ttRefStart n id ide).after)
    ∧ (∀ f v, (s.canOf n).rx = some v → (f.fdf && !s.bit (CAN_CTL n) CAN_CTL_FD_EN) = false →
      exec (.canReceive n (.valid f)) s = .next ((((((s.modCan n fun y => { y with rx := none, acked := s.bit (CAN_CTL n) CAN_CTL_ACK_EN }).canRxFall n).canAccept
        n f v).ttHeard n f v).canSettle n).after))
    ∧ (∀ p, (s.canOf n).mode ≠ 0 → (s.canOf n).boff = false → (s.canOf n).tx = none → s.canTest n = false →
      exec (.canReceive n (.error p)) s = .next ((((s.modCan n fun y => { y with rx := none }).canRxErr n p).canSettle n).after)))
  ∧ (∀ (s : State) (who : Initiator) (w : Word), s.writeTaken who TT_CTL (TT_CTL_EN.put w 1) = true →
    exec (.ttEnable who w) s = .next (s.did who TT_CTL (TT_CTL_EN.put w 1) fun u => u.ttCtl (s.reg TT_CTL)))
  ∧ (∀ (s : State) (l : Fin 4), s.rst.chip = false → s.ttOn = true → 2 ≤ s.ttState → s.ttRole ≠ 2 → s.tt.begun = true →
    s.tt.cycAt + s.ttLen ≤ s.ttNow →
    exec (.ttCycleStart l) s = .next ((s.ttRaise l).ttBegin (s.tt.cycAt + s.ttLen) (s.ttCycle + 1)).after)
  ∧ (∀ (s : State) (k : Nat), s.rst.chip = false → s.ttNext = some k → s.ttOn = true → s.tt.begun = true →
    s.tt.cycAt + taMark (s.trigA k) * s.ttNtu ≤ s.ttNow →
    exec .ttTrigger s = .next ((s.ttAct k).modTt fun t => { t with nextT := if t.begun then k + 1 else 0, seen := [] }).after)
  ∧ (∀ (s : State), s.rst.chip = false → s.ttOn = true → s.ttRole = 1 → 2 ≤ s.ttState → s.tt.begun = true → s.tt.refOn = false → s.ttLevel < 3 →
    s.tt.cycAt + (s.ttPrio + 1) * s.fld TT_BACKUP_DELAY TT_BACKUP_DELAY_NTU * s.ttNtu ≤ s.ttNow →
    (∀ n, n < 2 → s.ttUses n = true → (s.canOf n).spec = none) →
    exec .backupReference s = .next (s.sendRef none).after)
  ∧ (∀ (s : State) (who : Initiator) (m : Fin 16) (w : Word), s.writeTaken who (TT_ABUF_CTL m) (TT_ABUF_CTL_UPDATE.put w 1) = true →
    exec (.update who m w) s = .next (s.did who (TT_ABUF_CTL m) (TT_ABUF_CTL_UPDATE.put w 1) id))
  ∧ (∀ (s : State) (m : Fin 16), s.rst.chip = false → s.bit (TT_ABUF_CTL m) TT_ABUF_CTL_UPDATE = true → s.abufRead m = false →
    exec (.abufExchange m) s = .next ((((s.putImage m (s.abufActive m)).modTt fun t => { t with
        active := tput (fun _ => []) t.active m ((List.range 18).map (fun j => (s.reg (TT_ABUF_W m j)).toNat)) }).clrB (TT_ABUF_CTL m)
        TT_ABUF_CTL_UPDATE).setB (TT_ABUF_CTL m) TT_ABUF_CTL_VALID).after)

/-- Axis and group commands written between ticks are held for the next profile tick. A write that is taken records the command, which acts at the
next profile tick. Every clause concludes with the next state that exec answers, under hypotheses on the state and the operands alone. Commands:
AXIS_CMD_START, AXIS_CMD_STOP, ESTOP, HOME, ARM_NEXT, AXIS_CMD_CLEAR, GRP_START, GRP_STOP, GRP_ESTOP, GRP_CLEAR, LATCH. -/
def Obligations.MotionCommandsWaitForTheTick : Prop :=
  (∀ (s : State) (who : Initiator) (n : Fin 32) (w : Word), s.writeTaken who (AX_CMD n) (AX_CMD_START.put w 1) = true →
    exec (.axisCmdStart who n w) s = .next (s.did who (AX_CMD n) (AX_CMD_START.put w 1) fun u =>
      u.setAx n { u.axOf n with acts := (u.axOf n).acts ++ [.cmd (AX_CMD_START.put w 1)] }))
  ∧ (∀ (s : State) (who : Initiator) (n : Fin 32) (w : Word), s.writeTaken who (AX_CMD n) (AX_CMD_STOP.put w 1) = true →
    exec (.axisCmdStop who n w) s = .next (s.did who (AX_CMD n) (AX_CMD_STOP.put w 1) fun u =>
      u.setAx n { u.axOf n with acts := (u.axOf n).acts ++ [.cmd (AX_CMD_STOP.put w 1)] }))
  ∧ (∀ (s : State) (who : Initiator) (n : Fin 32) (w : Word), s.writeTaken who (AX_CMD n) (AX_CMD_ESTOP.put w 1) = true →
    exec (.estop who n w) s = .next (s.did who (AX_CMD n) (AX_CMD_ESTOP.put w 1) fun u =>
      u.setAx n { u.axOf n with acts := (u.axOf n).acts ++ [.cmd (AX_CMD_ESTOP.put w 1)] }))
  ∧ (∀ (s : State) (who : Initiator) (n : Fin 32) (w : Word), s.writeTaken who (AX_CMD n) (AX_CMD_HOME.put w 1) = true →
    exec (.home who n w) s = .next (s.did who (AX_CMD n) (AX_CMD_HOME.put w 1) fun u =>
      u.setAx n { u.axOf n with acts := (u.axOf n).acts ++ [.cmd (AX_CMD_HOME.put w 1)] }))
  ∧ (∀ (s : State) (who : Initiator) (n : Fin 32) (w : Word), s.writeTaken who (AX_CMD n) (AX_CMD_ARM_NEXT.put w 1) = true →
    exec (.armNext who n w) s = .next (s.did who (AX_CMD n) (AX_CMD_ARM_NEXT.put w 1) fun u =>
      u.setAx n { u.axOf n with acts := (u.axOf n).acts ++ [.cmd (AX_CMD_ARM_NEXT.put w 1)] }))
  ∧ (∀ (s : State) (who : Initiator) (n : Fin 32) (w : Word), s.writeTaken who (AX_CMD n) (AX_CMD_CLEAR.put w 1) = true →
    exec (.axisCmdClear who n w) s = .next (s.did who (AX_CMD n) (AX_CMD_CLEAR.put w 1) fun u =>
      u.setAx n { u.axOf n with acts := (u.axOf n).acts ++ [.cmd (AX_CMD_CLEAR.put w 1)] }))
  ∧ (∀ (s : State) (who : Initiator) (g : Fin 8) (w : Word), s.writeTaken who (GRP_CMD g) (GRP_CMD_START.put w 1) = true →
    GRP_CMD_LATCH.get w = 0 →
    exec (.grpStart who g w) s = .next (s.did who (GRP_CMD g) (GRP_CMD_START.put w 1) fun u =>
      u.setGrp g { u.grpOf g with acts := (u.grpOf g).acts ++ [GRP_CMD_START.put w 1] }))
  ∧ (∀ (s : State) (who : Initiator) (g : Fin 8) (w : Word), s.writeTaken who (GRP_CMD g) (GRP_CMD_STOP.put w 1) = true →
    GRP_CMD_LATCH.get w = 0 →
    exec (.grpStop who g w) s = .next (s.did who (GRP_CMD g) (GRP_CMD_STOP.put w 1) fun u =>
      u.setGrp g { u.grpOf g with acts := (u.grpOf g).acts ++ [GRP_CMD_STOP.put w 1] }))
  ∧ (∀ (s : State) (who : Initiator) (g : Fin 8) (w : Word), s.writeTaken who (GRP_CMD g) (GRP_CMD_ESTOP.put w 1) = true →
    GRP_CMD_LATCH.get w = 0 →
    exec (.grpEstop who g w) s = .next (s.did who (GRP_CMD g) (GRP_CMD_ESTOP.put w 1) fun u =>
      u.setGrp g { u.grpOf g with acts := (u.grpOf g).acts ++ [GRP_CMD_ESTOP.put w 1] }))
  ∧ (∀ (s : State) (who : Initiator) (g : Fin 8) (w : Word), s.writeTaken who (GRP_CMD g) (GRP_CMD_CLEAR.put w 1) = true →
    GRP_CMD_LATCH.get w = 0 →
    exec (.grpClear who g w) s = .next (s.did who (GRP_CMD g) (GRP_CMD_CLEAR.put w 1) fun u =>
      u.setGrp g { u.grpOf g with acts := (u.grpOf g).acts ++ [GRP_CMD_CLEAR.put w 1] }))
  ∧ (∀ (s : State) (who : Initiator) (g : Fin 8) (w : Word), s.writeTaken who (GRP_CMD g) (GRP_CMD_LATCH.put w 1) = true →
    grpCmd (GRP_CMD_LATCH.put w 1) = 8 →
    exec (.latch who g w) s = .next (s.did who (GRP_CMD g) (GRP_CMD_LATCH.put w 1) fun u => u.grpLatch g))

/-- A profile tick moves every axis and group; position writes and reads, raw edges and debounce act. Each of these does what its rule says when it is
due. Every clause concludes with the next state that exec answers, under hypotheses on the state and the operands alone. Commands: PROFILE_TICK,
AX_POS_LO_WRITE, AX_POS_HI_WRITE, AX_POS_LO_READ, RAW_INPUT_EDGE, DEBOUNCE_EXPIRY. -/
def Obligations.AxesMoveAtTheTick : Prop :=
  (∀ (s : State), s.rst.chip = false → s.tickAt * 1000 * 2 ^ 32 ≤ s.time.tod →
    exec .profileTick s = .next (let u := ((s.forN 32 State.axTick).forN 8 State.grpTick).forN 8 State.chopTick
      ({ u with tickAt := u.time.tod / (1000 * 2 ^ 32) + 1, tickBegan := u.time.tick } : State)).after)
  ∧ (∀ (s : State) (who : Initiator) (n : Fin 32) (w : Word), s.writeTaken who (AX_POS_LO n) w = true →
    exec (.axPosLoWrite who n w) s = .next (s.did who (AX_POS_LO n) w fun u => if (s.axOf n).st ≠ .idle then u.setReg (AX_POS_LO n) 0 else
      { u.setReg (AX_POS_LO n) 0 with held := tput (fun _ => 0) u.held (AX_POS_LO n) w }))
  ∧ (∀ (s : State) (who : Initiator) (n : Fin 32) (w : Word), s.writeTaken who (AX_POS_HI n) w = true →
    exec (.axPosHiWrite who n w) s = .next (s.did who (AX_POS_HI n) w fun u => if (s.axOf n).st ≠ .idle then u.setReg (AX_POS_HI n) 0 else
      u.setReg (AX_POS_HI n) 0 |>.axWait n (.load (max (-posMax) (sgn 48 ((tget (fun _ => 0) u.held (AX_POS_LO n)).toNat + 2 ^ 32 * AX_POS_HI_POS.get w))))))
  ∧ (∀ (s : State) (who : Initiator) (n : Fin 32), s.readTaken who (AX_POS_LO n) = true →
    exec (.axPosLoRead who n) s = .next (s.gave who (AX_POS_LO n) (w32 (unsgn 48 (s.axIssued n))).toNat fun u =>
      { u with latch := tput (fun _ => 0) u.latch (AX_POS_LO n) (w32 (unsgn 48 (s.axIssued n) / 2 ^ 32)) }))
  ∧ (∀ (s : State) (n : Fin 32) (k : Fin 3) (level : Bool), s.rst.chip = false →
    let u := s.pinSeen (32 * k + n) level
    let l := u.inputLevel (32 * k + n)
    let x := u.axOf n
    (x.raw k = l → exec (.rawInputEdge n k level) s = .next u.after)
    ∧ (x.raw k ≠ l → exec (.rawInputEdge n k level) s = .next (let appr := x.st == .homing && x.phase == 4 && u.homeInput n == k.val
      let y := (x.latch k (u.axIssued n) u.time.tod u.time.tick).setRaw k l
      let v := (u.setAx n (if appr ∧ l ∧ x.cand = none then { y with cand := some (u.axIssued n) } else y)).countIf (appr && x.cand.isSome) (AX_HOME_CHATTER n)
      if v.filtOf n k = 0 then v.setFiltered n k l else v).after))
  ∧ (∀ (s : State) (n : Fin 32) (k : Fin 3), s.rst.chip = false →
    let x := s.axOf n
    let l := x.raw k
    let y := x.setFilt k l
    (s.time.tick < x.edgeAt k + 250 * s.filtOf n k → exec (.debounceExpiry n k) s = .next s.after)
    ∧ (x.edgeAt k + 250 * s.filtOf n k ≤ s.time.tick → exec (.debounceExpiry n k) s = .next
      (let u := s.setAx n (if (x.st == .homing && x.phase == 4 && s.homeInput n == k.val) = true ∧ x.ref = none then
          (if l then (if x.filt k then y else { y with ref := y.cand }) else { y with cand := none }) else y)
       let into := match x.arrived with
         | some v => v != 0 && decide (v > 0) == (k.val == 0)
         | none => false
       if l = true ∧ x.filt k = false ∧ k.val < 2 ∧ into = true ∧ u.bit (AX_CFG n) AX_CFG_LIMIT_EN = true then u.setLimitFlag n (k.val == 0) else u).after))

/-- The choppers run their cycles through dead time, blanking, trip, off time and over-current. Each event does what its rule says when it is due.
Every clause concludes with the next state that exec answers, under hypotheses on the state and the operands alone. That trip times are rounded
down to 16 ns and fast decay to clocks of 4 ns is the model's choice (log 107). Commands: CHOP_CYCLE_START, DEAD_TIME_END, BLANK_END,
COMPARATOR_TRIP, OFF_TIME_END, OVER_CURRENT, REST_DELAY_EXPIRY. -/
def Obligations.ChoppersRegulateTheCurrent : Prop :=
  (∀ (s : State) (n : Fin 8) (ph : Fin 2), s.rst.chip = false → s.energised n = true →
    ((s.phaseOf n ph).ph = .off ∨ (s.phaseOf n ph).ph = .slow) →
    let cur := (s.reg (CHOP_CUR n)).toNat
    let neg := (s.phaseValue n ph).2
    let k := s.time.tick
    let p := { (s.phaseOf n ph).now k with tim := (s.reg (CHOP_TIME n)).toNat, cur := cur, neg := neg, excess := false, began := k, trip := k, fast := 0 }
    exec (.chopCycleStart n ph) s = .next (if s.chopCode n ph cur = 0 then s.setPhase n ph { p with ph := .slow }
      else s.setPhase n ph { p with en1 := p.en1 && p.in1 == !neg, en2 := p.en2 && p.in2 == neg, ph := .dead }).after)
  ∧ (∀ (s : State) (n : Fin 8) (ph : Fin 2), s.rst.chip = false → (s.phaseOf n ph).ph = .dead →
    let p := s.phaseOf n ph
    exec (.deadTimeEnd n ph) s = .next (s.setPhase n ph { p with in1 := !p.neg, en1 := true, in2 := p.neg, en2 := true, ph := .blank }).after)
  ∧ (∀ (s : State) (n : Fin 8) (ph : Fin 2) (v : Int), s.rst.chip = false → (s.phaseOf n ph).ph = .blank →
    let p := s.phaseOf n ph
    (s.ampExceeds n (s.chopCode n ph p.cur) v = false → exec (.blankEnd n ph v) s = .next (s.setPhase n ph { p with ph := .on }).after)
    ∧ (s.ampExceeds n (s.chopCode n ph p.cur) v = true →
      exec (.blankEnd n ph v) s = .next (((s.setPhase n ph { p with excess := true }).setB (CHOP_STATUS n) CHOP_STATUS_OVERSHOOT).chopTrip n ph
        ((CHOP_TIME_DEAD.get (w32 p.tim) * 16 + (CHOP_TIME_BLANK_M1.get (w32 p.tim) + 1) * 100) / 16)).after))
  ∧ (∀ (s : State) (n : Fin 8) (ph : Fin 2) (v : Int), s.rst.chip = false → (s.phaseOf n ph).ph = .on →
    s.ampExceeds n (s.chopCode n ph (s.phaseOf n ph).cur) v = true →
    exec (.comparatorTrip n ph v) s = .next (let u := s.chopMeasure n ph ((s.time.tick - (s.phaseOf n ph).began) / 4)
      let p := u.phaseOf n ph
      let toff := 25 * (CHOP_TIME_OFF_M1.get (w32 p.tim) + 1)
      let fast := match u.fld (CHOP_CTL n) CHOP_CTL_DECAY with
        | 0 => 0
        | 1 => toff
        | 2 => toff * u.fld (CHOP_CTL n) CHOP_CTL_FAST / 16
        | _ => toff * (u.chopOf n).f / 16
      u.setPhase n ph { p with ph := .decay, trip := u.time.tick, fast := fast }).after)
  ∧ (∀ (s : State) (n : Fin 8) (ph : Fin 2), s.rst.chip = false → ((s.chopOf n).phase ph).ph = .decay →
    (s.fld (CHOP_CTL n) CHOP_CTL_DECAY ≠ 3 → exec (.offTimeEnd n ph) s = .next (s.chopEvent1 n ph).after)
    ∧ (s.fld (CHOP_CTL n) CHOP_CTL_DECAY = 3 → exec (.offTimeEnd n ph) s = .next ((s.setChop n { s.chopOf n with
        f := if ((s.chopOf n).phase ph).excess then min ((s.chopOf n).f + 1) 15 else max ((s.chopOf n).f - 1) (s.fld (CHOP_CTL n) CHOP_CTL_FAST) }).chopEvent1
          n ph).after))
  ∧ (∀ (s : State) (n : Fin 8) (va vb : Int), s.rst.chip = false →
    let a := (s.phaseOf n 0).onPhase && s.ampExceeds n (max (2 * s.chopCode n 0 (s.phaseOf n 0).cur) 128) va
    let b := (s.phaseOf n 1).onPhase && s.ampExceeds n (max (2 * s.chopCode n 1 (s.phaseOf n 1).cur) 128) vb
    (a || b) = true →
    exec (.overCurrent n va vb) s = .next (((((s.setIf a (CHOP_STATUS n) CHOP_STATUS_OC_A).setIf b (CHOP_STATUS n) CHOP_STATUS_OC_B).count
      (CHOP_OC_CNT n)).logEv 0x50 n).axFault n).after)
  ∧ (∀ (s : State) (n : Fin 8), s.rst.chip = false → s.fld (CHOP_REST n) CHOP_REST_REST_DELAY ≠ 0 →
    (s.axOf n).movedAt + 250 * s.fld (CHOP_REST n) CHOP_REST_REST_DELAY ≤ s.time.tick →
    exec (.restDelayExpiry n) s = .next (s.setChop n { s.chopOf n with rest := true }).after)

/-- Encoder counters count, latch and load; converters start, convert and deliver results; sound routes are set. Each of these does what its rule says
when it is due. Every clause concludes with the next state that exec answers, under hypotheses on the state and the operands alone. That a
conversion takes its voltage as an operand in nanovolts and scales it by ampOut is the model's choice (log 107), and so is what a load of -2^47 does (log
127). Commands: ENCODER_EDGE,
INDEX_EDGE, ENC_COUNT_LO_WRITE, ENC_COUNT_HI_WRITE, ENC_COUNT_LO_READ, ADC_START, CONVERSION, ADC_RESULTS, SOUND_SEL. -/
def Obligations.EncodersCountAndConvertersSample : Prop :=
  (∀ (s : State) (n : Fin 32) (a b : Bool), s.rst.chip = false →
    let r := (s.pinSeen (0x60 + n) a).pinSeen (0x80 + n) b
    let e := r.encOf n
    let la := r.inputLevel (0x60 + n)
    let lb := r.inputLevel (0x80 + n)
    let u0 := r.setEnc n { e with rawA := la, rawB := lb, sinceA := if la = e.rawA then e.sinceA else r.time.tick,
                                  sinceB := if lb = e.rawB then e.sinceB else r.time.tick }
    let x := u0.encOf n
    let ga := x.rawA != x.a && u0.encStable n x.sinceA
    let gb := x.rawB != x.b && u0.encStable n x.sinceB
    let fa := if ga then x.rawA else x.a
    let fb := if gb then x.rawB else x.b
    let u := u0.setEnc n { x with a := fa, b := fb }
    exec (.encoderEdge n a b) s = .next (indexFilter n (encFilter n u0)).after
    ∧ (e.rawA = e.a → e.rawB = e.b → e.rawZ = e.z → (ga = false → gb = false → exec (.encoderEdge n a b) s = .next u0.after)
    ∧ ((ga || gb) = true → (ga && gb) = false ∨ x.sinceA = x.sinceB →
      (u.fld (ENC_CFG n) ENC_CFG_MODE = 0 → exec (.encoderEdge n a b) s = .next u.after)
      ∧ (u.fld (ENC_CFG n) ENC_CFG_MODE = 1 → (ga && gb) = false → exec (.encoderEdge n a b) s = .next (u.encAdd n (quadStep x.a x.b fa)).after)
      ∧ (u.fld (ENC_CFG n) ENC_CFG_MODE = 1 → (ga && gb) = true →
        exec (.encoderEdge n a b) s = .next (((u.setEnc n { u.encOf n with qrec := true }).setB (ENC_STATUS n) ENC_STATUS_QERR).count (ENC_QERR_CNT n)).after)
      ∧ (u.fld (ENC_CFG n) ENC_CFG_MODE = 2 → (fa && !x.a) = true → exec (.encoderEdge n a b) s = .next (u.encAdd n (if fb then -1 else 1)).after)
      ∧ (u.fld (ENC_CFG n) ENC_CFG_MODE = 3 → (fa && !x.a) = true → (fb && !x.b) = false →
        exec (.encoderEdge n a b) s = .next (u.encAdd n 1).after)
      ∧ (u.fld (ENC_CFG n) ENC_CFG_MODE = 3 → (fa && !x.a) = false → (fb && !x.b) = true →
        exec (.encoderEdge n a b) s = .next (u.encAdd n (-1)).after))))
  ∧ (∀ (s : State) (n : Fin 32) (level : Bool), s.rst.chip = false →
    let r := s.pinSeen (0xA0 + n) level
    let e := r.encOf n
    let z := r.inputLevel (0xA0 + n)
    let u0 := r.setEnc n { e with rawZ := z, sinceZ := if z = e.rawZ then e.sinceZ else r.time.tick }
    let x := u0.encOf n
    let u := u0.setEnc n { x with z := x.rawZ }
    let c := unsgn 48 x.count
    let v := ((((u.setReg (ENC_IDX_LO n) (w32 c)).setReg (ENC_IDX_HI n) (w32 (c / 2 ^ 32))).setReg (ENC_IDX_NS n) (w32 (todNs u.time.tod))).setB (ENC_STATUS n)
      ENC_STATUS_INDEX)
    let m := v.fld (ENC_CFG n) ENC_CFG_IDX_MODE
    exec (.indexEdge n level) s = .next (indexFilter n (encFilter n u0)).after
    ∧ (e.rawA = e.a → e.rawB = e.b → e.rawZ = e.z → x.rawZ ≠ x.z → u0.encStable n x.sinceZ = true →
    x.rawZ ≠ u.bit (ENC_CFG n) ENC_CFG_IDX_EDGE → (u.bit (ENC_CFG n) ENC_CFG_IDX_GATE = true → x.a = true ∧ x.b = true) →
    exec (.indexEdge n level) s = .next ((v.setEnc n
      { v.encOf n with once := true, count := if m = 2 ∨ (m = 1 ∧ !(v.encOf n).once) then 0 else (v.encOf n).count }).axIndex n).after))
  ∧ (∀ (s : State) (who : Initiator) (n : Fin 32) (w : Word), s.writeTaken who (ENC_COUNT_LO n) w = true →
    exec (.encCountLoWrite who n w) s = .next (s.did who (ENC_COUNT_LO n) w fun u =>
      { u.setReg (ENC_COUNT_LO n) 0 with held := tput (fun _ => 0) u.held (ENC_COUNT_LO n) w }))
  ∧ (∀ (s : State) (who : Initiator) (n : Fin 32) (w : Word), s.writeTaken who (ENC_COUNT_HI n) w = true →
    exec (.encCountHiWrite who n w) s = .next (s.did who (ENC_COUNT_HI n) w fun u =>
      let c := sgn 48 ((tget (fun _ => 0) u.held (ENC_COUNT_LO n)).toNat + 2 ^ 32 * ENC_COUNT_HI_COUNT.get w)
      let v := u.setReg (ENC_COUNT_HI n) 0
      if c < -posMax then (v.setEnc n { v.encOf n with count := -posMax, qrec := true }).setB (ENC_STATUS n) ENC_STATUS_RANGE
      else v.setEnc n { v.encOf n with count := c }))
  ∧ (∀ (s : State) (who : Initiator) (n : Fin 32), s.readTaken who (ENC_COUNT_LO n) = true →
    exec (.encCountLoRead who n) s = .next (s.gave who (ENC_COUNT_LO n) (w32 (unsgn 48 (s.encOf n).count)).toNat fun u =>
      { u with latch := tput (fun _ => 0) u.latch (ENC_COUNT_LO n) (w32 (unsgn 48 (s.encOf n).count / 2 ^ 32)) }))
  ∧ (∀ (s : State) (who : Initiator) (c : Fin 2) (w : Word), s.writeTaken who (ADC_CMD c) (ADC_CMD_START.put w 1) = true →
    exec (.adcStart who c w) s = .next (s.did who (ADC_CMD c) (ADC_CMD_START.put w 1) fun u =>
      if (u.adcOf c).busy then u.setB (ADC_STATUS c) ADC_STATUS_START_REFUSED
      else u.setAdc c { u.adcOf c with seq := ADC_CMD_SEQ.get w, busy := true, res := [], start := u.time.tod }))
  ∧ (∀ (s : State) (c : Fin 2) (v : Int), s.rst.chip = false → (s.adcOf c).busy = true →
    let x := s.adcOf c
    let k := x.res.length
    let ch := s.adcChannel c x.seq k
    let code := (clampI 0 4095 (if ch < 16 then s.ampOut (ch / 2) v * 4096 / 3200000000 else v * 4096 / 1800000000)).toNat
    let y := { x with res := x.res ++ [code + 4096 * (ch % 16)], start := if k = 0 then s.time.tod else x.start }
    (k < s.fld (ADC_SEQ_CFG c x.seq) ADC_SEQ_CFG_LEN_M1 → exec (.conversion c v) s = .next (s.setAdc c y).after)
    ∧ (s.fld (ADC_SEQ_CFG c x.seq) ADC_SEQ_CFG_LEN_M1 ≤ k →
      exec (.conversion c v) s = .next (s.setAdc c { y with busy := false, out := x.out ++ [(x.seq, y.res, y.start)] }).after))
  ∧ (∀ (s : State) (c : Fin 2) (q : Nat) (res : List Nat) (t : Nat) (l : List (Nat × List Nat × Nat)), s.rst.chip = false →
    (s.adcOf c).out = (q, res, t) :: l →
    let u := (s.setAdc c { s.adcOf c with out := l }).setB (ADC_STATUS c) ADC_STATUS_DONE
    let bs := res.flatMap (leBytes 2)
    (u.fld (ADC_SEQ_CFG c q) ADC_SEQ_CFG_DEST = 0 → u.hbLineW (u.fld (ADC_SEQ_CFG c q) ADC_SEQ_CFG_BUF) = true →
      u.fld (ADC_SEQ_BOFF c q) ADC_SEQ_BOFF_BOFF + bs.length ≤ u.hbSize (u.fld (ADC_SEQ_CFG c q) ADC_SEQ_CFG_BUF) →
      exec (.adcResults c) s = .next (u.hbWrite (u.fld (ADC_SEQ_CFG c q) ADC_SEQ_CFG_BUF) (u.fld (ADC_SEQ_BOFF c q) ADC_SEQ_BOFF_BOFF) bs).after)
    ∧ (u.fld (ADC_SEQ_CFG c q) ADC_SEQ_CFG_DEST ≠ 0 →
      let f := u.fld (ADC_SEQ_CFG c q) ADC_SEQ_CFG_FQ
      let ws := packWords (leBytes 4 (q + 16 * c + 2 ^ 16 * res.length) ++ leBytes 4 (todNs t) ++ bs)
      (u.fqRoomN f ws.length = true → exec (.adcResults c) s = .next (u.fqPushAll f ws).after)
      ∧ (u.fqRoomN f ws.length = false → exec (.adcResults c) s = .next (((u.fqDrop f).setB (ADC_STATUS c) ADC_STATUS_DROP).count (ADC_DROP_CNT c)).after)))
  ∧ (∀ (s : State) (who : Initiator) (k : Fin 216) (pin : Bool) (w : Word),
    (s.setOutside (SOUND_SEL_PIN.get w) pin).writeTaken who (SOUND_SEL k) w = true →
    exec (.soundSel who k pin w) s = .next ((s.setOutside (SOUND_SEL_PIN.get w) pin).did who (SOUND_SEL k) w fun u =>
      if (s.reg (SOUND_SEL k)).toNat % 2048 ≠ w.toNat % 2048 then u.setInput k (u.inputLevel k) else u))

/-- The pilots' instructions complete: pins, shift register, queues, counters and flags as their opcode says. At an execute clock with the word at its
PC legal and of right parity, the instruction completes as written out; an illegal word halts the pilot. Every clause concludes with the next
state that exec answers, under hypotheses on the state and the operands alone. Commands: DRIVE, SAMPLE, LOAD, STORE, AWAIT, COUNT, SIGNAL, MOVE,
ILLEGAL. -/
def Obligations.PilotInstructionsComplete : Prop :=
  (∀ (s : State) (n : Fin 32) (w : Nat) (ext clash : BitVec 8), s.pilotRuns n 1 w → s.Inv →
    exec (.drive n ext clash false) s = .next (
      let v := s.pilotDrove n w ext.toNat clash.toNat fun u => u.outGroup n (match plArg w / 16 with
        | 2 => 0 | 3 => 255 | _ => shiftOut (u.plDir n) (u.outCnt n) (u.plShift n))
      let g := if plArg w / 16 = 1 then v.inGroup n ((s.presentPins (n / 4) ext.toNat).syncLevels (n / 4)) else 0
      let v := if plArg w / 16 < 2 then (v.setShift n (shiftIn (v.plDir n) (v.outCnt n) (v.plShift n) g)).addBcnt n (v.outCnt n) else v
      v.pilotDwell n (v.dwellCount n (plDwell w))).after)
  ∧ (∀ (s : State) (n : Fin 32) (w : Nat) (ext clash : BitVec 8), s.pilotRuns n 2 w → s.Inv →
    exec (.sample n ext clash false) s = .next (
      let v := s.pilotDrove n w ext.toNat clash.toNat fun _ => []
      let g := v.inGroup n ((s.presentPins (n / 4) ext.toNat).syncLevels (n / 4))
      let v := if plArg w / 16 = 0 then (v.setShift n (shiftIn (v.plDir n) (v.inCnt n) (v.plShift n) g)).addBcnt n (v.inCnt n) else v.setWa n g
      v.pilotDwell n (v.dwellCount n (plDwell w))).after)
  ∧ (∀ (s : State) (n : Fin 32) (w : Nat) (ext clash : BitVec 8), s.pilotRuns n 3 w → s.Inv →
    exec (.load n ext clash false) s = .next (
      let v := s.pilotDrove n w ext.toNat clash.toNat fun _ => []
      let x := v.pilotOf n
      let dw := v.dwellCount n (plDwell w)
      if x.tx ≠ [] then (v.loadTake n (bitOf 1 w)).pilotDwell n dw
      else if bitOf 0 w ∧ v.txDepth n ≠ 0 then v.setPilot n { x with phase := .load (bitOf 1 w) dw }
      else (((v.count (PL_UNDERRUN_CNT n)).setIf (!v.bit (PL_CFG n) PL_CFG_STALE) (PL_STATUS n) PL_STATUS_UNDERRUN).loadTo n (bitOf 1 w)
        (if v.bit (PL_CFG n) PL_CFG_STALE then x.last else 0)).pilotDwell n dw).after)
  ∧ (∀ (s : State) (n : Fin 32) (w : Nat) (ext clash : BitVec 8), s.pilotRuns n 4 w → s.Inv →
    exec (.store n ext clash false) s = .next (
      let v := s.pilotDrove n w ext.toNat clash.toNat fun _ => []
      let x := v.pilotOf n
      let dw := v.dwellCount n (plDwell w)
      if x.rx.length < v.rxDepth n then (v.storePut n (bitOf 1 w) true).pilotDwell n dw
      else if bitOf 0 w ∧ v.rxDepth n ≠ 0 then v.setPilot n { x with phase := .store (bitOf 1 w) dw }
      else (((v.count (PL_OVERRUN_CNT n)).setB (PL_STATUS n) PL_STATUS_OVERRUN).storePut n (bitOf 1 w) false).pilotDwell n dw).after)
  ∧ (∀ (s : State) (n : Fin 32) (w : Nat) (ext clash : BitVec 8), s.pilotRuns n 5 w → s.Inv →
    exec (.await n ext clash false) s = .next (
      let v := s.pilotDrove n w ext.toNat clash.toNat fun _ => []
      let now := bitOf (plArg w % 8) ((s.presentPins (n / 4) ext.toNat).syncLevels (n / 4))
      v.modPilot n fun x => { x with phase := .await (plArg w / 8) (plArg w % 8) (v.dwellCount n (plDwell w)) [now] false }).after)
  ∧ (∀ (s : State) (n : Fin 32) (w : Nat) (ext clash : BitVec 8), s.pilotRuns n 6 w → s.Inv →
    exec (.count n ext clash false) s = .next (
      let v := s.pilotDrove n w ext.toNat clash.toNat fun _ => []
      let loop (u : State) : State := u.modPilot n fun x => { x with next := plLoop w }
      (match plSel w with
        | 0 => if v.plWa n ≠ 0 then loop (v.setWa n (v.plWa n - 1)) else v
        | 1 => if v.plWb n ≠ 0 then loop (v.setReg (PL_WB n) (w32 (v.plWb n - 1))) else v
        | _ => if (v.pilotOf n).bcnt < v.fld (PL_CFG n) PL_CFG_SHIFT_LEN then loop v else v).pilotGo n).after)
  ∧ (∀ (s : State) (n : Fin 32) (w : Nat) (ext clash : BitVec 8), s.pilotRuns n 7 w → s.Inv →
    exec (.signal n ext clash false) s = .next (
      let v := s.pilotDrove n w ext.toNat clash.toNat fun _ => []
      let v := if bitOf 0 w ∧ !v.rst.core then v.dmaSignal n else v
      let v := if bitOf 1 w ∧ !v.rst.core then v.raisePsig n else v
      let v := v.setIf (bitOf 2 w) (PL_STATUS n) PL_STATUS_SIG
      v.pilotDwell n (v.dwellCount n (plDwell w))).after)
  ∧ (∀ (s : State) (n : Fin 32) (w : Nat) (ext clash : BitVec 8), s.pilotRuns n 8 w → s.Inv →
    exec (.move n ext clash false) s = .next (
      let v := s.pilotDrove n w ext.toNat clash.toNat fun u =>
        if plArg w / 8 = 4 then u.outGroup n (u.moveSrc n (plArg w % 8) (u.syncLevels (n / 4))) else []
      let x := v.moveSrc n (plArg w % 8) ((s.presentPins (n / 4) ext.toNat).syncLevels (n / 4))
      let v := match plArg w / 8 with
        | 0 => v.setWa n x
        | 1 => v.setReg (PL_WB n) (w32 x)
        | 2 => v.setShift n x
        | 3 => v.setBcnt n x
        | _ => v
      v.pilotDwell n (v.dwellCount n (plDwell w))).after)
  ∧ (∀ (s : State) (n : Fin 32), s.rst.chip = false → s.pilotExecutes n = true → (s.psetOf (n / 4)).bad.contains (s.pilotOf n).pc = false →
    s.plIllegal n (s.pilotWord n) = true →
    exec (.illegal n false) s = .next ((s.modPilot n fun x => { x with run := 2, phase := .ready }).setB (PL_STATUS n) PL_STATUS_ILLEGAL).after)

/-- Pilots' waits and dwells end, and writes start, stop, kick, flush and feed them. Each of these does what its rule says when it is due. Every
clause concludes with the next state that exec answers, under hypotheses on the state and the operands alone. That PILOT_STOP leaves the halt of a
word at its execute clock standing is the model's reading (log 108). Commands: AWAIT_COMPLETE, PILOT_QUEUE_WAIT_END, DWELL_END, PILOT_START,
PILOT_STOP, PILOT_KICK, PILOT_FLUSH, PS_START, PS_STOP, PL_TXDATA, PL_RXDATA. -/
def Obligations.PilotEventsAndCommandsAct : Prop :=
  (∀ (s : State) (n : Fin 32) (ext : List (BitVec 8)) (c pin dw : Nat) (seen : List Bool) (k : Bool), s.rst.chip = false →
    (s.pilotOf n).run = 1 → (s.pilotOf n).phase = .await c pin dw seen k →
    let r := (ext.map BitVec.toNat).foldl (fun (a : State × List Bool) e =>
      (a.1.presentPins (n / 4) e, if bitOf pin (a.1.psetOf (n / 4)).m2 then a.2 else a.2 ++ [bitOf pin e])) (s, seen)
    (awaitHolds c r.2 k = true → exec (.awaitComplete n ext) s = .next (r.1.pilotDwell n dw).after)
    ∧ (awaitHolds c r.2 k = false → exec (.awaitComplete n ext) s = .next (r.1.modPilot n fun x => { x with phase := .await c pin dw r.2 k }).after))
  ∧ (∀ (s : State) (n : Fin 32) (wa : Bool) (dw : Nat), s.rst.chip = false → (s.pilotOf n).run = 1 →
    ((s.pilotOf n).phase = .load wa dw → (s.pilotOf n).tx ≠ [] →
      exec (.pilotQueueWaitEnd n) s = .next ((s.loadTake n wa).pilotDwell n dw).after)
    ∧ ((s.pilotOf n).phase = .store wa dw → (s.pilotOf n).rx.length < s.rxDepth n →
      exec (.pilotQueueWaitEnd n) s = .next ((s.storePut n wa true).pilotDwell n dw).after))
  ∧ (∀ (s : State) (n : Fin 32), s.rst.chip = false → (s.pilotOf n).run = 1 → (s.pilotOf n).phase = .dwell →
    exec (.dwellEnd n) s = .next (let a := (s.pilotOf n).next
      let u := s.modPilot n fun x => { x with pc := a, phase := .ready }
      if u.inWindow n a then u else u.pilotHalt n PL_STATUS_ESCAPE).after)
  ∧ (∀ (s : State) (who : Initiator) (n : Fin 32) (w : Word), s.writeTaken who (PL_CTL n) (PL_CTL_START.put w 1) = true →
    exec (.pilotStart who n w) s = .next (s.did who (PL_CTL n) (PL_CTL_START.put w 1) fun u =>
      let e := u.fld (PL_WIN n) PL_WIN_ENTRY
      if (u.pilotOf n).run = 0 ∧ u.inWindow n e then
        let u := u.modPilot n fun x => { x with run := 1, pc := e, next := e, phase := .ready }
        if PL_CTL_CLEAR_SHIFT.get w != 0 then (u.setShift n 0).setBcnt n 0 else u
      else u.setB (PL_STATUS n) PL_STATUS_START_REFUSED))
  ∧ (∀ (s : State) (who : Initiator) (n : Fin 32) (w : Word), s.writeTaken who (PL_CTL n) (PL_CTL_STOP.put w 1) = true →
    PL_CTL_START.get w = 0 →
    exec (.pilotStop who n w) s = .next (s.did who (PL_CTL n) (PL_CTL_STOP.put w 1) fun u =>
      let v := Machine.pilotIllegal n false u
      if (u.pilotOf n).run = 0 then u
      else if (u.pilotOf n).run = 1 ∧ (v.pilotOf n).run = 2 then v
      else u.modPilot n fun x => { x with run := 0, phase := .ready }))
  ∧ (∀ (s : State) (who : Initiator) (n : Fin 32) (w : Word), s.writeTaken who (PL_CTL n) (PL_CTL_KICK.put w 1) = true →
    PL_CTL_START.get w = 0 → PL_CTL_STOP.get w = 0 →
    exec (.pilotKick who n w) s = .next (s.did who (PL_CTL n) (PL_CTL_KICK.put w 1) fun u => match (u.pilotOf n).phase with
      | .await 5 pin dw seen _ => u.modPilot n fun x => { x with phase := .await 5 pin dw seen true }
      | _ => u))
  ∧ (∀ (s : State) (who : Initiator) (n : Fin 32) (w : Word), s.writeTaken who (PL_CTL n) (PL_CTL_FLUSH.put w 1) = true →
    PL_CTL_START.get w = 0 → PL_CTL_STOP.get w = 0 → PL_CTL_KICK.get w = 0 →
    exec (.pilotFlush who n w) s = .next (s.did who (PL_CTL n) (PL_CTL_FLUSH.put w 1) fun u => u.modPilot n fun x => { x with tx := [], rx := [] }))
  ∧ (∀ (s : State) (who : Initiator) (k : Fin 8) (w : Word), s.writeTaken who (PS_CTL k) w = true → PS_CTL_STOP.get w = 0 →
    exec (.psStart who k w) s = .next (s.did who (PS_CTL k) w fun u => u.forN 4 fun v j =>
      if bitOf j (PS_CTL_START.get w) then v.pilotStart (4 * k + j) (PS_CTL_CLEAR_SHIFT.get w != 0) else v))
  ∧ (∀ (s : State) (who : Initiator) (k : Fin 8) (w : Word), s.writeTaken who (PS_CTL k) w = true → PS_CTL_START.get w = 0 →
    exec (.psStop who k w) s = .next (s.did who (PS_CTL k) w fun u => u.forN 4 fun v j =>
      if bitOf j (PS_CTL_STOP.get w) then v.pilotStop (4 * k + j) else v))
  ∧ (∀ (s : State) (who : Initiator) (n : Fin 32) (w : Word), s.writeTaken who (PL_TXDATA n) w = true →
    exec (.plTxdata who n w) s = .next (s.did who (PL_TXDATA n) w fun u => u.modPilot n fun x => { x with tx := x.tx ++ [w.toNat] }))
  ∧ (∀ (s : State) (who : Initiator) (n : Fin 32), s.readTaken who (PL_RXDATA n) = true →
    ((s.pilotOf n).rx = [] → exec (.plRxdata who n) s = .next (s.gave who (PL_RXDATA n) 0 fun u => u.setB (PL_STATUS n) PL_STATUS_EMPTY_READ))
    ∧ ∀ v t, (s.pilotOf n).rx = v :: t → exec (.plRxdata who n) s = .next (s.gave who (PL_RXDATA n) (w32 v).toNat fun u =>
        u.modPilot n fun x => { x with rx := t }))

/-- PCIe requests, completions, messages, resets and configuration writes are taken. Each of these does what its rule says. Every clause concludes
with the next state that exec answers, under hypotheses on the state and the operands alone. Where the completions of a read are cut is the
model's reading (log 109); the AER mask, severity and first error are taken from PCI Express (log 112). The clause of
PCIE_COMPLETION holds of every state, so it also says what becomes of lines to fetch ahead
behind the read. Commands: PCIE_MWR, PCIE_MRD, PCIE_ATOMICOP, UNSUPPORTED_REQUEST,
PCIE_COMPLETION, MSIX_MESSAGE, HOSTIF_MSIX_REARM, PCIE_INTERFACE_RESET, PCIE_PERSTN_RISING, PCIE_LINK_UP, CONFIGURATION_WRITE. -/
def Obligations.PcieRequestsAreTaken : Prop :=
  (∀ (s : State) (bar : Fin 6) (dw : Nat) (dws : List (BitVec 4 × Word)), s.rst.chip = false → s.rst.cw = false →
    4 * dw + 4 * dws.length ≤ (s.barOf bar).2 →
    let a := (s.barOf bar).1 + 4 * dw
    let l := dws.map fun d => (d.1.toNat, d.2.toNat)
    let h : TlpHead := ⟨.memWrite, a, 4 * dws.length⟩
    exec (.pcieMwr bar dw dws ⟨true, none⟩) s = .next (((s.inboundRoom.postWrite 0 a (l.flatMap fun d => dwBytes d.1 d.2) 2).setB HOSTIF_STATUS
        HOSTIF_STATUS_POISON_RX).aer .poisonedTlp (some h)).after
    ∧ (toRegs bar a = true → exec (.pcieMwr bar dw dws ⟨false, none⟩) s = .next (s.inboundRoom.postDws a l).after)
    ∧ (toRegs bar a = false → exec (.pcieMwr bar dw dws ⟨false, none⟩) s = .next (s.inboundRoom.postWrite 0 a (l.flatMap fun d => dwBytes d.1 d.2) 0).after)
    ∧ (∀ ep, exec (.pcieMwr bar dw dws ⟨ep, some .malformed⟩) s = .next (s.aer .malformedTlp (some h)).after)
    ∧ (∀ ep, s.cw.aer.check = true → exec (.pcieMwr bar dw dws ⟨ep, some .ecrc⟩) s = .next (s.aer .ecrc (some h)).after))
  ∧ (∀ (s : State) (bar : Fin 6) (dw : Nat) (bes : List (BitVec 4)), s.rst.chip = false → s.rst.cw = false →
    4 * dw + 4 * bes.length ≤ (s.barOf bar).2 →
    let a := (s.barOf bar).1 + 4 * dw
    let l := bes.map BitVec.toNat
    let bad := toRegs bar a && !(l == [15] || (l == [15, 15] && a % 8 == 0 && isMsixTable a))
    exec (.pcieMrd bar dw ⟨bes, none⟩) s = .next (s.inboundRoom.modIf 0 fun x => { x with ops := x.ops ++ [.read a (if bad then [] else l)] }).after)
  ∧ (∀ (s : State) (bar : Fin 6) (dw n : Nat) (k : AtomicKind) (x y : BitVec 64), s.rst.chip = false → s.rst.cw = false →
    4 * dw + n ≤ (s.barOf bar).2 → (n = 4 ∨ n = 8) →
    let a := (s.barOf bar).1 + 4 * dw
    exec (.pcieAtomicop bar dw n ⟨k, none⟩ x y) s = .next (s.inboundRoom.modIf 0 fun i => { i with
      ops := i.ops ++ [if 0x10000000 ≤ a ∧ a < 0x10100000 then .atomic a n k x.toNat y.toNat else .read a []] }).after)
  ∧ (∀ (s : State) (k : UrKind), s.rst.chip = false → s.rst.cw = false → k ≠ .vendorMessage1 →
    exec (.unsupportedRequest k) s = .next (((s.setB HOSTIF_STATUS HOSTIF_STATUS_UR_SENT).aer .unsupportedRequest
      (some ⟨.unsupported k, 0, 0⟩)).reply 0 .unsupported).after)
  ∧ (∀ (s : State) (a : Nat) (bes : List Nat) (l : List CwOp), s.rst.chip = false → s.rst.cw = false → (s.ifOf 0).ops = .read a bes :: l →
    (s.ifOf 0).mute = 0 → s.fenced 0 = false → bes ≠ [] →
    ∀ t e cs all, s.readCpls (cplSplit a bes.length bes) = (t, e, cs, all) → e ≠ .waiting →
      exec .pcieCompletion s = .next (let u := if e = .done then (t.popOp 0).sendCpls .done cs
          else (((t.popOp 0).setB HOSTIF_STATUS HOSTIF_STATUS_CA_SENT).aer .completerAbort (some ⟨.memRead, a, 4 * bes.length⟩)).sendCpls .completerAbort cs
        fetchAhead 0 (u.ifOf 0).ops.length u).after)
  ∧ (∀ (s : State) (v : Fin 64), s.rst.chip = false → s.rst.cw = false → s.vecPending v = true → s.msixOpen v = true →
    s.cw.sent.contains v.val = false →
    exec (.msixMessage v) s = .next (s.modCw fun c => { c with sent := ninsert v c.sent, msg := some ((s.reg (MSIX_ADDR_LO v)).toNat
      + 2 ^ 32 * (s.reg (MSIX_ADDR_HI v)).toNat, (s.reg (MSIX_MSG_DATA v)).toNat) }).after)
  ∧ (∀ (s : State) (who : Initiator) (w : Word), s.writeTaken who HOSTIF_MSIX_REARM w = true →
    exec (.hostifMsixRearm who w) s = .next (s.did who HOSTIF_MSIX_REARM w fun u =>
      if u.vecPending (HOSTIF_MSIX_REARM_VECTOR.get w) ∧ u.msixOpen (HOSTIF_MSIX_REARM_VECTOR.get w) then u.msixSend (HOSTIF_MSIX_REARM_VECTOR.get w)
      else u))
  ∧ (∀ (s : State), s.rst.chip = false → s.rst.cw = false →
    exec (.pcieInterfaceReset .functionLevel) s = .next (s.pcieReset.setB HOSTIF_STATUS HOSTIF_STATUS_HOT_RESET).after
    ∧ exec (.pcieInterfaceReset .hotReset) s = .next (s.pcieReset.linkGone.setB HOSTIF_STATUS HOSTIF_STATUS_HOT_RESET).after
    ∧ exec (.pcieInterfaceReset .linkDown) s = .next (s.pcieReset.linkGone.setB HOSTIF_STATUS HOSTIF_STATUS_LINK_DOWN).after
    ∧ exec (.pcieInterfaceReset .perstnLow) s = .next ((s.pcieReset.linkGone.setB HOSTIF_STATUS HOSTIF_STATUS_LINK_DOWN).modCw fun c =>
        { c with perst := true }).after)
  ∧ (∀ (s : State), s.rst.chip = true ∨ s.rst.cw = true →
    let gone (u : State) : State := if s.rst.chip then u else u.linkGone
    exec (.pcieInterfaceReset .functionLevel) s = .next s.after
    ∧ exec (.pcieInterfaceReset .hotReset) s = .next (gone s).after
    ∧ exec (.pcieInterfaceReset .linkDown) s = .next (gone s).after
    ∧ exec (.pcieInterfaceReset .perstnLow) s = .next (gone (s.modCw fun c => { c with perst := true })).after)
  ∧ (∀ (s : State), s.rst.banks.contains 6 = false →
    exec .pciePerstnRising s = .next (s.modCw fun c => { c with perst := false }).after)
  ∧ (∀ (s : State) (v w : Fin 4), s.rst.chip = false → s.rst.cw = false → s.cw.perst = false →
    exec (.pcieLinkUp v w) s = .next ((((s.setB HOSTIF_PCIE_STATE HOSTIF_PCIE_STATE_LINK_UP).setB SYS_CLK_STATUS ⟨4, 4⟩).putF HOSTIF_PCIE_STATE
      HOSTIF_PCIE_STATE_SPEED (min v.val 2 + 1)).putF HOSTIF_PCIE_STATE HOSTIF_PCIE_STATE_WIDTH (min w.val 1 + 1)).after)
  ∧ (∀ (s : State), s.rst.chip = false → s.rst.cw = false →
    (∀ b, exec (.configurationWrite (.busMaster b)) s = .next (s.putB HOSTIF_PCIE_STATE HOSTIF_PCIE_STATE_BME b).after)
    ∧ (∀ b, exec (.configurationWrite (.msixEnable b)) s = .next (s.putB HOSTIF_PCIE_STATE HOSTIF_PCIE_STATE_MSIX_EN b).after)
    ∧ (∀ b, exec (.configurationWrite (.functionMask b)) s = .next (s.putB HOSTIF_PCIE_STATE HOSTIF_PCIE_STATE_MSIX_FMASK b).after)
    ∧ (∀ b, exec (.configurationWrite (.ecrcGenerate b)) s = .next (s.modCw fun c => { c with aer := { c.aer with gen := b } }).after)
    ∧ (∀ b, exec (.configurationWrite (.ecrcCheck b)) s = .next (s.modCw fun c => { c with aer := { c.aer with check := b } }).after)
    ∧ (∀ e, exec (.configurationWrite (.aerMask e true)) s = .next (s.modCw fun c => { c with aer := { c.aer with mask := e :: c.aer.mask.erase e } }).after
      ∧ exec (.configurationWrite (.aerMask e false)) s = .next (s.modCw fun c => { c with aer := { c.aer with mask := c.aer.mask.erase e } }).after
      ∧ exec (.configurationWrite (.aerFatal e true)) s = .next (s.modCw fun c => { c with aer := { c.aer with fatal := e :: c.aer.fatal.erase e } }).after
      ∧ exec (.configurationWrite (.aerFatal e false)) s = .next (s.modCw fun c => { c with aer := { c.aer with fatal := c.aer.fatal.erase e } }).after
      ∧ exec (.configurationWrite (.aerClear e)) s = .next (s.modCw fun c => { c with aer := { c.aer with
        status := c.aer.status.erase e, first := if c.aer.first.map Prod.fst = some e then none else c.aer.first } }).after)
    ∧ ∀ d w, exec (.configurationWrite (.other d w)) s = .next (s.modCw fun c => { c with cfg := tput (fun _ => 0) c.cfg d w.toNat }).after)

/-- Outbound requests go and end; delayed reads, prefetches and posted writes end. Each of these does what its rule says when it is due. Every clause
concludes with the next state that exec answers, under hypotheses on the state and the operands alone. That an access waits in State.cw.waits and
that its initiator meets a bus error when it takes it up is the model's reading (log 10); the AER log is taken from PCI Express (log 112). Up to when a
change of a window, of Bus Master Enable or of the link counts for a request is read by inference (log 126). When a delayed transaction has left its
interface's queue, the lines to fetch ahead that have come to the front are fetched (R393). Commands: OUTBOUND_REQUEST, OUTBOUND_COMPLETION,
COMPLETION_TIMEOUT, OUT_STARVED, DELAYED_RESULT, DELAYED_EXPIRY, PREFETCH_EXPIRY, POSTED_WRITE_FAILURE, CLEAR. -/
def Obligations.OutboundDelayedAndPostedTransactionsEnd : Prop :=
  (∀ (s : State) (who : Initiator) (a : Word) (op : BusOp), s.rst.chip = false → s.rst.cw = false → 0x80000000 ≤ a.toNat →
    let made := (s.cw.strays ++ s.cw.waits).any fun x => x.isOf who a.toNat (busWrites op) && x.result.isNone && !x.sent
    (made = false → exec (.outboundRequest who a op) s = .next ((interconnectAccess who a.toNat op 0 0 s).outSend who a.toNat).after)
    ∧ (made = true → exec (.outboundRequest who a op) s = .next (s.outSend who a.toNat).after))
  ∧ (∀ (s : State) (who : Initiator) (a : Word), s.rst.chip = false → s.rst.cw = false →
    let ends (u : State) (r : BusEnd × Nat) : State :=
      if s.cw.strays.any (fun x => x.isOf who a.toNat false && x.sent) then
        u.modCw fun c => { c with strays := c.strays.eraseP fun x => x.isOf who a.toNat false && x.sent }
      else (u.endWait who a.toNat r).preLand who a.toNat
    (s.readSent who a.toNat = true →
      (∀ v p, exec (.outboundCompletion who a ⟨.data v p, none⟩) s =
        .next (ends (if p then s.aer .poisonedTlp (some ⟨.completion, a.toNat, 0⟩) else s) (if p then .poisoned else .done, v.toNat)).after)
      ∧ exec (.outboundCompletion who a ⟨.unsupported, none⟩) s = .next (ends s (.busError, 0)).after
      ∧ exec (.outboundCompletion who a ⟨.abort, none⟩) s = .next (ends s (.busError, 0)).after)
    ∧ (s.readSent who a.toNat = false → s.cw.late.contains (who, a.toNat) = true →
      ∀ e, exec (.outboundCompletion who a ⟨e, none⟩) s = .next (((s.aer .unexpectedCompletion (some ⟨.completion, a.toNat, 0⟩)).setB CW_STATUS CW_STATUS_LATE_CPL).modCw fun c =>
        { c with late := c.late.erase (who, a.toNat) }).after))
  ∧ (∀ (s : State) (who : Initiator) (a : Word), s.rst.chip = false →
    s.readSent who a.toNat = true →
    exec (.completionTimeout who a) s = .next (((if s.cw.strays.any (fun x => x.isOf who a.toNat false && x.sent) then
        s.modCw fun c => { c with strays := c.strays.eraseP fun x => x.isOf who a.toNat false && x.sent }
      else (s.endWait who a.toNat (.busError, 0)).preLand who a.toNat).aer .completionTimeout).modCw fun c =>
      { c with late := c.late ++ [(who, a.toNat)] }).after)
  ∧ (∀ (s : State) (who : Initiator) (a : Word) (x : WaitAcc), s.rst.chip = false →
    (s.cw.strays ++ s.cw.waits).find? (fun x => x.who == who && x.addr == a.toNat && !x.buf && x.result.isNone && decide (0x80000000 ≤ x.addr)) = some x →
    exec (.outStarved who a) s = .next ((if s.cw.strays.any (fun y => y.isOf who a.toNat x.bytes.isSome && !y.buf) then
        s.modCw fun c => { c with strays := c.strays.eraseP fun y => y.isOf who a.toNat x.bytes.isSome && !y.buf }
      else (s.endWait who a.toNat (.busError, 0) x.bytes.isSome).preLand who a.toNat).setB CW_STATUS CW_STATUS_OUT_STARVED).after)
  ∧ (∀ (s : State) (who : Initiator) (a w : Word), s.rst.chip = false → isRegister a.toNat = true → s.mayAccess who a.toNat = true →
    s.isNext who = true → s.needsRoom who a.toNat = true → s.inboundRoom.takesBack = false →
    exec (.registerWrite who a w) s = exec (.registerWrite who a w) s.inboundRoom
    ∧ ∀ ln, s.fenceMet who a.toNat = false →
      exec (.interconnectAccess who a (.read 4) ln 0) s = exec (.interconnectAccess who a (.read 4) ln 0) s.inboundRoom)
  ∧ (∀ (s : State) (k : Fin 2) (i : Nat) (l : List CwOp) (d : Delayed), s.rst.chip = false → s.rst.cw = false →
    (s.ifOf (k + 1)).ops = .delayed i :: l → (s.ifOf (k + 1)).mute = 0 → (s.ifOf (k + 1)).dl.find? (fun x => x.id == i) = some d →
    exec (.delayedResult k) s = .next (let u := s.doDelayed (k + 1) d
      fetchAhead (k + 1) (u.ifOf (k + 1)).ops.length u).after)
  ∧ (∀ (s : State) (k : Fin 2), s.rst.chip = false → s.rst.cw = false →
    let old (d : Delayed) : Bool := d.result.isSome && decide (d.at' + 16000 ≤ s.time.tick)
    exec (.delayedExpiry k) s = .next ((((s.ifOf (k + 1)).dl.filter old).foldl (fun u d => u.expireEntry (k + 1) d) s).modIf (k + 1) fun x =>
      { x with dl := x.dl.filter (fun d => !old d) }).after)
  ∧ (∀ (s : State) (k : Fin 2), s.rst.chip = false → s.rst.cw = false →
    exec (.prefetchExpiry k) s = .next (s.modIf (k + 1) fun x => { x with lines := x.lines.filter (fun l => decide (s.time.tick < l.2.1 + 16000)) }).after)
  ∧ (∀ (s : State) (k : Fin 3) (q a c : Nat) (bs : List (Option Nat)) (more : Bool) (l : List CwOp), s.rst.chip = false → s.rst.cw = false →
    (s.ifOf k).ops = .write q a bs c more false :: l → c ≠ 0 → s.Inv →
    exec (.postedWriteFailure k) s = .next ((s.popOp k).pwFail k q a c).after)
  ∧ (∀ (s : State) (who : Initiator) (w : Word), s.writeTaken who CW_PWLOG_CTL (CW_PWLOG_CTL_CLEAR.put w 1) = true →
    exec (.clear who w) s = .next (s.did who CW_PWLOG_CTL (CW_PWLOG_CTL_CLEAR.put w 1) fun u => u.pwlogClear))

/-- Host bus and QSPI cycles and the control page end as their rules say. Each cycle does what its rule says. Every clause concludes with the next
state that exec answers, under hypotheses on the state and the operands alone. That an access to the control page in a locked sequence ends in error is
read by inference (log 126). Commands: HB_READ_CYCLE, HB_WRITE_CYCLE, HB_CONTROL_PAGE, LOCK_BROKEN, QSPI_WRITE, QSPI_READ, QSPI_STATUS, QSPI_ID, QST_BADCMD. -/
def Obligations.HostBusAndQspiCyclesEnd : Prop :=
  (∀ (s : State) (a : Word) (be : BitVec 4) (quick : Bool), s.rst.chip = false → s.rst.cw = false → s.rst.banks.contains 0 = false → s.hbOn = true →
    s.hbNarrow = false → a.toNat < 0xFFFFF0 →
    let u := s.lockSample true
    let wa := (u.fld HOSTIF_HB_PAGE HOSTIF_HB_PAGE_PAGE * 2 ^ 24 + a.toNat) / 4 * 4
    let r := u.dropHalf.hostRead 1 wa (be.toNat % 16) false quick
    exec (.hbReadCycle a be ⟨true, quick⟩) s = .next (r.1.hbEnd r.2.1 r.2.2 4).after)
  ∧ (∀ (s : State) (a : Word) (be : BitVec 4) (d : Word), s.rst.chip = false → s.rst.cw = false → s.rst.banks.contains 0 = false → s.hbOn = true →
    s.hbNarrow = false → a.toNat < 0xFFFFF0 →
    let u := s.lockSample true
    let wa := (u.fld HOSTIF_HB_PAGE HOSTIF_HB_PAGE_PAGE * 2 ^ 24 + a.toNat) / 4 * 4
    let v := u.dropHalf
    (v.isSide wa = false → v.heldWrite wa (be.toNat % 16) d.toNat = none → v.bufferedWords 1 < 16 →
      exec (.hbWriteCycle a be d true) s = .next ((v.postWrite 1 wa (dwBytes (be.toNat % 16) d.toNat) 0).hbEnd .done 0 0).after)
    ∧ (v.isSide wa = false → v.heldWrite wa (be.toNat % 16) d.toNat = none → 16 ≤ v.bufferedWords 1 →
      exec (.hbWriteCycle a be d true) s = .next (v.hbEnd .retry 0 0).after)
    ∧ (v.isSide wa = true ∨ (v.heldWrite wa (be.toNat % 16) d.toNat).isSome = true →
      let r := v.hostDelayedWrite 1 wa (be.toNat % 16) d.toNat false
      exec (.hbWriteCycle a be d true) s = .next (r.1.hbEnd r.2 0 0).after))
  ∧ (∀ (s : State) (a : Word) (d : Word), s.rst.chip = false → s.rst.cw = false → s.rst.banks.contains 0 = false → s.hbOn = true → s.hbNarrow = false →
    a.toNat / 4 = 0xFFFFF0 / 4 →
    (s.lockedSeq = false → exec (.hbControlPage a true 15 d) s = .next ((s.dropHalf.regWrite .hostBus HOSTIF_HB_PAGE (w32 d.toNat)).1.hbEnd .done 0 0).after
      ∧ exec (.hbControlPage a false 15 d) s = .next (s.dropHalf.hbEnd .done (s.reg HOSTIF_HB_PAGE).toNat 4).after)
    ∧ (s.lockedSeq = true → ∀ wr be, exec (.hbControlPage a wr be d) s
        = .next ((s.modCw fun c => { c with lock := c.lock.filter HbLock.broken }).dropHalf.hbEnd .error 0 0).after))
  ∧ (∀ (s : State) (l : HbLock) (t : Nat), s.rst.chip = false → s.cw.lock = some l → l.taken = some t → l.broken = false →
    t + 500 ≤ s.time.tick →
    exec .lockBroken s = .next (((((s.setB CW_STATUS CW_STATUS_LOCK_BROKEN).count CW_LOCK_BROKEN).modCw fun c =>
      { c with lock := some { l with broken := true } }).modIf 1 fun x => { x with dl := x.dl.map (fun d =>
        if d.locked ∧ d.write ∧ d.result.isNone then
          { d with result := some (true, 0), at' := ((s.setB CW_STATUS CW_STATUS_LOCK_BROKEN).count CW_LOCK_BROKEN).time.tick } else d) })).after)
  ∧ (∀ (s : State) (a : Word) (ws : List Word), s.rst.chip = false → s.rst.cw = false → s.rst.banks.contains 6 = false →
    let v := s.inboundRoom
    (v.bufferedWords 2 = 0 → a.toNat % 4 = 0 → ws.length ≤ 16 →
      exec (.qspiWrite a ws) s = .next ((((ws.map BitVec.toNat).mapIdx fun i w => (i, w)).foldl (fun u x =>
        u.postWrite 2 (a.toNat + 4 * x.1) (dwBytes 15 x.2) 0 (decide (x.1 + 1 < ws.length))) v).after))
    ∧ (v.bufferedWords 2 ≠ 0 → exec (.qspiWrite a ws) s = .next ((v.postWrite 2 a.toNat [] 3).setB HOSTIF_STATUS HOSTIF_STATUS_QST_OVERRUN).after)
    ∧ (v.bufferedWords 2 = 0 → a.toNat % 4 ≠ 0 → exec (.qspiWrite a ws) s = .next (v.postWrite 2 a.toNat [] 1).after))
  ∧ (∀ (s : State) (a : Word) (quick : Bool), s.rst.chip = false → s.rst.cw = false → s.rst.banks.contains 6 = false →
    (a.toNat % 4 = 0 → let r := s.hostRead 2 a.toNat 15 false quick
      exec (.qspiRead ⟨a, quick⟩) s = .next (r.1.reply 2 r.2.1 (r.1.qstStatus r.2.1 :: leBytes 4 (if r.2.1 = .done then r.2.2 else 0))).after)
    ∧ (a.toNat % 4 ≠ 0 → let u := s.clrB CW_FENCE (fenceBit 2)
      exec (.qspiRead ⟨a, quick⟩) s = .next (u.reply 2 .error [u.qstStatus .error, 0, 0, 0, 0]).after))
  ∧ (∀ (s : State), s.rst.chip = false → s.rst.cw = false → s.rst.banks.contains 6 = false →
    exec .qspiStatus s = .next (s.reply 2 .done [4 * b2n s.qstRoom + 8 * b2n s.qstIrq]).after)
  ∧ (∀ (s : State), s.rst.chip = false → s.rst.cw = false → s.rst.banks.contains 6 = false →
    exec .qspiId s = .next (s.reply 2 .done (leBytes 4 (s.reg SYS_ID).toNat)).after)
  ∧ (∀ (s : State) (k : BitVec 8), s.rst.chip = false → s.rst.cw = false → s.rst.banks.contains 6 = false → (k ≠ 0x02 ∧ k ≠ 0x0B ∧ k ≠ 0x05 ∧ k ≠ 0x9F) →
    exec (.qstBadcmd k) s = .next (s.setB HOSTIF_STATUS HOSTIF_STATUS_QST_BADCMD).after)

/-- Mailboxes are claimed, filled, sent, popped and released, and doorbells ring. A write or read that is taken does what its row says. Every clause
concludes with the next state that exec answers, under hypotheses on the state and the operands alone. Commands: MAILBOX_DATA_WRITE, GO, RELEASE,
CLAIM_LAPSED, MB_ARRIVAL, MB_DB_IN_SET, MB_DB_OUT_SET. -/
def Obligations.MailboxesFillAndEmpty : Prop :=
  (∀ (s : State) (who : Initiator) (m : Fin 32) (k : Fin 16) (w : Word), s.writeTaken who (MB_DATA m k) w = true →
    exec (.mailboxDataWrite who m k w) s = .next (s.did who (MB_DATA m k) w fun u =>
      u.setMb m { u.mbOf m with claim := some (senderOf who), at' := u.time.tick }))
  ∧ (∀ (s : State) (who : Initiator) (m : Fin 32) (w : Word), s.writeTaken who (MB_CTL m) (MB_CTL_GO.put w 1) = true →
    exec (.go who m w) s = .next (s.did who (MB_CTL m) (MB_CTL_GO.put w 1) fun u =>
      let seq := ((u.mbOf m).seq + 1) % 2 ^ 16
      let v := (u.setMb m { u.mbOf m with full := true, claim := none, seq := seq }).setReg (MB_STAMP m)
        (w32 (seq + 2 ^ 16 * (senderOf who).2 + 2 ^ 28 * (senderOf who).1))
      if m.val < 16 then (({ v with arrival := v.arrival ++ [m.val] } : State).setB MB_STATUS MB_STATUS_ARRIVED).raiseEv 24 27
      else v.setB MB_STATUS MB_STATUS_RESPONSE))
  ∧ (∀ (s : State) (who : Initiator) (m : Fin 32) (w : Word), s.writeTaken who (MB_CTL m) (MB_CTL_RELEASE.put w 1) = true →
    MB_CTL_GO.get w = 0 →
    exec (.release who m w) s = .next (s.did who (MB_CTL m) (MB_CTL_RELEASE.put w 1) fun u =>
      if !(u.mbOf m).full then u
      else let v := u.setMb m { u.mbOf m with full := false }
        if 16 ≤ m.val then v.raiseEv 24 26 else v))
  ∧ (∀ (s : State) (m : Fin 32), s.rst.chip = false → s.rst.core = false → (s.mbOf m).claim.isSome = true →
    (s.mbOf m).at' + 250 * s.fld MB_CLAIM_TIME MB_CLAIM_TIME_US ≤ s.time.tick →
    exec (.claimLapsed m) s = .next ((s.setMb m { s.mbOf m with claim := none }).setB MB_STATUS MB_STATUS_CLAIM_LAPSED).after)
  ∧ (∀ (s : State) (m : Nat) (l : List Nat), s.readTaken .hm MB_ARRIVAL = true → s.arrival = m :: l →
    exec (.mbArrival .hm) s = .next (s.gave .hm MB_ARRIVAL (w32 (m + 2 ^ 31)).toNat fun u => { u with arrival := l }))
  ∧ (∀ (s : State) (who : Initiator) (w : Word), s.writeTaken who MB_DB_IN_SET w = true → w ≠ 0 →
    exec (.mbDbInSet who w) s = .next (s.did who MB_DB_IN_SET w fun u =>
      ((u.setReg MB_DB_IN (u.reg MB_DB_IN ||| w)).setB MB_STATUS MB_STATUS_DB_IN).raiseEv 24 25))
  ∧ (∀ (s : State) (who : Initiator) (w : Word), s.writeTaken who MB_DB_OUT_SET w = true →
    exec (.mbDbOutSet who w) s = .next (s.did who MB_DB_OUT_SET w fun u => u.setReg MB_DB_OUT (u.reg MB_DB_OUT ||| w)))

/-- The logbook records events, freezes and thaws, and reads, clears and saves its records. Each of these does what its rule says when it is due.
Every clause concludes with the next state that exec answers, under hypotheses on the state and the operands alone. Commands: LOG_EVENT,
RECORD_WRITE, BREAKWATER_WINDOW_END, FREEZE, FROZEN, STAGED_EVENTS_APPLY, LOG_CMD_READ, WRITE_CFG, LOG_CMD_CLEAR, LOG_OPERATION_END, OPSEC_SAVE,
OPERATING_SECOND. -/
def Obligations.LogbookRecordsAndFreezes : Prop :=
  (∀ (s : State) (who : Initiator) (w : Word), s.writeTaken who LOG_EVENT w = true →
    exec (.logEvent who w) s = .next (s.did who LOG_EVENT w fun u => u.logEv (LOG_EVENT_CODE.get w) (LOG_EVENT_VALUE.get w)))
  ∧ (∀ (s : State) (c : BitVec 8), s.rst.chip = false → s.rst.vinBad = false → s.log.dirty.contains c.toNat = true →
    exec (.recordWrite c) s = .next (let bs := (s.work c.toNat).flatMap (leBytes 4)
      let img := bs ++ leBytes 4 (crc32 bs) ++ [0, 0, 0, 0]
      let u := (s.mramStore (recAddrA c.toNat) img).mramStore (recAddrB c.toNat) img
      ({ u with log := { u.log with dirty := nerase c.toNat u.log.dirty } } : State)).after)
  ∧ (∀ (s : State) (c : BitVec 8), s.rst.chip = false →
    (∀ x, s.bwOpen c.toNat = some x → x.opened.hi + x.span * 25000000 ≤ s.lhNow.hi) →
    exec (.breakwaterWindowEnd c) s = .next ({ s with log := { s.log with win := tput (fun _ => none) s.log.win c.toNat none } } : State).after)
  ∧ (∀ (s : State) (who : Initiator) (w : Word), s.writeTaken who LOG_CTL w = true →
    exec (.freeze who w) s = .next (s.did who LOG_CTL w fun u => if u.logFrozen then u else u.clrB LOG_CTL LOG_CTL_FROZEN))
  ∧ (∀ (s : State), s.rst.chip = false → s.logFrozen = true → s.bit LOG_CTL LOG_CTL_FROZEN = false →
    let u := if s.rst.vinBad then s else
      let v := s.log.dirty.foldl State.writeRecord s
      { v with log := { v.log with dirty := [] } }
    (s.rst.vinBad = false ∨ s.log.dirty = [] → exec .frozen s = .next (u.setB LOG_CTL LOG_CTL_FROZEN).lhDone.after)
    ∧ (s.rst.vinBad = true → s.log.dirty ≠ [] → exec .frozen s = .next s.after))
  ∧ (∀ (s : State), s.rst.chip = false → s.logFrozen = false →
    exec .stagedEventsApply s = .next (s.log.staged.foldl State.applyEvent { s with log := { s.log with staged := [] } }).after)
  ∧ (∀ (s : State) (who : Initiator) (w : Word), s.writeTaken who LOG_CMD (LOG_CMD_OP.put w 1) = true →
    exec (.logCmdRead who w) s = .next (s.did who LOG_CMD (LOG_CMD_OP.put w 1) fun u =>
      (u.logRead (u.fld LOG_SEL LOG_SEL_CODE)).setReg LOG_CMD (w32 (2 ^ 31))))
  ∧ (∀ (s : State) (who : Initiator) (w : Word), s.writeTaken who LOG_CMD (LOG_CMD_OP.put w 2) = true →
    exec (.writeCfg who w) s = .next (s.did who LOG_CMD (LOG_CMD_OP.put w 2) fun u =>
      (u.logWriteCfg (u.fld LOG_SEL LOG_SEL_CODE)).setReg LOG_CMD (w32 (2 ^ 31))))
  ∧ (∀ (s : State) (who : Initiator) (w : Word), s.writeTaken who LOG_CMD (LOG_CMD_OP.put w 3) = true →
    exec (.logCmdClear who w) s = .next (s.did who LOG_CMD (LOG_CMD_OP.put w 3) fun u =>
      (u.logClear (u.fld LOG_SEL LOG_SEL_CODE)).setReg LOG_CMD (w32 (2 ^ 31))))
  ∧ (∀ (s : State), s.rst.chip = false →
    exec .logOperationEnd s = .next (s.setReg LOG_CMD 0).after)
  ∧ (∀ (s : State), s.rst.lhOff = false → s.rst.vinBad = false →
    exec .opsecSave s = .next ({ s with lh := { s.lh with nvOps := (s.reg LH_OPSEC).toNat } } : State).after)
  ∧ (∀ (s : State), s.rst.lhOff = false → s.rst.vinBad = false → exec .operatingSecond s = .next (s.count LH_OPSEC).after)

/-- The lighthouse enters and leaves safe state, and its port answers each request. Each of these does what its rule says when it is due. Every clause
concludes with the next state that exec answers, under hypotheses on the state and the operands alone. Commands: LH_SAFEN, SAFE_REQ,
LH_CTL_RELEASE, SAFE_STATE_ENTRY, SAFE_STATE_RELEASE, LH_WATCHDOG_EXPIRY, LH_KICK, XTAL_SWITCH, LH_FREEZE_TIMEOUT, LH_FRAME_REFUSED, LH_NOP,
READ_LH, WRITE_LH, READ_MB, WRITE_MB, LH_SAFE, LH_RELEASE, LH_CHIP_RESET, LH_LOG_FREEZE, LH_LOG_THAW, LH_LOG_READ. -/
def Obligations.LighthouseAndItsPortAct : Prop :=
  (∀ (s : State), s.rst.lhOff = false → s.rst.banks.contains 7 = false →
    (s.bit LH_STATE LH_STATE_SAFEN = false → exec (.lhSafen true) s = .next ((s.putB LH_STATE LH_STATE_SAFEN true).safeSource 0).after)
    ∧ exec (.lhSafen false) s = .next (s.putB LH_STATE LH_STATE_SAFEN false).safeStale.after)
  ∧ (∀ (s : State) (who : Initiator) (w : Word), s.writeTaken who LH_CTL (LH_CTL_SAFE_REQ.put w 1) = true → LH_CTL_RELEASE.get w = 0 →
    exec (.safeReq who w) s = .next (s.did who LH_CTL (LH_CTL_SAFE_REQ.put w 1) fun u =>
      ((u.setReg LH_CTL 0).setB LH_STATE LH_STATE_LATCH).safeSource 3))
  ∧ (∀ (s : State) (who : Initiator) (w : Word), s.writeTaken who LH_CTL (LH_CTL_RELEASE.put w 1) = true → LH_CTL_SAFE_REQ.get w = 0 →
    exec (.lhCtlRelease who w) s = .next (s.did who LH_CTL (LH_CTL_RELEASE.put w 1) fun u =>
      let v := u.setReg LH_CTL 0
      if v.bit LH_CFG LH_CFG_HOST_RELEASE then (v.clrB LH_STATE LH_STATE_LATCH).safeStale else v))
  ∧ (∀ (s : State), s.rst.lhOff = false → s.rst.chip = false → s.safeDue = true → s.safe = false →
    exec .safeStateEntry s = .next (let u := (s.setB LH_STATE LH_STATE_SAFE).modLh fun l => { l with srcs := [] }
      let u := ((((u.forN 8 State.chopSafe).forN 32 State.axSafe).forN 8 State.grpSafe).forN 16 State.trigSafe).forN 32 State.pilotSafe
      (s.lh.srcs.foldl State.safeSource u).logEv 0x08 (s.lh.srcs.headD 0)).after)
  ∧ (∀ (s : State), s.rst.lhOff = false → s.safeDue = false → s.safe = true →
    exec .safeStateRelease s = .next (s.clrB LH_STATE LH_STATE_SAFE).after)
  ∧ (∀ (s : State) (k : Fin 25), s.rst.lhOff = false → s.fld (LH_WDOG k) LH_WDOG_ACTION = 1 → s.fld (LH_WDOG k) LH_WDOG_TIMEOUT ≠ 0 →
    s.wdogRuns k = true → s.wdogDue k = true →
    exec (.lhWatchdogExpiry k) s = .next (let u := s.wdogRestart k
      let u := u.setReg LH_WDOG_EXP (w32 (withBit (u.reg LH_WDOG_EXP).toNat k true))
      let u := u.setB LH_FAULT (if k.val = 24 then LH_FAULT_WDOG_HM else LH_FAULT_WDOG_BERTH)
      if k.val = 24 then u.logEv 0x09 0 else u.logEv 0x0A k).after)
  ∧ (∀ (s : State) (who : Initiator) (w : Word), s.writeTaken who LH_KICK w = true →
    exec (.lhKick who w) s = .next (s.did who LH_KICK w fun u =>
      u.modLh fun l => { l with wdogAt := tput (fun _ => 0) l.wdogAt (LH_KICK_INDEX.get w) u.lhNow.hi }))
  ∧ (∀ (s : State) (on : Bool), s.rst.lhOff = false →
    exec (.xtalSwitch on) s = .next ((s.modLh fun l => { l with clock := s.lhNow, clockAt := s.time.tick }).putB LH_STATE LH_STATE_XTAL on).after)
  ∧ (∀ (s : State), s.rst.lhOff = false → s.lh.freeze = true → s.lh.busy = true →
    exec .lhFreezeTimeout s = .next ({ s with lh := { s.lh with
      busy := false, resp := { s.lh.resp with status := if s.lh.resp.status = 1 then 1 else 0 } } } : State).after)
  ∧ (∀ (s : State), s.rst.lhOff = false → s.rst.banks.contains 7 = false →
    let u := s.modLh fun l => { l with miso := (if l.busy then { l.resp with status := 4 } else l.resp).bytes }
    ∀ f : LhFrame, let b := f.bytes.map BitVec.toNat
      let good := f.clocks = 64 ∧ crc8 (b.take 7) = b.getD 7 0
      let c := b.getD 0 0
      (¬good → exec (.lhFrameRefused f) s = .next ((u.setB LH_FAULT LH_FAULT_FRAME).modLh fun l => { l with resp := { l.resp with status := 1 } }).after)
      ∧ (good → s.lh.busy = true →
        exec (.lhFrameRefused f) s = .next ((u.setB LH_FAULT LH_FAULT_FRAME).modLh fun l => { l with resp := { l.resp with status := 4 } }).after)
      ∧ (good → s.lh.busy = false → ¬(c ≤ 4 ∨ (0x10 ≤ c ∧ c ≤ 0x12) ∨ (0x20 ≤ c ∧ c ≤ 0x22)) →
        exec (.lhFrameRefused f) s = .next (u.lhAccept c (u, 2, 0)).after))
  ∧ (∀ (s0 : State), s0.rst.lhOff = false → s0.rst.banks.contains 7 = false → s0.lh.busy = false →
    let s := s0.modLh fun l => { l with miso := l.resp.bytes }
    exec (.lhNop 0 0) s0 = .next (s.lhAccept 0x00 (s, 0, 0)).after
    ∧ (∀ a : BitVec 16, lhOffset 0x40010000 a.toNat = true →
        let r := s.regRead .lhPort (0x40010000 + a.toNat)
        exec (.readLh a 0) s0 = .next (s.lhAccept 0x01 (r.1, 0, r.2.2)).after)
    ∧ (∀ (a : BitVec 16) (d : Word), lhOffset 0x40010000 a.toNat = true → s.rst.chip = false →
        ∀ t, s.regWrite .lhPort (0x40010000 + a.toNat) (w32 d.toNat) = (t, .done) → exec (.writeLh a d) s0 = .next (s.lhAccept 0x02 (t, 0, 0)).after)
    ∧ (∀ (a : BitVec 16) (d : Word), lhOffset 0x40010000 a.toNat = true → s.rst.chip = true →
        ∀ t, s.regWrite .lhPort (0x40010000 + a.toNat) (w32 d.toNat) = (t, .done) → exec (.writeLh a d) s0 = .next (s.lhAccept 0x02
          ({ t with regs := t.regs.filter fun p => chipKeeps p.1 || p.1 == SYS_CLK_STATUS }, 0, 0)).after)
    ∧ (∀ a : BitVec 16, lhOffset 0x40020000 a.toNat = true → ∀ t v, s.busRead .lhPort (0x40020000 + a.toNat) 4 = (t, .done, v) →
        exec (.readMb a 0) s0 = .next (s.lhAccept 0x03 (t, 0, v)).after)
    ∧ (∀ (a : BitVec 16) (d : Word), lhOffset 0x40020000 a.toNat = true →
        ∀ t, s.busWrite .lhPort (0x40020000 + a.toNat) (leBytes 4 d.toNat) = (t, .done) → exec (.writeMb a d) s0 = .next (s.lhAccept 0x04 (t, 0, 0)).after)
    ∧ exec (.lhSafe 0 0) s0 = .next (let u := (s.setB LH_STATE LH_STATE_LATCH).safeSource 2
        s.lhAccept 0x10 (u, 0, (u.reg LH_STATE).toNat)).after
    ∧ exec (.lhRelease 0 0) s0 = .next (let u := (s.clrB LH_STATE LH_STATE_LATCH).safeStale
        s.lhAccept 0x11 (u, 0, (u.reg LH_STATE).toNat)).after
    ∧ exec (.lhChipReset 0 0xA55A) s0 = .next (s.lhAccept 0x12 (s.resetReq .chip 2, 0, 0)).after
    ∧ exec (.lhLogFreeze 0 0) s0 = .next (let held := s.bit LOG_CTL LOG_CTL_FROZEN
        s.lhAccept 0x20 (s.modLh fun l => { l with freeze := true, busy := !held }, if held then 0 else 4, 0)).after
    ∧ exec (.lhLogThaw 0 0) s0 = .next (s.lhAccept 0x21 ((s.modLh fun l => { l with freeze := false }).thawed, 0, 0)).after
    ∧ (∀ a : BitVec 16, a.toNat % 256 ≤ 27 →
        let u := s.recFetch (a.toNat / 256 % 256)
        let r := u.readRecord (a.toNat / 256 % 256)
        exec (.lhLogRead a 0) s0 = .next (s.lhAccept 0x22 (u.setIf (r.2 && !u.rst.chip) LOG_STATUS LOG_STATUS_RECORD_BAD, if r.2 then 7 else 0,
          (recImage r.1 r.2).getD (a.toNat % 256) 0)).after))

/-- Link tests lock, count and lose lock; the debug port loads its instructions and makes accesses. Each of these does what its rule says. Every
clause concludes with the next state that exec answers, under hypotheses on the state and the operands alone. The TAP and the IDCODE that its
reset loads are taken from IEEE 1149.1, and a row that selects an instruction leaves its data register as it was (log 72); the RESULT of an access that meets poison is presumed (log 13). Commands: TEST_LINK_CTL,
CHECKER_LOCKED, LANE_ERR, LOCK_LOST, TAP_RESET, EXTEST, IDCODE, EXTEST_PULSE, EXTEST_TRAIN, CLAMP, HIGHZ, DEBUG, BYPASS, SAMPLE_PRELOAD,
ACCESS_UPDATE, SYS_RESET_CHIP, SYS_RESET_CORE. -/
def Obligations.LinkTestsAndDebugPortAct : Prop :=
  (∀ (s : State) (who : Initiator) (l : Fin 64) (w : Word), s.writeTaken who (TEST_LINK_CTL l) w = true →
    let now := TEST_LINK_CTL_GEN.get w ≠ 0 ∨ TEST_LINK_CTL_CHK.get w ≠ 0
    let was := TEST_LINK_CTL_GEN.get (s.reg (TEST_LINK_CTL l)) ≠ 0 ∨ TEST_LINK_CTL_CHK.get (s.reg (TEST_LINK_CTL l)) ≠ 0
    exec (.testLinkCtl who l w) s = .next (s.did who (TEST_LINK_CTL l) w fun u =>
      let t : LinkTest := if now then { on := true, began := u.time.tick, upTo := u.time.tick } else {}
      let v := ({ u with tap := { u.tap with links := tput (fun _ => {}) u.tap.links l t } } : State).putF (TEST_LINK_STATE l) TEST_LINK_STATE_LOCKED 0
      if l.val < 6 then
        if now ∧ ¬was then (v.lineLost l).portDown l (v.flushOnDown l)
        else if ¬now ∧ was then v.startLink l
        else v
      else if 8 ≤ l.val ∧ l.val < 12 ∧ now ∧ ¬was then v.canTaken (l - 8)
      else v))
  ∧ (∀ (s : State) (l : Fin 64) (k : Fin 8), s.rst.chip = false → s.laneOn l k = true →
    (s.bit (TEST_LINK_CTL l) TEST_LINK_CTL_LOOP = false ∨ s.linkSends l = true) →
    exec (.checkerLocked l k) s = .next (s.putF (TEST_LINK_STATE l) TEST_LINK_STATE_LOCKED (withBit (s.fld (TEST_LINK_STATE l) TEST_LINK_STATE_LOCKED) k
      true)).after)
  ∧ (∀ (s : State) (l : Fin 64) (k : Fin 8) (n : Nat), s.rst.chip = false → s.laneOn l k = true → s.laneLocked l k = true →
    s.bit (TEST_LINK_CTL l) TEST_LINK_CTL_LOOP = false → n ≠ 0 →
    exec (.laneErr l k n) s = .next (let u := s.countN (TEST_LINK_ERR l) wholeReg n
      u.putF (TEST_LINK_STATE l) TEST_LINK_STATE_LANE_ERR (withBit (u.fld (TEST_LINK_STATE l) TEST_LINK_STATE_LANE_ERR) k true)).after)
  ∧ (∀ (s : State) (l : Fin 64) (k : Fin 8) (n : Nat), s.rst.chip = false → s.laneOn l k = true → s.laneLocked l k = true →
    s.bit (TEST_LINK_CTL l) TEST_LINK_CTL_LOOP = false →
    exec (.lockLost l k n) s = .next (let v := s.countN (TEST_LINK_ERR l) wholeReg n
      let u := if n = 0 then s
        else v.putF (TEST_LINK_STATE l) TEST_LINK_STATE_LANE_ERR (withBit (v.fld (TEST_LINK_STATE l) TEST_LINK_STATE_LANE_ERR) k true)
      ((u.putF (TEST_LINK_STATE l) TEST_LINK_STATE_LOCKED (withBit (u.fld (TEST_LINK_STATE l) TEST_LINK_STATE_LOCKED) k false)).setB (TEST_LINK_STATE l)
        TEST_LINK_STATE_LOCK_LOST).setB TEST_STATUS TEST_STATUS_LOCK_LOST).after)
  ∧ (∀ (s : State), s.rst.lhOff = false → s.rst.banks.contains 7 = false →
    let tdo (l : List Bool) : List Bool := if s.rst.chip then [] else l
    let load (i : TapInstr) : State := { s with tap := { s.tap with ctl := s.tap.ctl.walk (scanTms true 6), ir := i, out := tdo irCaptured } }
    let select (i : TapInstr) (n : Nat) : State :=
      let u := load i
      { u with tap := { u.tap with ctl := u.tap.ctl.walk (scanTms false n), out := tdo u.tapCapture } }
    exec .tapReset s = .next ({ s with tap := { s.tap with ctl := .reset, ir := .idcode } } : State).after ∧ exec .extest s = .next (select .extest Config.boundaryLength).after
    ∧ exec .idcode s = .next (select .idcode 32).after ∧ exec .bypass s = .next (select .bypass 1).after
    ∧ exec .extestPulse s = .next (select .extestPulse Config.boundaryLength).after
    ∧ exec .extestTrain s = .next (select .extestTrain Config.boundaryLength).after
    ∧ exec .clamp s = .next (select .clamp 1).after ∧ exec .highz s = .next (select .highz 1).after ∧ exec .debug s = .next (load .debug).after
    ∧ ∀ l, let u := select .samplePreload l.length
      exec (.samplePreload l) s = .next ({ u with tap := { u.tap with boundary := l } } : State).after)
  ∧ (∀ (s : State) (z : Fin 4) (a : Word) (d : BitVec 64), s.rst.lhOff = false → s.rst.banks.contains 7 = false → s.tap.ir = .debug → s.tapBusy = false →
    let w := ({ s with tap := { s.tap with ctl := s.tap.ctl.walk (scanTms false 104), out := if s.rst.chip then [] else s.tapCapture } } : State)
    let u := ({ w with tap := { w.tap with addr := a.toNat } } : State)
    let v := u.setB DBG_STATUS DBG_STATUS_USED
    let rd := v.accessOp .debug a.toNat (.read (2 ^ z.val)) 0
    let wr := v.accessOp .debug a.toNat (.write (2 ^ z.val) (BitVec.ofNat 128 d.toNat)) 0
    exec (.accessUpdate 0 z a d) s = .next w.after
    ∧ exec (.accessUpdate 1 z a d) s = .next (State.tapEnd (State.record .debug a.toNat rd, rd.2)).after
    ∧ exec (.accessUpdate 2 z a d) s = .next (State.tapEnd (State.record .debug a.toNat wr, wr.2)).after
    ∧ exec (.accessUpdate 3 z a d) s = .next ({ u with tap := { u.tap with result := 3 } } : State).after)
  ∧ (∀ (s : State) (w : Word), s.writeTaken .debug SYS_RESET (SYS_RESET_CHIP.put w 1) = true →
    exec (.sysResetChip .debug w) s = .next (s.did .debug SYS_RESET (SYS_RESET_CHIP.put w 1) fun u => u.resetReq .chip 6))
  ∧ (∀ (s : State) (w : Word), s.writeTaken .debug SYS_RESET (SYS_RESET_CORE.put w 1) = true → SYS_RESET_CHIP.get w = 0 →
    exec (.sysResetCore .debug w) s = .next (s.did .debug SYS_RESET (SYS_RESET_CORE.put w 1) fun u => u.resetReq .core 6))

/-- Supplies, pin banks and clocks come and go as their rules say. Each event does what its rule says. Every clause concludes with the next state that
exec answers, under hypotheses on the state and the operands alone. That VIN below 2.0 V puts the whole device in CHIP reset at once is deduced from
R461 (log 120). Commands: VIN_VALID, VIN_INVALID, LIGHTHOUSE_POWER_LOSS,
RAIL_OUT_OF_REGULATION, BANK_DOWN, REFCLK_FAILURE, TSREF_LOST, CANREF_LOST, TS_SRC, TIME_PLL_LOCKED, RESETN. -/
def Obligations.SuppliesAndClocksAct : Prop :=
  (∀ (s : State),
    let u := s.modRst fun r => { r with vinBad := false }
    s.rst.banks.contains 7 = false →
    exec .vinValid s = .next (if u.rst.lhOff then u.lhPowerUp.modRst fun r => { r with lhOff := false } else u).after)
  ∧ (∀ (s : State),
    let v := if s.rst.vinBad then s else (s.modRst fun r => { r with vinBad := true }).resetReq .chip 0
    let u := v.modRst fun r => { r with lhOff := true }
    exec .vinInvalid s = .next v.after ∧ exec .lighthousePowerLoss s = .next (if u.rst.chip then u else chipReset u).after)
  ∧ (∀ (s : State), s.rst.vinBad = false →
    exec .railOutOfRegulation s = .next ((s.modRst fun r => { r with rail := true }).resetReq .chip 0).after)
  ∧ (∀ (s : State) (b : Fin 8),
    exec (.bankDown b true) s = .next (s.modRst fun r => { r with banks := nerase b r.banks }).after
    ∧ (s.rst.banks.contains b.val = true → exec (.bankDown b false) s = .next s.after)
    ∧ (s.rst.banks.contains b.val = false →
      let u := (s.modRst fun r => { r with banks := ninsert b r.banks }).setIf (!s.rst.chip) SYS_STATUS SYS_STATUS_BANK_DOWN
      (b.val < 6 → exec (.bankDown b false) s = .next u.after)
      ∧ (b.val = 6 → exec (.bankDown b false) s = .next (pcieInterfaceReset .perstnLow u).after)
      ∧ (b.val = 7 → exec (.bankDown b false) s = .next (resetn true (lhSafen true (tapReset u))).after)))
  ∧ (∀ (s : State),
    exec .refclkFailure s = .next ((s.modRst fun r => { r with clk := true }).resetReq .chip 0).after)
  ∧ (∀ (s : State), s.rst.chip = false → s.bit SYS_CLK_CFG SYS_CLK_CFG_TS_ACTIVE = true →
    exec .tsrefLost s = .next ((((s.setB SYS_STATUS SYS_STATUS_TSREF_LOST).clrB SYS_CLK_CFG SYS_CLK_CFG_TS_ACTIVE).clrB SYS_CLK_STATUS TIME_LOCK).modRst
      fun r => { r with tsFell := true }).after)
  ∧ (∀ (s : State), s.rst.chip = false → s.bit SYS_CLK_CFG SYS_CLK_CFG_CAN_ACTIVE = true →
    exec .canrefLost s = .next ((s.setB SYS_STATUS SYS_STATUS_CANREF_LOST).clrB SYS_CLK_CFG SYS_CLK_CFG_CAN_ACTIVE).after)
  ∧ (∀ (s : State) (who : Initiator) (w : Word), s.writeTaken who SYS_CLK_CFG w = true →
    exec (.tsSrc who w) s = .next (s.did who SYS_CLK_CFG w fun u =>
      (if SYS_CLK_CFG_TS_SRC.get (s.reg SYS_CLK_CFG) ≠ SYS_CLK_CFG_TS_SRC.get w ∨ u.rst.tsFell then
        ({ u with rst := { u.rst with tsFell := false } } : State).clrB SYS_CLK_STATUS TIME_LOCK
      else u).putF SYS_CLK_CFG SYS_CLK_CFG_CAN_ACTIVE (SYS_CLK_CFG_CAN_SRC.get w)))
  ∧ (∀ (s : State), s.rst.chip = false → (s.fld SYS_CLK_CFG SYS_CLK_CFG_TS_SRC = 0 ∨ s.rst.tsFell = true ∨ s.rst.banks.contains 6 = false) →
    exec .timePllLocked s = .next ((s.setB SYS_CLK_STATUS TIME_LOCK).putB SYS_CLK_CFG SYS_CLK_CFG_TS_ACTIVE
      (s.fld SYS_CLK_CFG SYS_CLK_CFG_TS_SRC != 0 && !s.rst.tsFell)).after)
  ∧ (∀ (s : State),
    (s.rst.pin = false → exec (.resetn true) s = .next ((s.modRst fun r => { r with pin := true }).resetReq .chip 1).after)
    ∧ (s.rst.banks.contains 7 = false → exec (.resetn false) s = .next (s.modRst fun r => { r with pin := false }).after))

/-- Resets begin and end, the boot ROM starts an image, and the muster takes its frames. Each of these does what its rule says when it is due. Every
clause concludes with the next state that exec answers, under hypotheses on the state and the operands alone. That the system record's settings
are held in State.nv, and how the ROM boots (log 84), how a node forwards muster frames with its own MAC (log 85), and that autoload waits for a copy or
a commit and goes on from it (log 120), is the model's reading.
Commands: CHIP_RESET, CHIP_RESET_RELEASE, CORE_RESET, CORE_RESET_END, CAUSEWAY_RESET, CAUSEWAY_RESET_END, BOOT_IMAGE_START, AUTOLOAD,
MUSTER_COUNT, MUSTER_BLOCK, MUSTER_DONE, MUSTER_REQUEST. -/
def Obligations.ResetsBootAndMusterAct : Prop :=
  (∀ (s : State) (k : Nat) (l : List Nat), s.reqSources .chip = k :: l →
    exec .chipReset s = .next (let src := lowest (k :: l)
      let u := (s.chipFresh.setReg LH_RESET_CAUSE (w32 (src * 16))).setReg SYS_CLK_STATUS
        (w32 (if src = 0 then 0 else 16 * bitsOf 4 4 (s.reg SYS_CLK_STATUS).toNat))
      ({ u with rst := { u.rst with chip := true, core := false, cw := false, req := [] }, lh := { u.lh with codes := u.lh.codes ++ [(0x02, src)] } } : State)).after)
  ∧ (∀ (s : State) (boot : BitVec 3) (mode : BitVec 2) (wide : Bool), s.rst.chip = true → s.rst.pin = false → s.rst.vinBad = false →
    s.rst.lhOff = false → s.rst.banks.contains 7 = false →
    exec (.chipResetRelease boot mode wide) s = .next (
      let u := s.modRst fun r => { r with chip := false, rail := false, clk := false }
      let u := u.setReg SYS_STRAPS (w32 (boot.toNat + 16 * mode.toNat + 64 * b2n wide))
      let u := u.setReg SYS_CLK_STATUS (u.reg SYS_CLK_STATUS ||| 15)
      let u := (u.putF HOSTIF_HB_CFG HOSTIF_HB_CFG_MODE mode.toNat).putB HOSTIF_HB_CFG HOSTIF_HB_CFG_WIDTH wide
      let u := u.setIf (mode.toNat == 3) HOSTIF_STATUS HOSTIF_STATUS_HB_MODE_BAD
      let u := u.setReg SYS_MUSTER (w32 (u.nv.etype % 65536 + 2 ^ 16 * u.nv.pair + 2 ^ 20 * u.nv.mode))
      ((u.lh.codes.foldl (fun v c => v.logEv c.1 c.2) (u.modLh fun l => { l with codes := [] })).wdogRestart 24).bootRom).after)
  ∧ (∀ (s : State) (k : Nat) (l : List Nat), s.rst.chip = false → s.reqSources .core = k :: l → s.reqSources .chip = [] →
    exec .coreReset s = .next (let src := lowest (k :: l)
      let held (x : WaitAcc) : Bool := match x.who with | .qe _ => true | .hm => true | .dmaRead _ => true | .dmaWrite _ => true | _ => false
      let v := s.fqEmptied
      let u : State := { v with
        regs := v.regs.filter (fun p => !coreClears p.1), qe := [], fq := [], txRR := [], dma := [],
        hm := if v.bit SYS_NODE_ADDR SYS_NODE_ADDR_LOCKED then { muster := { adopted := v.hm.muster.adopted } } else {},
        rst := { v.rst with core := true, req := v.rst.req.filter (fun r => r.1 != .core) },
        cw := { v.cw with waits := v.cw.waits.filter (fun x => !held x), strays := v.cw.strays ++ v.cw.waits.filter (fun x => held x && x.strays) } }
      let u := u.mbCoreReset.forN 4 State.canCoreReset
      let u := if u.bit TT_CTL TT_CTL_EN then (u.clrB TT_CTL TT_CTL_EN).ttDisable else u
      (u.setReg LH_RESET_CAUSE (w32 (1 + src * 16))).logEv 0x03 src).after)
  ∧ (∀ (s : State), s.rst.core = true →
    exec .coreResetEnd s = .next ((s.modRst fun r => { r with core := false }).wdogRestart 24).bootRom.after)
  ∧ (∀ (s : State) (k : Nat) (l : List Nat), s.reqSources .causeway = k :: l → s.reqSources .chip = [] →
    exec .causewayReset s = .next (((((s.modCw fun c => { c with lock := none }).pcieReset.ifReset 1).ifReset 2).modRst fun r => { r with cw := true, req := r.req.filter (fun x => x.1 != .causeway) }).logEv
      0x05 0).after)
  ∧ (∀ (s : State),
    exec .causewayResetEnd s = .next (s.modRst fun r => { r with cw := false }).after)
  ∧ (∀ (s : State), s.rst.chip = false → s.rst.core = false → s.cw.lock = none →
    (s.hm.run = .rom → exec .bootImageStart s = .next (let u := s.hmStage .rom stLOADING
      u.bootTry false s.bootPlaces).after)
    ∧ (∀ b m t, s.hm.run = .waitHost → s.hm.start = some (b, m, t) → ((s.mbOf (16 + m)).full = false ∨ t + msTicks ≤ s.time.tick) →
      exec .bootImageStart s = .next ((match s.hm.slot with | some i => s.putF SYS_BOOT SYS_BOOT_SLOT i | none => s).bootStart b).after)
    ∧ (∀ b m n, s.hm.run = .muster → s.hm.start = some (b, m, n) → exec .bootImageStart s = .next (s.bootStream n).after))
  ∧ (∀ (s t : State), s.rst.chip = false → s.rst.core = false → s.hm.run = .firmware → s.hm.loaded = false → (s.qeOf 24).run = .running → s.cw.lock = none →
    t.hm.muster.rest = [] → ∀ r, s.applySlots ((List.range (32 - s.hm.next)).map (· + s.hm.next)) = (t, r) →
    (r = .waits → exec .autoload s = .next t.after)
    ∧ (r = .done → exec .autoload s = .next ((t.ringOut 16).modHm fun x => { x with loaded := true }).after)
    ∧ ∀ v, r = .failed v → exec .autoload s = .next (((t.logEv 0x80 v).ringOut 16).modHm fun x => { x with loaded := true }).after)
  ∧ (∀ (s : State) (q : Fin 6) (bytes : List (BitVec 8)) (f : MFrame), s.rst.chip = false → s.rst.core = false →
    let b := bytes.map BitVec.toNat
    let u := s.modMuster fun x => { x with sent := [] }
    u.mframe b = some f → f.type = 1 → u.musterPort q = true → u.musterLocked = true → u.adoptedIs f = true → q.val = u.upstream →
      exec (.musterCount q bytes) s = .next (u.countOn q b f.flags).after)
  ∧ (∀ (s : State) (q : Fin 6) (bytes : List (BitVec 8)) (f : MFrame), s.rst.chip = false → s.rst.core = false →
    let b := bytes.map BitVec.toNat
    let u := s.modMuster fun x => { x with sent := [] }
    s.cw.lock = none → u.mframe b = some f → f.type = 2 → u.musterPort q = true → u.adoptedIs f = true → q.val = u.upstream →
      exec (.musterBlock q bytes) s = .next (
        let v := (u.setB SYS_NODE_ADDR SYS_NODE_ADDR_LOCKED).newSession f.session
        let v := if v.hm.muster.failed then v else v.hmStage .muster stDOWNLOAD
        let v := (v.store (0x10000000 + f.index * 1024) (f.data.take f.span)).modMuster fun x => { x with blocks := tput (fun _ => 0) x.blocks f.index f.span }
        v.musterSend (otherPort q) (v.fromHere b)).after)
  ∧ (∀ (s : State) (q : Fin 6) (bytes : List (BitVec 8)) (f : MFrame), s.rst.chip = false → s.rst.core = false →
    let b := bytes.map BitVec.toNat
    let u := s.modMuster fun x => { x with sent := [] }
    let v := (u.musterSend (otherPort q) (u.fromHere b)).newSession f.session
    let w := v.modMuster fun x => { x with dones := x.dones + 1 }
    let r := w.eccRead 0x10000000 (beAt f.data 4 4)
    s.cw.lock = none → u.mframe b = some f → f.type = 3 → u.musterPort q = true → u.adoptedIs f = true → q.val = u.upstream →
      v.hm.muster.failed = false → v.hm.start = none → (∀ i, i < f.index → w.blockHeld i = true) → beAt f.data 4 4 ≤ f.index * 1024 →
      r.poisonedN 0x10000000 (beAt f.data 4 4) = false → crc32 (r.rdBytes 0x10000000 (beAt f.data 4 4)) = beAt f.data 0 4 →
      exec (.musterDone q bytes) s = .next ((r.musterSend q (r.requestFrame f 0 0 fun i => decide (i < f.index) && !w.blockHeld i)).modHm fun x =>
        { x with start := some ([], 0, beAt f.data 4 4) }).after)
  ∧ (∀ (s : State) (q : Fin 6) (bytes : List (BitVec 8)) (f : MFrame), s.rst.chip = false → s.rst.core = false →
    let b := bytes.map BitVec.toNat
    let u := s.modMuster fun x => { x with sent := [] }
    u.mframe b = some f → f.type = 4 → u.musterPort q = true → u.adoptedIs f = true → q.val ≠ u.upstream →
      exec (.musterRequest q bytes) s = .next (u.musterSend u.upstream b).after)

/-- Register writes, interconnect accesses, time-outs, write-backs and dredger passes act. Each of these does what its rule says. Every clause
concludes with the next state that exec answers, under hypotheses on the state and the operands alone. That accesses wait in State.cw.waits and
that BUS_TIMEOUT leaves a bus error there is the model's reading (log 10). Commands: REGISTER_WRITE, INTERCONNECT_ACCESS, BUS_TIMEOUT,
CORRECTION_WRITE_BACK, DREDGER_PASS, DREDGE_LATE. -/
def Obligations.InterconnectServesAccesses : Prop :=
  (∀ (s : State) (who : Initiator) (a w : Word) (row : RegRow) (l : List Nat), s.writeTaken who a.toNat w = true →
    findReg a.toNat = some (row, l) → isRegister a.toNat = true → a.toNat % 4 = 0 →
    isCount64 (0x40000000 + blockOf a.toNat * 0x10000 + row.off) = false →
    exec (.registerWrite who a w) s = .next (s.did who a.toNat w fun u =>
      blockHook who (blockOf a.toNat) (0x40000000 + blockOf a.toNat * 0x10000 + row.off) (l.headD 0) (s.reg a.toNat) w u))
  ∧ (∀ (s : State) (who : Initiator) (a : Word) (op : BusOp) (ln : BitVec 16) (up : Fin 3), s.rst.chip = false → who ≠ .debug →
    s.mayAccess who a.toNat = true →
    let made (u : State) : State × BusEnd × Nat := (u.upsetAt a.toNat up).accessOp who a.toNat op ln.toNat
    (ifNum who = none → exec (.interconnectAccess who a op ln up) s = .next (State.record who a.toNat (made s)).after)
    ∧ ∀ k, ifNum who = some k → (s.ifOf k).ops = [] →
      (opBytes op = [] →
        let r := if s.fenceMet who a.toNat then (s.clrB CW_FENCE (fenceBit k), .busError, 0) else made (s.admitRead who a.toNat)
        exec (.interconnectAccess who a op ln up) s = .next (State.record who a.toNat
          (if who = .pcie ∧ r.2.1 = .busError then (r.1.sendCa (opHead a.toNat op) [], r.2) else r)).after)
      ∧ (opBytes op ≠ [] →
        let r := made (s.admitWrite who a.toNat (opBytes op).length)
        (s.posts who a.toNat = false ∨ (r.2.1 ≠ .busError ∧ r.2.1 ≠ .waiting) →
          exec (.interconnectAccess who a op ln up) s = .next (State.record who a.toNat r).after)
        ∧ (s.posts who a.toNat = true → r.2.1 = .busError →
          exec (.interconnectAccess who a op ln up) s = .next (State.record who a.toNat (r.1.pwFail k (s.ifOf k).seq a.toNat 1, r.2)).after)
        ∧ (s.posts who a.toNat = true → r.2.1 = .waiting →
          exec (.interconnectAccess who a op ln up) s = .next (State.record who a.toNat (r.1.modIf k fun x =>
            { x with ops := [.write (s.ifOf k).seq a.toNat ((opBytes op).map some) 0 false false] }, r.2)).after)))
  ∧ (∀ (s : State) (who : Initiator) (a : Word) (op : BusOp), s.rst.chip = false → a.toNat < 0x80000000 → reaches who a.toNat = true →
    ∀ (r : Region × Nat), regionOf a.toNat = some r → bankedOf a.toNat = none →
    (s.cw.waits.any fun x => x.who == who && x.addr == a.toNat && x.result.isNone) = true →
    exec (.busTimeout who a op) s = .next (State.record who a.toNat (s.endWait who a.toNat (.busError, 0), .busError, 0)).after)
  ∧ (∀ (s : State) (l : Nat), s.rst.chip = false → s.mm.wback.contains l = true →
    exec (.correctionWriteBack l) s = .next (s.modMm fun m => { m with wback := nerase l m.wback, soft := nerase l m.soft }).after)
  ∧ (∀ (s : State) (soft hard : List Nat), s.rst.chip = false →
    let coded (l : Nat) : Bool := (memIdOf l).isSome
    exec (.dredgerPass soft hard) s = .next (
      let u := (soft.filter coded).foldl (fun v l => v.upset l false) ((hard.filter coded).foldl (fun v l => v.upset l true) s)
      let u := (u.mm.soft.filter coded).foldl (fun v l => Machine.correctionWriteBack l ((v.eccCorrect l).count TEST_DREDGE_CORR)) u
      (u.setReg TEST_DREDGE_POISON (w32 (u.mm.poison.filter coded).length)).count TEST_DREDGE_PASSES).after)
  ∧ (∀ (s : State), s.rst.chip = false →
    exec .dredgeLate s = .next ((s.setB TEST_STATUS TEST_STATUS_DREDGE_LATE).logEv 0x12 (s.fld TEST_DREDGE TEST_DREDGE_PASS_MS)).after)

/-- The harbourmaster answers identification, echo, reset, abort, security, logbook and test commands. A request that is taken and passes its checks
is answered OK with the words written out, its command carried out. Every clause concludes with the next state that exec answers, under hypotheses
on the state and the operands alone. The answers rest on the model's readings of logs 83 and 111 where the rules are silent. Commands: IDENTIFY,
ECHO, RESET, MB_ABORT, SECURITY_SET, LOG_FREEZE, LOG_THAW, LOG_READ, TEST_PATTERN, TEST_RESULT, RESET_BEGIN. -/
def Obligations.HarbourmasterAnswersHousekeeping : Prop :=
  (∀ (s : State) (m : Fin 16), s.hmTakes m 0x01 0 false → (s.take m).romServes = false →
    exec (.identify m) s = .next (let u := s.take m
      s.hmAnswers m u (0, [(u.reg SYS_ID).toNat, u.hm.version, b2n u.nv.enforce + 16 * u.keyList.length])))
  ∧ (∀ (s : State) (m : Fin 16) (n : Nat), s.hmTakes m 0x02 n false →
    exec (.echo m) s = .next (s.hmAnswers m (s.take m) (0, (s.reqOf m).ws)))
  ∧ (∀ (s : State) (m : Fin 16) (sc : Fin 5), s.hmTakes m 0x03 1 false → bitsOf 2 0 ((s.reqOf m).w 1) = sc.val →
    (bitsOf 12 8 ((s.reqOf m).w 1) < if sc = 4 then 6 else 24) →
    let u := s.take m
    let i := bitsOf 12 8 ((s.reqOf m).w 1)
    let posted (x : Scope) : State := u.modHm fun y => { y with resets := y.resets ++ [(x, m.val, u.time.tick)] }
    let b := berthResetEnd i (u.scopeReset 2 i)
    (sc = 2 → b.bit (BERTH_STATE i) BERTH_STATE_RESETTING = true → exec (.reset m) s = .next (b.addLong (s.reqOf m) id).after)
    ∧ (¬(sc = 2 ∧ b.bit (BERTH_STATE i) BERTH_STATE_RESETTING = true) →
      exec (.reset m) s = .next (s.hmAnswers m (if sc = 0 then posted .chip else if sc = 1 then posted .core else if sc = 2 then b
        else if sc = 3 then posted .causeway else portResetEnd i (u.scopeReset 4 i)) (0, []))))
  ∧ (∀ (s : State) (m : Fin 16) (l : LongCmd), s.hmTakes m 0x04 1 false → (s.take m).longOf (bitsOf 3 0 ((s.reqOf m).w 1)) = some l →
    (l.code = 0x10 ∨ l.code = 0x11 ∨ l.code = 0x12) →
    exec (.mbAbort m) s = .next (s.hmAnswers m ((s.take m).endLong l (11, imgWords { bytes := l.image })) (0, [])))
  ∧ (∀ (s : State) (m : Fin 16) (l : LongCmd), s.hmTakes m 0x04 1 false → (s.take m).longOf (bitsOf 3 0 ((s.reqOf m).w 1)) = some l →
    (l.code = 0x60 ∨ l.code = 0x61) →
    let n := bitsOf 4 0 (l.words.headD 0)
    let u := s.take m
    (u.axWaits n 9 = true ∨ ((u.axOf n).st ≠ .idle ∧ (u.axOf n).st ≠ .fault)) →
    exec (.mbAbort m) s = .next ((if l.aborters.isEmpty then u.hmW (AX_CMD n) 2 else u).setLong { l with
      aborters := l.aborters ++ [(m.val, (s.reqOf m).tag, (s.reqOf m).flags)] }).after)
  ∧ (∀ (s : State) (m : Fin 16), s.hmTakes m 0x05 1 false → s.rst.vinBad = false → bitOf 15 ((s.reqOf m).w 1) = false →
    exec (.securitySet m) s = .next (let u := s.take m
      s.hmAnswers m { u with nv := { u.nv with enforce := bitOf 0 ((s.reqOf m).w 1) } } (0, [])))
  ∧ (∀ (s : State) (m : Fin 16), s.hmTakes m 0x05 9 false → s.rst.vinBad = false → bitOf 15 ((s.reqOf m).w 1) = true →
    exec (.securitySet m) s = .next (let u := s.take m
      s.hmAnswers m { u with nv := { u.nv with enforce := bitOf 0 ((s.reqOf m).w 1)
                                               keys := (u.nv.keys ++ List.replicate (4 - u.nv.keys.length) []).set (bitsOf 9 8 ((s.reqOf m).w 1))
                                                 ((((s.reqOf m).ws.drop 1).take 8).flatMap (leBytes 4)) } } (0, [])))
  ∧ (∀ (s : State) (m : Fin 16), s.hmTakes m 0x70 0 false →
    exec (.logFreeze m) s = .next (s.hmAnswers m ((s.take m).hmW LOG_CTL 1) (0, [])))
  ∧ (∀ (s : State) (m : Fin 16), s.hmTakes m 0x72 0 false →
    exec (.logThaw m) s = .next (s.hmAnswers m ((s.take m).hmW LOG_CTL 0) (0, [])))
  ∧ (∀ (s : State) (m : Fin 16), s.hmTakes m 0x71 1 false → bitsOf 15 8 ((s.reqOf m).w 1) < 28 →
    logCodeUsed (bitsOf 7 0 ((s.reqOf m).w 1)) = true →
    exec (.logRead m) s = .next (let off := bitsOf 15 8 ((s.reqOf m).w 1)
      let p := (logOperationEnd (((s.take m).hmW LOG_SEL (bitsOf 7 0 ((s.reqOf m).w 1))).hmW LOG_CMD 1)).hmRs
        ((List.range (min 15 (28 - off))).map fun i => LOG_REC (off + i))
      s.hmAnswers m p.1 (0, p.2)))
  ∧ (∀ (s : State) (m : Fin 16) (u : State), s.hmTakes m 0x80 2 false → linkExists ((s.reqOf m).w 1) = true →
    (s.take m).cmdWrites [(TEST_LINK_CTL ((s.reqOf m).w 1), (s.reqOf m).w 2, 2)] = (u, none) →
    exec (.testPattern m) s = .next (s.hmAnswers m u (0, [])))
  ∧ (∀ (s : State) (m : Fin 16), s.hmTakes m 0x81 1 false → linkExists ((s.reqOf m).w 1) = true →
    exec (.testResult m) s = .next (let l := (s.reqOf m).w 1
      let p := (s.take m).hmRs [TEST_LINK_STATE l, TEST_LINK_ERR l, TEST_LINK_BITS l]
      s.hmAnswers m p.1 (0, p.2)))
  ∧ (∀ (s : State) (m : Fin 16) (r : Scope × Nat × Nat), s.rst.chip = false → s.rst.core = false →
    s.hm.resets.find? (fun r => r.2.1 == m.val) = some r → ((s.mbOf (16 + m)).full = false ∨ r.2.2 + 250000 ≤ s.time.tick) →
    exec (.resetBegin m) s = .next ((s.modHm fun h => { h with resets := h.resets.filter (fun x => x.2.1 != m.val) }).scopeReset
      (match r.1 with | .chip => 0 | .core => 1 | .causeway => 3) 0).after)

/-- The harbourmaster takes images, edits MRAM slots, and creates, assigns, starts, stops and reloads berths. A request that is taken and passes its
checks is carried out; a long command begins. Every clause concludes with the next state that exec answers, under hypotheses on the state and the
operands alone. The answers rest on the model's readings of logs 81, 82 and 83 where the rules are silent. Commands: IMAGE_LOAD, IMAGE_VERIFY,
MRAM_STORE, MRAM_ERASE, MRAM_LIST, BERTH_CREATE, BERTH_ASSIGN, BERTH_START, BERTH_STOP, GRACE_EXPIRY, BERTH_RELOAD. -/
def Obligations.HarbourmasterTakesImagesAndBerths : Prop :=
  (∀ (s : State) (m : Fin 16) (ext : Option (List (BitVec 8))) (u : State) (o : ImgOut), s.hmTakes m 0x10 4 true → s.cw.lock = none →
    imgReqBad (s.reqOf m).ws 1 = none → (s.take m).romServes = false →
    (s.take m).imgFetch .load (imgReqOf (s.reqOf m).ws) (ext.map fun l => l.map BitVec.toNat) = (u, o) → o.detail = 0 →
    exec (.imageLoad m ext) s = .next (u.addLong (s.reqOf m) fun l => { l with image := o.bytes }).after)
  ∧ (∀ (s : State) (m : Fin 16) (ext : Option (List (BitVec 8))) (u : State) (o : ImgOut), s.hmTakes m 0x11 4 true → s.cw.lock = none →
    imgReqBad (s.reqOf m).ws 1 = none → (s.take m).imgFetch .keep (imgReqOf (s.reqOf m).ws) (ext.map fun l => l.map BitVec.toNat) = (u, o) →
    o.detail = 0 →
    exec (.imageVerify m ext) s = .next (u.addLong (s.reqOf m) fun l => { l with image := o.bytes }).after)
  ∧ (∀ (s : State) (m : Fin 16) (ext : Option (List (BitVec 8))) (u : State) (o : ImgOut), s.hmTakes m 0x12 4 true → s.cw.lock = none →
    imgReqBad (s.reqOf m).ws 1 = none → (imgReqOf (s.reqOf m).ws).source ≠ 2 →
    (s.take m).imgFetch .keep (imgReqOf (s.reqOf m).ws) (ext.map fun l => l.map BitVec.toNat) = (u, o) → o.detail = 0 →
    exec (.mramStore m ext) s = .next (u.addLong (s.reqOf m) fun l => { l with image := o.bytes }).after)
  ∧ (∀ (s : State) (m : Fin 16) (a : Nat), s.hmTakes m 0x13 1 false →
    let u := (s.take m).slotRead (bitsOf 5 0 ((s.reqOf m).w 1))
    u.slotValid (bitsOf 5 0 ((s.reqOf m).w 1)) = some a →
    exec (.mramErase m) s = .next (s.hmAnswers m (u.slotErase (bitsOf 5 0 ((s.reqOf m).w 1)) a) (0, [])))
  ∧ (∀ (s : State) (m : Fin 16) (a : Nat), s.hmTakes m 0x14 1 false →
    let u := (s.take m).slotRead (bitsOf 5 0 ((s.reqOf m).w 1))
    u.slotValid (bitsOf 5 0 ((s.reqOf m).w 1)) = some a →
    exec (.mramList m) s = .next (let b := u.rdBytes a 64
      s.hmAnswers m u (0, [2 ^ 8 * manType b, manVersion b, manTarget b, u.slotWord a 17])))
  ∧ (∀ (s : State) (m : Fin 16), s.hmTakes m 0x20 3 false →
    let r := s.reqOf m
    let b := bitsOf 4 0 (r.w 1)
    let u := s.take m
    let v := u.hmW (BERTH_CFG b) (r.w 2)
    b < 24 → u.discards (BERTH_CFG b) (w32 (r.w 2)) = false → v.discards (BERTH_FQ b) (w32 (r.w 3)) = false →
    exec (.berthCreate m) s = .next (s.hmAnswers m (v.hmW (BERTH_FQ b) (r.w 3)) (0, [])))
  ∧ (∀ (s : State) (m : Fin 16), s.hmTakes m 0x21 2 false →
    let r := s.reqOf m
    let b := bitsOf 4 0 (r.w 1)
    let u := s.take m
    b < 24 → u.discards (BERTH_RES b) (w32 (r.w 2)) = false →
    exec (.berthAssign m) s = .next (s.hmAnswers m (u.hmW (BERTH_RES b) (r.w 2)) (0, [])))
  ∧ (∀ (s : State) (m : Fin 16), s.hmTakes m 0x22 1 false →
    let b := bitsOf 4 0 ((s.reqOf m).w 1)
    let u := s.take m
    b < 24 → (∀ n ∈ u.berthEngines b, (u.qeOf n).run = .stopped) →
    exec (.berthStart m) s = .next (s.hmAnswers m (u.hmW (BERTH_CTL b) 1) (0, [])))
  ∧ (∀ (s : State) (m : Fin 16) (l : LongCmd), s.hmTakes m 0x23 1 true → bitsOf 4 0 ((s.reqOf m).w 1) < 24 →
    ((s.take m).addLong (s.reqOf m) id).longOf m = some l →
    exec (.berthStop m) s = .next (((s.take m).addLong (s.reqOf m) id).stopBegin l).after)
  ∧ (∀ (s : State) (m : Fin 16) (l : LongCmd), s.rst.chip = false → s.rst.core = false → s.longOf m = some l →
    let w := l.words.headD 0
    let b := bitsOf 4 0 w
    (l.code = 0x23 ∨ l.code = 0x24) → l.stage = 1 → s.firmwareServes = true → s.berthStopped b = false → l.since + 250 * bitsOf 31 16 w ≤ s.time.tick →
    exec (.graceExpiry m) s = .next ((s.hmW (BERTH_CTL b) 4).setLong { l with stage := 2, resetUsed := true }).after)
  ∧ (∀ (s : State) (m : Fin 16) (ext : Option (List (BitVec 8))) (u : State) (o : ImgOut), s.hmTakes m 0x24 5 true → s.cw.lock = none →
    bitsOf 4 0 ((s.reqOf m).w 1) < 24 → imgReqBad ((s.reqOf m).ws.drop 1) 2 = none →
    (s.take m).imgFetch (.reload ((s.take m).fld (BERTH_CFG (bitsOf 4 0 ((s.reqOf m).w 1))) BERTH_CFG_ENGINES)) (imgReqOf ((s.reqOf m).ws.drop 1)) (ext.map fun l => l.map BitVec.toNat) = (u, o) →
    o.detail = 0 →
    exec (.berthReload m ext) s = .next (u.addLong (s.reqOf m) fun l => { l with image := o.bytes }).after)

/-- The harbourmaster drives the tide engine, the ports and the stream contexts. A request that is taken and passes its checks is carried out through
the registers and answered; a long command begins. Every clause concludes with the next state that exec answers, under hypotheses on the state and
the operands alone. Commands: TIDE_VALIDATE, TIDE_SWAP, TIDE_START, TIDE_STOP, PORT_SET, PORT_STATUS, STREAM_SET, STREAM_GET. -/
def Obligations.HarbourmasterDrivesTideAndPorts : Prop :=
  (∀ (s : State) (m : Fin 16), s.hmTakes m 0x30 1 true →
    let b := bitsOf 0 0 ((s.reqOf m).w 1)
    (s.take m).bankHeld b = false → exec (.tideValidate m) s = .next (((s.take m).hmW TIDE_CMD (2 ^ b)).addLong (s.reqOf m) id).after)
  ∧ (∀ (s : State) (m : Fin 16) (u : State), s.hmTakes m 0x31 2 true →
    (s.take m).cmdWrites [(TIDE_SWAP_AT_NS, (s.reqOf m).w 1, 1), (TIDE_SWAP_AT_SEC, (s.reqOf m).w 2, 2)] = (u, none) →
    exec (.tideSwap m) s = .next ((u.hmW TIDE_CMD 16).addLong (s.reqOf m) fun l => { l with index := u.activeBank }).after)
  ∧ (∀ (s : State) (m : Fin 16) (u v : State), s.hmTakes m 0x32 3 false →
    (s.take m).cmdWrites [(TIDE_BASE_NS, (s.reqOf m).w 2, 2), (TIDE_BASE_SEC, (s.reqOf m).w 3, 3)] = (u, none) →
    let c := 1 + 2 * bitsOf 0 0 ((s.reqOf m).w 1)
    u.cmdWrites [(TIDE_CTL, c, 1)] = (v, none) → u.setsBit TIDE_CTL c TIDE_STATUS TIDE_STATUS_START_REFUSED = false →
    exec (.tideStart m) s = .next (s.hmAnswers m v (0, [])))
  ∧ (∀ (s : State) (m : Fin 16), s.hmTakes m 0x33 0 false →
    exec (.tideStop m) s = .next (let u := s.take m
      s.hmAnswers m (u.hmW TIDE_CTL (2 * u.fld TIDE_CTL TIDE_CTL_START_BANK)) (0, [])))
  ∧ (∀ (s : State) (m : Fin 16) (v : State), s.hmTakes m 0x40 6 false →
    let r := s.reqOf m
    let n := bitsOf 2 0 (r.w 1)
    let u := s.take m
    let ctl := w32 (r.w 2)
    n < 6 → (u.fld (PORT_CTL n) PORT_CTL_MODE = PORT_CTL_MODE.get ctl ∨ u.fld (PORT_CTL n) PORT_CTL_MODE = 0 ∨ PORT_CTL_MODE.get ctl = 0) →
    u.cmdWrites [(PORT_AN_ADV n, r.w 3, 3), (PORT_FC_CTL n, r.w 4, 4), (PORT_EEE_CTL n, r.w 5, 5), (PORT_MM_CTL n, r.w 6, 6),
      (PORT_CTL n, (PORT_CTL_RESTART_AN.put ctl 1).toNat, 2)] = (v, none) →
    exec (.portSet m) s = .next (s.hmAnswers m v (0, [])))
  ∧ (∀ (s : State) (m : Fin 16), s.hmTakes m 0x41 1 false →
    let n := bitsOf 2 0 ((s.reqOf m).w 1)
    n < 6 → exec (.portStatus m) s = .next (let p := (s.take m).hmRs [PORT_LINK n, PORT_STATUS n, PORT_MM_STATUS n]
      s.hmAnswers m p.1 (0, p.2)))
  ∧ (∀ (s : State) (m : Fin 16) (u : State), s.hmTakes m 0x42 9 false →
    ((s.take m).clrB STREAM_CMD STREAM_CMD_BUSY).cmdWrites ((STREAM_SEL, bitsOf 9 0 ((s.reqOf m).w 1), 1) :: strWinRegs.mapIdx (fun i a => (a, (s.reqOf m).w (i + 2), i + 2))) = (u, none) →
    exec (.streamSet m) s = .next (s.hmAnswers m ((u.hmW STREAM_CMD 2).clrB STREAM_CMD STREAM_CMD_BUSY) (0, [])))
  ∧ (∀ (s : State) (m : Fin 16), s.hmTakes m 0x43 1 false →
    exec (.streamGet m) s = .next (let u := ((s.take m).clrB STREAM_CMD STREAM_CMD_BUSY).hmW STREAM_SEL (bitsOf 9 0 ((s.reqOf m).w 1))
      let p := ((u.hmW STREAM_CMD 1).clrB STREAM_CMD STREAM_CMD_BUSY).hmRs strCntRegs
      s.hmAnswers m p.1 (0, p.2)))

/-- The harbourmaster drives the time base, the axes and the groups, and ends its long commands. A request that is taken and passes its checks is
carried out through the registers and answered; a long command begins, and ends with its response. Every clause concludes with the next state that
exec answers, under hypotheses on the state and the operands alone. The answers rest on the model's readings of logs 82, 83 and 111 where the
rules are silent. Commands: TIME_GET, TIME_CORRECT, TIME_STATE, AXIS_MOVE, AXIS_HOME, AXIS_STOP, GROUP_MOVE, LONG_COMMAND_END. -/
def Obligations.HarbourmasterDrivesTimeAndMotion : Prop :=
  (∀ (s : State) (m : Fin 16), s.hmTakes m 0x50 0 false →
    exec (.timeGet m) s = .next (let p := (s.take m).hmRs [TIME_NOW_FRAC, TIME_NOW_NS, TIME_NOW_SEC_LO, TIME_NOW_SEC_HI, TIME_CTL, TIME_INC_LO, TIME_INC_HI]
      let l := p.2
      s.hmAnswers m p.1 (0, [l.getD 1 0, l.getD 2 0, l.getD 3 0 % 2 ^ 16 + 2 ^ 16 * (l.getD 4 0 % 4), l.getD 5 0, l.getD 6 0])))
  ∧ (∀ (s : State) (m : Fin 16) (u v : State), s.hmTakes m 0x51 9 false →
    (s.take m).cmdWrites [(TIME_STEP_LO, (s.reqOf m).w 2, 2), (TIME_STEP_HI, (s.reqOf m).w 3, 3), (TIME_INC_LO, (s.reqOf m).w 4, 4), (TIME_INC_HI, (s.reqOf m).w 5, 5), (TIME_SET_FRAC, (s.reqOf m).w 6, 6), (TIME_SET_NS, (s.reqOf m).w 7, 7), (TIME_SET_SEC_LO, (s.reqOf m).w 8, 8), (TIME_SET_SEC_HI, (s.reqOf m).w 9, 9)] = (u, none) →
    u.cmdWrites [(TIME_CMD, (s.reqOf m).w 1, 1)] = (v, none) →
    (v.clrB TIME_STATUS TIME_STATUS_JUMP_REFUSED).timeApplied.bit TIME_STATUS TIME_STATUS_JUMP_REFUSED = false →
    exec (.timeCorrect m) s = .next (let p := v.timeApplied.hmR TIME_STATUS
      s.hmAnswers m p.1 (0, [p.2])))
  ∧ (∀ (s : State) (m : Fin 16) (u : State), s.hmTakes m 0x52 2 false →
    (s.take m).cmdWrites [(TIME_CTL, (s.reqOf m).w 1, 1), (TIME_WDOG, (s.reqOf m).w 2, 2)] = (u, none) →
    exec (.timeState m) s = .next (s.hmAnswers m u (0, [])))
  ∧ (∀ (s : State) (m : Fin 16) (u : State), s.hmTakes m 0x60 6 true →
    let r := s.reqOf m
    let n := bitsOf 4 0 (r.w 1)
    (s.take m).cmdWrites [(AX_TARGET_LO n, r.w 2, 2), (AX_TARGET_HI n, r.w 3, 3), (AX_VMAX n, r.w 4, 4), (AX_ACC n, r.w 5, 5), (AX_DEC n, r.w 6, 6)]
      = (u, none) →
    exec (.axisMove m) s = .next ((u.hmW (AX_CMD n) 1).addLong r id).after)
  ∧ (∀ (s : State) (m : Fin 16), s.hmTakes m 0x61 1 true →
    let n := bitsOf 4 0 ((s.reqOf m).w 1)
    exec (.axisHome m) s = .next (((s.take m).hmW (AX_CMD n) 8).addLong (s.reqOf m) id).after)
  ∧ (∀ (s : State) (m : Fin 16), s.hmTakes m 0x62 1 false →
    exec (.axisStop m) s = .next (let w := (s.reqOf m).w 1
      s.hmAnswers m ((s.take m).hmW (AX_CMD (bitsOf 4 0 w)) (if bitOf 8 w then 4 else 2)) (0, [])))
  ∧ (∀ (s : State) (m : Fin 16), s.hmTakes m 0x63 1 true →
    let g := bitsOf 2 0 ((s.reqOf m).w 1)
    exec (.groupMove m) s = .next (((s.take m).hmW (GRP_CMD g) 1).addLong (s.reqOf m) id).after)
  ∧ (∀ (s : State) (m : Fin 16) (l : LongCmd), s.rst.chip = false → s.rst.core = false → s.firmwareServes = true → s.longOf m = some l → s.cw.lock = none → l.aborters = [] →
    l.code = 0x23 → s.berthStopped (bitsOf 4 0 (l.words.headD 0)) = true →
    exec (.longCommandEnd m) s = .next (s.endLong l (0, [b2n l.resetUsed])).after)
  ∧ (∀ (s : State) (m : Fin 16) (l : LongCmd), s.rst.chip = false → s.rst.core = false → s.firmwareServes = true → s.longOf m = some l → s.cw.lock = none → l.aborters = [] →
    l.code = 0x11 →
    exec (.longCommandEnd m) s = .next (s.endLong l (0, imgWords { bytes := l.image })).after)
  ∧ (∀ (s : State) (m : Fin 16) (l : LongCmd), s.rst.chip = false → s.rst.core = false → s.firmwareServes = true → s.longOf m = some l → s.cw.lock = none → l.aborters = [] →
    l.code = 0x31 → s.swapArmed = false → s.tide.commit = false → s.activeBank ≠ l.index →
    exec (.longCommandEnd m) s = .next (let p := s.hmR TIDE_BASE_CNT
      p.1.endLong l (0, [p.2])).after)
  ∧ (∀ (s : State) (m : Fin 16) (l : LongCmd), s.rst.chip = false → s.rst.core = false → s.firmwareServes = true → s.longOf m = some l → s.cw.lock = none → l.aborters = [] →
    l.code = 0x60 →
    let n := bitsOf 4 0 (l.words.headD 0)
    s.axWaits n 1 = false → (s.axOf n).refused = false → (s.axOf n).st = .idle →
    exec (.longCommandEnd m) s = .next (let p := s.hmRs [AX_STATUS n, AX_STATE n]
      p.1.endLong l (0, p.2)).after)
  ∧ (∀ (s : State) (m : Fin 16) (l : LongCmd) (q : Nat × Nat × Nat) (qs : List (Nat × Nat × Nat)), s.rst.chip = false → s.rst.core = false → s.firmwareServes = true →
    s.longOf m = some l → s.cw.lock = none → l.aborters = q :: qs → l.code = 0x60 →
    let n := bitsOf 4 0 (l.words.headD 0)
    s.axWaits n 2 = false → (s.axOf n).refused = false →
    exec (.longCommandEnd m) s = .next (let p := s.hmRs [AX_STATUS n, AX_STATE n]
      (q :: qs).foldl (fun u x => u.mbPost x.1 0x04 x.2.1 x.2.2 (if (s.axOf n).late then 12 else 0, []))
        (p.1.endLong l (if (s.axOf n).late then 0 else 11, p.2))).after)
end

