-- ==== Sys2Proof/Laws/Access.lean ====
section
/-! SUPPORT. Register accesses that are served: what a write that is taken and a read come to, once for every register. -/
namespace Sys2Proof.Machine

/-! ## What a passed lock leaves -/

/-- A lock that has been passed changes the list of waiting accesses at most. -/
theorem State.lockPassed_eq (s : State) (who : Initiator) (a : Nat) :
    s.lockPassed who a = { s with cw := { s.cw with waits := (s.lockPassed who a).cw.waits } } := by
  unfold State.lockPassed
  split <;> rfl

@[simp] theorem State.lockPassed_reg (s : State) (who : Initiator) (a b : Nat) : (s.lockPassed who a).reg b = s.reg b := by
  rw [State.lockPassed_eq]; rfl

/-! ## What the acceptance of an access leaves -/

/-- Forgetting accesses changes the causeway's record at most. -/
theorem State.forget_eq (s : State) (p : WaitAcc → Bool) : s.forget p = { s with cw := (s.forget p).cw } := by
  unfold State.forget
  split <;> rfl

/-- Forgetting accesses leaves none that has not been there. -/
theorem State.forget_ended (s : State) (p : WaitAcc → Bool) {who : Initiator} {a : Nat} (h : s.ended who a = none) : (s.forget p).ended who a = none := by
  unfold State.forget
  split
  · simp only [State.ended, List.find?_eq_none, List.mem_filter] at h ⊢
    exact fun x hx => h x hx.1
  · exact h

/-- Discarding the fetches of held reads changes the causeway's record at most. -/
theorem State.dropFetches_eq (s : State) (k : Nat) (l : List Delayed) : s.dropFetches k l = { s with cw := (s.dropFetches k l).cw } := by
  unfold State.dropFetches
  split
  · rfl
  · dsimp only
    rw [State.forget_eq]; rfl

theorem State.dropFetches_ended (s : State) (k : Nat) (l : List Delayed) {who : Initiator} {a : Nat} (h : s.ended who a = none) :
    (s.dropFetches k l).ended who a = none := by
  unfold State.dropFetches
  split
  · exact h
  · exact State.forget_ended _ _ h

@[simp] theorem State.dropFetches_lock (s : State) (k : Nat) (l : List Delayed) : (s.dropFetches k l).cw.lock = s.cw.lock := by
  unfold State.dropFetches State.forget
  dsimp only
  repeat' split
  all_goals rfl

/-- A request that takes no buffer back finds one, or goes on without. -/
theorem State.findsRoom_eq {s : State} {who : Initiator} {a k : Nat} (hk : ifNum who = some k) (h : s.needsRoom who a = false) : s.findsRoom who a = s := by
  simp only [State.needsRoom, hk, Option.isSome_some, Bool.true_and, Bool.and_eq_false_iff, Bool.not_eq_false'] at h
  unfold State.findsRoom
  rcases h with h | h
  · rw [if_pos h]
  · split
    · rfl
    · simp only [State.inboundRoom, h, Bool.not_false, if_true]

/-- Accepting a write that takes no buffer back changes the causeway's record at most. -/
theorem State.admitWrite_eq {s : State} {who : Initiator} {a : Nat} (h : s.needsRoom who a = false) (n : Nat) :
    s.admitWrite who a n = { s with cw := (s.admitWrite who a n).cw } := by
  unfold State.admitWrite
  split
  · split
    · rename_i k hk _
      rw [State.findsRoom_eq hk h]
      unfold State.countWrite
      rw [State.dropFetches_eq]; rfl
    · rfl
  · rfl

/-- Accepting a read that takes no buffer back changes the causeway's record at most. -/
theorem State.admitRead_eq {s : State} {who : Initiator} {a : Nat} (h : s.needsRoom who a = false) :
    s.admitRead who a = { s with cw := (s.admitRead who a).cw } := by
  unfold State.admitRead
  split
  · rename_i k hk
    rw [State.findsRoom_eq hk h]
    dsimp only
    split <;> rfl
  · rfl

/-- What a target serves it serves after such an acceptance too. -/
theorem State.admitWrite_serves {s : State} {who who' : Initiator} {a b : Nat} (h : s.needsRoom who a = false) (n : Nat)
    (hs : s.serves who' b = true) : (s.admitWrite who a n).serves who' b = true := by
  have he : s.ended who' b = none → (s.admitWrite who a n).ended who' b = none := fun e => by
    unfold State.admitWrite
    split
    · split
      · rename_i k hk _
        rw [State.findsRoom_eq hk h]
        exact State.dropFetches_ended (s.dropLines k) k _ e
      · exact e
    · exact e
  have hl : (s.admitWrite who a n).cw.lock = s.cw.lock := by
    unfold State.admitWrite
    split
    · split
      · rename_i k hk _
        rw [State.findsRoom_eq hk h]
        exact State.dropFetches_lock (s.dropLines k) k _
      · rfl
    · rfl
  simp only [State.serves, Bool.and_eq_true, Bool.not_eq_true', Option.isNone_iff_eq_none] at hs ⊢
  obtain ⟨⟨h1, h2⟩, h3⟩ := hs
  refine ⟨⟨?_, he h2⟩, ?_⟩
  · rw [State.admitWrite_eq h]; exact h1
  · simp only [State.lockedOut, hl]
    rw [State.admitWrite_eq h]
    exact h3

theorem State.admitRead_serves {s : State} {who who' : Initiator} {a b : Nat} (h : s.needsRoom who a = false)
    (hs : s.serves who' b = true) : (s.admitRead who a).serves who' b = true := by
  unfold State.admitRead
  split
  · rename_i k hk
    rw [State.findsRoom_eq hk h]
    dsimp only
    split <;> exact hs
  · exact hs

/-- Accepting and making a write changes the causeway's record at most. -/
theorem State.atWrite_eq {s : State} {who : Initiator} {a : Nat} (h : s.needsRoom who a = false) :
    s.atWrite who a = { s with cw := (s.atWrite who a).cw } := by
  unfold State.atWrite
  rw [State.lockPassed_eq, State.admitWrite_eq h]

/-- Accepting and making a read changes the causeway's record at most. -/
theorem State.atRead_eq {s : State} {who : Initiator} {a : Nat} (h : s.needsRoom who a = false) :
    s.atRead who a = { s with cw := (s.atRead who a).cw } := by
  unfold State.atRead
  rw [State.lockPassed_eq, State.admitRead_eq h]

@[simp] theorem State.atWrite_reg {s : State} {who : Initiator} {a : Nat} (h : s.needsRoom who a = false) (b : Nat) :
    (s.atWrite who a).reg b = s.reg b := by
  rw [State.atWrite_eq h]; rfl

@[simp] theorem State.atRead_reg {s : State} {who : Initiator} {a : Nat} (h : s.needsRoom who a = false) (b : Nat) :
    (s.atRead who a).reg b = s.reg b := by
  rw [State.atRead_eq h]; rfl

theorem State.answers_room {s : State} {who : Initiator} {a : Nat} (h : s.answers who a = true) : s.needsRoom who a = false := by
  simp only [State.answers, Bool.and_eq_true, Bool.not_eq_true'] at h; exact h.1.2

/-! ## Writes -/

theorem regionOf_register {a : Nat} (h : isRegister a = true) : regionOf a = some (.regs (blockOf a), 0x40000000 + blockOf a * 0x10000) := by
  simp only [isRegister, Bool.and_eq_true, decide_eq_true_eq] at h
  unfold regionOf
  simp only [show ¬a < 0x10000 by omega, show ¬(0x08000000 ≤ a ∧ a < 0x08020000) by omega, show ¬(0x08100000 ≤ a ∧ a < 0x08140000) by omega,
    show ¬(0x10000000 ≤ a ∧ a < 0x10100000) by omega, show ¬(0x20000000 ≤ a ∧ (a - 0x20000000) / 0x20000 < 24) by omega,
    show ¬(0x30000000 ≤ a ∧ a < 0x30200000) by omega, show ¬(0x38000000 ≤ a ∧ a < 0x38040000) by omega,
    show ¬(0x39000000 ≤ a ∧ a < 0x39040000) by omega, show ¬(0x3A000000 ≤ a ∧ a < 0x3A020000) by omega,
    show ¬(0x3A020000 ≤ a ∧ a < 0x3A040000) by omega, show ¬(0x3B000000 ≤ a ∧ a < 0x3B002000) by omega,
    show ¬(0x3C000000 ≤ a ∧ a < 0x3C004000) by omega, h, and_self, if_true, if_false]

/-- The bytes of a word are the word. -/
theorem ofLe_leBytes (n v : Nat) : ofLe (leBytes n v) = v % 2 ^ (8 * n) := by
  induction n generalizing v with
  | zero => simp [leBytes, ofLe, Nat.mod_one]
  | succ n ih =>
    simp only [leBytes, ofLe, ih]
    rw [show 8 * (n + 1) = 8 + 8 * n by omega, Nat.pow_add, Nat.mod_mul, Nat.mod_mod]

@[simp] theorem leBytes_length (n v : Nat) : (leBytes n v).length = n := by
  induction n generalizing v with
  | zero => rfl
  | succ n ih => simp [leBytes, ih]

@[simp] theorem w32_toNat (w : Word) : w32 w.toNat = w := by simp [w32]

/-- Below the outbound windows an initiator has one access at an address (R396). -/
theorem State.ended_write (s : State) (who : Initiator) {a : Nat} (h : a < 0x80000000) : s.ended who a true = s.ended who a := by
  have e (x : WaitAcc) : x.isOf who a true = x.isOf who a false := by simp only [WaitAcc.isOf, h, decide_true, Bool.true_or]
  simp only [State.ended, e]

/-- A register write that is served goes to its block. -/
theorem State.busWrite_register {s : State} {who : Initiator} {a : Nat} (w : Word) (h : s.serves who a = true) (hr : isRegister a = true)
    (h4 : a % 4 = 0) : s.busWrite who a (leBytes 4 w.toNat) = (s.lockPassed who a).regWrite who a w := by
  simp only [State.serves, regionOf_register hr, Bool.and_eq_true, Bool.not_eq_true', Option.isNone_iff_eq_none] at h
  obtain ⟨⟨h1, h2⟩, h3, h5⟩ := h
  have h3' : ¬(s.rst.core = true ∧ (Region.regs (blockOf a)).coreHeld = true) := by simpa using h3
  have hw : w32 (ofLe (leBytes 4 w.toNat)) = w := by
    rw [ofLe_leBytes, Nat.mod_eq_of_lt (by simpa using w.isLt), w32_toNat]
  have ha : a < 0x80000000 := by simp only [isRegister, Bool.and_eq_true, decide_eq_true_eq] at hr; omega
  simp only [State.busWrite, h1, State.ended_write s who ha, h2, regionOf_register hr, h3', h5, leBytes_length, h4, hw, and_self, if_true, if_false, Bool.false_eq_true]

/-- The register at `a`: its block, the address of its first instance, its row and its instance numbers. -/
structure RegAt (a k a0 : Nat) (row : RegRow) (l : List Nat) : Prop where
  find  : findReg a = some (row, l)
  block : blockOf a = k
  first : 0x40000000 + k * 0x10000 + row.off = a0
  isReg : isRegister a = true
  align : a % 4 = 0

variable {s : State} {who : Initiator} {a k a0 : Nat} {w : Word} {row : RegRow} {l : List Nat}

theorem State.answers_serves (h : s.answers who a = true) : s.serves who a = true := by
  simp only [State.answers, Bool.and_eq_true] at h; exact h.2

theorem State.answers_chip (h : s.answers who a = true) : s.rst.chip = false := by
  have h1 := State.answers_serves h
  simp only [State.serves, Bool.and_eq_true, Bool.not_eq_true'] at h1; exact h1.1.1

/-- A write that is answered is made at once, in the state that its acceptance leaves. -/
theorem State.inTurn_write (h : s.answers who a = true) {bs : List Nat} (hb : bs.isEmpty = false) (p : TlpHead) (f : State → State × BusEnd × Nat) :
    s.inTurn who a bs p f = State.record who a
      (if s.posts who a then State.writeMade who a (s.writeSeq who) bs (f (s.admitWrite who a bs.length)) else f (s.admitWrite who a bs.length)) := by
  simp only [State.answers, Bool.and_eq_true] at h
  obtain ⟨⟨⟨h1, h2⟩, -⟩, -⟩ := h
  simp only [State.inTurn, h1, h2, hb, Bool.not_true, Bool.false_eq_true, if_false, if_true]

/-- A read that is answered, meets no fence and ends well is made at once, in the state that its acceptance leaves. -/
theorem State.inTurn_read (h : s.readTaken who a = true) (p : TlpHead) (f : State → State × BusEnd × Nat)
    (hf : (f (s.admitRead who a)).2.1 ≠ .busError) : s.inTurn who a [] p f = State.record who a (f (s.admitRead who a)) := by
  simp only [State.readTaken, State.answers, Bool.and_eq_true, Bool.not_eq_true'] at h
  obtain ⟨⟨⟨⟨h1, h2⟩, -⟩, -⟩, h3⟩ := h
  simp only [State.inTurn, h1, h2, h3, List.isEmpty_nil, Bool.not_true, Bool.false_eq_true, if_false, if_true]
  cases hk : ifNum who
  · simp only [State.admitRead, hk]
  · simp only [State.readMade, hf, and_false, if_false]

theorem State.writeTaken_answers (h : s.writeTaken who a w = true) : s.answers who a = true := by
  simp only [State.writeTaken, Bool.and_eq_true] at h; exact h.1

theorem State.writeTaken_chip (h : s.writeTaken who a w = true) : s.rst.chip = false := State.answers_chip (State.writeTaken_answers h)

/-- A register write that is taken: the fields by their access codes, then what the block does beside. -/
theorem State.rowWrite_taken (h : s.writeTaken who a w = true) (r : RegAt a k a0 row l) :
    s.rowWrite who a w = (blockHook who k a0 (l.headD 0) (s.reg a) w ((s.atWrite who a).stored a a0 row w)).noted who a 0 := by
  have ha := State.writeTaken_answers h
  obtain ⟨hf, hb, h0, hr, h4⟩ := r
  simp only [State.writeTaken, hf, hb, h0, Bool.and_eq_true, Bool.not_eq_true', Option.isNone_iff_eq_none] at h
  obtain ⟨-, ⟨h1, h2⟩, h3⟩ := h
  have hn := State.answers_room ha
  have hu : (s.admitWrite who a 4).serves who a = true := State.admitWrite_serves hn 4 (State.answers_serves ha)
  have hw : (s.admitWrite who a 4).busWrite who a (leBytes 4 w.toNat)
      = (blockHook who k a0 (l.headD 0) (s.reg a) w ((s.atWrite who a).stored a a0 row w), .done) := by
    rw [State.busWrite_register w hu hr h4]
    change (s.atWrite who a).regWrite who a w = _
    simp only [State.regWrite, hf, hb, h0, h1, h2, h3, Option.isSome_none, State.atWrite_reg hn, if_false, Bool.false_eq_true]
  have hl : (leBytes 4 w.toNat).isEmpty = false := rfl
  rw [State.rowWrite, State.inTurn_write ha hl, leBytes_length]
  simp only [hw, State.noted, State.writeMade]
  split
  · split <;> first | rfl | contradiction
  · rfl

/-- A command that is a register write which is taken. -/
theorem writeReg_taken (h : s.writeTaken who a w = true) (r : RegAt a k a0 row l) :
    writeReg who a w s
      = .next ((blockHook who k a0 (l.headD 0) (s.reg a) w ((s.atWrite who a).stored a a0 row w)).noted who a 0).after := by
  simp only [writeReg, chipOn, answer, State.writeTaken_chip h, Bool.false_eq_true, if_false, State.rowWrite_taken h r]

theorem State.wordAfter_at (r : RegAt a k a0 row l) : s.wordAfter a w = row.written (s.reg a) w := by
  simp only [State.wordAfter, r.find]

/-- A register write that is taken, of a register that is no half of a 64-bit counter. -/
theorem State.rowWrite_did (h : s.writeTaken who a w = true) (r : RegAt a k a0 row l) (hc : isCount64 a0 = false) :
    s.rowWrite who a w
      = (blockHook who k a0 (l.headD 0) (s.reg a) w ((s.atWrite who a).setReg a (s.wordAfter a w))).noted who a 0 := by
  simp only [State.rowWrite_taken h r, State.wordAfter_at r, State.stored, hc, Bool.false_eq_true, if_false,
    State.atWrite_reg (State.answers_room (State.writeTaken_answers h))]

/-- A command that is a register write which is taken, of a register that is no half of a 64-bit counter. -/
theorem writeReg_did (h : s.writeTaken who a w = true) (r : RegAt a k a0 row l) (hc : isCount64 a0 = false) :
    writeReg who a w s = .next (s.did who a w fun u => blockHook who k a0 (l.headD 0) (s.reg a) w u) := by
  simp only [writeReg_taken h r, State.did, State.wordAfter_at r, State.stored, hc, Bool.false_eq_true, if_false,
    State.atWrite_reg (State.answers_room (State.writeTaken_answers h))]

/-! ## Reads -/

/-- A register read that is served goes to its block. -/
theorem State.busRead_register (h : s.serves who a = true) (hr : isRegister a = true) (h4 : a % 4 = 0) :
    s.busRead who a 4 = (s.lockPassed who a).regRead who a := by
  simp only [State.serves, regionOf_register hr, Bool.and_eq_true, Bool.not_eq_true', Option.isNone_iff_eq_none] at h
  obtain ⟨⟨h1, h2⟩, h3, h5⟩ := h
  have h3' : ¬(s.rst.core = true ∧ (Region.regs (blockOf a)).coreHeld = true) := by simpa using h3
  simp only [State.busRead, h1, h2, regionOf_register hr, h3', h5, h4, and_self, if_true, if_false, Bool.false_eq_true]

theorem State.readTaken_answers (h : s.readTaken who a = true) : s.answers who a = true := by
  simp only [State.readTaken, Bool.and_eq_true] at h; exact h.1

/-- A command that is a register read which is answered. -/
theorem readReg_gave (h : s.readTaken who a = true) (r : RegAt a k a0 row l) (hk : k ≠ 21) (ho : row.off ≠ 0xFFF0) (h1 : isCount64 a0 = false)
    (h2 : isCount64Hi a0 = false) :
    readReg who a s = .next (s.gave who a (((s.atRead who a).blockView k a0 (l.headD 0)).getD (s.reg a)).toNat fun u => blockRead who k a0 (l.headD 0) u) := by
  obtain ⟨hf, hb, h0, hr, h4⟩ := r
  have ha := State.readTaken_answers h
  have hn := State.answers_room ha
  have hu : (s.admitRead who a).serves who a = true := State.admitRead_serves hn (State.answers_serves ha)
  have hw : (s.admitRead who a).busRead who a 4
      = (blockRead who k a0 (l.headD 0) (s.atRead who a), .done, (((s.atRead who a).blockView k a0 (l.headD 0)).getD (s.reg a)).toNat) := by
    rw [State.busRead_register hu hr h4]
    change (s.atRead who a).regRead who a = _
    simp only [State.regRead, hf, hb, h0, hk, ho, h1, h2, State.atRead_reg hn, false_and, Bool.false_eq_true, if_false]
  have he : ((s.admitRead who a).busRead who a 4).2.1 ≠ .busError := by rw [hw]; exact BusEnd.noConfusion
  simp only [readReg, chipOn, answer, State.answers_chip ha, State.rowRead, State.inTurn_read h _ (fun s => s.busRead who a 4) he, hw, State.gave, State.noted, Bool.false_eq_true, if_false]

end Sys2Proof.Machine
end

