-- ==== Sys2Proof/Laws/Tbl.lean ====
section
/-! SUPPORT. Sparse tables: a read after a write, and that a write keeps the canonical form. -/
namespace Sys2Proof.Machine

variable {α : Type}

@[simp] theorem tget_nil (d : Nat → α) (k : Nat) : tget d [] k = d k := rfl

/-- A table whose keys all lie above `k` reads `k` as its default. -/
theorem tget_above (d : Nat → α) {t : Tbl α} {k : Nat} (h : ∀ p ∈ t, k < p.1) : tget d t k = d k := by
  match t with
  | [] => rfl
  | (j, u) :: t =>
    have hj : k < j := h (j, u) (List.mem_cons_self ..)
    simp [tget, hj, Nat.ne_of_lt hj]

variable [DecidableEq α]

@[simp] theorem twf_nil (d : Nat → α) : twf d [] = true := rfl

theorem twf_cons (d : Nat → α) (j : Nat) (u : α) (t : Tbl α) :
    twf d ((j, u) :: t) = true ↔ u ≠ d j ∧ (∀ p ∈ t, j < p.1) ∧ twf d t = true := by
  simp [twf, and_assoc]

/-- A write adds no key but its own. -/
theorem mem_tput {d : Nat → α} {t : Tbl α} {k : Nat} {v : α} {p : Nat × α} (h : p ∈ tput d t k v) : p.1 = k ∨ p ∈ t := by
  induction t with
  | nil =>
    simp only [tput] at h
    split at h <;> simp_all
  | cons q t ih =>
    obtain ⟨j, u⟩ := q
    simp only [tput] at h
    split at h
    · split at h
      · exact .inr h
      · exact (List.mem_cons.mp h).imp (fun e => by rw [e]) id
    · split at h
      · split at h
        · exact .inr (List.mem_cons_of_mem _ h)
        · exact (List.mem_cons.mp h).imp (fun e => by rw [e]) (List.mem_cons_of_mem _)
      · rcases List.mem_cons.mp h with h | h
        · exact .inr (by simp [h])
        · exact (ih h).imp id (List.mem_cons_of_mem _)

/-- A write keeps the canonical form. -/
theorem twf_tput {d : Nat → α} {t : Tbl α} (h : twf d t = true) (k : Nat) (v : α) : twf d (tput d t k v) = true := by
  induction t with
  | nil => simp only [tput]; split <;> simp_all [twf]
  | cons q t ih =>
    obtain ⟨j, u⟩ := q
    obtain ⟨hu, hj, ht⟩ := (twf_cons ..).mp h
    simp only [tput]
    split
    · next hk =>
      split
      · exact h
      · next hv =>
        refine (twf_cons ..).mpr ⟨hv, fun p hp => ?_, h⟩
        rcases List.mem_cons.mp hp with rfl | hp
        · exact hk
        · exact Nat.lt_trans hk (hj p hp)
    · split
      · next hk =>
        subst hk
        split
        · exact ht
        · next hv => exact (twf_cons ..).mpr ⟨hv, hj, ht⟩
      · next h1 h2 =>
        refine (twf_cons ..).mpr ⟨hu, fun p hp => ?_, ih ht⟩
        rcases mem_tput hp with hp | hp
        · omega
        · exact hj p hp

/-- A read of the key that was written. -/
theorem tget_tput_self {d : Nat → α} {t : Tbl α} (h : twf d t = true) (k : Nat) (v : α) : tget d (tput d t k v) k = v := by
  induction t with
  | nil => simp only [tput]; split <;> simp_all [tget]
  | cons q t ih =>
    obtain ⟨j, u⟩ := q
    obtain ⟨hu, hj, ht⟩ := (twf_cons ..).mp h
    simp only [tput]
    split
    · next hk =>
      split
      · next hv => simp [tget, hk, Nat.ne_of_lt hk, hv]
      · simp [tget]
    · split
      · next hk =>
        subst hk
        split
        · next hv => rw [tget_above d hj, hv]
        · simp [tget]
      · next h1 h2 => simp [tget, h1, h2, ih ht]

/-- A write leaves every other key alone. -/
theorem tget_tput_ne {d : Nat → α} {t : Tbl α} (h : twf d t = true) {k i : Nat} (v : α) (hi : i ≠ k) :
    tget d (tput d t k v) i = tget d t i := by
  induction t with
  | nil => simp only [tput]; split <;> simp_all [tget]
  | cons q t ih =>
    obtain ⟨j, u⟩ := q
    obtain ⟨hu, hj, ht⟩ := (twf_cons ..).mp h
    simp only [tput]
    split
    · next hk =>
      split
      · rfl
      · rw [tget]
        simp only [hi, if_false]
        split
        · next hlt => simp [tget, Nat.lt_trans hlt hk, Nat.ne_of_lt (Nat.lt_trans hlt hk)]
        · rfl
    · split
      · next hk =>
        subst hk
        split
        · by_cases hlt : i < k
          · rw [tget_above d (fun p hp => Nat.lt_trans hlt (hj p hp))]; simp [tget, hi, hlt]
          · simp [tget, hi, hlt]
        · simp [tget, hi]
      · next h1 h2 =>
        by_cases hij : i = j
        · simp [tget, hij]
        · by_cases hlt : i < j
          · simp [tget, hij, hlt]
          · simp [tget, hij, hlt, ih ht]

/-- A read after a write. -/
theorem tget_tput {d : Nat → α} {t : Tbl α} (h : twf d t = true) (k i : Nat) (v : α) :
    tget d (tput d t k v) i = if i = k then v else tget d t i := by
  split
  · next hi => rw [hi, tget_tput_self h]
  · next hi => exact tget_tput_ne h v hi

/-- Canonical tables that read alike are equal data. -/
theorem twf_ext {d : Nat → α} {t t' : Tbl α} (h : twf d t = true) (h' : twf d t' = true) (e : ∀ k, tget d t k = tget d t' k) :
    t = t' := by
  induction t generalizing t' with
  | nil =>
    match t', h' with
    | [], _ => rfl
    | (j, u) :: t', h' =>
      have := e j
      simp [tget] at this
      exact absurd this.symm ((twf_cons ..).mp h').1
  | cons q t ih =>
    obtain ⟨j, u⟩ := q
    obtain ⟨hu, hj, ht⟩ := (twf_cons ..).mp h
    match t', h' with
    | [], _ =>
      have := e j
      simp [tget] at this
      exact absurd this hu
    | (j', u') :: t', h' =>
      obtain ⟨hu', hj', ht'⟩ := (twf_cons ..).mp h'
      have hjj : j = j' := by
        rcases Nat.lt_trichotomy j j' with hlt | heq | hgt
        · have := e j
          simp [tget, hlt, Nat.ne_of_lt hlt] at this
          exact absurd this hu
        · exact heq
        · have := e j'
          simp [tget, hgt, Nat.ne_of_lt hgt] at this
          exact absurd this.symm hu'
      subst hjj
      have huu : u = u' := by simpa [tget] using e j
      subst huu
      rw [ih ht ht' fun k => ?_]
      by_cases hk : k = j
      · subst hk; rw [tget_above d hj, tget_above d hj']
      · by_cases hlt : k < j
        · rw [tget_above d fun p hp => Nat.lt_trans hlt (hj p hp), tget_above d fun p hp => Nat.lt_trans hlt (hj' p hp)]
        · simpa [tget, hk, hlt] using e k

/-- Of two writes of one key the later stays. -/
theorem tput_tput {d : Nat → α} {t : Tbl α} (h : twf d t = true) (k : Nat) (v v' : α) : tput d (tput d t k v) k v' = tput d t k v' := by
  refine twf_ext (twf_tput (twf_tput h k v) k v') (twf_tput h k v') fun i => ?_
  rw [tget_tput (twf_tput h k v), tget_tput h, tget_tput h]
  split <;> rfl

/-- Writing what a key reads as changes nothing. -/
theorem tput_self {d : Nat → α} {t : Tbl α} (h : twf d t = true) (k : Nat) : tput d t k (tget d t k) = t :=
  twf_ext (twf_tput h _ _) h fun i => by rw [tget_tput h]; split <;> simp_all

/-- A table whose values are changed one by one is canonical. -/
theorem twf_tmap (d : Nat → α) (f : α → α) (t : Tbl α) : twf d (tmap d f t) = true := by
  unfold tmap
  suffices h : ∀ u : Tbl α, twf d u = true → twf d (t.foldl (fun u p => tput d u p.1 (f p.2)) u) = true from h [] rfl
  induction t with
  | nil => exact fun u hu => hu
  | cons p t ih => exact fun u hu => ih _ (twf_tput hu _ _)

/-- Dropping entries keeps the canonical form. -/
theorem twf_filter {d : Nat → α} {t : Tbl α} (h : twf d t = true) (f : Nat × α → Bool) : twf d (t.filter f) = true := by
  induction t with
  | nil => rfl
  | cons q t ih =>
    obtain ⟨j, u⟩ := q
    obtain ⟨hu, hj, ht⟩ := (twf_cons ..).mp h
    rw [List.filter_cons]
    split
    · exact (twf_cons ..).mpr ⟨hu, fun p hp => hj p (List.mem_filter.mp hp).1, ih ht⟩
    · exact ih ht

/-- Mapping the values keeps the canonical form where no value becomes its default. -/
theorem twf_map {d : Nat → α} {t : Tbl α} (h : twf d t = true) {f : Nat × α → α} (hf : ∀ p ∈ t, f p ≠ d p.1) :
    twf d (t.map fun p => (p.1, f p)) = true := by
  induction t with
  | nil => rfl
  | cons q t ih =>
    obtain ⟨j, u⟩ := q
    obtain ⟨_, hj, ht⟩ := (twf_cons ..).mp h
    rw [List.map_cons]
    refine (twf_cons ..).mpr ⟨hf (j, u) (List.mem_cons_self ..), fun p hp => ?_, ih ht fun p hp => hf p (List.mem_cons_of_mem _ hp)⟩
    obtain ⟨q, hq, rfl⟩ := List.mem_map.mp hp
    exact hj q hq

end Sys2Proof.Machine
end

