-- ==== Sys2Proof/Laws/Canon.lean ====
section
/-! SUPPORT. The tables of the state stay in canonical form: how updates and folds carry State.Inv. -/
namespace Sys2Proof.Machine

variable {s t : State}

/-- Every table of a state with State.Inv is in canonical form. -/
theorem State.Inv_iff : s.Inv ↔ twf resetWord s.regs = true ∧ twf memDefault s.mem = true ∧ twf (fun _ => 0) s.latch = true ∧ twf (fun _ => 0) s.held = true ∧ twf (fun _ => []) s.hb = true ∧ twf (fun _ => {}) s.port = true ∧ twf (fun _ => {}) s.qe = true ∧ twf (fun _ => {}) s.fq = true ∧ twf (fun _ => 0) s.txRR = true ∧ twf (fun _ => {}) s.dma = true ∧ twf (fun _ => {}) s.can = true ∧ twf (fun _ => {}) s.ax = true ∧ twf (fun _ => {}) s.grp = true ∧ twf (fun _ => {}) s.chop = true ∧ twf (fun _ => {}) s.enc = true ∧ twf (fun _ => {}) s.adc = true ∧ twf (fun _ => {}) s.pilot = true ∧ twf (fun _ => {}) s.pset = true ∧ twf (fun _ => {}) s.mb = true := by
  simp only [State.Inv, State.storeOk, State.unitsOk, Memory.wf, and_assoc]

theorem State.Inv.regsOk (h : s.Inv) : twf resetWord s.regs = true := (State.Inv_iff.mp h).1
theorem State.Inv.memOk (h : s.Inv) : twf memDefault s.mem = true := (State.Inv_iff.mp h).2.1
theorem State.Inv.latchOk (h : s.Inv) : twf (fun _ => 0) s.latch = true := (State.Inv_iff.mp h).2.2.1
theorem State.Inv.heldOk (h : s.Inv) : twf (fun _ => 0) s.held = true := (State.Inv_iff.mp h).2.2.2.1
theorem State.Inv.hbOk (h : s.Inv) : twf (fun _ => []) s.hb = true := (State.Inv_iff.mp h).2.2.2.2.1
theorem State.Inv.portOk (h : s.Inv) : twf (fun _ => {}) s.port = true := (State.Inv_iff.mp h).2.2.2.2.2.1
theorem State.Inv.qeOk (h : s.Inv) : twf (fun _ => {}) s.qe = true := (State.Inv_iff.mp h).2.2.2.2.2.2.1
theorem State.Inv.fqOk (h : s.Inv) : twf (fun _ => {}) s.fq = true := (State.Inv_iff.mp h).2.2.2.2.2.2.2.1
theorem State.Inv.txRROk (h : s.Inv) : twf (fun _ => 0) s.txRR = true := (State.Inv_iff.mp h).2.2.2.2.2.2.2.2.1
theorem State.Inv.dmaOk (h : s.Inv) : twf (fun _ => {}) s.dma = true := (State.Inv_iff.mp h).2.2.2.2.2.2.2.2.2.1
theorem State.Inv.canOk (h : s.Inv) : twf (fun _ => {}) s.can = true := (State.Inv_iff.mp h).2.2.2.2.2.2.2.2.2.2.1
theorem State.Inv.axOk (h : s.Inv) : twf (fun _ => {}) s.ax = true := (State.Inv_iff.mp h).2.2.2.2.2.2.2.2.2.2.2.1
theorem State.Inv.grpOk (h : s.Inv) : twf (fun _ => {}) s.grp = true := (State.Inv_iff.mp h).2.2.2.2.2.2.2.2.2.2.2.2.1
theorem State.Inv.chopOk (h : s.Inv) : twf (fun _ => {}) s.chop = true := (State.Inv_iff.mp h).2.2.2.2.2.2.2.2.2.2.2.2.2.1
theorem State.Inv.encOk (h : s.Inv) : twf (fun _ => {}) s.enc = true := (State.Inv_iff.mp h).2.2.2.2.2.2.2.2.2.2.2.2.2.2.1
theorem State.Inv.adcOk (h : s.Inv) : twf (fun _ => {}) s.adc = true := (State.Inv_iff.mp h).2.2.2.2.2.2.2.2.2.2.2.2.2.2.2.1
theorem State.Inv.pilotOk (h : s.Inv) : twf (fun _ => {}) s.pilot = true := (State.Inv_iff.mp h).2.2.2.2.2.2.2.2.2.2.2.2.2.2.2.2.1
theorem State.Inv.psetOk (h : s.Inv) : twf (fun _ => {}) s.pset = true := (State.Inv_iff.mp h).2.2.2.2.2.2.2.2.2.2.2.2.2.2.2.2.2.1
theorem State.Inv.mbOk (h : s.Inv) : twf (fun _ => {}) s.mb = true := (State.Inv_iff.mp h).2.2.2.2.2.2.2.2.2.2.2.2.2.2.2.2.2.2

section
variable {mm' : MemSt} {access' : Option AccessRec} {free' : Nat} {time' : TimeSt} {log' : LogSt} {tide' : TideSt} {sw' : SwSt} {mdio' : List Nat} {dreq' : List Nat} {tt' : TtSt} {tickAt' : Nat} {tickBegan' : Nat} {mio' : List Nat} {cw' : CwSt} {arrival' : List Nat} {hm' : HmSt} {nv' : NvSt} {lh' : LhSt} {tap' : TapSt} {rst' : RstSt} {pending' : List Instr}

/-- A state with the tables of one in canonical form. -/
theorem State.Inv_mk (h : s.Inv) :
    State.Inv ⟨s.regs, s.mem, s.latch, s.held, mm', access', free', time', log', tide', s.hb, sw', s.port, mdio', s.qe, s.fq, s.txRR, s.dma, dreq', s.can, tt', tickAt', tickBegan', s.ax, s.grp, s.chop, s.enc, s.adc, mio', s.pilot, s.pset, cw', s.mb, arrival', hm', nv', lh', tap', rst', pending'⟩ := h

theorem State.Inv_regs {v : Tbl Word} (h : s.Inv) (hv : twf resetWord v = true) :
    State.Inv ⟨v, s.mem, s.latch, s.held, mm', access', free', time', log', tide', s.hb, sw', s.port, mdio', s.qe, s.fq, s.txRR, s.dma, dreq', s.can, tt', tickAt', tickBegan', s.ax, s.grp, s.chop, s.enc, s.adc, mio', s.pilot, s.pset, cw', s.mb, arrival', hm', nv', lh', tap', rst', pending'⟩ :=
  State.Inv_iff.mpr ⟨hv, h.memOk, h.latchOk, h.heldOk, h.hbOk, h.portOk, h.qeOk, h.fqOk, h.txRROk, h.dmaOk, h.canOk, h.axOk, h.grpOk, h.chopOk, h.encOk, h.adcOk, h.pilotOk, h.psetOk, h.mbOk⟩

theorem State.Inv_mem {v : List Host.Cell} (h : s.Inv) (hv : twf memDefault v = true) :
    State.Inv ⟨s.regs, v, s.latch, s.held, mm', access', free', time', log', tide', s.hb, sw', s.port, mdio', s.qe, s.fq, s.txRR, s.dma, dreq', s.can, tt', tickAt', tickBegan', s.ax, s.grp, s.chop, s.enc, s.adc, mio', s.pilot, s.pset, cw', s.mb, arrival', hm', nv', lh', tap', rst', pending'⟩ :=
  State.Inv_iff.mpr ⟨h.regsOk, hv, h.latchOk, h.heldOk, h.hbOk, h.portOk, h.qeOk, h.fqOk, h.txRROk, h.dmaOk, h.canOk, h.axOk, h.grpOk, h.chopOk, h.encOk, h.adcOk, h.pilotOk, h.psetOk, h.mbOk⟩

theorem State.Inv_latch {v : Tbl Word} (h : s.Inv) (hv : twf (fun _ => 0) v = true) :
    State.Inv ⟨s.regs, s.mem, v, s.held, mm', access', free', time', log', tide', s.hb, sw', s.port, mdio', s.qe, s.fq, s.txRR, s.dma, dreq', s.can, tt', tickAt', tickBegan', s.ax, s.grp, s.chop, s.enc, s.adc, mio', s.pilot, s.pset, cw', s.mb, arrival', hm', nv', lh', tap', rst', pending'⟩ :=
  State.Inv_iff.mpr ⟨h.regsOk, h.memOk, hv, h.heldOk, h.hbOk, h.portOk, h.qeOk, h.fqOk, h.txRROk, h.dmaOk, h.canOk, h.axOk, h.grpOk, h.chopOk, h.encOk, h.adcOk, h.pilotOk, h.psetOk, h.mbOk⟩

theorem State.Inv_held {v : Tbl Word} (h : s.Inv) (hv : twf (fun _ => 0) v = true) :
    State.Inv ⟨s.regs, s.mem, s.latch, v, mm', access', free', time', log', tide', s.hb, sw', s.port, mdio', s.qe, s.fq, s.txRR, s.dma, dreq', s.can, tt', tickAt', tickBegan', s.ax, s.grp, s.chop, s.enc, s.adc, mio', s.pilot, s.pset, cw', s.mb, arrival', hm', nv', lh', tap', rst', pending'⟩ :=
  State.Inv_iff.mpr ⟨h.regsOk, h.memOk, h.latchOk, hv, h.hbOk, h.portOk, h.qeOk, h.fqOk, h.txRROk, h.dmaOk, h.canOk, h.axOk, h.grpOk, h.chopOk, h.encOk, h.adcOk, h.pilotOk, h.psetOk, h.mbOk⟩

theorem State.Inv_hb {v : Tbl (List HeldOp)} (h : s.Inv) (hv : twf (fun _ => []) v = true) :
    State.Inv ⟨s.regs, s.mem, s.latch, s.held, mm', access', free', time', log', tide', v, sw', s.port, mdio', s.qe, s.fq, s.txRR, s.dma, dreq', s.can, tt', tickAt', tickBegan', s.ax, s.grp, s.chop, s.enc, s.adc, mio', s.pilot, s.pset, cw', s.mb, arrival', hm', nv', lh', tap', rst', pending'⟩ :=
  State.Inv_iff.mpr ⟨h.regsOk, h.memOk, h.latchOk, h.heldOk, hv, h.portOk, h.qeOk, h.fqOk, h.txRROk, h.dmaOk, h.canOk, h.axOk, h.grpOk, h.chopOk, h.encOk, h.adcOk, h.pilotOk, h.psetOk, h.mbOk⟩

theorem State.Inv_port {v : Tbl PortSt} (h : s.Inv) (hv : twf (fun _ => {}) v = true) :
    State.Inv ⟨s.regs, s.mem, s.latch, s.held, mm', access', free', time', log', tide', s.hb, sw', v, mdio', s.qe, s.fq, s.txRR, s.dma, dreq', s.can, tt', tickAt', tickBegan', s.ax, s.grp, s.chop, s.enc, s.adc, mio', s.pilot, s.pset, cw', s.mb, arrival', hm', nv', lh', tap', rst', pending'⟩ :=
  State.Inv_iff.mpr ⟨h.regsOk, h.memOk, h.latchOk, h.heldOk, h.hbOk, hv, h.qeOk, h.fqOk, h.txRROk, h.dmaOk, h.canOk, h.axOk, h.grpOk, h.chopOk, h.encOk, h.adcOk, h.pilotOk, h.psetOk, h.mbOk⟩

theorem State.Inv_qe {v : Tbl QeSt} (h : s.Inv) (hv : twf (fun _ => {}) v = true) :
    State.Inv ⟨s.regs, s.mem, s.latch, s.held, mm', access', free', time', log', tide', s.hb, sw', s.port, mdio', v, s.fq, s.txRR, s.dma, dreq', s.can, tt', tickAt', tickBegan', s.ax, s.grp, s.chop, s.enc, s.adc, mio', s.pilot, s.pset, cw', s.mb, arrival', hm', nv', lh', tap', rst', pending'⟩ :=
  State.Inv_iff.mpr ⟨h.regsOk, h.memOk, h.latchOk, h.heldOk, h.hbOk, h.portOk, hv, h.fqOk, h.txRROk, h.dmaOk, h.canOk, h.axOk, h.grpOk, h.chopOk, h.encOk, h.adcOk, h.pilotOk, h.psetOk, h.mbOk⟩

theorem State.Inv_fq {v : Tbl FqSt} (h : s.Inv) (hv : twf (fun _ => {}) v = true) :
    State.Inv ⟨s.regs, s.mem, s.latch, s.held, mm', access', free', time', log', tide', s.hb, sw', s.port, mdio', s.qe, v, s.txRR, s.dma, dreq', s.can, tt', tickAt', tickBegan', s.ax, s.grp, s.chop, s.enc, s.adc, mio', s.pilot, s.pset, cw', s.mb, arrival', hm', nv', lh', tap', rst', pending'⟩ :=
  State.Inv_iff.mpr ⟨h.regsOk, h.memOk, h.latchOk, h.heldOk, h.hbOk, h.portOk, h.qeOk, hv, h.txRROk, h.dmaOk, h.canOk, h.axOk, h.grpOk, h.chopOk, h.encOk, h.adcOk, h.pilotOk, h.psetOk, h.mbOk⟩

theorem State.Inv_txRR {v : Tbl Nat} (h : s.Inv) (hv : twf (fun _ => 0) v = true) :
    State.Inv ⟨s.regs, s.mem, s.latch, s.held, mm', access', free', time', log', tide', s.hb, sw', s.port, mdio', s.qe, s.fq, v, s.dma, dreq', s.can, tt', tickAt', tickBegan', s.ax, s.grp, s.chop, s.enc, s.adc, mio', s.pilot, s.pset, cw', s.mb, arrival', hm', nv', lh', tap', rst', pending'⟩ :=
  State.Inv_iff.mpr ⟨h.regsOk, h.memOk, h.latchOk, h.heldOk, h.hbOk, h.portOk, h.qeOk, h.fqOk, hv, h.dmaOk, h.canOk, h.axOk, h.grpOk, h.chopOk, h.encOk, h.adcOk, h.pilotOk, h.psetOk, h.mbOk⟩

theorem State.Inv_dma {v : Tbl DmaSt} (h : s.Inv) (hv : twf (fun _ => {}) v = true) :
    State.Inv ⟨s.regs, s.mem, s.latch, s.held, mm', access', free', time', log', tide', s.hb, sw', s.port, mdio', s.qe, s.fq, s.txRR, v, dreq', s.can, tt', tickAt', tickBegan', s.ax, s.grp, s.chop, s.enc, s.adc, mio', s.pilot, s.pset, cw', s.mb, arrival', hm', nv', lh', tap', rst', pending'⟩ :=
  State.Inv_iff.mpr ⟨h.regsOk, h.memOk, h.latchOk, h.heldOk, h.hbOk, h.portOk, h.qeOk, h.fqOk, h.txRROk, hv, h.canOk, h.axOk, h.grpOk, h.chopOk, h.encOk, h.adcOk, h.pilotOk, h.psetOk, h.mbOk⟩

theorem State.Inv_can {v : Tbl CanSt} (h : s.Inv) (hv : twf (fun _ => {}) v = true) :
    State.Inv ⟨s.regs, s.mem, s.latch, s.held, mm', access', free', time', log', tide', s.hb, sw', s.port, mdio', s.qe, s.fq, s.txRR, s.dma, dreq', v, tt', tickAt', tickBegan', s.ax, s.grp, s.chop, s.enc, s.adc, mio', s.pilot, s.pset, cw', s.mb, arrival', hm', nv', lh', tap', rst', pending'⟩ :=
  State.Inv_iff.mpr ⟨h.regsOk, h.memOk, h.latchOk, h.heldOk, h.hbOk, h.portOk, h.qeOk, h.fqOk, h.txRROk, h.dmaOk, hv, h.axOk, h.grpOk, h.chopOk, h.encOk, h.adcOk, h.pilotOk, h.psetOk, h.mbOk⟩

theorem State.Inv_ax {v : Tbl AxSt} (h : s.Inv) (hv : twf (fun _ => {}) v = true) :
    State.Inv ⟨s.regs, s.mem, s.latch, s.held, mm', access', free', time', log', tide', s.hb, sw', s.port, mdio', s.qe, s.fq, s.txRR, s.dma, dreq', s.can, tt', tickAt', tickBegan', v, s.grp, s.chop, s.enc, s.adc, mio', s.pilot, s.pset, cw', s.mb, arrival', hm', nv', lh', tap', rst', pending'⟩ :=
  State.Inv_iff.mpr ⟨h.regsOk, h.memOk, h.latchOk, h.heldOk, h.hbOk, h.portOk, h.qeOk, h.fqOk, h.txRROk, h.dmaOk, h.canOk, hv, h.grpOk, h.chopOk, h.encOk, h.adcOk, h.pilotOk, h.psetOk, h.mbOk⟩

theorem State.Inv_grp {v : Tbl GrpSt} (h : s.Inv) (hv : twf (fun _ => {}) v = true) :
    State.Inv ⟨s.regs, s.mem, s.latch, s.held, mm', access', free', time', log', tide', s.hb, sw', s.port, mdio', s.qe, s.fq, s.txRR, s.dma, dreq', s.can, tt', tickAt', tickBegan', s.ax, v, s.chop, s.enc, s.adc, mio', s.pilot, s.pset, cw', s.mb, arrival', hm', nv', lh', tap', rst', pending'⟩ :=
  State.Inv_iff.mpr ⟨h.regsOk, h.memOk, h.latchOk, h.heldOk, h.hbOk, h.portOk, h.qeOk, h.fqOk, h.txRROk, h.dmaOk, h.canOk, h.axOk, hv, h.chopOk, h.encOk, h.adcOk, h.pilotOk, h.psetOk, h.mbOk⟩

theorem State.Inv_chop {v : Tbl ChopSt} (h : s.Inv) (hv : twf (fun _ => {}) v = true) :
    State.Inv ⟨s.regs, s.mem, s.latch, s.held, mm', access', free', time', log', tide', s.hb, sw', s.port, mdio', s.qe, s.fq, s.txRR, s.dma, dreq', s.can, tt', tickAt', tickBegan', s.ax, s.grp, v, s.enc, s.adc, mio', s.pilot, s.pset, cw', s.mb, arrival', hm', nv', lh', tap', rst', pending'⟩ :=
  State.Inv_iff.mpr ⟨h.regsOk, h.memOk, h.latchOk, h.heldOk, h.hbOk, h.portOk, h.qeOk, h.fqOk, h.txRROk, h.dmaOk, h.canOk, h.axOk, h.grpOk, hv, h.encOk, h.adcOk, h.pilotOk, h.psetOk, h.mbOk⟩

theorem State.Inv_enc {v : Tbl EncSt} (h : s.Inv) (hv : twf (fun _ => {}) v = true) :
    State.Inv ⟨s.regs, s.mem, s.latch, s.held, mm', access', free', time', log', tide', s.hb, sw', s.port, mdio', s.qe, s.fq, s.txRR, s.dma, dreq', s.can, tt', tickAt', tickBegan', s.ax, s.grp, s.chop, v, s.adc, mio', s.pilot, s.pset, cw', s.mb, arrival', hm', nv', lh', tap', rst', pending'⟩ :=
  State.Inv_iff.mpr ⟨h.regsOk, h.memOk, h.latchOk, h.heldOk, h.hbOk, h.portOk, h.qeOk, h.fqOk, h.txRROk, h.dmaOk, h.canOk, h.axOk, h.grpOk, h.chopOk, hv, h.adcOk, h.pilotOk, h.psetOk, h.mbOk⟩

theorem State.Inv_adc {v : Tbl AdcSt} (h : s.Inv) (hv : twf (fun _ => {}) v = true) :
    State.Inv ⟨s.regs, s.mem, s.latch, s.held, mm', access', free', time', log', tide', s.hb, sw', s.port, mdio', s.qe, s.fq, s.txRR, s.dma, dreq', s.can, tt', tickAt', tickBegan', s.ax, s.grp, s.chop, s.enc, v, mio', s.pilot, s.pset, cw', s.mb, arrival', hm', nv', lh', tap', rst', pending'⟩ :=
  State.Inv_iff.mpr ⟨h.regsOk, h.memOk, h.latchOk, h.heldOk, h.hbOk, h.portOk, h.qeOk, h.fqOk, h.txRROk, h.dmaOk, h.canOk, h.axOk, h.grpOk, h.chopOk, h.encOk, hv, h.pilotOk, h.psetOk, h.mbOk⟩

theorem State.Inv_pilot {v : Tbl PilotSt} (h : s.Inv) (hv : twf (fun _ => {}) v = true) :
    State.Inv ⟨s.regs, s.mem, s.latch, s.held, mm', access', free', time', log', tide', s.hb, sw', s.port, mdio', s.qe, s.fq, s.txRR, s.dma, dreq', s.can, tt', tickAt', tickBegan', s.ax, s.grp, s.chop, s.enc, s.adc, mio', v, s.pset, cw', s.mb, arrival', hm', nv', lh', tap', rst', pending'⟩ :=
  State.Inv_iff.mpr ⟨h.regsOk, h.memOk, h.latchOk, h.heldOk, h.hbOk, h.portOk, h.qeOk, h.fqOk, h.txRROk, h.dmaOk, h.canOk, h.axOk, h.grpOk, h.chopOk, h.encOk, h.adcOk, hv, h.psetOk, h.mbOk⟩

theorem State.Inv_pset {v : Tbl PsetSt} (h : s.Inv) (hv : twf (fun _ => {}) v = true) :
    State.Inv ⟨s.regs, s.mem, s.latch, s.held, mm', access', free', time', log', tide', s.hb, sw', s.port, mdio', s.qe, s.fq, s.txRR, s.dma, dreq', s.can, tt', tickAt', tickBegan', s.ax, s.grp, s.chop, s.enc, s.adc, mio', s.pilot, v, cw', s.mb, arrival', hm', nv', lh', tap', rst', pending'⟩ :=
  State.Inv_iff.mpr ⟨h.regsOk, h.memOk, h.latchOk, h.heldOk, h.hbOk, h.portOk, h.qeOk, h.fqOk, h.txRROk, h.dmaOk, h.canOk, h.axOk, h.grpOk, h.chopOk, h.encOk, h.adcOk, h.pilotOk, hv, h.mbOk⟩

theorem State.Inv_mb {v : Tbl MbSt} (h : s.Inv) (hv : twf (fun _ => {}) v = true) :
    State.Inv ⟨s.regs, s.mem, s.latch, s.held, mm', access', free', time', log', tide', s.hb, sw', s.port, mdio', s.qe, s.fq, s.txRR, s.dma, dreq', s.can, tt', tickAt', tickBegan', s.ax, s.grp, s.chop, s.enc, s.adc, mio', s.pilot, s.pset, cw', v, arrival', hm', nv', lh', tap', rst', pending'⟩ :=
  State.Inv_iff.mpr ⟨h.regsOk, h.memOk, h.latchOk, h.heldOk, h.hbOk, h.portOk, h.qeOk, h.fqOk, h.txRROk, h.dmaOk, h.canOk, h.axOk, h.grpOk, h.chopOk, h.encOk, h.adcOk, h.pilotOk, h.psetOk, hv⟩

end

theorem State.Inv_ite {c : Prop} [Decidable c] {a b : State} (ha : c → a.Inv) (hb : ¬c → b.Inv) :
    State.Inv (if c then a else b) := by split <;> simp_all

theorem State.Inv_ite_fst {α : Type} {c : Prop} [Decidable c] {a b : State × α} (ha : c → a.1.Inv) (hb : ¬c → b.1.Inv) :
    (if c then a else b).1.Inv := by split <;> simp_all

theorem State.Inv_foldl {β : Type} {l : List β} {f : State → β → State} {s : State}
    (hf : ∀ t x, t.Inv → (f t x).Inv) (h : s.Inv) : (l.foldl f s).Inv := by
  induction l generalizing s with
  | nil => exact h
  | cons x l ih => exact ih (hf s x h)

theorem State.Inv_foldl_fst {β γ : Type} {l : List β} {f : State × γ → β → State × γ} {p : State × γ}
    (hf : ∀ t x, t.1.Inv → (f t x).1.Inv) (h : p.1.Inv) : (l.foldl f p).1.Inv := by
  induction l generalizing p with
  | nil => exact h
  | cons x l ih => exact ih (hf p x h)

theorem State.Inv_foldl_snd {β γ : Type} {l : List β} {f : γ × State → β → γ × State} {p : γ × State}
    (hf : ∀ t x, t.2.Inv → (f t x).2.Inv) (h : p.2.Inv) : (l.foldl f p).2.Inv := by
  induction l generalizing p with
  | nil => exact h
  | cons x l ih => exact ih (hf p x h)

/-- The state of a pair, from the pair's equation. -/
theorem State.Inv_of_pair {α : Type} {p : State × α} {u : State} {x : α} (e : p = (u, x)) (h : p.1.Inv) : u.Inv := by
  subst e; exact h

theorem State.Inv_of_pair' {α : Type} {p : α × State} {u : State} {x : α} (e : p = (x, u)) (h : p.2.Inv) : u.Inv := by
  subst e; exact h

end Sys2Proof.Machine
end

