-- ==== Sys2Proof/Laws/CanonOps.lean ====
section
/-! SUPPORT. Every operation of the named operations, the logbook, the memories and the time of day keeps the tables of the state in canonical form. -/
namespace Sys2Proof.Machine

/-! ## Ops -/

theorem State.setReg_inv (s : State) (a : ℕ) (w : Word) (h1 : s.Inv) :
    (State.setReg s a w).Inv := by
  unfold State.setReg
  with_reducible repeat' first | assumption | apply twf_tput | apply State.Inv.regsOk | apply State.Inv_regs

theorem State.putF_inv (s : State) (a : ℕ) (f : Fld) (v : ℕ) (h1 : s.Inv) :
    (State.putF s a f v).Inv := by
  unfold State.putF
  with_reducible repeat' first | assumption | apply State.setReg_inv

theorem State.setB_inv (s : State) (a : ℕ) (f : Fld) (h1 : s.Inv) :
    (State.setB s a f).Inv := by
  unfold State.setB
  with_reducible repeat' first | assumption | apply State.putF_inv

theorem State.clrB_inv (s : State) (a : ℕ) (f : Fld) (h1 : s.Inv) :
    (State.clrB s a f).Inv := by
  unfold State.clrB
  with_reducible repeat' first | assumption | apply State.putF_inv

theorem State.putB_inv (s : State) (a : ℕ) (f : Fld) (b : Bool) (h1 : s.Inv) :
    (State.putB s a f b).Inv := by
  unfold State.putB
  with_reducible repeat' first | assumption | apply State.putF_inv

theorem State.setIf_inv (s : State) (c : Bool) (a : ℕ) (f : Fld) (h1 : s.Inv) :
    (State.setIf s c a f).Inv := by
  unfold State.setIf
  with_reducible repeat' first | assumption | apply State.setB_inv | apply State.Inv_ite | intro _

theorem State.setSat_inv (s : State) (a : ℕ) (h1 : s.Inv) :
    (State.setSat s a).Inv := by
  unfold State.setSat
  with_reducible repeat' first | assumption | apply State.setB_inv

theorem State.countN_inv (s : State) (a : ℕ) (f : Fld) (n : ℕ) (h1 : s.Inv) :
    (State.countN s a f n).Inv := by
  unfold State.countN
  with_reducible repeat' first | assumption | apply State.putF_inv | apply State.setSat_inv | apply State.Inv_ite | intro _

theorem State.count_inv (s : State) (a : ℕ) (h1 : s.Inv) :
    (State.count s a).Inv := by
  unfold State.count
  with_reducible repeat' first | assumption | apply State.countN_inv

theorem State.countIf_inv (s : State) (c : Bool) (a : ℕ) (h1 : s.Inv) :
    (State.countIf s c a).Inv := by
  unfold State.countIf
  with_reducible repeat' first | assumption | apply State.count_inv | apply State.Inv_ite | intro _

theorem State.cfgReject_inv (s : State) (a : ℕ) (h1 : s.Inv) :
    (State.cfgReject s a).Inv := by
  unfold State.cfgReject
  with_reducible repeat' first | assumption | apply State.setReg_inv | apply State.setB_inv | apply State.Inv_ite | intro _

theorem State.count64_inv (s : State) (lo : ℕ) (hi : ℕ) (n : ℕ) (h1 : s.Inv) :
    (State.count64 s lo hi n).Inv := by
  unfold State.count64
  with_reducible repeat' first | assumption | apply State.setSat_inv | apply State.setReg_inv | apply State.Inv_ite | intro _

theorem State.forN_inv (s : State) (n : ℕ) (f : State → ℕ → State) (h1 : s.Inv) (h2 : ∀ x0 x1, x0.Inv → (f x0 x1).Inv) :
    (State.forN s n f).Inv := by
  unfold State.forN
  with_reducible repeat' first | assumption | apply h2 | apply State.Inv_foldl

theorem State.tickFree_inv (s : State) (h1 : s.Inv) :
    (State.tickFree s).Inv := by
  unfold State.tickFree
  with_reducible repeat' first | assumption | apply State.Inv_mk

theorem State.wr8_inv (s : State) (a : ℕ) (v : ℕ) (h1 : s.Inv) :
    (State.wr8 s a v).Inv := by
  unfold State.wr8
  with_reducible repeat' first | assumption | apply twf_tput | apply State.Inv.memOk | apply State.Inv_mem

theorem State.wrBytes_inv (s : State) (a : ℕ) (a2 : List ℕ) (h1 : s.Inv) :
    (State.wrBytes s a a2).Inv := by
  fun_induction State.wrBytes s a a2
  all_goals with_reducible repeat' first | assumption | apply State.wr8_inv | apply_assumption

theorem State.wrN_inv (s : State) (a : ℕ) (n : ℕ) (v : ℕ) (h1 : s.Inv) :
    (State.wrN s a n v).Inv := by
  unfold State.wrN
  with_reducible repeat' first | assumption | apply State.wrBytes_inv

theorem State.setPoison_inv (s : State) (a : ℕ) (h1 : s.Inv) :
    (State.setPoison s a).Inv := by
  unfold State.setPoison
  with_reducible repeat' first | assumption | apply State.Inv_mk

theorem State.clearLine_inv (s : State) (l : ℕ) (h1 : s.Inv) :
    (State.clearLine s l).Inv := by
  unfold State.clearLine
  with_reducible repeat' first | assumption | apply State.Inv_mk

theorem State.store_inv (s : State) (a : ℕ) (bs : List ℕ) (h1 : s.Inv) :
    (State.store s a bs).Inv := by
  unfold State.store
  with_reducible repeat' first | assumption | apply State.clearLine_inv | apply State.wrBytes_inv | apply State.Inv_foldl

theorem State.modMm_inv (s : State) (f : MemSt → MemSt) (h1 : s.Inv) :
    (State.modMm s f).Inv := by
  unfold State.modMm
  with_reducible repeat' first | assumption | apply State.Inv_ite | apply State.Inv_mk

theorem State.mramCorrect_inv (s : State) (l : Nat) (h1 : s.Inv) :
    (State.mramCorrect s l).Inv := by
  unfold State.mramCorrect
  with_reducible repeat' first | assumption | apply State.count_inv | apply State.setB_inv | apply State.modMm_inv | apply State.Inv_ite | intro _

theorem State.mramRead_inv (s : State) (a : Nat) (n : Nat) (h1 : s.Inv) :
    (State.mramRead s a n).Inv := by
  unfold State.mramRead
  with_reducible repeat' first | assumption | apply State.mramCorrect_inv | apply State.Inv_ite | apply State.Inv_foldl | apply State.Inv_foldl_fst | intro _

theorem State.mramStore_inv (s : State) (a : Nat) (bs : List Nat) (h1 : s.Inv) :
    (State.mramStore s a bs).Inv := by
  unfold State.mramStore
  with_reducible repeat' first | assumption | apply State.mramCorrect_inv | apply State.store_inv | apply State.Inv_ite | apply State.Inv_foldl | apply State.Inv_foldl_fst | intro _

/-! ## Log -/

theorem State.setWork_inv (s : State) (c : ℕ) (w : List ℕ) (h1 : s.Inv) :
    (State.setWork s c w).Inv := by
  unfold State.setWork
  with_reducible repeat' first | assumption | apply State.Inv_mk

theorem State.recFetch_inv (s : State) (c : Nat) (h1 : s.Inv) :
    (State.recFetch s c).Inv := by
  unfold State.recFetch
  with_reducible repeat' first | assumption | apply State.mramRead_inv | apply State.Inv_ite | intro _

theorem State.loadRec_inv (s : State) (c : Nat) (h1 : s.Inv) :
    (State.loadRec s c).Inv := by
  unfold State.loadRec
  with_reducible repeat' first | assumption | apply State.recFetch_inv | apply State.setWork_inv | apply State.setIf_inv | apply State.Inv_ite | intro _ | apply State.Inv_mk

theorem State.markDirty_inv (s : State) (c : Nat) (h1 : s.Inv) :
    (State.markDirty s c).Inv := by
  unfold State.markDirty
  with_reducible repeat' first | assumption | apply State.Inv_ite | apply State.Inv_mk

theorem State.recCount_inv (s : State) (c : ℕ) (i : ℕ) (h1 : s.Inv) :
    (State.recCount s c i).Inv := by
  unfold State.recCount
  with_reducible repeat' first | assumption | apply State.setSat_inv | apply State.setWork_inv | apply State.Inv_ite | intro _

theorem State.recPut_inv (s : State) (c : ℕ) (i : ℕ) (v : ℕ) (h1 : s.Inv) :
    (State.recPut s c i v).Inv := by
  unfold State.recPut
  with_reducible repeat' first | assumption | apply State.setWork_inv

theorem State.recordEvent_inv (s : State) (c : ℕ) (v : ℕ) (sec : ℕ) (pcc : ℕ) (h1 : s.Inv) :
    (State.recordEvent s c v sec pcc).Inv := by
  unfold State.recordEvent
  with_reducible repeat' first | assumption | apply State.markDirty_inv | apply State.recCount_inv | apply State.recPut_inv | apply State.Inv_ite | intro _

theorem State.suppressEvent_inv (s : State) (c : ℕ) (h1 : s.Inv) :
    (State.suppressEvent s c).Inv := by
  unfold State.suppressEvent
  with_reducible repeat' first | assumption | apply State.markDirty_inv | apply State.recCount_inv

theorem State.applyEvent_inv (s : State) (e : Staged) (h1 : s.Inv) :
    (State.applyEvent s e).Inv := by
  unfold State.applyEvent
  with_reducible repeat' first | assumption | apply State.suppressEvent_inv | apply State.recordEvent_inv | apply State.Inv_ite | intro _

theorem State.applyStaged_inv (s : State) (h1 : s.Inv) :
    (State.applyStaged s).Inv := by
  unfold State.applyStaged
  with_reducible repeat' first | assumption | apply State.applyEvent_inv | apply State.Inv_foldl | apply State.Inv_mk

theorem State.breakwater_inv (s : State) (c : Nat) (h1 : s.Inv) :
    (State.breakwater s c).2.Inv := by
  unfold State.breakwater
  with_reducible repeat' first | assumption | apply State.count_inv | apply State.Inv_ite | apply State.Inv_ite_fst | intro _ | dsimp only | split | apply State.Inv_mk

theorem State.logEv_inv (s : State) (c : ℕ) (v : ℕ) (h1 : s.Inv) :
    (State.logEv s c v).Inv := by
  unfold State.logEv
  with_reducible repeat' first | assumption | apply State.setIf_inv | apply State.breakwater_inv | apply State.loadRec_inv | apply State.setB_inv | apply State.count_inv | apply State.applyEvent_inv | apply State.applyStaged_inv | apply State.Inv_ite | intro _ | dsimp only | apply State.Inv_mk

theorem State.writeRecord_inv (s : State) (c : Nat) (h1 : s.Inv) :
    (State.writeRecord s c).Inv := by
  unfold State.writeRecord
  with_reducible repeat' first | assumption | apply State.mramStore_inv | apply State.Inv_ite | intro _ | apply State.Inv_mk

theorem State.writeDirty_inv (s : State) (h1 : s.Inv) :
    (State.writeDirty s).Inv := by
  unfold State.writeDirty
  with_reducible repeat' first | assumption | apply State.writeRecord_inv | apply State.Inv_foldl

/-! ## Ecc -/

theorem State.eccCorrect_inv (s : State) (l : Nat) (h1 : s.Inv) :
    (State.eccCorrect s l).Inv := by
  unfold State.eccCorrect
  with_reducible repeat' first | assumption | apply State.modMm_inv | apply State.logEv_inv | apply State.Inv_ite | intro _ | dsimp only | (apply State.Inv_of_pair; · assumption) | (apply State.Inv_of_pair'; · assumption) | split

theorem State.eccPoison_inv (s : State) (l : ℕ) (h1 : s.Inv) :
    (State.eccPoison s l).Inv := by
  unfold State.eccPoison
  with_reducible repeat' first | assumption | apply State.setB_inv | apply State.count_inv | apply State.setPoison_inv | apply State.logEv_inv | apply State.Inv_ite | intro _ | split

theorem State.eccRead_inv (s : State) (a : ℕ) (n : ℕ) (h1 : s.Inv) :
    (State.eccRead s a n).Inv := by
  unfold State.eccRead
  with_reducible repeat' first | assumption | apply State.eccCorrect_inv | apply State.mramCorrect_inv | apply State.Inv_ite | apply State.Inv_foldl | intro _

theorem State.upset_inv (s : State) (l : ℕ) (hard : Bool) (h1 : s.Inv) :
    (State.upset s l hard).Inv := by
  unfold State.upset
  with_reducible repeat' first | assumption | apply State.eccPoison_inv | apply State.modMm_inv | apply State.Inv_ite | intro _

theorem correctionWriteBack_inv (l : ℕ) (s : State) (h1 : s.Inv) :
    (correctionWriteBack l s).Inv := by
  unfold correctionWriteBack
  with_reducible repeat' first | assumption | apply State.modMm_inv | apply State.Inv_ite | intro _

theorem dredgerPass_inv (soft : List ℕ) (hard : List ℕ) (s : State) (h1 : s.Inv) :
    (dredgerPass soft hard s).Inv := by
  unfold dredgerPass
  with_reducible repeat' first | assumption | apply State.count_inv | apply State.setReg_inv | apply correctionWriteBack_inv | apply State.eccCorrect_inv | apply State.upset_inv | apply State.Inv_foldl | intro _

theorem dredgeLate_inv (s : State) (h1 : s.Inv) :
    (dredgeLate s).Inv := by
  unfold dredgeLate
  with_reducible repeat' first | assumption | apply State.logEv_inv | apply State.setB_inv

/-! ## Time -/

theorem State.modTime_inv (s : State) (f : TimeSt → TimeSt) (h1 : s.Inv) :
    (State.modTime s f).Inv := by
  unfold State.modTime
  with_reducible repeat' first | assumption | apply State.Inv_mk

theorem State.restartWdogAt_inv (s : State) (ahead : Nat) (h1 : s.Inv) :
    (State.restartWdogAt s ahead).Inv := by
  unfold State.restartWdogAt
  with_reducible repeat' first | assumption | apply State.modTime_inv | apply State.Inv_ite | intro _

theorem State.restartWdog_inv (s : State) (h1 : s.Inv) :
    (State.restartWdog s).Inv := by
  unfold State.restartWdog
  with_reducible repeat' first | assumption | apply State.restartWdogAt_inv | apply State.Inv_ite

theorem State.setTrig_inv (s : State) (n : ℕ) (x : TrigSt) (h1 : s.Inv) :
    (State.setTrig s n x).Inv := by
  unfold State.setTrig
  with_reducible repeat' first | assumption | apply State.modTime_inv

theorem State.trigPulse_inv (s : State) (n : ℕ) (h1 : s.Inv) :
    (State.trigPulse s n).Inv := by
  unfold State.trigPulse
  with_reducible repeat' first | assumption | apply State.setTrig_inv | apply State.Inv_ite | intro _

theorem State.trigDrive_inv (s : State) (n : ℕ) (h1 : s.Inv) :
    (State.trigDrive s n).Inv := by
  unfold State.trigDrive
  with_reducible repeat' first | assumption | apply State.setTrig_inv | apply State.Inv_ite | intro _

theorem State.trigRelease_inv (s : State) (n : ℕ) (h1 : s.Inv) :
    (State.trigRelease s n).Inv := by
  unfold State.trigRelease
  with_reducible repeat' first | assumption | apply State.setTrig_inv

theorem State.trigSafe_inv (s : State) (n : ℕ) (h1 : s.Inv) :
    (State.trigSafe s n).Inv := by
  unfold State.trigSafe
  with_reducible repeat' first | assumption | apply State.trigRelease_inv | apply State.Inv_ite | intro _

theorem State.trigModeChange_inv (s : State) (n : Nat) (h1 : s.Inv) :
    (State.trigModeChange s n).Inv := by
  unfold State.trigModeChange
  with_reducible repeat' first | assumption | apply State.trigRelease_inv | apply State.setTrig_inv | apply State.Inv_ite | intro _

theorem State.trigStepLate_inv (s : State) (old : Nat) (new : Nat) (n : Nat) (h1 : s.Inv) :
    (State.trigStepLate s old new n).Inv := by
  unfold State.trigStepLate
  with_reducible repeat' first | assumption | apply State.setTrig_inv | apply State.trigPulse_inv | apply State.setB_inv | apply State.Inv_ite | intro _

theorem State.setTcap_inv (s : State) (n : ℕ) (l : List TcapEntry) (h1 : s.Inv) :
    (State.setTcap s n l).Inv := by
  unfold State.setTcap
  with_reducible repeat' first | assumption | apply State.modTime_inv

theorem State.setTxts_inv (s : State) (n : ℕ) (l : List TxtsEntry) (h1 : s.Inv) :
    (State.setTxts s n l).Inv := by
  unfold State.setTxts
  with_reducible repeat' first | assumption | apply State.modTime_inv

theorem State.pushTxts_inv (s : State) (n : ℕ) (e : TxtsEntry) (h1 : s.Inv) :
    (State.pushTxts s n e).Inv := by
  unfold State.pushTxts
  with_reducible repeat' first | assumption | apply State.setB_inv | apply State.setTxts_inv | apply State.count_inv | apply State.Inv_ite | intro _

theorem State.pushTcap_inv (s : State) (n : ℕ) (rising : Bool) (h1 : s.Inv) :
    (State.pushTcap s n rising).Inv := by
  unfold State.pushTcap
  with_reducible repeat' first | assumption | apply State.setB_inv | apply State.setTcap_inv | apply State.count_inv | apply State.Inv_ite | intro _

theorem State.holdover_inv (s : State) (h1 : s.Inv) :
    (State.holdover s).Inv := by
  unfold State.holdover
  with_reducible repeat' first | assumption | apply State.setB_inv | apply State.logEv_inv | apply State.Inv_ite

theorem timeHook_inv (a0 : Nat) (i : Nat) (old : Word) (w : Word) (s : State) (h1 : s.Inv) :
    (timeHook a0 i old w s).Inv := by
  unfold timeHook
  with_reducible repeat' first | assumption | apply State.holdover_inv | apply State.restartWdog_inv | apply State.modTime_inv | apply State.clrB_inv | apply State.trigModeChange_inv | apply State.trigPulse_inv | apply State.Inv_ite | intro _

theorem State.latchNow_inv (s : State) (h1 : s.Inv) :
    (State.latchNow s).Inv := by
  unfold State.latchNow
  with_reducible repeat' first | assumption | apply State.setReg_inv

theorem State.popTxts_inv (s : State) (n : ℕ) (h1 : s.Inv) :
    (State.popTxts s n).Inv := by
  unfold State.popTxts
  with_reducible repeat' first | assumption | apply State.setReg_inv | apply State.setTxts_inv | split

theorem State.popTcap_inv (s : State) (n : ℕ) (h1 : s.Inv) :
    (State.popTcap s n).Inv := by
  unfold State.popTcap
  with_reducible repeat' first | assumption | apply State.setReg_inv | apply State.setTcap_inv | split

theorem timeRead_inv (a0 : ℕ) (i : ℕ) (s : State) (h1 : s.Inv) :
    (timeRead a0 i s).Inv := by
  unfold timeRead
  with_reducible repeat' first | assumption | apply State.latchNow_inv | apply State.popTxts_inv | apply State.popTcap_inv | apply State.Inv_ite | intro _

theorem timeAdvance_inv (s : State) (h1 : s.Inv) :
    (timeAdvance s).Inv := by
  unfold timeAdvance
  with_reducible repeat' first | assumption | apply State.modTime_inv

theorem kickApply_inv (s : State) (h1 : s.Inv) :
    (kickApply s).Inv := by
  unfold kickApply
  with_reducible repeat' first | assumption | apply State.modTime_inv | apply State.restartWdog_inv | apply State.Inv_ite | intro _

theorem stateWatchdogExpiry_inv (s : State) (h1 : s.Inv) :
    (stateWatchdogExpiry s).Inv := by
  unfold stateWatchdogExpiry
  with_reducible repeat' first | assumption | apply State.modTime_inv | apply State.putF_inv | apply State.holdover_inv | apply State.Inv_ite | intro _

theorem periodicRise_inv (n : ℕ) (s : State) (h1 : s.Inv) :
    (periodicRise n s).Inv := by
  unfold periodicRise
  with_reducible repeat' first | assumption | apply State.trigPulse_inv | apply State.setTrig_inv | apply State.Inv_ite | intro _

theorem pulseEnd_inv (n : ℕ) (s : State) (h1 : s.Inv) :
    (pulseEnd n s).Inv := by
  unfold pulseEnd
  with_reducible repeat' first | assumption | apply State.trigRelease_inv | apply State.Inv_ite | intro _ | split

theorem captureEdge_inv (n : ℕ) (rising : Bool) (s : State) (h1 : s.Inv) :
    (captureEdge n rising s).Inv := by
  unfold captureEdge
  with_reducible repeat' first | assumption | apply State.pushTcap_inv | apply State.Inv_ite | intro _

end Sys2Proof.Machine
end

