-- ==== Sys2Proof/Laws/CanonUnits.lean ====
section
/-! SUPPORT. Every operation of the units of the block keeps the tables of the state in canonical form. -/
namespace Sys2Proof.Machine

/-! ## Ferry -/

theorem State.setFq_inv (s : State) (n : ℕ) (q : FqSt) (h1 : s.Inv) :
    (State.setFq s n q).Inv := by
  unfold State.setFq
  with_reducible repeat' first | assumption | apply twf_tput | apply State.Inv.fqOk | apply State.Inv_fq

theorem State.fqPush_inv (s : State) (n : ℕ) (w : FqWord) (h1 : s.Inv) :
    (State.fqPush s n w).Inv := by
  unfold State.fqPush
  with_reducible repeat' first | assumption | apply State.setFq_inv | apply State.tickFree_inv | apply State.Inv_ite | intro _

theorem State.fqPushAll_inv (s : State) (n : ℕ) (ws : List FqWord) (h1 : s.Inv) :
    (State.fqPushAll s n ws).Inv := by
  unfold State.fqPushAll
  with_reducible repeat' first | assumption | apply State.fqPush_inv | apply State.Inv_foldl | intro _

theorem State.fqDrop_inv (s : State) (n : ℕ) (h1 : s.Inv) :
    (State.fqDrop s n).Inv := by
  unfold State.fqDrop
  with_reducible repeat' first | assumption | apply State.setB_inv | apply State.setSat_inv | apply State.setFq_inv | apply State.Inv_ite | intro _

theorem State.fqOffer_inv (s : State) (n : ℕ) (ws : List FqWord) (h1 : s.Inv) :
    (State.fqOffer s n ws).Inv := by
  unfold State.fqOffer
  with_reducible repeat' first | assumption | apply State.fqPushAll_inv | apply State.fqDrop_inv | apply State.Inv_ite | intro _

theorem State.fqLeave_inv (s : State) (k : Nat) (data : Nat) (h1 : s.Inv) :
    (State.fqLeave s k data).Inv := by
  unfold State.fqLeave
  with_reducible repeat' first | assumption | apply State.modMm_inv | apply State.Inv_ite | intro _ | dsimp only | (apply State.Inv_of_pair; · assumption) | (apply State.Inv_of_pair'; · assumption)

theorem State.fqPop_inv (s : State) (n : Nat) (h1 : s.Inv) :
    (State.fqPop s n).Inv := by
  unfold State.fqPop
  with_reducible repeat' first | assumption | apply State.count_inv | apply State.setB_inv | apply State.fqLeave_inv | apply State.setFq_inv | apply State.Inv_ite | intro _ | dsimp only | split

theorem State.rxCut_inv (s : State) (n : Nat) (popped : Bool) (h1 : s.Inv) :
    (State.rxCut s n popped).Inv := by
  unfold State.rxCut
  refine State.forN_inv _ _ _ h1 fun u e hu => ?_
  exact State.Inv_ite (fun _ => State.Inv_qe hu (twf_tput hu.qeOk _ _)) (fun _ => hu)

theorem State.fqFlush_inv (s : State) (n : Nat) (h1 : s.Inv) :
    (State.fqFlush s n).Inv := by
  unfold State.fqFlush
  with_reducible repeat' first | assumption | apply State.rxCut_inv | apply State.fqLeave_inv | apply State.setFq_inv | apply State.Inv_ite | apply State.Inv_foldl | apply State.Inv_foldl_fst | intro _ | dsimp only | (apply State.Inv_of_pair; · assumption) | (apply State.Inv_of_pair'; · assumption)

theorem fqSkipWords_inv (a0 : ℕ) (a1 : ℕ) (a2 : State) (h1 : a2.Inv) :
    (fqSkipWords a0 a1 a2).1.Inv := by
  fun_induction fqSkipWords a0 a1 a2
  all_goals with_reducible repeat' first | assumption | apply State.fqPop_inv | apply_assumption

theorem State.fqSkip_inv (s : State) (n : ℕ) (h1 : s.Inv) :
    (State.fqSkip s n).1.Inv := by
  unfold State.fqSkip
  with_reducible repeat' first | assumption | apply fqSkipWords_inv

theorem State.fqPopN_inv (s : State) (n : ℕ) (a2 : ℕ) (h1 : s.Inv) :
    (State.fqPopN s n a2).Inv := by
  fun_induction State.fqPopN s n a2
  all_goals with_reducible repeat' first | assumption | apply State.fqPop_inv | apply_assumption

theorem State.setRawCell_inv (s : State) (c : Nat) (i : Nat) (f : FqWord → FqWord) (h1 : s.Inv) :
    (State.setRawCell s c i f).Inv := by
  unfold State.setRawCell
  with_reducible repeat' first | assumption | apply State.setFq_inv | apply State.wrN_inv | apply State.modMm_inv | apply State.Inv_ite | intro _ | dsimp only | (apply State.Inv_of_pair; · assumption) | (apply State.Inv_of_pair'; · assumption) | split

theorem ferryHook_inv (a0 : ℕ) (i : ℕ) (w : Word) (s : State) (h1 : s.Inv) :
    (ferryHook a0 i w s).Inv := by
  unfold ferryHook
  with_reducible repeat' first | assumption | apply State.fqFlush_inv | apply State.setFq_inv | apply State.setReg_inv | apply State.fqPush_inv | apply State.Inv_ite | intro _

theorem State.fqDataRead_inv (s : State) (n : ℕ) (h1 : s.Inv) :
    (State.fqDataRead s n).Inv := by
  unfold State.fqDataRead
  with_reducible repeat' first | assumption | apply State.setReg_inv | apply State.fqPop_inv | split

theorem ferryRead_inv (a0 : ℕ) (i : ℕ) (s : State) (h1 : s.Inv) :
    (ferryRead a0 i s).Inv := by
  unfold ferryRead
  with_reducible repeat' first | assumption | apply State.fqDataRead_inv | apply State.Inv_ite | intro _

/-! ## Qe -/

theorem State.setQe_inv (s : State) (n : ℕ) (q : QeSt) (h1 : s.Inv) :
    (State.setQe s n q).Inv := by
  unfold State.setQe
  with_reducible repeat' first | assumption | apply twf_tput | apply State.Inv.qeOk | apply State.Inv_qe

theorem State.setLow_inv (s : State) (n : ℕ) (a : ℕ) (v : ℕ) (h1 : s.Inv) :
    (State.setLow s n a v).Inv := by
  unfold State.setLow
  with_reducible repeat' first | assumption | apply State.store_inv

theorem State.fixLow_inv (s : State) (n : ℕ) (h1 : s.Inv) :
    (State.fixLow s n).Inv := by
  unfold State.fixLow
  with_reducible repeat' first | assumption | apply State.wrN_inv | apply State.Inv_ite | intro _

theorem State.setQflags_inv (s : State) (n : ℕ) (v : ℕ) (h1 : s.Inv) :
    (State.setQflags s n v).Inv := by
  unfold State.setQflags
  with_reducible repeat' first | assumption | apply State.setLow_inv

theorem State.raiseEv_inv (s : State) (n : ℕ) (e : ℕ) (h1 : s.Inv) :
    (State.raiseEv s n e).Inv := by
  unfold State.raiseEv
  with_reducible repeat' first | assumption | apply State.setReg_inv

theorem State.clearEv_inv (s : State) (n : ℕ) (mask : ℕ) (h1 : s.Inv) :
    (State.clearEv s n mask).Inv := by
  unfold State.clearEv
  with_reducible repeat' first | assumption | apply State.setReg_inv

theorem State.raisePsig_inv (s : State) (p : Nat) (h1 : s.Inv) :
    (State.raisePsig s p).Inv := by
  unfold State.raisePsig
  with_reducible repeat' first | assumption | apply State.forN_inv | apply State.raiseEv_inv | apply State.Inv_ite | intro _

theorem State.raiseDmaw_inv (s : State) (c : ℕ) (h1 : s.Inv) :
    (State.raiseDmaw s c).Inv := by
  unfold State.raiseDmaw
  with_reducible repeat' first | assumption | apply State.forN_inv | apply State.raiseEv_inv | apply State.Inv_ite | intro _

theorem State.raiseLink_inv (s : State) (p : ℕ) (h1 : s.Inv) :
    (State.raiseLink s p).Inv := by
  unfold State.raiseLink
  with_reducible repeat' first | assumption | apply State.forN_inv | apply State.raiseEv_inv | apply State.Inv_ite | apply State.Inv_foldl | intro _

theorem State.raiseMoor_inv (s : State) (n : ℕ) (word : ℕ) (h1 : s.Inv) :
    (State.raiseMoor s n word).Inv := by
  unfold State.raiseMoor
  with_reducible repeat' first | assumption | apply State.raiseEv_inv | apply State.Inv_ite | intro _

theorem State.forget_inv (s : State) (p : WaitAcc → Bool) (h1 : s.Inv) :
    (State.forget s p).Inv := by
  unfold State.forget
  with_reducible repeat' first | assumption | apply State.Inv_ite | apply State.Inv_ite_fst | apply State.Inv_foldl | intro _ | dsimp only | (apply State.Inv_of_pair; · assumption) | (apply State.Inv_of_pair'; · assumption) | split | apply State.Inv_mk

theorem State.dropReads_inv (s : State) (n : Nat) (h1 : s.Inv) :
    (State.dropReads s n).Inv := by
  unfold State.dropReads
  with_reducible repeat' first | assumption | apply State.forget_inv | apply State.Inv_ite | intro _ | apply State.Inv_mk | apply State.Inv_ite_fst | apply State.Inv_foldl | dsimp only | (apply State.Inv_of_pair; · assumption) | (apply State.Inv_of_pair'; · assumption) | split

theorem State.saveRep_inv (s : State) (n : ℕ) (h1 : s.Inv) :
    (State.saveRep s n).Inv := by
  unfold State.saveRep
  with_reducible repeat' first | assumption | apply State.eccRead_inv | apply State.setQflags_inv | apply State.setLow_inv | apply State.setQe_inv | apply State.Inv_ite | intro _ | split | apply State.Inv_ite_fst | apply State.Inv_foldl | dsimp only | (apply State.Inv_of_pair; · assumption) | (apply State.Inv_of_pair'; · assumption) | apply State.Inv_mk

theorem State.qeHalt_inv (s : State) (n : Nat) (c : HaltCause) (h1 : s.Inv) :
    (State.qeHalt s n c).Inv := by
  unfold State.qeHalt
  with_reducible repeat' first | assumption | apply State.saveRep_inv | apply State.dropReads_inv | apply State.setQe_inv | apply State.setIf_inv | apply State.Inv_ite

theorem State.trapEntry_inv (s : State) (n : Nat) (t : TrapInfo) (h1 : s.Inv) :
    (State.trapEntry s n t).Inv := by
  unfold State.trapEntry
  with_reducible repeat' first | assumption | apply State.saveRep_inv | apply State.dropReads_inv | apply State.setQe_inv | apply State.qeHalt_inv | apply State.logEv_inv | apply State.setLow_inv | apply State.count_inv | apply State.setB_inv | apply State.eccRead_inv | apply State.setQflags_inv | apply State.Inv_ite | intro _ | apply State.Inv_ite_fst | apply State.Inv_foldl | dsimp only | (apply State.Inv_of_pair; · assumption) | (apply State.Inv_of_pair'; · assumption) | split | apply State.Inv_mk

theorem State.stepDone_inv (s : State) (n : Nat) (h1 : s.Inv) :
    (State.stepDone s n).Inv := by
  unfold State.stepDone
  with_reducible repeat' first | assumption | apply State.qeHalt_inv | apply State.Inv_ite | intro _

theorem State.takeIrq_inv (s : State) (n : Nat) (e : Nat) (h1 : s.Inv) :
    (State.takeIrq s n e).Inv := by
  unfold State.takeIrq
  with_reducible repeat' first | assumption | apply State.trapEntry_inv | apply State.stepDone_inv | apply State.Inv_ite

theorem eventInterrupt_inv (n : Nat) (s : State) (h1 : s.Inv) :
    (eventInterrupt n s).Inv := by
  unfold eventInterrupt
  with_reducible repeat' first | assumption | apply State.takeIrq_inv | apply State.Inv_ite | intro _ | split

theorem qeWatchdogExpiry_inv (n : Nat) (s : State) (h1 : s.Inv) :
    (qeWatchdogExpiry n s).Inv := by
  unfold qeWatchdogExpiry
  with_reducible repeat' first | assumption | apply State.eccRead_inv | apply State.qeHalt_inv | apply State.setB_inv | apply State.logEv_inv | apply State.setQe_inv | apply State.trapEntry_inv | apply State.stepDone_inv | apply State.Inv_ite | intro _ | apply State.Inv_ite_fst | apply State.Inv_foldl | dsimp only | (apply State.Inv_of_pair; · assumption) | (apply State.Inv_of_pair'; · assumption) | split | apply State.Inv_mk

theorem qeTimer_inv (n : ℕ) (s : State) (h1 : s.Inv) :
    (qeTimer n s).Inv := by
  unfold qeTimer
  with_reducible repeat' first | assumption | apply State.raiseEv_inv | apply State.Inv_ite | intro _

theorem State.qeStart_inv (s : State) (n : ℕ) (h1 : s.Inv) :
    (State.qeStart s n).Inv := by
  unfold State.qeStart
  with_reducible repeat' first | assumption | apply State.setQe_inv | apply State.setLow_inv | apply State.setQflags_inv | apply State.setReg_inv

theorem State.qeTryStart_inv (s : State) (n : ℕ) (h1 : s.Inv) :
    (State.qeTryStart s n).Inv := by
  unfold State.qeTryStart
  with_reducible repeat' first | assumption | apply State.qeStart_inv | apply State.setB_inv | apply State.Inv_ite | intro _

theorem State.qeStop_inv (s : State) (n : Nat) (h1 : s.Inv) :
    (State.qeStop s n).Inv := by
  unfold State.qeStop
  with_reducible repeat' first | assumption | apply State.setQe_inv | apply State.Inv_ite | dsimp only | split

theorem qeStopLands_inv (n : Nat) (s : State) (h1 : s.Inv) :
    (qeStopLands n s).Inv := by
  unfold qeStopLands
  with_reducible repeat' first | assumption | apply State.saveRep_inv | apply State.dropReads_inv | apply State.setQe_inv | apply State.Inv_ite | intro _

theorem State.qeDebugHalt_inv (s : State) (n : ℕ) (h1 : s.Inv) :
    (State.qeDebugHalt s n).Inv := by
  unfold State.qeDebugHalt
  with_reducible repeat' first | assumption | apply State.setQe_inv | apply State.qeHalt_inv | apply State.Inv_ite | intro _

theorem State.qeResume_inv (s : State) (n : ℕ) (h1 : s.Inv) :
    (State.qeResume s n).Inv := by
  unfold State.qeResume
  with_reducible repeat' first | assumption | apply State.setQe_inv | apply State.Inv_ite | intro _

theorem State.qeStepArm_inv (s : State) (n : Nat) (h1 : s.Inv) :
    (State.qeStepArm s n).Inv := by
  unfold State.qeStepArm
  with_reducible repeat' first | assumption | apply State.setQe_inv | apply State.Inv_ite | intro _

theorem State.qeCtl_inv (s : State) (n : ℕ) (w : Word) (h1 : s.Inv) :
    (State.qeCtl s n w).Inv := by
  unfold State.qeCtl
  with_reducible repeat' first | assumption | apply State.qeTryStart_inv | apply State.qeStop_inv | apply State.qeDebugHalt_inv | apply State.qeResume_inv | apply State.qeStepArm_inv | apply State.Inv_ite | intro _

theorem State.berthStart_inv (s : State) (b : ℕ) (h1 : s.Inv) :
    (State.berthStart s b).Inv := by
  unfold State.berthStart
  with_reducible repeat' first | assumption | apply State.qeStart_inv | apply State.setB_inv | apply State.Inv_ite | apply State.Inv_foldl | intro _

theorem State.berthStop_inv (s : State) (b : ℕ) (h1 : s.Inv) :
    (State.berthStop s b).Inv := by
  unfold State.berthStop
  with_reducible repeat' first | assumption | apply State.qeStop_inv | apply State.Inv_foldl

theorem State.berthNotify_inv (s : State) (b : ℕ) (h1 : s.Inv) :
    (State.berthNotify s b).Inv := by
  unfold State.berthNotify
  with_reducible repeat' first | assumption | apply State.raiseEv_inv | apply State.Inv_foldl | intro _

theorem State.berthReset_inv (s : State) (b : ℕ) (h1 : s.Inv) :
    (State.berthReset s b).Inv := by
  unfold State.berthReset
  with_reducible repeat' first | assumption | apply State.logEv_inv | apply State.setB_inv | apply State.berthStop_inv | apply State.Inv_ite | intro _

theorem berthResetEnd_inv (b : Nat) (s : State) (h1 : s.Inv) :
    (berthResetEnd b s).Inv := by
  unfold berthResetEnd
  with_reducible repeat' first | assumption | apply qeStopLands_inv | apply State.qeStop_inv | apply State.setReg_inv | apply State.fqFlush_inv | apply State.clrB_inv | apply State.Inv_ite | apply State.Inv_foldl | apply State.Inv_foldl_fst | intro _ | dsimp only | (apply State.Inv_of_pair; · assumption) | (apply State.Inv_of_pair'; · assumption)

theorem State.berthCtl_inv (s : State) (b : ℕ) (w : Word) (h1 : s.Inv) :
    (State.berthCtl s b w).Inv := by
  unfold State.berthCtl
  with_reducible repeat' first | assumption | apply State.berthStart_inv | apply State.berthStop_inv | apply State.berthReset_inv | apply State.berthNotify_inv | apply State.Inv_ite | intro _

theorem qeHook_inv (a0 : ℕ) (i : ℕ) (old : Word) (w : Word) (s : State) (h1 : s.Inv) :
    (qeHook a0 i old w s).Inv := by
  unfold qeHook
  with_reducible repeat' first | assumption | apply State.qeCtl_inv | apply State.setReg_inv | apply State.setQe_inv | apply State.berthCtl_inv | apply State.Inv_ite | intro _

/-! ## Motion -/

theorem State.setAx_inv (s : State) (n : ℕ) (x : AxSt) (h1 : s.Inv) :
    (State.setAx s n x).Inv := by
  unfold State.setAx
  with_reducible repeat' first | assumption | apply twf_tput | apply State.Inv.axOk | apply State.Inv_ax

theorem State.setGrp_inv (s : State) (g : ℕ) (x : GrpSt) (h1 : s.Inv) :
    (State.setGrp s g x).Inv := by
  unfold State.setGrp
  with_reducible repeat' first | assumption | apply twf_tput | apply State.Inv.grpOk | apply State.Inv_grp

theorem State.setChop_inv (s : State) (n : ℕ) (x : ChopSt) (h1 : s.Inv) :
    (State.setChop s n x).Inv := by
  unfold State.setChop
  with_reducible repeat' first | assumption | apply twf_tput | apply State.Inv.chopOk | apply State.Inv_chop

theorem State.chopOff_inv (s : State) (n : ℕ) (h1 : s.Inv) :
    (State.chopOff s n).Inv := by
  unfold State.chopOff
  with_reducible repeat' first | assumption | apply State.setChop_inv | apply State.Inv_ite | intro _

theorem State.stallEnd_inv (s : State) (n : Nat) (h1 : s.Inv) :
    (State.stallEnd s n).Inv := by
  unfold State.stallEnd
  with_reducible repeat' first | assumption | apply State.setChop_inv | apply State.Inv_ite | intro _

theorem State.setTarget_inv (s : State) (n : ℕ) (t : ℤ) (h1 : s.Inv) :
    (State.setTarget s n t).Inv := by
  unfold State.setTarget
  with_reducible repeat' first | assumption | apply State.setReg_inv

theorem State.setLimitFlag_inv (s : State) (n : ℕ) (positive : Bool) (h1 : s.Inv) :
    (State.setLimitFlag s n positive).Inv := by
  unfold State.setLimitFlag
  with_reducible repeat' first | assumption | apply State.setB_inv | apply State.Inv_ite | intro _

theorem State.axPlace_inv (s : State) (n : Nat) (x : AxSt) (p : Int) (v : Int) (h1 : s.Inv) :
    (State.axPlace s n x p v).Inv := by
  unfold State.axPlace
  with_reducible repeat' first | assumption | apply State.setAx_inv | apply State.setChop_inv | apply State.Inv_ite | intro _

theorem State.axMove_inv (s : State) (n : ℕ) (x : AxSt) (p : ℤ) (v : ℤ) (h1 : s.Inv) :
    (State.axMove s n x p v).Inv := by
  unfold State.axMove
  with_reducible repeat' first | assumption | apply State.setB_inv | apply State.axPlace_inv | apply State.Inv_ite | intro _

theorem State.axStopTick_inv (s : State) (n : ℕ) (x : AxSt) (h1 : s.Inv) :
    (State.axStopTick s n x).Inv := by
  unfold State.axStopTick
  with_reducible repeat' first | assumption | apply State.setLimitFlag_inv | apply State.setIf_inv | apply State.setAx_inv | apply State.axMove_inv | apply State.Inv_ite | intro _ | split

theorem State.axStopNow_inv (s : State) (n : ℕ) (x : AxSt) (req : ℕ) (lim : Option Bool) (h1 : s.Inv) :
    (State.axStopNow s n x req lim).Inv := by
  unfold State.axStopNow
  with_reducible repeat' first | assumption | apply State.axStopTick_inv

theorem State.axDone_inv (s : State) (n : Nat) (req : Nat) (v : Int) (lim : Option Bool) (h1 : s.Inv) :
    (State.axDone s n req v lim).Inv := by
  unfold State.axDone
  with_reducible repeat' first | assumption | apply State.setB_inv | apply State.setLimitFlag_inv | apply State.setAx_inv | apply State.setTarget_inv | apply State.Inv_ite | intro _ | dsimp only | split

theorem State.axPosTick_inv (s : State) (n : Nat) (x : AxSt) (req : Nat) (h1 : s.Inv) :
    (State.axPosTick s n x req).Inv := by
  unfold State.axPosTick
  with_reducible repeat' first | assumption | apply State.setIf_inv | apply State.axMove_inv | apply State.axDone_inv | apply State.axStopNow_inv | apply State.Inv_ite | intro _ | dsimp only | (apply State.Inv_of_pair; · assumption) | (apply State.Inv_of_pair'; · assumption) | split

theorem State.axVelTick_inv (s : State) (n : Nat) (x : AxSt) (req : Nat) (h1 : s.Inv) :
    (State.axVelTick s n x req).Inv := by
  unfold State.axVelTick
  with_reducible repeat' first | assumption | apply State.axMove_inv | apply State.setLimitFlag_inv | apply State.setB_inv | apply State.axStopNow_inv | apply State.Inv_ite | intro _ | dsimp only | split

theorem State.homeFail_inv (s : State) (n : ℕ) (x : AxSt) (err : ℕ) (h1 : s.Inv) :
    (State.homeFail s n x err).Inv := by
  unfold State.homeFail
  with_reducible repeat' first | assumption | apply State.setB_inv | apply State.setAx_inv

theorem State.homeSet_inv (s : State) (n : Nat) (x : AxSt) (h1 : s.Inv) :
    (State.homeSet s n x).Inv := by
  unfold State.homeSet
  with_reducible repeat' first | assumption | apply State.setAx_inv | apply State.setB_inv | apply State.Inv_ite | intro _

theorem State.homeTick_inv (s : State) (n : Nat) (x : AxSt) (req : Nat) (h1 : s.Inv) :
    (State.homeTick s n x req).Inv := by
  unfold State.homeTick
  with_reducible repeat' first | assumption | apply State.homeSet_inv | apply State.setAx_inv | apply State.setB_inv | apply State.homeFail_inv | apply State.axStopNow_inv | apply State.setLimitFlag_inv | apply State.axStopTick_inv | apply State.axMove_inv | apply State.Inv_ite | intro _ | dsimp only | (apply State.Inv_of_pair; · assumption) | (apply State.Inv_of_pair'; · assumption) | split

theorem State.axStall_inv (s : State) (n : Nat) (h1 : s.Inv) :
    (State.axStall s n).Inv := by
  unfold State.axStall
  with_reducible repeat' first | assumption | apply State.setAx_inv | apply State.stallEnd_inv | apply State.Inv_ite | intro _

theorem State.axIndex_inv (s : State) (n : ℕ) (h1 : s.Inv) :
    (State.axIndex s n).Inv := by
  unfold State.axIndex
  with_reducible repeat' first | assumption | apply State.setAx_inv | apply State.Inv_ite | intro _

theorem State.axRefuse_inv (s : State) (n : ℕ) (r : ℕ) (h1 : s.Inv) :
    (State.axRefuse s n r).Inv := by
  unfold State.axRefuse
  with_reducible repeat' first | assumption | apply State.setB_inv | apply State.setAx_inv

theorem State.axBegin_inv (s : State) (n : ℕ) (h1 : s.Inv) :
    (State.axBegin s n).Inv := by
  unfold State.axBegin
  with_reducible repeat' first | assumption | apply State.setAx_inv

theorem State.axStart_inv (s : State) (n : Nat) (h1 : s.Inv) :
    (State.axStart s n).Inv := by
  unfold State.axStart
  with_reducible repeat' first | assumption | apply State.setAx_inv | apply State.axBegin_inv | apply State.axRefuse_inv | apply State.Inv_ite | intro _

theorem State.axArmNext_inv (s : State) (n : Nat) (h1 : s.Inv) :
    (State.axArmNext s n).Inv := by
  unfold State.axArmNext
  with_reducible repeat' first | assumption | apply State.axRefuse_inv | apply State.setAx_inv | apply State.setTarget_inv | apply State.axBegin_inv | apply State.Inv_ite | intro _

theorem State.axStop_inv (s : State) (n : Nat) (emer : Bool) (h1 : s.Inv) :
    (State.axStop s n emer).Inv := by
  unfold State.axStop
  with_reducible repeat' first | assumption | apply State.setAx_inv | apply State.setB_inv | apply State.Inv_ite | intro _ | dsimp only | split

theorem State.axHome_inv (s : State) (n : Nat) (h1 : s.Inv) :
    (State.axHome s n).Inv := by
  unfold State.axHome
  with_reducible repeat' first | assumption | apply State.setAx_inv | apply State.axRefuse_inv | apply State.Inv_ite | intro _

theorem State.axClear_inv (s : State) (n : ℕ) (h1 : s.Inv) :
    (State.axClear s n).Inv := by
  unfold State.axClear
  with_reducible repeat' first | assumption | apply State.setAx_inv | apply State.Inv_ite | intro _

theorem State.grpRefuse_inv (s : State) (g : ℕ) (r : ℕ) (h1 : s.Inv) :
    (State.grpRefuse s g r).Inv := by
  unfold State.grpRefuse
  with_reducible repeat' first | assumption | apply State.setB_inv | apply State.setGrp_inv

theorem State.grpStart_inv (s : State) (g : Nat) (h1 : s.Inv) :
    (State.grpStart s g).Inv := by
  unfold State.grpStart
  with_reducible repeat' first | assumption | apply State.setGrp_inv | apply State.grpRefuse_inv | apply State.setAx_inv | apply State.Inv_ite | apply State.Inv_foldl | apply State.Inv_foldl_fst | intro _

theorem State.grpStop_inv (s : State) (g : Nat) (emer : Bool) (h1 : s.Inv) :
    (State.grpStop s g emer).Inv := by
  unfold State.grpStop
  with_reducible repeat' first | assumption | apply State.setGrp_inv | apply State.setB_inv | apply State.Inv_ite | intro _ | dsimp only | split

theorem State.grpClear_inv (s : State) (g : ℕ) (h1 : s.Inv) :
    (State.grpClear s g).Inv := by
  unfold State.grpClear
  with_reducible repeat' first | assumption | apply State.setGrp_inv | apply State.Inv_ite | intro _

theorem State.grpSetpoints_inv (s : State) (g : ℕ) (sps : List (Option ℤ)) (h1 : s.Inv) :
    (State.grpSetpoints s g sps).Inv := by
  unfold State.grpSetpoints
  with_reducible repeat' first | assumption | apply State.setAx_inv | apply State.setGrp_inv | apply State.setB_inv | apply State.Inv_ite | apply State.Inv_foldl | intro _ | split

theorem State.grpTakeSets_inv (s : State) (g : ℕ) (h1 : s.Inv) :
    (State.grpTakeSets s g).Inv := by
  unfold State.grpTakeSets
  with_reducible repeat' first | assumption | apply State.setIf_inv | apply State.setAx_inv | apply State.countN_inv | apply State.setGrp_inv | apply State.Inv_ite | apply State.Inv_foldl | intro _ | split

theorem State.grpDropSets_inv (s : State) (g : ℕ) (h1 : s.Inv) :
    (State.grpDropSets s g).Inv := by
  unfold State.grpDropSets
  with_reducible repeat' first | assumption | apply State.setAx_inv | apply State.setB_inv | apply State.setGrp_inv | apply State.Inv_ite | apply State.Inv_foldl | intro _

theorem State.placeMembers_inv (s : State) (x : GrpSt) (final : Bool) (h1 : s.Inv) :
    (State.placeMembers s x final).Inv := by
  unfold State.placeMembers
  with_reducible repeat' first | assumption | apply State.axMove_inv | apply State.Inv_ite | apply State.Inv_foldl | intro _

theorem State.freeMembers_inv (s : State) (ms : List ℕ) (h1 : s.Inv) :
    (State.freeMembers s ms).Inv := by
  unfold State.freeMembers
  with_reducible repeat' first | assumption | apply State.setAx_inv | apply State.Inv_ite | apply State.Inv_foldl | intro _

theorem State.setLimits_inv (s : State) (l : List (ℕ × Bool)) (h1 : s.Inv) :
    (State.setLimits s l).Inv := by
  unfold State.setLimits
  with_reducible repeat' first | assumption | apply State.setLimitFlag_inv | apply State.Inv_foldl | intro _

theorem State.grpLimited_inv (s : State) (g : ℕ) (x : GrpSt) (l : List (ℕ × Bool)) (h1 : s.Inv) :
    (State.grpLimited s g x l).1.Inv := by
  unfold State.grpLimited
  with_reducible repeat' first | assumption | apply State.setB_inv | apply State.setLimits_inv | apply State.Inv_ite_fst | intro _

theorem State.grpStopped_inv (s : State) (g : ℕ) (x : GrpSt) (h1 : s.Inv) :
    (State.grpStopped s g x).Inv := by
  unfold State.grpStopped
  with_reducible repeat' first | assumption | apply State.setB_inv | apply State.setGrp_inv

theorem State.grpLinStop_inv (s : State) (g : ℕ) (x : GrpSt) (h1 : s.Inv) :
    (State.grpLinStop s g x).Inv := by
  unfold State.grpLinStop
  with_reducible repeat' first | assumption | apply State.grpStopped_inv | apply State.placeMembers_inv | apply State.setGrp_inv | apply State.grpLimited_inv | apply State.Inv_ite | intro _

theorem State.grpCycStop_inv (s : State) (g : ℕ) (x : GrpSt) (h1 : s.Inv) :
    (State.grpCycStop s g x).Inv := by
  unfold State.grpCycStop
  with_reducible repeat' first | assumption | apply State.grpStopped_inv | apply State.axMove_inv | apply State.grpDropSets_inv | apply State.setGrp_inv | apply State.grpLimited_inv | apply State.Inv_ite | apply State.Inv_foldl | intro _

theorem State.grpStopNow_inv (s : State) (g : ℕ) (x : GrpSt) (emer : Bool) (toFault : Bool) (h1 : s.Inv) :
    (State.grpStopNow s g x emer toFault).Inv := by
  unfold State.grpStopNow
  with_reducible repeat' first | assumption | apply State.grpLinStop_inv | apply State.setAx_inv | apply State.setGrp_inv | apply State.grpCycStop_inv | apply State.Inv_ite | apply State.Inv_foldl | intro _

theorem State.grpLinTick_inv (s : State) (g : Nat) (x : GrpSt) (req : Nat) (h1 : s.Inv) :
    (State.grpLinTick s g x req).Inv := by
  unfold State.grpLinTick
  with_reducible repeat' first | assumption | apply State.setIf_inv | apply State.setGrp_inv | apply State.placeMembers_inv | apply State.setLimits_inv | apply State.setAx_inv | apply State.setB_inv | apply State.grpStopNow_inv | apply State.Inv_ite | apply State.Inv_foldl | apply State.Inv_foldl_fst | intro _ | dsimp only | (apply State.Inv_of_pair; · assumption) | (apply State.Inv_of_pair'; · assumption) | split

theorem State.followPlan_inv (s : State) (g : ℕ) (n : ℕ) (h1 : s.Inv) :
    (State.followPlan s g n).1.Inv := by
  unfold State.followPlan
  with_reducible repeat' first | assumption | apply State.setAx_inv | apply State.setB_inv | apply State.Inv_ite | intro _

theorem State.followPlans_inv (s : State) (g : ℕ) (h1 : s.Inv) :
    (State.followPlans s g).1.Inv := by
  unfold State.followPlans
  with_reducible repeat' first | assumption | apply State.followPlan_inv | apply State.Inv_foldl_fst | intro _

theorem State.grpCycTick_inv (s : State) (g : Nat) (x : GrpSt) (req : Nat) (h1 : s.Inv) :
    (State.grpCycTick s g x req).Inv := by
  unfold State.grpCycTick
  with_reducible repeat' first | assumption | apply State.grpStopNow_inv | apply State.grpTakeSets_inv | apply State.followPlans_inv | apply State.axMove_inv | apply State.setLimits_inv | apply State.setB_inv | apply State.Inv_ite | apply State.Inv_foldl | apply State.Inv_foldl_fst | intro _ | dsimp only | (apply State.Inv_of_pair; · assumption) | (apply State.Inv_of_pair'; · assumption) | split

theorem State.grpAct_inv (s : State) (g : ℕ) (w : Word) (h1 : s.Inv) :
    (State.grpAct s g w).Inv := by
  unfold State.grpAct
  with_reducible repeat' first | assumption | apply State.grpStart_inv | apply State.grpRefuse_inv | apply State.grpStop_inv | apply State.grpClear_inv | apply State.Inv_ite | intro _

theorem State.grpTick_inv (s : State) (g : Nat) (h1 : s.Inv) :
    (State.grpTick s g).Inv := by
  unfold State.grpTick
  with_reducible repeat' first | assumption | apply State.setGrp_inv | apply State.freeMembers_inv | apply State.grpAct_inv | apply State.grpLinTick_inv | apply State.grpCycTick_inv | apply State.grpLinStop_inv | apply State.grpCycStop_inv | apply State.Inv_ite | apply State.Inv_foldl | apply State.Inv_foldl_fst | intro _ | dsimp only | split

theorem State.axAct_inv (s : State) (n : ℕ) (a : AxAct) (h1 : s.Inv) :
    (State.axAct s n a).Inv := by
  unfold State.axAct
  with_reducible repeat' first | assumption | apply State.setAx_inv | apply State.axStart_inv | apply State.axRefuse_inv | apply State.grpStop_inv | apply State.axStop_inv | apply State.axHome_inv | apply State.axArmNext_inv | apply State.axClear_inv | apply State.Inv_ite | intro _ | split

theorem State.axTick_inv (s : State) (n : Nat) (h1 : s.Inv) :
    (State.axTick s n).Inv := by
  unfold State.axTick
  with_reducible repeat' first | assumption | apply State.axAct_inv | apply State.setAx_inv | apply State.axVelTick_inv | apply State.axPosTick_inv | apply State.axStopTick_inv | apply State.homeTick_inv | apply State.Inv_ite | apply State.Inv_foldl | apply State.Inv_foldl_fst | intro _ | dsimp only | split

theorem State.motionTick_inv (s : State) (h1 : s.Inv) :
    (State.motionTick s).Inv := by
  unfold State.motionTick
  with_reducible repeat' first | assumption | apply State.forN_inv | apply State.axTick_inv | apply State.grpTick_inv

theorem State.tickTaken_inv (s : State) (h1 : s.Inv) :
    (State.tickTaken s).Inv := by
  unfold State.tickTaken
  with_reducible repeat' first | assumption | apply State.Inv_mk

theorem State.setFiltered_inv (s : State) (n : Nat) (i : Nat) (l : Bool) (h1 : s.Inv) :
    (State.setFiltered s n i l).Inv := by
  unfold State.setFiltered
  with_reducible repeat' first | assumption | apply State.setAx_inv | apply State.setLimitFlag_inv | apply State.Inv_ite | intro _ | dsimp only | split

theorem rawInputEdge_inv (n : Nat) (i : Nat) (l : Bool) (s : State) (h1 : s.Inv) :
    (rawInputEdge n i l s).Inv := by
  unfold rawInputEdge
  with_reducible repeat' first | assumption | apply State.setAx_inv | apply State.countIf_inv | apply State.setFiltered_inv | apply State.Inv_ite | intro _

theorem debounceExpiry_inv (n : Nat) (i : Nat) (s : State) (h1 : s.Inv) :
    (debounceExpiry n i s).Inv := by
  unfold debounceExpiry
  with_reducible repeat' first | assumption | apply State.setFiltered_inv | apply State.Inv_ite | intro _

theorem State.axFault_inv (s : State) (n : Nat) (h1 : s.Inv) :
    (State.axFault s n).Inv := by
  unfold State.axFault
  with_reducible repeat' first | assumption | apply State.setAx_inv | apply State.chopOff_inv | apply State.stallEnd_inv | apply State.Inv_ite

theorem State.axSafe_inv (s : State) (n : Nat) (h1 : s.Inv) :
    (State.axSafe s n).Inv := by
  unfold State.axSafe
  with_reducible repeat' first | assumption | apply State.setAx_inv | apply State.stallEnd_inv | apply State.homeFail_inv | apply State.axFault_inv | apply State.setB_inv | apply State.Inv_ite | intro _ | dsimp only | split

theorem State.grpSafe_inv (s : State) (g : Nat) (h1 : s.Inv) :
    (State.grpSafe s g).Inv := by
  unfold State.grpSafe
  with_reducible repeat' first | assumption | apply State.setGrp_inv | apply State.grpDropSets_inv | apply State.setB_inv | apply State.Inv_ite | intro _

theorem State.axWait_inv (s : State) (n : ℕ) (a : AxAct) (h1 : s.Inv) :
    (State.axWait s n a).Inv := by
  unfold State.axWait
  with_reducible repeat' first | assumption | apply State.setAx_inv

theorem State.loadPos_inv (s : State) (n : ℕ) (hi : ℕ) (h1 : s.Inv) :
    (State.loadPos s n hi).Inv := by
  unfold State.loadPos
  with_reducible repeat' first | assumption | apply State.axWait_inv

theorem motionHook_inv (a0 : Nat) (i : Nat) (w : Word) (s : State) (h1 : s.Inv) :
    (motionHook a0 i w s).Inv := by
  unfold motionHook
  with_reducible repeat' first | assumption | apply State.axWait_inv | apply State.setReg_inv | apply State.loadPos_inv | apply State.setGrp_inv | apply State.Inv_ite | apply twf_tput | apply State.Inv.heldOk | intro _ | apply State.Inv_held

theorem motionRead_inv (a0 : ℕ) (i : ℕ) (s : State) (h1 : s.Inv) :
    (motionRead a0 i s).Inv := by
  unfold motionRead
  with_reducible repeat' first | assumption | apply State.Inv_ite | apply twf_tput | apply State.Inv.latchOk | intro _ | apply State.Inv_latch

/-! ## Hb -/

theorem State.tideDrop_inv (s : State) (bank : ℕ) (idx : ℕ) (reason : ℕ) (h1 : s.Inv) :
    (State.tideDrop s bank idx reason).Inv := by
  unfold State.tideDrop
  with_reducible repeat' first | assumption | apply State.setReg_inv | apply State.setB_inv | apply State.count_inv

theorem State.hbWrite_inv (s : State) (n : ℕ) (off : ℕ) (bs : List ℕ) (h1 : s.Inv) :
    (State.hbWrite s n off bs).Inv := by
  unfold State.hbWrite
  with_reducible repeat' first | assumption | apply State.setB_inv | apply State.store_inv

theorem State.setHbHeld_inv (s : State) (n : ℕ) (l : List HeldOp) (h1 : s.Inv) :
    (State.setHbHeld s n l).Inv := by
  unfold State.setHbHeld
  with_reducible repeat' first | assumption | apply twf_tput | apply State.Inv.hbOk | apply State.Inv_hb

theorem State.hbExchangeW_inv (s : State) (n : ℕ) (h1 : s.Inv) :
    (State.hbExchangeW s n).Inv := by
  unfold State.hbExchangeW
  with_reducible repeat' first | assumption | apply State.setReg_inv

theorem State.hbPublish_inv (s : State) (n : ℕ) (soft : Bool) (h1 : s.Inv) :
    (State.hbPublish s n soft).Inv := by
  unfold State.hbPublish
  with_reducible repeat' first | assumption | apply State.hbExchangeW_inv | apply State.count_inv | apply State.setB_inv | apply State.clrB_inv | apply State.Inv_ite | intro _

theorem State.hbAcquire_inv (s : State) (n : ℕ) (h1 : s.Inv) :
    (State.hbAcquire s n).Inv := by
  unfold State.hbAcquire
  with_reducible repeat' first | assumption | apply State.setReg_inv | apply State.count_inv | apply State.setB_inv | apply State.Inv_ite | intro _

theorem State.slotTake_inv (s : State) (n : Nat) (g : Nat) (off : Nat) (h1 : s.Inv) :
    (State.slotTake s n g off).Inv := by
  unfold State.slotTake
  with_reducible repeat' first | assumption | apply State.eccRead_inv | apply State.grpSetpoints_inv | apply State.Inv_ite

theorem State.hbApply_inv (s : State) (n : Nat) (o : HeldOp) (h1 : s.Inv) :
    (State.hbApply s n o).Inv := by
  unfold State.hbApply
  with_reducible repeat' first | assumption | apply State.hbPublish_inv | apply State.hbAcquire_inv | apply State.slotTake_inv | apply State.Inv_ite | intro _ | split

theorem State.performed_inv (s : State) (bank : Nat) (idx : Nat) (mark : Bool) (late : Bool) (h1 : s.Inv) :
    (State.performed s bank idx mark late).Inv := by
  unfold State.performed
  with_reducible repeat' first | assumption | apply State.setB_inv | apply State.setReg_inv | apply State.countIf_inv | apply State.Inv_ite | intro _

theorem State.hbOp_inv (s : State) (n : Nat) (o : HeldOp) (h1 : s.Inv) :
    (State.hbOp s n o).Inv := by
  unfold State.hbOp
  with_reducible repeat' first | assumption | apply State.setHbHeld_inv | apply State.setB_inv | apply State.hbApply_inv | apply State.Inv_ite | intro _

theorem State.latchDrop_inv (s : State) (h1 : s.Inv) :
    (State.latchDrop s).Inv := by
  unfold State.latchDrop
  with_reducible repeat' first | assumption | apply State.tickFree_inv | apply State.tideDrop_inv | apply State.Inv_ite

theorem State.hbLost_inv (s : State) (a0 : HbBy) (h1 : s.Inv) :
    (State.hbLost s a0).Inv := by
  unfold State.hbLost
  with_reducible repeat' first | assumption | apply State.tideDrop_inv | apply State.latchDrop_inv | apply State.Inv_ite | split

theorem State.hbDone_inv (s : State) (n : Nat) (o : HeldOp) (h1 : s.Inv) :
    (State.hbDone s n o).Inv := by
  unfold State.hbDone
  with_reducible repeat' first | assumption | apply State.hbApply_inv | apply State.performed_inv | apply State.Inv_ite | dsimp only | split | split

theorem hbDrain_inv (n : Nat) (a0 : List HeldOp) (a1 : State) (h1 : a1.Inv) :
    (hbDrain n a0 a1).Inv := by
  fun_induction hbDrain n a0 a1
  all_goals with_reducible repeat' first | assumption | apply State.setHbHeld_inv | apply State.hbLost_inv | apply State.hbDone_inv | apply_assumption | apply State.Inv_ite | intro _ | split

theorem heldOperationApply_inv (n : ℕ) (s : State) (h1 : s.Inv) :
    (heldOperationApply n s).Inv := by
  unfold heldOperationApply
  with_reducible repeat' first | assumption | apply hbDrain_inv

theorem State.grpLatch_inv (s : State) (g : Nat) (h1 : s.Inv) :
    (State.grpLatch s g).Inv := by
  unfold State.grpLatch
  with_reducible repeat' first | assumption | apply State.grpRefuse_inv | apply State.hbOp_inv | apply State.latchDrop_inv | apply State.Inv_ite | intro _

theorem State.hbCommand_inv (s : State) (w : Word) (h1 : s.Inv) :
    (State.hbCommand s w).Inv := by
  unfold State.hbCommand
  with_reducible repeat' first | assumption | apply State.hbOp_inv

theorem State.hbDisable_inv (s : State) (n : ℕ) (h1 : s.Inv) :
    (State.hbDisable s n).Inv := by
  unfold State.hbDisable
  with_reducible repeat' first | assumption | apply State.setHbHeld_inv

theorem State.hbEnable_inv (s : State) (n : ℕ) (h1 : s.Inv) :
    (State.hbEnable s n).Inv := by
  unfold State.hbEnable
  with_reducible repeat' first | assumption | apply State.setReg_inv

/-! ## Stow -/

theorem State.planEcc_inv (s : State) (p : ℕ) (h1 : s.Inv) :
    (State.planEcc s p).Inv := by
  unfold State.planEcc
  with_reducible repeat' first | assumption | apply State.eccRead_inv

theorem State.installPlan_inv (s : State) (p : ℕ) (lo : ℕ) (hi : ℕ) (ctl : ℕ) (base : ℕ) (h1 : s.Inv) :
    (State.installPlan s p lo hi ctl base).Inv := by
  unfold State.installPlan
  with_reducible repeat' first | assumption | apply State.setReg_inv

theorem State.commit_inv (s : State) (p : Nat) (h1 : s.Inv) :
    (State.commit s p).Inv := by
  unfold State.commit
  with_reducible repeat' first | assumption | apply State.eccRead_inv | apply State.setB_inv | apply State.setReg_inv | apply State.installPlan_inv | apply State.Inv_ite | intro _ | dsimp only | split

theorem State.commitStart_inv (s : State) (w : Word) (h1 : s.Inv) :
    (State.commitStart s w).Inv := by
  unfold State.commitStart
  with_reducible repeat' first | assumption | apply State.setReg_inv

theorem commitEnd_inv (s : State) (h1 : s.Inv) :
    (commitEnd s).Inv := by
  unfold commitEnd
  with_reducible repeat' first | assumption | apply State.commit_inv | apply State.setReg_inv | apply State.Inv_ite | intro _

theorem State.clearPlan_inv (s : State) (p : Nat) (h1 : s.Inv) :
    (State.clearPlan s p).Inv := by
  unfold State.clearPlan
  with_reducible repeat' first | assumption | apply State.clrB_inv | apply State.setB_inv | apply State.Inv_ite

theorem State.stowClear_inv (s : State) (p : Nat) (h1 : s.Inv) :
    (State.stowClear s p).Inv := by
  unfold State.stowClear
  with_reducible repeat' first | assumption | apply State.setReg_inv | apply State.clearPlan_inv | apply State.Inv_ite | intro _ | apply State.Inv_mk

theorem State.stowHeldClear_inv (s : State) (h1 : s.Inv) :
    (State.stowHeldClear s).Inv := by
  unfold State.stowHeldClear
  with_reducible repeat' first | assumption | apply State.clearPlan_inv | apply State.setReg_inv | apply State.Inv_ite | intro _ | split | apply State.Inv_mk

theorem State.setPort_inv (s : State) (n : Nat) (p : PortSt) (h1 : s.Inv) :
    (State.setPort s n p).Inv := by
  unfold State.setPort
  with_reducible repeat' first | assumption | apply twf_tput | apply State.Inv.portOk | apply State.Inv_port | apply State.Inv_ite | intro _ | apply State.Inv_mk

theorem State.modPort_inv (s : State) (n : Nat) (f : PortSt → PortSt) (h1 : s.Inv) :
    (State.modPort s n f).Inv := by
  unfold State.modPort
  with_reducible repeat' first | assumption | apply State.setPort_inv | apply State.Inv_ite

theorem State.extractOne_inv (s : State) (bs : List Nat) (frm : Nat) (to_ : Nat) (e : Nat) (later : List Nat) (h1 : s.Inv) :
    (State.extractOne s bs frm to_ e later).1.Inv := by
  unfold State.extractOne
  with_reducible repeat' first | assumption | apply State.hbWrite_inv | apply State.Inv_ite | apply State.Inv_ite_fst | apply State.Inv_foldl | apply State.Inv_foldl_fst | intro _

theorem State.extractAll_inv (s : State) (bs : List Nat) (frm : Nat) (to_ : Nat) (a0 : List Nat) (h1 : s.Inv) :
    (State.extractAll s bs frm to_ a0).1.Inv := by
  fun_induction State.extractAll s bs frm to_ a0
  all_goals with_reducible repeat' first | assumption | apply State.extractOne_inv | apply_assumption | apply State.Inv_ite | apply State.Inv_ite_fst | intro _ | dsimp only | (apply State.Inv_of_pair; · assumption) | (apply State.Inv_of_pair'; · assumption) | split

theorem State.taintAll_inv (s : State) (bufs : List ℕ) (h1 : s.Inv) :
    (State.taintAll s bufs).Inv := by
  unfold State.taintAll
  with_reducible repeat' first | assumption | apply State.setB_inv | apply State.Inv_foldl | intro _

theorem State.insertEcc_inv (s : State) (es : List Nat) (frm to_ : Nat) (h1 : s.Inv) :
    (State.insertEcc s es frm to_).Inv := by
  unfold State.insertEcc
  with_reducible repeat' first | assumption | apply State.eccRead_inv | apply State.Inv_ite | apply State.Inv_foldl | apply State.Inv_foldl_fst | intro _

theorem stowHook_inv (a0 : Nat) (w : Word) (s : State) (h1 : s.Inv) :
    (stowHook a0 w s).Inv := by
  unfold stowHook
  with_reducible repeat' first | assumption | apply State.commitStart_inv | apply State.stowClear_inv | apply State.Inv_ite | intro _

/-! ## Sw -/

theorem State.modSw_inv (s : State) (f : SwSt → SwSt) (h1 : s.Inv) :
    (State.modSw s f).Inv := by
  unfold State.modSw
  with_reducible repeat' first | assumption | apply State.Inv_mk

theorem State.setMac_inv (s : State) (i : ℕ) (e : Option MacEntry) (h1 : s.Inv) :
    (State.setMac s i e).Inv := by
  unfold State.setMac
  with_reducible repeat' first | assumption | apply State.modSw_inv

theorem State.macLearn_inv (s : State) (mac : ℕ) (fid : ℕ) (port : ℕ) (h1 : s.Inv) :
    (State.macLearn s mac fid port).Inv := by
  unfold State.macLearn
  with_reducible repeat' first | assumption | apply State.setMac_inv | apply State.setB_inv | apply State.Inv_ite | intro _ | split

theorem agePass_inv (s : State) (h1 : s.Inv) :
    (agePass s).Inv := by
  unfold agePass
  with_reducible repeat' first | assumption | apply State.setMac_inv | apply State.Inv_ite | apply State.Inv_foldl | intro _ | split

theorem State.macFound_inv (s : State) (b : Bool) (h1 : s.Inv) :
    (State.macFound s b).Inv := by
  unfold State.macFound
  with_reducible repeat' first | assumption | apply State.putB_inv | apply State.clrB_inv

theorem State.macDelete_inv (s : State) (h1 : s.Inv) :
    (State.macDelete s).Inv := by
  unfold State.macDelete
  with_reducible repeat' first | assumption | apply State.macFound_inv | apply State.setMac_inv | split

theorem State.macLookup_inv (s : State) (h1 : s.Inv) :
    (State.macLookup s).Inv := by
  unfold State.macLookup
  with_reducible repeat' first | assumption | apply State.macFound_inv | apply State.setReg_inv | split

theorem State.macWrite_inv (s : State) (h1 : s.Inv) :
    (State.macWrite s).Inv := by
  unfold State.macWrite
  with_reducible repeat' first | assumption | apply State.macDelete_inv | apply State.macFound_inv | apply State.setMac_inv | apply State.setB_inv | apply State.Inv_ite | intro _ | split

theorem State.macFlush_inv (s : State) (h1 : s.Inv) :
    (State.macFlush s).Inv := by
  unfold State.macFlush
  with_reducible repeat' first | assumption | apply State.setMac_inv | apply State.Inv_ite | apply State.Inv_foldl | intro _ | split

theorem State.macReadIndex_inv (s : State) (h1 : s.Inv) :
    (State.macReadIndex s).Inv := by
  unfold State.macReadIndex
  with_reducible repeat' first | assumption | apply State.setReg_inv | split

theorem State.macOp_inv (s : State) (op : ℕ) (h1 : s.Inv) :
    (State.macOp s op).Inv := by
  unfold State.macOp
  with_reducible repeat' first | assumption | apply State.setB_inv | apply State.macLookup_inv | apply State.macWrite_inv | apply State.macDelete_inv | apply State.macFlush_inv | apply State.macReadIndex_inv | split

theorem State.vlanOp_inv (s : State) (w : Word) (h1 : s.Inv) :
    (State.vlanOp s w).Inv := by
  unfold State.vlanOp
  with_reducible repeat' first | assumption | apply State.setReg_inv | apply State.modSw_inv | apply State.Inv_ite | intro _

theorem State.setStr_inv (s : State) (c : ℕ) (x : StreamSt) (h1 : s.Inv) :
    (State.setStr s c x).Inv := by
  unfold State.setStr
  with_reducible repeat' first | assumption | apply State.modSw_inv

theorem State.strCount_inv (s : State) (c : ℕ) (i : ℕ) (h1 : s.Inv) :
    (State.strCount s c i).Inv := by
  unfold State.strCount
  with_reducible repeat' first | assumption | apply State.setSat_inv | apply State.setStr_inv | apply State.Inv_ite | intro _

theorem State.modCtx_inv (s : State) (c : Nat) (fr : Front) (f : StreamSt → StreamSt) (h1 : s.Inv) :
    (State.modCtx s c fr f).Inv := by
  unfold State.modCtx
  with_reducible repeat' first | assumption | apply State.modSw_inv | apply State.setStr_inv | apply State.Inv_ite | apply State.Inv_ite_fst | apply State.Inv_foldl | intro _ | dsimp only | (apply State.Inv_of_pair; · assumption) | (apply State.Inv_of_pair'; · assumption) | split | apply State.Inv_mk

theorem State.putBuckets_inv (s : State) (c : Nat) (fr : Front) (cbs : Nat) (ebs : Nat) (filled : Nat) (h1 : s.Inv) :
    (State.putBuckets s c fr cbs ebs filled).Inv := by
  unfold State.putBuckets
  with_reducible repeat' first | assumption | apply State.modCtx_inv | apply State.setStr_inv | apply State.Inv_ite | intro _ | apply State.Inv_ite_fst | apply State.Inv_foldl | dsimp only | (apply State.Inv_of_pair; · assumption) | (apply State.Inv_of_pair'; · assumption) | split | apply State.Inv_mk

theorem State.strNeed_inv (s : State) (c : Nat) (fr : Front) (x : StreamSt) (need : Nat) (h1 : s.Inv) :
    (State.strNeed s c fr x need).1.Inv := by
  unfold State.strNeed
  with_reducible repeat' first | assumption | apply State.putBuckets_inv | apply State.strCount_inv | apply State.setStr_inv | apply State.setB_inv | apply State.Inv_ite | apply State.Inv_ite_fst | intro _

theorem State.strMeter_inv (s : State) (c : Nat) (fr : Front) (len : Nat) (h1 : s.Inv) :
    (State.strMeter s c fr len).1.Inv := by
  unfold State.strMeter
  with_reducible repeat' first | assumption | apply State.strCount_inv | apply State.strNeed_inv | apply State.Inv_ite | apply State.Inv_ite_fst | intro _

theorem State.strPolice_inv (s : State) (c : Nat) (fr : Front) (len : Nat) (h1 : s.Inv) :
    (State.strPolice s c fr len).1.Inv := by
  unfold State.strPolice
  with_reducible repeat' first | assumption | apply State.strCount_inv | apply State.setStr_inv | apply State.setB_inv | apply State.strMeter_inv | apply State.Inv_ite | apply State.Inv_ite_fst | intro _

theorem State.strRedundant_inv (s : State) (c : Nat) (fr : Front) (q : Nat) (h1 : s.Inv) :
    (State.strRedundant s c fr q).1.Inv := by
  unfold State.strRedundant
  with_reducible repeat' first | assumption | apply State.modCtx_inv | apply now_inv | apply State.setStr_inv | apply State.strCount_inv | apply State.setB_inv | apply State.Inv_ite | apply State.Inv_ite_fst | intro _ | dsimp only | split | apply State.Inv_foldl | (apply State.Inv_of_pair; · assumption) | (apply State.Inv_of_pair'; · assumption) | apply State.Inv_mk

theorem State.strRead_inv (s : State) (c : ℕ) (h1 : s.Inv) :
    (State.strRead s c).Inv := by
  unfold State.strRead
  with_reducible repeat' first | assumption | apply State.setReg_inv | apply State.putB_inv | apply State.Inv_foldl | intro _

theorem State.strKeep_inv (s : State) (c : Nat) (h1 : s.Inv) :
    (State.strKeep s c).Inv := by
  unfold State.strKeep
  with_reducible repeat' first | assumption | apply State.modSw_inv | apply State.forN_inv | apply State.modPort_inv | apply State.Inv_ite | intro _ | apply State.Inv_ite_fst | apply State.Inv_foldl | dsimp only | (apply State.Inv_of_pair; · assumption) | (apply State.Inv_of_pair'; · assumption) | split | apply State.Inv_mk

theorem State.strWrite_inv (s : State) (c : Nat) (h1 : s.Inv) :
    (State.strWrite s c).Inv := by
  unfold State.strWrite
  with_reducible repeat' first | assumption | apply State.strKeep_inv | apply State.setStr_inv | apply State.Inv_ite | intro _

theorem State.strClear_inv (s : State) (c : ℕ) (h1 : s.Inv) :
    (State.strClear s c).Inv := by
  unfold State.strClear
  with_reducible repeat' first | assumption | apply State.setStr_inv

theorem State.strUnblock_inv (s : State) (c : ℕ) (h1 : s.Inv) :
    (State.strUnblock s c).Inv := by
  unfold State.strUnblock
  with_reducible repeat' first | assumption | apply State.setStr_inv

theorem State.strOp_inv (s : State) (op : ℕ) (h1 : s.Inv) :
    (State.strOp s op).Inv := by
  unfold State.strOp
  with_reducible repeat' first | assumption | apply State.setB_inv | apply State.strRead_inv | apply State.strWrite_inv | apply State.strClear_inv | apply State.strUnblock_inv | split

theorem State.setFrame_inv (s : State) (i : ℕ) (f : Option Frame) (h1 : s.Inv) :
    (State.setFrame s i f).Inv := by
  unfold State.setFrame
  with_reducible repeat' first | assumption | apply State.modSw_inv

theorem State.setSwq_inv (s : State) (k : ℕ) (l : List ℕ) (h1 : s.Inv) :
    (State.setSwq s k l).Inv := by
  unfold State.setSwq
  with_reducible repeat' first | assumption | apply State.modSw_inv

theorem State.fbTake_inv (s : State) (f : Frame) (a0 : Nat) (h1 : s.Inv) :
    (State.fbTake s f a0).1.Inv := by
  fun_induction State.fbTake s f a0
  all_goals with_reducible repeat' first | assumption | apply State.tickFree_inv | apply_assumption | apply State.Inv_ite | apply State.Inv_ite_fst | split

theorem State.fbStored_inv (s : State) (f : Frame) (frm : Nat) (to_ : Nat) (h1 : s.Inv) :
    (State.fbStored s f frm to_).Inv := by
  unfold State.fbStored
  with_reducible repeat' first | assumption | apply State.clearLine_inv | apply State.Inv_ite | apply State.Inv_foldl | apply State.Inv_foldl_fst | intro _

theorem State.fbPoisoned_inv (s : State) (f : Frame) (idx : List Nat) (h1 : s.Inv) :
    (State.fbPoisoned s f idx).Inv := by
  unfold State.fbPoisoned
  with_reducible repeat' first | assumption | apply State.setPoison_inv | apply State.Inv_ite | apply State.Inv_foldl | apply State.Inv_foldl_fst | intro _

theorem State.frameUpset_inv (s : State) (f : Frame) (bad : List Nat) (h1 : s.Inv) :
    (State.frameUpset s f bad).Inv := by
  unfold State.frameUpset
  with_reducible repeat' first | assumption | apply State.upset_inv | apply State.Inv_ite | apply State.Inv_foldl | apply State.Inv_foldl_fst | intro _

theorem State.frameEcc_inv (s : State) (f : Frame) (h1 : s.Inv) :
    (State.frameEcc s f).Inv := by
  unfold State.frameEcc
  with_reducible repeat' first | assumption | apply State.eccCorrect_inv | apply State.Inv_ite | apply State.Inv_foldl | apply State.Inv_foldl_fst | intro _

theorem State.fbPut_inv (s : State) (a : Nat) (b : Nat) (h1 : s.Inv) :
    (State.fbPut s a b).Inv := by
  unfold State.fbPut
  with_reducible repeat' first | assumption | apply State.setFrame_inv | apply State.wr8_inv | apply State.modMm_inv | apply State.Inv_ite | intro _ | dsimp only | (apply State.Inv_of_pair; · assumption) | (apply State.Inv_of_pair'; · assumption) | split

theorem State.fbStore_inv (s : State) (a : Nat) (bs : List Nat) (h1 : s.Inv) :
    (State.fbStore s a bs).Inv := by
  unfold State.fbStore
  with_reducible repeat' first | assumption | apply State.clearLine_inv | apply State.fbPut_inv | apply State.Inv_ite | apply State.Inv_foldl | apply State.Inv_foldl_fst | intro _ | dsimp only | (apply State.Inv_of_pair; · assumption) | (apply State.Inv_of_pair'; · assumption)

theorem State.cellsBack_inv (s : State) (i : Nat) (f : Frame) (h1 : s.Inv) :
    (State.cellsBack s i f).Inv := by
  unfold State.cellsBack
  with_reducible repeat' first | assumption | apply State.modMm_inv | apply State.setFrame_inv | apply State.Inv_ite | intro _ | dsimp only | (apply State.Inv_of_pair; · assumption) | (apply State.Inv_of_pair'; · assumption)

theorem State.frameFree_inv (s : State) (i : Nat) (f : Frame) (h1 : s.Inv) :
    (State.frameFree s i f).Inv := by
  unfold State.frameFree
  with_reducible repeat' first | assumption | apply State.cellsBack_inv | apply State.setFrame_inv | apply State.Inv_ite

theorem State.c7NoCell_inv (s : State) (port : ℕ) (h1 : s.Inv) :
    (State.c7NoCell s port).Inv := by
  unfold State.c7NoCell
  with_reducible repeat' first | assumption | apply State.logEv_inv | apply State.setB_inv | apply State.count_inv

theorem State.grow7_inv (s : State) (f : Frame) (x : State × Frame) (h1 : s.Inv) (e : s.grow7 f = some x) : x.1.Inv := by
  unfold State.grow7 at e
  dsimp only at e
  split at e
  · cases e
    exact State.fbTake_inv _ _ _ h1
  · cases e

theorem State.grow0_inv (s : State) (f : Frame) (x : State × Frame) (h1 : s.Inv) (e : s.grow0 f = some x) : x.1.Inv := by
  unfold State.grow0 at e
  dsimp only at e
  split at e
  · cases e
    exact State.fbTake_inv _ _ _ h1
  · cases e

theorem State.frameGone_inv (s : State) (i : Nat) (e : Nat) (h1 : s.Inv) :
    (State.frameGone s i e).Inv := by
  unfold State.frameGone
  with_reducible repeat' first | assumption | apply State.setSwq_inv | apply State.cellsBack_inv | apply State.frameFree_inv | apply State.setFrame_inv | apply State.Inv_ite | intro _ | dsimp only | split

theorem switchHook_inv (a0 : ℕ) (w : Word) (s : State) (h1 : s.Inv) :
    (switchHook a0 w s).Inv := by
  unfold switchHook
  with_reducible repeat' first | assumption | apply State.macOp_inv | apply State.vlanOp_inv | apply State.Inv_ite | intro _

theorem streamHook_inv (a0 : ℕ) (w : Word) (s : State) (h1 : s.Inv) :
    (streamHook a0 w s).Inv := by
  unfold streamHook
  with_reducible repeat' first | assumption | apply State.strOp_inv | apply State.Inv_ite | intro _

/-! ## TideLook -/

theorem State.modTide_inv (s : State) (f : TideSt → TideSt) (h1 : s.Inv) :
    (State.modTide s f).Inv := by
  unfold State.modTide
  with_reducible repeat' first | assumption | apply State.Inv_mk

theorem State.setBankState_inv (s : State) (b : ℕ) (v : ℕ) (h1 : s.Inv) :
    (State.setBankState s b v).Inv := by
  unfold State.setBankState
  with_reducible repeat' first | assumption | apply State.putF_inv

theorem State.setGates_inv (s : State) (n : ℕ) (v : ℕ) (h1 : s.Inv) :
    (State.setGates s n v).Inv := by
  unfold State.setGates
  with_reducible repeat' first | assumption | apply State.modTide_inv

theorem State.setWin_inv (s : State) (n : ℕ) (w : Option Window) (h1 : s.Inv) :
    (State.setWin s n w).Inv := by
  unfold State.setWin
  with_reducible repeat' first | assumption | apply State.modTide_inv

/-! ## Frames -/

theorem State.ptpEgress_inv (s : State) (n : ℕ) (ingress : ℕ) (tin : ℕ) (ts : ℕ) (bs : List ℕ) (h1 : s.Inv) :
    (State.ptpEgress s n ingress tin ts bs).1.Inv := by
  unfold State.ptpEgress
  with_reducible repeat' first | assumption | apply State.setIf_inv | apply State.pushTxts_inv | apply State.Inv_ite | apply State.Inv_ite_fst | intro _ | split

/-! ## Port -/

theorem unsupOpcode_inv (n : ℕ) (s : State) (h1 : s.Inv) :
    (unsupOpcode n s).Inv := by
  unfold unsupOpcode
  with_reducible repeat' first | assumption | apply State.count_inv | apply State.Inv_ite | intro _

theorem pauseFrame_inv (n : ℕ) (quanta : ℕ) (s : State) (h1 : s.Inv) :
    (pauseFrame n quanta s).Inv := by
  unfold pauseFrame
  with_reducible repeat' first | assumption | apply State.setB_inv | apply State.count_inv | apply State.modPort_inv | apply unsupOpcode_inv | apply State.Inv_ite | intro _

theorem pfcFrame_inv (n : ℕ) (vec : ℕ) (times : List ℕ) (s : State) (h1 : s.Inv) :
    (pfcFrame n vec times s).Inv := by
  unfold pfcFrame
  with_reducible repeat' first | assumption | apply State.setB_inv | apply State.count_inv | apply State.modPort_inv | apply unsupOpcode_inv | apply State.Inv_ite | intro _

theorem pauseExpiry_inv (n : ℕ) (prio : Option ℕ) (s : State) (h1 : s.Inv) :
    (pauseExpiry n prio s).Inv := by
  unfold pauseExpiry
  with_reducible repeat' first | assumption | apply State.modPort_inv

theorem State.macControl_inv (s : State) (n : ℕ) (bs : List ℕ) (h1 : s.Inv) :
    (State.macControl s n bs).Inv := by
  unfold State.macControl
  with_reducible repeat' first | assumption | apply pauseFrame_inv | apply pfcFrame_inv | apply unsupOpcode_inv | split

theorem State.verifyRestart_inv (s : State) (n : ℕ) (h1 : s.Inv) :
    (State.verifyRestart s n).Inv := by
  unfold State.verifyRestart
  with_reducible repeat' first | assumption | apply State.putF_inv | apply State.modPort_inv

theorem verifyTimerExpiry_inv (n : ℕ) (s : State) (h1 : s.Inv) :
    (verifyTimerExpiry n s).Inv := by
  unfold verifyTimerExpiry
  with_reducible repeat' first | assumption | apply State.modPort_inv | apply State.setB_inv | apply State.putF_inv | apply State.Inv_ite | intro _

theorem verifyResponse_inv (n : ℕ) (s : State) (h1 : s.Inv) :
    (verifyResponse n s).Inv := by
  unfold verifyResponse
  with_reducible repeat' first | assumption | apply State.setB_inv | apply State.putF_inv | apply State.Inv_ite | intro _

theorem State.gateHold_inv (s : State) (n : ℕ) (hold : ℕ) (h1 : s.Inv) :
    (State.gateHold s n hold).Inv := by
  unfold State.gateHold
  with_reducible repeat' first | assumption | apply State.modTide_inv | apply State.countIf_inv | split

theorem lpiEntry_inv (n : Nat) (s : State) (h1 : s.Inv) :
    (lpiEntry n s).Inv := by
  unfold lpiEntry
  with_reducible repeat' first | assumption | apply State.modPort_inv | apply State.setB_inv | apply State.count_inv | apply State.Inv_ite | intro _

theorem lpiTick_inv (n : Nat) (s : State) (h1 : s.Inv) :
    (lpiTick n s).Inv := by
  unfold lpiTick
  with_reducible repeat' first | assumption | apply State.countN_inv | apply State.modPort_inv | apply State.Inv_ite | intro _

theorem State.lpiTxEnd_inv (s : State) (n : Nat) (h1 : s.Inv) :
    (State.lpiTxEnd s n).Inv := by
  unfold State.lpiTxEnd
  with_reducible repeat' first | assumption | apply lpiTick_inv | apply State.modPort_inv | apply State.clrB_inv | apply State.Inv_ite | intro _

theorem State.lpiRxEnd_inv (s : State) (n : Nat) (h1 : s.Inv) :
    (State.lpiRxEnd s n).Inv := by
  unfold State.lpiRxEnd
  with_reducible repeat' first | assumption | apply lpiTick_inv | apply State.modPort_inv | apply State.clrB_inv | apply State.Inv_ite | intro _

theorem State.portWake_inv (s : State) (n : Nat) (h1 : s.Inv) :
    (State.portWake s n).Inv := by
  unfold State.portWake
  with_reducible repeat' first | assumption | apply State.lpiTxEnd_inv | apply State.modPort_inv | apply State.Inv_ite | intro _

theorem wakeOnQueue_inv (n : ℕ) (s : State) (h1 : s.Inv) :
    (wakeOnQueue n s).Inv := by
  unfold wakeOnQueue
  with_reducible repeat' first | assumption | apply State.portWake_inv | apply State.Inv_ite | intro _

theorem wakeComplete_inv (n : ℕ) (s : State) (h1 : s.Inv) :
    (wakeComplete n s).Inv := by
  unfold wakeComplete
  with_reducible repeat' first | assumption | apply State.modPort_inv

theorem lpiRx_inv (n : Nat) (idle : Bool) (s : State) (h1 : s.Inv) :
    (lpiRx n idle s).Inv := by
  unfold lpiRx
  with_reducible repeat' first | assumption | apply State.modPort_inv | apply State.setB_inv | apply State.count_inv | apply State.lpiRxEnd_inv | apply State.Inv_ite | intro _

theorem State.lpiOff_inv (s : State) (n : Nat) (h1 : s.Inv) :
    (State.lpiOff s n).Inv := by
  unfold State.lpiOff
  with_reducible repeat' first | assumption | apply State.lpiTxEnd_inv | apply State.lpiRxEnd_inv | apply State.modPort_inv | apply State.Inv_ite | intro _

theorem State.mdioStart_inv (s : State) (w : Word) (h1 : s.Inv) :
    (State.mdioStart s w).Inv := by
  unfold State.mdioStart
  with_reducible repeat' first | assumption | apply State.setB_inv | apply State.Inv_mk

theorem mdioEnd_inv (data : ℕ) (s : State) (h1 : s.Inv) :
    (mdioEnd data s).Inv := by
  unfold mdioEnd
  with_reducible repeat' first | assumption | apply State.clrB_inv | apply State.setReg_inv | apply State.Inv_ite | intro _ | split | apply State.Inv_mk

theorem State.startLink_inv (s : State) (n : Nat) (h1 : s.Inv) :
    (State.startLink s n).Inv := by
  unfold State.startLink
  with_reducible repeat' first | assumption | apply State.modPort_inv | apply State.setIf_inv | apply State.Inv_ite | intro _

/-! ## Net -/

theorem State.deliver_inv (s : State) (f : Frame) (e : Nat) (h1 : s.Inv) :
    (State.deliver s f e).Inv := by
  unfold State.deliver
  with_reducible repeat' first | assumption | apply State.count_inv | apply State.setB_inv | apply State.frameEcc_inv | apply State.fqOffer_inv | apply State.Inv_ite | intro _ | dsimp only | split

theorem State.eeeLate_inv (s : State) (e : ℕ) (cls : ℕ) (h1 : s.Inv) :
    (State.eeeLate s e cls).Inv := by
  unfold State.eeeLate
  with_reducible repeat' first | assumption | apply State.setB_inv | apply State.count_inv | apply State.Inv_ite | intro _

theorem State.flushOne_inv (s : State) (n : Nat) (i : Nat) (h1 : s.Inv) :
    (State.flushOne s n i).Inv := by
  unfold State.flushOne
  with_reducible repeat' first | assumption | apply State.setB_inv | apply State.frameGone_inv | apply State.count_inv | apply State.Inv_ite

theorem State.enqueue_inv (s : State) (i : Nat) (e : Nat) (cls : Nat) (h1 : s.Inv) :
    (State.enqueue s i e cls).Inv := by
  unfold State.enqueue
  with_reducible repeat' first | assumption | apply State.setFrame_inv | apply State.setSwq_inv | apply State.eeeLate_inv | apply State.flushOne_inv | apply State.Inv_ite | intro _ | dsimp only | split

theorem State.newFrame_inv (s : State) (f : Frame) (pois : List Nat) (h1 : s.Inv) :
    (State.newFrame s f pois).2.Inv := by
  unfold State.newFrame
  with_reducible repeat' first | assumption | apply State.modSw_inv | apply State.fbStored_inv | apply State.fbPoisoned_inv | apply State.setFrame_inv | apply State.Inv_ite | apply State.Inv_ite_fst | intro _

theorem State.dropFrame_inv (s : State) (i : ℕ) (h1 : s.Inv) :
    (State.dropFrame s i).Inv := by
  unfold State.dropFrame
  with_reducible repeat' first | assumption | apply State.frameGone_inv | apply State.setFrame_inv | apply State.Inv_ite | apply State.Inv_foldl | intro _ | split

theorem State.loseFrame_inv (s : State) (i : Nat) (h1 : s.Inv) :
    (State.loseFrame s i).Inv := by
  unfold State.loseFrame
  with_reducible repeat' first | assumption | apply State.setFrame_inv | apply State.dropFrame_inv | apply State.Inv_ite | split

theorem State.demote_inv (s : State) (a : ℕ) (h1 : s.Inv) :
    (State.demote s a).Inv := by
  unfold State.demote
  with_reducible repeat' first | assumption | apply State.setB_inv | apply State.count_inv

theorem State.windowTake_inv (s : State) (n : ℕ) (t : ℕ) (h1 : s.Inv) :
    (State.windowTake s n t).1.Inv := by
  unfold State.windowTake
  with_reducible repeat' first | assumption | apply State.demote_inv | apply State.setWin_inv | apply State.setReg_inv | apply State.countIf_inv | apply State.Inv_ite_fst | intro _ | split

theorem State.signature_inv (s : State) (n : ℕ) (w : Window) (bs : List ℕ) (f : Frame) (h1 : s.Inv) :
    (State.signature s n w bs f).1.Inv := by
  unfold State.signature
  with_reducible repeat' first | assumption | apply State.setB_inv | apply State.count_inv | apply State.tideDrop_inv | apply State.Inv_ite | apply State.Inv_ite_fst | intro _

theorem State.setRx_inv (s : State) (n : ℕ) (r : Option RxFrame) (h1 : s.Inv) :
    (State.setRx s n r).Inv := by
  unfold State.setRx
  with_reducible repeat' first | assumption | apply State.modPort_inv

theorem State.noteRefused_inv (s : State) (i : Nat) (side : Nat → Bool) (h1 : s.Inv) :
    (State.noteRefused s i side).Inv := by
  unfold State.noteRefused
  with_reducible repeat' first | assumption | apply State.tideDrop_inv | apply State.count_inv | apply State.setB_inv | apply State.setFrame_inv | apply State.Inv_ite | intro _ | split

theorem State.extractPart_inv (s : State) (n : Nat) (i : Nat) (frm : Nat) (h1 : s.Inv) :
    (State.extractPart s n i frm).Inv := by
  unfold State.extractPart
  with_reducible repeat' first | assumption | apply State.noteRefused_inv | apply State.extractAll_inv | apply State.setRx_inv | apply State.Inv_ite | apply State.Inv_foldl | apply State.Inv_foldl_fst | intro _ | dsimp only | (apply State.Inv_of_pair; · assumption) | (apply State.Inv_of_pair'; · assumption) | split

theorem State.policeRx_inv (s : State) (n : Nat) (h1 : s.Inv) :
    (State.policeRx s n).Inv := by
  unfold State.policeRx
  with_reducible repeat' first | assumption | apply State.strPolice_inv | apply State.setRx_inv | apply State.loseFrame_inv | apply State.Inv_ite | intro _ | dsimp only | (apply State.Inv_of_pair; · assumption) | (apply State.Inv_of_pair'; · assumption) | split

theorem State.firstCells_inv (s : State) (f : Frame) (h1 : s.Inv) :
    (State.firstCells s f).1.Inv := by
  unfold State.firstCells
  split
  · exact h1
  · split
    · exact State.grow7_inv _ _ _ h1 (by assumption)
    · exact State.c7NoCell_inv _ _ h1

theorem State.process_inv (s : State) (n : Nat) (r : RxFrame) (fr : Front) (w : Window) (h1 : s.Inv) :
    (State.process s n r fr w).Inv := by
  unfold State.process
  with_reducible repeat' first | assumption | apply State.strCount_inv | apply State.strPolice_inv | apply State.setRx_inv | apply State.signature_inv | apply State.firstCells_inv | apply State.newFrame_inv | apply State.enqueue_inv | apply State.extractPart_inv | apply State.policeRx_inv | apply State.Inv_ite | apply State.Inv_foldl | apply State.Inv_foldl_fst | intro _ | dsimp only | (apply State.Inv_of_pair; · assumption) | (apply State.Inv_of_pair'; · assumption) | split

theorem State.classify_inv (s : State) (n : Nat) (complete : Bool) (h1 : s.Inv) :
    (State.classify s n complete).Inv := by
  unfold State.classify
  with_reducible repeat' first | assumption | apply State.setRx_inv | apply State.windowTake_inv | apply State.process_inv | apply State.Inv_ite | intro _ | dsimp only | (apply State.Inv_of_pair; · assumption) | (apply State.Inv_of_pair'; · assumption) | split

theorem State.storeMore_inv (s : State) (n : Nat) (i : Nat) (bs : List Nat) (h1 : s.Inv) :
    (State.storeMore s n i bs).Inv := by
  unfold State.storeMore
  with_reducible repeat' first | assumption | apply State.setFrame_inv | apply State.grow7_inv | apply State.fbStored_inv | apply State.c7NoCell_inv | apply State.loseFrame_inv | apply State.Inv_ite | intro _ | dsimp only | (refine State.grow7_inv _ _ _ ?_ (by assumption)) | split

theorem rxMore_inv (n : Nat) (bs : List Nat) (s : State) (h1 : s.Inv) :
    (rxMore n bs s).Inv := by
  unfold rxMore
  with_reducible repeat' first | assumption | apply State.take_inv | apply State.setRx_inv | apply State.classify_inv | apply State.storeMore_inv | apply State.extractPart_inv | apply State.policeRx_inv | apply State.Inv_ite | intro _ | split

theorem State.lenVerdict_inv (s : State) (n : Nat) (f : Frame) (len : Nat) (h1 : s.Inv) :
    (State.lenVerdict s n f len).1.Inv := by
  unfold State.lenVerdict
  with_reducible repeat' first | assumption | apply State.count_inv | apply State.setB_inv | apply State.Inv_ite | apply State.Inv_ite_fst | intro _ | dsimp only | split

theorem State.rxSettle_inv (s : State) (i : Nat) (f : Frame) (bad : Bool) (runt : Bool) (h1 : s.Inv) :
    (State.rxSettle s i f bad runt).Inv := by
  unfold State.rxSettle
  with_reducible repeat' first | assumption | apply State.countIf_inv | apply State.strCount_inv | apply State.frameFree_inv | apply State.setFrame_inv | apply State.dropFrame_inv | apply State.Inv_ite | intro _ | dsimp only | split

theorem rxStart_inv (n : Nat) (quarter : Nat) (bs : List Nat) (frags : Nat) (s : State) (h1 : s.Inv) :
    (rxStart n quarter bs frags s).Inv := by
  unfold rxStart
  with_reducible repeat' first | assumption | apply rxMore_inv | apply State.setRx_inv | apply State.Inv_ite | intro _

theorem State.redEnter_inv (s : State) (f : Frame) (es : List Nat) (h1 : s.Inv) :
    (State.redEnter s f es).1.Inv := by
  unfold State.redEnter
  with_reducible repeat' first | assumption | apply State.setB_inv | apply State.putF_inv | apply State.Inv_ite | apply State.Inv_ite_fst | apply State.Inv_foldl | apply State.Inv_foldl_fst | intro _ | dsimp only | (apply State.Inv_of_pair; · assumption) | (apply State.Inv_of_pair'; · assumption) | split

theorem State.thresholds_inv (s : State) (f : Frame) (es : List Nat) (h1 : s.Inv) :
    (State.thresholds s f es).1.Inv := by
  unfold State.thresholds
  with_reducible repeat' first | assumption | apply State.count_inv | apply State.setB_inv | apply State.Inv_ite | apply State.Inv_ite_fst | apply State.Inv_foldl | apply State.Inv_foldl_fst | intro _ | dsimp only | (apply State.Inv_of_pair; · assumption) | (apply State.Inv_of_pair'; · assumption) | split

theorem State.room_inv (s : State) (f : Frame) (x : State × Frame) (h1 : s.Inv) (e : s.room f = some x) : x.1.Inv := by
  unfold State.room at e
  split at e
  · exact State.grow7_inv _ _ _ h1 e
  · exact State.grow0_inv _ _ _ h1 e

theorem State.store0_inv (s : State) (f : Frame) (pois : List Nat) (h1 : s.Inv) :
    (State.store0 s f pois).Inv := by
  unfold State.store0
  with_reducible repeat' first | assumption | apply State.room_inv | apply State.c7NoCell_inv | apply State.count_inv | apply State.setB_inv | apply State.strCount_inv | apply State.newFrame_inv | apply State.enqueue_inv | apply State.Inv_ite | apply State.Inv_foldl | apply State.Inv_foldl_fst | intro _ | (refine State.room_inv _ _ _ ?_ (by assumption)) | dsimp only | (apply State.Inv_of_pair; · assumption) | (apply State.Inv_of_pair'; · assumption) | split

theorem State.forward_inv (s : State) (f : Frame) (named : Nat) (pois : List Nat) (h1 : s.Inv) :
    (State.forward s f named pois).Inv := by
  unfold State.forward
  with_reducible repeat' first | assumption | apply State.macLearn_inv | apply State.redEnter_inv | apply State.thresholds_inv | apply State.store0_inv | apply State.Inv_ite | intro _ | dsimp only | (apply State.Inv_of_pair; · assumption) | (apply State.Inv_of_pair'; · assumption) | split

theorem State.dupCheck_inv (s : State) (f : Frame) (fr : Front) (h1 : s.Inv) :
    (State.dupCheck s f fr).1.Inv := by
  unfold State.dupCheck
  with_reducible repeat' first | assumption | apply State.strRedundant_inv | apply State.count_inv | apply State.Inv_ite | apply State.Inv_ite_fst | intro _ | split

theorem State.musterPass_inv (s : State) (n : Nat) (ts : Nat) (bs : List Nat) (bad : Bool) (pois : List Nat) (h1 : s.Inv) :
    (State.musterPass s n ts bs bad pois).Inv := by
  unfold State.musterPass
  with_reducible repeat' first | assumption | apply State.count_inv | apply State.grow0_inv | apply State.newFrame_inv | apply State.enqueue_inv | apply State.setB_inv | apply State.Inv_ite | intro _ | (refine State.grow0_inv _ _ _ ?_ (by assumption)) | dsimp only | (apply State.Inv_of_pair; · assumption) | (apply State.Inv_of_pair'; · assumption) | split

theorem State.switchIn_inv (s : State) (n : Nat) (ts : Nat) (bs : List Nat) (fr : Front) (named : Nat) (demoted : Bool) (bad : Bool) (pois : List Nat) (h1 : s.Inv) :
    (State.switchIn s n ts bs fr named demoted bad pois).Inv := by
  unfold State.switchIn
  with_reducible repeat' first | assumption | apply State.musterPass_inv | apply State.count_inv | apply State.strCount_inv | apply State.strPolice_inv | apply State.dupCheck_inv | apply State.forward_inv | apply State.Inv_ite | intro _ | dsimp only | (apply State.Inv_of_pair; · assumption) | (apply State.Inv_of_pair'; · assumption) | split

theorem handOver_inv (e : Nat) (s : State) (h1 : s.Inv) :
    (handOver e s).Inv := by
  unfold handOver
  with_reducible repeat' first | assumption | apply State.deliver_inv | apply State.frameGone_inv | apply State.Inv_ite | intro _ | split

theorem State.rxStats_inv (s : State) (n : Nat) (r : RxFrame) (fin : RxEnd) (tooLong : Bool) (fcs : Bool) (h1 : s.Inv) :
    (State.rxStats s n r fin tooLong fcs).Inv := by
  unfold State.rxStats
  with_reducible repeat' first | assumption | apply State.countIf_inv | apply State.count_inv | apply State.countN_inv | apply State.count64_inv | apply State.Inv_ite | intro _ | dsimp only | split

theorem State.processedEnd_inv (s : State) (n : Nat) (i : Nat) (bad : Bool) (runt : Bool) (h1 : s.Inv) :
    (State.processedEnd s n i bad runt).Inv := by
  unfold State.processedEnd
  with_reducible repeat' first | assumption | apply State.policeRx_inv | apply State.lenVerdict_inv | apply State.taintAll_inv | apply State.setRx_inv | apply State.rxSettle_inv | apply State.Inv_ite | intro _ | dsimp only | (apply State.Inv_of_pair; · assumption) | (apply State.Inv_of_pair'; · assumption) | split

theorem rxFinish_inv (n : Nat) (fin : RxEnd) (s : State) (h1 : s.Inv) :
    (rxFinish n fin s).Inv := by
  unfold rxFinish
  with_reducible repeat' first | assumption | apply State.rxStats_inv | apply State.classify_inv | apply State.processedEnd_inv | apply State.macControl_inv | apply State.switchIn_inv | apply State.setRx_inv | apply State.Inv_ite | intro _ | dsimp only | split

theorem rxWhole_inv (n : Nat) (quarter : Nat) (bs : List Nat) (frags : Nat) (fin : RxEnd) (s : State) (h1 : s.Inv) :
    (rxWhole n quarter bs frags fin s).Inv := by
  unfold rxWhole
  with_reducible repeat' first | assumption | apply rxFinish_inv | apply State.setRx_inv | apply State.take_inv | apply State.Inv_ite | intro _

theorem frameReceive_inv (n : Nat) (part : RxPart) (s : State) (h1 : s.Inv) :
    (frameReceive n part s).Inv := by
  unfold frameReceive
  with_reducible repeat' first | assumption | apply rxStart_inv | apply rxMore_inv | apply rxFinish_inv | apply rxWhole_inv | apply handOver_inv | apply State.Inv_ite | split

theorem State.txAccept_inv (s : State) (e : Nat) (ws : List FqWord) (h1 : s.Inv) :
    (State.txAccept s e ws).Inv := by
  unfold State.txAccept
  with_reducible repeat' first | assumption | apply State.count_inv | apply State.setB_inv | apply State.switchIn_inv | apply State.Inv_ite | intro _

theorem switchPortTransmit_inv (e : Nat) (s : State) (h1 : s.Inv) :
    (switchPortTransmit e s).Inv := by
  unfold switchPortTransmit
  split
  · exact h1
  · exact State.txAccept_inv _ _ _ (State.Inv_txRR (State.fqPopN_inv _ _ _ h1) (twf_tput h1.txRROk _ _))

theorem State.leave_inv (s : State) (f : Frame) (e : Nat) (ts : Nat) (body : List Nat) (off : Nat → Bool) (h1 : s.Inv) :
    (State.leave s f e ts body off).1.Inv := by
  unfold State.leave
  with_reducible repeat' first | assumption | apply State.setIf_inv | apply State.ptpEgress_inv | apply State.Inv_ite | apply State.Inv_ite_fst | intro _ | dsimp only | (apply State.Inv_of_pair; · assumption) | (apply State.Inv_of_pair'; · assumption) | split

theorem State.sendControl_inv (s : State) (n : ℕ) (h1 : s.Inv) :
    (State.sendControl s n).Inv := by
  unfold State.sendControl
  with_reducible repeat' first | assumption | apply State.clrB_inv | apply State.modPort_inv | apply State.count_inv

theorem State.fcDefer_inv (s : State) (n : Nat) (h1 : s.Inv) :
    (State.fcDefer s n).Inv := by
  unfold State.fcDefer
  with_reducible repeat' first | assumption | apply State.modPort_inv | apply State.Inv_ite | intro _

theorem State.fcGate_inv (s : State) (n : Nat) (was : Bool) (now : Bool) (h1 : s.Inv) :
    (State.fcGate s n was now).Inv := by
  unfold State.fcGate
  with_reducible repeat' first | assumption | apply now_inv | apply State.modPort_inv | apply State.Inv_ite | intro _

theorem State.txBegin_inv (s : State) (n : Nat) (i : Nat) (f : Frame) (ct : Bool) (bad : List Nat) (h1 : s.Inv) :
    (State.txBegin s n i f ct bad).Inv := by
  unfold State.txBegin
  with_reducible repeat' first | assumption | apply State.frameEcc_inv | apply State.frameUpset_inv | apply State.setFrame_inv | apply State.modPort_inv | apply State.Inv_ite | intro _

theorem State.txSfd_inv (s : State) (n : ℕ) (quarter : ℕ) (h1 : s.Inv) :
    (State.txSfd s n quarter).Inv := by
  unfold State.txSfd
  with_reducible repeat' first | assumption | apply State.modPort_inv | apply State.Inv_ite | intro _ | split

theorem State.txWhole_inv (s : State) (n : Nat) (x : Nat × Frame) (bad : List Nat) (h1 : s.Inv) :
    (State.txWhole s n x bad).Inv := by
  unfold State.txWhole
  with_reducible repeat' first | assumption | apply State.count_inv | apply State.setB_inv | apply State.frameGone_inv | apply State.txBegin_inv | apply State.Inv_ite | intro _ | dsimp only | (apply State.Inv_of_pair; · assumption) | (apply State.Inv_of_pair'; · assumption)

theorem State.txNext_inv (s : State) (n : Nat) (bad : List Nat) (h1 : s.Inv) :
    (State.txNext s n bad).Inv := by
  unfold State.txNext
  with_reducible repeat' first | assumption | apply State.txWhole_inv | apply State.txBegin_inv | apply State.sendControl_inv | apply State.Inv_ite | intro _ | split

theorem State.txStart_inv (s : State) (n : Nat) (bad : List Nat) (h1 : s.Inv) :
    (State.txStart s n bad).Inv := by
  unfold State.txStart
  with_reducible repeat' first | assumption | apply State.fcDefer_inv | apply State.txNext_inv | apply State.Inv_ite | intro _

theorem State.txStats_inv (s : State) (n : ℕ) (bs : List ℕ) (h1 : s.Inv) :
    (State.txStats s n bs).Inv := by
  unfold State.txStats
  with_reducible repeat' first | assumption | apply State.count_inv | apply State.count64_inv | apply State.countIf_inv | apply State.Inv_ite | intro _

theorem State.txJudge_inv (s : State) (n : Nat) (k : Nat) (h1 : s.Inv) :
    (State.txJudge s n k).Inv := by
  unfold State.txJudge
  with_reducible repeat' first | assumption | apply State.noteRefused_inv | apply State.modPort_inv | apply State.Inv_ite | intro _ | dsimp only | split

theorem State.txSend_inv (s : State) (n : Nat) (t : TxFrame) (f : Frame) (body : List Nat) (stomp : Bool) (h1 : s.Inv) :
    (State.txSend s n t f body stomp).Inv := by
  unfold State.txSend
  with_reducible repeat' first | assumption | apply State.txJudge_inv | apply State.insertEcc_inv | apply State.leave_inv | apply State.count_inv | apply State.setB_inv | apply State.modPort_inv | apply State.txStats_inv | apply State.frameGone_inv | apply State.fcDefer_inv | apply State.Inv_ite | intro _ | dsimp only | (apply State.Inv_of_pair; · assumption) | (apply State.Inv_of_pair'; · assumption) | split | apply State.Inv_ite_fst | apply State.Inv_foldl | apply State.Inv_mk

theorem State.ctOver_inv (s : State) (i : Nat) (h1 : s.Inv) :
    (State.ctOver s i).Inv := by
  unfold State.ctOver
  with_reducible repeat' first | assumption | apply State.setFrame_inv | apply State.take_inv | apply State.loseFrame_inv | apply State.Inv_ite | intro _ | split

theorem State.txEnd_inv (s : State) (n : Nat) (t : TxFrame) (h1 : s.Inv) :
    (State.txEnd s n t).Inv := by
  unfold State.txEnd
  with_reducible repeat' first | assumption | apply State.modPort_inv | apply State.count_inv | apply State.setB_inv | apply State.txSend_inv | apply State.Inv_ite | intro _ | split

theorem State.txFinish_inv (s : State) (n : Nat) (h1 : s.Inv) :
    (State.txFinish s n).Inv := by
  unfold State.txFinish
  with_reducible repeat' first | assumption | apply State.ctOver_inv | apply State.txEnd_inv | apply State.Inv_ite | split

theorem State.txSent_inv (s : State) (n : Nat) (k : Nat) (h1 : s.Inv) :
    (State.txSent s n k).Inv := by
  unfold State.txSent
  with_reducible repeat' first | assumption | apply State.txJudge_inv | apply State.insertEcc_inv | apply State.leave_inv | apply State.take_inv | apply State.modPort_inv | apply State.txFinish_inv | apply State.Inv_ite | intro _ | dsimp only | (apply State.Inv_of_pair; · assumption) | (apply State.Inv_of_pair'; · assumption) | split | apply State.Inv_ite_fst | apply State.Inv_foldl | apply State.Inv_mk

theorem State.txCut_inv (s : State) (n : Nat) (sent : Nat) (h1 : s.Inv) :
    (State.txCut s n sent).Inv := by
  unfold State.txCut
  with_reducible repeat' first | assumption | apply State.modPort_inv | apply State.count_inv | apply State.Inv_ite | intro _ | dsimp only | split

theorem State.txResume_inv (s : State) (n : Nat) (h1 : s.Inv) :
    (State.txResume s n).Inv := by
  unfold State.txResume
  with_reducible repeat' first | assumption | apply State.modPort_inv | apply State.Inv_ite | intro _ | split

theorem frameTransmit_inv (n : Nat) (part : TxPart) (s : State) (h1 : s.Inv) :
    (frameTransmit n part s).Inv := by
  unfold frameTransmit
  with_reducible repeat' first | assumption | apply State.txStart_inv | apply State.txSfd_inv | apply State.txSent_inv | apply State.txFinish_inv | apply State.txCut_inv | apply State.txResume_inv | apply State.Inv_ite | split

theorem cutThrough_inv (n : Nat) (part : CtPart) (s : State) (h1 : s.Inv) :
    (cutThrough n part s).Inv := by
  unfold cutThrough
  with_reducible repeat' first | assumption | apply State.txBegin_inv | apply State.txSfd_inv | apply State.txSent_inv | apply State.txFinish_inv | apply State.Inv_ite | intro _ | split

theorem State.portFlush_inv (s : State) (n : Nat) (h1 : s.Inv) :
    (State.portFlush s n).Inv := by
  unfold State.portFlush
  with_reducible repeat' first | assumption | apply State.flushOne_inv | apply State.Inv_ite | apply State.Inv_foldl | apply State.Inv_foldl_fst | intro _

theorem State.txAbandon_inv (s : State) (n : ℕ) (h1 : s.Inv) :
    (State.txAbandon s n).Inv := by
  unfold State.txAbandon
  with_reducible repeat' first | assumption | apply State.frameGone_inv | apply State.setPort_inv | apply State.Inv_foldl | intro _

theorem State.portDown_inv (s : State) (n : ℕ) (flush : Bool) (h1 : s.Inv) :
    (State.portDown s n flush).Inv := by
  unfold State.portDown
  with_reducible repeat' first | assumption | apply State.portFlush_inv | apply State.verifyRestart_inv | apply State.lpiOff_inv | apply State.raiseLink_inv | apply State.count_inv | apply State.setB_inv | apply State.clrB_inv | apply State.modPort_inv | apply State.Inv_ite | intro _

theorem State.lineLost_inv (s : State) (n : ℕ) (h1 : s.Inv) :
    (State.lineLost s n).Inv := by
  unfold State.lineLost
  with_reducible repeat' first | assumption | apply State.modPort_inv | apply State.txAbandon_inv | apply rxFinish_inv

theorem linkLoss_inv (n : ℕ) (s : State) (h1 : s.Inv) :
    (linkLoss n s).Inv := by
  unfold linkLoss
  with_reducible repeat' first | assumption | apply State.startLink_inv | apply State.portDown_inv | apply State.lineLost_inv | apply State.modPort_inv | apply State.Inv_ite | intro _

theorem linkFilterExpiry_inv (n : ℕ) (s : State) (h1 : s.Inv) :
    (linkFilterExpiry n s).Inv := by
  unfold linkFilterExpiry
  with_reducible repeat' first | assumption | apply State.startLink_inv | apply State.portDown_inv | apply State.Inv_ite | intro _

theorem linkUp_inv (n : Nat) (fin : LinkEnd) (s : State) (h1 : s.Inv) :
    (linkUp n fin s).Inv := by
  unfold linkUp
  with_reducible repeat' first | assumption | apply State.setReg_inv | apply State.setB_inv | apply State.modPort_inv | apply State.putF_inv | apply State.setIf_inv | apply State.raiseLink_inv | apply State.verifyRestart_inv | apply State.Inv_ite | intro _ | split

theorem State.relink_inv (s : State) (n : ℕ) (h1 : s.Inv) :
    (State.relink s n).Inv := by
  unfold State.relink
  with_reducible repeat' first | assumption | apply State.startLink_inv | apply State.portDown_inv | apply State.lineLost_inv

theorem State.portReset_inv (s : State) (n : ℕ) (h1 : s.Inv) :
    (State.portReset s n).Inv := by
  unfold State.portReset
  with_reducible repeat' first | assumption | apply State.logEv_inv | apply State.modPort_inv | apply State.setWin_inv | apply State.setTxts_inv | apply State.setB_inv | apply State.portDown_inv | apply State.lineLost_inv | apply State.Inv_ite | intro _

theorem portResetEnd_inv (n : ℕ) (s : State) (h1 : s.Inv) :
    (portResetEnd n s).Inv := by
  unfold portResetEnd
  with_reducible repeat' first | assumption | apply State.verifyRestart_inv | apply State.startLink_inv | apply State.modPort_inv | apply State.Inv_ite | intro _

theorem State.portCtl_inv (s : State) (n : ℕ) (old : Word) (w : Word) (h1 : s.Inv) :
    (State.portCtl s n old w).Inv := by
  unfold State.portCtl
  with_reducible repeat' first | assumption | apply State.portReset_inv | apply State.portDown_inv | apply State.lineLost_inv | apply State.startLink_inv | apply State.relink_inv | apply State.Inv_ite | intro _

theorem portHook_inv (a0 : Nat) (i : Nat) (old : Word) (w : Word) (s : State) (h1 : s.Inv) :
    (portHook a0 i old w s).Inv := by
  unfold portHook
  with_reducible repeat' first | assumption | apply State.portCtl_inv | apply State.verifyRestart_inv | apply State.fcDefer_inv | apply State.mdioStart_inv | apply State.Inv_ite | intro _

/-! ## Mailbox -/

theorem State.setMb_inv (s : State) (m : ℕ) (x : MbSt) (h1 : s.Inv) :
    (State.setMb s m x).Inv := by
  unfold State.setMb
  with_reducible repeat' first | assumption | apply twf_tput | apply State.Inv.mbOk | apply State.Inv_mb

theorem State.mbReject_inv (s : State) (who : Initiator) (m : ℕ) (cause : ℕ) (h1 : s.Inv) :
    (State.mbReject s who m cause).Inv := by
  unfold State.mbReject
  with_reducible repeat' first | assumption | apply State.count_inv | apply State.setReg_inv | apply State.setB_inv | apply State.Inv_ite | intro _

theorem State.mbClaim_inv (s : State) (who : Initiator) (m : ℕ) (h1 : s.Inv) :
    (State.mbClaim s who m).Inv := by
  unfold State.mbClaim
  with_reducible repeat' first | assumption | apply State.setMb_inv

theorem State.mbGo_inv (s : State) (who : Initiator) (m : Nat) (h1 : s.Inv) :
    (State.mbGo s who m).Inv := by
  unfold State.mbGo
  with_reducible repeat' first | assumption | apply State.setMb_inv | apply State.setReg_inv | apply State.setB_inv | apply State.raiseEv_inv | apply State.Inv_ite | intro _ | dsimp only | (apply State.Inv_of_pair; · assumption) | (apply State.Inv_of_pair'; · assumption) | split | apply State.Inv_mk

theorem State.mbRelease_inv (s : State) (m : Nat) (h1 : s.Inv) :
    (State.mbRelease s m).Inv := by
  unfold State.mbRelease
  with_reducible repeat' first | assumption | apply State.setMb_inv | apply State.raiseEv_inv | apply State.Inv_ite | intro _

theorem mbHook_inv (who : Initiator) (a0 : Nat) (i : Nat) (w : Word) (s : State) (h1 : s.Inv) :
    (mbHook who a0 i w s).Inv := by
  unfold mbHook
  with_reducible repeat' first | assumption | apply State.mbClaim_inv | apply State.mbGo_inv | apply State.mbRelease_inv | apply State.setReg_inv | apply State.setB_inv | apply State.raiseEv_inv | apply State.Inv_ite | intro _

theorem claimLapsed_inv (m : ℕ) (s : State) (h1 : s.Inv) :
    (claimLapsed m s).Inv := by
  unfold claimLapsed
  with_reducible repeat' first | assumption | apply State.setB_inv | apply State.setMb_inv | apply State.Inv_ite | intro _

theorem mbRead_inv (who : Initiator) (a0 : ℕ) (s : State) (h1 : s.Inv) :
    (mbRead who a0 s).Inv := by
  unfold mbRead
  with_reducible repeat' first | assumption | apply State.Inv_ite | intro _ | apply State.Inv_mk

theorem State.mbCoreReset_inv (s : State) (h1 : s.Inv) :
    (State.mbCoreReset s).Inv := by
  unfold State.mbCoreReset
  with_reducible repeat' first | assumption | apply State.setReg_inv | apply State.forN_inv | apply State.setMb_inv | intro _ | apply State.Inv_mk

/-! ## Logbook -/

theorem State.logRead_inv (s : State) (c : Nat) (h1 : s.Inv) :
    (State.logRead s c).Inv := by
  unfold State.logRead
  with_reducible repeat' first | assumption | apply State.loadRec_inv | apply State.forN_inv | apply State.setReg_inv | apply State.Inv_ite | intro _

theorem State.logWriteCfg_inv (s : State) (c : ℕ) (h1 : s.Inv) :
    (State.logWriteCfg s c).Inv := by
  unfold State.logWriteCfg
  with_reducible repeat' first | assumption | apply State.markDirty_inv | apply State.forN_inv | apply State.loadRec_inv | apply State.recPut_inv | intro _

theorem State.logClear_inv (s : State) (c : ℕ) (h1 : s.Inv) :
    (State.logClear s c).Inv := by
  unfold State.logClear
  with_reducible repeat' first | assumption | apply State.markDirty_inv | apply State.setWork_inv | apply State.loadRec_inv

theorem State.logCmd_inv (s : State) (w : Word) (h1 : s.Inv) :
    (State.logCmd s w).Inv := by
  unfold State.logCmd
  with_reducible repeat' first | assumption | apply State.setReg_inv | apply State.logRead_inv | apply State.logWriteCfg_inv | apply State.logClear_inv | split

theorem logOperationEnd_inv (s : State) (h1 : s.Inv) :
    (logOperationEnd s).Inv := by
  unfold logOperationEnd
  with_reducible repeat' first | assumption | apply State.setReg_inv

theorem State.thawed_inv (s : State) (h1 : s.Inv) :
    (State.thawed s).Inv := by
  unfold State.thawed
  with_reducible repeat' first | assumption | apply State.clrB_inv | apply State.Inv_ite | intro _

theorem stagedEventsApply_inv (s : State) (h1 : s.Inv) :
    (stagedEventsApply s).Inv := by
  unfold stagedEventsApply
  with_reducible repeat' first | assumption | apply State.applyStaged_inv | apply State.Inv_ite | intro _

theorem State.lhDone_inv (s : State) (h1 : s.Inv) :
    (State.lhDone s).Inv := by
  unfold State.lhDone
  with_reducible repeat' first | assumption | apply State.Inv_ite | intro _ | apply State.Inv_mk

theorem frozen_inv (s : State) (h1 : s.Inv) :
    (frozen s).Inv := by
  unfold frozen
  with_reducible repeat' first | assumption | apply State.lhDone_inv | apply State.setB_inv | apply State.writeDirty_inv | apply State.Inv_ite | intro _

theorem lhFreezeTimeout_inv (s : State) (h1 : s.Inv) :
    (lhFreezeTimeout s).Inv := by
  unfold lhFreezeTimeout
  with_reducible repeat' first | assumption | apply State.lhDone_inv | apply State.Inv_ite | intro _

theorem recordWrite_inv (c : ℕ) (s : State) (h1 : s.Inv) :
    (recordWrite c s).Inv := by
  unfold recordWrite
  with_reducible repeat' first | assumption | apply State.writeRecord_inv | apply State.Inv_ite | intro _

theorem breakwaterWindowEnd_inv (c : Nat) (s : State) (h1 : s.Inv) :
    (breakwaterWindowEnd c s).Inv := by
  unfold breakwaterWindowEnd
  with_reducible repeat' first | assumption | apply State.Inv_ite | intro _ | apply State.Inv_mk

theorem logHook_inv (a0 : ℕ) (i : ℕ) (old : Word) (w : Word) (s : State) (h1 : s.Inv) :
    (logHook a0 i old w s).Inv := by
  unfold logHook
  with_reducible repeat' first | assumption | apply State.thawed_inv | apply State.logEv_inv | apply State.logCmd_inv | apply State.setReg_inv | apply State.Inv_ite | intro _

theorem operatingSecond_inv (s : State) (h1 : s.Inv) :
    (operatingSecond s).Inv := by
  unfold operatingSecond
  with_reducible repeat' first | assumption | apply State.count_inv | apply State.Inv_ite | intro _

theorem opsecSave_inv (s : State) (h1 : s.Inv) :
    (opsecSave s).Inv := by
  unfold opsecSave
  with_reducible repeat' first | assumption | apply State.Inv_ite | intro _ | apply State.Inv_mk

theorem State.lhPowerUp_inv (s : State) (h1 : s.Inv) :
    (State.lhPowerUp s).Inv := by
  unfold State.lhPowerUp
  refine State.count_inv _ _ (State.setReg_inv _ _ _ (State.setReg_inv _ _ _ ?_))
  exact State.Inv_mk (s := { s with regs := s.regs.filter (fun p => blockOf p.1 != 1 && blockOf p.1 != 22) }) (State.Inv_regs h1 (twf_filter h1.regsOk _))

/-! ## Measure -/

theorem State.setPhase_inv (s : State) (n : ℕ) (ph : ℕ) (p : ChopPhase) (h1 : s.Inv) :
    (State.setPhase s n ph p).Inv := by
  unfold State.setPhase
  with_reducible repeat' first | assumption | apply State.setChop_inv

theorem State.chopEvent1_inv (s : State) (n : Nat) (ph : Nat) (h1 : s.Inv) :
    (State.chopEvent1 s n ph).Inv := by
  unfold State.chopEvent1
  with_reducible repeat' first | assumption | apply State.setPhase_inv | apply State.Inv_ite | intro _ | dsimp only | (apply State.Inv_of_pair; · assumption) | (apply State.Inv_of_pair'; · assumption)

theorem chopCycleStart_inv (n : ℕ) (ph : ℕ) (s : State) (h1 : s.Inv) :
    (chopCycleStart n ph s).Inv := by
  unfold chopCycleStart
  with_reducible repeat' first | assumption | apply State.chopEvent1_inv | apply State.Inv_ite | intro _

theorem deadTimeEnd_inv (n : ℕ) (ph : ℕ) (s : State) (h1 : s.Inv) :
    (deadTimeEnd n ph s).Inv := by
  unfold deadTimeEnd
  with_reducible repeat' first | assumption | apply State.setPhase_inv | apply State.Inv_ite | intro _

theorem State.putTon_inv (s : State) (n : Nat) (ph : Nat) (t : Nat) (h1 : s.Inv) :
    (State.putTon s n ph t).Inv := by
  unfold State.putTon
  with_reducible repeat' first | assumption | apply State.putF_inv | apply State.tickFree_inv | apply State.Inv_ite | intro _

theorem State.chopMeasure_inv (s : State) (n : Nat) (ph : Nat) (t : Nat) (h1 : s.Inv) :
    (State.chopMeasure s n ph t).Inv := by
  unfold State.chopMeasure
  with_reducible repeat' first | assumption | apply State.putTon_inv | apply State.setChop_inv | apply State.setB_inv | apply State.axStall_inv | apply State.Inv_ite | intro _

theorem State.chopTrip_inv (s : State) (n : Nat) (ph : Nat) (t : Nat) (h1 : s.Inv) :
    (State.chopTrip s n ph t).Inv := by
  unfold State.chopTrip
  with_reducible repeat' first | assumption | apply State.chopMeasure_inv | apply State.setPhase_inv | apply State.Inv_ite

theorem blankEnd_inv (n : Nat) (ph : Nat) (v : Int) (s : State) (h1 : s.Inv) :
    (blankEnd n ph v s).Inv := by
  unfold blankEnd
  with_reducible repeat' first | assumption | apply State.setPhase_inv | apply State.setB_inv | apply State.chopTrip_inv | apply State.Inv_ite | intro _

theorem comparatorTrip_inv (n : Nat) (ph : Nat) (v : Int) (s : State) (h1 : s.Inv) :
    (comparatorTrip n ph v s).Inv := by
  unfold comparatorTrip
  with_reducible repeat' first | assumption | apply State.chopTrip_inv | apply State.Inv_ite | intro _

theorem offTimeEnd_inv (n : ℕ) (ph : ℕ) (s : State) (h1 : s.Inv) :
    (offTimeEnd n ph s).Inv := by
  unfold offTimeEnd
  with_reducible repeat' first | assumption | apply State.chopEvent1_inv | apply State.setChop_inv | apply State.Inv_ite | intro _

theorem overCurrent_inv (n : Nat) (va : Int) (vb : Int) (s : State) (h1 : s.Inv) :
    (overCurrent n va vb s).Inv := by
  unfold overCurrent
  with_reducible repeat' first | assumption | apply State.setIf_inv | apply State.count_inv | apply State.logEv_inv | apply State.axFault_inv | apply State.Inv_ite | intro _

theorem restDelayExpiry_inv (n : Nat) (s : State) (h1 : s.Inv) :
    (restDelayExpiry n s).Inv := by
  unfold restDelayExpiry
  with_reducible repeat' first | assumption | apply State.setChop_inv | apply State.Inv_ite | intro _

theorem State.chopTick_inv (s : State) (n : Nat) (h1 : s.Inv) :
    (State.chopTick s n).Inv := by
  unfold State.chopTick
  with_reducible repeat' first | assumption | apply State.stallEnd_inv | apply State.chopOff_inv | apply State.chopEvent1_inv | apply State.Inv_ite | apply State.Inv_foldl | apply State.Inv_foldl_fst | intro _ | dsimp only | (apply State.Inv_of_pair; · assumption) | (apply State.Inv_of_pair'; · assumption)

theorem State.chopSafe_inv (s : State) (n : ℕ) (h1 : s.Inv) :
    (State.chopSafe s n).Inv := by
  unfold State.chopSafe
  with_reducible repeat' first | assumption | apply State.chopOff_inv | apply State.clrB_inv

theorem chopHook_inv (a0 : Nat) (i : Nat) (old : Word) (w : Word) (s : State) (h1 : s.Inv) :
    (chopHook a0 i old w s).Inv := by
  unfold chopHook
  with_reducible repeat' first | assumption | apply State.setChop_inv | apply State.chopOff_inv | apply State.clrB_inv | apply State.Inv_ite | intro _

theorem State.setEnc_inv (s : State) (n : ℕ) (e : EncSt) (h1 : s.Inv) :
    (State.setEnc s n e).Inv := by
  unfold State.setEnc
  with_reducible repeat' first | assumption | apply twf_tput | apply State.Inv.encOk | apply State.Inv_enc

theorem State.encAdd_inv (s : State) (n : ℕ) (d : ℤ) (h1 : s.Inv) :
    (State.encAdd s n d).Inv := by
  unfold State.encAdd
  with_reducible repeat' first | assumption | apply State.setB_inv | apply State.setEnc_inv | apply State.Inv_ite | intro _

theorem encSample_inv (n : Nat) (a : Bool) (b : Bool) (s : State) (h1 : s.Inv) :
    (encSample n a b s).Inv := by
  unfold encSample
  with_reducible repeat' first | assumption | apply State.setEnc_inv | apply State.setB_inv | apply State.count_inv | apply State.encAdd_inv | apply State.Inv_ite | intro _ | dsimp only | split

theorem encFilter_inv (n : Nat) (s : State) (h1 : s.Inv) :
    (encFilter n s).Inv := by
  unfold encFilter
  with_reducible repeat' first | assumption | apply encSample_inv | apply State.Inv_ite | intro _

theorem indexSample_inv (n : Nat) (z : Bool) (s : State) (h1 : s.Inv) :
    (indexSample n z s).Inv := by
  unfold indexSample
  with_reducible repeat' first | assumption | apply State.setEnc_inv | apply State.count_inv | apply State.setReg_inv | apply State.setB_inv | apply State.axIndex_inv | apply State.Inv_ite | intro _

theorem indexFilter_inv (n : Nat) (s : State) (h1 : s.Inv) :
    (indexFilter n s).Inv := by
  unfold indexFilter
  with_reducible repeat' first | assumption | apply indexSample_inv | apply State.Inv_ite | intro _

theorem encSettle_inv (n : Nat) (s : State) (h1 : s.Inv) :
    (encSettle n s).Inv := by
  unfold encSettle
  with_reducible repeat' first | assumption | apply encFilter_inv | apply indexFilter_inv | apply State.Inv_ite | apply State.Inv_ite_fst | apply State.Inv_foldl | intro _ | dsimp only | (apply State.Inv_of_pair; · assumption) | (apply State.Inv_of_pair'; · assumption) | split | apply State.Inv_mk

theorem encoderEdge_inv (n : Nat) (a : Bool) (b : Bool) (s : State) (h1 : s.Inv) :
    (encoderEdge n a b s).Inv := by
  unfold encoderEdge
  with_reducible repeat' first | assumption | apply encSettle_inv | apply encFilter_inv | apply State.setEnc_inv | apply State.Inv_ite | intro _ | apply State.Inv_ite_fst | apply State.Inv_foldl | dsimp only | (apply State.Inv_of_pair; · assumption) | (apply State.Inv_of_pair'; · assumption) | split | apply State.Inv_mk

theorem indexEdge_inv (n : Nat) (z : Bool) (s : State) (h1 : s.Inv) :
    (indexEdge n z s).Inv := by
  unfold indexEdge
  with_reducible repeat' first | assumption | apply encSettle_inv | apply indexFilter_inv | apply encFilter_inv | apply State.setEnc_inv | apply State.Inv_ite | intro _ | apply State.Inv_ite_fst | apply State.Inv_foldl | dsimp only | (apply State.Inv_of_pair; · assumption) | (apply State.Inv_of_pair'; · assumption) | split | apply State.Inv_mk

theorem State.setAdc_inv (s : State) (c : ℕ) (x : AdcSt) (h1 : s.Inv) :
    (State.setAdc s c x).Inv := by
  unfold State.setAdc
  with_reducible repeat' first | assumption | apply twf_tput | apply State.Inv.adcOk | apply State.Inv_adc

theorem State.adcStart_inv (s : State) (c : ℕ) (q : ℕ) (h1 : s.Inv) :
    (State.adcStart s c q).Inv := by
  unfold State.adcStart
  with_reducible repeat' first | assumption | apply State.setAdc_inv

theorem State.adcRegStart_inv (s : State) (c : ℕ) (w : Word) (h1 : s.Inv) :
    (State.adcRegStart s c w).Inv := by
  unfold State.adcRegStart
  with_reducible repeat' first | assumption | apply State.setB_inv | apply State.adcStart_inv | apply State.Inv_ite | intro _

theorem conversion_inv (c : Nat) (v : Int) (s : State) (h1 : s.Inv) :
    (conversion c v s).Inv := by
  unfold conversion
  with_reducible repeat' first | assumption | apply State.setAdc_inv | apply State.Inv_ite | intro _

theorem captureHook_inv (a0 : ℕ) (i : ℕ) (w : Word) (s : State) (h1 : s.Inv) :
    (captureHook a0 i w s).Inv := by
  unfold captureHook
  with_reducible repeat' first | assumption | apply encSettle_inv | apply State.setB_inv | apply State.setEnc_inv | apply State.setReg_inv | apply State.adcRegStart_inv | apply State.Inv_ite | apply twf_tput | apply State.Inv.heldOk | intro _ | apply State.Inv_held | apply State.Inv_ite_fst | apply State.Inv_foldl | dsimp only | (apply State.Inv_of_pair; · assumption) | (apply State.Inv_of_pair'; · assumption) | split | apply State.Inv_mk

theorem captureRead_inv (a0 : ℕ) (i : ℕ) (s : State) (h1 : s.Inv) :
    (captureRead a0 i s).Inv := by
  unfold captureRead
  with_reducible repeat' first | assumption | apply State.Inv_ite | apply twf_tput | apply State.Inv.latchOk | intro _ | apply State.Inv_latch

/-! ## DmaCtl -/

theorem State.setDma_inv (s : State) (n : ℕ) (x : DmaSt) (h1 : s.Inv) :
    (State.setDma s n x).Inv := by
  unfold State.setDma
  with_reducible repeat' first | assumption | apply twf_tput | apply State.Inv.dmaOk | apply State.Inv_dma

theorem State.dmaTake_inv (s : State) (n : Nat) (h1 : s.Inv) :
    (State.dmaTake s n).Inv := by
  unfold State.dmaTake
  with_reducible repeat' first | assumption | apply State.setDma_inv | apply twf_tput | apply State.Inv.txRROk | apply State.Inv_txRR | apply State.Inv_ite | intro _ | apply State.Inv_mk

theorem State.dmaYield_inv (s : State) (h1 : s.Inv) :
    (State.dmaYield s).Inv := by
  unfold State.dmaYield
  with_reducible repeat' first | assumption | apply State.forN_inv | apply State.setDma_inv | apply State.Inv_ite | intro _ | dsimp only | (apply State.Inv_of_pair; · assumption) | (apply State.Inv_of_pair'; · assumption)

theorem State.dmaDrop_inv (s : State) (n : Nat) (h1 : s.Inv) :
    (State.dmaDrop s n).Inv := by
  unfold State.dmaDrop
  with_reducible repeat' first | assumption | apply State.forget_inv

theorem State.dmaStart_inv (s : State) (n : ℕ) (h1 : s.Inv) :
    (State.dmaStart s n).Inv := by
  unfold State.dmaStart
  with_reducible repeat' first | assumption | apply State.setDma_inv | apply State.setB_inv | apply State.setReg_inv | apply State.Inv_ite | intro _

theorem State.dmaHalt_inv (s : State) (n : Nat) (cause : Nat) (addr : Nat) (side : Nat) (desc : Nat) (h1 : s.Inv) :
    (State.dmaHalt s n cause addr side desc).Inv := by
  unfold State.dmaHalt
  with_reducible repeat' first | assumption | apply State.dmaDrop_inv | apply State.fqPush_inv | apply State.setReg_inv | apply State.setB_inv | apply State.clrB_inv | apply State.setDma_inv | apply State.Inv_ite | intro _

theorem State.dmaAbort_inv (s : State) (n : ℕ) (h1 : s.Inv) :
    (State.dmaAbort s n).Inv := by
  unfold State.dmaAbort
  with_reducible repeat' first | assumption | apply State.dmaHalt_inv | apply State.Inv_ite | intro _

theorem State.dmaSignal_inv (s : State) (p : ℕ) (h1 : s.Inv) :
    (State.dmaSignal s p).Inv := by
  unfold State.dmaSignal
  with_reducible repeat' first | assumption | apply State.forN_inv | apply State.putF_inv | apply State.setB_inv | apply State.Inv_ite | intro _

theorem dreqLevel_inv (k : ℕ) (on : Bool) (s : State) (h1 : s.Inv) :
    (dreqLevel k on s).Inv := by
  unfold dreqLevel
  with_reducible repeat' first | assumption | apply State.forN_inv | apply State.setIf_inv | apply State.Inv_ite | intro _ | apply State.Inv_mk

theorem burstGrant_inv (n : Nat) (s : State) (h1 : s.Inv) :
    (burstGrant n s).Inv := by
  unfold burstGrant
  with_reducible repeat' first | assumption | apply State.putF_inv | apply State.dmaTake_inv | apply State.setDma_inv | apply State.Inv_ite | intro _

theorem dmaHook_inv (a0 : ℕ) (i : ℕ) (old : Word) (w : Word) (s : State) (h1 : s.Inv) :
    (dmaHook a0 i old w s).Inv := by
  unfold dmaHook
  with_reducible repeat' first | assumption | apply State.dmaAbort_inv | apply State.dmaStart_inv | apply State.setReg_inv | apply State.Inv_ite | intro _

/-! ## Pilot -/

theorem State.setPilot_inv (s : State) (n : ℕ) (x : PilotSt) (h1 : s.Inv) :
    (State.setPilot s n x).Inv := by
  unfold State.setPilot
  with_reducible repeat' first | assumption | apply twf_tput | apply State.Inv.pilotOk | apply State.Inv_pilot

theorem State.modPilot_inv (s : State) (n : ℕ) (f : PilotSt → PilotSt) (h1 : s.Inv) :
    (State.modPilot s n f).Inv := by
  unfold State.modPilot
  with_reducible repeat' first | assumption | apply State.setPilot_inv

theorem State.setPset_inv (s : State) (k : ℕ) (x : PsetSt) (h1 : s.Inv) :
    (State.setPset s k x).Inv := by
  unfold State.setPset
  with_reducible repeat' first | assumption | apply twf_tput | apply State.Inv.psetOk | apply State.Inv_pset

theorem State.drivePins_inv (s : State) (n : ℕ) (clash : ℕ) (l : List (ℕ × Bool)) (h1 : s.Inv) :
    (State.drivePins s n clash l).Inv := by
  unfold State.drivePins
  with_reducible repeat' first | assumption | apply State.setIf_inv | apply State.setPset_inv | apply State.modPilot_inv

theorem State.pilotHalt_inv (s : State) (n : ℕ) (f : Fld) (h1 : s.Inv) :
    (State.pilotHalt s n f).Inv := by
  unfold State.pilotHalt
  with_reducible repeat' first | assumption | apply State.setB_inv | apply State.modPilot_inv

theorem State.pilotGo_inv (s : State) (n : ℕ) (h1 : s.Inv) :
    (State.pilotGo s n).Inv := by
  unfold State.pilotGo
  with_reducible repeat' first | assumption | apply State.modPilot_inv | apply State.pilotHalt_inv | apply State.Inv_ite | intro _

theorem State.pilotDwell_inv (s : State) (n : ℕ) (dw : ℕ) (h1 : s.Inv) :
    (State.pilotDwell s n dw).Inv := by
  unfold State.pilotDwell
  with_reducible repeat' first | assumption | apply State.pilotGo_inv | apply State.modPilot_inv | apply State.Inv_ite | intro _

theorem State.setShift_inv (s : State) (n : ℕ) (v : ℕ) (h1 : s.Inv) :
    (State.setShift s n v).Inv := by
  unfold State.setShift
  with_reducible repeat' first | assumption | apply State.setReg_inv

theorem State.setWa_inv (s : State) (n : ℕ) (v : ℕ) (h1 : s.Inv) :
    (State.setWa s n v).Inv := by
  unfold State.setWa
  with_reducible repeat' first | assumption | apply State.setReg_inv

theorem State.setBcnt_inv (s : State) (n : ℕ) (v : ℕ) (h1 : s.Inv) :
    (State.setBcnt s n v).Inv := by
  unfold State.setBcnt
  with_reducible repeat' first | assumption | apply State.modPilot_inv

theorem State.addBcnt_inv (s : State) (n : ℕ) (w : ℕ) (h1 : s.Inv) :
    (State.addBcnt s n w).Inv := by
  unfold State.addBcnt
  with_reducible repeat' first | assumption | apply State.modPilot_inv

theorem State.presentPins_inv (s : State) (k : ℕ) (ext : ℕ) (h1 : s.Inv) :
    (State.presentPins s k ext).Inv := by
  unfold State.presentPins
  with_reducible repeat' first | assumption | apply State.setPset_inv

theorem State.pilotStep_inv (s : State) (n : ℕ) (op : ℕ) (ext : ℕ) (clash : ℕ) (parity : Bool) (drive : State → ℕ → List (ℕ × Bool)) (body : State → ℕ → ℕ → State) (h1 : s.Inv) (h2 : ∀ x0 x1 x2, x0.Inv → (body x0 x1 x2).Inv) :
    (State.pilotStep s n op ext clash parity drive body).Inv := by
  unfold State.pilotStep
  with_reducible repeat' first | assumption | apply h2 | apply State.setPset_inv | apply State.presentPins_inv | apply State.logEv_inv | apply State.pilotHalt_inv | apply State.modPilot_inv | apply State.tickFree_inv | apply State.drivePins_inv | apply State.Inv_ite | intro _

theorem State.pilotDone_inv (s : State) (n : ℕ) (w : ℕ) (h1 : s.Inv) :
    (State.pilotDone s n w).Inv := by
  unfold State.pilotDone
  with_reducible repeat' first | assumption | apply State.pilotDwell_inv

theorem driveBody_inv (n : ℕ) (s : State) (w : ℕ) (lv : ℕ) (h1 : s.Inv) :
    (driveBody n s w lv).Inv := by
  unfold driveBody
  with_reducible repeat' first | assumption | apply State.pilotDone_inv | apply State.addBcnt_inv | apply State.setShift_inv | apply State.Inv_ite | intro _

theorem sampleBody_inv (n : ℕ) (s : State) (w : ℕ) (lv : ℕ) (h1 : s.Inv) :
    (sampleBody n s w lv).Inv := by
  unfold sampleBody
  with_reducible repeat' first | assumption | apply State.pilotDone_inv | apply State.addBcnt_inv | apply State.setShift_inv | apply State.setWa_inv | apply State.Inv_ite | intro _

theorem State.loadTo_inv (s : State) (n : ℕ) (wa : Bool) (v : ℕ) (h1 : s.Inv) :
    (State.loadTo s n wa v).Inv := by
  unfold State.loadTo
  with_reducible repeat' first | assumption | apply State.setWa_inv | apply State.setBcnt_inv | apply State.setShift_inv | apply State.Inv_ite | intro _

theorem State.loadTake_inv (s : State) (n : ℕ) (wa : Bool) (h1 : s.Inv) :
    (State.loadTake s n wa).Inv := by
  unfold State.loadTake
  with_reducible repeat' first | assumption | apply State.loadTo_inv | apply State.modPilot_inv | split

theorem State.storePut_inv (s : State) (n : ℕ) (wa : Bool) (push : Bool) (h1 : s.Inv) :
    (State.storePut s n wa push).Inv := by
  unfold State.storePut
  with_reducible repeat' first | assumption | apply State.modPilot_inv | apply State.setBcnt_inv | apply State.setShift_inv | apply State.Inv_ite | intro _

theorem loadBody_inv (n : ℕ) (s : State) (w : ℕ) (_lv : ℕ) (h1 : s.Inv) :
    (loadBody n s w _lv).Inv := by
  unfold loadBody
  with_reducible repeat' first | assumption | apply State.pilotDwell_inv | apply State.loadTake_inv | apply State.setPilot_inv | apply State.loadTo_inv | apply State.setIf_inv | apply State.count_inv | apply State.Inv_ite | intro _

theorem storeBody_inv (n : ℕ) (s : State) (w : ℕ) (_lv : ℕ) (h1 : s.Inv) :
    (storeBody n s w _lv).Inv := by
  unfold storeBody
  with_reducible repeat' first | assumption | apply State.pilotDwell_inv | apply State.storePut_inv | apply State.setPilot_inv | apply State.setB_inv | apply State.count_inv | apply State.Inv_ite | intro _

theorem pilotQueueWaitEnd_inv (n : ℕ) (s : State) (h1 : s.Inv) :
    (pilotQueueWaitEnd n s).Inv := by
  unfold pilotQueueWaitEnd
  with_reducible repeat' first | assumption | apply State.pilotDwell_inv | apply State.loadTake_inv | apply State.storePut_inv | apply State.Inv_ite | intro _ | dsimp only | split

theorem awaitBody_inv (n : ℕ) (s : State) (w : ℕ) (lv : ℕ) (h1 : s.Inv) :
    (awaitBody n s w lv).Inv := by
  unfold awaitBody
  with_reducible repeat' first | assumption | apply State.modPilot_inv

theorem State.awaitSee_inv (n : Nat) (s : State) (h1 : s.Inv) :
    (State.awaitSee n s).Inv := by
  unfold State.awaitSee
  with_reducible repeat' first | assumption | apply State.modPilot_inv | apply State.Inv_ite | intro _ | dsimp only | split

theorem State.pioSync_inv (s : State) (k : Nat) (h1 : s.Inv) :
    (State.pioSync s k).Inv := by
  unfold State.pioSync
  with_reducible repeat' first | assumption | apply State.setPset_inv | apply State.awaitSee_inv | apply State.Inv_ite | apply State.Inv_foldl | apply State.Inv_foldl_fst | intro _

theorem awaitComplete_inv (n : Nat) (ext : List Nat) (s : State) (h1 : s.Inv) :
    (awaitComplete n ext s).Inv := by
  unfold awaitComplete
  with_reducible repeat' first | assumption | apply State.presentPins_inv | apply State.pilotDwell_inv | apply State.modPilot_inv | apply State.Inv_ite | apply State.Inv_foldl | apply State.Inv_foldl_fst | intro _ | dsimp only | (apply State.Inv_of_pair; · assumption) | (apply State.Inv_of_pair'; · assumption) | split

theorem dwellEnd_inv (n : ℕ) (s : State) (h1 : s.Inv) :
    (dwellEnd n s).Inv := by
  unfold dwellEnd
  with_reducible repeat' first | assumption | apply State.pilotGo_inv | apply State.Inv_ite | intro _

theorem countBody_inv (n : ℕ) (s : State) (w : ℕ) (_lv : ℕ) (h1 : s.Inv) :
    (countBody n s w _lv).Inv := by
  unfold countBody
  with_reducible repeat' first | assumption | apply State.pilotGo_inv | apply State.modPilot_inv | apply State.setWa_inv | apply State.setReg_inv | apply State.Inv_ite | intro _ | split

theorem signalBody_inv (n : ℕ) (s : State) (w : ℕ) (_lv : ℕ) (h1 : s.Inv) :
    (signalBody n s w _lv).Inv := by
  unfold signalBody
  with_reducible repeat' first | assumption | apply State.pilotDone_inv | apply State.setIf_inv | apply State.raisePsig_inv | apply State.dmaSignal_inv | apply State.Inv_ite | intro _

theorem moveBody_inv (n : ℕ) (s : State) (w : ℕ) (lv : ℕ) (h1 : s.Inv) :
    (moveBody n s w lv).Inv := by
  unfold moveBody
  with_reducible repeat' first | assumption | apply State.pilotDone_inv | apply State.setWa_inv | apply State.setReg_inv | apply State.setShift_inv | apply State.setBcnt_inv | split

theorem pilotIllegal_inv (n : ℕ) (parity : Bool) (s : State) (h1 : s.Inv) :
    (pilotIllegal n parity s).Inv := by
  unfold pilotIllegal
  with_reducible repeat' first | assumption | apply State.logEv_inv | apply State.pilotHalt_inv | apply State.setPset_inv | apply State.Inv_ite | intro _

theorem State.pilotStart_inv (s : State) (n : ℕ) (clear : Bool) (h1 : s.Inv) :
    (State.pilotStart s n clear).Inv := by
  unfold State.pilotStart
  with_reducible repeat' first | assumption | apply State.setBcnt_inv | apply State.setShift_inv | apply State.modPilot_inv | apply State.setB_inv | apply State.Inv_ite | intro _

theorem State.pilotStop_inv (s : State) (n : Nat) (h1 : s.Inv) :
    (State.pilotStop s n).Inv := by
  unfold State.pilotStop
  with_reducible repeat' first | assumption | apply pilotIllegal_inv | apply State.modPilot_inv | apply State.Inv_ite | intro _

theorem State.pilotKick_inv (s : State) (n : ℕ) (h1 : s.Inv) :
    (State.pilotKick s n).Inv := by
  unfold State.pilotKick
  with_reducible repeat' first | assumption | apply State.modPilot_inv | split

theorem State.pilotFlush_inv (s : State) (n : ℕ) (h1 : s.Inv) :
    (State.pilotFlush s n).Inv := by
  unfold State.pilotFlush
  with_reducible repeat' first | assumption | apply State.modPilot_inv

theorem State.pilotSafe_inv (s : State) (n : ℕ) (h1 : s.Inv) :
    (State.pilotSafe s n).Inv := by
  unfold State.pilotSafe
  with_reducible repeat' first | assumption | apply State.setB_inv | apply State.pilotStop_inv | apply State.Inv_ite | intro _

theorem pilotHook_inv (a0 : ℕ) (i : ℕ) (old : Word) (w : Word) (s : State) (h1 : s.Inv) :
    (pilotHook a0 i old w s).Inv := by
  unfold pilotHook
  with_reducible repeat' first | assumption | apply State.pilotStart_inv | apply State.pilotStop_inv | apply State.pilotKick_inv | apply State.pilotFlush_inv | apply State.forN_inv | apply State.modPilot_inv | apply State.Inv_ite | intro _

theorem pilotRead_inv (a0 : ℕ) (i : ℕ) (s : State) (h1 : s.Inv) :
    (pilotRead a0 i s).Inv := by
  unfold pilotRead
  with_reducible repeat' first | assumption | apply State.setB_inv | apply State.modPilot_inv | apply State.Inv_ite | intro _ | split

/-! ## Lighthouse -/

theorem State.modLh_inv (s : State) (f : LhSt → LhSt) (h1 : s.Inv) :
    (State.modLh s f).Inv := by
  unfold State.modLh
  with_reducible repeat' first | assumption | apply State.Inv_mk

theorem State.resetReq_inv (s : State) (sc : Scope) (src : ℕ) (h1 : s.Inv) :
    (State.resetReq s sc src).Inv := by
  unfold State.resetReq
  with_reducible repeat' first | assumption | apply State.setReg_inv | apply State.Inv_ite | intro _ | apply State.Inv_mk

theorem State.safeSource_inv (s : State) (k : ℕ) (h1 : s.Inv) :
    (State.safeSource s k).Inv := by
  unfold State.safeSource
  with_reducible repeat' first | assumption | apply State.setB_inv | apply State.modLh_inv | apply State.Inv_ite | intro _

theorem State.latchSet_inv (s : State) (k : ℕ) (h1 : s.Inv) :
    (State.latchSet s k).Inv := by
  unfold State.latchSet
  with_reducible repeat' first | assumption | apply State.safeSource_inv | apply State.setB_inv

theorem State.safeStale_inv (s : State) (h1 : s.Inv) :
    (State.safeStale s).Inv := by
  unfold State.safeStale
  with_reducible repeat' first | assumption | apply State.modLh_inv | apply State.Inv_ite | intro _

theorem State.latchClear_inv (s : State) (h1 : s.Inv) :
    (State.latchClear s).Inv := by
  unfold State.latchClear
  with_reducible repeat' first | assumption | apply State.safeStale_inv | apply State.clrB_inv

theorem lhSafen_inv (low : Bool) (s : State) (h1 : s.Inv) :
    (lhSafen low s).Inv := by
  unfold lhSafen
  with_reducible repeat' first | assumption | apply State.putB_inv | apply State.safeSource_inv | apply State.safeStale_inv | apply State.Inv_ite | intro _

theorem State.lhEv_inv (s : State) (c : Nat) (v : Nat) (h1 : s.Inv) :
    (State.lhEv s c v).Inv := by
  unfold State.lhEv
  with_reducible repeat' first | assumption | apply State.modLh_inv | apply State.logEv_inv | apply State.Inv_ite | intro _

theorem State.safeBlocks_inv (s : State) (h1 : s.Inv) :
    (State.safeBlocks s).Inv := by
  unfold State.safeBlocks
  with_reducible repeat' first | assumption | apply State.forN_inv | apply State.chopSafe_inv | apply State.axSafe_inv | apply State.grpSafe_inv | apply State.trigSafe_inv | apply State.pilotSafe_inv | apply State.Inv_ite

theorem safeStateEntry_inv (s : State) (h1 : s.Inv) :
    (safeStateEntry s).Inv := by
  unfold safeStateEntry
  with_reducible repeat' first | assumption | apply State.setB_inv | apply State.modLh_inv | apply State.safeBlocks_inv | apply State.safeSource_inv | apply State.lhEv_inv | apply State.Inv_ite | apply State.Inv_foldl | apply State.Inv_foldl_fst | intro _

theorem safeStateRelease_inv (s : State) (h1 : s.Inv) :
    (safeStateRelease s).Inv := by
  unfold safeStateRelease
  with_reducible repeat' first | assumption | apply State.clrB_inv | apply State.Inv_ite | intro _

theorem State.wdogRestart_inv (s : State) (w : Nat) (h1 : s.Inv) :
    (State.wdogRestart s w).Inv := by
  unfold State.wdogRestart
  with_reducible repeat' first | assumption | apply State.modLh_inv | apply State.Inv_ite | intro _

theorem State.wdogWake_inv (s : State) (h1 : s.Inv) :
    (State.wdogWake s).Inv := by
  unfold State.wdogWake
  with_reducible repeat' first | assumption | apply State.wdogRestart_inv | apply State.modLh_inv | apply State.Inv_ite | apply State.Inv_foldl | intro _

theorem State.wdogReset_inv (s : State) (w : ℕ) (h1 : s.Inv) :
    (State.wdogReset s w).Inv := by
  unfold State.wdogReset
  with_reducible repeat' first | assumption | apply State.resetReq_inv | apply State.setReg_inv | apply State.berthReset_inv | apply State.Inv_ite | intro _

theorem lhWatchdogExpiry_inv (w : ℕ) (s : State) (h1 : s.Inv) :
    (lhWatchdogExpiry w s).Inv := by
  unfold lhWatchdogExpiry
  with_reducible repeat' first | assumption | apply State.wdogReset_inv | apply State.latchSet_inv | apply State.logEv_inv | apply State.setB_inv | apply State.setReg_inv | apply State.wdogRestart_inv | apply State.resetReq_inv | apply State.Inv_ite | intro _

theorem lhHook_inv (a0 : ℕ) (i : ℕ) (old : Word) (w : Word) (s : State) (h1 : s.Inv) :
    (lhHook a0 i old w s).Inv := by
  unfold lhHook
  with_reducible repeat' first | assumption | apply State.latchSet_inv | apply State.latchClear_inv | apply State.setReg_inv | apply State.wdogRestart_inv | apply State.Inv_ite | intro _

theorem xtalSwitch_inv (on : Bool) (s : State) (h1 : s.Inv) :
    (xtalSwitch on s).Inv := by
  unfold xtalSwitch
  with_reducible repeat' first | assumption | apply State.modLh_inv | apply State.putB_inv | apply State.Inv_ite | intro _

/-! ## Can -/

theorem State.setCan_inv (s : State) (n : ℕ) (x : CanSt) (h1 : s.Inv) :
    (State.setCan s n x).Inv := by
  unfold State.setCan
  with_reducible repeat' first | assumption | apply twf_tput | apply State.Inv.canOk | apply State.Inv_can

theorem State.modCan_inv (s : State) (n : ℕ) (f : CanSt → CanSt) (h1 : s.Inv) :
    (State.modCan s n f).Inv := by
  unfold State.modCan
  with_reducible repeat' first | assumption | apply State.setCan_inv

theorem State.modTt_inv (s : State) (f : TtSt → TtSt) (h1 : s.Inv) :
    (State.modTt s f).Inv := by
  unfold State.modTt
  with_reducible repeat' first | assumption | apply State.Inv_mk

theorem State.ttRefStart_inv (s : State) (n : ℕ) (id : ℕ) (ide : Bool) (h1 : s.Inv) :
    (State.ttRefStart s n id ide).Inv := by
  unfold State.ttRefStart
  with_reducible repeat' first | assumption | apply State.modTt_inv | apply State.Inv_ite | intro _

theorem State.ttFail_inv (s : State) (h1 : s.Inv) :
    (State.ttFail s).Inv := by
  unfold State.ttFail
  with_reducible repeat' first | assumption | apply State.count_inv

theorem State.canFc_inv (s : State) (n : ℕ) (tec : ℕ) (rec' : ℕ) (h1 : s.Inv) :
    (State.canFc s n tec rec').Inv := by
  unfold State.canFc
  with_reducible repeat' first | assumption | apply State.modCan_inv | apply State.count_inv | apply State.setB_inv | apply State.setIf_inv | apply State.setCan_inv | apply State.Inv_ite | intro _

theorem State.canTxErr_inv (s : State) (n : Nat) (exempt : Bool) (h1 : s.Inv) :
    (State.canTxErr s n exempt).Inv := by
  unfold State.canTxErr
  with_reducible repeat' first | assumption | apply State.count_inv | apply State.modCan_inv | apply State.canFc_inv | apply State.Inv_ite | intro _

theorem State.canTxOk_inv (s : State) (n : ℕ) (h1 : s.Inv) :
    (State.canTxOk s n).Inv := by
  unfold State.canTxOk
  with_reducible repeat' first | assumption | apply State.canFc_inv | apply State.count_inv

theorem State.canRxErr_inv (s : State) (n : Nat) (primary : Bool) (h1 : s.Inv) :
    (State.canRxErr s n primary).Inv := by
  unfold State.canRxErr
  with_reducible repeat' first | assumption | apply State.count_inv | apply State.modCan_inv | apply State.setCan_inv | apply State.canFc_inv | apply State.Inv_ite | intro _

theorem State.canRxFall_inv (s : State) (n : ℕ) (h1 : s.Inv) :
    (State.canRxFall s n).Inv := by
  unfold State.canRxFall
  with_reducible repeat' first | assumption | apply State.tickFree_inv | apply State.setCan_inv | apply State.Inv_ite | intro _

theorem State.exclLost_inv (s : State) (n : Nat) (h1 : s.Inv) :
    (State.exclLost s n).Inv := by
  unfold State.exclLost
  with_reducible repeat' first | assumption | apply State.ttFail_inv | apply State.Inv_ite | apply State.Inv_ite_fst | apply State.Inv_foldl | intro _ | dsimp only | (apply State.Inv_of_pair; · assumption) | (apply State.Inv_of_pair'; · assumption) | split | apply State.Inv_mk

theorem State.canInit_inv (s : State) (n : Nat) (h1 : s.Inv) :
    (State.canInit s n).Inv := by
  unfold State.canInit
  with_reducible repeat' first | assumption | apply State.exclLost_inv | apply State.modCan_inv | apply State.Inv_ite | intro _ | apply State.Inv_ite_fst | apply State.Inv_foldl | dsimp only | (apply State.Inv_of_pair; · assumption) | (apply State.Inv_of_pair'; · assumption) | split | apply State.Inv_mk

theorem State.canSettle_inv (s : State) (n : Nat) (h1 : s.Inv) :
    (State.canSettle s n).Inv := by
  unfold State.canSettle
  with_reducible repeat' first | assumption | apply State.canInit_inv | apply State.setCan_inv | apply State.Inv_ite | intro _

theorem State.canMode_inv (s : State) (n : Nat) (h1 : s.Inv) :
    (State.canMode s n).Inv := by
  unfold State.canMode
  with_reducible repeat' first | assumption | apply State.modCan_inv | apply State.canSettle_inv | apply State.Inv_ite | intro _

theorem canModeEffect_inv (n : Nat) (s : State) (h1 : s.Inv) :
    (canModeEffect n s).Inv := by
  unfold canModeEffect
  with_reducible repeat' first | assumption | apply State.canSettle_inv | apply State.setCan_inv | apply State.Inv_ite | intro _

theorem busOffRecovery_inv (n : Nat) (s : State) (h1 : s.Inv) :
    (busOffRecovery n s).Inv := by
  unfold busOffRecovery
  with_reducible repeat' first | assumption | apply State.setCan_inv | apply State.Inv_ite | intro _

theorem State.canCoreReset_inv (s : State) (n : ℕ) (h1 : s.Inv) :
    (State.canCoreReset s n).Inv := by
  unfold State.canCoreReset
  with_reducible repeat' first | assumption | apply State.canSettle_inv | apply State.modCan_inv | apply State.putF_inv

theorem State.canEvent_inv (s : State) (n : ℕ) (b : ℕ) (f : CanBuf) (o : TxOut) (h1 : s.Inv) :
    (State.canEvent s n b f o).Inv := by
  unfold State.canEvent
  with_reducible repeat' first | assumption | apply State.fqOffer_inv | apply State.Inv_ite | intro _

theorem State.canFree_inv (s : State) (n : ℕ) (b : ℕ) (f : CanBuf) (o : TxOut) (h1 : s.Inv) :
    (State.canFree s n b f o).Inv := by
  unfold State.canFree
  with_reducible repeat' first | assumption | apply State.canEvent_inv | apply State.setIf_inv | apply State.modCan_inv

theorem State.canFailed_inv (s : State) (n : ℕ) (b : ℕ) (h1 : s.Inv) :
    (State.canFailed s n b).Inv := by
  unfold State.canFailed
  with_reducible repeat' first | assumption | apply State.canFree_inv | apply State.setB_inv | apply State.count_inv | apply State.Inv_ite | intro _ | split

theorem State.canCancel_inv (s : State) (n : ℕ) (b : ℕ) (h1 : s.Inv) :
    (State.canCancel s n b).Inv := by
  unfold State.canCancel
  with_reducible repeat' first | assumption | apply State.setCan_inv | apply State.canFree_inv | apply State.Inv_ite | intro _ | dsimp only | split

theorem State.canFill_inv (s : State) (n : ℕ) (b : ℕ) (f : CanBuf) (h1 : s.Inv) :
    (State.canFill s n b f).Inv := by
  unfold State.canFill
  with_reducible repeat' first | assumption | apply State.modCan_inv

theorem State.canCopyLoad_inv (s : State) (h1 : s.Inv) :
    (State.canCopyLoad s).Inv := by
  unfold State.canCopyLoad
  with_reducible repeat' first | assumption | apply State.setCan_inv | apply State.canFill_inv | apply State.Inv_ite | intro _ | dsimp only | split

theorem State.canCopy_inv (s : State) (f : CanBuf) (h1 : s.Inv) :
    (State.canCopy s f).Inv := by
  unfold State.canCopy
  with_reducible repeat' first | assumption | apply State.modCan_inv | apply State.canCopyLoad_inv | apply State.Inv_ite | intro _

theorem txBufferLoad_inv (n : Nat) (s : State) (h1 : s.Inv) :
    (txBufferLoad n s).Inv := by
  unfold txBufferLoad
  with_reducible repeat' first | assumption | apply State.canCopyLoad_inv | apply State.fqSkip_inv | apply State.count_inv | apply State.setB_inv | apply State.canFill_inv | apply State.canCopy_inv | apply State.Inv_ite | intro _ | dsimp only | (apply State.Inv_of_pair; · assumption) | (apply State.Inv_of_pair'; · assumption) | split

theorem State.canPut_inv (s : State) (n : Nat) (src : CanSrc) (w0 : Nat) (w1 : Nat) (d : List Nat) (till : Option Nat) (h1 : s.Inv) :
    (State.canPut s n src w0 w1 d till).Inv := by
  unfold State.canPut
  with_reducible repeat' first | assumption | apply State.modCan_inv | apply State.Inv_ite | intro _

theorem State.canStartSpec_inv (s : State) (n : Nat) (p : CanSpec) (h1 : s.Inv) :
    (State.canStartSpec s n p).Inv := by
  unfold State.canStartSpec
  with_reducible repeat' first | assumption | apply State.modCan_inv | apply State.ttFail_inv | apply State.setB_inv | apply State.canPut_inv | apply State.ttRefStart_inv | apply State.Inv_ite | intro _ | dsimp only | split

theorem State.canStart_inv (s : State) (n : Nat) (h1 : s.Inv) :
    (State.canStart s n).Inv := by
  unfold State.canStart
  with_reducible repeat' first | assumption | apply State.canStartSpec_inv | apply State.modCan_inv | apply State.canPut_inv | apply State.Inv_ite | intro _ | dsimp only | split

theorem State.canDelay_inv (s : State) (n : ℕ) (o : CanOut) (delay : Option ℕ) (h1 : s.Inv) :
    (State.canDelay s n o delay).Inv := by
  unfold State.canDelay
  with_reducible repeat' first | assumption | apply State.putF_inv | apply State.tickFree_inv | apply State.Inv_ite | intro _ | split

theorem State.canOff_inv (s : State) (n : ℕ) (h1 : s.Inv) :
    (State.canOff s n).Inv := by
  unfold State.canOff
  with_reducible repeat' first | assumption | apply State.modCan_inv

theorem State.canSpecErr_inv (s : State) (n : Nat) (o : CanOut) (h1 : s.Inv) :
    (State.canSpecErr s n o).Inv := by
  unfold State.canSpecErr
  with_reducible repeat' first | assumption | apply State.ttFail_inv | apply State.modCan_inv | apply State.Inv_ite | intro _ | split

theorem State.canTxError_inv (s : State) (n : ℕ) (o : CanOut) (exempt : Bool) (h1 : s.Inv) :
    (State.canTxError s n o exempt).Inv := by
  unfold State.canTxError
  with_reducible repeat' first | assumption | apply State.canSettle_inv | apply State.canFailed_inv | apply State.canTxErr_inv | apply State.canOff_inv | apply State.canSpecErr_inv | split

theorem State.canTxLost_inv (s : State) (n : Nat) (o : CanOut) (id : Nat) (ide : Bool) (h1 : s.Inv) :
    (State.canTxLost s n o id ide).Inv := by
  unfold State.canTxLost
  with_reducible repeat' first | assumption | apply State.canOff_inv | apply State.count_inv | apply State.modCan_inv | apply State.ttRefStart_inv | apply State.canFailed_inv | apply State.canSpecErr_inv | apply State.Inv_ite | intro _ | dsimp only | split

theorem State.canTaken_inv (s : State) (n : Nat) (h1 : s.Inv) :
    (State.canTaken s n).Inv := by
  unfold State.canTaken
  with_reducible repeat' first | assumption | apply State.modCan_inv | apply State.canFailed_inv | apply State.canSpecErr_inv | apply State.canSettle_inv | apply State.Inv_ite | intro _ | dsimp only | split

theorem State.canBufSent_inv (s : State) (n : ℕ) (b : ℕ) (h1 : s.Inv) :
    (State.canBufSent s n b).Inv := by
  unfold State.canBufSent
  with_reducible repeat' first | assumption | apply State.canFree_inv | split

theorem State.canPush_inv (s : State) (n : ℕ) (q : ℕ) (ws : List FqWord) (h1 : s.Inv) :
    (State.canPush s n q ws).Inv := by
  unfold State.canPush
  with_reducible repeat' first | assumption | apply State.countIf_inv | apply State.fqOffer_inv

theorem State.canFilter_inv (s : State) (n : ℕ) (f : CanFrame) (x : CanSof) (h1 : s.Inv) :
    (State.canFilter s n f x).Inv := by
  unfold State.canFilter
  with_reducible repeat' first | assumption | apply State.canPush_inv | apply State.Inv_ite | intro _ | dsimp only | split

theorem State.canAccept_inv (s : State) (n : ℕ) (f : CanFrame) (x : CanSof) (h1 : s.Inv) :
    (State.canAccept s n f x).Inv := by
  unfold State.canAccept
  with_reducible repeat' first | assumption | apply State.count_inv | apply State.canFilter_inv | apply State.modTt_inv | apply State.Inv_ite | intro _

theorem State.canRxStart_inv (s : State) (n : Nat) (id : Nat) (ide : Bool) (h1 : s.Inv) :
    (State.canRxStart s n id ide).Inv := by
  unfold State.canRxStart
  with_reducible repeat' first | assumption | apply State.modCan_inv | apply State.ttRefStart_inv | apply State.Inv_ite | intro _

/-! ## TestDbg -/

theorem State.modTap_inv (s : State) (f : TapSt → TapSt) (h1 : s.Inv) :
    (State.modTap s f).Inv := by
  unfold State.modTap
  with_reducible repeat' first | assumption | apply State.Inv_mk

theorem State.linkCtl_inv (s : State) (l : Nat) (old : Word) (w : Word) (h1 : s.Inv) :
    (State.linkCtl s l old w).Inv := by
  unfold State.linkCtl
  with_reducible repeat' first | assumption | apply State.modTap_inv | apply State.putF_inv | apply State.lineLost_inv | apply State.portDown_inv | apply State.startLink_inv | apply State.canTaken_inv | apply State.Inv_ite | intro _

theorem State.linkCount_inv (s : State) (l : Nat) (h1 : s.Inv) :
    (State.linkCount s l).Inv := by
  unfold State.linkCount
  with_reducible repeat' first | assumption | apply State.countN_inv | apply State.modTap_inv

theorem State.testCount_inv (s : State) (h1 : s.Inv) :
    (State.testCount s).Inv := by
  unfold State.testCount
  with_reducible repeat' first | assumption | apply State.linkCount_inv | apply State.Inv_ite | apply State.Inv_foldl | apply State.Inv_foldl_fst

theorem checkerLocked_inv (l : Nat) (lane : Nat) (s : State) (h1 : s.Inv) :
    (checkerLocked l lane s).Inv := by
  unfold checkerLocked
  with_reducible repeat' first | assumption | apply State.putF_inv | apply State.Inv_ite | intro _

theorem laneErr_inv (l : Nat) (lane : Nat) (n : Nat) (s : State) (h1 : s.Inv) :
    (laneErr l lane n s).Inv := by
  unfold laneErr
  with_reducible repeat' first | assumption | apply State.countN_inv | apply State.putF_inv | apply State.Inv_ite | intro _

theorem lockLost_inv (l : Nat) (lane : Nat) (n : Nat) (s : State) (h1 : s.Inv) :
    (lockLost l lane n s).Inv := by
  unfold lockLost
  with_reducible repeat' first | assumption | apply laneErr_inv | apply State.putF_inv | apply State.setB_inv | apply State.Inv_ite | intro _

theorem testHook_inv (a0 : ℕ) (i : ℕ) (old : Word) (w : Word) (s : State) (h1 : s.Inv) :
    (testHook a0 i old w s).Inv := by
  unfold testHook
  with_reducible repeat' first | assumption | apply State.linkCtl_inv | apply State.Inv_ite | intro _

theorem State.tapLoad_inv (s : State) (code : Nat) (h1 : s.Inv) :
    (State.tapLoad s code).Inv := by
  unfold State.tapLoad
  with_reducible repeat' first | assumption | apply State.modTap_inv

theorem tapReset_inv (s : State) (h1 : s.Inv) :
    (tapReset s).Inv := by
  unfold tapReset
  with_reducible repeat' first | assumption | apply State.modTap_inv

/-! ## Sound -/

theorem State.setOutside_inv (s : State) (c : ℕ) (l : Bool) (h1 : s.Inv) :
    (State.setOutside s c l).Inv := by
  unfold State.setOutside
  with_reducible repeat' first | assumption | apply State.setPset_inv | apply State.Inv_ite | intro _ | apply State.Inv_mk

theorem State.pinSeen_inv (s : State) (i : Nat) (l : Bool) (h1 : s.Inv) :
    (State.pinSeen s i l).Inv := by
  unfold State.pinSeen
  with_reducible repeat' first | assumption | apply State.setOutside_inv | apply State.Inv_ite | intro _

theorem State.seeInput_inv (s : State) (i : Nat) (l : Bool) (h1 : s.Inv) :
    (State.seeInput s i l).Inv := by
  unfold State.seeInput
  with_reducible repeat' first | assumption | apply State.modTime_inv | apply State.Inv_ite | intro _

theorem State.inputEdge_inv (s : State) (i : Nat) (l : Bool) (k : Bool → State → State) (h1 : s.Inv)
    (hk : ∀ l t, t.Inv → (k l t).Inv) : (State.inputEdge s i l k).Inv := by
  unfold State.inputEdge
  with_reducible repeat' first | assumption | apply hk | apply State.pinSeen_inv | apply State.seeInput_inv | apply State.Inv_ite | intro _

theorem State.setInput_inv (s : State) (i : Nat) (l : Bool) (h1 : s.Inv) :
    (State.setInput s i l).Inv := by
  unfold State.setInput
  with_reducible repeat' first | assumption | apply State.setEnc_inv | apply State.seeInput_inv | apply State.setAx_inv | apply State.Inv_ite | intro _ | dsimp only | split | apply State.Inv_mk

theorem soundHook_inv (a0 : Nat) (i : Nat) (old : Word) (w : Word) (s : State) (h1 : s.Inv) :
    (soundHook a0 i old w s).Inv := by
  unfold soundHook
  with_reducible repeat' first | assumption | apply State.setInput_inv | apply State.Inv_ite | intro _

/-! ## Tide -/

/-- What landing comes to has canonical tables. -/
def Landed.Inv : Landed → Prop
  | .performed t => t.Inv
  | .held t => t.Inv
  | .dropped _ => True

theorem Landed.Inv_performed {x : Landed} {t : State} (e : x = .performed t) (h : x.Inv) : t.Inv := by subst e; exact h
theorem Landed.Inv_held {x : Landed} {t : State} (e : x = .held t) (h : x.Inv) : t.Inv := by subst e; exact h
theorem Landed.Inv_mkHeld {t : State} (h : t.Inv) : (Landed.held t).Inv := h
theorem Landed.Inv_mk {t : State} (h : t.Inv) : (Landed.performed t).Inv := h
theorem Landed.Inv_dropped {n : Nat} : (Landed.dropped n).Inv := trivial
theorem Landed.Inv_ite {c : Prop} [Decidable c] {a b : Landed} (ha : c → a.Inv) (hb : ¬c → b.Inv) :
    (if c then a else b).Inv := by split <;> simp_all

theorem State.validate_inv (s : State) (b : ℕ) (h1 : s.Inv) :
    (State.validate s b).Inv := by
  unfold State.validate
  with_reducible repeat' first | assumption | apply State.clrB_inv | apply State.setReg_inv | apply State.setBankState_inv | apply State.setB_inv | apply State.Inv_ite | intro _

theorem State.roleReads_inv (s : State) (b : Nat) (h1 : s.Inv) :
    (State.roleReads s b).Inv := by
  unfold State.roleReads
  with_reducible repeat' first | assumption | apply State.planEcc_inv | apply State.Inv_ite | apply State.Inv_foldl | apply State.Inv_foldl_fst | intro _ | dsimp only | split

theorem validationEnd_inv (b : Nat) (s : State) (h1 : s.Inv) :
    (validationEnd b s).Inv := by
  unfold validationEnd
  with_reducible repeat' first | assumption | apply State.clrB_inv | apply State.eccRead_inv | apply State.roleReads_inv | apply State.setBankState_inv | apply State.setReg_inv | apply State.setB_inv | apply State.Inv_ite | intro _ | dsimp only | split

theorem State.bankTouch_inv (s : State) (b : ℕ) (h1 : s.Inv) :
    (State.bankTouch s b).Inv := by
  unfold State.bankTouch
  with_reducible repeat' first | assumption | apply State.setBankState_inv | apply State.clrB_inv

theorem State.tideStart_inv (s : State) (h1 : s.Inv) :
    (State.tideStart s).Inv := by
  unfold State.tideStart
  with_reducible repeat' first | assumption | apply State.modTide_inv | apply State.setReg_inv | apply State.putF_inv | apply State.setBankState_inv | apply State.setB_inv

theorem State.tideRun_inv (s : State) (old : Word) (w : Word) (h1 : s.Inv) :
    (State.tideRun s old w).Inv := by
  unfold State.tideRun
  with_reducible repeat' first | assumption | apply State.putF_inv | apply State.tideStart_inv | apply State.setB_inv | apply State.clrB_inv | apply State.Inv_ite | intro _

theorem State.swapCommit_inv (s : State) (h1 : s.Inv) :
    (State.swapCommit s).Inv := by
  unfold State.swapCommit
  with_reducible repeat' first | assumption | apply State.stowHeldClear_inv | apply State.modTide_inv | apply State.Inv_ite | apply State.Inv_ite_fst | apply State.Inv_foldl | intro _ | dsimp only | (apply State.Inv_of_pair; · assumption) | (apply State.Inv_of_pair'; · assumption) | split | apply State.Inv_mk

theorem State.swapDecide_inv (s : State) (h1 : s.Inv) :
    (State.swapDecide s).Inv := by
  unfold State.swapDecide
  with_reducible repeat' first | assumption | apply State.swapCommit_inv | apply State.modTide_inv | apply State.clrB_inv | apply State.setB_inv | apply State.Inv_ite | intro _ | apply State.Inv_ite_fst | apply State.Inv_foldl | dsimp only | (apply State.Inv_of_pair; · assumption) | (apply State.Inv_of_pair'; · assumption) | split | apply State.Inv_mk

theorem swapDecision_inv (s : State) (h1 : s.Inv) :
    (swapDecision s).Inv := by
  unfold swapDecision
  with_reducible repeat' first | assumption | apply State.swapDecide_inv | apply State.Inv_ite | intro _

theorem State.swapArm_inv (s : State) (old : Word) (h1 : s.Inv) :
    (State.swapArm s old).Inv := by
  unfold State.swapArm
  with_reducible repeat' first | assumption | apply State.modTide_inv | apply State.Inv_ite | intro _

theorem State.swapDisarm_inv (s : State) (h1 : s.Inv) :
    (State.swapDisarm s).Inv := by
  unfold State.swapDisarm
  with_reducible repeat' first | assumption | apply State.clrB_inv | apply State.swapDecide_inv | apply State.setIf_inv | apply State.commit_inv | apply State.Inv_ite | intro _

theorem State.swapTake_inv (s : State) (e : ℕ) (h1 : s.Inv) :
    (State.swapTake s e).Inv := by
  unfold State.swapTake
  with_reducible repeat' first | assumption | apply State.modTide_inv | apply State.setB_inv | apply State.putF_inv | apply State.setReg_inv | apply State.setBankState_inv

theorem State.tideStopLands_inv (s : State) (h1 : s.Inv) :
    (State.tideStopLands s).Inv := by
  unfold State.tideStopLands
  with_reducible repeat' first | assumption | apply State.setBankState_inv | apply State.clrB_inv | apply State.forN_inv | apply State.modPort_inv | apply State.modTide_inv | apply State.stowHeldClear_inv | apply State.Inv_ite | intro _ | apply State.Inv_mk

theorem State.boundary_inv (s : State) (h1 : s.Inv) :
    (State.boundary s).Inv := by
  unfold State.boundary
  with_reducible repeat' first | assumption | apply State.tideStopLands_inv | apply State.swapTake_inv | apply State.modTide_inv | apply State.setIf_inv | apply State.setReg_inv | apply State.Inv_ite | intro _

theorem cycleBoundary_inv (s : State) (h1 : s.Inv) :
    (cycleBoundary s).Inv := by
  unfold cycleBoundary
  with_reducible repeat' first | assumption | apply State.boundary_inv | apply State.Inv_ite | intro _

theorem State.issue_inv (s : State) (c : CycleAt) (next : Bool) (i : Nat) (h1 : s.Inv) :
    (State.issue s c next i).Inv := by
  unfold State.issue
  with_reducible repeat' first | assumption | apply State.tideDrop_inv | apply State.eccRead_inv | apply State.planEcc_inv | apply State.modTide_inv | apply State.Inv_ite | intro _

theorem entryIssue_inv (s : State) (h1 : s.Inv) :
    (entryIssue s).Inv := by
  unfold entryIssue
  split
  · exact State.Inv_ite (fun _ => State.issue_inv _ _ _ _ h1) (fun _ => h1)
  · exact h1

theorem State.landGate_inv (s : State) (x : Issued) (h1 : s.Inv) :
    (State.landGate s x).Inv := by
  unfold State.landGate
  with_reducible repeat' first | assumption | apply Landed.Inv | apply Landed.Inv_ite | apply Landed.Inv_dropped | apply Landed.Inv_mk | apply State.fcGate_inv | apply State.gateHold_inv | apply State.setGates_inv | apply State.setB_inv | apply State.count_inv | apply State.Inv_foldl | intro _

theorem State.armAcquire_inv (s : State) (x : Issued) (b : ℕ) (h1 : s.Inv) :
    (State.armAcquire s x b).Inv := by
  unfold State.armAcquire
  with_reducible repeat' first | assumption | apply State.hbOp_inv | apply State.tideDrop_inv | apply State.Inv_ite | intro _

theorem State.landStow_inv (s : State) (x : Issued) (h1 : s.Inv) :
    (State.landStow s x).Inv := by
  unfold State.landStow
  with_reducible repeat' first | assumption | apply Landed.Inv | apply Landed.Inv_ite | apply Landed.Inv_dropped | apply Landed.Inv_mk | apply State.setB_inv | apply State.count_inv | apply State.setWin_inv | apply State.armAcquire_inv | apply State.Inv_foldl | intro _ | split

theorem State.landHb_inv (s : State) (x : Issued) (late : Bool) (n : Nat) (publish : Bool) (by' : HbBy) (h1 : s.Inv) :
    (State.landHb s x late n publish by').Inv := by
  unfold State.landHb
  with_reducible repeat' first | assumption | apply Landed.Inv_ite | apply Landed.Inv_mk | apply Landed.Inv_mkHeld | apply State.hbOp_inv | intro _

theorem State.landHand_inv (s : State) (x : Issued) (late : Bool) (h1 : s.Inv) :
    (State.landHand s x late).Inv := by
  unfold State.landHand
  with_reducible repeat' first | assumption | apply Landed.Inv_ite | apply State.landHb_inv | apply Landed.Inv_dropped | intro _

theorem State.landTrig_inv (s : State) (x : Issued) (late : Bool) (h1 : s.Inv) :
    (State.landTrig s x late).Inv := by
  unfold State.landTrig
  with_reducible repeat' first | assumption | apply Landed.Inv | apply Landed.Inv_ite | apply Landed.Inv_mk | apply State.putB_inv | apply Landed.Inv_dropped | apply State.trigPulse_inv | apply State.setIf_inv | apply State.trigDrive_inv | apply State.trigRelease_inv | apply State.Inv_ite | intro _

theorem State.landCapt_inv (s : State) (x : Issued) (h1 : s.Inv) :
    (State.landCapt s x).Inv := by
  unfold State.landCapt
  with_reducible repeat' first | assumption | apply Landed.Inv | apply Landed.Inv_ite | apply Landed.Inv_mk | apply State.forN_inv | apply State.tickFree_inv | apply State.modTide_inv | apply State.setEnc_inv | apply Landed.Inv_dropped | apply State.Inv_ite | intro _

theorem State.captPut_inv (s : State) (c : CaptWrite) (h1 : s.Inv) :
    (State.captPut s c).Inv := by
  unfold State.captPut
  with_reducible repeat' first | assumption | apply State.store_inv | apply State.setB_inv | apply State.Inv_ite

theorem captLand_inv (s : State) (h1 : s.Inv) :
    (captLand s).Inv := by
  unfold captLand
  with_reducible repeat' first | assumption | apply State.captPut_inv | apply State.modTide_inv | apply State.Inv_ite | apply State.Inv_foldl | apply State.Inv_foldl_fst | intro _

theorem tickAdvance_inv (s : State) (h1 : s.Inv) :
    (tickAdvance s).Inv := by
  unfold tickAdvance
  with_reducible repeat' first | assumption | apply encSettle_inv | apply captLand_inv | apply timeAdvance_inv | apply State.forN_inv | apply State.pioSync_inv | apply lpiTick_inv | apply State.Inv_ite | intro _ | apply State.Inv_ite_fst | apply State.Inv_foldl | dsimp only | (apply State.Inv_of_pair; · assumption) | (apply State.Inv_of_pair'; · assumption) | split | apply State.Inv_mk

theorem State.landMotn_inv (s : State) (x : Issued) (late : Bool) (h1 : s.Inv) :
    (State.landMotn s x late).Inv := by
  unfold State.landMotn
  with_reducible repeat' first | assumption | apply Landed.Inv_ite | apply State.landHb_inv | apply Landed.Inv_dropped | intro _

theorem State.landDmas_inv (s : State) (x : Issued) (h1 : s.Inv) :
    (State.landDmas s x).Inv := by
  unfold State.landDmas
  with_reducible repeat' first | assumption | apply Landed.Inv | apply Landed.Inv_ite | apply Landed.Inv_dropped | apply Landed.Inv_mk | apply State.dmaStart_inv | intro _

theorem State.landEvnt_inv (s : State) (x : Issued) (h1 : s.Inv) :
    (State.landEvnt s x).Inv := by
  unfold State.landEvnt
  with_reducible repeat' first | assumption | apply Landed.Inv | apply Landed.Inv_ite | apply Landed.Inv_dropped | apply Landed.Inv_mk | apply State.raiseEv_inv | intro _

theorem State.landWake_inv (s : State) (x : Issued) (h1 : s.Inv) :
    (State.landWake s x).Inv := by
  unfold State.landWake
  with_reducible repeat' first | assumption | apply Landed.Inv | apply Landed.Inv_ite | apply Landed.Inv_dropped | apply Landed.Inv_mk | apply State.portWake_inv | intro _

theorem State.landAdcs_inv (s : State) (x : Issued) (h1 : s.Inv) :
    (State.landAdcs s x).Inv := by
  unfold State.landAdcs
  with_reducible repeat' first | assumption | apply Landed.Inv | apply Landed.Inv_ite | apply Landed.Inv_dropped | apply Landed.Inv_mk | apply State.adcStart_inv | intro _

theorem State.landAct_inv (s : State) (x : Issued) (late : Bool) (h1 : s.Inv) :
    (State.landAct s x late).Inv := by
  unfold State.landAct
  with_reducible repeat' first | assumption | apply Landed.Inv | apply State.landGate_inv | apply State.landStow_inv | apply State.landHand_inv | apply State.landTrig_inv | apply State.landCapt_inv | apply State.landMotn_inv | apply State.landDmas_inv | apply State.landEvnt_inv | apply State.landWake_inv | apply State.landAdcs_inv | apply Landed.Inv_mk | split

theorem State.land_inv (s : State) (x : Issued) (late : Bool) (h1 : s.Inv) :
    (State.land s x late).Inv := by
  unfold State.land
  with_reducible repeat' first | assumption | apply State.stowHeldClear_inv | apply State.performed_inv | apply State.landAct_inv | apply State.modTide_inv | apply State.tideDrop_inv | (apply Landed.Inv_performed; · assumption) | (apply Landed.Inv_held; · assumption) | dsimp only | split

theorem tideLand_inv (p : Issued → Bool) (s : State) (h1 : s.Inv) :
    (tideLand p s).Inv := by
  unfold tideLand
  with_reducible repeat' first | assumption | apply State.land_inv | apply State.Inv_ite | intro _ | split

theorem windowExpiry_inv (n : ℕ) (s : State) (h1 : s.Inv) :
    (windowExpiry n s).Inv := by
  unfold windowExpiry
  with_reducible repeat' first | assumption | apply State.setWin_inv | apply State.Inv_ite | intro _ | split

theorem State.tideCommand_inv (s : State) (old : Word) (w : Word) (h1 : s.Inv) :
    (State.tideCommand s old w).Inv := by
  unfold State.tideCommand
  with_reducible repeat' first | assumption | apply State.swapDisarm_inv | apply State.swapArm_inv | apply State.validate_inv | apply State.Inv_ite | intro _

theorem tideHook_inv (a0 : ℕ) (i : ℕ) (old : Word) (w : Word) (s : State) (h1 : s.Inv) :
    (tideHook a0 i old w s).Inv := by
  unfold tideHook
  with_reducible repeat' first | assumption | apply State.tideRun_inv | apply State.tideCommand_inv | apply State.bankTouch_inv | apply State.hbEnable_inv | apply State.hbDisable_inv | apply State.hbCommand_inv | apply State.Inv_ite | intro _

/-! ## TimeStep -/

theorem State.catchOne_inv (old : ℕ) (t : ℕ) (s : State) (i : ℕ) (h1 : s.Inv) :
    (State.catchOne old t s i).Inv := by
  unfold State.catchOne
  with_reducible repeat' first | assumption | apply State.land_inv | apply State.issue_inv | apply State.Inv_ite | (dsimp only; split) | intro _

theorem State.catchCycle_inv (s : State) (old : ℕ) (t : ℕ) (h1 : s.Inv) :
    (State.catchCycle s old t).Inv := by
  unfold State.catchCycle
  with_reducible repeat' first | assumption | apply State.catchOne_inv | apply State.Inv_foldl

theorem State.crossSwap_inv (s : State) (h1 : s.Inv) :
    (State.crossSwap s).Inv := by
  unfold State.crossSwap
  with_reducible repeat' first | assumption | apply State.swapDecide_inv | apply State.Inv_ite | intro _

theorem crossAll_inv (a0 : ℕ) (a1 : ℕ) (a2 : State) (h1 : a2.Inv) :
    (crossAll a0 a1 a2).Inv := by
  fun_induction crossAll a0 a1 a2
  all_goals with_reducible repeat' first | assumption | apply State.count_inv | apply State.boundary_inv | apply State.crossSwap_inv | apply_assumption

theorem State.tideCatchUp_inv (s : State) (old : ℕ) (t : ℕ) (h1 : s.Inv) :
    (State.tideCatchUp s old t).Inv := by
  unfold State.tideCatchUp
  with_reducible repeat' first | assumption | apply State.catchCycle_inv | apply State.setIf_inv | apply State.stowHeldClear_inv | apply crossAll_inv | apply State.modTide_inv | apply State.crossSwap_inv | apply State.setB_inv | apply State.boundary_inv | apply State.Inv_ite | intro _

theorem State.liftTime_inv (s : State) (h1 : s.Inv) :
    (State.liftTime s).Inv := by
  unfold State.liftTime
  rw [State.Inv_iff]
  dsimp only
  exact ⟨h1.regsOk, h1.memOk, h1.latchOk, h1.heldOk, h1.hbOk, twf_tmap _ _ _, twf_tmap _ _ _, h1.fqOk, h1.txRROk, h1.dmaOk, twf_tmap _ _ _, h1.axOk, h1.grpOk, h1.chopOk, h1.encOk, h1.adcOk, h1.pilotOk, h1.psetOk, h1.mbOk⟩

theorem State.todMove_inv (s : State) (d : Int) (h1 : s.Inv) :
    (State.todMove s d).Inv := by
  unfold State.todMove
  with_reducible repeat' first | assumption | apply State.liftTime_inv | apply State.modTime_inv | apply State.tideCatchUp_inv | apply State.forN_inv | apply State.trigStepLate_inv | apply State.Inv_ite | intro _

theorem State.timeRefuse_inv (s : State) (v : ℤ) (kind : ℕ) (h1 : s.Inv) :
    (State.timeRefuse s v kind).Inv := by
  unfold State.timeRefuse
  with_reducible repeat' first | assumption | apply State.logEv_inv | apply State.count_inv | apply State.setB_inv | apply State.setReg_inv

theorem stepApply_inv (s : State) (h1 : s.Inv) :
    (stepApply s).Inv := by
  unfold stepApply
  with_reducible repeat' first | assumption | apply State.restartWdog_inv | apply State.todMove_inv | apply State.clrB_inv | apply State.timeRefuse_inv | apply State.Inv_ite | intro _

theorem setApply_inv (s : State) (h1 : s.Inv) :
    (setApply s).Inv := by
  unfold setApply
  with_reducible repeat' first | assumption | apply State.clrB_inv | apply State.todMove_inv | apply State.timeRefuse_inv | apply State.Inv_ite | intro _

theorem incApply_inv (s : State) (h1 : s.Inv) :
    (incApply s).Inv := by
  unfold incApply
  with_reducible repeat' first | assumption | apply State.clrB_inv | apply State.modTime_inv | apply State.restartWdogAt_inv | apply State.Inv_ite | intro _

/-! ## TimeTrig -/

theorem State.ttSet_inv (s : State) (v : ℕ) (h1 : s.Inv) :
    (State.ttSet s v).Inv := by
  unfold State.ttSet
  with_reducible repeat' first | assumption | apply State.putF_inv

theorem State.ttEach_inv (s : State) (f : State → ℕ → State) (h1 : s.Inv) (h2 : ∀ x0 x1, x0.Inv → (f x0 x1).Inv) :
    (State.ttEach s f).Inv := by
  unfold State.ttEach
  with_reducible repeat' first | assumption | apply h2 | apply State.forN_inv | apply State.Inv_ite | intro _

theorem State.ttFresh_inv (s : State) (h1 : s.Inv) :
    (State.ttFresh s).Inv := by
  unfold State.ttFresh
  with_reducible repeat' first | assumption | apply State.modTt_inv

theorem State.ttEnable_inv (s : State) (h1 : s.Inv) :
    (State.ttEnable s).Inv := by
  unfold State.ttEnable
  with_reducible repeat' first | assumption | apply State.clrB_inv | apply State.setB_inv | apply State.setReg_inv | apply State.ttFresh_inv | apply State.canCopy_inv | apply State.Inv_ite | apply State.Inv_foldl | apply State.Inv_foldl_fst | intro _ | dsimp only | split

theorem State.ttDisable_inv (s : State) (h1 : s.Inv) :
    (State.ttDisable s).Inv := by
  unfold State.ttDisable
  with_reducible repeat' first | assumption | apply State.clrB_inv | apply State.setReg_inv | apply State.ttFresh_inv | apply State.forN_inv | apply State.modCan_inv | apply State.Inv_ite | intro _

theorem State.ttCtl_inv (s : State) (old : Word) (h1 : s.Inv) :
    (State.ttCtl s old).Inv := by
  unfold State.ttCtl
  with_reducible repeat' first | assumption | apply State.ttEnable_inv | apply State.ttDisable_inv | apply State.ttFresh_inv | apply State.setReg_inv | apply State.Inv_ite | intro _

theorem State.ttRaise_inv (s : State) (l : ℕ) (h1 : s.Inv) :
    (State.ttRaise s l).Inv := by
  unfold State.ttRaise
  with_reducible repeat' first | assumption | apply State.setIf_inv | apply State.putF_inv | apply State.Inv_ite | intro _

theorem State.ttBusFail_inv (s : State) (h1 : s.Inv) :
    (State.ttBusFail s).Inv := by
  unfold State.ttBusFail
  with_reducible repeat' first | assumption | apply State.setIf_inv | apply State.modTt_inv | apply State.Inv_ite | intro _

theorem State.ttDropSpec_inv (s : State) (n : ℕ) (h1 : s.Inv) :
    (State.ttDropSpec s n).Inv := by
  unfold State.ttDropSpec
  with_reducible repeat' first | assumption | apply State.ttFail_inv | apply State.modCan_inv | split

theorem State.ttBegin_inv (s : State) (at' : Nat) (cnt : Nat) (h1 : s.Inv) :
    (State.ttBegin s at' cnt).Inv := by
  unfold State.ttBegin
  with_reducible repeat' first | assumption | apply State.ttBusFail_inv | apply State.ttEach_inv | apply State.ttDropSpec_inv | apply State.modTt_inv | apply State.putF_inv | apply State.Inv_ite | intro _ | apply State.Inv_mk

theorem ttCycleStart_inv (level : ℕ) (s : State) (h1 : s.Inv) :
    (ttCycleStart level s).Inv := by
  unfold ttCycleStart
  extract_lets
  refine State.Inv_ite (fun _ => State.ttBegin_inv _ _ _ ?_) fun _ => h1
  exact State.Inv_ite (fun _ => State.ttRaise_inv _ _ h1) fun _ => h1

theorem State.sendRef_inv (s : State) (till : Option Nat) (h1 : s.Inv) :
    (State.sendRef s till).Inv := by
  unfold State.sendRef
  with_reducible repeat' first | assumption | apply State.ttEach_inv | apply State.ttDropSpec_inv | apply State.modCan_inv | apply State.tickFree_inv | apply State.Inv_ite | intro _ | dsimp only | (apply State.Inv_of_pair; · assumption) | (apply State.Inv_of_pair'; · assumption) | split

theorem State.ttMaster_inv (s : State) (q : ℕ) (role : ℕ) (h1 : s.Inv) :
    (State.ttMaster s q role).Inv := by
  unfold State.ttMaster
  with_reducible repeat' first | assumption | apply State.setIf_inv | apply State.putF_inv

theorem State.ttRefOk_inv (s : State) (n : ℕ) (h1 : s.Inv) :
    (State.ttRefOk s n).Inv := by
  unfold State.ttRefOk
  with_reducible repeat' first | assumption | apply State.modTt_inv

theorem State.ttRefSent_inv (s : State) (n : Nat) (x : CanSof) (h1 : s.Inv) :
    (State.ttRefSent s n x).Inv := by
  unfold State.ttRefSent
  with_reducible repeat' first | assumption | apply State.ttRefOk_inv | apply State.ttMaster_inv | apply State.ttSet_inv | apply State.modTt_inv | apply State.Inv_ite | intro _

theorem State.ttTur_inv (s : State) (h1 : s.Inv) :
    (State.ttTur s).Inv := by
  unfold State.ttTur
  with_reducible repeat' first | assumption | apply State.setReg_inv | apply State.setIf_inv | apply State.tickFree_inv | apply State.Inv_ite | intro _

theorem State.ttSync_inv (s : State) (cnt : Nat) (x : CanSof) (h1 : s.Inv) :
    (State.ttSync s cnt x).Inv := by
  unfold State.ttSync
  with_reducible repeat' first | assumption | apply State.modTt_inv | apply State.ttBegin_inv | apply State.ttTur_inv | apply State.ttSet_inv | apply State.Inv_ite | intro _

theorem State.ttDropRef_inv (s : State) (h1 : s.Inv) :
    (State.ttDropRef s).Inv := by
  unfold State.ttDropRef
  with_reducible repeat' first | assumption | apply State.ttEach_inv | apply State.modCan_inv | apply State.Inv_ite | intro _

theorem State.ttRefHeard_inv (s : State) (n : Nat) (q : Nat) (f : CanFrame) (x : CanSof) (h1 : s.Inv) :
    (State.ttRefHeard s n q f x).Inv := by
  unfold State.ttRefHeard
  with_reducible repeat' first | assumption | apply State.ttMaster_inv | apply State.ttSync_inv | apply State.setB_inv | apply State.ttDropRef_inv | apply State.ttRefOk_inv | apply State.Inv_ite | intro _

theorem State.ttHeard_inv (s : State) (n : ℕ) (f : CanFrame) (x : CanSof) (h1 : s.Inv) :
    (State.ttHeard s n f x).Inv := by
  unfold State.ttHeard
  with_reducible repeat' first | assumption | apply State.modTt_inv | apply State.ttRefHeard_inv | apply State.Inv_ite | intro _ | dsimp only | split

theorem backupReference_inv (s : State) (h1 : s.Inv) :
    (backupReference s).Inv := by
  unfold backupReference
  with_reducible repeat' first | assumption | apply State.sendRef_inv | apply State.Inv_ite | intro _

theorem State.giveExcl_inv (s : State) (m : ℕ) (w0 : ℕ) (w1 : ℕ) (d : List ℕ) (till : ℕ) (n : ℕ) (h1 : s.Inv) :
    (State.giveExcl s m w0 w1 d till n).Inv := by
  unfold State.giveExcl
  with_reducible repeat' first | assumption | apply State.modCan_inv | apply State.ttDropSpec_inv

theorem State.ttExcl_inv (s : State) (k : ℕ) (h1 : s.Inv) :
    (State.ttExcl s k).Inv := by
  unfold State.ttExcl
  with_reducible repeat' first | assumption | apply State.ttFail_inv | apply State.setB_inv | apply State.ttEach_inv | apply State.giveExcl_inv | apply State.Inv_ite | intro _

theorem State.ttCheck_inv (s : State) (k : ℕ) (h1 : s.Inv) :
    (State.ttCheck s k).Inv := by
  unfold State.ttCheck
  with_reducible repeat' first | assumption | apply State.ttRaise_inv | apply State.count_inv | apply State.Inv_ite | intro _

theorem State.ttWatch_inv (s : State) (h1 : s.Inv) :
    (State.ttWatch s).Inv := by
  unfold State.ttWatch
  with_reducible repeat' first | assumption | apply State.modTt_inv | apply State.putF_inv | apply State.ttSet_inv | apply State.ttEach_inv | apply State.setB_inv | apply State.ttDropSpec_inv | apply State.Inv_ite | intro _

theorem State.ttAct_inv (s : State) (k : Nat) (h1 : s.Inv) :
    (State.ttAct s k).Inv := by
  unfold State.ttAct
  with_reducible repeat' first | assumption | apply State.sendRef_inv | apply State.ttExcl_inv | apply State.ttCheck_inv | apply State.ttWatch_inv | apply State.Inv_ite | intro _ | split

theorem ttTrigger_inv (s : State) (h1 : s.Inv) :
    (ttTrigger s).Inv := by
  unfold ttTrigger
  with_reducible repeat' first | assumption | apply State.modTt_inv | apply State.ttAct_inv | apply State.Inv_ite | intro _ | split

theorem State.putImage_inv (s : State) (m : ℕ) (l : List ℕ) (h1 : s.Inv) :
    (State.putImage s m l).Inv := by
  unfold State.putImage
  with_reducible repeat' first | assumption | apply State.forN_inv | apply State.setReg_inv | intro _

theorem abufExchange_inv (m : ℕ) (s : State) (h1 : s.Inv) :
    (abufExchange m s).Inv := by
  unfold abufExchange
  with_reducible repeat' first | assumption | apply State.setB_inv | apply State.clrB_inv | apply State.modTt_inv | apply State.putImage_inv | apply State.Inv_ite | intro _

theorem State.canSent_inv (s : State) (n : ℕ) (o : CanOut) (h1 : s.Inv) :
    (State.canSent s n o).Inv := by
  unfold State.canSent
  with_reducible repeat' first | assumption | apply State.canSettle_inv | apply State.canBufSent_inv | apply State.canTxOk_inv | apply State.canOff_inv | apply State.ttRefSent_inv | apply State.Inv_ite | intro _ | split

theorem canTransmit_inv (n : ℕ) (part : CanTx) (s : State) (h1 : s.Inv) :
    (canTransmit n part s).Inv := by
  unfold canTransmit
  with_reducible repeat' first | assumption | apply State.canStart_inv | apply State.canTxError_inv | apply State.canDelay_inv | apply State.canSent_inv | apply State.canTxLost_inv | apply State.Inv_ite | intro _ | split

theorem canReceive_inv (n : Nat) (part : CanRx) (s : State) (h1 : s.Inv) :
    (canReceive n part s).Inv := by
  unfold canReceive
  with_reducible repeat' first | assumption | apply State.canRxStart_inv | apply State.modCan_inv | apply State.canSettle_inv | apply State.canRxFall_inv | apply State.canAccept_inv | apply State.ttHeard_inv | apply State.canRxErr_inv | apply State.Inv_ite | intro _ | dsimp only | split

theorem canHook_inv (a0 : ℕ) (i : ℕ) (old : Word) (w : Word) (s : State) (h1 : s.Inv) :
    (canHook a0 i old w s).Inv := by
  unfold canHook
  with_reducible repeat' first | assumption | apply State.canMode_inv | apply State.forN_inv | apply State.canCancel_inv | apply State.ttCtl_inv | apply State.Inv_ite | intro _

/-! ## Sys -/

theorem State.modCw_inv (s : State) (f : CwSt → CwSt) (h1 : s.Inv) :
    (State.modCw s f).Inv := by
  unfold State.modCw
  with_reducible repeat' first | assumption | apply State.Inv_mk

theorem State.settle_inv (s : State) (h1 : s.Inv) :
    (State.settle s).Inv := by
  unfold State.settle
  with_reducible repeat' first | assumption | apply State.modCw_inv | apply State.Inv_ite | intro _

theorem State.msixSend_inv (s : State) (v : ℕ) (h1 : s.Inv) :
    (State.msixSend s v).Inv := by
  unfold State.msixSend
  with_reducible repeat' first | assumption | apply State.modCw_inv

theorem msixMessage_inv (v : ℕ) (s : State) (h1 : s.Inv) :
    (msixMessage v s).Inv := by
  unfold msixMessage
  with_reducible repeat' first | assumption | apply State.msixSend_inv | apply State.Inv_ite | intro _

theorem State.tsSource_inv (s : State) (old : Word) (w : Word) (h1 : s.Inv) :
    (State.tsSource s old w).Inv := by
  unfold State.tsSource
  with_reducible repeat' first | assumption | apply State.clrB_inv | apply State.Inv_ite | intro _ | apply State.Inv_mk

theorem sysHook_inv (a0 : ℕ) (old : Word) (w : Word) (s : State) (h1 : s.Inv) :
    (sysHook a0 old w s).Inv := by
  unfold sysHook
  with_reducible repeat' first | assumption | apply State.putF_inv | apply State.tsSource_inv | apply State.resetReq_inv | apply State.Inv_ite | intro _

theorem State.nvmDenied_inv (s : State) (a : ℕ) (h1 : s.Inv) :
    (State.nvmDenied s a).Inv := by
  unfold State.nvmDenied
  with_reducible repeat' first | assumption | apply State.setReg_inv | apply State.setB_inv | apply State.Inv_ite | intro _

theorem State.nvWrite_inv (s : State) (v : Nat) (a0 : Config.NvCell) (h1 : s.Inv) :
    (State.nvWrite s v a0).Inv := by
  cases a0 <;> exact State.Inv_mk h1

theorem State.mramPut_inv (s : State) (a : Nat) (bs : List Nat) (h1 : s.Inv) :
    (State.mramPut s a bs).Inv := by
  unfold State.mramPut
  with_reducible repeat' first | assumption | apply State.nvWrite_inv | apply State.mramStore_inv | apply State.Inv_ite | apply State.Inv_foldl | intro _ | split

theorem State.pwlogClear_inv (s : State) (h1 : s.Inv) :
    (State.pwlogClear s).Inv := by
  unfold State.pwlogClear
  with_reducible repeat' first | assumption | apply State.forN_inv | apply State.setReg_inv | intro _

theorem causewayHook_inv (a0 : ℕ) (w : Word) (s : State) (h1 : s.Inv) :
    (causewayHook a0 w s).Inv := by
  unfold causewayHook
  with_reducible repeat' first | assumption | apply State.pwlogClear_inv | apply State.Inv_ite | intro _

theorem hostifHook_inv (a0 : ℕ) (w : Word) (s : State) (h1 : s.Inv) :
    (hostifHook a0 w s).Inv := by
  unfold hostifHook
  with_reducible repeat' first | assumption | apply State.msixSend_inv | apply State.Inv_ite | intro _

end Sys2Proof.Machine
end

