-- ==== Sys2Proof/Laws/CanonBus.lean ====
section
/-! SUPPORT. Every operation of the interconnect, the host interfaces, resets and the lighthouse port keeps the tables of the state in canonical form. -/
namespace Sys2Proof.Machine

/-! ## Bus -/

theorem blockHook_inv (who : Initiator) (k : Nat) (a0 : Nat) (i : Nat) (old : Word) (w : Word) (s : State) (h1 : s.Inv) :
    (blockHook who k a0 i old w s).Inv := by
  unfold blockHook
  with_reducible repeat' first | assumption | apply sysHook_inv | apply lhHook_inv | apply mbHook_inv | apply causewayHook_inv | apply timeHook_inv | apply tideHook_inv | apply switchHook_inv | apply streamHook_inv | apply portHook_inv | apply stowHook_inv | apply qeHook_inv | apply ferryHook_inv | apply dmaHook_inv | apply canHook_inv | apply State.grpLatch_inv | apply motionHook_inv | apply chopHook_inv | apply captureHook_inv | apply pilotHook_inv | apply soundHook_inv | apply logHook_inv | apply testHook_inv | apply hostifHook_inv | apply State.Inv_ite | intro _ | split

theorem blockRead_inv (who : Initiator) (k : ℕ) (a0 : ℕ) (i : ℕ) (s : State) (h1 : s.Inv) :
    (blockRead who k a0 i s).Inv := by
  unfold blockRead
  with_reducible repeat' first | assumption | apply mbRead_inv | apply timeRead_inv | apply ferryRead_inv | apply motionRead_inv | apply captureRead_inv | apply pilotRead_inv | split

theorem State.regRead_inv (s : State) (who : Initiator) (a : ℕ) (h1 : s.Inv) :
    (State.regRead s who a).1.Inv := by
  unfold State.regRead
  split
  · exact h1
  · extract_lets
    refine State.Inv_ite_fst (fun _ => h1) fun _ => State.Inv_ite_fst (fun _ => h1) fun _ => State.Inv_ite_fst (fun _ => ?_) fun _ =>
      State.Inv_ite_fst (fun _ => h1) fun _ => blockRead_inv _ _ _ _ _ h1
    exact State.Inv_latch h1 (twf_tput h1.latchOk _ _)

theorem State.stored_inv (s : State) (a : ℕ) (a0 : ℕ) (row : RegRow) (w : Word) (h1 : s.Inv) :
    (State.stored s a a0 row w).Inv := by
  unfold State.stored
  exact State.Inv_ite (fun _ => State.setReg_inv _ _ _ (State.setReg_inv _ _ _ h1)) fun _ => State.setReg_inv _ _ _ h1

theorem State.regWrite_inv (s : State) (who : Initiator) (a : ℕ) (w : Word) (h1 : s.Inv) :
    (State.regWrite s who a w).1.Inv := by
  unfold State.regWrite
  split
  · exact h1
  · extract_lets
    refine State.Inv_ite_fst (fun _ => h1) fun _ => State.Inv_ite_fst (fun _ => State.mbReject_inv _ _ _ _ h1) fun _ => ?_
    exact State.Inv_ite_fst (fun _ => State.cfgReject_inv _ _ h1) fun _ => blockHook_inv _ _ _ _ _ _ _ (State.stored_inv _ _ _ _ _ h1)

theorem State.unwait_inv (s : State) (who : Initiator) (a : ℕ) (h1 : s.Inv) :
    (State.unwait s who a).Inv := by
  unfold State.unwait
  with_reducible repeat' first | assumption | apply State.modCw_inv

theorem State.takeEnded_inv (s : State) (who : Initiator) (a : ℕ) (wr : Bool) (h1 : s.Inv) :
    (State.takeEnded s who a wr).Inv := by
  unfold State.takeEnded
  with_reducible repeat' first | assumption | apply State.modCw_inv

theorem State.addWait_inv (s : State) (who : Initiator) (a : ℕ) (buf : Bool) (h1 : s.Inv) :
    (State.addWait s who a buf).Inv := by
  unfold State.addWait
  with_reducible repeat' first | assumption | apply State.modCw_inv | apply State.Inv_ite | intro _

theorem State.endWait_inv (s : State) (who : Initiator) (a : ℕ) (r : BusEnd × ℕ) (wr : Bool) (h1 : s.Inv) :
    (State.endWait s who a r wr).Inv := by
  unfold State.endWait
  with_reducible repeat' first | assumption | apply State.modCw_inv

theorem State.addOut_inv (s : State) (who : Initiator) (w : Nat) (a : Nat) (bytes : Option (List Nat)) (h1 : s.Inv) :
    (State.addOut s who w a bytes).Inv := by
  unfold State.addOut
  with_reducible repeat' first | assumption | apply State.modCw_inv | apply State.Inv_ite | intro _

theorem State.outRead_inv (s : State) (who : Initiator) (w : Nat) (a : Nat) (h1 : s.Inv) :
    (State.outRead s who w a).1.Inv := by
  unfold State.outRead
  with_reducible repeat' first | assumption | apply State.addOut_inv | apply State.Inv_ite | apply State.Inv_ite_fst | intro _

theorem State.outWrite_inv (s : State) (who : Initiator) (w : Nat) (a : Nat) (bs : List Nat) (h1 : s.Inv) :
    (State.outWrite s who w a bs).1.Inv := by
  unfold State.outWrite
  with_reducible repeat' first | assumption | apply State.unwait_inv | apply State.modCw_inv | apply State.addOut_inv | apply State.Inv_ite | apply State.Inv_ite_fst | intro _ | apply State.Inv_foldl | dsimp only | (apply State.Inv_of_pair; · assumption) | (apply State.Inv_of_pair'; · assumption) | split | apply State.Inv_mk

theorem State.lockPassed_inv (s : State) (who : Initiator) (a : ℕ) (h1 : s.Inv) :
    (State.lockPassed s who a).Inv := by
  unfold State.lockPassed
  with_reducible repeat' first | assumption | apply State.modCw_inv | apply State.Inv_ite | intro _

theorem State.memGet_inv (s : State) (a : ℕ) (n : ℕ) (h1 : s.Inv) :
    (State.memGet s a n).1.Inv := by
  unfold State.memGet
  with_reducible repeat' first | assumption | apply State.eccRead_inv

theorem State.poolPut_inv (s : State) (a : ℕ) (bs : List ℕ) (h1 : s.Inv) :
    (State.poolPut s a bs).Inv := by
  unfold State.poolPut
  with_reducible repeat' first | assumption | apply State.setRawCell_inv | apply State.Inv_foldl | intro _

theorem State.fbGet_inv (s : State) (a : ℕ) (n : ℕ) (h1 : s.Inv) :
    (State.fbGet s a n).1.Inv := by
  unfold State.fbGet
  exact State.eccRead_inv _ _ _ h1

theorem State.mramGet_inv (s : State) (a : Nat) (n : Nat) (h1 : s.Inv) :
    (State.mramGet s a n).1.Inv := by
  unfold State.mramGet
  with_reducible repeat' first | assumption | apply State.eccRead_inv | apply State.Inv_ite | apply State.Inv_ite_fst | intro _

theorem State.busRead_inv (s : State) (who : Initiator) (a : Nat) (n : Nat) (h1 : s.Inv) :
    (State.busRead s who a n).1.Inv := by
  unfold State.busRead
  with_reducible repeat' first | assumption | apply State.takeEnded_inv | apply State.addWait_inv | apply State.lockPassed_inv | apply State.regRead_inv | apply State.outRead_inv | apply State.fbGet_inv | apply State.mramGet_inv | apply State.memGet_inv | apply State.Inv_ite | apply State.Inv_ite_fst | intro _ | dsimp only | (apply State.Inv_of_pair; · assumption) | (apply State.Inv_of_pair'; · assumption) | split

theorem State.spPut_inv (s : State) (who : Initiator) (e : ℕ) (a : ℕ) (off : ℕ) (bs : List ℕ) (h1 : s.Inv) :
    (State.spPut s who e a off bs).Inv := by
  unfold State.spPut
  with_reducible repeat' first | assumption | apply State.raiseMoor_inv | apply State.fixLow_inv | apply State.store_inv | apply State.Inv_ite | intro _

theorem State.busWrite_inv (s : State) (who : Initiator) (a : Nat) (bs : List Nat) (h1 : s.Inv) :
    (State.busWrite s who a bs).1.Inv := by
  unfold State.busWrite
  with_reducible repeat' first | assumption | apply State.takeEnded_inv | apply State.addWait_inv | apply State.lockPassed_inv | apply State.regWrite_inv | apply State.take_inv | apply State.outWrite_inv | apply State.poolPut_inv | apply State.fbStore_inv | apply State.store_inv | apply State.bankTouch_inv | apply State.wr8_inv | apply State.setPset_inv | apply State.mramPut_inv | apply State.nvmDenied_inv | apply State.spPut_inv | apply State.Inv_ite | apply State.Inv_ite_fst | apply State.Inv_foldl | apply State.Inv_foldl_fst | intro _ | dsimp only | (apply State.Inv_of_pair; · assumption) | (apply State.Inv_of_pair'; · assumption) | split | apply State.Inv_mk

theorem State.busAtomic_inv (s : State) (who : Initiator) (a : ℕ) (n : ℕ) (f : ℕ → Option ℕ) (h1 : s.Inv) :
    (State.busAtomic s who a n f).1.Inv := by
  unfold State.busAtomic
  with_reducible repeat' first | assumption | apply State.busRead_inv | apply State.busWrite_inv | apply State.Inv_ite_fst | (apply State.Inv_of_pair; · assumption) | intro _ | split

theorem State.busWriteAll_inv (s : State) (who : Initiator) (a0 : List (Nat × List Nat)) (h1 : s.Inv) :
    (State.busWriteAll s who a0).1.Inv := by
  fun_induction State.busWriteAll s who a0
  all_goals dsimp only
  all_goals with_reducible repeat' first | assumption | apply State.busWrite_inv | (apply State.Inv_of_pair; · assumption) | apply_assumption

theorem State.busReadAll_inv (s : State) (who : Initiator) (a : ℕ) (a3 : ℕ) (h1 : s.Inv) :
    (State.busReadAll s who a a3).1.Inv := by
  fun_induction State.busReadAll s who a a3
  all_goals with_reducible repeat' first | assumption | apply State.busRead_inv | (apply State.Inv_of_pair; · assumption) | apply_assumption

/-! ## Causeway -/

theorem State.setIfc_inv (s : State) (k : ℕ) (x : CwIfSt) (h1 : s.Inv) :
    (State.setIfc s k x).Inv := by
  unfold State.setIfc
  with_reducible repeat' first | assumption | apply State.modCw_inv

theorem State.modIf_inv (s : State) (k : ℕ) (f : CwIfSt → CwIfSt) (h1 : s.Inv) :
    (State.modIf s k f).Inv := by
  unfold State.modIf
  with_reducible repeat' first | assumption | apply State.setIfc_inv

theorem State.reply_inv (s : State) (k : ℕ) (fin : CwFin) (data : optParam (List ℕ) []) (poison : optParam Bool Bool.false) (h1 : s.Inv) :
    (State.reply s k fin data poison).Inv := by
  unfold State.reply
  with_reducible repeat' first | assumption | apply State.modIf_inv

theorem State.sendCpls_inv (s : State) (fin : CwFin) (l : List (List Nat × Bool)) (h1 : s.Inv) :
    (State.sendCpls s fin l).Inv := by
  unfold State.sendCpls
  with_reducible repeat' first | assumption | apply State.modIf_inv | apply State.Inv_ite | intro _

theorem State.aer_inv (s : State) (e : AerErr) (h : Option TlpHead) (h1 : s.Inv) :
    (State.aer s e h).Inv := by
  unfold State.aer
  with_reducible repeat' first | assumption | apply State.modCw_inv

theorem State.tlpIn_inv (s : State) (flaw : Option TlpFlaw) (h : TlpHead) (f : State → State) (h1 : s.Inv) (hf : ∀ t : State, t.Inv → (f t).Inv) :
    (State.tlpIn s flaw h f).Inv := by
  unfold State.tlpIn
  with_reducible repeat' first | assumption | apply State.aer_inv | apply hf | apply State.Inv_ite | intro _ | split

theorem State.sendUr_inv (s : State) (h : Option TlpHead) (h1 : s.Inv) :
    (State.sendUr s h).Inv := by
  unfold State.sendUr
  with_reducible repeat' first | assumption | apply State.reply_inv | apply State.aer_inv | apply State.setB_inv

theorem State.sendCa_inv (s : State) (h : TlpHead) (l : List (List Nat × Bool)) (h1 : s.Inv) :
    (State.sendCa s h l).Inv := by
  unfold State.sendCa
  with_reducible repeat' first | assumption | apply State.setB_inv | apply State.aer_inv | apply State.sendCpls_inv | apply State.Inv_ite

theorem State.pwFail_inv (s : State) (k : ℕ) (seq : ℕ) (addr : ℕ) (cause : ℕ) (h1 : s.Inv) :
    (State.pwFail s k seq addr cause).Inv := by
  unfold State.pwFail
  with_reducible repeat' first | assumption | apply State.setReg_inv | apply State.setB_inv | intro _ | dsimp only | split

theorem State.dropLines_inv (s : State) (k : Nat) (h1 : s.Inv) :
    (State.dropLines s k).Inv := by
  unfold State.dropLines
  with_reducible repeat' first | assumption | apply State.modIf_inv | apply State.Inv_ite | intro _ | dsimp only | (apply State.Inv_of_pair; · assumption) | (apply State.Inv_of_pair'; · assumption)

theorem State.dropFetches_inv (s : State) (k : Nat) (l : List Delayed) (h1 : s.Inv) :
    (State.dropFetches s k l).Inv := by
  unfold State.dropFetches
  with_reducible repeat' first | assumption | apply State.modIf_inv | apply State.forget_inv | apply State.Inv_ite | apply State.Inv_ite_fst | apply State.Inv_foldl | intro _ | dsimp only | (apply State.Inv_of_pair; · assumption) | (apply State.Inv_of_pair'; · assumption) | split | apply State.Inv_mk

theorem State.countWrite_inv (s : State) (k : Nat) (a : Nat) (n : Nat) (h1 : s.Inv) :
    (State.countWrite s k a n).Inv := by
  unfold State.countWrite
  with_reducible repeat' first | assumption | apply State.dropFetches_inv | apply State.dropLines_inv | apply State.modIf_inv | apply State.Inv_ite | intro _ | apply State.Inv_ite_fst | apply State.Inv_foldl | dsimp only | (apply State.Inv_of_pair; · assumption) | (apply State.Inv_of_pair'; · assumption) | split | apply State.Inv_mk

theorem State.postWrite_inv (s : State) (k : ℕ) (a : ℕ) (bytes : List (Option ℕ)) (cause : ℕ) (more : Bool) (h1 : s.Inv) :
    (State.postWrite s k a bytes cause more).Inv := by
  unfold State.postWrite
  with_reducible repeat' first | assumption | apply State.modIf_inv | apply State.countWrite_inv

theorem State.popOp_inv (s : State) (k : Nat) (h1 : s.Inv) :
    (State.popOp s k).Inv := by
  unfold State.popOp
  with_reducible repeat' first | assumption | apply State.modIf_inv | apply State.Inv_ite | intro _

theorem State.writeEnds_inv (s : State) (k : Nat) (seq : Nat) (failed : Bool) (f : Option Nat) (h1 : s.Inv) :
    (State.writeEnds s k seq failed f).Inv := by
  unfold State.writeEnds
  with_reducible repeat' first | assumption | apply State.pwFail_inv | apply State.Inv_ite | intro _ | split

theorem State.landWrite_inv (s : State) (k : Nat) (seq : Nat) (a : Nat) (bytes : List (Option Nat)) (cause : Nat) (more : Bool) (failed : Bool) (h1 : s.Inv) :
    (State.landWrite s k seq a bytes cause more failed).Inv := by
  unfold State.landWrite
  with_reducible repeat' first | assumption | apply State.pwFail_inv | apply State.popOp_inv | apply State.writeEnds_inv | apply State.modIf_inv | apply State.busWriteAll_inv | (apply State.Inv_of_pair; · assumption) | apply State.Inv_ite | intro _ | split

theorem State.lostWord_inv (s : State) (k : ℕ) (addr : ℕ) (ben : ℕ) (data : ℕ) (h1 : s.Inv) :
    (State.lostWord s k addr ben data).Inv := by
  unfold State.lostWord
  with_reducible repeat' first | assumption | apply State.count_inv | apply State.setReg_inv | apply State.setB_inv | apply State.Inv_ite | intro _

theorem State.holdLine_inv (s : State) (k : Nat) (line : Nat) (v : Nat) (h1 : s.Inv) :
    (State.holdLine s k line v).Inv := by
  unfold State.holdLine
  with_reducible repeat' first | assumption | apply State.modIf_inv | apply State.Inv_ite | intro _

theorem State.fetchLine_inv (s : State) (k : Nat) (a : Nat) (h1 : s.Inv) :
    (State.fetchLine s k a).Inv := by
  unfold State.fetchLine
  with_reducible repeat' first | assumption | apply State.busRead_inv | apply State.holdLine_inv | apply State.modIf_inv | apply State.Inv_ite | intro _ | dsimp only | (apply State.Inv_of_pair; · assumption) | (apply State.Inv_of_pair'; · assumption) | split

theorem State.cwRead_inv (s : State) (k : Nat) (a : Nat) (h1 : s.Inv) :
    (State.cwRead s k a).1.Inv := by
  unfold State.cwRead
  with_reducible repeat' first | assumption | apply State.busRead_inv | apply State.holdLine_inv | apply State.Inv_ite | apply State.Inv_ite_fst | intro _ | (apply State.Inv_of_pair; · assumption) | split

theorem State.preLand_inv (s : State) (who : Initiator) (a : Nat) (h1 : s.Inv) :
    (State.preLand s who a).Inv := by
  unfold State.preLand
  with_reducible repeat' first | assumption | apply State.takeEnded_inv | apply State.modIf_inv | apply State.holdLine_inv | apply State.Inv_ite | intro _ | dsimp only | (apply State.Inv_of_pair; · assumption) | (apply State.Inv_of_pair'; · assumption) | split

theorem State.prefetch_inv (s : State) (k : ℕ) (a : ℕ) (h1 : s.Inv) :
    (State.prefetch s k a).Inv := by
  unfold State.prefetch
  with_reducible repeat' first | assumption | apply State.fetchLine_inv | apply State.Inv_ite | intro _

theorem State.modDl_inv (s : State) (k : ℕ) (id : ℕ) (f : Delayed → Delayed) (h1 : s.Inv) :
    (State.modDl s k id f).Inv := by
  unfold State.modDl
  with_reducible repeat' first | assumption | apply State.modIf_inv

theorem State.setResult_inv (s : State) (k : ℕ) (id : ℕ) (err : Bool) (v : ℕ) (h1 : s.Inv) :
    (State.setResult s k id err v).Inv := by
  unfold State.setResult
  with_reducible repeat' first | assumption | apply State.modDl_inv

theorem State.takeLock_inv (s : State) (d : Delayed) (h1 : s.Inv) :
    (State.takeLock s d).Inv := by
  unfold State.takeLock
  with_reducible repeat' first | assumption | apply State.modCw_inv | apply State.Inv_ite | intro _

theorem State.doDelayed_inv (s : State) (k : Nat) (d : Delayed) (h1 : s.Inv) :
    (State.doDelayed s k d).Inv := by
  unfold State.doDelayed
  with_reducible repeat' first | assumption | apply State.popOp_inv | apply State.setResult_inv | apply State.busWriteAll_inv | apply State.clrB_inv | apply State.takeLock_inv | apply State.cwRead_inv | apply State.prefetch_inv | (apply State.Inv_of_pair; · assumption) | apply State.Inv_ite | intro _ | split

theorem State.pcieGet_inv (s : State) (a : Nat) (n : Nat) (h1 : s.Inv) :
    (State.pcieGet s a n).1.Inv := by
  unfold State.pcieGet
  with_reducible repeat' first | assumption | apply State.busRead_inv | apply State.modIf_inv | (apply State.Inv_of_pair; · assumption) | apply State.Inv_ite | apply State.Inv_ite_fst | intro _ | dsimp only | split

theorem State.readRuns_inv (s : State) (a0 : List (Nat × Nat)) (h1 : s.Inv) :
    (State.readRuns s a0).1.Inv := by
  fun_induction State.readRuns s a0
  all_goals dsimp only
  all_goals with_reducible repeat' first | assumption | apply State.pcieGet_inv | (apply State.Inv_of_pair; · assumption) | apply_assumption

theorem State.readDw_inv (s : State) (a : Nat) (be : Nat) (h1 : s.Inv) :
    (State.readDw s a be).1.Inv := by
  unfold State.readDw
  split
  · split
    exact State.Inv_of_pair (by assumption) (State.pcieGet_inv _ _ _ h1)
  · extract_lets
    split
    exact State.tickFree_inv _ (State.Inv_of_pair (by assumption) (State.readRuns_inv _ _ h1))

theorem State.readDws_inv (s : State) (a : Nat) (a0 : List Nat) (h1 : s.Inv) :
    (State.readDws s a a0).1.Inv := by
  fun_induction State.readDws s a a0
  all_goals dsimp only
  all_goals with_reducible repeat' first | assumption | apply State.readDw_inv | (apply State.Inv_of_pair; · assumption) | apply_assumption

theorem State.readCpls_inv (s : State) (a0 : List (Nat × List Nat)) (h1 : s.Inv) :
    (State.readCpls s a0).1.Inv := by
  fun_induction State.readCpls s a0
  all_goals dsimp only
  all_goals with_reducible repeat' first | assumption | apply State.readDws_inv | (apply State.Inv_of_pair; · assumption) | apply_assumption

theorem State.pcieFetch_inv (s : State) (a : Nat) (bes : List Nat) (h1 : s.Inv) :
    (State.pcieFetch s a bes).1.Inv := by
  exact State.readCpls_inv _ _ h1

theorem State.doRead_inv (s : State) (a : Nat) (bes : List Nat) (h1 : s.Inv) :
    (State.doRead s a bes).Inv := by
  unfold State.doRead
  with_reducible repeat' first | assumption | apply State.popOp_inv | apply State.clrB_inv | apply State.sendCa_inv | apply State.pcieFetch_inv | apply State.sendCpls_inv | (apply State.Inv_of_pair; · assumption) | apply State.Inv_ite | intro _ | dsimp only | split

theorem State.doAtomic_inv (s : State) (a : Nat) (n : Nat) (kind : AtomicKind) (x : Nat) (y : Nat) (h1 : s.Inv) :
    (State.doAtomic s a n kind x y).Inv := by
  unfold State.doAtomic
  with_reducible repeat' first | assumption | apply State.popOp_inv | apply State.clrB_inv | apply State.sendCa_inv | apply State.busAtomic_inv | apply State.sendCpls_inv | (apply State.Inv_of_pair; · assumption) | apply State.Inv_ite | intro _ | dsimp only | split

theorem State.serveOp_inv (s : State) (k : Nat) (h1 : s.Inv) :
    (State.serveOp s k).Inv := by
  unfold State.serveOp
  with_reducible repeat' first | assumption | apply State.landWrite_inv | apply State.popOp_inv | apply State.doRead_inv | apply State.doAtomic_inv | apply State.doDelayed_inv | apply State.Inv_ite | intro _ | split

theorem State.abandon_inv (s : State) (o : CwOp) (s' : State) (h1 : s.Inv) (h2 : s'.Inv) :
    (State.abandon s o s').Inv := by
  unfold State.abandon
  with_reducible repeat' first | assumption | apply State.pcieFetch_inv | apply State.lostWord_inv | apply State.Inv_ite | apply State.Inv_foldl | apply State.Inv_foldl_fst | intro _ | dsimp only | (apply State.Inv_of_pair; · assumption) | (apply State.Inv_of_pair'; · assumption) | split

theorem fetchAhead_inv (k : Nat) (a0 : Nat) (a1 : State) (h1 : a1.Inv) :
    (fetchAhead k a0 a1).Inv := by
  fun_induction fetchAhead k a0 a1
  all_goals with_reducible repeat' first | assumption | apply State.popOp_inv | apply State.prefetch_inv | apply_assumption | apply State.Inv_ite | split

theorem State.serve_inv (s : State) (k : Nat) (h1 : s.Inv) :
    (State.serve s k).Inv := by
  unfold State.serve
  with_reducible repeat' first | assumption | apply State.serveOp_inv | apply fetchAhead_inv | apply State.abandon_inv | apply State.modIf_inv | apply State.reply_inv | apply State.Inv_ite | intro _ | dsimp only | split

theorem serveThrough_inv (k : ℕ) (a1 : ℕ) (a2 : State) (h1 : a2.Inv) :
    (serveThrough k a1 a2).Inv := by
  fun_induction serveThrough k a1 a2
  all_goals with_reducible repeat' first | assumption | apply State.serve_inv | apply_assumption

theorem State.serveNext_inv (s : State) (k : ℕ) (h1 : s.Inv) :
    (State.serveNext s k).Inv := by
  unfold State.serveNext
  with_reducible repeat' first | assumption | apply serveThrough_inv

theorem State.serveWrite_inv (s : State) (k : Nat) (h1 : s.Inv) :
    (State.serveWrite s k).Inv := by
  unfold State.serveWrite
  with_reducible repeat' first | assumption | apply State.serve_inv | apply State.Inv_ite | split

theorem postedWriteFailure_inv (k : Nat) (s : State) (h1 : s.Inv) :
    (postedWriteFailure k s).Inv := by
  unfold postedWriteFailure
  with_reducible repeat' first | assumption | apply State.landWrite_inv | apply State.busWriteAll_inv | apply State.Inv_ite | intro _ | dsimp only | (apply State.Inv_of_pair; · assumption) | (apply State.Inv_of_pair'; · assumption) | split

theorem State.postDws_inv (s : State) (a : Nat) (a0 : List (Nat × Nat)) (h1 : s.Inv) :
    (State.postDws s a a0).Inv := by
  fun_induction State.postDws s a a0
  all_goals with_reducible repeat' first | assumption | apply State.postWrite_inv | apply_assumption | apply State.Inv_ite | intro _ | dsimp only | (apply State.Inv_of_pair; · assumption) | (apply State.Inv_of_pair'; · assumption) | split

theorem State.inboundRoom_inv (s : State) (h1 : s.Inv) :
    (State.inboundRoom s).Inv := by
  unfold State.inboundRoom
  with_reducible repeat' first | assumption | apply State.count_inv | apply State.modCw_inv | apply State.Inv_ite | intro _ | apply State.Inv_ite_fst | apply State.Inv_foldl | dsimp only | (apply State.Inv_of_pair; · assumption) | (apply State.Inv_of_pair'; · assumption) | split | apply State.Inv_mk

theorem pcieMwr_inv (bar : Nat) (dw : Nat) (dws : List (Nat × Nat)) (ep : Bool) (s : State) (h1 : s.Inv) :
    (pcieMwr bar dw dws ep s).Inv := by
  unfold pcieMwr
  dsimp only
  with_reducible repeat' first | assumption | apply State.sendUr_inv | apply State.inboundRoom_inv | apply State.postWrite_inv | apply State.setB_inv | apply State.aer_inv | apply State.postDws_inv | apply State.Inv_ite | intro _

theorem pcieMrd_inv (bar : Nat) (dw : Nat) (bes : List Nat) (s : State) (h1 : s.Inv) :
    (pcieMrd bar dw bes s).Inv := by
  unfold pcieMrd
  with_reducible repeat' first | assumption | apply State.sendUr_inv | apply State.inboundRoom_inv | apply State.modIf_inv | apply State.Inv_ite | intro _ | dsimp only | (apply State.Inv_of_pair; · assumption) | (apply State.Inv_of_pair'; · assumption) | split

theorem pcieAtomicop_inv (bar : Nat) (dw : Nat) (n : Nat) (kind : AtomicKind) (a : Nat) (b : Nat) (s : State) (h1 : s.Inv) :
    (pcieAtomicop bar dw n kind a b s).Inv := by
  unfold pcieAtomicop
  with_reducible repeat' first | assumption | apply State.sendUr_inv | apply State.inboundRoom_inv | apply State.modIf_inv | apply State.Inv_ite | intro _ | dsimp only | (apply State.Inv_of_pair; · assumption) | (apply State.Inv_of_pair'; · assumption) | split

theorem unsupportedRequest_inv (k : UrKind) (s : State) (h1 : s.Inv) :
    (unsupportedRequest k s).Inv := by
  unfold unsupportedRequest
  with_reducible repeat' first | assumption | apply State.sendUr_inv | apply State.Inv_ite | split

theorem serveAll_inv (k : Nat) (a0 : Nat) (a1 : State) (h1 : a1.Inv) :
    (serveAll k a0 a1).Inv := by
  fun_induction serveAll k a0 a1
  all_goals with_reducible repeat' first | assumption | apply State.abandon_inv | apply State.serveOp_inv | apply_assumption | apply State.Inv_ite | split

theorem State.expireEntry_inv (s : State) (k : ℕ) (d : Delayed) (h1 : s.Inv) :
    (State.expireEntry s k d).Inv := by
  unfold State.expireEntry
  with_reducible repeat' first | assumption | apply State.pwFail_inv | apply State.count_inv | apply State.lostWord_inv | apply State.Inv_ite | intro _ | split

theorem State.ifReset_inv (s : State) (k : Nat) (h1 : s.Inv) :
    (State.ifReset s k).Inv := by
  unfold State.ifReset
  with_reducible repeat' first | assumption | apply serveAll_inv | apply State.expireEntry_inv | apply State.setIfc_inv | apply State.clrB_inv | apply State.Inv_ite | apply State.Inv_foldl | apply State.Inv_foldl_fst | intro _ | dsimp only | split

theorem State.outEndAll_inv (s : State) (h1 : s.Inv) :
    (State.outEndAll s).Inv := by
  unfold State.outEndAll
  with_reducible repeat' first | assumption | apply State.modCw_inv | apply State.modIf_inv | apply State.Inv_ite | apply State.Inv_foldl | apply State.Inv_foldl_fst | intro _

theorem State.pcieReset_inv (s : State) (h1 : s.Inv) :
    (State.pcieReset s).Inv := by
  unfold State.pcieReset
  with_reducible repeat' first | assumption | apply State.outEndAll_inv | apply State.ifReset_inv | apply State.clrB_inv | apply State.modCw_inv | apply State.Inv_ite | intro _

theorem State.linkGone_inv (s : State) (h1 : s.Inv) :
    (State.linkGone s).Inv := by
  unfold State.linkGone
  with_reducible repeat' first | assumption | apply State.setReg_inv

theorem pcieInterfaceReset_inv (r : PcieReset) (s : State) (h1 : s.Inv) :
    (pcieInterfaceReset r s).Inv := by
  unfold pcieInterfaceReset
  with_reducible repeat' first | assumption | apply State.modCw_inv | apply State.linkGone_inv | apply State.pcieReset_inv | apply State.setB_inv | apply State.Inv_ite | intro _ | dsimp only | split

theorem pciePerstnRising_inv (s : State) (h1 : s.Inv) :
    (pciePerstnRising s).Inv := by
  unfold pciePerstnRising
  with_reducible repeat' first | assumption | apply State.modCw_inv | apply State.Inv_ite | intro _

theorem pcieLinkUp_inv (speed : Nat) (width : Nat) (s : State) (h1 : s.Inv) :
    (pcieLinkUp speed width s).Inv := by
  unfold pcieLinkUp
  with_reducible repeat' first | assumption | apply State.setB_inv | apply State.putF_inv | apply State.Inv_ite | intro _

theorem configurationWrite_inv (f : CfgField) (s : State) (h1 : s.Inv) :
    (configurationWrite f s).Inv := by
  unfold configurationWrite
  with_reducible repeat' first | assumption | apply State.putB_inv | apply State.modCw_inv | apply State.aer_inv | apply State.Inv_ite | intro _ | split

theorem State.outEnds_inv (s : State) (who : Initiator) (a : Nat) (wr : Bool) (p : WaitAcc → Bool) (r : BusEnd × Nat) (h1 : s.Inv) :
    (State.outEnds s who a wr p r).Inv := by
  unfold State.outEnds
  with_reducible repeat' first | assumption | apply State.endWait_inv | apply State.preLand_inv | apply State.modCw_inv | apply State.Inv_ite | apply State.Inv_ite_fst | apply State.Inv_foldl | intro _ | dsimp only | (apply State.Inv_of_pair; · assumption) | (apply State.Inv_of_pair'; · assumption) | split | apply State.Inv_mk

theorem State.outSend_inv (s : State) (who : Initiator) (a : Nat) (h1 : s.Inv) :
    (State.outSend s who a).Inv := by
  unfold State.outSend
  with_reducible repeat' first | assumption | apply State.outEnds_inv | apply State.modCw_inv | apply State.endWait_inv | apply State.Inv_ite | intro _ | split | apply State.Inv_ite_fst | apply State.Inv_foldl | dsimp only | (apply State.Inv_of_pair; · assumption) | (apply State.Inv_of_pair'; · assumption) | apply State.Inv_mk

theorem outboundCompletion_inv (who : Initiator) (a : Nat) (r : BusEnd × Nat) (s : State) (h1 : s.Inv) :
    (outboundCompletion who a r s).Inv := by
  unfold outboundCompletion
  with_reducible repeat' first | assumption | apply State.outEnds_inv | apply State.aer_inv | apply State.endWait_inv | apply State.preLand_inv | apply State.setB_inv | apply State.modCw_inv | apply State.Inv_ite | intro _ | dsimp only | (apply State.Inv_of_pair; · assumption) | (apply State.Inv_of_pair'; · assumption) | apply State.Inv_ite_fst | apply State.Inv_foldl | split | apply State.Inv_mk

theorem completionTimeout_inv (who : Initiator) (a : Nat) (s : State) (h1 : s.Inv) :
    (completionTimeout who a s).Inv := by
  unfold completionTimeout
  with_reducible repeat' first | assumption | apply State.outEnds_inv | apply State.endWait_inv | apply State.preLand_inv | apply State.aer_inv | apply State.modCw_inv | apply State.Inv_ite | intro _ | apply State.Inv_ite_fst | apply State.Inv_foldl | dsimp only | (apply State.Inv_of_pair; · assumption) | (apply State.Inv_of_pair'; · assumption) | split | apply State.Inv_mk

theorem outStarved_inv (who : Initiator) (a : Nat) (s : State) (h1 : s.Inv) :
    (outStarved who a s).Inv := by
  unfold outStarved
  with_reducible repeat' first | assumption | apply State.outEnds_inv | apply State.endWait_inv | apply State.preLand_inv | apply State.setB_inv | apply State.Inv_ite | intro _ | apply State.Inv_ite_fst | apply State.Inv_foldl | dsimp only | (apply State.Inv_of_pair; · assumption) | (apply State.Inv_of_pair'; · assumption) | split | apply State.Inv_mk

theorem State.dropDl_inv (s : State) (k : ℕ) (id : ℕ) (h1 : s.Inv) :
    (State.dropDl s k id).Inv := by
  unfold State.dropDl
  with_reducible repeat' first | assumption | apply State.modIf_inv

theorem State.addDl_inv (s : State) (k : ℕ) (d : Delayed) (h1 : s.Inv) :
    (State.addDl s k d).Inv := by
  unfold State.addDl
  with_reducible repeat' first | assumption | apply State.modIf_inv

theorem State.collect_inv (s : State) (k : Nat) (id : Nat) (h1 : s.Inv) :
    (State.collect s k id).1.Inv := by
  unfold State.collect
  with_reducible repeat' first | assumption | apply State.dropDl_inv | apply State.Inv_ite | apply State.Inv_ite_fst | intro _ | split

theorem State.hostRead_inv (s : State) (k : Nat) (a : Nat) (ben : Nat) (locked : Bool) (quick : Bool) (h1 : s.Inv) :
    (State.hostRead s k a ben locked quick).1.Inv := by
  unfold State.hostRead
  with_reducible repeat' first | assumption | apply State.dropLines_inv | apply State.serveNext_inv | apply State.collect_inv | apply State.clrB_inv | apply State.prefetch_inv | apply State.modIf_inv | apply State.inboundRoom_inv | apply State.addDl_inv | apply State.Inv_ite | apply State.Inv_ite_fst | intro _ | dsimp only | split

theorem State.hostDelayedWrite_inv (s : State) (k : Nat) (a : Nat) (ben : Nat) (data : Nat) (locked : Bool) (h1 : s.Inv) :
    (State.hostDelayedWrite s k a ben data locked).1.Inv := by
  unfold State.hostDelayedWrite
  with_reducible repeat' first | assumption | apply State.dropDl_inv | apply State.inboundRoom_inv | apply State.countWrite_inv | apply State.addDl_inv | apply State.Inv_ite | apply State.Inv_ite_fst | intro _ | dsimp only | split

theorem State.dropHalf_inv (s : State) (h1 : s.Inv) :
    (State.dropHalf s).Inv := by
  unfold State.dropHalf
  with_reducible repeat' first | assumption | apply State.modIf_inv

theorem State.holdHalf_inv (s : State) (a : ℕ) (write : Bool) (v : ℕ) (h1 : s.Inv) :
    (State.holdHalf s a write v).Inv := by
  unfold State.holdHalf
  with_reducible repeat' first | assumption | apply State.modIf_inv

theorem State.lockSample_inv (s : State) (lockn : Bool) (h1 : s.Inv) :
    (State.lockSample s lockn).Inv := by
  unfold State.lockSample
  with_reducible repeat' first | assumption | apply State.modCw_inv | apply State.Inv_ite | intro _

theorem State.lockRule_inv (s : State) (a : ℕ) (read : Bool) (lockn : Bool) (h1 : s.Inv) :
    (State.lockRule s a read lockn).1.Inv := by
  unfold State.lockRule
  with_reducible repeat' first | assumption | apply State.modCw_inv | apply State.Inv_ite_fst | intro _ | split

theorem State.hbEnd_inv (s : State) (fin : CwFin) (v : ℕ) (n : ℕ) (h1 : s.Inv) :
    (State.hbEnd s fin v n).Inv := by
  unfold State.hbEnd
  with_reducible repeat' first | assumption | apply State.reply_inv

theorem hbControlPage_inv (a : ℕ) (write : Bool) (ben : ℕ) (data : ℕ) (s : State) (h1 : s.Inv) :
    (hbControlPage a write ben data s).Inv := by
  unfold hbControlPage
  with_reducible repeat' first | assumption | apply State.modCw_inv | apply State.hbEnd_inv | apply State.holdHalf_inv | apply State.regWrite_inv | apply State.dropHalf_inv | apply State.Inv_ite | intro _ | split | apply State.Inv_ite_fst | apply State.Inv_foldl | dsimp only | (apply State.Inv_of_pair; · assumption) | (apply State.Inv_of_pair'; · assumption) | apply State.Inv_mk

theorem hbReadCycle_inv (off : Nat) (ben : Nat) (lockn : Bool) (quick : Bool) (s : State) (h1 : s.Inv) :
    (hbReadCycle off ben lockn quick s).Inv := by
  unfold hbReadCycle
  with_reducible repeat' first | assumption | apply State.lockSample_inv | apply hbControlPage_inv | apply State.lockRule_inv | apply State.dropHalf_inv | apply State.hbEnd_inv | apply State.hostRead_inv | apply State.holdHalf_inv | apply State.Inv_ite | intro _ | dsimp only | (apply State.Inv_of_pair; · assumption) | (apply State.Inv_of_pair'; · assumption) | split

theorem State.hbCycleWrite_inv (s : State) (wa : Nat) (ben4 : Nat) (data : Nat) (h1 : s.Inv) :
    (State.hbCycleWrite s wa ben4 data).1.Inv := by
  unfold State.hbCycleWrite
  with_reducible repeat' first | assumption | apply State.hostDelayedWrite_inv | apply State.inboundRoom_inv | apply State.postWrite_inv | apply State.Inv_ite | apply State.Inv_ite_fst | intro _

theorem State.dropHeld_inv (s : State) (h : Option (Nat × Bool)) (h1 : s.Inv) :
    (State.dropHeld s h).Inv := by
  unfold State.dropHeld
  with_reducible repeat' first | assumption | apply State.dropDl_inv | apply State.Inv_ite | dsimp only | (apply State.Inv_of_pair; · assumption) | (apply State.Inv_of_pair'; · assumption) | split

theorem hbWriteCycle_inv (off : Nat) (ben : Nat) (data : Nat) (lockn : Bool) (s : State) (h1 : s.Inv) :
    (hbWriteCycle off ben data lockn s).Inv := by
  unfold hbWriteCycle
  with_reducible repeat' first | assumption | apply State.lockSample_inv | apply hbControlPage_inv | apply State.lockRule_inv | apply State.dropHeld_inv | apply State.dropHalf_inv | apply State.hbEnd_inv | apply State.holdHalf_inv | apply State.hbCycleWrite_inv | apply State.Inv_ite | intro _ | dsimp only | (apply State.Inv_of_pair; · assumption) | (apply State.Inv_of_pair'; · assumption) | split

theorem lockBroken_inv (s : State) (h1 : s.Inv) :
    (lockBroken s).Inv := by
  unfold lockBroken
  with_reducible repeat' first | assumption | apply State.modIf_inv | apply State.modCw_inv | apply State.count_inv | apply State.setB_inv | apply State.Inv_ite | intro _ | split

theorem qspiWrite_inv (a : Nat) (ws : List Nat) (s : State) (h1 : s.Inv) :
    (qspiWrite a ws s).Inv := by
  unfold qspiWrite
  with_reducible repeat' first | assumption | apply State.inboundRoom_inv | apply State.postWrite_inv | apply State.setB_inv | apply State.modIf_inv | apply State.Inv_ite | apply State.Inv_foldl | intro _

theorem qspiRead_inv (a : Nat) (quick : Bool) (s : State) (h1 : s.Inv) :
    (qspiRead a quick s).Inv := by
  unfold qspiRead
  with_reducible repeat' first | assumption | apply State.clrB_inv | apply State.reply_inv | apply State.hostRead_inv | apply State.Inv_ite | intro _ | dsimp only | split

theorem qspiStatus_inv (s : State) (h1 : s.Inv) :
    (qspiStatus s).Inv := by
  unfold qspiStatus
  with_reducible repeat' first | assumption | apply State.reply_inv

theorem qspiId_inv (s : State) (h1 : s.Inv) :
    (qspiId s).Inv := by
  unfold qspiId
  with_reducible repeat' first | assumption | apply State.reply_inv

theorem qstBadcmd_inv (code : ℕ) (s : State) (h1 : s.Inv) :
    (qstBadcmd code s).Inv := by
  unfold qstBadcmd
  with_reducible repeat' first | assumption | apply State.setB_inv | apply State.Inv_ite | intro _

theorem delayedExpiry_inv (k : ℕ) (s : State) (h1 : s.Inv) :
    (delayedExpiry k s).Inv := by
  unfold delayedExpiry
  with_reducible repeat' first | assumption | apply State.modIf_inv | apply State.expireEntry_inv | apply State.Inv_foldl | intro _

theorem prefetchExpiry_inv (k : ℕ) (s : State) (h1 : s.Inv) :
    (prefetchExpiry k s).Inv := by
  unfold prefetchExpiry
  with_reducible repeat' first | assumption | apply State.modIf_inv

/-! ## Power -/

theorem State.modRst_inv (s : State) (f : RstSt → RstSt) (h1 : s.Inv) :
    (State.modRst s f).Inv := by
  unfold State.modRst
  with_reducible repeat' first | assumption | apply State.Inv_mk

theorem State.modHm_inv (s : State) (f : HmSt → HmSt) (h1 : s.Inv) :
    (State.modHm s f).Inv := by
  unfold State.modHm
  with_reducible repeat' first | assumption | apply State.Inv_mk

theorem vinValid_inv (s : State) (h1 : s.Inv) :
    (vinValid s).Inv := by
  unfold vinValid
  with_reducible repeat' first | assumption | apply State.modRst_inv | apply State.lhPowerUp_inv | apply lhSafen_inv | apply State.Inv_ite | intro _

theorem vinInvalid_inv (s : State) (h1 : s.Inv) :
    (vinInvalid s).Inv := by
  unfold vinInvalid
  with_reducible repeat' first | assumption | apply State.resetReq_inv | apply State.modRst_inv | apply State.Inv_ite | intro _

theorem railOutOfRegulation_inv (s : State) (h1 : s.Inv) :
    (railOutOfRegulation s).Inv := by
  unfold railOutOfRegulation
  with_reducible repeat' first | assumption | apply State.resetReq_inv | apply State.modRst_inv | apply State.Inv_ite | intro _

theorem refclkFailure_inv (s : State) (h1 : s.Inv) :
    (refclkFailure s).Inv := by
  unfold refclkFailure
  with_reducible repeat' first | assumption | apply State.resetReq_inv | apply State.modRst_inv

theorem resetn_inv (low : Bool) (s : State) (h1 : s.Inv) :
    (resetn low s).Inv := by
  unfold resetn
  with_reducible repeat' first | assumption | apply State.resetReq_inv | apply State.modRst_inv | apply State.Inv_ite | intro _

theorem bankDown_inv (b : Nat) (up : Bool) (s : State) (h1 : s.Inv) :
    (bankDown b up s).Inv := by
  unfold bankDown
  with_reducible repeat' first | assumption | apply State.modRst_inv | apply State.setIf_inv | apply resetn_inv | apply lhSafen_inv | apply tapReset_inv | apply pcieInterfaceReset_inv | apply State.Inv_ite | intro _

theorem tsrefLost_inv (s : State) (h1 : s.Inv) :
    (tsrefLost s).Inv := by
  unfold tsrefLost
  with_reducible repeat' first | assumption | apply State.modRst_inv | apply State.clrB_inv | apply State.setB_inv | apply State.Inv_ite | intro _

theorem timePllLocked_inv (s : State) (h1 : s.Inv) :
    (timePllLocked s).Inv := by
  unfold timePllLocked
  with_reducible repeat' first | assumption | apply State.putB_inv | apply State.setB_inv | apply State.Inv_ite | apply State.Inv_ite_fst | apply State.Inv_foldl | intro _ | dsimp only | (apply State.Inv_of_pair; · assumption) | (apply State.Inv_of_pair'; · assumption) | split | apply State.Inv_mk

theorem canrefLost_inv (s : State) (h1 : s.Inv) :
    (canrefLost s).Inv := by
  unfold canrefLost
  with_reducible repeat' first | assumption | apply State.clrB_inv | apply State.setB_inv | apply State.Inv_ite | intro _

theorem State.hmStage_inv (s : State) (r : HmRun) (st : ℕ) (h1 : s.Inv) :
    (State.hmStage s r st).Inv := by
  unfold State.hmStage
  with_reducible repeat' first | assumption | apply State.modHm_inv | apply State.putF_inv

theorem State.ringOut_inv (s : State) (b : ℕ) (h1 : s.Inv) :
    (State.ringOut s b).Inv := by
  unfold State.ringOut
  with_reducible repeat' first | assumption | apply State.setReg_inv

theorem State.romWait_inv (s : State) (h1 : s.Inv) :
    (State.romWait s).Inv := by
  unfold State.romWait
  with_reducible repeat' first | assumption | apply State.ringOut_inv | apply State.hmStage_inv

theorem State.musterEnter_inv (s : State) (h1 : s.Inv) :
    (State.musterEnter s).Inv := by
  unfold State.musterEnter
  with_reducible repeat' first | assumption | apply State.regWrite_inv | apply State.hmStage_inv | apply State.Inv_ite | intro _ | dsimp only | (apply State.Inv_of_pair; · assumption) | (apply State.Inv_of_pair'; · assumption)

theorem State.bootRom_inv (s : State) (h1 : s.Inv) :
    (State.bootRom s).Inv := by
  unfold State.bootRom
  with_reducible repeat' first | assumption | apply State.hmStage_inv | apply State.setQe_inv | apply State.musterEnter_inv | apply State.romWait_inv | apply State.Inv_ite | intro _

theorem State.chipFresh_inv (s : State) (h1 : s.Inv) :
    (State.chipFresh s).Inv := by
  unfold State.chipFresh
  simp only [State.Inv_iff, twf_nil, and_true, true_and]
  exact ⟨twf_filter h1.regsOk _, twf_filter h1.memOk _, twf_map (twf_filter h1.psetOk _) fun p hp e => by simp_all⟩

theorem chipReset_inv (s : State) (h1 : s.Inv) :
    (chipReset s).Inv := by
  unfold chipReset
  with_reducible repeat' first | assumption | apply State.chipFresh_inv | apply State.setReg_inv | apply State.Inv_ite | intro _ | dsimp only | split | apply State.Inv_mk

theorem lighthousePowerLoss_inv (s : State) (h1 : s.Inv) :
    (lighthousePowerLoss s).Inv := by
  unfold lighthousePowerLoss
  with_reducible repeat' first | assumption | apply vinInvalid_inv | apply State.modRst_inv | apply chipReset_inv | apply State.Inv_ite | intro _

theorem chipResetRelease_inv (boot : Nat) (addrMode : Nat) (width : Bool) (s : State) (h1 : s.Inv) :
    (chipResetRelease boot addrMode width s).Inv := by
  unfold chipResetRelease
  with_reducible repeat' first | assumption | apply State.modRst_inv | apply State.setReg_inv | apply State.putF_inv | apply State.putB_inv | apply State.setIf_inv | apply State.modLh_inv | apply State.logEv_inv | apply State.wdogRestart_inv | apply State.bootRom_inv | apply State.Inv_ite | apply State.Inv_foldl | apply State.Inv_foldl_fst | intro _ | dsimp only | (apply State.Inv_of_pair; · assumption) | (apply State.Inv_of_pair'; · assumption)

theorem State.fqEmptied_inv (s : State) (h1 : s.Inv) :
    (State.fqEmptied s).Inv := by
  unfold State.fqEmptied
  with_reducible repeat' first | assumption | apply State.fqLeave_inv | apply State.Inv_foldl | intro _

theorem coreReset_inv (s : State) (h1 : s.Inv) :
    (coreReset s).Inv := by
  unfold coreReset
  split
  · exact h1
  · refine State.Inv_ite (fun _ => h1) fun _ => ?_
    have h0 := State.fqEmptied_inv s h1
    have h2 : State.Inv { s.fqEmptied with regs := s.fqEmptied.regs.filter (fun p => !coreClears p.1), qe := [], fq := [], txRR := [], dma := [] } := by
      simp only [State.Inv_iff, twf_nil, true_and] at h0 ⊢
      exact ⟨twf_filter h0.1 _, by simp only [h0, and_self]⟩
    refine State.logEv_inv _ _ _ (State.setReg_inv _ _ _ ?_)
    have h3 : ∀ u : State, u.Inv → ((u.mbCoreReset).forN 4 State.canCoreReset).Inv := fun u hu =>
      State.forN_inv _ _ _ (State.mbCoreReset_inv _ hu) (fun t k ht => State.canCoreReset_inv _ _ ht)
    refine State.Inv_ite (fun _ => State.ttDisable_inv _ (State.clrB_inv _ _ _ (h3 _ ?_))) fun _ => h3 _ ?_
    all_goals exact State.forget_inv _ _ (State.Inv_mk h2)

theorem coreResetEnd_inv (s : State) (h1 : s.Inv) :
    (coreResetEnd s).Inv := by
  unfold coreResetEnd
  with_reducible repeat' first | assumption | apply State.bootRom_inv | apply State.wdogRestart_inv | apply State.modRst_inv | apply State.Inv_ite | intro _

theorem causewayReset_inv (s : State) (h1 : s.Inv) :
    (causewayReset s).Inv := by
  unfold causewayReset
  with_reducible repeat' first | assumption | apply State.modCw_inv | apply State.pcieReset_inv | apply State.ifReset_inv | apply State.modRst_inv | apply State.logEv_inv | apply State.Inv_ite | intro _ | dsimp only | (apply State.Inv_of_pair; · assumption) | (apply State.Inv_of_pair'; · assumption)

theorem causewayResetEnd_inv (s : State) (h1 : s.Inv) :
    (causewayResetEnd s).Inv := by
  unfold causewayResetEnd
  with_reducible repeat' first | assumption | apply State.modRst_inv

/-! ## LhPort -/

theorem State.lhStatus_inv (s : State) (st : ℕ) (h1 : s.Inv) :
    (State.lhStatus s st).Inv := by
  unfold State.lhStatus
  with_reducible repeat' first | assumption | apply State.modLh_inv

theorem State.lhAccept_inv (s : State) (cmd : ℕ) (r : State × ℕ × ℕ) (h1 : s.Inv) (h2 : r.1.Inv) :
    (State.lhAccept s cmd r).Inv := by
  unfold State.lhAccept
  with_reducible repeat' first | assumption | apply State.modLh_inv

theorem State.lhOut_inv (s : State) (h1 : s.Inv) :
    (State.lhOut s).Inv := by
  unfold State.lhOut
  with_reducible repeat' first | assumption | apply State.modLh_inv | apply State.Inv_ite | intro _

theorem State.lhRequest_inv (s : State) (cmd : Nat) (zeros : Bool) (f : State → State × Nat × Nat) (h1 : s.Inv) (h2 : ∀ x0, x0.Inv → (f x0).1.Inv) :
    (State.lhRequest s cmd zeros f).Inv := by
  unfold State.lhRequest
  with_reducible repeat' first | assumption | apply h2 | apply State.lhOut_inv | apply State.lhStatus_inv | apply State.setB_inv | apply State.lhAccept_inv | apply State.Inv_ite | apply State.Inv_ite_fst | intro _

theorem lhFrameRefused_inv (clocks : Nat) (bytes : List Nat) (s : State) (h1 : s.Inv) :
    (lhFrameRefused clocks bytes s).Inv := by
  unfold lhFrameRefused
  with_reducible repeat' first | assumption | apply State.lhOut_inv | apply State.setB_inv | apply State.lhStatus_inv | apply State.lhRequest_inv | apply State.Inv_ite | intro _

theorem lhNop_inv (addr : ℕ) (data : ℕ) (s : State) (h1 : s.Inv) :
    (lhNop addr data s).Inv := by
  unfold lhNop
  with_reducible repeat' first | assumption | apply State.lhRequest_inv | intro _

theorem readLh_inv (addr : ℕ) (data : ℕ) (s : State) (h1 : s.Inv) :
    (readLh addr data s).Inv := by
  unfold readLh
  with_reducible repeat' first | assumption | apply State.lhRequest_inv | apply State.regRead_inv | apply State.Inv_ite_fst | intro _

theorem writeLh_inv (addr : ℕ) (data : ℕ) (s : State) (h1 : s.Inv) :
    (writeLh addr data s).Inv := by
  refine State.lhRequest_inv _ _ _ _ h1 fun s hs => ?_
  refine State.Inv_ite_fst (fun _ => hs) fun _ => ?_
  have h := State.regWrite_inv s .lhPort (0x40010000 + addr) (w32 data) hs
  split
  · next e =>
    rw [e] at h
    exact State.Inv_ite (fun _ => State.Inv_regs h (twf_filter h.regsOk _)) fun _ => h
  · next e => rw [e] at h; exact h

theorem readMb_inv (addr : ℕ) (data : ℕ) (s : State) (h1 : s.Inv) :
    (readMb addr data s).Inv := by
  unfold readMb
  with_reducible repeat' first | assumption | apply State.lhRequest_inv | apply State.busRead_inv | apply State.Inv_ite_fst | (apply State.Inv_of_pair; · assumption) | intro _ | split

theorem writeMb_inv (addr : ℕ) (data : ℕ) (s : State) (h1 : s.Inv) :
    (writeMb addr data s).Inv := by
  unfold writeMb
  with_reducible repeat' first | assumption | apply State.lhRequest_inv | apply State.busWrite_inv | apply State.Inv_ite_fst | (apply State.Inv_of_pair; · assumption) | intro _ | split

theorem lhSafe_inv (addr : ℕ) (data : ℕ) (s : State) (h1 : s.Inv) :
    (lhSafe addr data s).Inv := by
  unfold lhSafe
  with_reducible repeat' first | assumption | apply State.lhRequest_inv | apply State.latchSet_inv | intro _

theorem lhRelease_inv (addr : ℕ) (data : ℕ) (s : State) (h1 : s.Inv) :
    (lhRelease addr data s).Inv := by
  unfold lhRelease
  with_reducible repeat' first | assumption | apply State.lhRequest_inv | apply State.latchClear_inv

theorem lhChipReset_inv (addr : ℕ) (data : ℕ) (s : State) (h1 : s.Inv) :
    (lhChipReset addr data s).Inv := by
  unfold lhChipReset
  with_reducible repeat' first | assumption | apply State.lhRequest_inv | apply State.resetReq_inv | apply State.Inv_ite_fst | intro _

theorem lhLogFreeze_inv (addr : ℕ) (data : ℕ) (s : State) (h1 : s.Inv) :
    (lhLogFreeze addr data s).Inv := by
  unfold lhLogFreeze
  with_reducible repeat' first | assumption | apply State.lhRequest_inv | apply State.modLh_inv | intro _

theorem lhLogThaw_inv (addr : ℕ) (data : ℕ) (s : State) (h1 : s.Inv) :
    (lhLogThaw addr data s).Inv := by
  unfold lhLogThaw
  with_reducible repeat' first | assumption | apply State.lhRequest_inv | apply State.thawed_inv | apply State.modLh_inv | intro _

theorem lhLogRead_inv (addr : Nat) (data : Nat) (s : State) (h1 : s.Inv) :
    (lhLogRead addr data s).Inv := by
  unfold lhLogRead
  with_reducible repeat' first | assumption | apply State.lhRequest_inv | apply State.setIf_inv | apply State.recFetch_inv | apply State.Inv_ite_fst | intro _ | dsimp only | split

end Sys2Proof.Machine
end

