-- ==== Sys2Proof/Laws/CanonEngine.lean ====
section
/-! SUPPORT. Every operation of the engines and the channels keeps the tables of the state in canonical form. -/
namespace Sys2Proof.Machine

/-! ## Operands -/

/-- Every state of a result has canonical tables, and what it carries satisfies P. -/
def QR.All {α : Type} (P : α → Prop) : QR α → Prop
  | .ok a => P a
  | .fault t _ _ => t.Inv
  | .wait t => t.Inv
  | .waitFor _ => True

theorem QR.All_bind {α β : Type} {P : α → Prop} {Q : β → Prop} {x : QR α} {f : α → QR β} (h : x.All P)
    (hf : ∀ a, P a → (f a).All Q) : (x.bind f).All Q := by cases x <;> first | exact hf _ h | exact h

theorem QR.All_ok {α : Type} {P : α → Prop} {a : α} (h : P a) : (QR.ok a).All P := h
theorem QR.All_failed {α : Type} {P : α → Prop} {t : State} {c a : Nat} (h : t.Inv) : (QR.fault t c a).All P := h
theorem QR.All_wait {α : Type} {P : α → Prop} {t : State} (h : t.Inv) : (QR.wait t).All P := h
theorem QR.All_waitFor {α : Type} {P : α → Prop} {w : QWait} : (QR.waitFor w).All P := trivial

theorem QR.Inv_fault {α : Type} {P : α → Prop} {x : QR α} {t : State} {c a : Nat} (e : x = .fault t c a) (h : x.All P) : t.Inv := by
  subst e; exact h
theorem QR.Inv_wait {α : Type} {P : α → Prop} {x : QR α} {t : State} (e : x = .wait t) (h : x.All P) : t.Inv := by
  subst e; exact h
theorem QR.Inv_ok {x : QR State} {t : State} (e : x = .ok t) (h : x.All State.Inv) : t.Inv := by subst e; exact h
theorem QR.Inv_fst {α : Type} {x : QR (State × α)} {p : State × α} (e : x = .ok p) (h : x.All (fun r => r.1.Inv)) : p.1.Inv := by
  subst e; exact h
theorem QR.Inv_pair {α : Type} {x : QR (State × α)} {t : State} {v : α} (e : x = .ok (t, v)) (h : x.All (fun r => r.1.Inv)) :
    t.Inv := by subst e; exact h

theorem State.spRead_inv (s : State) (n : ℕ) (a : ℕ) (k : ℕ) (h1 : s.Inv) :
    (State.spRead s n a k).All (fun r => r.1.Inv) := by
  unfold State.spRead
  with_reducible repeat' first | assumption | apply QR.All | apply QR.All_failed | apply State.memGet_inv | apply QR.All_ok | (apply State.Inv_of_pair; · assumption) | split

theorem State.spWrite_inv (s : State) (n : ℕ) (a : ℕ) (bs : List ℕ) (h1 : s.Inv) :
    (State.spWrite s n a bs).Inv := by
  unfold State.spWrite
  with_reducible repeat' first | assumption | apply State.spPut_inv

theorem State.ptrWord_inv (s : State) (n : ℕ) (a : ℕ) (ups : Ups) (h1 : s.Inv) :
    (State.ptrWord s n a ups).All (fun r => r.1.Inv) := by
  unfold State.ptrWord
  with_reducible repeat' first | assumption | apply QR.All | apply QR.All_bind | apply State.spRead_inv | apply QR.All_ok | intro _ | split

theorem State.formEa_inv (s : State) (n : ℕ) (w : ℕ) (x : ℕ) (ups : Ups) (h1 : s.Inv) :
    (State.formEa s n w x ups).All (fun r => r.1.Inv) := by
  unfold State.formEa
  with_reducible repeat' first | assumption | apply QR.All | apply QR.All_ok | apply QR.All_bind | apply State.ptrWord_inv | intro _ | split

theorem State.formOp_inv (s : State) (n : ℕ) (k : OpKind) (x : ℕ) (ups : Ups) (h1 : s.Inv) :
    (State.formOp s n k x ups).All (fun r => r.1.Inv) := by
  unfold State.formOp
  with_reducible repeat' first | assumption | apply QR.All | apply QR.All_ok | apply State.formEa_inv | split

theorem State.rxCommit_inv (s : State) (n : ℕ) (v : RxView) (h1 : s.Inv) :
    (State.rxCommit s n v).Inv := by
  unfold State.rxCommit
  with_reducible repeat' first | assumption | apply State.setQe_inv | apply State.fqPopN_inv

theorem State.txAppend_inv (s : State) (n : ℕ) (a2 : List ℕ) (h1 : s.Inv) :
    (State.txAppend s n a2).Inv := by
  fun_induction State.txAppend s n a2
  all_goals with_reducible repeat' first | assumption | apply State.fqPush_inv | apply State.setQe_inv | apply State.Inv_ite | intro _ | apply_assumption

theorem State.stallOn_inv (s0 : State) (s : State) (n : ℕ) (a : ℕ) (h1 : s0.Inv) (h2 : s.Inv) :
    (State.stallOn s0 s n a).Inv := by
  unfold State.stallOn
  with_reducible repeat' first | assumption | apply State.modCw_inv | apply State.Inv_ite | intro _ | split

theorem busEnd_inv {α : Type} (s0 : State) (s : State) (n : ℕ) (a : ℕ) (g : ℕ) (e : BusEnd) (v : α) (h1 : s0.Inv) (h2 : s.Inv) :
    (busEnd s0 s n a g e v).All (fun r => r.1.Inv) := by
  unfold busEnd
  with_reducible repeat' first | assumption | apply QR.All | apply QR.All_ok | apply QR.All_failed | apply QR.All_wait | apply State.stallOn_inv | split

theorem State.rxBack_inv (s : State) (s0 : State) (n : ℕ) (h1 : s.Inv) : (State.rxBack s s0 n).Inv := by
  unfold State.rxBack
  exact State.setQe_inv _ _ _ (State.setFq_inv _ _ _ h1)

theorem QR.giveBack_inv {α : Type} {P : α → Prop} (x : QR α) (s0 : State) (n : ℕ) (b : Bool) (h : x.All P) : (x.giveBack s0 n b).All P := by
  unfold QR.giveBack
  split
  · exact State.Inv_ite (fun _ => State.rxBack_inv _ _ _ h) fun _ => h
  · exact h

theorem State.readEa_inv (s : State) (s0 : State) (n : ℕ) (k : OpKind) (e : Ea) (h1 : s.Inv) (h2 : s0.Inv) :
    (State.readEa s s0 n k e).All (fun r => r.1.Inv) := by
  unfold State.readEa
  with_reducible repeat' first | assumption | apply State.rxCommit_inv | apply State.Inv_ite | apply QR.All | apply QR.All_ok | apply QR.All_bind | apply State.spRead_inv | apply busEnd_inv | apply State.busRead_inv | apply QR.All_failed | apply State.regRead_inv | apply QR.All_waitFor | intro _ | dsimp only | split

theorem State.writeEa_inv (s : State) (n : ℕ) (w : ℕ) (e : Ea) (v : ℕ) (h1 : s.Inv) :
    (State.writeEa s n w e v).1.Inv := by
  unfold State.writeEa
  with_reducible repeat' first | assumption | apply State.spWrite_inv | apply State.busWrite_inv | apply State.regWrite_inv | apply State.txAppend_inv | split

theorem State.qWrites_inv (s : State) (n : ℕ) (a2 : List QWrite) (h1 : s.Inv) :
    (State.qWrites s n a2).1.Inv := by
  fun_induction State.qWrites s n a2
  all_goals with_reducible repeat' first | assumption | apply State.spWrite_inv | apply State.writeEa_inv | (apply State.Inv_of_pair; · assumption) | apply_assumption

theorem State.commitWrites_inv (s s0 sr : State) (n : ℕ) (ws : List QWrite) (h1 : s.Inv) (h2 : s0.Inv) (h3 : sr.Inv) :
    (State.commitWrites s s0 sr n ws).All State.Inv := by
  unfold State.commitWrites
  with_reducible repeat' first | assumption | apply QR.All | apply QR.All_ok | apply State.qWrites_inv | apply QR.All_wait | apply State.stallOn_inv | apply QR.All_failed | apply QR.All_waitFor | (apply State.Inv_of_pair; · assumption) | intro _ | dsimp only | split

/-! ## QeIsa -/

theorem QR.Inv_res {x : QR Res} {r : Res} (e : x = .ok r) (h : x.All (fun r => r.st.Inv)) : r.st.Inv := by subst e; exact h

/-- An instruction keeps the tables in canonical form. -/
def QInstr.Ok (i : QInstr) : Prop := ∀ n s v, s.Inv → (i.body n s v).All (fun r => r.st.Inv)

theorem Res.st_inv (self : Res) (h1 : self.st.Inv) :
    (Res.st self).Inv := by
  unfold Res.st
  with_reducible repeat' first | assumption

theorem retA_inv (s : State) (r : ℕ × ℕ) (h1 : s.Inv) :
    (retA s r).All (fun r => r.st.Inv) := by
  unfold retA
  with_reducible repeat' first | assumption | apply QR.All | apply QR.All_ok

theorem alu3_inv (base : ℕ) (f : Vals → ℕ × ℕ) :
    (alu3 base f).Ok := by
  intro n s v h
  unfold alu3
  with_reducible repeat' first | assumption | apply QR.All | apply retA_inv

theorem alu2_inv (base : ℕ) (sizes : List ℕ) (dw : ℕ → ℕ) (f : Vals → ℕ × ℕ) :
    (alu2 base sizes dw f).Ok := by
  intro n s v h
  unfold alu2
  with_reducible repeat' first | assumption | apply QR.All | apply retA_inv

theorem branch_inv (s : State) (fl : ℕ) (taken : Bool) (v : Vals) (h1 : s.Inv) :
    (branch s fl taken v).All (fun r => r.st.Inv) := by
  unfold branch
  with_reducible repeat' first | assumption | apply QR.All | apply QR.All_ok

theorem cmpBranch_inv (base : ℕ) (p : ℕ → ℕ → ℕ → Bool) :
    (cmpBranch base p).Ok := by
  intro n s v h
  unfold cmpBranch
  with_reducible repeat' first | assumption | apply QR.All | apply branch_inv

theorem bitBranch_inv (base : ℕ) (want : Bool) :
    (bitBranch base want).Ok := by
  intro n s v h
  unfold bitBranch
  with_reducible repeat' first | assumption | apply QR.All | apply branch_inv

theorem iNop_inv :
    iNop.Ok := by
  intro n s v h
  unfold iNop
  with_reducible repeat' first | assumption | apply QR.All | apply QR.All_ok

theorem iMov_inv :
    iMov.Ok := by
  unfold iMov
  exact alu2_inv _ _ _ _

theorem iSext_inv :
    iSext.Ok := by
  unfold iSext
  exact alu2_inv _ _ _ _

theorem iZext_inv :
    iZext.Ok := by
  unfold iZext
  exact alu2_inv _ _ _ _

theorem Ea.address_inv (e : Ea) (s : State) (h1 : s.Inv) :
    (Ea.address e s).1.Inv := by
  unfold Ea.address
  with_reducible repeat' first | assumption | apply State.tickFree_inv | split

theorem iLea_inv :
    iLea.Ok := by
  intro n s v h
  unfold iLea
  with_reducible repeat' first | assumption | apply QR.All | apply QR.All_ok | apply Ea.address_inv

theorem iBswap_inv :
    iBswap.Ok := by
  unfold iBswap
  exact alu2_inv _ _ _ _

theorem iAdd_inv :
    iAdd.Ok := by
  unfold iAdd
  exact alu3_inv _ _

theorem iAdc_inv :
    iAdc.Ok := by
  unfold iAdc
  exact alu3_inv _ _

theorem iSub_inv :
    iSub.Ok := by
  unfold iSub
  exact alu3_inv _ _

theorem iSbb_inv :
    iSbb.Ok := by
  unfold iSbb
  exact alu3_inv _ _

theorem iNeg_inv :
    iNeg.Ok := by
  unfold iNeg
  exact alu2_inv _ _ _ _

theorem iMul_inv :
    iMul.Ok := by
  unfold iMul
  exact alu3_inv _ _

theorem iMulhu_inv :
    iMulhu.Ok := by
  unfold iMulhu
  exact alu3_inv _ _

theorem iMulhs_inv :
    iMulhs.Ok := by
  unfold iMulhs
  exact alu3_inv _ _

theorem iMac_inv :
    iMac.Ok := by
  intro n s v h
  unfold iMac
  with_reducible repeat' first | assumption | apply QR.All | apply retA_inv

theorem iAnd_inv :
    iAnd.Ok := by
  unfold iAnd
  exact alu3_inv _ _

theorem iOr_inv :
    iOr.Ok := by
  unfold iOr
  exact alu3_inv _ _

theorem iXor_inv :
    iXor.Ok := by
  unfold iXor
  exact alu3_inv _ _

theorem iAndn_inv :
    iAndn.Ok := by
  unfold iAndn
  exact alu3_inv _ _

theorem iNot_inv :
    iNot.Ok := by
  unfold iNot
  exact alu2_inv _ _ _ _

theorem iShl_inv :
    iShl.Ok := by
  unfold iShl
  exact alu3_inv _ _

theorem iShr_inv :
    iShr.Ok := by
  unfold iShr
  exact alu3_inv _ _

theorem iSar_inv :
    iSar.Ok := by
  unfold iSar
  exact alu3_inv _ _

theorem iRol_inv :
    iRol.Ok := by
  unfold iRol
  exact alu3_inv _ _

theorem iRor_inv :
    iRor.Ok := by
  unfold iRor
  exact alu3_inv _ _

theorem fieldOp_inv (base : ℕ) (k : ℕ → OpKind) (f : Vals → ℕ) :
    (fieldOp base k f).Ok := by
  intro n s v h
  unfold fieldOp
  with_reducible repeat' first | assumption | apply QR.All | apply retA_inv

theorem iBfx_inv :
    iBfx.Ok := by
  unfold iBfx
  exact fieldOp_inv _ _ _

theorem iBfxs_inv :
    iBfxs.Ok := by
  unfold iBfxs
  exact fieldOp_inv _ _ _

theorem iBfi_inv :
    iBfi.Ok := by
  unfold iBfi
  exact fieldOp_inv _ _ _

theorem iBset_inv :
    iBset.Ok := by
  unfold iBset
  exact alu3_inv _ _

theorem iBclr_inv :
    iBclr.Ok := by
  unfold iBclr
  exact alu3_inv _ _

theorem iBeq_inv :
    iBeq.Ok := by
  unfold iBeq
  exact cmpBranch_inv _ _

theorem iBne_inv :
    iBne.Ok := by
  unfold iBne
  exact cmpBranch_inv _ _

theorem iBlt_inv :
    iBlt.Ok := by
  unfold iBlt
  exact cmpBranch_inv _ _

theorem iBge_inv :
    iBge.Ok := by
  unfold iBge
  exact cmpBranch_inv _ _

theorem iBltu_inv :
    iBltu.Ok := by
  unfold iBltu
  exact cmpBranch_inv _ _

theorem iBgeu_inv :
    iBgeu.Ok := by
  unfold iBgeu
  exact cmpBranch_inv _ _

theorem iBbs_inv :
    iBbs.Ok := by
  unfold iBbs
  exact bitBranch_inv _ _

theorem iBbc_inv :
    iBbc.Ok := by
  unfold iBbc
  exact bitBranch_inv _ _

theorem iJmp_inv :
    iJmp.Ok := by
  intro n s v h
  unfold iJmp
  with_reducible repeat' first | assumption | apply QR.All | apply QR.All_ok

theorem iBf_inv :
    iBf.Ok := by
  intro n s v h
  unfold iBf
  with_reducible repeat' first | assumption | apply QR.All | apply QR.All_ok

theorem iDjnz_inv :
    iDjnz.Ok := by
  intro n s v h
  unfold iDjnz
  with_reducible repeat' first | assumption | apply QR.All | apply QR.All_ok

theorem State.spWord_inv (s : State) (n : ℕ) (a : ℕ) (h1 : s.Inv) :
    (State.spWord s n a).All (fun r => r.1.Inv) := by
  unfold State.spWord
  with_reducible repeat' first | assumption | apply QR.All | apply QR.All_bind | apply State.spRead_inv | apply QR.All_ok | intro _

theorem callBody_inv (n : ℕ) (s : State) (v : Vals) (h1 : s.Inv) :
    (callBody n s v).All (fun r => r.st.Inv) := by
  unfold callBody
  with_reducible repeat' first | assumption | apply QR.All | apply QR.All_bind | apply State.spWord_inv | apply QR.All_ok | apply State.spWrite_inv | intro _

theorem iCall_inv :
    iCall.Ok := by
  intro n s v h
  unfold iCall
  with_reducible repeat' first | assumption | apply QR.All | apply callBody_inv

theorem stackCheck_inv (n : ℕ) (base : ℕ) (s : State) (h1 : s.Inv) :
    (stackCheck n base s).All State.Inv := by
  unfold stackCheck
  with_reducible repeat' first | assumption | apply QR.All | apply QR.All_ok | apply QR.All_bind | apply State.spWord_inv | apply QR.All_failed | intro _ | split

theorem retBody_inv (n : ℕ) (s : State) (a2 : Vals) (h1 : s.Inv) :
    (retBody n s a2).All (fun r => r.st.Inv) := by
  unfold retBody
  with_reducible repeat' first | assumption | apply QR.All | apply QR.All_bind | apply State.spWord_inv | apply State.spRead_inv | apply QR.All_ok | apply State.spWrite_inv | intro _

theorem iRet_inv :
    iRet.Ok := by
  intro n s v h
  unfold iRet
  with_reducible repeat' first | assumption | apply QR.All | apply retBody_inv

theorem iTrap_inv :
    iTrap.Ok := by
  intro n s v h
  unfold iTrap
  with_reducible repeat' first | assumption | apply QR.All | apply QR.All_failed

theorem iRett_inv :
    iRett.Ok := by
  intro n s v h
  unfold iRett
  with_reducible repeat' first | assumption | apply QR.All | apply QR.All_bind | apply State.spRead_inv | apply QR.All_ok | intro _

theorem iCrc32_inv :
    iCrc32.Ok := by
  intro n s v h
  unfold iCrc32
  with_reducible repeat' first | assumption | apply QR.All | apply retA_inv

theorem crc16Bytes_inv (n : ℕ) (t : ℕ) (ix : ℕ → ℕ → ℕ) (mix : ℕ → ℕ → ℕ) (a4 : List ℕ) (a5 : State) (a6 : ℕ) (h1 : a5.Inv) :
    (crc16Bytes n t ix mix a4 a5 a6).All (fun r => r.1.Inv) := by
  fun_induction crc16Bytes n t ix mix a4 a5 a6
  all_goals with_reducible repeat' first | assumption | apply QR.All | apply QR.All_ok | apply QR.All_failed | apply QR.All_bind | apply State.spRead_inv | apply_assumption

theorem crc16Instr_inv (base : ℕ) (ix : ℕ → ℕ → ℕ) (mix : ℕ → ℕ → ℕ) :
    (crc16Instr base ix mix).Ok := by
  intro n s v h
  unfold crc16Instr
  repeat' (first | with_reducible assumption | with_reducible apply crc16Bytes_inv | with_reducible apply retA_inv | with_reducible apply State.Inv_ite | with_reducible apply State.Inv_foldl | with_reducible apply State.Inv_ite_fst | with_reducible apply State.Inv_foldl_fst | (with_reducible apply State.Inv_of_pair; · assumption) | (with_reducible apply State.Inv_of_pair'; · assumption) | with_reducible apply QR.All_bind | with_reducible apply QR.All_ok | with_reducible apply QR.All_failed | with_reducible apply QR.All_wait | with_reducible apply QR.All_waitFor | (with_reducible apply QR.Inv_fault; · assumption) | (with_reducible apply QR.Inv_wait; · assumption) | (with_reducible apply QR.Inv_ok; · assumption) | (with_reducible apply QR.Inv_pair; · assumption) | (with_reducible apply QR.Inv_fst; · assumption) | (with_reducible apply QR.Inv_res; · assumption) | (with_reducible apply Landed.Inv_performed; · assumption) | with_reducible apply Landed.Inv_ite | with_reducible apply Landed.Inv_mk | with_reducible apply Landed.Inv_dropped | intro _ | dsimp only | split)

theorem iCrc16r_inv :
    iCrc16r.Ok := by
  unfold iCrc16r
  exact crc16Instr_inv _ _ _

theorem iCrc16n_inv :
    iCrc16n.Ok := by
  unfold iCrc16n
  exact crc16Instr_inv _ _ _

theorem iCsum_inv :
    iCsum.Ok := by
  intro n s v h
  unfold iCsum
  repeat' (first | with_reducible assumption | with_reducible apply retA_inv | with_reducible apply State.Inv_ite | with_reducible apply State.Inv_foldl | with_reducible apply State.Inv_ite_fst | with_reducible apply State.Inv_foldl_fst | (with_reducible apply State.Inv_of_pair; · assumption) | (with_reducible apply State.Inv_of_pair'; · assumption) | with_reducible apply QR.All_bind | with_reducible apply QR.All_ok | with_reducible apply QR.All_failed | with_reducible apply QR.All_wait | with_reducible apply QR.All_waitFor | (with_reducible apply QR.Inv_fault; · assumption) | (with_reducible apply QR.Inv_wait; · assumption) | (with_reducible apply QR.Inv_ok; · assumption) | (with_reducible apply QR.Inv_pair; · assumption) | (with_reducible apply QR.Inv_fst; · assumption) | (with_reducible apply QR.Inv_res; · assumption) | (with_reducible apply Landed.Inv_performed; · assumption) | with_reducible apply Landed.Inv_ite | with_reducible apply Landed.Inv_mk | with_reducible apply Landed.Inv_dropped | intro _ | dsimp only | split)

theorem iRep_inv :
    iRep.Ok := by
  intro n s v h
  unfold iRep
  repeat' (first | with_reducible assumption | with_reducible apply State.Inv_ite | with_reducible apply State.Inv_foldl | with_reducible apply State.Inv_ite_fst | with_reducible apply State.Inv_foldl_fst | (with_reducible apply State.Inv_of_pair; · assumption) | (with_reducible apply State.Inv_of_pair'; · assumption) | with_reducible apply QR.All_bind | with_reducible apply QR.All_ok | with_reducible apply QR.All_failed | with_reducible apply QR.All_wait | with_reducible apply QR.All_waitFor | (with_reducible apply QR.Inv_fault; · assumption) | (with_reducible apply QR.Inv_wait; · assumption) | (with_reducible apply QR.Inv_ok; · assumption) | (with_reducible apply QR.Inv_pair; · assumption) | (with_reducible apply QR.Inv_fst; · assumption) | (with_reducible apply QR.Inv_res; · assumption) | (with_reducible apply Landed.Inv_performed; · assumption) | with_reducible apply Landed.Inv_ite | with_reducible apply Landed.Inv_mk | with_reducible apply Landed.Inv_dropped | intro _ | dsimp only | split)

theorem iRepi_inv :
    iRepi.Ok := by
  intro n s v h
  unfold iRepi
  repeat' (first | with_reducible assumption | with_reducible apply State.Inv_ite | with_reducible apply State.Inv_foldl | with_reducible apply State.Inv_ite_fst | with_reducible apply State.Inv_foldl_fst | (with_reducible apply State.Inv_of_pair; · assumption) | (with_reducible apply State.Inv_of_pair'; · assumption) | with_reducible apply QR.All_bind | with_reducible apply QR.All_ok | with_reducible apply QR.All_failed | with_reducible apply QR.All_wait | with_reducible apply QR.All_waitFor | (with_reducible apply QR.Inv_fault; · assumption) | (with_reducible apply QR.Inv_wait; · assumption) | (with_reducible apply QR.Inv_ok; · assumption) | (with_reducible apply QR.Inv_pair; · assumption) | (with_reducible apply QR.Inv_fst; · assumption) | (with_reducible apply QR.Inv_res; · assumption) | (with_reducible apply Landed.Inv_performed; · assumption) | with_reducible apply Landed.Inv_ite | with_reducible apply Landed.Inv_mk | with_reducible apply Landed.Inv_dropped | intro _ | dsimp only | split)

theorem iRepiSaved_inv :
    iRepiSaved.Ok := by
  intro n s v h
  unfold iRepiSaved
  repeat' (first | with_reducible assumption | with_reducible apply State.spRead_inv | with_reducible apply State.Inv_ite | with_reducible apply State.Inv_foldl | with_reducible apply State.Inv_ite_fst | with_reducible apply State.Inv_foldl_fst | (with_reducible apply State.Inv_of_pair; · assumption) | (with_reducible apply State.Inv_of_pair'; · assumption) | with_reducible apply QR.All_bind | with_reducible apply QR.All_ok | with_reducible apply QR.All_failed | with_reducible apply QR.All_wait | with_reducible apply QR.All_waitFor | (with_reducible apply QR.Inv_fault; · assumption) | (with_reducible apply QR.Inv_wait; · assumption) | (with_reducible apply QR.Inv_ok; · assumption) | (with_reducible apply QR.Inv_pair; · assumption) | (with_reducible apply QR.Inv_fst; · assumption) | (with_reducible apply QR.Inv_res; · assumption) | (with_reducible apply Landed.Inv_performed; · assumption) | with_reducible apply Landed.Inv_ite | with_reducible apply Landed.Inv_mk | with_reducible apply Landed.Inv_dropped | intro _ | dsimp only | split)

theorem fqpushBody_inv (a0 : ℕ) (s : State) (v : Vals) (h1 : s.Inv) :
    (fqpushBody a0 s v).All (fun r => r.st.Inv) := by
  unfold fqpushBody
  with_reducible repeat' first | assumption | apply QR.All | apply QR.All_ok | apply State.fqPush_inv | intro _ | dsimp only | split

theorem iFqpush_inv :
    iFqpush.Ok := by
  intro n s v h
  unfold iFqpush
  repeat' (first | with_reducible assumption | with_reducible apply fqpushBody_inv | with_reducible apply State.Inv_ite | with_reducible apply State.Inv_foldl | with_reducible apply State.Inv_ite_fst | with_reducible apply State.Inv_foldl_fst | (with_reducible apply State.Inv_of_pair; · assumption) | (with_reducible apply State.Inv_of_pair'; · assumption) | with_reducible apply QR.All_bind | with_reducible apply QR.All_ok | with_reducible apply QR.All_failed | with_reducible apply QR.All_wait | with_reducible apply QR.All_waitFor | (with_reducible apply QR.Inv_fault; · assumption) | (with_reducible apply QR.Inv_wait; · assumption) | (with_reducible apply QR.Inv_ok; · assumption) | (with_reducible apply QR.Inv_pair; · assumption) | (with_reducible apply QR.Inv_fst; · assumption) | (with_reducible apply QR.Inv_res; · assumption) | (with_reducible apply Landed.Inv_performed; · assumption) | with_reducible apply Landed.Inv_ite | with_reducible apply Landed.Inv_mk | with_reducible apply Landed.Inv_dropped | intro _ | dsimp only | split)

theorem fqpopBody_inv (a0 : ℕ) (s : State) (v : Vals) (h1 : s.Inv) :
    (fqpopBody a0 s v).All (fun r => r.st.Inv) := by
  unfold fqpopBody
  with_reducible repeat' first | assumption | apply QR.All | apply QR.All_ok | apply State.fqPop_inv | intro _ | dsimp only | split

theorem iFqpop_inv :
    iFqpop.Ok := by
  intro n s v h
  unfold iFqpop
  repeat' (first | with_reducible assumption | with_reducible apply fqpopBody_inv | with_reducible apply State.Inv_ite | with_reducible apply State.Inv_foldl | with_reducible apply State.Inv_ite_fst | with_reducible apply State.Inv_foldl_fst | (with_reducible apply State.Inv_of_pair; · assumption) | (with_reducible apply State.Inv_of_pair'; · assumption) | with_reducible apply QR.All_bind | with_reducible apply QR.All_ok | with_reducible apply QR.All_failed | with_reducible apply QR.All_wait | with_reducible apply QR.All_waitFor | (with_reducible apply QR.Inv_fault; · assumption) | (with_reducible apply QR.Inv_wait; · assumption) | (with_reducible apply QR.Inv_ok; · assumption) | (with_reducible apply QR.Inv_pair; · assumption) | (with_reducible apply QR.Inv_fst; · assumption) | (with_reducible apply QR.Inv_res; · assumption) | (with_reducible apply Landed.Inv_performed; · assumption) | with_reducible apply Landed.Inv_ite | with_reducible apply Landed.Inv_mk | with_reducible apply Landed.Inv_dropped | intro _ | dsimp only | split)

theorem iFqpkt_inv :
    iFqpkt.Ok := by
  intro n s v h
  unfold iFqpkt
  repeat' (first | with_reducible assumption | with_reducible apply retA_inv | with_reducible apply State.Inv_ite | with_reducible apply State.Inv_foldl | with_reducible apply State.Inv_ite_fst | with_reducible apply State.Inv_foldl_fst | (with_reducible apply State.Inv_of_pair; · assumption) | (with_reducible apply State.Inv_of_pair'; · assumption) | with_reducible apply QR.All_bind | with_reducible apply QR.All_ok | with_reducible apply QR.All_failed | with_reducible apply QR.All_wait | with_reducible apply QR.All_waitFor | (with_reducible apply QR.Inv_fault; · assumption) | (with_reducible apply QR.Inv_wait; · assumption) | (with_reducible apply QR.Inv_ok; · assumption) | (with_reducible apply QR.Inv_pair; · assumption) | (with_reducible apply QR.Inv_fst; · assumption) | (with_reducible apply QR.Inv_res; · assumption) | (with_reducible apply Landed.Inv_performed; · assumption) | with_reducible apply Landed.Inv_ite | with_reducible apply Landed.Inv_mk | with_reducible apply Landed.Inv_dropped | intro _ | dsimp only | split)

theorem snextBody_inv (n : ℕ) (s : State) (v : Vals) (h1 : s.Inv) :
    (snextBody n s v).All (fun r => r.st.Inv) := by
  unfold snextBody
  with_reducible repeat' first | assumption | apply QR.All | apply QR.All_wait | apply State.setQe_inv | apply State.fqSkip_inv | apply QR.All_ok | intro _ | dsimp only | split

theorem iSnext_inv :
    iSnext.Ok := by
  intro n s v h
  unfold iSnext
  repeat' (first | with_reducible assumption | with_reducible apply snextBody_inv | with_reducible apply State.Inv_ite | with_reducible apply State.Inv_foldl | with_reducible apply State.Inv_ite_fst | with_reducible apply State.Inv_foldl_fst | (with_reducible apply State.Inv_of_pair; · assumption) | (with_reducible apply State.Inv_of_pair'; · assumption) | with_reducible apply QR.All_bind | with_reducible apply QR.All_ok | with_reducible apply QR.All_failed | with_reducible apply QR.All_wait | with_reducible apply QR.All_waitFor | (with_reducible apply QR.Inv_fault; · assumption) | (with_reducible apply QR.Inv_wait; · assumption) | (with_reducible apply QR.Inv_ok; · assumption) | (with_reducible apply QR.Inv_pair; · assumption) | (with_reducible apply QR.Inv_fst; · assumption) | (with_reducible apply QR.Inv_res; · assumption) | (with_reducible apply Landed.Inv_performed; · assumption) | with_reducible apply Landed.Inv_ite | with_reducible apply Landed.Inv_mk | with_reducible apply Landed.Inv_dropped | intro _ | dsimp only | split)

theorem scloseBody_inv (n : ℕ) (s : State) (v : Vals) (h1 : s.Inv) :
    (scloseBody n s v).All (fun r => r.st.Inv) := by
  unfold scloseBody
  with_reducible repeat' first | assumption | apply QR.All | apply QR.All_ok | apply State.fqPush_inv | apply State.setQe_inv | apply QR.All_waitFor | intro _ | dsimp only | split

theorem iSclose_inv :
    iSclose.Ok := by
  intro n s v h
  unfold iSclose
  repeat' (first | with_reducible assumption | with_reducible apply scloseBody_inv | with_reducible apply State.Inv_ite | with_reducible apply State.Inv_foldl | with_reducible apply State.Inv_ite_fst | with_reducible apply State.Inv_foldl_fst | (with_reducible apply State.Inv_of_pair; · assumption) | (with_reducible apply State.Inv_of_pair'; · assumption) | with_reducible apply QR.All_bind | with_reducible apply QR.All_ok | with_reducible apply QR.All_failed | with_reducible apply QR.All_wait | with_reducible apply QR.All_waitFor | (with_reducible apply QR.Inv_fault; · assumption) | (with_reducible apply QR.Inv_wait; · assumption) | (with_reducible apply QR.Inv_ok; · assumption) | (with_reducible apply QR.Inv_pair; · assumption) | (with_reducible apply QR.Inv_fst; · assumption) | (with_reducible apply QR.Inv_res; · assumption) | (with_reducible apply Landed.Inv_performed; · assumption) | with_reducible apply Landed.Inv_ite | with_reducible apply Landed.Inv_mk | with_reducible apply Landed.Inv_dropped | intro _ | dsimp only | split)

theorem iSstat_inv :
    iSstat.Ok := by
  intro n s v h
  unfold iSstat
  repeat' (first | with_reducible assumption | with_reducible apply retA_inv | with_reducible apply State.Inv_ite | with_reducible apply State.Inv_foldl | with_reducible apply State.Inv_ite_fst | with_reducible apply State.Inv_foldl_fst | (with_reducible apply State.Inv_of_pair; · assumption) | (with_reducible apply State.Inv_of_pair'; · assumption) | with_reducible apply QR.All_bind | with_reducible apply QR.All_ok | with_reducible apply QR.All_failed | with_reducible apply QR.All_wait | with_reducible apply QR.All_waitFor | (with_reducible apply QR.Inv_fault; · assumption) | (with_reducible apply QR.Inv_wait; · assumption) | (with_reducible apply QR.Inv_ok; · assumption) | (with_reducible apply QR.Inv_pair; · assumption) | (with_reducible apply QR.Inv_fst; · assumption) | (with_reducible apply QR.Inv_res; · assumption) | (with_reducible apply Landed.Inv_performed; · assumption) | with_reducible apply Landed.Inv_ite | with_reducible apply Landed.Inv_mk | with_reducible apply Landed.Inv_dropped | intro _ | dsimp only | split)

theorem waiteDone_inv (s : State) (v : Vals) (e : ℕ) (h1 : s.Inv) :
    (waiteDone s v e).All (fun r => r.st.Inv) := by
  unfold waiteDone
  with_reducible repeat' first | assumption | apply QR.All | apply QR.All_ok

theorem waiteBody_inv (n : ℕ) (s : State) (v : Vals) (h1 : s.Inv) :
    (waiteBody n s v).All (fun r => r.st.Inv) := by
  unfold waiteBody
  with_reducible repeat' first | assumption | apply QR.All | apply waiteDone_inv | apply State.clearEv_inv | apply QR.All_waitFor | intro _ | dsimp only | split

theorem iWaite_inv :
    iWaite.Ok := by
  intro n s v h
  unfold iWaite
  repeat' (first | with_reducible assumption | with_reducible apply waiteBody_inv | with_reducible apply State.Inv_ite | with_reducible apply State.Inv_foldl | with_reducible apply State.Inv_ite_fst | with_reducible apply State.Inv_foldl_fst | (with_reducible apply State.Inv_of_pair; · assumption) | (with_reducible apply State.Inv_of_pair'; · assumption) | with_reducible apply QR.All_bind | with_reducible apply QR.All_ok | with_reducible apply QR.All_failed | with_reducible apply QR.All_wait | with_reducible apply QR.All_waitFor | (with_reducible apply QR.Inv_fault; · assumption) | (with_reducible apply QR.Inv_wait; · assumption) | (with_reducible apply QR.Inv_ok; · assumption) | (with_reducible apply QR.Inv_pair; · assumption) | (with_reducible apply QR.Inv_fst; · assumption) | (with_reducible apply QR.Inv_res; · assumption) | (with_reducible apply Landed.Inv_performed; · assumption) | with_reducible apply Landed.Inv_ite | with_reducible apply Landed.Inv_mk | with_reducible apply Landed.Inv_dropped | intro _ | dsimp only | split)

theorem iWaiteTimeout_inv :
    iWaiteTimeout.Ok := by
  intro n s v h
  exact waiteDone_inv _ _ _ h

theorem iWaitt_inv :
    iWaitt.Ok := by
  intro n s v h
  unfold iWaitt
  repeat' (first | with_reducible assumption | with_reducible apply State.Inv_ite | with_reducible apply State.Inv_foldl | with_reducible apply State.Inv_ite_fst | with_reducible apply State.Inv_foldl_fst | (with_reducible apply State.Inv_of_pair; · assumption) | (with_reducible apply State.Inv_of_pair'; · assumption) | with_reducible apply QR.All_bind | with_reducible apply QR.All_ok | with_reducible apply QR.All_failed | with_reducible apply QR.All_wait | with_reducible apply QR.All_waitFor | (with_reducible apply QR.Inv_fault; · assumption) | (with_reducible apply QR.Inv_wait; · assumption) | (with_reducible apply QR.Inv_ok; · assumption) | (with_reducible apply QR.Inv_pair; · assumption) | (with_reducible apply QR.Inv_fst; · assumption) | (with_reducible apply QR.Inv_res; · assumption) | (with_reducible apply Landed.Inv_performed; · assumption) | with_reducible apply Landed.Inv_ite | with_reducible apply Landed.Inv_mk | with_reducible apply Landed.Inv_dropped | intro _ | dsimp only | split)

theorem iYield_inv :
    iYield.Ok := by
  intro n s v h
  unfold iYield
  repeat' (first | with_reducible assumption | with_reducible apply State.Inv_ite | with_reducible apply State.Inv_foldl | with_reducible apply State.Inv_ite_fst | with_reducible apply State.Inv_foldl_fst | (with_reducible apply State.Inv_of_pair; · assumption) | (with_reducible apply State.Inv_of_pair'; · assumption) | with_reducible apply QR.All_bind | with_reducible apply QR.All_ok | with_reducible apply QR.All_failed | with_reducible apply QR.All_wait | with_reducible apply QR.All_waitFor | (with_reducible apply QR.Inv_fault; · assumption) | (with_reducible apply QR.Inv_wait; · assumption) | (with_reducible apply QR.Inv_ok; · assumption) | (with_reducible apply QR.Inv_pair; · assumption) | (with_reducible apply QR.Inv_fst; · assumption) | (with_reducible apply QR.Inv_res; · assumption) | (with_reducible apply Landed.Inv_performed; · assumption) | with_reducible apply Landed.Inv_ite | with_reducible apply Landed.Inv_mk | with_reducible apply Landed.Inv_dropped | intro _ | dsimp only | split)

theorem iSwap_inv :
    iSwap.Ok := by
  intro n s v h
  unfold iSwap
  repeat' (first | with_reducible assumption | with_reducible apply State.Inv_ite | with_reducible apply State.Inv_foldl | with_reducible apply State.Inv_ite_fst | with_reducible apply State.Inv_foldl_fst | (with_reducible apply State.Inv_of_pair; · assumption) | (with_reducible apply State.Inv_of_pair'; · assumption) | with_reducible apply QR.All_bind | with_reducible apply QR.All_ok | with_reducible apply QR.All_failed | with_reducible apply QR.All_wait | with_reducible apply QR.All_waitFor | (with_reducible apply QR.Inv_fault; · assumption) | (with_reducible apply QR.Inv_wait; · assumption) | (with_reducible apply QR.Inv_ok; · assumption) | (with_reducible apply QR.Inv_pair; · assumption) | (with_reducible apply QR.Inv_fst; · assumption) | (with_reducible apply QR.Inv_res; · assumption) | (with_reducible apply Landed.Inv_performed; · assumption) | with_reducible apply Landed.Inv_ite | with_reducible apply Landed.Inv_mk | with_reducible apply Landed.Inv_dropped | intro _ | dsimp only | split)

theorem iTas_inv :
    iTas.Ok := by
  intro n s v h
  unfold iTas
  repeat' (first | with_reducible assumption | with_reducible apply State.Inv_ite | with_reducible apply State.Inv_foldl | with_reducible apply State.Inv_ite_fst | with_reducible apply State.Inv_foldl_fst | (with_reducible apply State.Inv_of_pair; · assumption) | (with_reducible apply State.Inv_of_pair'; · assumption) | with_reducible apply QR.All_bind | with_reducible apply QR.All_ok | with_reducible apply QR.All_failed | with_reducible apply QR.All_wait | with_reducible apply QR.All_waitFor | (with_reducible apply QR.Inv_fault; · assumption) | (with_reducible apply QR.Inv_wait; · assumption) | (with_reducible apply QR.Inv_ok; · assumption) | (with_reducible apply QR.Inv_pair; · assumption) | (with_reducible apply QR.Inv_fst; · assumption) | (with_reducible apply QR.Inv_res; · assumption) | (with_reducible apply Landed.Inv_performed; · assumption) | with_reducible apply Landed.Inv_ite | with_reducible apply Landed.Inv_mk | with_reducible apply Landed.Inv_dropped | intro _ | dsimp only | split)

theorem iCas_inv :
    iCas.Ok := by
  intro n s v h
  unfold iCas
  repeat' (first | with_reducible assumption | with_reducible apply State.Inv_ite | with_reducible apply State.Inv_foldl | with_reducible apply State.Inv_ite_fst | with_reducible apply State.Inv_foldl_fst | (with_reducible apply State.Inv_of_pair; · assumption) | (with_reducible apply State.Inv_of_pair'; · assumption) | with_reducible apply QR.All_bind | with_reducible apply QR.All_ok | with_reducible apply QR.All_failed | with_reducible apply QR.All_wait | with_reducible apply QR.All_waitFor | (with_reducible apply QR.Inv_fault; · assumption) | (with_reducible apply QR.Inv_wait; · assumption) | (with_reducible apply QR.Inv_ok; · assumption) | (with_reducible apply QR.Inv_pair; · assumption) | (with_reducible apply QR.Inv_fst; · assumption) | (with_reducible apply QR.Inv_res; · assumption) | (with_reducible apply Landed.Inv_performed; · assumption) | with_reducible apply Landed.Inv_ite | with_reducible apply Landed.Inv_mk | with_reducible apply Landed.Inv_dropped | intro _ | dsimp only | split)

theorem State.scopeReset_inv (s : State) (scope : ℕ) (i : ℕ) (h1 : s.Inv) :
    (State.scopeReset s scope i).Inv := by
  unfold State.scopeReset
  with_reducible repeat' first | assumption | apply State.resetReq_inv | apply State.berthReset_inv | apply State.setReg_inv | apply State.portReset_inv | split

theorem scopeBody_inv (a0 : ℕ) (s : State) (v : Vals) (h1 : s.Inv) :
    (scopeBody a0 s v).All (fun r => r.st.Inv) := by
  unfold scopeBody
  with_reducible repeat' first | assumption | apply QR.All | apply QR.All_ok | apply State.scopeReset_inv | split

theorem iScope_inv :
    iScope.Ok := by
  intro n s v h
  unfold iScope
  repeat' (first | with_reducible assumption | with_reducible apply scopeBody_inv | with_reducible apply State.Inv_ite | with_reducible apply State.Inv_foldl | with_reducible apply State.Inv_ite_fst | with_reducible apply State.Inv_foldl_fst | (with_reducible apply State.Inv_of_pair; · assumption) | (with_reducible apply State.Inv_of_pair'; · assumption) | with_reducible apply QR.All_bind | with_reducible apply QR.All_ok | with_reducible apply QR.All_failed | with_reducible apply QR.All_wait | with_reducible apply QR.All_waitFor | (with_reducible apply QR.Inv_fault; · assumption) | (with_reducible apply QR.Inv_wait; · assumption) | (with_reducible apply QR.Inv_ok; · assumption) | (with_reducible apply QR.Inv_pair; · assumption) | (with_reducible apply QR.Inv_fst; · assumption) | (with_reducible apply QR.Inv_res; · assumption) | (with_reducible apply Landed.Inv_performed; · assumption) | with_reducible apply Landed.Inv_ite | with_reducible apply Landed.Inv_mk | with_reducible apply Landed.Inv_dropped | intro _ | dsimp only | split)

theorem iLogev_inv :
    iLogev.Ok := by
  intro n s v h
  unfold iLogev
  repeat' (first | with_reducible assumption | with_reducible apply State.logEv_inv | with_reducible apply State.Inv_ite | with_reducible apply State.Inv_foldl | with_reducible apply State.Inv_ite_fst | with_reducible apply State.Inv_foldl_fst | (with_reducible apply State.Inv_of_pair; · assumption) | (with_reducible apply State.Inv_of_pair'; · assumption) | with_reducible apply QR.All_bind | with_reducible apply QR.All_ok | with_reducible apply QR.All_failed | with_reducible apply QR.All_wait | with_reducible apply QR.All_waitFor | (with_reducible apply QR.Inv_fault; · assumption) | (with_reducible apply QR.Inv_wait; · assumption) | (with_reducible apply QR.Inv_ok; · assumption) | (with_reducible apply QR.Inv_pair; · assumption) | (with_reducible apply QR.Inv_fst; · assumption) | (with_reducible apply QR.Inv_res; · assumption) | (with_reducible apply Landed.Inv_performed; · assumption) | with_reducible apply Landed.Inv_ite | with_reducible apply Landed.Inv_mk | with_reducible apply Landed.Inv_dropped | intro _ | dsimp only | split)

theorem iIfence_inv :
    iIfence.Ok := by
  intro n s v h
  unfold iIfence
  repeat' (first | with_reducible assumption | with_reducible apply State.Inv_ite | with_reducible apply State.Inv_foldl | with_reducible apply State.Inv_ite_fst | with_reducible apply State.Inv_foldl_fst | (with_reducible apply State.Inv_of_pair; · assumption) | (with_reducible apply State.Inv_of_pair'; · assumption) | with_reducible apply QR.All_bind | with_reducible apply QR.All_ok | with_reducible apply QR.All_failed | with_reducible apply QR.All_wait | with_reducible apply QR.All_waitFor | (with_reducible apply QR.Inv_fault; · assumption) | (with_reducible apply QR.Inv_wait; · assumption) | (with_reducible apply QR.Inv_ok; · assumption) | (with_reducible apply QR.Inv_pair; · assumption) | (with_reducible apply QR.Inv_fst; · assumption) | (with_reducible apply QR.Inv_res; · assumption) | (with_reducible apply Landed.Inv_performed; · assumption) | with_reducible apply Landed.Inv_ite | with_reducible apply Landed.Inv_mk | with_reducible apply Landed.Inv_dropped | intro _ | dsimp only | split)

theorem qTable_inv : ∀ i ∈ qTable, i.Ok := by
  intro i h
  simp only [qTable, List.cons_append, List.nil_append, List.mem_cons, List.not_mem_nil, or_false] at h
  rcases h with rfl | rfl | rfl | rfl | rfl | rfl | rfl | rfl | rfl | rfl | rfl | rfl | rfl | rfl | rfl | rfl | rfl | rfl | rfl | rfl | rfl | rfl | rfl | rfl | rfl | rfl | rfl | rfl | rfl | rfl | rfl | rfl | rfl | rfl | rfl | rfl | rfl | rfl | rfl | rfl | rfl | rfl | rfl | rfl | rfl | rfl | rfl | rfl | rfl | rfl | rfl | rfl | rfl | rfl | rfl | rfl | rfl | rfl | rfl | rfl | rfl | rfl | rfl | rfl | rfl | rfl
  · exact iNop_inv
  · exact iMov_inv
  · exact iSext_inv
  · exact iZext_inv
  · exact iLea_inv
  · exact iBswap_inv
  · exact iAdd_inv
  · exact iAdc_inv
  · exact iSub_inv
  · exact iSbb_inv
  · exact iNeg_inv
  · exact iMul_inv
  · exact iMulhu_inv
  · exact iMulhs_inv
  · exact iMac_inv
  · exact iAnd_inv
  · exact iOr_inv
  · exact iXor_inv
  · exact iAndn_inv
  · exact iNot_inv
  · exact iShl_inv
  · exact iShr_inv
  · exact iSar_inv
  · exact iRol_inv
  · exact iRor_inv
  · exact iBfx_inv
  · exact iBfxs_inv
  · exact iBfi_inv
  · exact iBset_inv
  · exact iBclr_inv
  · exact iBeq_inv
  · exact iBne_inv
  · exact iBlt_inv
  · exact iBge_inv
  · exact iBltu_inv
  · exact iBgeu_inv
  · exact iBbs_inv
  · exact iBbc_inv
  · exact iJmp_inv
  · exact iBf_inv
  · exact iDjnz_inv
  · exact iCall_inv
  · exact iRet_inv
  · exact iTrap_inv
  · exact iRett_inv
  · exact iCrc32_inv
  · exact iCrc16r_inv
  · exact iCrc16n_inv
  · exact iCsum_inv
  · exact iRep_inv
  · exact iRepi_inv
  · exact iFqpush_inv
  · exact iFqpop_inv
  · exact iFqpkt_inv
  · exact iSnext_inv
  · exact iSclose_inv
  · exact iSstat_inv
  · exact iWaite_inv
  · exact iWaitt_inv
  · exact iYield_inv
  · exact iSwap_inv
  · exact iTas_inv
  · exact iCas_inv
  · exact iScope_inv
  · exact iLogev_inv
  · exact iIfence_inv

theorem qLookup_inv (n : ℕ) (base : ℕ) :
    ∀ i, qLookup n base = some i → i.Ok := by
  intro i e
  unfold qLookup at e
  split at e
  · cases e
  · exact qTable_inv i (List.mem_of_find?_eq_some e)

theorem State.readOp_inv (s : State) (s0 : State) (n : ℕ) (k : OpKind) (e : Ea) (h1 : s.Inv) (h2 : s0.Inv) :
    (State.readOp s s0 n k e).All (fun r => r.1.Inv) := by
  unfold State.readOp
  with_reducible repeat' first | assumption | apply QR.All | apply QR.All_ok | apply State.readEa_inv | split

theorem State.readStatus_inv (s : State) (n : ℕ) (base : ℕ) (h1 : s.Inv) : (State.readStatus s n base).All State.Inv := by
  unfold State.readStatus
  split
  · exact QR.All_bind (State.spRead_inv _ _ _ _ h1) fun r hr => hr
  · exact h1

theorem State.readAll_inv (s0 : State) (n : ℕ) (i : QInstr) (w : ℕ) (next : ℕ) (h1 : s0.Inv) :
    (State.readAll s0 n i w next).All (fun o => o.st.Inv) := by
  unfold State.readAll
  repeat' (first | with_reducible assumption | with_reducible apply QR.giveBack_inv | with_reducible apply State.readStatus_inv | with_reducible apply State.formOp_inv | with_reducible apply stackCheck_inv | with_reducible apply State.readOp_inv | with_reducible apply Res.st_inv | with_reducible apply State.rxCommit_inv | with_reducible apply State.setQflags_inv | with_reducible apply State.commitWrites_inv | with_reducible apply State.Inv_ite | with_reducible apply State.Inv_foldl | with_reducible apply State.Inv_ite_fst | with_reducible apply State.Inv_foldl_fst | (with_reducible apply State.Inv_of_pair; · assumption) | (with_reducible apply State.Inv_of_pair'; · assumption) | with_reducible apply QR.All_bind | with_reducible apply QR.All_ok | with_reducible apply QR.All_failed | with_reducible apply QR.All_wait | with_reducible apply QR.All_waitFor | (with_reducible apply QR.Inv_fault; · assumption) | (with_reducible apply QR.Inv_wait; · assumption) | (with_reducible apply QR.Inv_ok; · assumption) | (with_reducible apply QR.Inv_pair; · assumption) | (with_reducible apply QR.Inv_fst; · assumption) | (with_reducible apply QR.Inv_res; · assumption) | (with_reducible apply Landed.Inv_performed; · assumption) | with_reducible apply Landed.Inv_ite | with_reducible apply Landed.Inv_mk | with_reducible apply Landed.Inv_dropped | intro _ | dsimp only | split)

theorem State.commitAll_inv (s0 : State) (n : ℕ) (i : QInstr) (o : OpsIn) (r : Res) (h1 : s0.Inv) (h3 : o.st.Inv) (h2 : r.st.Inv) :
    (State.commitAll s0 n i o r).All (fun r => r.st.Inv) := by
  unfold State.commitAll
  repeat' (first | with_reducible assumption | with_reducible apply State.formOp_inv | with_reducible apply stackCheck_inv | with_reducible apply State.readOp_inv | with_reducible apply Res.st_inv | with_reducible apply State.rxCommit_inv | with_reducible apply State.setQflags_inv | with_reducible apply State.commitWrites_inv | with_reducible apply State.Inv_ite | with_reducible apply State.Inv_foldl | with_reducible apply State.Inv_ite_fst | with_reducible apply State.Inv_foldl_fst | (with_reducible apply State.Inv_of_pair; · assumption) | (with_reducible apply State.Inv_of_pair'; · assumption) | with_reducible apply QR.All_bind | with_reducible apply QR.All_ok | with_reducible apply QR.All_failed | with_reducible apply QR.All_wait | with_reducible apply QR.All_waitFor | (with_reducible apply QR.Inv_fault; · assumption) | (with_reducible apply QR.Inv_wait; · assumption) | (with_reducible apply QR.Inv_ok; · assumption) | (with_reducible apply QR.Inv_pair; · assumption) | (with_reducible apply QR.Inv_fst; · assumption) | (with_reducible apply QR.Inv_res; · assumption) | (with_reducible apply Landed.Inv_performed; · assumption) | with_reducible apply Landed.Inv_ite | with_reducible apply Landed.Inv_mk | with_reducible apply Landed.Inv_dropped | intro _ | dsimp only | split)

theorem State.runInstr_inv (s0 : State) (n : ℕ) (i : QInstr) (w : ℕ) (next : ℕ) (h1 : s0.Inv) (h2 : i.Ok) :
    (State.runInstr s0 n i w next).All (fun r => r.st.Inv) := by
  unfold State.runInstr
  exact QR.All_bind (State.readAll_inv s0 n i w next h1) fun o ho => QR.giveBack_inv _ _ _ _ (QR.All_bind (h2 n o.st o.v ho) fun r hr =>
    State.commitAll_inv s0 n i o r h1 ho hr)

theorem State.beginWait_inv (s : State) (n : ℕ) (w : QWait) (h1 : s.Inv) :
    (State.beginWait s n w).Inv := by
  unfold State.beginWait
  with_reducible repeat' first | assumption | apply State.setQe_inv

theorem State.qeFault_inv (s : State) (n : ℕ) (cause : ℕ) (addr : ℕ) (word : ℕ) (fetch : Bool) (h1 : s.Inv) :
    (State.qeFault s n cause addr word fetch).Inv := by
  unfold State.qeFault
  with_reducible repeat' first | assumption | apply State.stepDone_inv | apply State.trapEntry_inv

theorem State.qeRetire_inv (s : State) (n : ℕ) (pc : ℕ) (pass : Bool) (h1 : s.Inv) :
    (State.qeRetire s n pc pass).Inv := by
  unfold State.qeRetire
  with_reducible repeat' first | assumption | apply State.stepDone_inv | apply State.setQe_inv

theorem State.qeFetch_inv (s : State) (n : ℕ) (pc : ℕ) (h1 : s.Inv) :
    (State.qeFetch s n pc).All (fun r => r.1.Inv) := by
  unfold State.qeFetch
  with_reducible repeat' first | assumption | apply QR.All | apply QR.All_failed | apply State.memGet_inv | apply QR.All_ok | (apply State.Inv_of_pair; · assumption) | split

theorem breakpoint_inv (n : ℕ) (s : State) (h1 : s.Inv) :
    (breakpoint n s).Inv := by
  unfold breakpoint
  with_reducible repeat' first | assumption | apply State.trapEntry_inv | apply State.qeHalt_inv | apply State.qeFault_inv | apply State.qeFetch_inv | apply State.Inv_ite | (apply QR.Inv_pair; · assumption) | (apply QR.Inv_fault; · assumption) | intro _ | dsimp only | split

theorem State.qeDo_inv (s : State) (n : ℕ) (i : QInstr) (h1 : s.Inv) (h2 : i.Ok) :
    (State.qeDo s n i).Inv := by
  unfold State.qeDo
  have hf := State.qeFetch_inv s n (s.qeOf n).pc h1
  extract_lets pc
  split <;> rename_i e <;> rw [show s.qeFetch n (s.qeOf n).pc = s.qeFetch n pc from rfl, e] at hf
  · exact State.qeFault_inv _ _ _ _ _ _ hf
  · exact hf
  · exact h1
  · have hr := fun w => State.runInstr_inv _ n i w (pc + 1) hf h2
    split <;> rename_i e
    · exact State.qeRetire_inv _ _ _ _ (QR.Inv_res e (hr _))
    · exact State.qeFault_inv _ _ _ _ _ _ (QR.Inv_fault e (hr _))
    · exact QR.Inv_wait e (hr _)
    · exact State.beginWait_inv _ _ _ hf

theorem State.qeEmu_inv (s : State) (n : ℕ) (h1 : s.Inv) :
    (State.qeEmu s n).Inv := by
  unfold State.qeEmu
  with_reducible repeat' first | assumption | apply State.qeFault_inv | apply State.qeFetch_inv | (apply QR.Inv_pair; · assumption) | (apply QR.Inv_fault; · assumption) | split

theorem State.inIter_inv (s : State) (n : Nat) (r : RepSt) (h1 : s.Inv) :
    (State.inIter s n r).Inv := by
  unfold State.inIter
  with_reducible repeat' first | assumption | apply State.setQe_inv | apply State.Inv_ite

theorem State.outIter_inv (s : State) (n : Nat) (r : RepSt) (h1 : s.Inv) :
    (State.outIter s n r).Inv := by
  unfold State.outIter
  with_reducible repeat' first | assumption | apply State.setQe_inv | apply State.Inv_ite

theorem State.repIter_inv (s : State) (n : Nat) (h1 : s.Inv) :
    (State.repIter s n).1.Inv := by
  unfold State.repIter
  split
  · exact h1
  · split
    · exact h1
    · next r _ _ i e =>
      extract_lets pc
      have hr := State.runInstr_inv (s.inIter n r) n i r.word (pc + 2) (State.inIter_inv _ _ _ h1) (qLookup_inv _ _ _ e)
      split <;> rename_i e <;> rw [e] at hr
      · split
        · exact State.qeRetire_inv _ _ _ _ hr
        · exact State.setQe_inv _ _ _ hr
      · exact State.qeFault_inv _ _ _ _ _ _ (State.outIter_inv _ _ _ hr)
      · exact State.outIter_inv _ _ _ hr
      · exact State.beginWait_inv _ _ _ h1

theorem repAll_inv (a0 : ℕ) (a1 : ℕ) (a2 : State) (h1 : a2.Inv) :
    (repAll a0 a1 a2).Inv := by
  fun_induction repAll a0 a1 a2
  all_goals with_reducible repeat' first | assumption | apply State.repIter_inv | (apply State.Inv_of_pair; · assumption) | apply_assumption

theorem State.repGo_inv (s : State) (n : ℕ) (h1 : s.Inv) :
    (State.repGo s n).Inv := by
  unfold State.repGo
  split
  · exact h1
  · exact State.Inv_ite (fun _ => State.Inv_ite (fun _ => State.repIter_inv _ _ h1) fun _ => State.stepDone_inv _ _ (State.repIter_inv _ _ h1))
      fun _ => repAll_inv _ _ _ h1

theorem State.qePrefix_inv (s : State) (n : ℕ) (int : Bool) (h1 : s.Inv) :
    (State.qePrefix s n int).Inv := by
  have key : ∀ i w, i.Ok → ∀ u : State, u.Inv → ∀ w2, (match u.runInstr n i w ((s.qeOf n).pc + 1) with
      | .fault s c a => s.qeFault n c a w false
      | .wait s => s
      | .waitFor q => u.beginWait n q
      | .ok r =>
        if r.count = 0 then r.st.qeRetire n ((s.qeOf n).pc + 2) false
        else (r.st.setQe n { r.st.qeOf n with rep := some ⟨int, r.count, w2⟩, wait := .none }).repGo n).Inv := by
    intro i w hi u hu w2
    have hr := State.runInstr_inv u n i w ((s.qeOf n).pc + 1) hu hi
    split <;> rename_i e <;> rw [e] at hr
    · exact State.qeFault_inv _ _ _ _ _ _ hr
    · exact hr
    · exact State.beginWait_inv _ _ _ hu
    · exact State.Inv_ite (fun _ => State.qeRetire_inv _ _ _ _ hr) fun _ => State.repGo_inv _ _ (State.setQe_inv _ _ _ hr)
  unfold State.qePrefix
  refine State.Inv_ite (fun _ => State.repGo_inv _ _ (State.setQe_inv _ _ _ h1)) fun _ => ?_
  extract_lets pc i
  have hi : i.Ok := by
    show QInstr.Ok (if _ then _ else if _ then _ else _)
    split
    · exact iRep_inv
    · split
      · exact iRepiSaved_inv
      · exact iRepi_inv
  have hf := State.qeFetch_inv s n pc h1
  split <;> rename_i e <;> rw [e] at hf
  · exact State.qeFault_inv _ _ _ _ _ _ hf
  · exact hf
  · exact h1
  · refine State.Inv_ite (fun _ => State.qeFault_inv _ _ _ _ _ _ hf) fun _ => ?_
    have hg := State.qeFetch_inv _ n (pc + 1) hf
    split <;> rename_i e <;> rw [e] at hg
    · exact State.qeFault_inv _ _ _ _ _ _ hg
    · exact hg
    · exact hf
    · exact State.Inv_ite (fun _ => State.qeFault_inv _ _ _ _ _ _ hg) fun _ => key i _ hi _ hg _

theorem State.qeAny_inv (s : State) (n : ℕ) (h1 : s.Inv) :
    (State.qeAny s n).Inv := by
  unfold State.qeAny
  refine State.Inv_ite (fun _ => State.qePrefix_inv _ _ _ h1) fun _ => State.Inv_ite (fun _ => State.qePrefix_inv _ _ _ h1) fun _ => ?_
  split
  · next e => exact State.qeDo_inv _ _ _ h1 (qLookup_inv _ _ _ e)
  · exact State.qeEmu_inv _ _ h1

theorem qeRow_inv (i : QInstr) (n : ℕ) (s : State) (h1 : i.Ok) (h2 : s.Inv) :
    (qeRow i n s).Inv := by
  unfold qeRow
  with_reducible repeat' first | assumption | apply h1 | apply QInstr.Ok | apply State.qeDo_inv | apply State.Inv_ite | intro _

theorem qePrefixRow_inv (int : Bool) (n : ℕ) (s : State) (h1 : s.Inv) :
    (qePrefixRow int n s).Inv := by
  unfold qePrefixRow
  exact State.Inv_ite (fun _ => State.qePrefix_inv _ _ _ h1) fun _ => h1

theorem emu_inv (n : ℕ) (s : State) (h1 : s.Inv) :
    (emu n s).Inv := by
  unfold emu
  with_reducible repeat' first | assumption | apply State.qeEmu_inv | apply State.Inv_ite | intro _

theorem streamWaitEnd_inv (n : ℕ) (s : State) (h1 : s.Inv) :
    (streamWaitEnd n s).Inv := by
  unfold streamWaitEnd
  with_reducible repeat' first | assumption | apply State.qeAny_inv | apply State.setQe_inv | apply State.Inv_ite | intro _

theorem waiteComplete_inv (n : ℕ) (s : State) (h1 : s.Inv) :
    (waiteComplete n s).Inv := by
  unfold waiteComplete
  with_reducible repeat' first | assumption | apply State.qeDo_inv | apply iWaite_inv | apply State.Inv_ite | intro _ | split

theorem waiteTimeout_inv (n : ℕ) (s : State) (h1 : s.Inv) :
    (waiteTimeout n s).Inv := by
  unfold waiteTimeout
  with_reducible repeat' first | assumption | apply State.qeDo_inv | apply iWaiteTimeout_inv | apply State.Inv_ite | intro _ | split

theorem waittComplete_inv (n : ℕ) (s : State) (h1 : s.Inv) :
    (waittComplete n s).Inv := by
  unfold waittComplete
  with_reducible repeat' first | assumption | apply State.qeDo_inv | apply iWaitt_inv | apply State.Inv_ite | intro _ | split

/-! ## DmaXfer -/

/-- The state that a piece of a transfer leaves has canonical tables. -/
def DmaR.All {α : Type} (x : DmaR α) : Prop := x.state.Inv

theorem DmaR.All_bind {α β : Type} {x : DmaR α} {f : State → α → DmaR β} (h : x.All) (hf : ∀ t a, t.Inv → (f t a).All) :
    (x.bind f).All := by cases x <;> first | exact hf _ _ h | exact h
theorem DmaR.All_ok {α : Type} {t : State} {v : α} (h : t.Inv) : (DmaR.ok t v).All := h
theorem DmaR.All_halt {α : Type} {t : State} (h : t.Inv) : (DmaR.halt t : DmaR α).All := h
theorem DmaR.All_stop {α : Type} {t : State} (h : t.Inv) : (DmaR.stop t : DmaR α).All := h
theorem DmaR.Inv_ok {α : Type} {x : DmaR α} {t : State} {v : α} (e : x = .ok t v) (h : x.All) : t.Inv := by subst e; exact h
theorem DmaR.Inv_halt {α : Type} {x : DmaR α} {t : State} (e : x = .halt t) (h : x.All) : t.Inv := by subst e; exact h
theorem DmaR.Inv_stop {α : Type} {x : DmaR α} {t : State} (e : x = .stop t) (h : x.All) : t.Inv := by subst e; exact h

theorem State.stallWho_inv (s0 : State) (s : State) (who : Initiator) (a : ℕ) (h1 : s0.Inv) (h2 : s.Inv) :
    (State.stallWho s0 s who a).Inv := by
  unfold State.stallWho
  with_reducible repeat' first | assumption | apply State.modCw_inv | apply State.Inv_ite | intro _ | split

theorem DmaR.state_inv {α : Type} (a1 : DmaR α) (h1 : a1.All) :
    (DmaR.state a1).Inv := by
  exact h1

theorem State.dmaGet_inv (s : State) (s0 : State) (n : ℕ) (fixed : Bool) (a : ℕ) (k : ℕ) (h1 : s.Inv) (h2 : s0.Inv) :
    (State.dmaGet s s0 n fixed a k).All := by
  unfold State.dmaGet
  with_reducible repeat' first | assumption | apply DmaR.All | apply DmaR.All_ok | apply State.busRead_inv | apply DmaR.All_halt | apply State.dmaHalt_inv | apply DmaR.All_stop | apply State.stallWho_inv | (apply State.Inv_of_pair; · assumption) | split

theorem State.dmaGets_inv (s : State) (s0 : State) (n : ℕ) (fixed : Bool) (a4 : List (ℕ × ℕ)) (h1 : s.Inv) (h2 : s0.Inv) :
    (State.dmaGets s s0 n fixed a4).All := by
  fun_induction State.dmaGets s s0 n fixed a4
  all_goals with_reducible repeat' first | assumption | apply DmaR.All | apply DmaR.All_ok | apply DmaR.All_bind | apply State.dmaGet_inv | intro _ | apply_assumption

theorem State.dmaPuts_inv (s : State) (s0 : State) (n : ℕ) (fixed : Bool) (a4 : List (ℕ × List ℕ)) (h1 : s.Inv) (h2 : s0.Inv) :
    (State.dmaPuts s s0 n fixed a4).All := by
  fun_induction State.dmaPuts s s0 n fixed a4
  all_goals with_reducible repeat' first | assumption | apply DmaR.All | apply DmaR.All_ok | apply DmaR.All_halt | apply State.dmaHalt_inv | apply State.busWrite_inv | apply DmaR.All_stop | apply State.stallWho_inv | (apply State.Inv_of_pair; · assumption) | apply_assumption

theorem State.dmaSkip_inv (s : State) (n : ℕ) (h1 : s.Inv) :
    (State.dmaSkip s n).1.Inv := by
  unfold State.dmaSkip
  with_reducible repeat' first | assumption | apply State.setDma_inv | apply State.fqSkip_inv | apply State.Inv_ite_fst | intro _ | split

theorem descriptorFetch_inv (n : Nat) (s : State) (h1 : s.Inv) :
    (descriptorFetch n s).Inv := by
  unfold descriptorFetch
  with_reducible repeat' first | assumption | apply DmaR.state_inv | apply DmaR.All_bind | apply State.dmaGets_inv | apply DmaR.All | apply DmaR.All_ok | apply State.setDma_inv | apply State.clrB_inv | apply State.count_inv | apply DmaR.All_halt | apply State.dmaHalt_inv | apply State.Inv_ite | intro _ | dsimp only | split

theorem State.dmaFilled_inv (s : State) (n k : ℕ) (f : Option (ℕ × ℕ)) (h1 : s.Inv) : (State.dmaFilled s n k f).Inv := State.setDma_inv _ _ _ h1

theorem State.dmaKeep_inv (s : State) (n : ℕ) (b : DmaBeat) (h1 : s.Inv) : (State.dmaKeep s n b).Inv := State.setDma_inv _ _ _ h1

theorem State.dmaFill_inv (s : State) (n : ℕ) (a2 : List DmaPart) (h1 : s.Inv) : (State.dmaFill s n a2).Inv := by
  fun_induction State.dmaFill s n a2
  all_goals with_reducible repeat' first | assumption | apply State.dmaFilled_inv | apply State.dmaKeep_inv | apply State.busRead_inv | (apply State.Inv_of_pair; · assumption) | apply_assumption

theorem State.dmaFillQ_inv (s : State) (n : ℕ) (a2 : ℕ) (h1 : s.Inv) : (State.dmaFillQ s n a2).Inv := by
  fun_induction State.dmaFillQ s n a2
  all_goals with_reducible repeat' first | assumption | apply State.dmaFilled_inv | apply State.dmaKeep_inv | apply State.setDma_inv | apply State.fqPop_inv | apply_assumption

theorem State.dmaPutOne_inv (s : State) (n : ℕ) (h1 : s.Inv) : (State.dmaPutOne s n).Inv := State.setDma_inv _ _ _ h1

theorem State.dmaEmpty_inv (s : State) (n : ℕ) (a2 : List (ℕ × List ℕ)) (h1 : s.Inv) : (State.dmaEmpty s n a2).1.Inv := by
  fun_induction State.dmaEmpty s n a2
  all_goals with_reducible repeat' first | assumption | apply State.dmaHalt_inv | apply State.dmaPutOne_inv | apply State.busWrite_inv | apply State.Inv_ite | (apply State.Inv_of_pair; · assumption) | intro _ | apply_assumption

theorem State.dmaEmptyQ_inv (s : State) (n : ℕ) (a2 : List (List ℕ)) (h1 : s.Inv) : (State.dmaEmptyQ s n a2).1.Inv := by
  fun_induction State.dmaEmptyQ s n a2
  all_goals with_reducible repeat' first | assumption | apply State.fqPush_inv | apply State.setDma_inv | apply_assumption

theorem State.dmaDrain_inv (s : State) (n : ℕ) (h1 : s.Inv) : (State.dmaDrain s n).1.Inv := by
  unfold State.dmaDrain
  with_reducible repeat' first | assumption | apply State.dmaEmptyQ_inv | apply State.dmaEmpty_inv | apply State.Inv_ite_fst | intro _ | dsimp only

theorem State.dmaPad_inv (s : State) (n : ℕ) (h1 : s.Inv) : (State.dmaPad s n).Inv := by
  unfold State.dmaPad
  exact State.Inv_ite (fun _ => State.tickFree_inv _ h1) fun _ => h1

theorem State.dmaEnd_inv (s : State) (n : ℕ) (h1 : s.Inv) : (State.dmaEnd s n).Inv := by
  unfold State.dmaEnd
  with_reducible repeat' first | assumption | apply State.dmaHalt_inv | apply State.setDma_inv | apply State.dmaPad_inv | split | dsimp only

theorem State.dmaRead_inv (s : State) (n : ℕ) (h1 : s.Inv) : (State.dmaRead s n).Inv := by
  unfold State.dmaRead
  with_reducible repeat' first | assumption | apply State.dmaFill_inv | apply State.dmaFillQ_inv | apply State.Inv_ite | intro _ | dsimp only

theorem State.dmaSegment_inv (s : State) (n : ℕ) (h1 : s.Inv) : (State.dmaSegment s n).Inv := by
  unfold State.dmaSegment
  with_reducible repeat' first | assumption | apply State.dmaEnd_inv | apply State.dmaDrain_inv | apply State.dmaRead_inv | apply State.setDma_inv | apply State.Inv_ite | (apply State.Inv_of_pair; · assumption) | intro _ | dsimp only | split

theorem segmentTransfer_inv (n : Nat) (s : State) (h1 : s.Inv) :
    (segmentTransfer n s).Inv := by
  unfold segmentTransfer
  with_reducible repeat' first | assumption | apply State.dmaSkip_inv | apply State.dmaSegment_inv | apply State.dmaTake_inv | apply State.Inv_ite | (apply State.Inv_of_pair; · assumption) | intro _ | dsimp only | split

theorem State.dmaExcess_inv (s : State) (n : ℕ) (h1 : s.Inv) :
    (State.dmaExcess s n).1.Inv := by
  unfold State.dmaExcess
  with_reducible repeat' first | assumption | apply State.setDma_inv | apply State.fqPop_inv | apply State.fqSkip_inv | apply State.Inv_ite_fst | intro _ | split

theorem State.dmaClose_inv (s : State) (n : ℕ) (h1 : s.Inv) :
    (State.dmaClose s n).1.Inv := by
  unfold State.dmaClose
  with_reducible repeat' first | assumption | apply State.fqPush_inv | apply State.setDma_inv | apply State.Inv_ite_fst | intro _

theorem State.dmaDone_inv (s : State) (n : ℕ) (late : Bool) (h1 : s.Inv) :
    (State.dmaDone s n late).Inv := by
  unfold State.dmaDone
  with_reducible repeat' first | assumption | apply State.setIf_inv | apply State.setB_inv | apply State.putF_inv | apply State.setDma_inv | apply State.raiseDmaw_inv | apply State.dmaHalt_inv | apply State.dmaAbort_inv | apply descriptorFetch_inv | apply State.setReg_inv | apply State.Inv_ite | intro _

theorem descriptorComplete_inv (n : ℕ) (late : Bool) (s : State) (h1 : s.Inv) :
    (descriptorComplete n late s).Inv := by
  unfold descriptorComplete
  with_reducible repeat' first | assumption | apply State.dmaExcess_inv | apply State.dmaClose_inv | apply State.dmaDone_inv | apply State.dmaPuts_inv | apply DmaR.state_inv | apply State.Inv_ite | (apply State.Inv_of_pair; · assumption) | (apply DmaR.Inv_ok; · assumption) | intro _ | split

end Sys2Proof.Machine
end

