-- ==== Sys2Proof/Laws/CanonHm.lean ====
section
/-! SUPPORT. Every operation of the harbourmaster and the boot ROM keeps the tables of the state in canonical form. -/
namespace Sys2Proof.Machine

/-! ## HmImage -/

theorem State.slotRead_inv (s : State) (i : Nat) (h1 : s.Inv) :
    (State.slotRead s i).Inv := by
  unfold State.slotRead
  with_reducible repeat' first | assumption | apply State.mramRead_inv

theorem State.dirRead_inv (s : State) (h1 : s.Inv) :
    (State.dirRead s).Inv := by
  unfold State.dirRead
  with_reducible repeat' first | assumption | apply State.mramRead_inv

theorem State.slotPut_inv (s : State) (i : Nat) (head : List Nat) (st : Nat) (h1 : s.Inv) :
    (State.slotPut s i head st).Inv := by
  unfold State.slotPut
  dsimp only
  with_reducible repeat' first | assumption | apply State.mramStore_inv

theorem State.slotStore_inv (s : State) (i : Nat) (img : List Nat) (h1 : s.Inv) :
    (State.slotStore s i img).1.Inv := by
  unfold State.slotStore
  dsimp only
  with_reducible repeat' first | assumption | apply State.dirRead_inv | apply State.mramStore_inv | apply State.mramRead_inv | apply State.slotPut_inv | apply State.Inv_ite_fst | intro _ | split

theorem State.slotErase_inv (s : State) (i : ℕ) (a : ℕ) (h1 : s.Inv) :
    (State.slotErase s i a).Inv := by
  unfold State.slotErase
  with_reducible repeat' first | assumption | apply State.slotPut_inv

theorem State.busBytes_inv (s : State) (a : ℕ) (a2 : ℕ) (h1 : s.Inv) :
    (State.busBytes s a a2).1.Inv := by
  fun_induction State.busBytes s a a2
  all_goals with_reducible repeat' first | assumption | apply State.busRead_inv | (apply State.Inv_of_pair; · assumption) | apply_assumption

theorem State.hmRead_inv (s : State) (a : Nat) (n : Nat) (h1 : s.Inv) :
    (State.hmRead s a n).1.Inv := by
  unfold State.hmRead
  refine State.Inv_ite_fst (fun _ => ?_) fun _ => State.busBytes_inv _ _ _ h1
  split <;> exact State.Inv_of_pair (by assumption) (State.busReadAll_inv _ _ _ _ h1)

theorem State.window7_inv (s : State) (r : ImgReq) (h1 : s.Inv) :
    (State.window7 s r).Inv := by
  unfold State.window7
  with_reducible repeat' first | assumption | apply State.regWrite_inv

theorem State.imgRead_inv (s : State) (r : ImgReq) (a : Nat) (off : Nat) (n : Nat) (ext : Option (List Nat)) (h1 : s.Inv) :
    (State.imgRead s r a off n ext).1.Inv := by
  unfold State.imgRead
  with_reducible repeat' first | assumption | apply State.hmRead_inv | apply State.Inv_ite | apply State.Inv_ite_fst | intro _

theorem State.imgFetch_inv (s : State) (use : ImgUse) (r : ImgReq) (ext : Option (List Nat)) (h1 : s.Inv) :
    (State.imgFetch s use r ext).1.Inv := by
  unfold State.imgFetch
  with_reducible repeat' first | assumption | apply State.slotRead_inv | apply State.window7_inv | apply State.imgRead_inv | apply State.Inv_ite | apply State.Inv_ite_fst | (apply State.Inv_of_pair; · assumption) | intro _ | dsimp only | split

theorem State.placeAll_inv (s : State) (a0 : Nat) (a1 : List (Nat × List Nat)) (h1 : s.Inv) :
    (State.placeAll s a0 a1).1.Inv := by
  fun_induction State.placeAll s a0 a1
  all_goals with_reducible repeat' first | assumption | apply State.busWriteAll_inv | (apply State.Inv_of_pair; · assumption) | apply_assumption

theorem State.placeCode_inv (s : State) (m : List ℕ) (body : List ℕ) (a3 : List ℕ) (h1 : s.Inv) :
    (State.placeCode s m body a3).1.Inv := by
  fun_induction State.placeCode s m body a3
  all_goals with_reducible repeat' first | assumption | apply State.placeAll_inv | apply State.regWrite_inv | apply State.Inv_ite | (apply State.Inv_of_pair; · assumption) | intro _ | apply_assumption

theorem State.placePilot_inv (s : State) (m : List ℕ) (body : List ℕ) (a3 : List ℕ) (h1 : s.Inv) :
    (State.placePilot s m body a3).1.Inv := by
  fun_induction State.placePilot s m body a3
  all_goals with_reducible repeat' first | assumption | apply State.placeAll_inv | (apply State.Inv_of_pair; · assumption) | apply_assumption

theorem State.placeBank_inv (s : State) (m : List ℕ) (body : List ℕ) (h1 : s.Inv) :
    (State.placeBank s m body).1.Inv := by
  unfold State.placeBank
  with_reducible repeat' first | assumption | apply State.placeAll_inv | apply State.regWrite_inv | (apply State.Inv_of_pair; · assumption) | intro _ | dsimp only | split

theorem State.placeStow_inv (s : State) (a1 : ℕ) (a2 : List StowRec) (h1 : s.Inv) :
    (State.placeStow s a1 a2).1.Inv := by
  fun_induction State.placeStow s a1 a2
  all_goals with_reducible repeat' first | assumption | apply State.placeAll_inv | apply commitEnd_inv | apply State.commitStart_inv | apply State.setReg_inv | (apply State.Inv_of_pair; · assumption) | apply_assumption

theorem State.placeConfig_inv (s : State) (a1 : ℕ) (a2 : List (ℕ × ℕ)) (h1 : s.Inv) :
    (State.placeConfig s a1 a2).1.Inv := by
  fun_induction State.placeConfig s a1 a2
  all_goals with_reducible repeat' first | assumption | apply State.busWrite_inv | (apply State.Inv_of_pair; · assumption) | apply_assumption

theorem State.imgPut_inv (s : State) (b : List Nat) (h1 : s.Inv) :
    (State.imgPut s b).1.Inv := by
  unfold State.imgPut
  with_reducible repeat' first | assumption | apply State.take_inv | apply State.placeCode_inv | apply State.placePilot_inv | apply State.placeBank_inv | apply State.placeStow_inv | apply State.placeConfig_inv | apply State.Inv_ite | apply State.Inv_ite_fst | dsimp only | split

/-! ## HmCmd -/

/-- A command keeps the tables in canonical form. -/
def CmdSpec.Ok (c : CmdSpec) : Prop := ∀ s r, s.Inv → (c.run s r).1.Inv

theorem State.hmW_inv (s : State) (a : ℕ) (v : ℕ) (h1 : s.Inv) :
    (State.hmW s a v).Inv := by
  unfold State.hmW
  with_reducible repeat' first | assumption | apply State.regWrite_inv

theorem State.hmR_inv (s : State) (a : ℕ) (h1 : s.Inv) :
    (State.hmR s a).1.Inv := by
  unfold State.hmR
  with_reducible repeat' first | assumption | apply State.regRead_inv

theorem State.hmRs_inv (s : State) (a1 : List ℕ) (h1 : s.Inv) :
    (State.hmRs s a1).1.Inv := by
  fun_induction State.hmRs s a1
  all_goals with_reducible repeat' first | assumption | apply State.hmR_inv | (apply State.Inv_of_pair; · assumption) | apply_assumption

theorem State.mbPost_inv (s : State) (m : ℕ) (code : ℕ) (tag : ℕ) (flags : ℕ) (a : Answer) (h1 : s.Inv) :
    (State.mbPost s m code tag flags a).Inv := by
  unfold State.mbPost
  with_reducible repeat' first | assumption | apply State.hmW_inv | apply State.Inv_ite | apply State.Inv_foldl | intro _

theorem State.setLong_inv (s : State) (l : LongCmd) (h1 : s.Inv) :
    (State.setLong s l).Inv := by
  unfold State.setLong
  with_reducible repeat' first | assumption | apply State.modHm_inv

theorem State.endLong_inv (s : State) (l : LongCmd) (a : Answer) (h1 : s.Inv) :
    (State.endLong s l a).Inv := by
  unfold State.endLong
  with_reducible repeat' first | assumption | apply State.mbPost_inv | apply State.modHm_inv

theorem State.take_inv (s : State) (m : ℕ) (h1 : s.Inv) :
    (State.take s m).Inv := by
  unfold State.take
  with_reducible repeat' first | assumption | apply State.hmW_inv | apply State.Inv_mk

theorem hmCommand_inv (m : ℕ) (code : ℕ) (c : CmdSpec) (s : State) (h1 : c.Ok) (h2 : s.Inv) :
    (hmCommand m code c s).Inv := by
  unfold hmCommand
  repeat' (first | with_reducible assumption | apply h1 | with_reducible apply State.take_inv | with_reducible apply State.mbPost_inv | with_reducible apply State.Inv_ite | with_reducible apply State.Inv_foldl | with_reducible apply State.Inv_ite_fst | with_reducible apply State.Inv_foldl_fst | (with_reducible apply State.Inv_of_pair; · assumption) | (with_reducible apply State.Inv_of_pair'; · assumption) | with_reducible apply QR.All_bind | with_reducible apply QR.All_ok | with_reducible apply QR.All_failed | with_reducible apply QR.All_wait | with_reducible apply QR.All_waitFor | (with_reducible apply QR.Inv_fault; · assumption) | (with_reducible apply QR.Inv_wait; · assumption) | (with_reducible apply QR.Inv_ok; · assumption) | (with_reducible apply QR.Inv_pair; · assumption) | (with_reducible apply QR.Inv_fst; · assumption) | (with_reducible apply QR.Inv_res; · assumption) | with_reducible apply DmaR.All_bind | with_reducible apply DmaR.All_ok | with_reducible apply DmaR.All_halt | with_reducible apply DmaR.All_stop | (with_reducible apply DmaR.Inv_ok; · assumption) | (with_reducible apply DmaR.Inv_halt; · assumption) | (with_reducible apply DmaR.Inv_stop; · assumption) | (with_reducible apply Landed.Inv_performed; · assumption) | with_reducible apply Landed.Inv_ite | with_reducible apply Landed.Inv_mk | with_reducible apply Landed.Inv_dropped | intro _ | dsimp only | split)

theorem State.addLong_inv (s : State) (r : Req) (f : LongCmd → LongCmd) (h1 : s.Inv) :
    (State.addLong s r f).Inv := by
  unfold State.addLong
  with_reducible repeat' first | assumption | apply State.modHm_inv

theorem now_inv (s : State) (a : Answer) (h1 : s.Inv) :
    (now s a).1.Inv := by
  unfold now
  with_reducible repeat' first | assumption

theorem State.cmdWrites_inv (s : State) (a1 : List (ℕ × ℕ × ℕ)) (h1 : s.Inv) :
    (State.cmdWrites s a1).1.Inv := by
  fun_induction State.cmdWrites s a1
  all_goals with_reducible repeat' first | assumption | apply State.regWrite_inv | (apply State.Inv_of_pair; · assumption) | apply_assumption

theorem State.writesThen_inv (s : State) (l : List (ℕ × ℕ × ℕ)) (f : State → State × Option Answer) (h1 : s.Inv) (h2 : ∀ x0, x0.Inv → (f x0).1.Inv) :
    (State.writesThen s l f).1.Inv := by
  unfold State.writesThen
  with_reducible repeat' first | assumption | apply h2 | apply State.cmdWrites_inv | (apply State.Inv_of_pair; · assumption) | split

theorem okEmpty_inv (s : State) (h1 : s.Inv) :
    (okEmpty s).1.Inv := by
  unfold okEmpty
  with_reducible repeat' first | assumption | apply now_inv

theorem cIdentify_inv :
    cIdentify.Ok := by
  intro s r h
  unfold cIdentify
  with_reducible repeat' first | assumption | apply now_inv

theorem cEcho_inv :
    cEcho.Ok := by
  intro s r h
  unfold cEcho
  with_reducible repeat' first | assumption | apply now_inv

theorem State.resetBerth_inv (s : State) (r : Req) (b : Nat) (h1 : s.Inv) :
    (State.resetBerth s r b).1.Inv := by
  unfold State.resetBerth
  with_reducible repeat' first | assumption | apply berthResetEnd_inv | apply State.scopeReset_inv | apply State.addLong_inv | apply okEmpty_inv | apply State.Inv_ite | apply State.Inv_ite_fst | intro _

theorem cReset_inv :
    cReset.Ok := by
  intro s r h
  unfold cReset
  dsimp only
  with_reducible repeat' first | assumption | apply State.resetBerth_inv | apply okEmpty_inv | apply State.modHm_inv | apply State.scopeReset_inv | apply portResetEnd_inv | split

theorem cSecuritySet_inv :
    cSecuritySet.Ok := by
  intro s r h
  exact okEmpty_inv _ (State.Inv_ite (fun _ => h) fun _ => State.Inv_mk h)

theorem imgGoOn_inv (r : Req) (words : ImgOut → List ℕ) (p : State × ImgOut) (h1 : p.1.Inv) :
    (imgGoOn r words p).1.Inv := by
  unfold imgGoOn
  with_reducible repeat' first | assumption | apply now_inv | apply State.addLong_inv | apply State.Inv_ite_fst | intro _

theorem romLoad_inv (r : Req) (p : State × ImgOut) (h1 : p.1.Inv) :
    (romLoad r p).1.Inv := by
  unfold romLoad
  with_reducible repeat' first | assumption | apply now_inv | apply State.putF_inv | apply State.modHm_inv | apply State.Inv_ite | apply State.Inv_ite_fst | intro _

theorem cImageLoad_inv (ext : Option (List ℕ)) :
    (cImageLoad ext).Ok := by
  intro s r h
  unfold cImageLoad
  with_reducible repeat' first | assumption | apply romLoad_inv | apply State.imgFetch_inv | apply imgGoOn_inv | apply State.Inv_ite_fst | intro _

theorem cImageVerify_inv (ext : Option (List ℕ)) :
    (cImageVerify ext).Ok := by
  intro s r h
  unfold cImageVerify
  with_reducible repeat' first | assumption | apply imgGoOn_inv | apply State.imgFetch_inv

theorem cMramStore_inv (ext : Option (List ℕ)) :
    (cMramStore ext).Ok := by
  intro s r h
  unfold cMramStore
  with_reducible repeat' first | assumption | apply imgGoOn_inv | apply State.imgFetch_inv

theorem cMramErase_inv :
    cMramErase.Ok := by
  intro s r h
  unfold cMramErase
  with_reducible repeat' first | assumption | apply State.slotRead_inv | apply okEmpty_inv | apply State.slotErase_inv | apply now_inv | intro _ | dsimp only | split

theorem cMramList_inv :
    cMramList.Ok := by
  intro s r h
  unfold cMramList
  with_reducible repeat' first | assumption | apply State.slotRead_inv | apply now_inv | intro _ | dsimp only | split

theorem State.berthPut_inv (s : State) (b : ℕ) (a : ℕ) (v : ℕ) (k : ℕ) (range : Bool) (f : State → State × Option Answer) (h1 : s.Inv) (h2 : ∀ x0, x0.Inv → (f x0).1.Inv) :
    (State.berthPut s b a v k range f).1.Inv := by
  unfold State.berthPut
  with_reducible repeat' first | assumption | apply h2 | apply now_inv | apply State.hmW_inv | apply State.Inv_ite_fst | intro _

theorem cBerthCreate_inv :
    cBerthCreate.Ok := by
  intro s r h
  unfold cBerthCreate
  with_reducible repeat' first | assumption | apply State.berthPut_inv | apply okEmpty_inv | intro _

theorem cBerthAssign_inv :
    cBerthAssign.Ok := by
  intro s r h
  unfold cBerthAssign
  with_reducible repeat' first | assumption | apply State.berthPut_inv | apply okEmpty_inv

theorem State.berthGo_inv (s : State) (b : ℕ) (words : List ℕ) (h1 : s.Inv) :
    (State.berthGo s b words).1.Inv := by
  unfold State.berthGo
  with_reducible repeat' first | assumption | apply now_inv | apply State.hmW_inv

theorem cBerthStart_inv :
    cBerthStart.Ok := by
  intro s r h
  unfold cBerthStart
  with_reducible repeat' first | assumption | apply State.berthGo_inv

theorem State.stopBegin_inv (s : State) (l : LongCmd) (h1 : s.Inv) :
    (State.stopBegin s l).Inv := by
  unfold State.stopBegin
  with_reducible repeat' first | assumption | apply State.setLong_inv | apply State.hmW_inv | apply State.Inv_ite | intro _

theorem cBerthStop_inv :
    cBerthStop.Ok := by
  intro s r h
  unfold cBerthStop
  with_reducible repeat' first | assumption | apply State.stopBegin_inv | apply State.addLong_inv | intro _ | dsimp only | split

theorem graceExpiry_inv (m : ℕ) (s : State) (h1 : s.Inv) :
    (graceExpiry m s).Inv := by
  unfold graceExpiry
  with_reducible repeat' first | assumption | apply State.setLong_inv | apply State.hmW_inv | apply State.Inv_ite | intro _ | split

theorem cBerthReload_inv (ext : Option (List ℕ)) :
    (cBerthReload ext).Ok := by
  intro s r h
  unfold cBerthReload
  with_reducible repeat' first | assumption | apply imgGoOn_inv | apply State.imgFetch_inv

theorem cTideValidate_inv :
    cTideValidate.Ok := by
  intro s r h
  unfold cTideValidate
  with_reducible repeat' first | assumption | apply now_inv | apply State.hmR_inv | apply State.hmW_inv | apply State.addLong_inv | apply State.Inv_ite_fst | intro _

theorem cTideSwap_inv :
    cTideSwap.Ok := by
  intro s r h
  unfold cTideSwap
  with_reducible repeat' first | assumption | apply State.writesThen_inv | apply State.addLong_inv | apply State.hmW_inv | intro _

theorem cTideStart_inv :
    cTideStart.Ok := by
  intro s r h
  unfold cTideStart
  with_reducible repeat' first | assumption | apply State.writesThen_inv | apply now_inv | intro _

theorem cTideStop_inv :
    cTideStop.Ok := by
  intro s r h
  unfold cTideStop
  with_reducible repeat' first | assumption | apply okEmpty_inv | apply State.hmW_inv

theorem cPortSet_inv :
    cPortSet.Ok := by
  intro s r h
  unfold cPortSet
  with_reducible repeat' first | assumption | apply State.writesThen_inv | apply okEmpty_inv

theorem cPortStatus_inv :
    cPortStatus.Ok := by
  intro s r h
  unfold cPortStatus
  with_reducible repeat' first | assumption | apply now_inv | apply State.hmRs_inv

theorem streamOperationEnd_inv (s : State) (h1 : s.Inv) :
    (streamOperationEnd s).Inv := by
  unfold streamOperationEnd
  with_reducible repeat' first | assumption | apply State.clrB_inv

theorem cStreamSet_inv :
    cStreamSet.Ok := by
  intro s r h
  unfold cStreamSet
  with_reducible repeat' first | assumption | apply State.writesThen_inv | apply streamOperationEnd_inv | apply okEmpty_inv | apply State.hmW_inv | intro _

theorem cStreamGet_inv :
    cStreamGet.Ok := by
  intro s r h
  unfold cStreamGet
  with_reducible repeat' first | assumption | apply now_inv | apply State.hmRs_inv | apply streamOperationEnd_inv | apply State.hmW_inv

theorem cTimeGet_inv :
    cTimeGet.Ok := by
  intro s r h
  unfold cTimeGet
  with_reducible repeat' first | assumption | apply now_inv | apply State.hmRs_inv

theorem State.timeApplied_inv (s : State) (h1 : s.Inv) :
    (State.timeApplied s).Inv := by
  unfold State.timeApplied
  with_reducible repeat' first | assumption | apply kickApply_inv | apply incApply_inv | apply setApply_inv | apply stepApply_inv

theorem cTimeCorrect_inv :
    cTimeCorrect.Ok := by
  intro s r h
  unfold cTimeCorrect
  with_reducible repeat' first | assumption | apply State.writesThen_inv | apply now_inv | apply State.hmR_inv | apply State.timeApplied_inv | intro _

theorem cTimeState_inv :
    cTimeState.Ok := by
  intro s r h
  unfold cTimeState
  with_reducible repeat' first | assumption | apply State.writesThen_inv | apply okEmpty_inv

theorem State.axWords_inv (s : State) (n : ℕ) (h1 : s.Inv) :
    (State.axWords s n).1.Inv := by
  unfold State.axWords
  with_reducible repeat' first | assumption | apply State.hmRs_inv

theorem State.grpWords_inv (s : State) (g : ℕ) (h1 : s.Inv) :
    (State.grpWords s g).1.Inv := by
  unfold State.grpWords
  with_reducible repeat' first | assumption | apply State.hmRs_inv

theorem State.axGo_inv (s : State) (r : Req) (v : Nat) (h1 : s.Inv) :
    (State.axGo s r v).1.Inv := by
  unfold State.axGo
  with_reducible repeat' first | assumption | apply State.hmW_inv | apply State.addLong_inv | apply State.Inv_ite | apply State.Inv_ite_fst

theorem cAxisMove_inv :
    cAxisMove.Ok := by
  intro s r h
  unfold cAxisMove
  with_reducible repeat' first | assumption | apply State.writesThen_inv | apply State.axGo_inv | intro _

theorem cAxisHome_inv :
    cAxisHome.Ok := by
  intro s r h
  unfold cAxisHome
  with_reducible repeat' first | assumption | apply State.axGo_inv

theorem cAxisStop_inv :
    cAxisStop.Ok := by
  intro s r h
  unfold cAxisStop
  with_reducible repeat' first | assumption | apply okEmpty_inv | apply State.hmW_inv

theorem cGroupMove_inv :
    cGroupMove.Ok := by
  intro s r h
  unfold cGroupMove
  with_reducible repeat' first | assumption | apply now_inv | apply State.grpWords_inv | apply State.hmW_inv | apply State.addLong_inv | apply State.Inv_ite_fst | intro _

theorem cLogFreeze_inv :
    cLogFreeze.Ok := by
  intro s r h
  unfold cLogFreeze
  with_reducible repeat' first | assumption | apply okEmpty_inv | apply State.hmW_inv

theorem cLogThaw_inv :
    cLogThaw.Ok := by
  intro s r h
  unfold cLogThaw
  with_reducible repeat' first | assumption | apply okEmpty_inv | apply State.hmW_inv

theorem cLogRead_inv :
    cLogRead.Ok := by
  intro s r h
  unfold cLogRead
  with_reducible repeat' first | assumption | apply now_inv | apply State.hmRs_inv | apply logOperationEnd_inv | apply State.hmW_inv | apply State.Inv_ite_fst | intro _

theorem cTestPattern_inv :
    cTestPattern.Ok := by
  intro s r h
  unfold cTestPattern
  with_reducible repeat' first | assumption | apply State.writesThen_inv | apply okEmpty_inv

theorem cTestResult_inv :
    cTestResult.Ok := by
  intro s r h
  unfold cTestResult
  with_reducible repeat' first | assumption | apply now_inv | apply State.hmRs_inv

theorem State.imageEnds_inv (s : State) (l : LongCmd) (h1 : s.Inv) :
    (State.imageEnds s l).1.Inv := by
  unfold State.imageEnds
  with_reducible repeat' first | assumption | apply now_inv | apply State.slotStore_inv | apply State.imgPut_inv | apply State.Inv_ite_fst | intro _

theorem State.reloadEnds_inv (s : State) (l : LongCmd) (h1 : s.Inv) :
    (State.reloadEnds s l).1.Inv := by
  unfold State.reloadEnds
  with_reducible repeat' first | assumption | apply State.stopBegin_inv | apply now_inv | apply State.imgPut_inv | apply State.berthGo_inv | apply State.Inv_ite_fst | (apply State.Inv_of_pair; · assumption) | intro _ | split

theorem State.axEnds_inv (s : State) (l : LongCmd) (h1 : s.Inv) :
    (State.axEnds s l).1.Inv := by
  unfold State.axEnds
  with_reducible repeat' first | assumption | apply State.axWords_inv | apply now_inv | apply State.Inv_ite | apply State.Inv_ite_fst | intro _ | dsimp only | (apply State.Inv_of_pair; · assumption) | split

theorem State.longEnds_inv (s : State) (l : LongCmd) (h1 : s.Inv) :
    (State.longEnds s l).1.Inv := by
  unfold State.longEnds
  with_reducible repeat' first | assumption | apply okEmpty_inv | apply State.imageEnds_inv | apply now_inv | apply State.reloadEnds_inv | apply State.hmR_inv | apply State.commit_inv | apply State.axEnds_inv | apply State.grpWords_inv | apply State.Inv_ite | apply State.Inv_ite_fst | intro _ | dsimp only | (apply State.Inv_of_pair; · assumption) | split

theorem State.abortWords_inv (s : State) (l : LongCmd) (h1 : s.Inv) :
    (State.abortWords s l).1.Inv := by
  unfold State.abortWords
  with_reducible repeat' first | assumption | apply State.hmR_inv | apply State.axWords_inv | apply State.grpWords_inv | split

theorem State.aborted_inv (s : State) (l : LongCmd) (h1 : s.Inv) :
    (State.aborted s l).1.Inv := by
  unfold State.aborted
  with_reducible repeat' first | assumption | apply now_inv | apply State.endLong_inv | apply State.abortWords_inv

theorem State.tooLate_inv (s : State) (l : LongCmd) (h1 : s.Inv) :
    (State.tooLate s l).1.Inv := by
  unfold State.tooLate
  with_reducible repeat' first | assumption | apply now_inv | apply State.endLong_inv | apply State.abortWords_inv

theorem State.abortStop_inv (s : State) (l : LongCmd) (r : Req) (a : Nat) (h1 : s.Inv) :
    (State.abortStop s l r a).1.Inv := by
  unfold State.abortStop
  with_reducible repeat' first | assumption | apply State.hmW_inv | apply State.setLong_inv | apply State.Inv_ite | apply State.Inv_ite_fst | intro _

theorem State.endsFirst_inv (s : State) (l : LongCmd) (h1 : s.Inv) :
    (State.endsFirst s l).1.Inv := by
  unfold State.endsFirst
  split
  · exact now_inv _ _ (State.endLong_inv _ _ _ (State.Inv_of_pair (by assumption) (State.longEnds_inv _ _ h1)))
  · exact State.Inv_of_pair (by assumption) (State.longEnds_inv _ _ h1)

theorem State.abortEnds_inv (s : State) (l : LongCmd) (h1 : s.Inv) :
    (State.abortEnds s l).Inv := by
  unfold State.abortEnds
  with_reducible repeat' first | assumption | apply State.endsFirst_inv | apply State.tooLate_inv | apply State.aborted_inv | apply State.mbPost_inv | apply State.Inv_foldl | (apply State.Inv_of_pair; · assumption) | apply State.Inv_ite_fst | intro _ | dsimp only | split

theorem longCommandEnd_inv (m : Nat) (s : State) (h1 : s.Inv) :
    (longCommandEnd m s).Inv := by
  unfold longCommandEnd
  with_reducible repeat' first | assumption | apply State.abortEnds_inv | apply State.longEnds_inv | apply State.endLong_inv | apply State.Inv_ite | (apply State.Inv_of_pair; · assumption) | intro _ | split

theorem State.abortOf_inv (s : State) (l : LongCmd) (r : Req) (h1 : s.Inv) :
    (State.abortOf s l r).1.Inv := by
  unfold State.abortOf
  with_reducible repeat' first | assumption | apply now_inv | apply State.tooLate_inv | apply State.aborted_inv | apply State.hmW_inv | apply State.abortStop_inv | apply State.Inv_ite | apply State.Inv_ite_fst | intro _ | dsimp only | split

theorem cAbort_inv :
    cAbort.Ok := by
  intro s r h
  unfold cAbort
  with_reducible repeat' first | assumption | apply now_inv | apply State.abortOf_inv | intro _ | dsimp only | split

theorem resetBegin_inv (m : ℕ) (s : State) (h1 : s.Inv) :
    (resetBegin m s).Inv := by
  unfold resetBegin
  with_reducible repeat' first | assumption | apply State.scopeReset_inv | apply State.modHm_inv | apply State.Inv_ite | intro _ | split

/-! ## Boot -/

theorem State.bootStart_inv (s : State) (b : List ℕ) (h1 : s.Inv) :
    (State.bootStart s b).Inv := by
  unfold State.bootStart
  with_reducible repeat' first | assumption | apply State.modHm_inv | apply State.hmStage_inv | apply State.qeStart_inv | apply State.setReg_inv | apply State.store_inv

theorem State.imgSpan_inv (s : State) (a : Nat) (h1 : s.Inv) :
    (State.imgSpan s a).1.Inv := by
  unfold State.imgSpan
  split <;> exact State.Inv_of_pair (by assumption) (State.hmRead_inv _ _ _ h1)

theorem State.fwTouch_inv (s : State) (h1 : s.Inv) :
    (State.fwTouch s).Inv := by
  unfold State.fwTouch
  with_reducible repeat' first | assumption | apply State.addWait_inv | apply State.Inv_ite | intro _

theorem State.bootTry_inv (s : State) (second : Bool) (a2 : List ImgReq) (h1 : s.Inv) :
    (State.bootTry s second a2).Inv := by
  fun_induction State.bootTry s second a2
  all_goals with_reducible repeat' first | assumption | apply State.musterEnter_inv | apply State.romWait_inv | apply State.bootStart_inv | apply State.putF_inv | apply State.imgFetch_inv | apply State.setIf_inv | (apply State.Inv_of_pair; · assumption) | apply_assumption

theorem State.bootStream_inv (s : State) (len : Nat) (h1 : s.Inv) :
    (State.bootStream s len).Inv := by
  unfold State.bootStream
  with_reducible repeat' first | assumption | apply State.imgSpan_inv | apply State.imgFetch_inv | apply State.bootStart_inv | apply State.modHm_inv | apply State.hmStage_inv | apply State.putF_inv | apply State.Inv_ite | intro _ | dsimp only | (apply State.Inv_of_pair; · assumption) | split

theorem bootImageStart_inv (s : State) (h1 : s.Inv) :
    (bootImageStart s).Inv := by
  unfold bootImageStart
  with_reducible repeat' first | assumption | apply State.hmStage_inv | apply State.bootTry_inv | apply State.putF_inv | apply State.bootStart_inv | apply State.bootStream_inv | apply State.setQe_inv | apply State.musterEnter_inv | apply State.romWait_inv | apply State.Inv_ite | intro _ | dsimp only | split

theorem State.applyImage_inv (s : State) (r : ImgReq) (h1 : s.Inv) :
    (State.applyImage s r).1.Inv := by
  unfold State.applyImage
  split
  next t o e =>
    have h2 := State.Inv_of_pair e (State.imgFetch_inv s .load r none h1)
    with_reducible repeat' first | assumption | apply State.imgPut_inv | apply State.Inv_ite_fst | (apply State.Inv_of_pair; · assumption) | intro _ | split

theorem State.applySlot_inv (s : State) (i : Nat) (h1 : s.Inv) :
    (State.applySlot s i).1.Inv := by
  unfold State.applySlot
  dsimp only
  have h2 := State.slotRead_inv s i h1
  split
  · exact h2
  · refine State.Inv_ite_fst (fun _ => h2) fun _ => ?_
    have h3 := State.applyImage_inv _ ⟨2, i, 0, 0, 0⟩ h2
    split <;> rename_i e <;> rw [e] at h3
    · exact h3
    · exact State.modHm_inv _ _ h3
    · exact h3

theorem State.applySlots_inv (s : State) (a0 : List Nat) (h1 : s.Inv) :
    (State.applySlots s a0).1.Inv := by
  induction a0 generalizing s with
  | nil => exact h1
  | cons i t ih =>
    unfold State.applySlots
    have h2 := State.applySlot_inv s i h1
    split
    · exact ih _ (State.Inv_of_pair (by assumption) h2)
    · exact h2

theorem State.applyStream_inv (s : State) (len : Nat) (a0 : Nat) (a1 : Nat) (h1 : s.Inv) :
    (State.applyStream s len a0 a1).1.Inv := by
  induction a0 generalizing s a1 with
  | zero => exact h1
  | succ k ih =>
    unfold State.applyStream
    refine State.Inv_ite_fst (fun _ => h1) fun _ => ?_
    dsimp only
    have h2 := State.imgSpan_inv s (0x10000000 + a1) h1
    split
    · exact State.Inv_of_pair (by assumption) (State.applyImage_inv _ _ h2)
    · exact State.modHm_inv _ _ (State.Inv_of_pair (by assumption) (State.applyImage_inv _ _ h2))
    · exact ih _ _ (State.Inv_of_pair (by assumption) (State.applyImage_inv _ _ h2))

theorem autoload_inv (s : State) (h1 : s.Inv) :
    (autoload s).Inv := by
  unfold autoload
  refine State.Inv_ite (fun _ => h1) fun _ => ?_
  dsimp only
  have h2 := State.applySlots_inv s ((List.range (32 - s.hm.next)).map (· + s.hm.next)) h1
  have h3 : (match (s.applySlots ((List.range (32 - s.hm.next)).map (· + s.hm.next))).2, (s.applySlots ((List.range (32 - s.hm.next)).map (· + s.hm.next))).1.hm.muster.rest with
      | .done, [off, len] => (s.applySlots ((List.range (32 - s.hm.next)).map (· + s.hm.next))).1.applyStream len (len / 64) off
      | _, _ => ((s.applySlots ((List.range (32 - s.hm.next)).map (· + s.hm.next))).1, (s.applySlots ((List.range (32 - s.hm.next)).map (· + s.hm.next))).2)).1.Inv := by
    split
    · exact State.applyStream_inv _ _ _ _ h2
    · exact h2
  split
  · exact h3
  · exact State.modHm_inv _ _ (State.ringOut_inv _ _ (State.logEv_inv _ _ _ h3))
  · exact State.modHm_inv _ _ (State.ringOut_inv _ _ h3)

theorem State.modMuster_inv (s : State) (f : MusterSt → MusterSt) (h1 : s.Inv) :
    (State.modMuster s f).Inv := by
  unfold State.modMuster
  with_reducible repeat' first | assumption | apply State.modHm_inv

theorem State.musterSend_inv (s : State) (p : ℕ) (b : List ℕ) (h1 : s.Inv) :
    (State.musterSend s p b).Inv := by
  unfold State.musterSend
  with_reducible repeat' first | assumption | apply State.modMuster_inv

theorem State.countOn_inv (s : State) (q : ℕ) (b : List ℕ) (flags : ℕ) (h1 : s.Inv) :
    (State.countOn s q b flags).Inv := by
  unfold State.countOn
  with_reducible repeat' first | assumption | apply State.musterSend_inv

theorem musterCount_inv (q : ℕ) (b : List ℕ) (s : State) (h1 : s.Inv) :
    (musterCount q b s).Inv := by
  unfold musterCount
  with_reducible repeat' first | assumption | apply State.modMuster_inv | apply State.countOn_inv | apply State.setB_inv | apply State.putB_inv | apply State.putF_inv | apply State.setIf_inv | apply State.Inv_ite | intro _ | dsimp only | split

theorem State.newSession_inv (s : State) (n : Nat) (h1 : s.Inv) :
    (State.newSession s n).Inv := by
  unfold State.newSession
  with_reducible repeat' first | assumption | apply State.modMuster_inv | apply State.modHm_inv | apply State.Inv_ite | intro _ | apply State.Inv_mk

theorem musterBlock_inv (q : Nat) (b : List Nat) (s : State) (h1 : s.Inv) :
    (musterBlock q b s).Inv := by
  unfold musterBlock
  with_reducible repeat' first | assumption | apply State.modMuster_inv | apply State.setB_inv | apply State.newSession_inv | apply State.hmStage_inv | apply State.fwTouch_inv | apply State.store_inv | apply State.take_inv | apply State.musterSend_inv | apply State.Inv_ite | intro _ | dsimp only | split

theorem musterDone_inv (q : Nat) (b : List Nat) (s : State) (h1 : s.Inv) :
    (musterDone q b s).Inv := by
  unfold musterDone
  with_reducible repeat' first | assumption | apply State.modMuster_inv | apply State.musterSend_inv | apply State.newSession_inv | apply State.hmStage_inv | apply State.putF_inv | apply State.fwTouch_inv | apply State.eccRead_inv | apply State.modHm_inv | apply State.Inv_ite | apply State.Inv_foldl | apply State.Inv_foldl_fst | intro _ | dsimp only | split | apply State.Inv_mk

theorem musterRequest_inv (q : ℕ) (b : List ℕ) (s : State) (h1 : s.Inv) :
    (musterRequest q b s).Inv := by
  unfold musterRequest
  with_reducible repeat' first | assumption | apply State.modMuster_inv | apply State.musterSend_inv | apply State.Inv_ite | intro _ | dsimp only | split

/-! ## Deliver -/

theorem adcResults_inv (c : ℕ) (s : State) (h1 : s.Inv) :
    (adcResults c s).Inv := by
  unfold adcResults
  with_reducible repeat' first | assumption | apply State.hbWrite_inv | apply State.setB_inv | apply State.setAdc_inv | apply State.count_inv | apply State.fqPushAll_inv | apply State.fqDrop_inv | apply State.Inv_ite | intro _ | dsimp only | split

end Sys2Proof.Machine
end

