-- ==== Sys2Proof/Laws/CanonRow.lean ====
section
/-! SUPPORT. Every operation of the commands keeps the tables of the state in canonical form. -/
namespace Sys2Proof.Machine

/-! ## Row -/

theorem State.tapTake_inv (s : State) (h1 : s.Inv) :
    (State.tapTake s).Inv := by
  unfold State.tapTake
  with_reducible repeat' first | assumption | apply State.modTap_inv | apply State.takeEnded_inv | apply State.Inv_ite | intro _ | split

theorem State.after_inv (s : State) (h1 : s.Inv) :
    (State.after s).Inv := by
  unfold State.after
  with_reducible repeat' first | assumption | apply State.tapTake_inv | apply State.dmaYield_inv | apply State.testCount_inv | apply State.settle_inv | apply State.wdogWake_inv | apply State.Inv_ite

theorem answer_inv (s : State) (h1 : s.Inv) :
    ∃ u, answer s = .next u ∧ u.Inv := by
  exact ⟨_, rfl, State.after_inv _ h1⟩

theorem anyTime_inv (f : State → State) (s : State) (h1 : ∀ x0, x0.Inv → (f x0).Inv) (h2 : s.Inv) :
    ∃ u, anyTime f s = .next u ∧ u.Inv := by
  unfold anyTime
  with_reducible repeat' first | assumption | apply h1 | apply answer_inv

theorem chipOn_inv (f : State → State) (s : State) (h1 : ∀ x0, x0.Inv → (f x0).Inv) (h2 : s.Inv) :
    ∃ u, chipOn f s = .next u ∧ u.Inv := by
  unfold chipOn
  with_reducible repeat' first | assumption | apply h1 | apply answer_inv | apply State.Inv_ite | intro _

theorem coreOn_inv (f : State → State) (s : State) (h1 : ∀ x0, x0.Inv → (f x0).Inv) (h2 : s.Inv) :
    ∃ u, coreOn f s = .next u ∧ u.Inv := by
  unfold coreOn
  with_reducible repeat' first | assumption | apply h1 | apply answer_inv | apply State.Inv_ite | intro _

theorem fwOn_inv (f : State → State) (s : State) (h1 : ∀ x0, x0.Inv → (f x0).Inv) (h2 : s.Inv) :
    ∃ u, fwOn f s = .next u ∧ u.Inv :=
  coreOn_inv _ s (fun x0 h => State.Inv_ite (fun _ => h) fun _ => h1 x0 h) h2

theorem hostOn_inv (f : State → State) (s : State) (h1 : ∀ x0, x0.Inv → (f x0).Inv) (h2 : s.Inv) :
    ∃ u, hostOn f s = .next u ∧ u.Inv := by
  unfold hostOn
  with_reducible repeat' first | assumption | apply h1 | apply answer_inv | apply State.Inv_ite | intro _

theorem bankOn_inv (b : ℕ) (f : State → State) (s : State) (h1 : ∀ x0, x0.Inv → (f x0).Inv) (h2 : s.Inv) :
    ∃ u, bankOn b f s = .next u ∧ u.Inv := by
  unfold bankOn
  with_reducible repeat' first | assumption | apply hostOn_inv | apply State.Inv_ite | apply h1 | intro _

theorem tapOn_inv (f : State → State) (s : State) (h1 : ∀ x0, x0.Inv → (f x0).Inv) (h2 : s.Inv) :
    ∃ u, tapOn f s = .next u ∧ u.Inv := by
  unfold tapOn
  with_reducible repeat' first | assumption | apply h1 | apply answer_inv | apply State.Inv_ite | intro _

theorem powerOn_inv (f : State → State) (s : State) (h1 : ∀ x0, x0.Inv → (f x0).Inv) (h2 : s.Inv) :
    ∃ u, powerOn f s = .next u ∧ u.Inv := by
  unfold powerOn
  with_reducible repeat' first | assumption | apply h1 | apply answer_inv | apply State.Inv_ite | intro _

theorem State.record_inv (who : Initiator) (a : ℕ) (r : State × BusEnd × ℕ) (h1 : r.1.Inv) :
    (State.record who a r).Inv := by
  unfold State.record
  with_reducible repeat' first | assumption | apply State.Inv_mk

theorem State.performEarlier_inv (s : State) (who : Initiator) (h1 : s.Inv) :
    (State.performEarlier s who).Inv := by
  unfold State.performEarlier
  with_reducible repeat' first | assumption | apply State.serveNext_inv | apply State.Inv_ite | split

theorem State.findsRoom_inv (s : State) (who : Initiator) (a : Nat) (h1 : s.Inv) :
    (State.findsRoom s who a).Inv := by
  unfold State.findsRoom
  with_reducible repeat' first | assumption | apply State.inboundRoom_inv | apply State.Inv_ite | apply State.Inv_ite_fst | apply State.Inv_foldl | intro _ | dsimp only | (apply State.Inv_of_pair; · assumption) | (apply State.Inv_of_pair'; · assumption) | split | apply State.Inv_mk

theorem State.admitWrite_inv (s : State) (who : Initiator) (a : Nat) (n : Nat) (h1 : s.Inv) :
    (State.admitWrite s who a n).Inv := by
  unfold State.admitWrite
  with_reducible repeat' first | assumption | apply State.findsRoom_inv | apply State.countWrite_inv | apply State.Inv_ite | intro _ | split | apply State.Inv_ite_fst | apply State.Inv_foldl | dsimp only | (apply State.Inv_of_pair; · assumption) | (apply State.Inv_of_pair'; · assumption) | apply State.Inv_mk

theorem State.admitRead_inv (s : State) (who : Initiator) (a : Nat) (h1 : s.Inv) :
    (State.admitRead s who a).Inv := by
  unfold State.admitRead
  with_reducible repeat' first | assumption | apply State.findsRoom_inv | apply State.dropLines_inv | apply State.Inv_ite | intro _ | split | apply State.Inv_ite_fst | apply State.Inv_foldl | dsimp only | (apply State.Inv_of_pair; · assumption) | (apply State.Inv_of_pair'; · assumption) | apply State.Inv_mk

theorem State.writeMade_inv (who : Initiator) (a : Nat) (seq : Nat) (bs : List Nat) (r : State × BusEnd × Nat) (h1 : r.1.Inv) :
    (State.writeMade who a seq bs r).1.Inv := by
  unfold State.writeMade
  split
  · exact State.pwFail_inv _ _ _ _ _ h1
  · exact State.modIf_inv _ _ _ h1
  · exact h1

theorem State.readMade_inv (who : Initiator) (h : TlpHead) (r : State × BusEnd × Nat) (h1 : r.1.Inv) : (State.readMade who h r).1.Inv := by
  unfold State.readMade
  exact State.Inv_ite_fst (fun _ => State.sendCa_inv _ _ _ h1) fun _ => h1

theorem State.inTurn_inv (s : State) (who : Initiator) (a : Nat) (bs : List Nat) (p : TlpHead) (f : State → State × BusEnd × Nat) (h1 : s.Inv) (hf : ∀ t : State, t.Inv → (f t).1.Inv) :
    (State.inTurn s who a bs p f).Inv := by
  unfold State.inTurn
  refine State.Inv_ite (fun _ => h1) fun _ => ?_
  have h2 : (if s.isNext who then s else s.performEarlier who).Inv := State.Inv_ite (fun _ => h1) fun _ => State.performEarlier_inv _ _ h1
  extract_lets u r
  refine State.Inv_ite (fun _ => ?_) fun _ => State.Inv_ite (fun _ => ?_) fun _ => ?_
  · split
    · exact State.record_inv _ _ _ (State.Inv_ite (fun _ => State.postWrite_inv _ _ _ _ _ _ (State.inboundRoom_inv _ h2)) fun _ => h2)
    · exact h2
  · split
    · exact State.record_inv _ _ _ (State.readMade_inv _ _ _ (State.Inv_ite_fst (fun _ => State.clrB_inv _ _ _ h2) fun _ => hf _ (State.admitRead_inv _ _ _ h2)))
    · exact State.record_inv _ _ _ (hf _ h2)
  · have h3 : r.1.Inv := hf _ (State.admitWrite_inv _ _ _ _ h2)
    exact State.record_inv _ _ _ (State.Inv_ite_fst (fun _ => State.writeMade_inv _ _ _ _ _ h3) fun _ => h3)

theorem State.rowWrite_inv (s : State) (who : Initiator) (a : Nat) (w : Word) (h1 : s.Inv) :
    (State.rowWrite s who a w).Inv := by
  exact State.inTurn_inv _ _ _ _ _ _ h1 fun t ht => State.busWrite_inv _ _ _ _ ht

theorem State.rowRead_inv (s : State) (who : Initiator) (a : Nat) (h1 : s.Inv) :
    (State.rowRead s who a).Inv := by
  exact State.inTurn_inv _ _ _ _ _ _ h1 fun t ht => State.busRead_inv _ _ _ _ ht

theorem writeReg_inv (who : Initiator) (a : ℕ) (w : Word) (s : State) (h1 : s.Inv) :
    ∃ u, writeReg who a w s = .next u ∧ u.Inv := by
  unfold writeReg
  with_reducible repeat' first | assumption | apply chipOn_inv | apply State.rowWrite_inv | intro _

theorem readReg_inv (who : Initiator) (a : ℕ) (s : State) (h1 : s.Inv) :
    ∃ u, readReg who a s = .next u ∧ u.Inv := by
  unfold readReg
  with_reducible repeat' first | assumption | apply chipOn_inv | apply State.rowRead_inv | intro _

theorem State.doOp_inv (s : State) (who : Initiator) (a : ℕ) (op : BusOp) (lanes : ℕ) (h1 : s.Inv) :
    (State.doOp s who a op lanes).1.Inv := by
  unfold State.doOp
  with_reducible repeat' first | assumption | apply State.busRead_inv | apply State.busWrite_inv | apply State.busAtomic_inv | split

theorem State.moorCollide_inv (s : State) (p : ℕ × ℕ) (h1 : s.Inv) :
    (State.moorCollide s p).Inv := by
  unfold State.moorCollide
  with_reducible repeat' first | assumption | apply State.logEv_inv | apply State.putF_inv | apply State.setB_inv | apply State.Inv_ite | intro _

theorem State.accessOp_inv (s : State) (who : Initiator) (a : ℕ) (op : BusOp) (lanes : ℕ) (h1 : s.Inv) :
    (State.accessOp s who a op lanes).1.Inv := by
  unfold State.accessOp
  with_reducible repeat' first | assumption | apply State.moorCollide_inv | apply State.doOp_inv | apply State.Inv_ite | intro _ | split

theorem State.upsetAt_inv (s : State) (a : Nat) (upset : Nat) (h1 : s.Inv) :
    (State.upsetAt s a upset).Inv := by
  unfold State.upsetAt
  with_reducible repeat' first | assumption | apply State.setRawCell_inv | apply State.setPset_inv | apply State.upset_inv | apply State.Inv_ite | apply State.Inv_foldl | apply State.Inv_foldl_fst | intro _ | split

theorem State.tapEnd_inv (r : State × BusEnd × ℕ) (h1 : r.1.Inv) :
    (State.tapEnd r).Inv := by
  unfold State.tapEnd
  exact State.modTap_inv _ _ h1

theorem interconnectAccess_inv (who : Initiator) (a : Nat) (op : BusOp) (lanes : Nat) (upset : Nat) (s : State) (h1 : s.Inv) :
    (interconnectAccess who a op lanes upset s).Inv := by
  refine State.inTurn_inv _ _ _ _ _ _ h1 fun t ht => ?_
  have h2 := State.accessOp_inv _ who a op lanes (State.upsetAt_inv _ a upset ht)
  exact State.Inv_ite_fst (fun _ => State.tapEnd_inv _ h2) fun _ => h2

theorem busTimeout_inv (who : Initiator) (a : ℕ) (op : BusOp) (s : State) (h1 : s.Inv) :
    (busTimeout who a op s).Inv := by
  unfold busTimeout
  with_reducible repeat' first | assumption | apply State.record_inv | apply State.accessOp_inv | apply State.logEv_inv | apply State.setB_inv | apply State.endWait_inv | apply State.modCw_inv | apply State.Inv_ite | intro _ | split

theorem qeStepRow_inv (n : ℕ) (s t : State) (h1 : t.Inv) :
    (qeStepRow n s t).Inv := by
  unfold qeStepRow
  with_reducible repeat' first | assumption | apply State.qeAny_inv | apply State.Inv_ite | intro _

theorem profileTick_inv (s : State) (h1 : s.Inv) :
    (profileTick s).Inv := by
  unfold profileTick
  with_reducible repeat' first | assumption | apply State.tickTaken_inv | apply State.forN_inv | apply State.motionTick_inv | apply State.chopTick_inv | apply State.Inv_ite | intro _

theorem outboundRequest_inv (who : Initiator) (a : ℕ) (op : BusOp) (s : State) (h1 : s.Inv) :
    (outboundRequest who a op s).Inv := by
  unfold outboundRequest
  with_reducible repeat' first | assumption | apply State.outSend_inv | apply interconnectAccess_inv | apply State.Inv_ite | intro _

theorem State.tapScan_inv (s : State) (n : Nat) (h1 : s.Inv) :
    (State.tapScan s n).Inv := by
  unfold State.tapScan
  exact State.modTap_inv _ _ h1

theorem samplePreload_inv (l : List Bool) (s : State) (h1 : s.Inv) :
    (samplePreload l s).Inv := by
  unfold samplePreload
  exact State.modTap_inv _ _ (State.tapScan_inv _ _ (State.tapLoad_inv _ _ h1))

theorem accessUpdate_inv (op : Nat) (size : Nat) (a : Nat) (data : Nat) (s : State) (h1 : s.Inv) :
    (accessUpdate op size a data s).Inv := by
  unfold accessUpdate
  have h2 := State.tapScan_inv s 104 h1
  have h3 := fun f => State.modTap_inv (s.tapScan 104) f h2
  refine State.Inv_ite (fun _ => h1) fun _ => State.Inv_ite (fun _ => h2) fun _ => State.Inv_ite (fun _ => State.modTap_inv _ _ (h3 _)) fun _ => ?_
  exact State.tapEnd_inv _ (State.record_inv _ _ _ (State.accessOp_inv _ _ _ _ _ (State.setB_inv _ _ _ (h3 _))))

/-! ## RowBus -/

theorem execRegisterWrite_inv (who : Initiator) (a : Word) (w : Word) (s : State) (h1 : s.Inv) :
    ∃ u, execRegisterWrite who a w s = .next u ∧ u.Inv := by
  unfold execRegisterWrite
  with_reducible repeat' first | assumption | apply chipOn_inv | apply State.rowWrite_inv | apply State.Inv_ite | intro _

theorem execInterconnectAccess_inv (who : Initiator) (a : Word) (op : BusOp) (lanes : BitVec 16) (upset : Fin 3) (s : State) (h1 : s.Inv) :
    ∃ u, execInterconnectAccess who a op lanes upset s = .next u ∧ u.Inv := by
  unfold execInterconnectAccess
  with_reducible repeat' first | assumption | apply chipOn_inv | apply interconnectAccess_inv

theorem execBusTimeout_inv (who : Initiator) (a : Word) (op : BusOp) (s : State) (h1 : s.Inv) :
    ∃ u, execBusTimeout who a op s = .next u ∧ u.Inv := by
  unfold execBusTimeout
  with_reducible repeat' first | assumption | apply chipOn_inv | apply busTimeout_inv

theorem execCorrectionWriteBack_inv (line : ℕ) (s : State) (h1 : s.Inv) :
    ∃ u, execCorrectionWriteBack line s = .next u ∧ u.Inv := by
  unfold execCorrectionWriteBack
  with_reducible repeat' first | assumption | apply chipOn_inv | apply correctionWriteBack_inv

theorem execDredgerPass_inv (soft : List ℕ) (hard : List ℕ) (s : State) (h1 : s.Inv) :
    ∃ u, execDredgerPass soft hard s = .next u ∧ u.Inv := by
  unfold execDredgerPass
  with_reducible repeat' first | assumption | apply chipOn_inv | apply dredgerPass_inv

theorem execDredgeLate_inv (s : State) (h1 : s.Inv) :
    ∃ u, execDredgeLate s = .next u ∧ u.Inv := by
  unfold execDredgeLate
  with_reducible repeat' first | assumption | apply chipOn_inv | apply dredgeLate_inv

/-! ## RowTime -/

theorem execTimeAdvance_inv (s : State) (h1 : s.Inv) :
    ∃ u, execTimeAdvance s = .next u ∧ u.Inv := by
  unfold execTimeAdvance
  with_reducible repeat' first | assumption | apply chipOn_inv | apply tickAdvance_inv

theorem execTimeCmdStep_inv (who : Initiator) (w : Word) (s : State) (h1 : s.Inv) :
    ∃ u, execTimeCmdStep who w s = .next u ∧ u.Inv := by
  unfold execTimeCmdStep
  with_reducible repeat' first | assumption | apply writeReg_inv

theorem execTimeCmdSet_inv (who : Initiator) (w : Word) (s : State) (h1 : s.Inv) :
    ∃ u, execTimeCmdSet who w s = .next u ∧ u.Inv := by
  unfold execTimeCmdSet
  with_reducible repeat' first | assumption | apply writeReg_inv

theorem execTimeCmdInc_inv (who : Initiator) (w : Word) (s : State) (h1 : s.Inv) :
    ∃ u, execTimeCmdInc who w s = .next u ∧ u.Inv := by
  unfold execTimeCmdInc
  with_reducible repeat' first | assumption | apply writeReg_inv

theorem execTimeCmdKick_inv (who : Initiator) (w : Word) (s : State) (h1 : s.Inv) :
    ∃ u, execTimeCmdKick who w s = .next u ∧ u.Inv := by
  unfold execTimeCmdKick
  with_reducible repeat' first | assumption | apply writeReg_inv

theorem execForceJump_inv (who : Initiator) (w : Word) (s : State) (h1 : s.Inv) :
    ∃ u, execForceJump who w s = .next u ∧ u.Inv := by
  unfold execForceJump
  with_reducible repeat' first | assumption | apply writeReg_inv

theorem execDisarm_inv (who : Initiator) (w : Word) (s : State) (h1 : s.Inv) :
    ∃ u, execDisarm who w s = .next u ∧ u.Inv := by
  unfold execDisarm
  with_reducible repeat' first | assumption | apply writeReg_inv

theorem execStepApply_inv (s : State) (h1 : s.Inv) :
    ∃ u, execStepApply s = .next u ∧ u.Inv := by
  unfold execStepApply
  with_reducible repeat' first | assumption | apply chipOn_inv | apply stepApply_inv

theorem execSetApply_inv (s : State) (h1 : s.Inv) :
    ∃ u, execSetApply s = .next u ∧ u.Inv := by
  unfold execSetApply
  with_reducible repeat' first | assumption | apply chipOn_inv | apply setApply_inv

theorem execIncApply_inv (s : State) (h1 : s.Inv) :
    ∃ u, execIncApply s = .next u ∧ u.Inv := by
  unfold execIncApply
  with_reducible repeat' first | assumption | apply chipOn_inv | apply incApply_inv

theorem execKickApply_inv (s : State) (h1 : s.Inv) :
    ∃ u, execKickApply s = .next u ∧ u.Inv := by
  unfold execKickApply
  with_reducible repeat' first | assumption | apply chipOn_inv | apply kickApply_inv

theorem execTimeCtlState_inv (who : Initiator) (w : Word) (s : State) (h1 : s.Inv) :
    ∃ u, execTimeCtlState who w s = .next u ∧ u.Inv := by
  unfold execTimeCtlState
  with_reducible repeat' first | assumption | apply writeReg_inv

theorem execTimeWdog_inv (who : Initiator) (w : Word) (s : State) (h1 : s.Inv) :
    ∃ u, execTimeWdog who w s = .next u ∧ u.Inv := by
  unfold execTimeWdog
  with_reducible repeat' first | assumption | apply writeReg_inv

theorem execStateWatchdogExpiry_inv (s : State) (h1 : s.Inv) :
    ∃ u, execStateWatchdogExpiry s = .next u ∧ u.Inv := by
  unfold execStateWatchdogExpiry
  with_reducible repeat' first | assumption | apply chipOn_inv | apply stateWatchdogExpiry_inv

theorem execTimeNowFrac_inv (who : Initiator) (s : State) (h1 : s.Inv) :
    ∃ u, execTimeNowFrac who s = .next u ∧ u.Inv := by
  unfold execTimeNowFrac
  with_reducible repeat' first | assumption | apply readReg_inv

theorem execTimePtpTxtsKey_inv (who : Initiator) (n : Fin 6) (s : State) (h1 : s.Inv) :
    ∃ u, execTimePtpTxtsKey who n s = .next u ∧ u.Inv := by
  unfold execTimePtpTxtsKey
  with_reducible repeat' first | assumption | apply readReg_inv

theorem execTriggerMode_inv (who : Initiator) (n : Fin 16) (w : Word) (s : State) (h1 : s.Inv) :
    ∃ u, execTriggerMode who n w s = .next u ∧ u.Inv := by
  unfold execTriggerMode
  with_reducible repeat' first | assumption | apply writeReg_inv

theorem execPeriodicRise_inv (n : Fin 16) (s : State) (h1 : s.Inv) :
    ∃ u, execPeriodicRise n s = .next u ∧ u.Inv := by
  unfold execPeriodicRise
  with_reducible repeat' first | assumption | apply chipOn_inv | apply periodicRise_inv

theorem execPulse_inv (who : Initiator) (n : Fin 16) (w : Word) (s : State) (h1 : s.Inv) :
    ∃ u, execPulse who n w s = .next u ∧ u.Inv := by
  unfold execPulse
  with_reducible repeat' first | assumption | apply writeReg_inv

theorem execPulseEnd_inv (n : Fin 16) (s : State) (h1 : s.Inv) :
    ∃ u, execPulseEnd n s = .next u ∧ u.Inv := by
  unfold execPulseEnd
  with_reducible repeat' first | assumption | apply chipOn_inv | apply pulseEnd_inv

theorem execCaptureEdge_inv (n : Fin 16) (rising : Bool) (s : State) (h1 : s.Inv) :
    ∃ u, execCaptureEdge n rising s = .next u ∧ u.Inv := by
  unfold execCaptureEdge
  with_reducible repeat' first | assumption | apply chipOn_inv | apply captureEdge_inv | apply State.inputEdge_inv | intro _

theorem execTcapTsNs_inv (who : Initiator) (n : Fin 16) (s : State) (h1 : s.Inv) :
    ∃ u, execTcapTsNs who n s = .next u ∧ u.Inv := by
  unfold execTcapTsNs
  with_reducible repeat' first | assumption | apply readReg_inv

/-! ## RowTide -/

theorem execRunStart_inv (who : Initiator) (w : Word) (s : State) (h1 : s.Inv) :
    ∃ u, execRunStart who w s = .next u ∧ u.Inv := by
  unfold execRunStart
  with_reducible repeat' first | assumption | apply writeReg_inv

theorem execRunStop_inv (who : Initiator) (w : Word) (s : State) (h1 : s.Inv) :
    ∃ u, execRunStop who w s = .next u ∧ u.Inv := by
  unfold execRunStop
  with_reducible repeat' first | assumption | apply writeReg_inv

theorem execCycleBoundary_inv (s : State) (h1 : s.Inv) :
    ∃ u, execCycleBoundary s = .next u ∧ u.Inv := by
  unfold execCycleBoundary
  with_reducible repeat' first | assumption | apply chipOn_inv | apply cycleBoundary_inv

theorem execEntryIssue_inv (s : State) (h1 : s.Inv) :
    ∃ u, execEntryIssue s = .next u ∧ u.Inv := by
  unfold execEntryIssue
  with_reducible repeat' first | assumption | apply chipOn_inv | apply entryIssue_inv

theorem execTideNop_inv (s : State) (h1 : s.Inv) :
    ∃ u, execTideNop s = .next u ∧ u.Inv := by
  unfold execTideNop
  with_reducible repeat' first | assumption | apply chipOn_inv | apply tideLand_inv

theorem execGate_inv (s : State) (h1 : s.Inv) :
    ∃ u, execGate s = .next u ∧ u.Inv := by
  unfold execGate
  with_reducible repeat' first | assumption | apply chipOn_inv | apply tideLand_inv

theorem execStow_inv (s : State) (h1 : s.Inv) :
    ∃ u, execStow s = .next u ∧ u.Inv := by
  unfold execStow
  with_reducible repeat' first | assumption | apply chipOn_inv | apply tideLand_inv

theorem execHandPublish_inv (s : State) (h1 : s.Inv) :
    ∃ u, execHandPublish s = .next u ∧ u.Inv := by
  unfold execHandPublish
  with_reducible repeat' first | assumption | apply chipOn_inv | apply tideLand_inv

theorem execHandAcquire_inv (s : State) (h1 : s.Inv) :
    ∃ u, execHandAcquire s = .next u ∧ u.Inv := by
  unfold execHandAcquire
  with_reducible repeat' first | assumption | apply chipOn_inv | apply tideLand_inv

theorem execTrig_inv (s : State) (h1 : s.Inv) :
    ∃ u, execTrig s = .next u ∧ u.Inv := by
  unfold execTrig
  with_reducible repeat' first | assumption | apply chipOn_inv | apply tideLand_inv

theorem execCapt_inv (s : State) (h1 : s.Inv) :
    ∃ u, execCapt s = .next u ∧ u.Inv := by
  unfold execCapt
  with_reducible repeat' first | assumption | apply chipOn_inv | apply tideLand_inv

theorem execMotn_inv (s : State) (h1 : s.Inv) :
    ∃ u, execMotn s = .next u ∧ u.Inv := by
  unfold execMotn
  with_reducible repeat' first | assumption | apply chipOn_inv | apply tideLand_inv

theorem execDmas_inv (s : State) (h1 : s.Inv) :
    ∃ u, execDmas s = .next u ∧ u.Inv := by
  unfold execDmas
  with_reducible repeat' first | assumption | apply chipOn_inv | apply tideLand_inv

theorem execEvnt_inv (s : State) (h1 : s.Inv) :
    ∃ u, execEvnt s = .next u ∧ u.Inv := by
  unfold execEvnt
  with_reducible repeat' first | assumption | apply chipOn_inv | apply tideLand_inv

theorem execWake_inv (s : State) (h1 : s.Inv) :
    ∃ u, execWake s = .next u ∧ u.Inv := by
  unfold execWake
  with_reducible repeat' first | assumption | apply chipOn_inv | apply tideLand_inv

theorem execAdcs_inv (s : State) (h1 : s.Inv) :
    ∃ u, execAdcs s = .next u ∧ u.Inv := by
  unfold execAdcs
  with_reducible repeat' first | assumption | apply chipOn_inv | apply tideLand_inv

theorem execValidateA_inv (who : Initiator) (w : Word) (s : State) (h1 : s.Inv) :
    ∃ u, execValidateA who w s = .next u ∧ u.Inv := by
  unfold execValidateA
  with_reducible repeat' first | assumption | apply writeReg_inv

theorem execValidateB_inv (who : Initiator) (w : Word) (s : State) (h1 : s.Inv) :
    ∃ u, execValidateB who w s = .next u ∧ u.Inv := by
  unfold execValidateB
  with_reducible repeat' first | assumption | apply writeReg_inv

theorem execValidationEnd_inv (b : Fin 2) (s : State) (h1 : s.Inv) :
    ∃ u, execValidationEnd b s = .next u ∧ u.Inv := by
  unfold execValidationEnd
  with_reducible repeat' first | assumption | apply chipOn_inv | apply validationEnd_inv

theorem execTideBankWrite_inv (who : Initiator) (a : Word) (w : Word) (s : State) (h1 : s.Inv) :
    ∃ u, execTideBankWrite who a w s = .next u ∧ u.Inv := by
  unfold execTideBankWrite
  with_reducible repeat' first | assumption | apply chipOn_inv | apply State.rowWrite_inv | apply State.Inv_ite | intro _

theorem execSwapArm_inv (who : Initiator) (w : Word) (s : State) (h1 : s.Inv) :
    ∃ u, execSwapArm who w s = .next u ∧ u.Inv := by
  unfold execSwapArm
  with_reducible repeat' first | assumption | apply writeReg_inv

theorem execSwapDisarm_inv (who : Initiator) (w : Word) (s : State) (h1 : s.Inv) :
    ∃ u, execSwapDisarm who w s = .next u ∧ u.Inv := by
  unfold execSwapDisarm
  with_reducible repeat' first | assumption | apply writeReg_inv

theorem execSwapDecision_inv (s : State) (h1 : s.Inv) :
    ∃ u, execSwapDecision s = .next u ∧ u.Inv := by
  unfold execSwapDecision
  with_reducible repeat' first | assumption | apply chipOn_inv | apply swapDecision_inv

theorem execTideHbCfg_inv (who : Initiator) (n : Fin 256) (w : Word) (s : State) (h1 : s.Inv) :
    ∃ u, execTideHbCfg who n w s = .next u ∧ u.Inv := by
  unfold execTideHbCfg
  with_reducible repeat' first | assumption | apply writeReg_inv

theorem execHbCmdPublish_inv (who : Initiator) (w : Word) (s : State) (h1 : s.Inv) :
    ∃ u, execHbCmdPublish who w s = .next u ∧ u.Inv := by
  unfold execHbCmdPublish
  with_reducible repeat' first | assumption | apply writeReg_inv

theorem execHbCmdAcquire_inv (who : Initiator) (w : Word) (s : State) (h1 : s.Inv) :
    ∃ u, execHbCmdAcquire who w s = .next u ∧ u.Inv := by
  unfold execHbCmdAcquire
  with_reducible repeat' first | assumption | apply writeReg_inv

theorem execHeldOperationApply_inv (n : Fin 256) (s : State) (h1 : s.Inv) :
    ∃ u, execHeldOperationApply n s = .next u ∧ u.Inv := by
  unfold execHeldOperationApply
  with_reducible repeat' first | assumption | apply chipOn_inv | apply heldOperationApply_inv

theorem execWindowExpiry_inv (n : Fin 6) (s : State) (h1 : s.Inv) :
    ∃ u, execWindowExpiry n s = .next u ∧ u.Inv := by
  unfold execWindowExpiry
  with_reducible repeat' first | assumption | apply chipOn_inv | apply windowExpiry_inv

/-! ## RowSwitch -/

theorem execFrameReceive_inv (n : Fin 6) (part : RxPart) (s : State) (h1 : s.Inv) :
    ∃ u, execFrameReceive n part s = .next u ∧ u.Inv := by
  unfold execFrameReceive
  with_reducible repeat' first | assumption | apply chipOn_inv | apply frameReceive_inv

theorem execCutThrough_inv (n : Fin 6) (part : CtPart) (s : State) (h1 : s.Inv) :
    ∃ u, execCutThrough n part s = .next u ∧ u.Inv := by
  unfold execCutThrough
  with_reducible repeat' first | assumption | apply chipOn_inv | apply cutThrough_inv

theorem execFrameTransmit_inv (n : Fin 6) (part : TxPart) (s : State) (h1 : s.Inv) :
    ∃ u, execFrameTransmit n part s = .next u ∧ u.Inv := by
  unfold execFrameTransmit
  with_reducible repeat' first | assumption | apply chipOn_inv | apply frameTransmit_inv

theorem execLookup_inv (who : Initiator) (w : Word) (s : State) (h1 : s.Inv) :
    ∃ u, execLookup who w s = .next u ∧ u.Inv := by
  unfold execLookup
  with_reducible repeat' first | assumption | apply writeReg_inv

theorem execMacWrite_inv (who : Initiator) (w : Word) (s : State) (h1 : s.Inv) :
    ∃ u, execMacWrite who w s = .next u ∧ u.Inv := by
  unfold execMacWrite
  with_reducible repeat' first | assumption | apply writeReg_inv

theorem execMacDelete_inv (who : Initiator) (w : Word) (s : State) (h1 : s.Inv) :
    ∃ u, execMacDelete who w s = .next u ∧ u.Inv := by
  unfold execMacDelete
  with_reducible repeat' first | assumption | apply writeReg_inv

theorem execMacFlush_inv (who : Initiator) (w : Word) (s : State) (h1 : s.Inv) :
    ∃ u, execMacFlush who w s = .next u ∧ u.Inv := by
  unfold execMacFlush
  with_reducible repeat' first | assumption | apply writeReg_inv

theorem execReadIndex_inv (who : Initiator) (w : Word) (s : State) (h1 : s.Inv) :
    ∃ u, execReadIndex who w s = .next u ∧ u.Inv := by
  unfold execReadIndex
  with_reducible repeat' first | assumption | apply writeReg_inv

theorem execMacOperationEnd_inv (s : State) (h1 : s.Inv) :
    ∃ u, execMacOperationEnd s = .next u ∧ u.Inv := by
  unfold execMacOperationEnd
  with_reducible repeat' first | assumption | apply chipOn_inv | apply State.clrB_inv | intro _

theorem execAgeingPass_inv (s : State) (h1 : s.Inv) :
    ∃ u, execAgeingPass s = .next u ∧ u.Inv := by
  unfold execAgeingPass
  with_reducible repeat' first | assumption | apply chipOn_inv | apply agePass_inv

theorem execVlanRead_inv (who : Initiator) (w : Word) (s : State) (h1 : s.Inv) :
    ∃ u, execVlanRead who w s = .next u ∧ u.Inv := by
  unfold execVlanRead
  with_reducible repeat' first | assumption | apply writeReg_inv

theorem execVlanWrite_inv (who : Initiator) (w : Word) (s : State) (h1 : s.Inv) :
    ∃ u, execVlanWrite who w s = .next u ∧ u.Inv := by
  unfold execVlanWrite
  with_reducible repeat' first | assumption | apply writeReg_inv

theorem execStreamRead_inv (who : Initiator) (w : Word) (s : State) (h1 : s.Inv) :
    ∃ u, execStreamRead who w s = .next u ∧ u.Inv := by
  unfold execStreamRead
  with_reducible repeat' first | assumption | apply writeReg_inv

theorem execStreamWrite_inv (who : Initiator) (w : Word) (s : State) (h1 : s.Inv) :
    ∃ u, execStreamWrite who w s = .next u ∧ u.Inv := by
  unfold execStreamWrite
  with_reducible repeat' first | assumption | apply writeReg_inv

theorem execStreamClear_inv (who : Initiator) (w : Word) (s : State) (h1 : s.Inv) :
    ∃ u, execStreamClear who w s = .next u ∧ u.Inv := by
  unfold execStreamClear
  with_reducible repeat' first | assumption | apply writeReg_inv

theorem execUnblock_inv (who : Initiator) (w : Word) (s : State) (h1 : s.Inv) :
    ∃ u, execUnblock who w s = .next u ∧ u.Inv := by
  unfold execUnblock
  with_reducible repeat' first | assumption | apply writeReg_inv

theorem execStreamOperationEnd_inv (s : State) (h1 : s.Inv) :
    ∃ u, execStreamOperationEnd s = .next u ∧ u.Inv := by
  unfold execStreamOperationEnd
  with_reducible repeat' first | assumption | apply chipOn_inv | apply streamOperationEnd_inv

/-! ## RowPort -/

theorem execPortMode_inv (who : Initiator) (n : Fin 6) (w : Word) (s : State) (h1 : s.Inv) :
    ∃ u, execPortMode who n w s = .next u ∧ u.Inv := by
  unfold execPortMode
  with_reducible repeat' first | assumption | apply writeReg_inv

theorem execPortCtlReset_inv (who : Initiator) (n : Fin 6) (w : Word) (s : State) (h1 : s.Inv) :
    ∃ u, execPortCtlReset who n w s = .next u ∧ u.Inv := by
  unfold execPortCtlReset
  with_reducible repeat' first | assumption | apply writeReg_inv

theorem execPortResetEnd_inv (n : Fin 6) (s : State) (h1 : s.Inv) :
    ∃ u, execPortResetEnd n s = .next u ∧ u.Inv := by
  unfold execPortResetEnd
  with_reducible repeat' first | assumption | apply chipOn_inv | apply portResetEnd_inv

theorem execRestartAn_inv (who : Initiator) (n : Fin 6) (w : Word) (s : State) (h1 : s.Inv) :
    ∃ u, execRestartAn who n w s = .next u ∧ u.Inv := by
  unfold execRestartAn
  with_reducible repeat' first | assumption | apply writeReg_inv

theorem execLinkUp_inv (n : Fin 6) (fin : LinkEnd) (s : State) (h1 : s.Inv) :
    ∃ u, execLinkUp n fin s = .next u ∧ u.Inv := by
  unfold execLinkUp
  with_reducible repeat' first | assumption | apply chipOn_inv | apply linkUp_inv

theorem execLinkLoss_inv (n : Fin 6) (s : State) (h1 : s.Inv) :
    ∃ u, execLinkLoss n s = .next u ∧ u.Inv := by
  unfold execLinkLoss
  with_reducible repeat' first | assumption | apply chipOn_inv | apply linkLoss_inv

theorem execLinkFilterExpiry_inv (n : Fin 6) (s : State) (h1 : s.Inv) :
    ∃ u, execLinkFilterExpiry n s = .next u ∧ u.Inv := by
  unfold execLinkFilterExpiry
  with_reducible repeat' first | assumption | apply chipOn_inv | apply linkFilterExpiry_inv

theorem execPauseFrame_inv (n : Fin 6) (quanta : BitVec 16) (s : State) (h1 : s.Inv) :
    ∃ u, execPauseFrame n quanta s = .next u ∧ u.Inv := by
  unfold execPauseFrame
  with_reducible repeat' first | assumption | apply chipOn_inv | apply pauseFrame_inv

theorem execPfcFrame_inv (n : Fin 6) (vec : BitVec 16) (times : List (BitVec 16)) (s : State) (h1 : s.Inv) :
    ∃ u, execPfcFrame n vec times s = .next u ∧ u.Inv := by
  unfold execPfcFrame
  with_reducible repeat' first | assumption | apply chipOn_inv | apply pfcFrame_inv

theorem execUnsupOpcode_inv (n : Fin 6) (s : State) (h1 : s.Inv) :
    ∃ u, execUnsupOpcode n s = .next u ∧ u.Inv := by
  unfold execUnsupOpcode
  with_reducible repeat' first | assumption | apply chipOn_inv | apply unsupOpcode_inv

theorem execPauseExpiry_inv (n : Fin 6) (prio : Option (Fin 8)) (s : State) (h1 : s.Inv) :
    ∃ u, execPauseExpiry n prio s = .next u ∧ u.Inv := by
  unfold execPauseExpiry
  with_reducible repeat' first | assumption | apply chipOn_inv | apply pauseExpiry_inv

theorem execSend_inv (who : Initiator) (n : Fin 6) (w : Word) (s : State) (h1 : s.Inv) :
    ∃ u, execSend who n w s = .next u ∧ u.Inv := by
  unfold execSend
  with_reducible repeat' first | assumption | apply writeReg_inv

theorem execLpiEntry_inv (n : Fin 6) (s : State) (h1 : s.Inv) :
    ∃ u, execLpiEntry n s = .next u ∧ u.Inv := by
  unfold execLpiEntry
  with_reducible repeat' first | assumption | apply chipOn_inv | apply lpiEntry_inv

theorem execWakeOnQueue_inv (n : Fin 6) (s : State) (h1 : s.Inv) :
    ∃ u, execWakeOnQueue n s = .next u ∧ u.Inv := by
  unfold execWakeOnQueue
  with_reducible repeat' first | assumption | apply chipOn_inv | apply wakeOnQueue_inv

theorem execWakeComplete_inv (n : Fin 6) (s : State) (h1 : s.Inv) :
    ∃ u, execWakeComplete n s = .next u ∧ u.Inv := by
  unfold execWakeComplete
  with_reducible repeat' first | assumption | apply chipOn_inv | apply wakeComplete_inv

theorem execLpiRx_inv (n : Fin 6) (idle : Bool) (s : State) (h1 : s.Inv) :
    ∃ u, execLpiRx n idle s = .next u ∧ u.Inv := by
  unfold execLpiRx
  with_reducible repeat' first | assumption | apply chipOn_inv | apply lpiRx_inv

theorem execVerifyTimerExpiry_inv (n : Fin 6) (s : State) (h1 : s.Inv) :
    ∃ u, execVerifyTimerExpiry n s = .next u ∧ u.Inv := by
  unfold execVerifyTimerExpiry
  with_reducible repeat' first | assumption | apply chipOn_inv | apply verifyTimerExpiry_inv

theorem execVerifyResponse_inv (n : Fin 6) (s : State) (h1 : s.Inv) :
    ∃ u, execVerifyResponse n s = .next u ∧ u.Inv := by
  unfold execVerifyResponse
  with_reducible repeat' first | assumption | apply chipOn_inv | apply verifyResponse_inv

theorem execPortMmCtl_inv (who : Initiator) (n : Fin 6) (w : Word) (s : State) (h1 : s.Inv) :
    ∃ u, execPortMmCtl who n w s = .next u ∧ u.Inv := by
  unfold execPortMmCtl
  with_reducible repeat' first | assumption | apply writeReg_inv

theorem execPortMdioCmd_inv (who : Initiator) (w : Word) (s : State) (h1 : s.Inv) :
    ∃ u, execPortMdioCmd who w s = .next u ∧ u.Inv := by
  unfold execPortMdioCmd
  with_reducible repeat' first | assumption | apply writeReg_inv

theorem execMdioOperationEnd_inv (data : BitVec 16) (s : State) (h1 : s.Inv) :
    ∃ u, execMdioOperationEnd data s = .next u ∧ u.Inv := by
  unfold execMdioOperationEnd
  with_reducible repeat' first | assumption | apply chipOn_inv | apply mdioEnd_inv

/-! ## RowStow -/

theorem execCommit_inv (who : Initiator) (w : Word) (s : State) (h1 : s.Inv) :
    ∃ u, execCommit who w s = .next u ∧ u.Inv := by
  unfold execCommit
  with_reducible repeat' first | assumption | apply writeReg_inv

theorem execCommitEnd_inv (s : State) (h1 : s.Inv) :
    ∃ u, execCommitEnd s = .next u ∧ u.Inv := by
  unfold execCommitEnd
  with_reducible repeat' first | assumption | apply chipOn_inv | apply commitEnd_inv

theorem execStowClear_inv (who : Initiator) (w : Word) (s : State) (h1 : s.Inv) :
    ∃ u, execStowClear who w s = .next u ∧ u.Inv := by
  unfold execStowClear
  with_reducible repeat' first | assumption | apply writeReg_inv

/-! ## RowQeIsa -/

theorem execNop_inv (n : Fin 25) (s : State) (h1 : s.Inv) :
    ∃ u, execNop n s = .next u ∧ u.Inv := by
  unfold execNop
  with_reducible repeat' first | assumption | apply coreOn_inv | apply qeRow_inv | apply iNop_inv | intro _

theorem execMov_inv (n : Fin 25) (s : State) (h1 : s.Inv) :
    ∃ u, execMov n s = .next u ∧ u.Inv := by
  unfold execMov
  with_reducible repeat' first | assumption | apply coreOn_inv | apply qeRow_inv | apply iMov_inv | intro _

theorem execSext_inv (n : Fin 25) (s : State) (h1 : s.Inv) :
    ∃ u, execSext n s = .next u ∧ u.Inv := by
  unfold execSext
  with_reducible repeat' first | assumption | apply coreOn_inv | apply qeRow_inv | apply iSext_inv | intro _

theorem execZext_inv (n : Fin 25) (s : State) (h1 : s.Inv) :
    ∃ u, execZext n s = .next u ∧ u.Inv := by
  unfold execZext
  with_reducible repeat' first | assumption | apply coreOn_inv | apply qeRow_inv | apply iZext_inv | intro _

theorem execLea_inv (n : Fin 25) (s : State) (h1 : s.Inv) :
    ∃ u, execLea n s = .next u ∧ u.Inv := by
  unfold execLea
  with_reducible repeat' first | assumption | apply coreOn_inv | apply qeRow_inv | apply iLea_inv | intro _

theorem execBswap_inv (n : Fin 25) (s : State) (h1 : s.Inv) :
    ∃ u, execBswap n s = .next u ∧ u.Inv := by
  unfold execBswap
  with_reducible repeat' first | assumption | apply coreOn_inv | apply qeRow_inv | apply iBswap_inv | intro _

theorem execAdd_inv (n : Fin 25) (s : State) (h1 : s.Inv) :
    ∃ u, execAdd n s = .next u ∧ u.Inv := by
  unfold execAdd
  with_reducible repeat' first | assumption | apply coreOn_inv | apply qeRow_inv | apply iAdd_inv | intro _

theorem execAdc_inv (n : Fin 25) (s : State) (h1 : s.Inv) :
    ∃ u, execAdc n s = .next u ∧ u.Inv := by
  unfold execAdc
  with_reducible repeat' first | assumption | apply coreOn_inv | apply qeRow_inv | apply iAdc_inv | intro _

theorem execSub_inv (n : Fin 25) (s : State) (h1 : s.Inv) :
    ∃ u, execSub n s = .next u ∧ u.Inv := by
  unfold execSub
  with_reducible repeat' first | assumption | apply coreOn_inv | apply qeRow_inv | apply iSub_inv | intro _

theorem execSbb_inv (n : Fin 25) (s : State) (h1 : s.Inv) :
    ∃ u, execSbb n s = .next u ∧ u.Inv := by
  unfold execSbb
  with_reducible repeat' first | assumption | apply coreOn_inv | apply qeRow_inv | apply iSbb_inv | intro _

theorem execNeg_inv (n : Fin 25) (s : State) (h1 : s.Inv) :
    ∃ u, execNeg n s = .next u ∧ u.Inv := by
  unfold execNeg
  with_reducible repeat' first | assumption | apply coreOn_inv | apply qeRow_inv | apply iNeg_inv | intro _

theorem execMul_inv (n : Fin 25) (s : State) (h1 : s.Inv) :
    ∃ u, execMul n s = .next u ∧ u.Inv := by
  unfold execMul
  with_reducible repeat' first | assumption | apply coreOn_inv | apply qeRow_inv | apply iMul_inv | intro _

theorem execMulhu_inv (n : Fin 25) (s : State) (h1 : s.Inv) :
    ∃ u, execMulhu n s = .next u ∧ u.Inv := by
  unfold execMulhu
  with_reducible repeat' first | assumption | apply coreOn_inv | apply qeRow_inv | apply iMulhu_inv | intro _

theorem execMulhs_inv (n : Fin 25) (s : State) (h1 : s.Inv) :
    ∃ u, execMulhs n s = .next u ∧ u.Inv := by
  unfold execMulhs
  with_reducible repeat' first | assumption | apply coreOn_inv | apply qeRow_inv | apply iMulhs_inv | intro _

theorem execMac_inv (n : Fin 25) (s : State) (h1 : s.Inv) :
    ∃ u, execMac n s = .next u ∧ u.Inv := by
  unfold execMac
  with_reducible repeat' first | assumption | apply coreOn_inv | apply qeRow_inv | apply iMac_inv | intro _

theorem execAnd_inv (n : Fin 25) (s : State) (h1 : s.Inv) :
    ∃ u, execAnd n s = .next u ∧ u.Inv := by
  unfold execAnd
  with_reducible repeat' first | assumption | apply coreOn_inv | apply qeRow_inv | apply iAnd_inv | intro _

theorem execOr_inv (n : Fin 25) (s : State) (h1 : s.Inv) :
    ∃ u, execOr n s = .next u ∧ u.Inv := by
  unfold execOr
  with_reducible repeat' first | assumption | apply coreOn_inv | apply qeRow_inv | apply iOr_inv | intro _

theorem execXor_inv (n : Fin 25) (s : State) (h1 : s.Inv) :
    ∃ u, execXor n s = .next u ∧ u.Inv := by
  unfold execXor
  with_reducible repeat' first | assumption | apply coreOn_inv | apply qeRow_inv | apply iXor_inv | intro _

theorem execAndn_inv (n : Fin 25) (s : State) (h1 : s.Inv) :
    ∃ u, execAndn n s = .next u ∧ u.Inv := by
  unfold execAndn
  with_reducible repeat' first | assumption | apply coreOn_inv | apply qeRow_inv | apply iAndn_inv | intro _

theorem execNot_inv (n : Fin 25) (s : State) (h1 : s.Inv) :
    ∃ u, execNot n s = .next u ∧ u.Inv := by
  unfold execNot
  with_reducible repeat' first | assumption | apply coreOn_inv | apply qeRow_inv | apply iNot_inv | intro _

theorem execShl_inv (n : Fin 25) (s : State) (h1 : s.Inv) :
    ∃ u, execShl n s = .next u ∧ u.Inv := by
  unfold execShl
  with_reducible repeat' first | assumption | apply coreOn_inv | apply qeRow_inv | apply iShl_inv | intro _

theorem execShr_inv (n : Fin 25) (s : State) (h1 : s.Inv) :
    ∃ u, execShr n s = .next u ∧ u.Inv := by
  unfold execShr
  with_reducible repeat' first | assumption | apply coreOn_inv | apply qeRow_inv | apply iShr_inv | intro _

theorem execSar_inv (n : Fin 25) (s : State) (h1 : s.Inv) :
    ∃ u, execSar n s = .next u ∧ u.Inv := by
  unfold execSar
  with_reducible repeat' first | assumption | apply coreOn_inv | apply qeRow_inv | apply iSar_inv | intro _

theorem execRol_inv (n : Fin 25) (s : State) (h1 : s.Inv) :
    ∃ u, execRol n s = .next u ∧ u.Inv := by
  unfold execRol
  with_reducible repeat' first | assumption | apply coreOn_inv | apply qeRow_inv | apply iRol_inv | intro _

theorem execRor_inv (n : Fin 25) (s : State) (h1 : s.Inv) :
    ∃ u, execRor n s = .next u ∧ u.Inv := by
  unfold execRor
  with_reducible repeat' first | assumption | apply coreOn_inv | apply qeRow_inv | apply iRor_inv | intro _

theorem execBfx_inv (n : Fin 25) (s : State) (h1 : s.Inv) :
    ∃ u, execBfx n s = .next u ∧ u.Inv := by
  unfold execBfx
  with_reducible repeat' first | assumption | apply coreOn_inv | apply qeRow_inv | apply iBfx_inv | intro _

theorem execBfxs_inv (n : Fin 25) (s : State) (h1 : s.Inv) :
    ∃ u, execBfxs n s = .next u ∧ u.Inv := by
  unfold execBfxs
  with_reducible repeat' first | assumption | apply coreOn_inv | apply qeRow_inv | apply iBfxs_inv | intro _

theorem execBfi_inv (n : Fin 25) (s : State) (h1 : s.Inv) :
    ∃ u, execBfi n s = .next u ∧ u.Inv := by
  unfold execBfi
  with_reducible repeat' first | assumption | apply coreOn_inv | apply qeRow_inv | apply iBfi_inv | intro _

theorem execBset_inv (n : Fin 25) (s : State) (h1 : s.Inv) :
    ∃ u, execBset n s = .next u ∧ u.Inv := by
  unfold execBset
  with_reducible repeat' first | assumption | apply coreOn_inv | apply qeRow_inv | apply iBset_inv | intro _

theorem execBclr_inv (n : Fin 25) (s : State) (h1 : s.Inv) :
    ∃ u, execBclr n s = .next u ∧ u.Inv := by
  unfold execBclr
  with_reducible repeat' first | assumption | apply coreOn_inv | apply qeRow_inv | apply iBclr_inv | intro _

theorem execBeq_inv (n : Fin 25) (s : State) (h1 : s.Inv) :
    ∃ u, execBeq n s = .next u ∧ u.Inv := by
  unfold execBeq
  with_reducible repeat' first | assumption | apply coreOn_inv | apply qeRow_inv | apply iBeq_inv | intro _

theorem execBne_inv (n : Fin 25) (s : State) (h1 : s.Inv) :
    ∃ u, execBne n s = .next u ∧ u.Inv := by
  unfold execBne
  with_reducible repeat' first | assumption | apply coreOn_inv | apply qeRow_inv | apply iBne_inv | intro _

theorem execBlt_inv (n : Fin 25) (s : State) (h1 : s.Inv) :
    ∃ u, execBlt n s = .next u ∧ u.Inv := by
  unfold execBlt
  with_reducible repeat' first | assumption | apply coreOn_inv | apply qeRow_inv | apply iBlt_inv | intro _

theorem execBge_inv (n : Fin 25) (s : State) (h1 : s.Inv) :
    ∃ u, execBge n s = .next u ∧ u.Inv := by
  unfold execBge
  with_reducible repeat' first | assumption | apply coreOn_inv | apply qeRow_inv | apply iBge_inv | intro _

theorem execBltu_inv (n : Fin 25) (s : State) (h1 : s.Inv) :
    ∃ u, execBltu n s = .next u ∧ u.Inv := by
  unfold execBltu
  with_reducible repeat' first | assumption | apply coreOn_inv | apply qeRow_inv | apply iBltu_inv | intro _

theorem execBgeu_inv (n : Fin 25) (s : State) (h1 : s.Inv) :
    ∃ u, execBgeu n s = .next u ∧ u.Inv := by
  unfold execBgeu
  with_reducible repeat' first | assumption | apply coreOn_inv | apply qeRow_inv | apply iBgeu_inv | intro _

theorem execBbs_inv (n : Fin 25) (s : State) (h1 : s.Inv) :
    ∃ u, execBbs n s = .next u ∧ u.Inv := by
  unfold execBbs
  with_reducible repeat' first | assumption | apply coreOn_inv | apply qeRow_inv | apply iBbs_inv | intro _

theorem execBbc_inv (n : Fin 25) (s : State) (h1 : s.Inv) :
    ∃ u, execBbc n s = .next u ∧ u.Inv := by
  unfold execBbc
  with_reducible repeat' first | assumption | apply coreOn_inv | apply qeRow_inv | apply iBbc_inv | intro _

theorem execJmp_inv (n : Fin 25) (s : State) (h1 : s.Inv) :
    ∃ u, execJmp n s = .next u ∧ u.Inv := by
  unfold execJmp
  with_reducible repeat' first | assumption | apply coreOn_inv | apply qeRow_inv | apply iJmp_inv | intro _

theorem execBf_inv (n : Fin 25) (s : State) (h1 : s.Inv) :
    ∃ u, execBf n s = .next u ∧ u.Inv := by
  unfold execBf
  with_reducible repeat' first | assumption | apply coreOn_inv | apply qeRow_inv | apply iBf_inv | intro _

theorem execDjnz_inv (n : Fin 25) (s : State) (h1 : s.Inv) :
    ∃ u, execDjnz n s = .next u ∧ u.Inv := by
  unfold execDjnz
  with_reducible repeat' first | assumption | apply coreOn_inv | apply qeRow_inv | apply iDjnz_inv | intro _

theorem execCall_inv (n : Fin 25) (s : State) (h1 : s.Inv) :
    ∃ u, execCall n s = .next u ∧ u.Inv := by
  unfold execCall
  with_reducible repeat' first | assumption | apply coreOn_inv | apply qeRow_inv | apply iCall_inv | intro _

theorem execRet_inv (n : Fin 25) (s : State) (h1 : s.Inv) :
    ∃ u, execRet n s = .next u ∧ u.Inv := by
  unfold execRet
  with_reducible repeat' first | assumption | apply coreOn_inv | apply qeRow_inv | apply iRet_inv | intro _

theorem execTrap_inv (n : Fin 25) (s : State) (h1 : s.Inv) :
    ∃ u, execTrap n s = .next u ∧ u.Inv := by
  unfold execTrap
  with_reducible repeat' first | assumption | apply coreOn_inv | apply qeRow_inv | apply iTrap_inv | intro _

theorem execRett_inv (n : Fin 25) (s : State) (h1 : s.Inv) :
    ∃ u, execRett n s = .next u ∧ u.Inv := by
  unfold execRett
  with_reducible repeat' first | assumption | apply coreOn_inv | apply qeRow_inv | apply iRett_inv | intro _

theorem execCrc32_inv (n : Fin 25) (s : State) (h1 : s.Inv) :
    ∃ u, execCrc32 n s = .next u ∧ u.Inv := by
  unfold execCrc32
  with_reducible repeat' first | assumption | apply coreOn_inv | apply qeRow_inv | apply iCrc32_inv | intro _

theorem execCrc16r_inv (n : Fin 25) (s : State) (h1 : s.Inv) :
    ∃ u, execCrc16r n s = .next u ∧ u.Inv := by
  unfold execCrc16r
  with_reducible repeat' first | assumption | apply coreOn_inv | apply qeRow_inv | apply iCrc16r_inv | intro _

theorem execCrc16n_inv (n : Fin 25) (s : State) (h1 : s.Inv) :
    ∃ u, execCrc16n n s = .next u ∧ u.Inv := by
  unfold execCrc16n
  with_reducible repeat' first | assumption | apply coreOn_inv | apply qeRow_inv | apply iCrc16n_inv | intro _

theorem execCsum_inv (n : Fin 25) (s : State) (h1 : s.Inv) :
    ∃ u, execCsum n s = .next u ∧ u.Inv := by
  unfold execCsum
  with_reducible repeat' first | assumption | apply coreOn_inv | apply qeRow_inv | apply iCsum_inv | intro _

theorem execRep_inv (n : Fin 25) (s : State) (h1 : s.Inv) :
    ∃ u, execRep n s = .next u ∧ u.Inv := by
  unfold execRep
  with_reducible repeat' first | assumption | apply coreOn_inv | apply qePrefixRow_inv

theorem execRepi_inv (n : Fin 25) (s : State) (h1 : s.Inv) :
    ∃ u, execRepi n s = .next u ∧ u.Inv := by
  unfold execRepi
  with_reducible repeat' first | assumption | apply coreOn_inv | apply qePrefixRow_inv

theorem execFqpush_inv (n : Fin 25) (s : State) (h1 : s.Inv) :
    ∃ u, execFqpush n s = .next u ∧ u.Inv := by
  unfold execFqpush
  with_reducible repeat' first | assumption | apply coreOn_inv | apply qeRow_inv | apply iFqpush_inv | intro _

theorem execFqpop_inv (n : Fin 25) (s : State) (h1 : s.Inv) :
    ∃ u, execFqpop n s = .next u ∧ u.Inv := by
  unfold execFqpop
  with_reducible repeat' first | assumption | apply coreOn_inv | apply qeRow_inv | apply iFqpop_inv | intro _

theorem execFqpkt_inv (n : Fin 25) (s : State) (h1 : s.Inv) :
    ∃ u, execFqpkt n s = .next u ∧ u.Inv := by
  unfold execFqpkt
  with_reducible repeat' first | assumption | apply coreOn_inv | apply qeRow_inv | apply iFqpkt_inv | intro _

theorem execSnext_inv (n : Fin 25) (s : State) (h1 : s.Inv) :
    ∃ u, execSnext n s = .next u ∧ u.Inv := by
  unfold execSnext
  with_reducible repeat' first | assumption | apply coreOn_inv | apply qeRow_inv | apply iSnext_inv | intro _

theorem execSclose_inv (n : Fin 25) (s : State) (h1 : s.Inv) :
    ∃ u, execSclose n s = .next u ∧ u.Inv := by
  unfold execSclose
  with_reducible repeat' first | assumption | apply coreOn_inv | apply qeRow_inv | apply iSclose_inv | intro _

theorem execSstat_inv (n : Fin 25) (s : State) (h1 : s.Inv) :
    ∃ u, execSstat n s = .next u ∧ u.Inv := by
  unfold execSstat
  with_reducible repeat' first | assumption | apply coreOn_inv | apply qeRow_inv | apply iSstat_inv | intro _

theorem execWaite_inv (n : Fin 25) (s : State) (h1 : s.Inv) :
    ∃ u, execWaite n s = .next u ∧ u.Inv := by
  unfold execWaite
  with_reducible repeat' first | assumption | apply coreOn_inv | apply qeRow_inv | apply iWaite_inv | intro _

theorem execWaiteComplete_inv (n : Fin 25) (s : State) (h1 : s.Inv) :
    ∃ u, execWaiteComplete n s = .next u ∧ u.Inv := by
  unfold execWaiteComplete
  with_reducible repeat' first | assumption | apply coreOn_inv | apply waiteComplete_inv

theorem execWaiteTimeout_inv (n : Fin 25) (s : State) (h1 : s.Inv) :
    ∃ u, execWaiteTimeout n s = .next u ∧ u.Inv := by
  unfold execWaiteTimeout
  with_reducible repeat' first | assumption | apply coreOn_inv | apply waiteTimeout_inv

theorem execWaitt_inv (n : Fin 25) (s : State) (h1 : s.Inv) :
    ∃ u, execWaitt n s = .next u ∧ u.Inv := by
  unfold execWaitt
  with_reducible repeat' first | assumption | apply coreOn_inv | apply qeRow_inv | apply iWaitt_inv | intro _

theorem execWaittComplete_inv (n : Fin 25) (s : State) (h1 : s.Inv) :
    ∃ u, execWaittComplete n s = .next u ∧ u.Inv := by
  unfold execWaittComplete
  with_reducible repeat' first | assumption | apply coreOn_inv | apply waittComplete_inv

theorem execYield_inv (n : Fin 25) (s : State) (h1 : s.Inv) :
    ∃ u, execYield n s = .next u ∧ u.Inv := by
  unfold execYield
  with_reducible repeat' first | assumption | apply coreOn_inv | apply qeRow_inv | apply iYield_inv | intro _

theorem execSwap_inv (n : Fin 25) (s : State) (h1 : s.Inv) :
    ∃ u, execSwap n s = .next u ∧ u.Inv := by
  unfold execSwap
  with_reducible repeat' first | assumption | apply coreOn_inv | apply qeRow_inv | apply iSwap_inv | intro _

theorem execTas_inv (n : Fin 25) (s : State) (h1 : s.Inv) :
    ∃ u, execTas n s = .next u ∧ u.Inv := by
  unfold execTas
  with_reducible repeat' first | assumption | apply coreOn_inv | apply qeRow_inv | apply iTas_inv | intro _

theorem execCas_inv (n : Fin 25) (s : State) (h1 : s.Inv) :
    ∃ u, execCas n s = .next u ∧ u.Inv := by
  unfold execCas
  with_reducible repeat' first | assumption | apply coreOn_inv | apply qeRow_inv | apply iCas_inv | intro _

theorem execScope_inv (n : Fin 25) (s : State) (h1 : s.Inv) :
    ∃ u, execScope n s = .next u ∧ u.Inv := by
  unfold execScope
  with_reducible repeat' first | assumption | apply coreOn_inv | apply qeRow_inv | apply iScope_inv | intro _

theorem execLogev_inv (n : Fin 25) (s : State) (h1 : s.Inv) :
    ∃ u, execLogev n s = .next u ∧ u.Inv := by
  unfold execLogev
  with_reducible repeat' first | assumption | apply coreOn_inv | apply qeRow_inv | apply iLogev_inv | intro _

theorem execIfence_inv (n : Fin 25) (s : State) (h1 : s.Inv) :
    ∃ u, execIfence n s = .next u ∧ u.Inv := by
  unfold execIfence
  with_reducible repeat' first | assumption | apply coreOn_inv | apply qeRow_inv | apply iIfence_inv | intro _

theorem execEmu_inv (n : Fin 25) (s : State) (h1 : s.Inv) :
    ∃ u, execEmu n s = .next u ∧ u.Inv := by
  unfold execEmu
  with_reducible repeat' first | assumption | apply coreOn_inv | apply emu_inv

/-! ## RowQe -/

theorem execStreamWaitEnd_inv (n : Fin 25) (s : State) (h1 : s.Inv) :
    ∃ u, execStreamWaitEnd n s = .next u ∧ u.Inv := by
  unfold execStreamWaitEnd
  with_reducible repeat' first | assumption | apply coreOn_inv | apply streamWaitEnd_inv

theorem execEventInterrupt_inv (n : Fin 25) (s : State) (h1 : s.Inv) :
    ∃ u, execEventInterrupt n s = .next u ∧ u.Inv := by
  unfold execEventInterrupt
  with_reducible repeat' first | assumption | apply coreOn_inv | apply eventInterrupt_inv

theorem execBreakpoint_inv (n : Fin 25) (s : State) (h1 : s.Inv) :
    ∃ u, execBreakpoint n s = .next u ∧ u.Inv := by
  unfold execBreakpoint
  with_reducible repeat' first | assumption | apply coreOn_inv | apply breakpoint_inv

theorem execEventSet_inv (who : Initiator) (n : Fin 25) (w : Word) (s : State) (h1 : s.Inv) :
    ∃ u, execEventSet who n w s = .next u ∧ u.Inv := by
  unfold execEventSet
  with_reducible repeat' first | assumption | apply writeReg_inv

theorem execQeTimer_inv (n : Fin 25) (s : State) (h1 : s.Inv) :
    ∃ u, execQeTimer n s = .next u ∧ u.Inv := by
  unfold execQeTimer
  with_reducible repeat' first | assumption | apply coreOn_inv | apply qeTimer_inv

theorem execQeStart_inv (who : Initiator) (n : Fin 25) (w : Word) (s : State) (h1 : s.Inv) :
    ∃ u, execQeStart who n w s = .next u ∧ u.Inv := by
  unfold execQeStart
  with_reducible repeat' first | assumption | apply writeReg_inv

theorem execQeStop_inv (who : Initiator) (n : Fin 25) (w : Word) (s : State) (h1 : s.Inv) :
    ∃ u, execQeStop who n w s = .next u ∧ u.Inv := by
  unfold execQeStop
  with_reducible repeat' first | assumption | apply writeReg_inv

theorem execQeHalt_inv (who : Initiator) (n : Fin 25) (w : Word) (s : State) (h1 : s.Inv) :
    ∃ u, execQeHalt who n w s = .next u ∧ u.Inv := by
  unfold execQeHalt
  with_reducible repeat' first | assumption | apply writeReg_inv

theorem execQeResume_inv (who : Initiator) (n : Fin 25) (w : Word) (s : State) (h1 : s.Inv) :
    ∃ u, execQeResume who n w s = .next u ∧ u.Inv := by
  unfold execQeResume
  with_reducible repeat' first | assumption | apply writeReg_inv

theorem execQeStep_inv (who : Initiator) (n : Fin 25) (w : Word) (s : State) (h1 : s.Inv) :
    ∃ u, execQeStep who n w s = .next u ∧ u.Inv := by
  unfold execQeStep
  with_reducible repeat' first | assumption | apply coreOn_inv | apply qeStepRow_inv | apply State.rowWrite_inv | intro _

theorem execQeStopLands_inv (n : Fin 25) (s : State) (h1 : s.Inv) :
    ∃ u, execQeStopLands n s = .next u ∧ u.Inv := by
  unfold execQeStopLands
  with_reducible repeat' first | assumption | apply coreOn_inv | apply qeStopLands_inv

theorem execQeWatchdogExpiry_inv (n : Fin 25) (s : State) (h1 : s.Inv) :
    ∃ u, execQeWatchdogExpiry n s = .next u ∧ u.Inv := by
  unfold execQeWatchdogExpiry
  with_reducible repeat' first | assumption | apply coreOn_inv | apply qeWatchdogExpiry_inv

theorem execKick_inv (who : Initiator) (n : Fin 25) (w : Word) (s : State) (h1 : s.Inv) :
    ∃ u, execKick who n w s = .next u ∧ u.Inv := by
  unfold execKick
  with_reducible repeat' first | assumption | apply writeReg_inv

theorem execBerthCtlStart_inv (who : Initiator) (b : Fin 24) (w : Word) (s : State) (h1 : s.Inv) :
    ∃ u, execBerthCtlStart who b w s = .next u ∧ u.Inv := by
  unfold execBerthCtlStart
  with_reducible repeat' first | assumption | apply writeReg_inv

theorem execBerthCtlStop_inv (who : Initiator) (b : Fin 24) (w : Word) (s : State) (h1 : s.Inv) :
    ∃ u, execBerthCtlStop who b w s = .next u ∧ u.Inv := by
  unfold execBerthCtlStop
  with_reducible repeat' first | assumption | apply writeReg_inv

theorem execNotify_inv (who : Initiator) (b : Fin 24) (w : Word) (s : State) (h1 : s.Inv) :
    ∃ u, execNotify who b w s = .next u ∧ u.Inv := by
  unfold execNotify
  with_reducible repeat' first | assumption | apply writeReg_inv

theorem execBerthCtlReset_inv (who : Initiator) (b : Fin 24) (w : Word) (s : State) (h1 : s.Inv) :
    ∃ u, execBerthCtlReset who b w s = .next u ∧ u.Inv := by
  unfold execBerthCtlReset
  with_reducible repeat' first | assumption | apply writeReg_inv

theorem execBerthResetEnd_inv (b : Fin 24) (s : State) (h1 : s.Inv) :
    ∃ u, execBerthResetEnd b s = .next u ∧ u.Inv := by
  unfold execBerthResetEnd
  with_reducible repeat' first | assumption | apply coreOn_inv | apply berthResetEnd_inv

/-! ## RowFerry -/

theorem execFqDataWrite_inv (who : Initiator) (q : Fin 512) (w : Word) (s : State) (h1 : s.Inv) :
    ∃ u, execFqDataWrite who q w s = .next u ∧ u.Inv := by
  unfold execFqDataWrite
  with_reducible repeat' first | assumption | apply writeReg_inv

theorem execFqTagWrite_inv (who : Initiator) (q : Fin 512) (w : Word) (s : State) (h1 : s.Inv) :
    ∃ u, execFqTagWrite who q w s = .next u ∧ u.Inv := by
  unfold execFqTagWrite
  with_reducible repeat' first | assumption | apply writeReg_inv

theorem execFqDataRead_inv (who : Initiator) (q : Fin 512) (s : State) (h1 : s.Inv) :
    ∃ u, execFqDataRead who q s = .next u ∧ u.Inv := by
  unfold execFqDataRead
  with_reducible repeat' first | assumption | apply readReg_inv

theorem execFerryFlush_inv (who : Initiator) (w : Word) (s : State) (h1 : s.Inv) :
    ∃ u, execFerryFlush who w s = .next u ∧ u.Inv := by
  unfold execFerryFlush
  with_reducible repeat' first | assumption | apply writeReg_inv

theorem execFerryQCtlFlush_inv (who : Initiator) (w : Word) (s : State) (h1 : s.Inv) :
    ∃ u, execFerryQCtlFlush who w s = .next u ∧ u.Inv := by
  unfold execFerryQCtlFlush
  with_reducible repeat' first | assumption | apply writeReg_inv

theorem execSwitchPortTransmit_inv (p : Fin 2) (s : State) (h1 : s.Inv) :
    ∃ u, execSwitchPortTransmit p s = .next u ∧ u.Inv := by
  unfold execSwitchPortTransmit
  with_reducible repeat' first | assumption | apply coreOn_inv | apply switchPortTransmit_inv

theorem execDmaStart_inv (who : Initiator) (ch : Fin 32) (w : Word) (s : State) (h1 : s.Inv) :
    ∃ u, execDmaStart who ch w s = .next u ∧ u.Inv := by
  unfold execDmaStart
  with_reducible repeat' first | assumption | apply writeReg_inv

theorem execAbort_inv (who : Initiator) (ch : Fin 32) (w : Word) (s : State) (h1 : s.Inv) :
    ∃ u, execAbort who ch w s = .next u ∧ u.Inv := by
  unfold execAbort
  with_reducible repeat' first | assumption | apply writeReg_inv

theorem execDescriptorFetch_inv (ch : Fin 32) (s : State) (h1 : s.Inv) :
    ∃ u, execDescriptorFetch ch s = .next u ∧ u.Inv := by
  unfold execDescriptorFetch
  with_reducible repeat' first | assumption | apply coreOn_inv | apply descriptorFetch_inv

theorem execSegmentTransfer_inv (ch : Fin 32) (s : State) (h1 : s.Inv) :
    ∃ u, execSegmentTransfer ch s = .next u ∧ u.Inv := by
  unfold execSegmentTransfer
  with_reducible repeat' first | assumption | apply coreOn_inv | apply segmentTransfer_inv

theorem execBurstGrant_inv (ch : Fin 32) (s : State) (h1 : s.Inv) :
    ∃ u, execBurstGrant ch s = .next u ∧ u.Inv := by
  unfold execBurstGrant
  with_reducible repeat' first | assumption | apply coreOn_inv | apply burstGrant_inv

theorem execDreq_inv (k : Fin 8) (on : Bool) (s : State) (h1 : s.Inv) :
    ∃ u, execDreq k on s = .next u ∧ u.Inv := by
  unfold execDreq
  with_reducible repeat' first | assumption | apply chipOn_inv | apply dreqLevel_inv | apply State.inputEdge_inv | intro _

theorem execDescriptorComplete_inv (ch : Fin 32) (late : Bool) (s : State) (h1 : s.Inv) :
    ∃ u, execDescriptorComplete ch late s = .next u ∧ u.Inv := by
  unfold execDescriptorComplete
  with_reducible repeat' first | assumption | apply coreOn_inv | apply descriptorComplete_inv

/-! ## RowCan -/

theorem execCanMode_inv (who : Initiator) (n : Fin 4) (w : Word) (s : State) (h1 : s.Inv) :
    ∃ u, execCanMode who n w s = .next u ∧ u.Inv := by
  unfold execCanMode
  with_reducible repeat' first | assumption | apply writeReg_inv

theorem execCanModeEffect_inv (n : Fin 4) (s : State) (h1 : s.Inv) :
    ∃ u, execCanModeEffect n s = .next u ∧ u.Inv := by
  unfold execCanModeEffect
  with_reducible repeat' first | assumption | apply chipOn_inv | apply canModeEffect_inv

theorem execTxBufferLoad_inv (n : Fin 4) (s : State) (h1 : s.Inv) :
    ∃ u, execTxBufferLoad n s = .next u ∧ u.Inv := by
  unfold execTxBufferLoad
  with_reducible repeat' first | assumption | apply chipOn_inv | apply txBufferLoad_inv

theorem execCanTransmit_inv (n : Fin 4) (part : CanTx) (s : State) (h1 : s.Inv) :
    ∃ u, execCanTransmit n part s = .next u ∧ u.Inv := by
  unfold execCanTransmit
  with_reducible repeat' first | assumption | apply chipOn_inv | apply canTransmit_inv

theorem execBusOffRecovery_inv (n : Fin 4) (s : State) (h1 : s.Inv) :
    ∃ u, execBusOffRecovery n s = .next u ∧ u.Inv := by
  unfold execBusOffRecovery
  with_reducible repeat' first | assumption | apply chipOn_inv | apply busOffRecovery_inv

theorem execCanTxCancel_inv (who : Initiator) (n : Fin 4) (w : Word) (s : State) (h1 : s.Inv) :
    ∃ u, execCanTxCancel who n w s = .next u ∧ u.Inv := by
  unfold execCanTxCancel
  with_reducible repeat' first | assumption | apply writeReg_inv

theorem execCanReceive_inv (n : Fin 4) (part : CanRx) (s : State) (h1 : s.Inv) :
    ∃ u, execCanReceive n part s = .next u ∧ u.Inv := by
  unfold execCanReceive
  with_reducible repeat' first | assumption | apply chipOn_inv | apply canReceive_inv

theorem execTtEnable_inv (who : Initiator) (w : Word) (s : State) (h1 : s.Inv) :
    ∃ u, execTtEnable who w s = .next u ∧ u.Inv := by
  unfold execTtEnable
  with_reducible repeat' first | assumption | apply writeReg_inv

theorem execTtCycleStart_inv (level : Fin 4) (s : State) (h1 : s.Inv) :
    ∃ u, execTtCycleStart level s = .next u ∧ u.Inv := by
  unfold execTtCycleStart
  with_reducible repeat' first | assumption | apply chipOn_inv | apply ttCycleStart_inv

theorem execTtTrigger_inv (s : State) (h1 : s.Inv) :
    ∃ u, execTtTrigger s = .next u ∧ u.Inv := by
  unfold execTtTrigger
  with_reducible repeat' first | assumption | apply chipOn_inv | apply ttTrigger_inv

theorem execBackupReference_inv (s : State) (h1 : s.Inv) :
    ∃ u, execBackupReference s = .next u ∧ u.Inv := by
  unfold execBackupReference
  with_reducible repeat' first | assumption | apply chipOn_inv | apply backupReference_inv

theorem execUpdate_inv (who : Initiator) (m : Fin 16) (w : Word) (s : State) (h1 : s.Inv) :
    ∃ u, execUpdate who m w s = .next u ∧ u.Inv := by
  unfold execUpdate
  with_reducible repeat' first | assumption | apply writeReg_inv

theorem execAbufExchange_inv (m : Fin 16) (s : State) (h1 : s.Inv) :
    ∃ u, execAbufExchange m s = .next u ∧ u.Inv := by
  unfold execAbufExchange
  with_reducible repeat' first | assumption | apply chipOn_inv | apply abufExchange_inv

/-! ## RowMotion -/

theorem execProfileTick_inv (s : State) (h1 : s.Inv) :
    ∃ u, execProfileTick s = .next u ∧ u.Inv := by
  unfold execProfileTick
  with_reducible repeat' first | assumption | apply chipOn_inv | apply profileTick_inv

theorem execAxisCmdStart_inv (who : Initiator) (n : Fin 32) (w : Word) (s : State) (h1 : s.Inv) :
    ∃ u, execAxisCmdStart who n w s = .next u ∧ u.Inv := by
  unfold execAxisCmdStart
  with_reducible repeat' first | assumption | apply writeReg_inv

theorem execAxisCmdStop_inv (who : Initiator) (n : Fin 32) (w : Word) (s : State) (h1 : s.Inv) :
    ∃ u, execAxisCmdStop who n w s = .next u ∧ u.Inv := by
  unfold execAxisCmdStop
  with_reducible repeat' first | assumption | apply writeReg_inv

theorem execEstop_inv (who : Initiator) (n : Fin 32) (w : Word) (s : State) (h1 : s.Inv) :
    ∃ u, execEstop who n w s = .next u ∧ u.Inv := by
  unfold execEstop
  with_reducible repeat' first | assumption | apply writeReg_inv

theorem execHome_inv (who : Initiator) (n : Fin 32) (w : Word) (s : State) (h1 : s.Inv) :
    ∃ u, execHome who n w s = .next u ∧ u.Inv := by
  unfold execHome
  with_reducible repeat' first | assumption | apply writeReg_inv

theorem execArmNext_inv (who : Initiator) (n : Fin 32) (w : Word) (s : State) (h1 : s.Inv) :
    ∃ u, execArmNext who n w s = .next u ∧ u.Inv := by
  unfold execArmNext
  with_reducible repeat' first | assumption | apply writeReg_inv

theorem execAxisCmdClear_inv (who : Initiator) (n : Fin 32) (w : Word) (s : State) (h1 : s.Inv) :
    ∃ u, execAxisCmdClear who n w s = .next u ∧ u.Inv := by
  unfold execAxisCmdClear
  with_reducible repeat' first | assumption | apply writeReg_inv

theorem execGrpStart_inv (who : Initiator) (g : Fin 8) (w : Word) (s : State) (h1 : s.Inv) :
    ∃ u, execGrpStart who g w s = .next u ∧ u.Inv := by
  unfold execGrpStart
  with_reducible repeat' first | assumption | apply writeReg_inv

theorem execGrpStop_inv (who : Initiator) (g : Fin 8) (w : Word) (s : State) (h1 : s.Inv) :
    ∃ u, execGrpStop who g w s = .next u ∧ u.Inv := by
  unfold execGrpStop
  with_reducible repeat' first | assumption | apply writeReg_inv

theorem execGrpEstop_inv (who : Initiator) (g : Fin 8) (w : Word) (s : State) (h1 : s.Inv) :
    ∃ u, execGrpEstop who g w s = .next u ∧ u.Inv := by
  unfold execGrpEstop
  with_reducible repeat' first | assumption | apply writeReg_inv

theorem execLatch_inv (who : Initiator) (g : Fin 8) (w : Word) (s : State) (h1 : s.Inv) :
    ∃ u, execLatch who g w s = .next u ∧ u.Inv := by
  unfold execLatch
  with_reducible repeat' first | assumption | apply writeReg_inv

theorem execGrpClear_inv (who : Initiator) (g : Fin 8) (w : Word) (s : State) (h1 : s.Inv) :
    ∃ u, execGrpClear who g w s = .next u ∧ u.Inv := by
  unfold execGrpClear
  with_reducible repeat' first | assumption | apply writeReg_inv

theorem execAxPosLoWrite_inv (who : Initiator) (n : Fin 32) (w : Word) (s : State) (h1 : s.Inv) :
    ∃ u, execAxPosLoWrite who n w s = .next u ∧ u.Inv := by
  unfold execAxPosLoWrite
  with_reducible repeat' first | assumption | apply writeReg_inv

theorem execAxPosHiWrite_inv (who : Initiator) (n : Fin 32) (w : Word) (s : State) (h1 : s.Inv) :
    ∃ u, execAxPosHiWrite who n w s = .next u ∧ u.Inv := by
  unfold execAxPosHiWrite
  with_reducible repeat' first | assumption | apply writeReg_inv

theorem execAxPosLoRead_inv (who : Initiator) (n : Fin 32) (s : State) (h1 : s.Inv) :
    ∃ u, execAxPosLoRead who n s = .next u ∧ u.Inv := by
  unfold execAxPosLoRead
  with_reducible repeat' first | assumption | apply readReg_inv

theorem execRawInputEdge_inv (n : Fin 32) (k : Fin 3) (level : Bool) (s : State) (h1 : s.Inv) :
    ∃ u, execRawInputEdge n k level s = .next u ∧ u.Inv := by
  unfold execRawInputEdge
  with_reducible repeat' first | assumption | apply chipOn_inv | apply rawInputEdge_inv | apply State.pinSeen_inv | intro _

theorem execDebounceExpiry_inv (n : Fin 32) (k : Fin 3) (s : State) (h1 : s.Inv) :
    ∃ u, execDebounceExpiry n k s = .next u ∧ u.Inv := by
  unfold execDebounceExpiry
  with_reducible repeat' first | assumption | apply chipOn_inv | apply debounceExpiry_inv

/-! ## RowChop -/

theorem execChopCycleStart_inv (n : Fin 8) (ph : Fin 2) (s : State) (h1 : s.Inv) :
    ∃ u, execChopCycleStart n ph s = .next u ∧ u.Inv := by
  unfold execChopCycleStart
  with_reducible repeat' first | assumption | apply chipOn_inv | apply chopCycleStart_inv

theorem execDeadTimeEnd_inv (n : Fin 8) (ph : Fin 2) (s : State) (h1 : s.Inv) :
    ∃ u, execDeadTimeEnd n ph s = .next u ∧ u.Inv := by
  unfold execDeadTimeEnd
  with_reducible repeat' first | assumption | apply chipOn_inv | apply deadTimeEnd_inv

theorem execBlankEnd_inv (n : Fin 8) (ph : Fin 2) (v : Int) (s : State) (h1 : s.Inv) :
    ∃ u, execBlankEnd n ph v s = .next u ∧ u.Inv := by
  unfold execBlankEnd
  with_reducible repeat' first | assumption | apply chipOn_inv | apply blankEnd_inv

theorem execComparatorTrip_inv (n : Fin 8) (ph : Fin 2) (v : Int) (s : State) (h1 : s.Inv) :
    ∃ u, execComparatorTrip n ph v s = .next u ∧ u.Inv := by
  unfold execComparatorTrip
  with_reducible repeat' first | assumption | apply chipOn_inv | apply comparatorTrip_inv

theorem execOffTimeEnd_inv (n : Fin 8) (ph : Fin 2) (s : State) (h1 : s.Inv) :
    ∃ u, execOffTimeEnd n ph s = .next u ∧ u.Inv := by
  unfold execOffTimeEnd
  with_reducible repeat' first | assumption | apply chipOn_inv | apply offTimeEnd_inv

theorem execOverCurrent_inv (n : Fin 8) (va vb : Int) (s : State) (h1 : s.Inv) :
    ∃ u, execOverCurrent n va vb s = .next u ∧ u.Inv := by
  unfold execOverCurrent
  with_reducible repeat' first | assumption | apply chipOn_inv | apply overCurrent_inv

theorem execRestDelayExpiry_inv (n : Fin 8) (s : State) (h1 : s.Inv) :
    ∃ u, execRestDelayExpiry n s = .next u ∧ u.Inv := by
  unfold execRestDelayExpiry
  with_reducible repeat' first | assumption | apply chipOn_inv | apply restDelayExpiry_inv

theorem execEncoderEdge_inv (n : Fin 32) (a : Bool) (b : Bool) (s : State) (h1 : s.Inv) :
    ∃ u, execEncoderEdge n a b s = .next u ∧ u.Inv := by
  unfold execEncoderEdge
  with_reducible repeat' first | assumption | apply chipOn_inv | apply encoderEdge_inv | apply State.pinSeen_inv | intro _

theorem execIndexEdge_inv (n : Fin 32) (z : Bool) (s : State) (h1 : s.Inv) :
    ∃ u, execIndexEdge n z s = .next u ∧ u.Inv := by
  unfold execIndexEdge
  with_reducible repeat' first | assumption | apply chipOn_inv | apply indexEdge_inv | apply State.pinSeen_inv | intro _

theorem execEncCountLoWrite_inv (who : Initiator) (n : Fin 32) (w : Word) (s : State) (h1 : s.Inv) :
    ∃ u, execEncCountLoWrite who n w s = .next u ∧ u.Inv := by
  unfold execEncCountLoWrite
  with_reducible repeat' first | assumption | apply writeReg_inv

theorem execEncCountHiWrite_inv (who : Initiator) (n : Fin 32) (w : Word) (s : State) (h1 : s.Inv) :
    ∃ u, execEncCountHiWrite who n w s = .next u ∧ u.Inv := by
  unfold execEncCountHiWrite
  with_reducible repeat' first | assumption | apply writeReg_inv

theorem execEncCountLoRead_inv (who : Initiator) (n : Fin 32) (s : State) (h1 : s.Inv) :
    ∃ u, execEncCountLoRead who n s = .next u ∧ u.Inv := by
  unfold execEncCountLoRead
  with_reducible repeat' first | assumption | apply readReg_inv

theorem execAdcStart_inv (who : Initiator) (c : Fin 2) (w : Word) (s : State) (h1 : s.Inv) :
    ∃ u, execAdcStart who c w s = .next u ∧ u.Inv := by
  unfold execAdcStart
  with_reducible repeat' first | assumption | apply writeReg_inv

theorem execConversion_inv (c : Fin 2) (v : Int) (s : State) (h1 : s.Inv) :
    ∃ u, execConversion c v s = .next u ∧ u.Inv := by
  unfold execConversion
  with_reducible repeat' first | assumption | apply chipOn_inv | apply conversion_inv

theorem execAdcResults_inv (c : Fin 2) (s : State) (h1 : s.Inv) :
    ∃ u, execAdcResults c s = .next u ∧ u.Inv := by
  unfold execAdcResults
  with_reducible repeat' first | assumption | apply chipOn_inv | apply adcResults_inv

theorem execSoundSel_inv (who : Initiator) (k : Fin 216) (pin : Bool) (w : Word) (s : State) (h1 : s.Inv) :
    ∃ u, execSoundSel who k pin w s = .next u ∧ u.Inv := by
  unfold execSoundSel
  with_reducible repeat' first | assumption | apply chipOn_inv | apply State.rowWrite_inv | apply State.setOutside_inv | intro _

/-! ## RowPilot -/

theorem execDrive_inv (n : Fin 32) (ext : BitVec 8) (clash : BitVec 8) (parity : Bool) (s : State) (h1 : s.Inv) :
    ∃ u, execDrive n ext clash parity s = .next u ∧ u.Inv := by
  unfold execDrive
  with_reducible repeat' first | assumption | apply chipOn_inv | apply State.pilotStep_inv | apply driveBody_inv | intro _

theorem execSample_inv (n : Fin 32) (ext : BitVec 8) (clash : BitVec 8) (parity : Bool) (s : State) (h1 : s.Inv) :
    ∃ u, execSample n ext clash parity s = .next u ∧ u.Inv := by
  unfold execSample
  with_reducible repeat' first | assumption | apply chipOn_inv | apply State.pilotStep_inv | apply sampleBody_inv | intro _

theorem execLoad_inv (n : Fin 32) (ext : BitVec 8) (clash : BitVec 8) (parity : Bool) (s : State) (h1 : s.Inv) :
    ∃ u, execLoad n ext clash parity s = .next u ∧ u.Inv := by
  unfold execLoad
  with_reducible repeat' first | assumption | apply chipOn_inv | apply State.pilotStep_inv | apply loadBody_inv | intro _

theorem execStore_inv (n : Fin 32) (ext : BitVec 8) (clash : BitVec 8) (parity : Bool) (s : State) (h1 : s.Inv) :
    ∃ u, execStore n ext clash parity s = .next u ∧ u.Inv := by
  unfold execStore
  with_reducible repeat' first | assumption | apply chipOn_inv | apply State.pilotStep_inv | apply storeBody_inv | intro _

theorem execAwait_inv (n : Fin 32) (ext : BitVec 8) (clash : BitVec 8) (parity : Bool) (s : State) (h1 : s.Inv) :
    ∃ u, execAwait n ext clash parity s = .next u ∧ u.Inv := by
  unfold execAwait
  with_reducible repeat' first | assumption | apply chipOn_inv | apply State.pilotStep_inv | apply awaitBody_inv | intro _

theorem execCount_inv (n : Fin 32) (ext : BitVec 8) (clash : BitVec 8) (parity : Bool) (s : State) (h1 : s.Inv) :
    ∃ u, execCount n ext clash parity s = .next u ∧ u.Inv := by
  unfold execCount
  with_reducible repeat' first | assumption | apply chipOn_inv | apply State.pilotStep_inv | apply countBody_inv | intro _

theorem execSignal_inv (n : Fin 32) (ext : BitVec 8) (clash : BitVec 8) (parity : Bool) (s : State) (h1 : s.Inv) :
    ∃ u, execSignal n ext clash parity s = .next u ∧ u.Inv := by
  unfold execSignal
  with_reducible repeat' first | assumption | apply chipOn_inv | apply State.pilotStep_inv | apply signalBody_inv | intro _

theorem execMove_inv (n : Fin 32) (ext : BitVec 8) (clash : BitVec 8) (parity : Bool) (s : State) (h1 : s.Inv) :
    ∃ u, execMove n ext clash parity s = .next u ∧ u.Inv := by
  unfold execMove
  with_reducible repeat' first | assumption | apply chipOn_inv | apply State.pilotStep_inv | apply moveBody_inv | intro _

theorem execAwaitComplete_inv (n : Fin 32) (ext : List (BitVec 8)) (s : State) (h1 : s.Inv) :
    ∃ u, execAwaitComplete n ext s = .next u ∧ u.Inv := by
  unfold execAwaitComplete
  with_reducible repeat' first | assumption | apply chipOn_inv | apply awaitComplete_inv

theorem execPilotQueueWaitEnd_inv (n : Fin 32) (s : State) (h1 : s.Inv) :
    ∃ u, execPilotQueueWaitEnd n s = .next u ∧ u.Inv := by
  unfold execPilotQueueWaitEnd
  with_reducible repeat' first | assumption | apply chipOn_inv | apply pilotQueueWaitEnd_inv

theorem execDwellEnd_inv (n : Fin 32) (s : State) (h1 : s.Inv) :
    ∃ u, execDwellEnd n s = .next u ∧ u.Inv := by
  unfold execDwellEnd
  with_reducible repeat' first | assumption | apply chipOn_inv | apply dwellEnd_inv

theorem execPilotStart_inv (who : Initiator) (n : Fin 32) (w : Word) (s : State) (h1 : s.Inv) :
    ∃ u, execPilotStart who n w s = .next u ∧ u.Inv := by
  unfold execPilotStart
  with_reducible repeat' first | assumption | apply writeReg_inv

theorem execPilotStop_inv (who : Initiator) (n : Fin 32) (w : Word) (s : State) (h1 : s.Inv) :
    ∃ u, execPilotStop who n w s = .next u ∧ u.Inv := by
  unfold execPilotStop
  with_reducible repeat' first | assumption | apply writeReg_inv

theorem execPilotKick_inv (who : Initiator) (n : Fin 32) (w : Word) (s : State) (h1 : s.Inv) :
    ∃ u, execPilotKick who n w s = .next u ∧ u.Inv := by
  unfold execPilotKick
  with_reducible repeat' first | assumption | apply writeReg_inv

theorem execPilotFlush_inv (who : Initiator) (n : Fin 32) (w : Word) (s : State) (h1 : s.Inv) :
    ∃ u, execPilotFlush who n w s = .next u ∧ u.Inv := by
  unfold execPilotFlush
  with_reducible repeat' first | assumption | apply writeReg_inv

theorem execPsStart_inv (who : Initiator) (k : Fin 8) (w : Word) (s : State) (h1 : s.Inv) :
    ∃ u, execPsStart who k w s = .next u ∧ u.Inv := by
  unfold execPsStart
  with_reducible repeat' first | assumption | apply writeReg_inv

theorem execPsStop_inv (who : Initiator) (k : Fin 8) (w : Word) (s : State) (h1 : s.Inv) :
    ∃ u, execPsStop who k w s = .next u ∧ u.Inv := by
  unfold execPsStop
  with_reducible repeat' first | assumption | apply writeReg_inv

theorem execPlTxdata_inv (who : Initiator) (n : Fin 32) (w : Word) (s : State) (h1 : s.Inv) :
    ∃ u, execPlTxdata who n w s = .next u ∧ u.Inv := by
  unfold execPlTxdata
  with_reducible repeat' first | assumption | apply writeReg_inv

theorem execPlRxdata_inv (who : Initiator) (n : Fin 32) (s : State) (h1 : s.Inv) :
    ∃ u, execPlRxdata who n s = .next u ∧ u.Inv := by
  unfold execPlRxdata
  with_reducible repeat' first | assumption | apply readReg_inv

theorem execIllegal_inv (n : Fin 32) (parity : Bool) (s : State) (h1 : s.Inv) :
    ∃ u, execIllegal n parity s = .next u ∧ u.Inv := by
  unfold execIllegal
  with_reducible repeat' first | assumption | apply chipOn_inv | apply pilotIllegal_inv

/-! ## RowHost -/

theorem execPcieMwr_inv (bar : Fin 6) (dw : ℕ) (dws : List (BitVec 4 × Word)) (ep : Tlp Bool) (s : State) (h1 : s.Inv) :
    ∃ u, execPcieMwr bar dw dws ep s = .next u ∧ u.Inv := by
  unfold execPcieMwr
  with_reducible repeat' first | assumption | apply hostOn_inv | apply State.tlpIn_inv | apply pcieMwr_inv | intro _

theorem execPcieMrd_inv (bar : Fin 6) (dw : ℕ) (bes : Tlp (List (BitVec 4))) (s : State) (h1 : s.Inv) :
    ∃ u, execPcieMrd bar dw bes s = .next u ∧ u.Inv := by
  unfold execPcieMrd
  with_reducible repeat' first | assumption | apply hostOn_inv | apply State.tlpIn_inv | apply pcieMrd_inv | intro _

theorem execPcieAtomicop_inv (bar : Fin 6) (dw : ℕ) (bytes : ℕ) (kind : Tlp AtomicKind) (x : BitVec 64) (y : BitVec 64) (s : State) (h1 : s.Inv) :
    ∃ u, execPcieAtomicop bar dw bytes kind x y s = .next u ∧ u.Inv := by
  unfold execPcieAtomicop
  with_reducible repeat' first | assumption | apply hostOn_inv | apply State.tlpIn_inv | apply pcieAtomicop_inv | intro _

theorem execUnsupportedRequest_inv (kind : UrKind) (s : State) (h1 : s.Inv) :
    ∃ u, execUnsupportedRequest kind s = .next u ∧ u.Inv := by
  unfold execUnsupportedRequest
  with_reducible repeat' first | assumption | apply hostOn_inv | apply unsupportedRequest_inv

theorem execPcieCompletion_inv (s : State) (h1 : s.Inv) :
    ∃ u, execPcieCompletion s = .next u ∧ u.Inv := by
  unfold execPcieCompletion
  with_reducible repeat' first | assumption | apply hostOn_inv | apply State.serveNext_inv | intro _

theorem execMsixMessage_inv (v : Fin 64) (s : State) (h1 : s.Inv) :
    ∃ u, execMsixMessage v s = .next u ∧ u.Inv := by
  unfold execMsixMessage
  with_reducible repeat' first | assumption | apply hostOn_inv | apply msixMessage_inv

theorem execHostifMsixRearm_inv (who : Initiator) (w : Word) (s : State) (h1 : s.Inv) :
    ∃ u, execHostifMsixRearm who w s = .next u ∧ u.Inv := by
  unfold execHostifMsixRearm
  with_reducible repeat' first | assumption | apply writeReg_inv

theorem execPcieInterfaceReset_inv (kind : PcieReset) (s : State) (h1 : s.Inv) :
    ∃ u, execPcieInterfaceReset kind s = .next u ∧ u.Inv := by
  unfold execPcieInterfaceReset
  with_reducible repeat' first | assumption | apply anyTime_inv | apply pcieInterfaceReset_inv

theorem execOutboundRequest_inv (who : Initiator) (a : Word) (op : BusOp) (s : State) (h1 : s.Inv) :
    ∃ u, execOutboundRequest who a op s = .next u ∧ u.Inv := by
  unfold execOutboundRequest
  with_reducible repeat' first | assumption | apply hostOn_inv | apply outboundRequest_inv

theorem execOutboundCompletion_inv (who : Initiator) (a : Word) (fin : Tlp OutEnd) (s : State) (h1 : s.Inv) :
    ∃ u, execOutboundCompletion who a fin s = .next u ∧ u.Inv := by
  unfold execOutboundCompletion
  with_reducible repeat' first | assumption | apply hostOn_inv | apply State.tlpIn_inv | apply outboundCompletion_inv | intro _

theorem execCompletionTimeout_inv (who : Initiator) (a : Word) (s : State) (h1 : s.Inv) :
    ∃ u, execCompletionTimeout who a s = .next u ∧ u.Inv := by
  unfold execCompletionTimeout
  with_reducible repeat' first | assumption | apply chipOn_inv | apply completionTimeout_inv

theorem execOutStarved_inv (who : Initiator) (a : Word) (s : State) (h1 : s.Inv) :
    ∃ u, execOutStarved who a s = .next u ∧ u.Inv := by
  unfold execOutStarved
  with_reducible repeat' first | assumption | apply chipOn_inv | apply outStarved_inv

theorem execHbReadCycle_inv (a : Word) (ben : BitVec 4) (lockn : Cyc Bool) (s : State) (h1 : s.Inv) :
    ∃ u, execHbReadCycle a ben lockn s = .next u ∧ u.Inv := by
  unfold execHbReadCycle
  with_reducible repeat' first | assumption | apply bankOn_inv | apply hbReadCycle_inv

theorem execHbWriteCycle_inv (a : Word) (ben : BitVec 4) (data : Word) (lockn : Bool) (s : State) (h1 : s.Inv) :
    ∃ u, execHbWriteCycle a ben data lockn s = .next u ∧ u.Inv := by
  unfold execHbWriteCycle
  with_reducible repeat' first | assumption | apply bankOn_inv | apply hbWriteCycle_inv

theorem execHbControlPage_inv (a : Word) (write : Bool) (ben : BitVec 4) (data : Word) (s : State) (h1 : s.Inv) :
    ∃ u, execHbControlPage a write ben data s = .next u ∧ u.Inv := by
  unfold execHbControlPage
  with_reducible repeat' first | assumption | apply bankOn_inv | apply hbControlPage_inv

theorem execLockBroken_inv (s : State) (h1 : s.Inv) :
    ∃ u, execLockBroken s = .next u ∧ u.Inv := by
  unfold execLockBroken
  with_reducible repeat' first | assumption | apply chipOn_inv | apply lockBroken_inv

theorem execQspiWrite_inv (a : Word) (ws : List Word) (s : State) (h1 : s.Inv) :
    ∃ u, execQspiWrite a ws s = .next u ∧ u.Inv := by
  unfold execQspiWrite
  with_reducible repeat' first | assumption | apply bankOn_inv | apply qspiWrite_inv

theorem execQspiRead_inv (a : Cyc Word) (s : State) (h1 : s.Inv) :
    ∃ u, execQspiRead a s = .next u ∧ u.Inv := by
  unfold execQspiRead
  with_reducible repeat' first | assumption | apply bankOn_inv | apply qspiRead_inv

theorem execQspiStatus_inv (s : State) (h1 : s.Inv) :
    ∃ u, execQspiStatus s = .next u ∧ u.Inv := by
  unfold execQspiStatus
  with_reducible repeat' first | assumption | apply bankOn_inv | apply qspiStatus_inv

theorem execQspiId_inv (s : State) (h1 : s.Inv) :
    ∃ u, execQspiId s = .next u ∧ u.Inv := by
  unfold execQspiId
  with_reducible repeat' first | assumption | apply bankOn_inv | apply qspiId_inv

theorem execQstBadcmd_inv (code : BitVec 8) (s : State) (h1 : s.Inv) :
    ∃ u, execQstBadcmd code s = .next u ∧ u.Inv := by
  unfold execQstBadcmd
  with_reducible repeat' first | assumption | apply bankOn_inv | apply qstBadcmd_inv

theorem execDelayedResult_inv (k : Fin 2) (s : State) (h1 : s.Inv) :
    ∃ u, execDelayedResult k s = .next u ∧ u.Inv := by
  unfold execDelayedResult
  with_reducible repeat' first | assumption | apply hostOn_inv | apply State.serveNext_inv | intro _

theorem execDelayedExpiry_inv (k : Fin 2) (s : State) (h1 : s.Inv) :
    ∃ u, execDelayedExpiry k s = .next u ∧ u.Inv := by
  unfold execDelayedExpiry
  with_reducible repeat' first | assumption | apply hostOn_inv | apply delayedExpiry_inv

theorem execPrefetchExpiry_inv (k : Fin 2) (s : State) (h1 : s.Inv) :
    ∃ u, execPrefetchExpiry k s = .next u ∧ u.Inv := by
  unfold execPrefetchExpiry
  with_reducible repeat' first | assumption | apply hostOn_inv | apply prefetchExpiry_inv

theorem execPostedWriteFailure_inv (k : Fin 3) (s : State) (h1 : s.Inv) :
    ∃ u, execPostedWriteFailure k s = .next u ∧ u.Inv := by
  unfold execPostedWriteFailure
  with_reducible repeat' first | assumption | apply hostOn_inv | apply postedWriteFailure_inv

theorem execClear_inv (who : Initiator) (w : Word) (s : State) (h1 : s.Inv) :
    ∃ u, execClear who w s = .next u ∧ u.Inv := by
  unfold execClear
  with_reducible repeat' first | assumption | apply writeReg_inv

theorem execPciePerstnRising_inv (s : State) (h1 : s.Inv) :
    ∃ u, execPciePerstnRising s = .next u ∧ u.Inv := by
  unfold execPciePerstnRising
  with_reducible repeat' first | assumption | apply anyTime_inv | apply pciePerstnRising_inv

theorem execPcieLinkUp_inv (speed : Fin 4) (width : Fin 4) (s : State) (h1 : s.Inv) :
    ∃ u, execPcieLinkUp speed width s = .next u ∧ u.Inv := by
  unfold execPcieLinkUp
  with_reducible repeat' first | assumption | apply hostOn_inv | apply pcieLinkUp_inv

theorem execConfigurationWrite_inv (f : CfgField) (s : State) (h1 : s.Inv) :
    ∃ u, execConfigurationWrite f s = .next u ∧ u.Inv := by
  unfold execConfigurationWrite
  with_reducible repeat' first | assumption | apply hostOn_inv | apply configurationWrite_inv

/-! ## RowMail -/

theorem execMailboxDataWrite_inv (who : Initiator) (m : Fin 32) (k : Fin 16) (w : Word) (s : State) (h1 : s.Inv) :
    ∃ u, execMailboxDataWrite who m k w s = .next u ∧ u.Inv := by
  unfold execMailboxDataWrite
  with_reducible repeat' first | assumption | apply writeReg_inv

theorem execGo_inv (who : Initiator) (m : Fin 32) (w : Word) (s : State) (h1 : s.Inv) :
    ∃ u, execGo who m w s = .next u ∧ u.Inv := by
  unfold execGo
  with_reducible repeat' first | assumption | apply writeReg_inv

theorem execRelease_inv (who : Initiator) (m : Fin 32) (w : Word) (s : State) (h1 : s.Inv) :
    ∃ u, execRelease who m w s = .next u ∧ u.Inv := by
  unfold execRelease
  with_reducible repeat' first | assumption | apply writeReg_inv

theorem execClaimLapsed_inv (m : Fin 32) (s : State) (h1 : s.Inv) :
    ∃ u, execClaimLapsed m s = .next u ∧ u.Inv := by
  unfold execClaimLapsed
  with_reducible repeat' first | assumption | apply coreOn_inv | apply claimLapsed_inv

theorem execMbArrival_inv (who : Initiator) (s : State) (h1 : s.Inv) :
    ∃ u, execMbArrival who s = .next u ∧ u.Inv := by
  unfold execMbArrival
  with_reducible repeat' first | assumption | apply readReg_inv

theorem execMbDbInSet_inv (who : Initiator) (w : Word) (s : State) (h1 : s.Inv) :
    ∃ u, execMbDbInSet who w s = .next u ∧ u.Inv := by
  unfold execMbDbInSet
  with_reducible repeat' first | assumption | apply writeReg_inv

theorem execMbDbOutSet_inv (who : Initiator) (w : Word) (s : State) (h1 : s.Inv) :
    ∃ u, execMbDbOutSet who w s = .next u ∧ u.Inv := by
  unfold execMbDbOutSet
  with_reducible repeat' first | assumption | apply writeReg_inv

/-! ## RowHm -/

theorem execIdentify_inv (m : Fin 16) (s : State) (h1 : s.Inv) :
    ∃ u, execIdentify m s = .next u ∧ u.Inv := by
  unfold execIdentify
  with_reducible repeat' first | assumption | apply coreOn_inv | apply hmCommand_inv | apply cIdentify_inv | intro _

theorem execEcho_inv (m : Fin 16) (s : State) (h1 : s.Inv) :
    ∃ u, execEcho m s = .next u ∧ u.Inv := by
  unfold execEcho
  with_reducible repeat' first | assumption | apply coreOn_inv | apply hmCommand_inv | apply cEcho_inv | intro _

theorem execReset_inv (m : Fin 16) (s : State) (h1 : s.Inv) :
    ∃ u, execReset m s = .next u ∧ u.Inv := by
  unfold execReset
  with_reducible repeat' first | assumption | apply coreOn_inv | apply hmCommand_inv | apply cReset_inv | intro _

theorem execResetBegin_inv (m : Fin 16) (s : State) (h1 : s.Inv) :
    ∃ u, execResetBegin m s = .next u ∧ u.Inv := by
  unfold execResetBegin
  with_reducible repeat' first | assumption | apply coreOn_inv | apply resetBegin_inv

theorem execMbAbort_inv (m : Fin 16) (s : State) (h1 : s.Inv) :
    ∃ u, execMbAbort m s = .next u ∧ u.Inv := by
  unfold execMbAbort
  with_reducible repeat' first | assumption | apply coreOn_inv | apply hmCommand_inv | apply cAbort_inv | intro _

theorem execSecuritySet_inv (m : Fin 16) (s : State) (h1 : s.Inv) :
    ∃ u, execSecuritySet m s = .next u ∧ u.Inv := by
  unfold execSecuritySet
  with_reducible repeat' first | assumption | apply coreOn_inv | apply hmCommand_inv | apply cSecuritySet_inv | intro _

theorem execImageLoad_inv (m : Fin 16) (ext : Option (List (BitVec 8))) (s : State) (h1 : s.Inv) :
    ∃ u, execImageLoad m ext s = .next u ∧ u.Inv := by
  unfold execImageLoad
  with_reducible repeat' first | assumption | apply fwOn_inv | apply hmCommand_inv | apply cImageLoad_inv | intro _

theorem execImageVerify_inv (m : Fin 16) (ext : Option (List (BitVec 8))) (s : State) (h1 : s.Inv) :
    ∃ u, execImageVerify m ext s = .next u ∧ u.Inv := by
  unfold execImageVerify
  with_reducible repeat' first | assumption | apply fwOn_inv | apply hmCommand_inv | apply cImageVerify_inv | intro _

theorem execMramStore_inv (m : Fin 16) (ext : Option (List (BitVec 8))) (s : State) (h1 : s.Inv) :
    ∃ u, execMramStore m ext s = .next u ∧ u.Inv := by
  unfold execMramStore
  with_reducible repeat' first | assumption | apply fwOn_inv | apply hmCommand_inv | apply cMramStore_inv | intro _

theorem execMramErase_inv (m : Fin 16) (s : State) (h1 : s.Inv) :
    ∃ u, execMramErase m s = .next u ∧ u.Inv := by
  unfold execMramErase
  with_reducible repeat' first | assumption | apply coreOn_inv | apply hmCommand_inv | apply cMramErase_inv | intro _

theorem execMramList_inv (m : Fin 16) (s : State) (h1 : s.Inv) :
    ∃ u, execMramList m s = .next u ∧ u.Inv := by
  unfold execMramList
  with_reducible repeat' first | assumption | apply coreOn_inv | apply hmCommand_inv | apply cMramList_inv | intro _

theorem execBerthCreate_inv (m : Fin 16) (s : State) (h1 : s.Inv) :
    ∃ u, execBerthCreate m s = .next u ∧ u.Inv := by
  unfold execBerthCreate
  with_reducible repeat' first | assumption | apply coreOn_inv | apply hmCommand_inv | apply cBerthCreate_inv | intro _

theorem execBerthAssign_inv (m : Fin 16) (s : State) (h1 : s.Inv) :
    ∃ u, execBerthAssign m s = .next u ∧ u.Inv := by
  unfold execBerthAssign
  with_reducible repeat' first | assumption | apply coreOn_inv | apply hmCommand_inv | apply cBerthAssign_inv | intro _

theorem execBerthStart_inv (m : Fin 16) (s : State) (h1 : s.Inv) :
    ∃ u, execBerthStart m s = .next u ∧ u.Inv := by
  unfold execBerthStart
  with_reducible repeat' first | assumption | apply coreOn_inv | apply hmCommand_inv | apply cBerthStart_inv | intro _

theorem execBerthStop_inv (m : Fin 16) (s : State) (h1 : s.Inv) :
    ∃ u, execBerthStop m s = .next u ∧ u.Inv := by
  unfold execBerthStop
  with_reducible repeat' first | assumption | apply coreOn_inv | apply hmCommand_inv | apply cBerthStop_inv | intro _

theorem execGraceExpiry_inv (m : Fin 16) (s : State) (h1 : s.Inv) :
    ∃ u, execGraceExpiry m s = .next u ∧ u.Inv := by
  unfold execGraceExpiry
  with_reducible repeat' first | assumption | apply coreOn_inv | apply graceExpiry_inv

theorem execBerthReload_inv (m : Fin 16) (ext : Option (List (BitVec 8))) (s : State) (h1 : s.Inv) :
    ∃ u, execBerthReload m ext s = .next u ∧ u.Inv := by
  unfold execBerthReload
  with_reducible repeat' first | assumption | apply fwOn_inv | apply hmCommand_inv | apply cBerthReload_inv | intro _

theorem execTideValidate_inv (m : Fin 16) (s : State) (h1 : s.Inv) :
    ∃ u, execTideValidate m s = .next u ∧ u.Inv := by
  unfold execTideValidate
  with_reducible repeat' first | assumption | apply coreOn_inv | apply hmCommand_inv | apply cTideValidate_inv | intro _

theorem execTideSwap_inv (m : Fin 16) (s : State) (h1 : s.Inv) :
    ∃ u, execTideSwap m s = .next u ∧ u.Inv := by
  unfold execTideSwap
  with_reducible repeat' first | assumption | apply coreOn_inv | apply hmCommand_inv | apply cTideSwap_inv | intro _

theorem execTideStart_inv (m : Fin 16) (s : State) (h1 : s.Inv) :
    ∃ u, execTideStart m s = .next u ∧ u.Inv := by
  unfold execTideStart
  with_reducible repeat' first | assumption | apply coreOn_inv | apply hmCommand_inv | apply cTideStart_inv | intro _

theorem execTideStop_inv (m : Fin 16) (s : State) (h1 : s.Inv) :
    ∃ u, execTideStop m s = .next u ∧ u.Inv := by
  unfold execTideStop
  with_reducible repeat' first | assumption | apply coreOn_inv | apply hmCommand_inv | apply cTideStop_inv | intro _

theorem execPortSet_inv (m : Fin 16) (s : State) (h1 : s.Inv) :
    ∃ u, execPortSet m s = .next u ∧ u.Inv := by
  unfold execPortSet
  with_reducible repeat' first | assumption | apply coreOn_inv | apply hmCommand_inv | apply cPortSet_inv | intro _

theorem execPortStatus_inv (m : Fin 16) (s : State) (h1 : s.Inv) :
    ∃ u, execPortStatus m s = .next u ∧ u.Inv := by
  unfold execPortStatus
  with_reducible repeat' first | assumption | apply coreOn_inv | apply hmCommand_inv | apply cPortStatus_inv | intro _

theorem execStreamSet_inv (m : Fin 16) (s : State) (h1 : s.Inv) :
    ∃ u, execStreamSet m s = .next u ∧ u.Inv := by
  unfold execStreamSet
  with_reducible repeat' first | assumption | apply coreOn_inv | apply hmCommand_inv | apply cStreamSet_inv | intro _

theorem execStreamGet_inv (m : Fin 16) (s : State) (h1 : s.Inv) :
    ∃ u, execStreamGet m s = .next u ∧ u.Inv := by
  unfold execStreamGet
  with_reducible repeat' first | assumption | apply coreOn_inv | apply hmCommand_inv | apply cStreamGet_inv | intro _

theorem execTimeGet_inv (m : Fin 16) (s : State) (h1 : s.Inv) :
    ∃ u, execTimeGet m s = .next u ∧ u.Inv := by
  unfold execTimeGet
  with_reducible repeat' first | assumption | apply coreOn_inv | apply hmCommand_inv | apply cTimeGet_inv | intro _

theorem execTimeCorrect_inv (m : Fin 16) (s : State) (h1 : s.Inv) :
    ∃ u, execTimeCorrect m s = .next u ∧ u.Inv := by
  unfold execTimeCorrect
  with_reducible repeat' first | assumption | apply coreOn_inv | apply hmCommand_inv | apply cTimeCorrect_inv | intro _

theorem execTimeState_inv (m : Fin 16) (s : State) (h1 : s.Inv) :
    ∃ u, execTimeState m s = .next u ∧ u.Inv := by
  unfold execTimeState
  with_reducible repeat' first | assumption | apply coreOn_inv | apply hmCommand_inv | apply cTimeState_inv | intro _

theorem execAxisMove_inv (m : Fin 16) (s : State) (h1 : s.Inv) :
    ∃ u, execAxisMove m s = .next u ∧ u.Inv := by
  unfold execAxisMove
  with_reducible repeat' first | assumption | apply coreOn_inv | apply hmCommand_inv | apply cAxisMove_inv | intro _

theorem execAxisHome_inv (m : Fin 16) (s : State) (h1 : s.Inv) :
    ∃ u, execAxisHome m s = .next u ∧ u.Inv := by
  unfold execAxisHome
  with_reducible repeat' first | assumption | apply coreOn_inv | apply hmCommand_inv | apply cAxisHome_inv | intro _

theorem execAxisStop_inv (m : Fin 16) (s : State) (h1 : s.Inv) :
    ∃ u, execAxisStop m s = .next u ∧ u.Inv := by
  unfold execAxisStop
  with_reducible repeat' first | assumption | apply coreOn_inv | apply hmCommand_inv | apply cAxisStop_inv | intro _

theorem execGroupMove_inv (m : Fin 16) (s : State) (h1 : s.Inv) :
    ∃ u, execGroupMove m s = .next u ∧ u.Inv := by
  unfold execGroupMove
  with_reducible repeat' first | assumption | apply coreOn_inv | apply hmCommand_inv | apply cGroupMove_inv | intro _

theorem execLogFreeze_inv (m : Fin 16) (s : State) (h1 : s.Inv) :
    ∃ u, execLogFreeze m s = .next u ∧ u.Inv := by
  unfold execLogFreeze
  with_reducible repeat' first | assumption | apply coreOn_inv | apply hmCommand_inv | apply cLogFreeze_inv | intro _

theorem execLogRead_inv (m : Fin 16) (s : State) (h1 : s.Inv) :
    ∃ u, execLogRead m s = .next u ∧ u.Inv := by
  unfold execLogRead
  with_reducible repeat' first | assumption | apply coreOn_inv | apply hmCommand_inv | apply cLogRead_inv | intro _

theorem execLogThaw_inv (m : Fin 16) (s : State) (h1 : s.Inv) :
    ∃ u, execLogThaw m s = .next u ∧ u.Inv := by
  unfold execLogThaw
  with_reducible repeat' first | assumption | apply coreOn_inv | apply hmCommand_inv | apply cLogThaw_inv | intro _

theorem execTestPattern_inv (m : Fin 16) (s : State) (h1 : s.Inv) :
    ∃ u, execTestPattern m s = .next u ∧ u.Inv := by
  unfold execTestPattern
  with_reducible repeat' first | assumption | apply coreOn_inv | apply hmCommand_inv | apply cTestPattern_inv | intro _

theorem execTestResult_inv (m : Fin 16) (s : State) (h1 : s.Inv) :
    ∃ u, execTestResult m s = .next u ∧ u.Inv := by
  unfold execTestResult
  with_reducible repeat' first | assumption | apply coreOn_inv | apply hmCommand_inv | apply cTestResult_inv | intro _

theorem execLongCommandEnd_inv (m : Fin 16) (s : State) (h1 : s.Inv) :
    ∃ u, execLongCommandEnd m s = .next u ∧ u.Inv := by
  unfold execLongCommandEnd
  with_reducible repeat' first | assumption | apply fwOn_inv | apply longCommandEnd_inv

/-! ## RowLog -/

theorem execLogEvent_inv (who : Initiator) (w : Word) (s : State) (h1 : s.Inv) :
    ∃ u, execLogEvent who w s = .next u ∧ u.Inv := by
  unfold execLogEvent
  with_reducible repeat' first | assumption | apply writeReg_inv

theorem execRecordWrite_inv (c : BitVec 8) (s : State) (h1 : s.Inv) :
    ∃ u, execRecordWrite c s = .next u ∧ u.Inv := by
  unfold execRecordWrite
  with_reducible repeat' first | assumption | apply chipOn_inv | apply recordWrite_inv

theorem execBreakwaterWindowEnd_inv (c : BitVec 8) (s : State) (h1 : s.Inv) :
    ∃ u, execBreakwaterWindowEnd c s = .next u ∧ u.Inv := by
  unfold execBreakwaterWindowEnd
  with_reducible repeat' first | assumption | apply chipOn_inv | apply breakwaterWindowEnd_inv

theorem execFreeze_inv (who : Initiator) (w : Word) (s : State) (h1 : s.Inv) :
    ∃ u, execFreeze who w s = .next u ∧ u.Inv := by
  unfold execFreeze
  with_reducible repeat' first | assumption | apply writeReg_inv

theorem execFrozen_inv (s : State) (h1 : s.Inv) :
    ∃ u, execFrozen s = .next u ∧ u.Inv := by
  unfold execFrozen
  with_reducible repeat' first | assumption | apply chipOn_inv | apply frozen_inv

theorem execStagedEventsApply_inv (s : State) (h1 : s.Inv) :
    ∃ u, execStagedEventsApply s = .next u ∧ u.Inv := by
  unfold execStagedEventsApply
  with_reducible repeat' first | assumption | apply chipOn_inv | apply stagedEventsApply_inv

theorem execLogCmdRead_inv (who : Initiator) (w : Word) (s : State) (h1 : s.Inv) :
    ∃ u, execLogCmdRead who w s = .next u ∧ u.Inv := by
  unfold execLogCmdRead
  with_reducible repeat' first | assumption | apply writeReg_inv

theorem execWriteCfg_inv (who : Initiator) (w : Word) (s : State) (h1 : s.Inv) :
    ∃ u, execWriteCfg who w s = .next u ∧ u.Inv := by
  unfold execWriteCfg
  with_reducible repeat' first | assumption | apply writeReg_inv

theorem execLogCmdClear_inv (who : Initiator) (w : Word) (s : State) (h1 : s.Inv) :
    ∃ u, execLogCmdClear who w s = .next u ∧ u.Inv := by
  unfold execLogCmdClear
  with_reducible repeat' first | assumption | apply writeReg_inv

theorem execLogOperationEnd_inv (s : State) (h1 : s.Inv) :
    ∃ u, execLogOperationEnd s = .next u ∧ u.Inv := by
  unfold execLogOperationEnd
  with_reducible repeat' first | assumption | apply chipOn_inv | apply logOperationEnd_inv

theorem execOpsecSave_inv (s : State) (h1 : s.Inv) :
    ∃ u, execOpsecSave s = .next u ∧ u.Inv := by
  unfold execOpsecSave
  with_reducible repeat' first | assumption | apply powerOn_inv | apply opsecSave_inv

theorem execOperatingSecond_inv (s : State) (h1 : s.Inv) :
    ∃ u, execOperatingSecond s = .next u ∧ u.Inv := by
  unfold execOperatingSecond
  with_reducible repeat' first | assumption | apply powerOn_inv | apply operatingSecond_inv

/-! ## RowLh -/

theorem execLhSafen_inv (low : Bool) (s : State) (h1 : s.Inv) :
    ∃ u, execLhSafen low s = .next u ∧ u.Inv := by
  unfold execLhSafen
  with_reducible repeat' first | assumption | apply powerOn_inv | apply lhSafen_inv

theorem execSafeReq_inv (who : Initiator) (w : Word) (s : State) (h1 : s.Inv) :
    ∃ u, execSafeReq who w s = .next u ∧ u.Inv := by
  unfold execSafeReq
  with_reducible repeat' first | assumption | apply writeReg_inv

theorem execLhCtlRelease_inv (who : Initiator) (w : Word) (s : State) (h1 : s.Inv) :
    ∃ u, execLhCtlRelease who w s = .next u ∧ u.Inv := by
  unfold execLhCtlRelease
  with_reducible repeat' first | assumption | apply writeReg_inv

theorem execSafeStateEntry_inv (s : State) (h1 : s.Inv) :
    ∃ u, execSafeStateEntry s = .next u ∧ u.Inv := by
  unfold execSafeStateEntry
  with_reducible repeat' first | assumption | apply powerOn_inv | apply safeStateEntry_inv

theorem execSafeStateRelease_inv (s : State) (h1 : s.Inv) :
    ∃ u, execSafeStateRelease s = .next u ∧ u.Inv := by
  unfold execSafeStateRelease
  with_reducible repeat' first | assumption | apply powerOn_inv | apply safeStateRelease_inv

theorem execLhWatchdogExpiry_inv (k : Fin 25) (s : State) (h1 : s.Inv) :
    ∃ u, execLhWatchdogExpiry k s = .next u ∧ u.Inv := by
  unfold execLhWatchdogExpiry
  with_reducible repeat' first | assumption | apply powerOn_inv | apply lhWatchdogExpiry_inv

theorem execLhKick_inv (who : Initiator) (w : Word) (s : State) (h1 : s.Inv) :
    ∃ u, execLhKick who w s = .next u ∧ u.Inv := by
  unfold execLhKick
  with_reducible repeat' first | assumption | apply writeReg_inv

theorem execLhFrameRefused_inv (f : LhFrame) (s : State) (h1 : s.Inv) :
    ∃ u, execLhFrameRefused f s = .next u ∧ u.Inv := by
  unfold execLhFrameRefused
  with_reducible repeat' first | assumption | apply powerOn_inv | apply lhFrameRefused_inv

theorem execLhNop_inv (a : BitVec 16) (data : Word) (s : State) (h1 : s.Inv) :
    ∃ u, execLhNop a data s = .next u ∧ u.Inv := by
  unfold execLhNop
  with_reducible repeat' first | assumption | apply powerOn_inv | apply lhNop_inv

theorem execReadLh_inv (a : BitVec 16) (data : Word) (s : State) (h1 : s.Inv) :
    ∃ u, execReadLh a data s = .next u ∧ u.Inv := by
  unfold execReadLh
  with_reducible repeat' first | assumption | apply powerOn_inv | apply readLh_inv

theorem execWriteLh_inv (a : BitVec 16) (data : Word) (s : State) (h1 : s.Inv) :
    ∃ u, execWriteLh a data s = .next u ∧ u.Inv := by
  unfold execWriteLh
  with_reducible repeat' first | assumption | apply powerOn_inv | apply writeLh_inv

theorem execReadMb_inv (a : BitVec 16) (data : Word) (s : State) (h1 : s.Inv) :
    ∃ u, execReadMb a data s = .next u ∧ u.Inv := by
  unfold execReadMb
  with_reducible repeat' first | assumption | apply powerOn_inv | apply readMb_inv

theorem execWriteMb_inv (a : BitVec 16) (data : Word) (s : State) (h1 : s.Inv) :
    ∃ u, execWriteMb a data s = .next u ∧ u.Inv := by
  unfold execWriteMb
  with_reducible repeat' first | assumption | apply powerOn_inv | apply writeMb_inv

theorem execLhSafe_inv (a : BitVec 16) (data : Word) (s : State) (h1 : s.Inv) :
    ∃ u, execLhSafe a data s = .next u ∧ u.Inv := by
  unfold execLhSafe
  with_reducible repeat' first | assumption | apply powerOn_inv | apply lhSafe_inv

theorem execLhRelease_inv (a : BitVec 16) (data : Word) (s : State) (h1 : s.Inv) :
    ∃ u, execLhRelease a data s = .next u ∧ u.Inv := by
  unfold execLhRelease
  with_reducible repeat' first | assumption | apply powerOn_inv | apply lhRelease_inv

theorem execLhChipReset_inv (a : BitVec 16) (data : Word) (s : State) (h1 : s.Inv) :
    ∃ u, execLhChipReset a data s = .next u ∧ u.Inv := by
  unfold execLhChipReset
  with_reducible repeat' first | assumption | apply powerOn_inv | apply lhChipReset_inv

theorem execLhLogFreeze_inv (a : BitVec 16) (data : Word) (s : State) (h1 : s.Inv) :
    ∃ u, execLhLogFreeze a data s = .next u ∧ u.Inv := by
  unfold execLhLogFreeze
  with_reducible repeat' first | assumption | apply powerOn_inv | apply lhLogFreeze_inv

theorem execLhLogThaw_inv (a : BitVec 16) (data : Word) (s : State) (h1 : s.Inv) :
    ∃ u, execLhLogThaw a data s = .next u ∧ u.Inv := by
  unfold execLhLogThaw
  with_reducible repeat' first | assumption | apply powerOn_inv | apply lhLogThaw_inv

theorem execLhLogRead_inv (a : BitVec 16) (data : Word) (s : State) (h1 : s.Inv) :
    ∃ u, execLhLogRead a data s = .next u ∧ u.Inv := by
  unfold execLhLogRead
  with_reducible repeat' first | assumption | apply powerOn_inv | apply lhLogRead_inv

theorem execLhFreezeTimeout_inv (s : State) (h1 : s.Inv) :
    ∃ u, execLhFreezeTimeout s = .next u ∧ u.Inv := by
  unfold execLhFreezeTimeout
  with_reducible repeat' first | assumption | apply powerOn_inv | apply lhFreezeTimeout_inv

theorem execXtalSwitch_inv (on : Bool) (s : State) (h1 : s.Inv) :
    ∃ u, execXtalSwitch on s = .next u ∧ u.Inv := by
  unfold execXtalSwitch
  with_reducible repeat' first | assumption | apply powerOn_inv | apply xtalSwitch_inv

/-! ## RowDbg -/

theorem execTestLinkCtl_inv (who : Initiator) (l : Fin 64) (w : Word) (s : State) (h1 : s.Inv) :
    ∃ u, execTestLinkCtl who l w s = .next u ∧ u.Inv := by
  unfold execTestLinkCtl
  with_reducible repeat' first | assumption | apply writeReg_inv

theorem execCheckerLocked_inv (l : Fin 64) (lane : Fin 8) (s : State) (h1 : s.Inv) :
    ∃ u, execCheckerLocked l lane s = .next u ∧ u.Inv := by
  unfold execCheckerLocked
  with_reducible repeat' first | assumption | apply chipOn_inv | apply checkerLocked_inv

theorem execLaneErr_inv (l : Fin 64) (lane : Fin 8) (units : ℕ) (s : State) (h1 : s.Inv) :
    ∃ u, execLaneErr l lane units s = .next u ∧ u.Inv := by
  unfold execLaneErr
  with_reducible repeat' first | assumption | apply chipOn_inv | apply laneErr_inv

theorem execLockLost_inv (l : Fin 64) (lane : Fin 8) (units : ℕ) (s : State) (h1 : s.Inv) :
    ∃ u, execLockLost l lane units s = .next u ∧ u.Inv := by
  unfold execLockLost
  with_reducible repeat' first | assumption | apply chipOn_inv | apply lockLost_inv

theorem State.tapSelect_inv (s : State) (code n : Nat) (h1 : s.Inv) : (State.tapSelect s code n).Inv :=
  State.tapScan_inv _ _ (State.tapLoad_inv _ _ h1)

theorem execTapReset_inv (s : State) (h1 : s.Inv) :
    ∃ u, execTapReset s = .next u ∧ u.Inv := by
  unfold execTapReset
  with_reducible repeat' first | assumption | apply tapOn_inv | apply tapReset_inv

theorem execExtest_inv (s : State) (h1 : s.Inv) :
    ∃ u, execExtest s = .next u ∧ u.Inv := by
  unfold execExtest
  with_reducible repeat' first | assumption | apply tapOn_inv | apply State.tapSelect_inv | intro _

theorem execIdcode_inv (s : State) (h1 : s.Inv) :
    ∃ u, execIdcode s = .next u ∧ u.Inv := by
  unfold execIdcode
  with_reducible repeat' first | assumption | apply tapOn_inv | apply State.tapSelect_inv | intro _

theorem execExtestPulse_inv (s : State) (h1 : s.Inv) :
    ∃ u, execExtestPulse s = .next u ∧ u.Inv := by
  unfold execExtestPulse
  with_reducible repeat' first | assumption | apply tapOn_inv | apply State.tapSelect_inv | intro _

theorem execExtestTrain_inv (s : State) (h1 : s.Inv) :
    ∃ u, execExtestTrain s = .next u ∧ u.Inv := by
  unfold execExtestTrain
  with_reducible repeat' first | assumption | apply tapOn_inv | apply State.tapSelect_inv | intro _

theorem execClamp_inv (s : State) (h1 : s.Inv) :
    ∃ u, execClamp s = .next u ∧ u.Inv := by
  unfold execClamp
  with_reducible repeat' first | assumption | apply tapOn_inv | apply State.tapSelect_inv | intro _

theorem execHighz_inv (s : State) (h1 : s.Inv) :
    ∃ u, execHighz s = .next u ∧ u.Inv := by
  unfold execHighz
  with_reducible repeat' first | assumption | apply tapOn_inv | apply State.tapSelect_inv | intro _

theorem execDebug_inv (s : State) (h1 : s.Inv) :
    ∃ u, execDebug s = .next u ∧ u.Inv := by
  unfold execDebug
  with_reducible repeat' first | assumption | apply tapOn_inv | apply State.tapLoad_inv | intro _

theorem execBypass_inv (s : State) (h1 : s.Inv) :
    ∃ u, execBypass s = .next u ∧ u.Inv := by
  unfold execBypass
  with_reducible repeat' first | assumption | apply tapOn_inv | apply State.tapSelect_inv | intro _

theorem execSamplePreload_inv (l : List Bool) (s : State) (h1 : s.Inv) :
    ∃ u, execSamplePreload l s = .next u ∧ u.Inv := by
  unfold execSamplePreload
  with_reducible repeat' first | assumption | apply tapOn_inv | apply samplePreload_inv

theorem execAccessUpdate_inv (op : Fin 4) (size : Fin 4) (a : Word) (data : BitVec 64) (s : State) (h1 : s.Inv) :
    ∃ u, execAccessUpdate op size a data s = .next u ∧ u.Inv := by
  unfold execAccessUpdate
  with_reducible repeat' first | assumption | apply tapOn_inv | apply accessUpdate_inv

theorem execSysResetChip_inv (who : Initiator) (w : Word) (s : State) (h1 : s.Inv) :
    ∃ u, execSysResetChip who w s = .next u ∧ u.Inv := by
  unfold execSysResetChip
  with_reducible repeat' first | assumption | apply writeReg_inv

theorem execSysResetCore_inv (who : Initiator) (w : Word) (s : State) (h1 : s.Inv) :
    ∃ u, execSysResetCore who w s = .next u ∧ u.Inv := by
  unfold execSysResetCore
  with_reducible repeat' first | assumption | apply writeReg_inv

/-! ## RowPower -/

theorem execVinValid_inv (s : State) (h1 : s.Inv) :
    ∃ u, execVinValid s = .next u ∧ u.Inv := by
  unfold execVinValid
  with_reducible repeat' first | assumption | apply anyTime_inv | apply vinValid_inv

theorem execVinInvalid_inv (s : State) (h1 : s.Inv) :
    ∃ u, execVinInvalid s = .next u ∧ u.Inv := by
  unfold execVinInvalid
  with_reducible repeat' first | assumption | apply anyTime_inv | apply vinInvalid_inv

theorem execLighthousePowerLoss_inv (s : State) (h1 : s.Inv) :
    ∃ u, execLighthousePowerLoss s = .next u ∧ u.Inv := by
  unfold execLighthousePowerLoss
  with_reducible repeat' first | assumption | apply anyTime_inv | apply lighthousePowerLoss_inv

theorem execRailOutOfRegulation_inv (s : State) (h1 : s.Inv) :
    ∃ u, execRailOutOfRegulation s = .next u ∧ u.Inv := by
  unfold execRailOutOfRegulation
  with_reducible repeat' first | assumption | apply anyTime_inv | apply railOutOfRegulation_inv

theorem execBankDown_inv (b : Fin 8) (up : Bool) (s : State) (h1 : s.Inv) :
    ∃ u, execBankDown b up s = .next u ∧ u.Inv := by
  unfold execBankDown
  with_reducible repeat' first | assumption | apply anyTime_inv | apply bankDown_inv

theorem execRefclkFailure_inv (s : State) (h1 : s.Inv) :
    ∃ u, execRefclkFailure s = .next u ∧ u.Inv := by
  unfold execRefclkFailure
  with_reducible repeat' first | assumption | apply anyTime_inv | apply refclkFailure_inv

theorem execTsrefLost_inv (s : State) (h1 : s.Inv) :
    ∃ u, execTsrefLost s = .next u ∧ u.Inv := by
  unfold execTsrefLost
  with_reducible repeat' first | assumption | apply chipOn_inv | apply tsrefLost_inv

theorem execCanrefLost_inv (s : State) (h1 : s.Inv) :
    ∃ u, execCanrefLost s = .next u ∧ u.Inv := by
  unfold execCanrefLost
  with_reducible repeat' first | assumption | apply chipOn_inv | apply canrefLost_inv

theorem execTsSrc_inv (who : Initiator) (w : Word) (s : State) (h1 : s.Inv) :
    ∃ u, execTsSrc who w s = .next u ∧ u.Inv := by
  unfold execTsSrc
  with_reducible repeat' first | assumption | apply writeReg_inv

theorem execTimePllLocked_inv (s : State) (h1 : s.Inv) :
    ∃ u, execTimePllLocked s = .next u ∧ u.Inv := by
  unfold execTimePllLocked
  with_reducible repeat' first | assumption | apply chipOn_inv | apply timePllLocked_inv

theorem execResetn_inv (low : Bool) (s : State) (h1 : s.Inv) :
    ∃ u, execResetn low s = .next u ∧ u.Inv := by
  unfold execResetn
  with_reducible repeat' first | assumption | apply anyTime_inv | apply resetn_inv

theorem execChipReset_inv (s : State) (h1 : s.Inv) :
    ∃ u, execChipReset s = .next u ∧ u.Inv := by
  unfold execChipReset
  with_reducible repeat' first | assumption | apply anyTime_inv | apply chipReset_inv

theorem execChipResetRelease_inv (boot : BitVec 3) (mode : BitVec 2) (wide : Bool) (s : State) (h1 : s.Inv) :
    ∃ u, execChipResetRelease boot mode wide s = .next u ∧ u.Inv := by
  unfold execChipResetRelease
  with_reducible repeat' first | assumption | apply anyTime_inv | apply chipResetRelease_inv

theorem execCoreReset_inv (s : State) (h1 : s.Inv) :
    ∃ u, execCoreReset s = .next u ∧ u.Inv := by
  unfold execCoreReset
  with_reducible repeat' first | assumption | apply anyTime_inv | apply coreReset_inv

theorem execCoreResetEnd_inv (s : State) (h1 : s.Inv) :
    ∃ u, execCoreResetEnd s = .next u ∧ u.Inv := by
  unfold execCoreResetEnd
  with_reducible repeat' first | assumption | apply anyTime_inv | apply coreResetEnd_inv

theorem execCausewayReset_inv (s : State) (h1 : s.Inv) :
    ∃ u, execCausewayReset s = .next u ∧ u.Inv := by
  unfold execCausewayReset
  with_reducible repeat' first | assumption | apply anyTime_inv | apply causewayReset_inv

theorem execCausewayResetEnd_inv (s : State) (h1 : s.Inv) :
    ∃ u, execCausewayResetEnd s = .next u ∧ u.Inv := by
  unfold execCausewayResetEnd
  with_reducible repeat' first | assumption | apply anyTime_inv | apply causewayResetEnd_inv

/-! ## RowBoot -/

theorem execBootImageStart_inv (s : State) (h1 : s.Inv) :
    ∃ u, execBootImageStart s = .next u ∧ u.Inv := by
  unfold execBootImageStart
  with_reducible repeat' first | assumption | apply fwOn_inv | apply bootImageStart_inv

theorem execAutoload_inv (s : State) (h1 : s.Inv) :
    ∃ u, execAutoload s = .next u ∧ u.Inv := by
  unfold execAutoload
  with_reducible repeat' first | assumption | apply fwOn_inv | apply autoload_inv

theorem execMusterCount_inv (q : Fin 6) (bytes : List (BitVec 8)) (s : State) (h1 : s.Inv) :
    ∃ u, execMusterCount q bytes s = .next u ∧ u.Inv := by
  unfold execMusterCount
  with_reducible repeat' first | assumption | apply coreOn_inv | apply musterCount_inv

theorem execMusterBlock_inv (q : Fin 6) (bytes : List (BitVec 8)) (s : State) (h1 : s.Inv) :
    ∃ u, execMusterBlock q bytes s = .next u ∧ u.Inv := by
  unfold execMusterBlock
  with_reducible repeat' first | assumption | apply fwOn_inv | apply musterBlock_inv

theorem execMusterDone_inv (q : Fin 6) (bytes : List (BitVec 8)) (s : State) (h1 : s.Inv) :
    ∃ u, execMusterDone q bytes s = .next u ∧ u.Inv := by
  unfold execMusterDone
  with_reducible repeat' first | assumption | apply fwOn_inv | apply musterDone_inv

theorem execMusterRequest_inv (q : Fin 6) (bytes : List (BitVec 8)) (s : State) (h1 : s.Inv) :
    ∃ u, execMusterRequest q bytes s = .next u ∧ u.Inv := by
  unfold execMusterRequest
  with_reducible repeat' first | assumption | apply coreOn_inv | apply musterRequest_inv

end Sys2Proof.Machine
end

