-- ==== Sys2Proof/Laws/CanonStep.lean ====
section
/-! SUPPORT. Every operation of the dispatch of the commands keeps the tables of the state in canonical form. -/
namespace Sys2Proof.Machine

/-! ## Dispatch -/

theorem exec_inv (i : Instr) (s : State) (h1 : s.Inv) :
    ∃ u, exec i s = .next u ∧ u.Inv := by
  exact match i with
  | .registerWrite who a w => execRegisterWrite_inv who a w s h1
  | .interconnectAccess who a op lanes upset => execInterconnectAccess_inv who a op lanes upset s h1
  | .busTimeout who a op => execBusTimeout_inv who a op s h1
  | .correctionWriteBack line => execCorrectionWriteBack_inv line s h1
  | .dredgerPass soft hard => execDredgerPass_inv soft hard s h1
  | .dredgeLate => execDredgeLate_inv s h1
  | .timeAdvance => execTimeAdvance_inv s h1
  | .timeCmdStep who w => execTimeCmdStep_inv who w s h1
  | .timeCmdSet who w => execTimeCmdSet_inv who w s h1
  | .timeCmdInc who w => execTimeCmdInc_inv who w s h1
  | .timeCmdKick who w => execTimeCmdKick_inv who w s h1
  | .forceJump who w => execForceJump_inv who w s h1
  | .disarm who w => execDisarm_inv who w s h1
  | .stepApply => execStepApply_inv s h1
  | .setApply => execSetApply_inv s h1
  | .incApply => execIncApply_inv s h1
  | .kickApply => execKickApply_inv s h1
  | .timeCtlState who w => execTimeCtlState_inv who w s h1
  | .timeWdog who w => execTimeWdog_inv who w s h1
  | .stateWatchdogExpiry => execStateWatchdogExpiry_inv s h1
  | .timeNowFrac who => execTimeNowFrac_inv who s h1
  | .timePtpTxtsKey who n => execTimePtpTxtsKey_inv who n s h1
  | .triggerMode who n w => execTriggerMode_inv who n w s h1
  | .periodicRise n => execPeriodicRise_inv n s h1
  | .pulse who n w => execPulse_inv who n w s h1
  | .pulseEnd n => execPulseEnd_inv n s h1
  | .captureEdge n rising => execCaptureEdge_inv n rising s h1
  | .tcapTsNs who n => execTcapTsNs_inv who n s h1
  | .runStart who w => execRunStart_inv who w s h1
  | .runStop who w => execRunStop_inv who w s h1
  | .cycleBoundary => execCycleBoundary_inv s h1
  | .entryIssue => execEntryIssue_inv s h1
  | .tideNop => execTideNop_inv s h1
  | .gate => execGate_inv s h1
  | .stow => execStow_inv s h1
  | .handPublish => execHandPublish_inv s h1
  | .handAcquire => execHandAcquire_inv s h1
  | .trig => execTrig_inv s h1
  | .capt => execCapt_inv s h1
  | .motn => execMotn_inv s h1
  | .dmas => execDmas_inv s h1
  | .evnt => execEvnt_inv s h1
  | .wake => execWake_inv s h1
  | .adcs => execAdcs_inv s h1
  | .validateA who w => execValidateA_inv who w s h1
  | .validateB who w => execValidateB_inv who w s h1
  | .validationEnd b => execValidationEnd_inv b s h1
  | .tideBankWrite who a w => execTideBankWrite_inv who a w s h1
  | .swapArm who w => execSwapArm_inv who w s h1
  | .swapDisarm who w => execSwapDisarm_inv who w s h1
  | .swapDecision => execSwapDecision_inv s h1
  | .tideHbCfg who n w => execTideHbCfg_inv who n w s h1
  | .hbCmdPublish who w => execHbCmdPublish_inv who w s h1
  | .hbCmdAcquire who w => execHbCmdAcquire_inv who w s h1
  | .heldOperationApply n => execHeldOperationApply_inv n s h1
  | .windowExpiry n => execWindowExpiry_inv n s h1
  | .frameReceive n part => execFrameReceive_inv n part s h1
  | .cutThrough n part => execCutThrough_inv n part s h1
  | .frameTransmit n part => execFrameTransmit_inv n part s h1
  | .lookup who w => execLookup_inv who w s h1
  | .macWrite who w => execMacWrite_inv who w s h1
  | .macDelete who w => execMacDelete_inv who w s h1
  | .macFlush who w => execMacFlush_inv who w s h1
  | .readIndex who w => execReadIndex_inv who w s h1
  | .macOperationEnd => execMacOperationEnd_inv s h1
  | .ageingPass => execAgeingPass_inv s h1
  | .vlanRead who w => execVlanRead_inv who w s h1
  | .vlanWrite who w => execVlanWrite_inv who w s h1
  | .streamRead who w => execStreamRead_inv who w s h1
  | .streamWrite who w => execStreamWrite_inv who w s h1
  | .streamClear who w => execStreamClear_inv who w s h1
  | .unblock who w => execUnblock_inv who w s h1
  | .streamOperationEnd => execStreamOperationEnd_inv s h1
  | .portMode who n w => execPortMode_inv who n w s h1
  | .portCtlReset who n w => execPortCtlReset_inv who n w s h1
  | .portResetEnd n => execPortResetEnd_inv n s h1
  | .restartAn who n w => execRestartAn_inv who n w s h1
  | .linkUp n fin => execLinkUp_inv n fin s h1
  | .linkLoss n => execLinkLoss_inv n s h1
  | .linkFilterExpiry n => execLinkFilterExpiry_inv n s h1
  | .pauseFrame n quanta => execPauseFrame_inv n quanta s h1
  | .pfcFrame n vec times => execPfcFrame_inv n vec times s h1
  | .unsupOpcode n => execUnsupOpcode_inv n s h1
  | .pauseExpiry n prio => execPauseExpiry_inv n prio s h1
  | .send who n w => execSend_inv who n w s h1
  | .lpiEntry n => execLpiEntry_inv n s h1
  | .wakeOnQueue n => execWakeOnQueue_inv n s h1
  | .wakeComplete n => execWakeComplete_inv n s h1
  | .verifyTimerExpiry n => execVerifyTimerExpiry_inv n s h1
  | .verifyResponse n => execVerifyResponse_inv n s h1
  | .portMmCtl who n w => execPortMmCtl_inv who n w s h1
  | .portMdioCmd who w => execPortMdioCmd_inv who w s h1
  | .mdioOperationEnd data => execMdioOperationEnd_inv data s h1
  | .commit who w => execCommit_inv who w s h1
  | .commitEnd => execCommitEnd_inv s h1
  | .stowClear who w => execStowClear_inv who w s h1
  | .nop n => execNop_inv n s h1
  | .mov n => execMov_inv n s h1
  | .sext n => execSext_inv n s h1
  | .zext n => execZext_inv n s h1
  | .lea n => execLea_inv n s h1
  | .bswap n => execBswap_inv n s h1
  | .add n => execAdd_inv n s h1
  | .adc n => execAdc_inv n s h1
  | .sub n => execSub_inv n s h1
  | .sbb n => execSbb_inv n s h1
  | .neg n => execNeg_inv n s h1
  | .mul n => execMul_inv n s h1
  | .mulhu n => execMulhu_inv n s h1
  | .mulhs n => execMulhs_inv n s h1
  | .mac n => execMac_inv n s h1
  | .and n => execAnd_inv n s h1
  | .or n => execOr_inv n s h1
  | .xor n => execXor_inv n s h1
  | .andn n => execAndn_inv n s h1
  | .not n => execNot_inv n s h1
  | .shl n => execShl_inv n s h1
  | .shr n => execShr_inv n s h1
  | .sar n => execSar_inv n s h1
  | .rol n => execRol_inv n s h1
  | .ror n => execRor_inv n s h1
  | .bfx n => execBfx_inv n s h1
  | .bfxs n => execBfxs_inv n s h1
  | .bfi n => execBfi_inv n s h1
  | .bset n => execBset_inv n s h1
  | .bclr n => execBclr_inv n s h1
  | .beq n => execBeq_inv n s h1
  | .bne n => execBne_inv n s h1
  | .blt n => execBlt_inv n s h1
  | .bge n => execBge_inv n s h1
  | .bltu n => execBltu_inv n s h1
  | .bgeu n => execBgeu_inv n s h1
  | .bbs n => execBbs_inv n s h1
  | .bbc n => execBbc_inv n s h1
  | .jmp n => execJmp_inv n s h1
  | .bf n => execBf_inv n s h1
  | .djnz n => execDjnz_inv n s h1
  | .call n => execCall_inv n s h1
  | .ret n => execRet_inv n s h1
  | .trap n => execTrap_inv n s h1
  | .rett n => execRett_inv n s h1
  | .crc32 n => execCrc32_inv n s h1
  | .crc16r n => execCrc16r_inv n s h1
  | .crc16n n => execCrc16n_inv n s h1
  | .csum n => execCsum_inv n s h1
  | .rep n => execRep_inv n s h1
  | .repi n => execRepi_inv n s h1
  | .fqpush n => execFqpush_inv n s h1
  | .fqpop n => execFqpop_inv n s h1
  | .fqpkt n => execFqpkt_inv n s h1
  | .snext n => execSnext_inv n s h1
  | .sclose n => execSclose_inv n s h1
  | .sstat n => execSstat_inv n s h1
  | .waite n => execWaite_inv n s h1
  | .waiteComplete n => execWaiteComplete_inv n s h1
  | .waiteTimeout n => execWaiteTimeout_inv n s h1
  | .waitt n => execWaitt_inv n s h1
  | .waittComplete n => execWaittComplete_inv n s h1
  | .yield n => execYield_inv n s h1
  | .swap n => execSwap_inv n s h1
  | .tas n => execTas_inv n s h1
  | .cas n => execCas_inv n s h1
  | .scope n => execScope_inv n s h1
  | .logev n => execLogev_inv n s h1
  | .ifence n => execIfence_inv n s h1
  | .streamWaitEnd n => execStreamWaitEnd_inv n s h1
  | .eventInterrupt n => execEventInterrupt_inv n s h1
  | .breakpoint n => execBreakpoint_inv n s h1
  | .eventSet who n w => execEventSet_inv who n w s h1
  | .qeTimer n => execQeTimer_inv n s h1
  | .qeStart who n w => execQeStart_inv who n w s h1
  | .qeStop who n w => execQeStop_inv who n w s h1
  | .qeStopLands n => execQeStopLands_inv n s h1
  | .qeHalt who n w => execQeHalt_inv who n w s h1
  | .qeResume who n w => execQeResume_inv who n w s h1
  | .qeStep who n w => execQeStep_inv who n w s h1
  | .qeWatchdogExpiry n => execQeWatchdogExpiry_inv n s h1
  | .kick who n w => execKick_inv who n w s h1
  | .berthCtlStart who b w => execBerthCtlStart_inv who b w s h1
  | .berthCtlStop who b w => execBerthCtlStop_inv who b w s h1
  | .notify who b w => execNotify_inv who b w s h1
  | .berthCtlReset who b w => execBerthCtlReset_inv who b w s h1
  | .berthResetEnd b => execBerthResetEnd_inv b s h1
  | .fqDataWrite who q w => execFqDataWrite_inv who q w s h1
  | .fqTagWrite who q w => execFqTagWrite_inv who q w s h1
  | .fqDataRead who q => execFqDataRead_inv who q s h1
  | .ferryFlush who w => execFerryFlush_inv who w s h1
  | .ferryQCtlFlush who w => execFerryQCtlFlush_inv who w s h1
  | .switchPortTransmit p => execSwitchPortTransmit_inv p s h1
  | .dmaStart who ch w => execDmaStart_inv who ch w s h1
  | .abort who ch w => execAbort_inv who ch w s h1
  | .descriptorFetch ch => execDescriptorFetch_inv ch s h1
  | .segmentTransfer ch => execSegmentTransfer_inv ch s h1
  | .burstGrant ch => execBurstGrant_inv ch s h1
  | .dreq k on => execDreq_inv k on s h1
  | .descriptorComplete ch late => execDescriptorComplete_inv ch late s h1
  | .canMode who n w => execCanMode_inv who n w s h1
  | .canModeEffect n => execCanModeEffect_inv n s h1
  | .txBufferLoad n => execTxBufferLoad_inv n s h1
  | .canTransmit n part => execCanTransmit_inv n part s h1
  | .busOffRecovery n => execBusOffRecovery_inv n s h1
  | .canTxCancel who n w => execCanTxCancel_inv who n w s h1
  | .canReceive n part => execCanReceive_inv n part s h1
  | .ttEnable who w => execTtEnable_inv who w s h1
  | .ttCycleStart level => execTtCycleStart_inv level s h1
  | .ttTrigger => execTtTrigger_inv s h1
  | .backupReference => execBackupReference_inv s h1
  | .update who m w => execUpdate_inv who m w s h1
  | .abufExchange m => execAbufExchange_inv m s h1
  | .profileTick => execProfileTick_inv s h1
  | .axisCmdStart who n w => execAxisCmdStart_inv who n w s h1
  | .axisCmdStop who n w => execAxisCmdStop_inv who n w s h1
  | .estop who n w => execEstop_inv who n w s h1
  | .home who n w => execHome_inv who n w s h1
  | .armNext who n w => execArmNext_inv who n w s h1
  | .axisCmdClear who n w => execAxisCmdClear_inv who n w s h1
  | .grpStart who g w => execGrpStart_inv who g w s h1
  | .grpStop who g w => execGrpStop_inv who g w s h1
  | .grpEstop who g w => execGrpEstop_inv who g w s h1
  | .latch who g w => execLatch_inv who g w s h1
  | .grpClear who g w => execGrpClear_inv who g w s h1
  | .axPosLoWrite who n w => execAxPosLoWrite_inv who n w s h1
  | .axPosHiWrite who n w => execAxPosHiWrite_inv who n w s h1
  | .axPosLoRead who n => execAxPosLoRead_inv who n s h1
  | .rawInputEdge n k level => execRawInputEdge_inv n k level s h1
  | .debounceExpiry n k => execDebounceExpiry_inv n k s h1
  | .chopCycleStart n ph => execChopCycleStart_inv n ph s h1
  | .deadTimeEnd n ph => execDeadTimeEnd_inv n ph s h1
  | .blankEnd n ph v => execBlankEnd_inv n ph v s h1
  | .comparatorTrip n ph v => execComparatorTrip_inv n ph v s h1
  | .offTimeEnd n ph => execOffTimeEnd_inv n ph s h1
  | .overCurrent n va vb => execOverCurrent_inv n va vb s h1
  | .restDelayExpiry n => execRestDelayExpiry_inv n s h1
  | .encoderEdge n a b => execEncoderEdge_inv n a b s h1
  | .indexEdge n z => execIndexEdge_inv n z s h1
  | .encCountLoWrite who n w => execEncCountLoWrite_inv who n w s h1
  | .encCountHiWrite who n w => execEncCountHiWrite_inv who n w s h1
  | .encCountLoRead who n => execEncCountLoRead_inv who n s h1
  | .adcStart who c w => execAdcStart_inv who c w s h1
  | .conversion c v => execConversion_inv c v s h1
  | .adcResults c => execAdcResults_inv c s h1
  | .soundSel who k pin w => execSoundSel_inv who k pin w s h1
  | .drive n ext clash parity => execDrive_inv n ext clash parity s h1
  | .sample n ext clash parity => execSample_inv n ext clash parity s h1
  | .load n ext clash parity => execLoad_inv n ext clash parity s h1
  | .store n ext clash parity => execStore_inv n ext clash parity s h1
  | .await n ext clash parity => execAwait_inv n ext clash parity s h1
  | .awaitComplete n ext => execAwaitComplete_inv n ext s h1
  | .count n ext clash parity => execCount_inv n ext clash parity s h1
  | .signal n ext clash parity => execSignal_inv n ext clash parity s h1
  | .move n ext clash parity => execMove_inv n ext clash parity s h1
  | .pilotQueueWaitEnd n => execPilotQueueWaitEnd_inv n s h1
  | .dwellEnd n => execDwellEnd_inv n s h1
  | .pilotStart who n w => execPilotStart_inv who n w s h1
  | .pilotStop who n w => execPilotStop_inv who n w s h1
  | .pilotKick who n w => execPilotKick_inv who n w s h1
  | .pilotFlush who n w => execPilotFlush_inv who n w s h1
  | .psStart who k w => execPsStart_inv who k w s h1
  | .psStop who k w => execPsStop_inv who k w s h1
  | .plTxdata who n w => execPlTxdata_inv who n w s h1
  | .plRxdata who n => execPlRxdata_inv who n s h1
  | .pcieMwr bar dw dws ep => execPcieMwr_inv bar dw dws ep s h1
  | .pcieMrd bar dw bes => execPcieMrd_inv bar dw bes s h1
  | .pcieAtomicop bar dw bytes kind x y => execPcieAtomicop_inv bar dw bytes kind x y s h1
  | .unsupportedRequest kind => execUnsupportedRequest_inv kind s h1
  | .pcieCompletion => execPcieCompletion_inv s h1
  | .msixMessage v => execMsixMessage_inv v s h1
  | .hostifMsixRearm who w => execHostifMsixRearm_inv who w s h1
  | .pcieInterfaceReset kind => execPcieInterfaceReset_inv kind s h1
  | .outboundRequest who a op => execOutboundRequest_inv who a op s h1
  | .outboundCompletion who a fin => execOutboundCompletion_inv who a fin s h1
  | .completionTimeout who a => execCompletionTimeout_inv who a s h1
  | .outStarved who a => execOutStarved_inv who a s h1
  | .hbReadCycle a ben lockn => execHbReadCycle_inv a ben lockn s h1
  | .hbWriteCycle a ben data lockn => execHbWriteCycle_inv a ben data lockn s h1
  | .hbControlPage a write ben data => execHbControlPage_inv a write ben data s h1
  | .lockBroken => execLockBroken_inv s h1
  | .qspiWrite a ws => execQspiWrite_inv a ws s h1
  | .qspiRead a => execQspiRead_inv a s h1
  | .qspiStatus => execQspiStatus_inv s h1
  | .qspiId => execQspiId_inv s h1
  | .qstBadcmd code => execQstBadcmd_inv code s h1
  | .delayedResult k => execDelayedResult_inv k s h1
  | .delayedExpiry k => execDelayedExpiry_inv k s h1
  | .prefetchExpiry k => execPrefetchExpiry_inv k s h1
  | .postedWriteFailure k => execPostedWriteFailure_inv k s h1
  | .clear who w => execClear_inv who w s h1
  | .mailboxDataWrite who m k w => execMailboxDataWrite_inv who m k w s h1
  | .go who m w => execGo_inv who m w s h1
  | .release who m w => execRelease_inv who m w s h1
  | .claimLapsed m => execClaimLapsed_inv m s h1
  | .mbArrival who => execMbArrival_inv who s h1
  | .mbDbInSet who w => execMbDbInSet_inv who w s h1
  | .mbDbOutSet who w => execMbDbOutSet_inv who w s h1
  | .identify m => execIdentify_inv m s h1
  | .echo m => execEcho_inv m s h1
  | .reset m => execReset_inv m s h1
  | .resetBegin m => execResetBegin_inv m s h1
  | .mbAbort m => execMbAbort_inv m s h1
  | .securitySet m => execSecuritySet_inv m s h1
  | .imageLoad m ext => execImageLoad_inv m ext s h1
  | .imageVerify m ext => execImageVerify_inv m ext s h1
  | .mramStore m ext => execMramStore_inv m ext s h1
  | .mramErase m => execMramErase_inv m s h1
  | .mramList m => execMramList_inv m s h1
  | .berthCreate m => execBerthCreate_inv m s h1
  | .berthAssign m => execBerthAssign_inv m s h1
  | .berthStart m => execBerthStart_inv m s h1
  | .berthStop m => execBerthStop_inv m s h1
  | .graceExpiry m => execGraceExpiry_inv m s h1
  | .berthReload m ext => execBerthReload_inv m ext s h1
  | .tideValidate m => execTideValidate_inv m s h1
  | .tideSwap m => execTideSwap_inv m s h1
  | .tideStart m => execTideStart_inv m s h1
  | .tideStop m => execTideStop_inv m s h1
  | .portSet m => execPortSet_inv m s h1
  | .portStatus m => execPortStatus_inv m s h1
  | .streamSet m => execStreamSet_inv m s h1
  | .streamGet m => execStreamGet_inv m s h1
  | .timeGet m => execTimeGet_inv m s h1
  | .timeCorrect m => execTimeCorrect_inv m s h1
  | .timeState m => execTimeState_inv m s h1
  | .axisMove m => execAxisMove_inv m s h1
  | .axisHome m => execAxisHome_inv m s h1
  | .axisStop m => execAxisStop_inv m s h1
  | .groupMove m => execGroupMove_inv m s h1
  | .logFreeze m => execLogFreeze_inv m s h1
  | .logRead m => execLogRead_inv m s h1
  | .logThaw m => execLogThaw_inv m s h1
  | .testPattern m => execTestPattern_inv m s h1
  | .testResult m => execTestResult_inv m s h1
  | .longCommandEnd m => execLongCommandEnd_inv m s h1
  | .logEvent who w => execLogEvent_inv who w s h1
  | .recordWrite c => execRecordWrite_inv c s h1
  | .breakwaterWindowEnd c => execBreakwaterWindowEnd_inv c s h1
  | .freeze who w => execFreeze_inv who w s h1
  | .frozen => execFrozen_inv s h1
  | .stagedEventsApply => execStagedEventsApply_inv s h1
  | .logCmdRead who w => execLogCmdRead_inv who w s h1
  | .writeCfg who w => execWriteCfg_inv who w s h1
  | .logCmdClear who w => execLogCmdClear_inv who w s h1
  | .opsecSave => execOpsecSave_inv s h1
  | .lhSafen low => execLhSafen_inv low s h1
  | .safeReq who w => execSafeReq_inv who w s h1
  | .lhCtlRelease who w => execLhCtlRelease_inv who w s h1
  | .safeStateEntry => execSafeStateEntry_inv s h1
  | .safeStateRelease => execSafeStateRelease_inv s h1
  | .lhWatchdogExpiry k => execLhWatchdogExpiry_inv k s h1
  | .lhKick who w => execLhKick_inv who w s h1
  | .lhFrameRefused cmd => execLhFrameRefused_inv cmd s h1
  | .lhNop a data => execLhNop_inv a data s h1
  | .readLh a data => execReadLh_inv a data s h1
  | .writeLh a data => execWriteLh_inv a data s h1
  | .readMb a data => execReadMb_inv a data s h1
  | .writeMb a data => execWriteMb_inv a data s h1
  | .lhSafe a data => execLhSafe_inv a data s h1
  | .lhRelease a data => execLhRelease_inv a data s h1
  | .lhChipReset a data => execLhChipReset_inv a data s h1
  | .lhLogFreeze a data => execLhLogFreeze_inv a data s h1
  | .lhLogThaw a data => execLhLogThaw_inv a data s h1
  | .lhLogRead a data => execLhLogRead_inv a data s h1
  | .xtalSwitch on => execXtalSwitch_inv on s h1
  | .testLinkCtl who l w => execTestLinkCtl_inv who l w s h1
  | .lockLost l lane units => execLockLost_inv l lane units s h1
  | .tapReset => execTapReset_inv s h1
  | .extest => execExtest_inv s h1
  | .idcode => execIdcode_inv s h1
  | .samplePreload l => execSamplePreload_inv l s h1
  | .extestPulse => execExtestPulse_inv s h1
  | .extestTrain => execExtestTrain_inv s h1
  | .clamp => execClamp_inv s h1
  | .highz => execHighz_inv s h1
  | .debug => execDebug_inv s h1
  | .bypass => execBypass_inv s h1
  | .accessUpdate op size a data => execAccessUpdate_inv op size a data s h1
  | .sysResetChip who w => execSysResetChip_inv who w s h1
  | .sysResetCore who w => execSysResetCore_inv who w s h1
  | .vinValid => execVinValid_inv s h1
  | .vinInvalid => execVinInvalid_inv s h1
  | .railOutOfRegulation => execRailOutOfRegulation_inv s h1
  | .bankDown b up => execBankDown_inv b up s h1
  | .refclkFailure => execRefclkFailure_inv s h1
  | .tsrefLost => execTsrefLost_inv s h1
  | .canrefLost => execCanrefLost_inv s h1
  | .tsSrc who w => execTsSrc_inv who w s h1
  | .resetn low => execResetn_inv low s h1
  | .chipReset => execChipReset_inv s h1
  | .chipResetRelease boot mode wide => execChipResetRelease_inv boot mode wide s h1
  | .coreReset => execCoreReset_inv s h1
  | .coreResetEnd => execCoreResetEnd_inv s h1
  | .causewayReset => execCausewayReset_inv s h1
  | .bootImageStart => execBootImageStart_inv s h1
  | .autoload => execAutoload_inv s h1
  | .musterCount q bytes => execMusterCount_inv q bytes s h1
  | .musterBlock q bytes => execMusterBlock_inv q bytes s h1
  | .musterDone q bytes => execMusterDone_inv q bytes s h1
  | .musterRequest q bytes => execMusterRequest_inv q bytes s h1
  | .emu n => execEmu_inv n s h1
  | .illegal n parity => execIllegal_inv n parity s h1
  | .lpiRx n idle => execLpiRx_inv n idle s h1
  | .pciePerstnRising => execPciePerstnRising_inv s h1
  | .pcieLinkUp speed width => execPcieLinkUp_inv speed width s h1
  | .configurationWrite f => execConfigurationWrite_inv f s h1
  | .causewayResetEnd => execCausewayResetEnd_inv s h1
  | .timePllLocked => execTimePllLocked_inv s h1
  | .checkerLocked l lane => execCheckerLocked_inv l lane s h1
  | .laneErr l lane units => execLaneErr_inv l lane units s h1
  | .logOperationEnd => execLogOperationEnd_inv s h1
  | .lhFreezeTimeout => execLhFreezeTimeout_inv s h1
  | .operatingSecond => execOperatingSecond_inv s h1
  | .lighthousePowerLoss => execLighthousePowerLoss_inv s h1

/-! ## Step -/

theorem State.withFetchWord_inv (s : State) (nbits : ℕ) (w : ℕ) (h1 : s.Inv) :
    (State.withFetchWord s nbits w).Inv := by
  unfold State.withFetchWord
  with_reducible repeat' first | assumption | intro _ | split | apply State.Inv_mk

end Sys2Proof.Machine
end

