-- ==== Sys2Proof/Laws/Engine.lean ====
section
/-! SUPPORT. What a command that is an instruction of an engine comes to, once for every instruction. -/
namespace Sys2Proof.Machine

variable {s s1 : State} {n w : Nat} {i : QInstr} {o : OpsIn} {r t : Res}

theorem State.qeReads.row (h : s.qeReads n i w s1 o) : qeRow i n s = s.qeDo n i := by
  have : (n == 24 || decide (i.base < 0xF0)) = true := by simpa using h.owner
  simp only [qeRow, h.ready, h.base, this, beq_self_eq_true, Bool.and_true, if_true]

/-- What the writes leave of the result: all but the state. -/
theorem State.commitAll_rest (hw : s1.commitAll n i o r = .ok t) : t.pc = r.pc ∧ t.pass = r.pass ∧ t.count = r.count := by
  simp only [State.commitAll] at hw
  revert hw
  generalize State.commitWrites _ _ _ _ _ = x
  cases x <;> intro hw
  · cases hw; exact ⟨rfl, rfl, rfl⟩
  all_goals cases hw

theorem State.commitAll_count (hw : s1.commitAll n i o r = .ok t) : t.count = r.count := (State.commitAll_rest hw).2.2

/-- An instruction that is fetched, whose operands read, whose operation gives a result and whose writes land retires. -/
theorem State.qeDo_done (hf : s.qeFetch n (s.qeOf n).pc = .ok (s1, w)) (ho : s1.readAll n i w ((s.qeOf n).pc + 1) = .ok o)
    (hb : i.body n o.st o.v = .ok r) (hw : s1.commitAll n i o r = .ok t) :
    s.qeDo n i = t.st.qeRetire n (r.pc.getD ((s.qeOf n).pc + 1)) r.pass := by
  have e : s1.runInstr n i w ((s.qeOf n).pc + 1) = .ok t := by
    simp only [State.runInstr, ho, QR.bind, hb, hw, QR.giveBack]
  simp only [State.qeDo, hf, e, (State.commitAll_rest hw).1, (State.commitAll_rest hw).2.1]

theorem State.completes_of {c : Instr} {p : OpsIn → Prop} {r : OpsIn → Res} (hc : exec c s = coreOn (qeRow i n) s)
    (hb : ∀ o, p o → i.body n o.st o.v = .ok (r o)) : s.completes n i c p r := by
  intro w s1 o t h hp hw
  simp only [hc, coreOn, answer, h.chip, h.core, h.row, State.qeDo_done h.fetch h.reads (hb o hp) hw, Bool.false_eq_true, or_self, if_false]

end Sys2Proof.Machine
end

