-- ==== Sys2Proof/Laws/Fld.lean ====
section
/-! SUPPORT. Fields of a word: what a field reads after it, or another, is put. -/
namespace Sys2Proof.Machine

theorem w32_toNat_eq (n : Nat) : (w32 n).toNat = n % 2 ^ 32 := by simp [w32]

theorem bitsOf_lt (hi lo n : Nat) : bitsOf hi lo n < 2 ^ (hi - lo + 1) := Nat.mod_lt _ (Nat.two_pow_pos _)

/-- Bit by bit, what putting a field leaves. -/
theorem putBits_testBit {hi lo n v : Nat} (h : lo ≤ hi) (i : Nat) :
    (putBits hi lo n v).testBit i = if lo ≤ i ∧ i ≤ hi then v.testBit (i - lo) else n.testBit i := by
  have e1 : (v % 2 ^ (hi - lo + 1)) <<< lo + n % 2 ^ lo < 2 ^ (hi + 1) := by
    have a := Nat.mod_lt v (Nat.two_pow_pos (hi - lo + 1))
    have b := Nat.mod_lt n (Nat.two_pow_pos lo)
    have c : 2 ^ (hi + 1) = 2 ^ (hi - lo + 1) * 2 ^ lo := by rw [← Nat.pow_add]; congr 1; omega
    rw [Nat.shiftLeft_eq, c]
    have d := Nat.mul_le_mul_right (2 ^ lo) (show v % 2 ^ (hi - lo + 1) + 1 ≤ 2 ^ (hi - lo + 1) from a)
    rw [Nat.add_mul, Nat.one_mul] at d
    omega
  have e2 : n % 2 ^ lo < 2 ^ lo := Nat.mod_lt _ (Nat.two_pow_pos _)
  rw [putBits, Nat.add_assoc, Nat.shiftLeft_eq (n >>> _), Nat.mul_comm, Nat.testBit_two_pow_mul_add _ e1]
  split
  · rw [Nat.shiftLeft_eq, Nat.mul_comm, Nat.testBit_two_pow_mul_add _ e2]
    split
    · rw [Nat.testBit_mod_two_pow, if_neg (by omega)]; simp; omega
    · rw [Nat.testBit_mod_two_pow, if_pos (by omega)]; simp; omega
  · rw [Nat.testBit_shiftRight, if_neg (by omega)]; congr 1; omega

theorem bitsOf_testBit (hi lo n i : Nat) : (bitsOf hi lo n).testBit i = (decide (i < hi - lo + 1) && n.testBit (lo + i)) := by
  simp [bitsOf, Nat.testBit_mod_two_pow, Nat.testBit_shiftRight]

/-- A field reads what was put into it, modulo its width. -/
theorem Fld.get_put {f : Fld} (w : Word) (v : Nat) (h : f.lo ≤ f.hi) (h32 : f.hi < 32) : f.get (f.put w v) = v % 2 ^ (f.hi - f.lo + 1) := by
  apply Nat.eq_of_testBit_eq
  intro i
  rw [Fld.get, Fld.put, bitsOf_testBit, w32_toNat_eq, Nat.testBit_mod_two_pow, putBits_testBit h, Nat.testBit_mod_two_pow]
  by_cases hi : i < f.hi - f.lo + 1
  · rw [if_pos (by omega)]
    simp [hi, show f.lo + i < 32 by omega]
  · simp [hi]

/-- A field reads as before when another one has been put. -/
theorem Fld.get_put_other {f g : Fld} (w : Word) (v : Nat) (h : g.lo ≤ g.hi) (h32 : f.hi < 32) (hf : f.lo ≤ f.hi) (hd : f.hi < g.lo ∨ g.hi < f.lo) :
    f.get (g.put w v) = f.get w := by
  apply Nat.eq_of_testBit_eq
  intro i
  rw [Fld.get, Fld.put, bitsOf_testBit, w32_toNat_eq, Nat.testBit_mod_two_pow, putBits_testBit h, Fld.get, bitsOf_testBit]
  by_cases hi : i < f.hi - f.lo + 1
  · rw [if_neg (by omega)]
    simp [hi, show f.lo + i < 32 by omega]
  · simp [hi]

/-- Words with the same bits of the whole width are the same word. -/
theorem Fld.put_get {f : Fld} (w : Word) (h : f.lo ≤ f.hi) : f.put w (f.get w) = w := by
  apply BitVec.eq_of_toNat_eq
  apply Nat.eq_of_testBit_eq
  intro i
  rw [Fld.put, w32_toNat_eq, Nat.testBit_mod_two_pow, putBits_testBit h]
  by_cases hi : i < 32
  · simp only [hi, decide_true, Bool.true_and]
    split
    · rw [Fld.get, bitsOf_testBit, show f.lo + (i - f.lo) = i by omega]; simp; omega
    · rfl
  · simp only [hi, decide_false, Bool.false_and]
    exact (Nat.testBit_lt_two_pow (Nat.lt_of_lt_of_le w.isLt (Nat.pow_le_pow_right (by omega) (by omega)))).symm

end Sys2Proof.Machine
end

