-- ==== Sys2Proof/Laws/Hm.lean ====
section
/-! SUPPORT. What a mailbox command that the harbourmaster takes comes to, once for every command. -/
namespace Sys2Proof.Machine

variable {s : State} {m c n : Nat} {k : CmdSpec}

/-- The checks of R413 pass. -/
theorem State.hmTakes.passes (h : s.hmTakes m c n k.long) (hl : k.lens (s.reqOf m) = true) (hp : k.param (s.reqOf m) = none) :
    (s.take m).hmCheck k (s.reqOf m) = none := by
  have h1 : ¬ 2 ≤ (s.reqOf m).flags := by have := h.flags; omega
  have h2 : ¬ 15 < (s.reqOf m).len := by have := h.fits; have := h.len; omega
  have h3 : (k.long && decide (4 ≤ (s.take m).longRuns.length)) = false := by
    cases e : k.long
    · rfl
    · have := h.room e
      simp only [Bool.true_and, decide_eq_false_iff_not]; omega
  have hs := h.served
  have hf := h.free
  rw [← h.code] at hs hf
  simp only [State.hmCheck, hs, hl, hp, h1, h2, h3, h.may, hf, Bool.not_true, Bool.false_eq_true, if_false, decide_false, Bool.or_self]

/-- What a command that passes its checks does: its action on the state whose mailbox is released, and its answer if it has one. -/
theorem State.hmTakes.runs (h : s.hmTakes m c n k.long) (hl : k.lens (s.reqOf m) = true) (hp : k.param (s.reqOf m) = none) :
    coreOn (hmCommand m c k) s = .next (match k.run (s.take m) (s.reqOf m) with
      | (u, some a) => s.hmAnswers m u a
      | (u, none) => u.after) := by
  simp only [coreOn, answer, h.chip, h.core, Bool.false_eq_true, or_self, if_false, hmCommand, h.takes, Bool.not_true, h.code, ne_eq,
    not_true_eq_false, false_and, h.passes hl hp]
  generalize hr : k.run _ _ = x
  obtain ⟨u, a | a⟩ := x <;> simp only [State.hmAnswers, h.code]

end Sys2Proof.Machine
end

