-- ==== Sys2Proof/Laws/Reg.lean ====
section
/-! SUPPORT. Registers and memory: a read after a write, counters, and what a write leaves alone. -/
namespace Sys2Proof.Machine

variable {s : State}

/-! ## Registers -/

theorem State.Inv.setReg (h : s.Inv) (a : Nat) (w : Word) : (s.setReg a w).Inv := State.Inv_regs h (twf_tput h.regsOk a w)
theorem State.Inv.putF (h : s.Inv) (a : Nat) (f : Fld) (v : Nat) : (s.putF a f v).Inv := h.setReg _ _
theorem State.Inv.setB (h : s.Inv) (a : Nat) (f : Fld) : (s.setB a f).Inv := h.setReg _ _
theorem State.Inv.clrB (h : s.Inv) (a : Nat) (f : Fld) : (s.clrB a f).Inv := h.setReg _ _

/-- A register reads what was stored in it, and every other register as before. -/
theorem State.reg_setReg (h : s.Inv) (a b : Nat) (w : Word) : (s.setReg a w).reg b = if b = a then w else s.reg b :=
  tget_tput h.regsOk a b w

theorem State.reg_setReg_self (h : s.Inv) (a : Nat) (w : Word) : (s.setReg a w).reg a = w := by rw [State.reg_setReg h, if_pos rfl]
theorem State.reg_setReg_ne (h : s.Inv) {a b : Nat} (w : Word) (e : b ≠ a) : (s.setReg a w).reg b = s.reg b := by rw [State.reg_setReg h, if_neg e]

theorem State.fld_putF_self (h : s.Inv) {f : Fld} (hf : f.ok) (a v : Nat) : (s.putF a f v).fld a f = v % 2 ^ (f.hi - f.lo + 1) := by
  rw [State.fld, State.putF, State.reg_setReg_self h, Fld.get_put _ _ hf.1 hf.2]

/-- Another field of the register that a field is put into. -/
theorem State.fld_putF_other (h : s.Inv) {f g : Fld} (hf : f.ok) (hg : g.ok) (hd : f.hi < g.lo ∨ g.hi < f.lo) (a v : Nat) :
    (s.putF a g v).fld a f = s.fld a f := by
  rw [State.fld, State.putF, State.reg_setReg_self h, Fld.get_put_other _ _ hg.1 hf.2 hf.1 hd]; rfl

/-- A field of another register. -/
theorem State.fld_putF_ne (h : s.Inv) {a b : Nat} (e : b ≠ a) (f g : Fld) (v : Nat) : (s.putF a g v).fld b f = s.fld b f := by
  rw [State.fld, State.putF, State.reg_setReg_ne h _ e]; rfl

theorem State.fld_setReg_ne (h : s.Inv) {a b : Nat} (e : b ≠ a) (f : Fld) (w : Word) : (s.setReg a w).fld b f = s.fld b f := by
  rw [State.fld, State.reg_setReg_ne h _ e]; rfl

theorem State.bit_setB_self (h : s.Inv) {f : Fld} (hf : f.ok) (a : Nat) : (s.setB a f).bit a f = true := by
  have e := State.fld_putF_self h hf a 1
  have : 1 % 2 ^ (f.hi - f.lo + 1) ≠ 0 := by rw [Nat.mod_eq_of_lt (Nat.one_lt_two_pow (by omega))]; decide
  simp only [State.bit, State.setB, e, bne_iff_ne, ne_eq, this, not_false_eq_true]

theorem State.bit_clrB_self (h : s.Inv) {f : Fld} (hf : f.ok) (a : Nat) : (s.clrB a f).bit a f = false := by
  have e := State.fld_putF_self h hf a 0
  simp only [State.bit, State.clrB, e, Nat.zero_mod, bne_self_eq_false]

theorem State.bit_putF_ne (h : s.Inv) {a b : Nat} (e : b ≠ a) (f g : Fld) (v : Nat) : (s.putF a g v).bit b f = s.bit b f := by
  rw [State.bit, State.fld_putF_ne h e]; rfl

theorem State.bit_setReg_ne (h : s.Inv) {a b : Nat} (e : b ≠ a) (f : Fld) (w : Word) : (s.setReg a w).bit b f = s.bit b f := by
  rw [State.bit, State.fld_setReg_ne h e]; rfl

/-! ## Memory -/

theorem State.Inv.wr8 (h : s.Inv) (a v : Nat) : (s.wr8 a v).Inv := State.Inv_mem h (twf_tput h.memOk a _)

/-- A byte reads what was stored there, and every other byte as before. -/
theorem State.rd8_wr8 (h : s.Inv) (a b v : Nat) : (s.wr8 a v).rd8 b = if b = a then v % 256 else s.rd8 b := by
  have e := tget_tput h.memOk a b (BitVec.ofNat 8 v)
  simp only [State.rd8, State.wr8, e]
  split <;> simp

/-- Bytes written one after the other read back, and every other byte is as before. -/
theorem State.rd8_wrBytes (h : s.Inv) (a b : Nat) (bs : List Nat) :
    (s.wrBytes a bs).rd8 b = if a ≤ b ∧ b < a + bs.length then bs.getD (b - a) 0 % 256 else s.rd8 b := by
  induction bs generalizing s a with
  | nil => rw [if_neg (by simp)]; rfl
  | cons x t ih =>
    rw [State.wrBytes, ih (h.wr8 a x), State.rd8_wr8 h]
    simp only [List.length_cons]
    by_cases e : b = a
    · subst e; rw [if_neg (by omega), if_pos rfl, if_pos (by omega)]; simp
    · by_cases g : a + 1 ≤ b ∧ b < a + 1 + t.length
      · rw [if_pos g, if_pos (by omega)]
        have : b - a = b - (a + 1) + 1 := by omega
        rw [this, List.getD_cons_succ]
      · rw [if_neg g, if_neg e, if_neg (by omega)]

/-- What clears poison leaves the bytes. -/
theorem State.rd8_clearLines (l : List Nat) (s : State) (b : Nat) : (l.foldl State.clearLine s).rd8 b = s.rd8 b := by
  induction l generalizing s with
  | nil => rfl
  | cons x t ih => rw [List.foldl_cons, ih]; rfl

/-- A store puts its bytes and leaves every other byte alone. -/
theorem State.rd8_store (h : s.Inv) (a b : Nat) (bs : List Nat) :
    (s.store a bs).rd8 b = if a ≤ b ∧ b < a + bs.length then bs.getD (b - a) 0 % 256 else s.rd8 b := by
  rw [State.store, State.rd8_clearLines, State.rd8_wrBytes h]

end Sys2Proof.Machine
end

