-- ==== Sys2Proof/Laws/RegAt.lean ====
section
/-! SUPPORT. Where the registers stand that commands write and read: block, first instance, row and instance numbers of each. -/
namespace Sys2Proof.Machine

theorem regAt_TIME_CMD : RegAt TIME_CMD 4 TIME_CMD ⟨0x4, [], [⟨⟨0, 0⟩, .w1s, 0⟩, ⟨⟨1, 1⟩, .w1s, 0⟩, ⟨⟨2, 2⟩, .w1s, 0⟩, ⟨⟨3, 3⟩, .wo, 0⟩, ⟨⟨8, 8⟩, .w1s, 0⟩, ⟨⟨9, 9⟩, .wo, 0⟩]⟩ [] := by
  constructor <;> decide

theorem regAt_AX_CMD (n : Fin 32) : RegAt (AX_CMD n.val) 14 (AX_CMD 0) ⟨0x4, [(0x200, 32)], [⟨⟨0, 0⟩, .wo, 0⟩, ⟨⟨1, 1⟩, .wo, 0⟩, ⟨⟨2, 2⟩, .wo, 0⟩, ⟨⟨3, 3⟩, .wo, 0⟩, ⟨⟨4, 4⟩, .wo, 0⟩, ⟨⟨5, 5⟩, .wo, 0⟩]⟩ [n.val] := by
  constructor <;> revert n <;> decide

theorem regAt_SW_MAC_CMD : RegAt SW_MAC_CMD 6 SW_MAC_CMD ⟨0x40, [], [⟨⟨2, 0⟩, .wo, 0⟩, ⟨⟨27, 16⟩, .rw, 0⟩, ⟨⟨29, 29⟩, .ro, 0⟩, ⟨⟨30, 30⟩, .ro, 0⟩, ⟨⟨31, 31⟩, .ro, 0⟩]⟩ [] := by
  constructor <;> decide

theorem regAt_GRP_CMD (n : Fin 8) : RegAt (GRP_CMD n.val) 14 (GRP_CMD 0) ⟨0x8008, [(0x40, 8)], [⟨⟨0, 0⟩, .wo, 0⟩, ⟨⟨1, 1⟩, .wo, 0⟩, ⟨⟨2, 2⟩, .wo, 0⟩, ⟨⟨3, 3⟩, .wo, 0⟩, ⟨⟨5, 5⟩, .wo, 0⟩]⟩ [n.val] := by
  constructor <;> revert n <;> decide

theorem regAt_TIDE_CMD : RegAt TIDE_CMD 5 TIDE_CMD ⟨0x4, [], [⟨⟨0, 0⟩, .w1s, 0⟩, ⟨⟨1, 1⟩, .w1s, 0⟩, ⟨⟨4, 4⟩, .w1s, 0⟩, ⟨⟨5, 5⟩, .wo, 0⟩]⟩ [] := by
  constructor <;> decide

theorem regAt_STREAM_CMD : RegAt STREAM_CMD 7 STREAM_CMD ⟨0x4, [], [⟨⟨2, 0⟩, .wo, 0⟩, ⟨⟨31, 31⟩, .ro, 0⟩]⟩ [] := by
  constructor <;> decide

theorem regAt_QE_CTL (n : Fin 25) : RegAt (QE_CTL n.val) 10 (QE_CTL 0) ⟨0x0, [(0x400, 25)], [⟨⟨0, 0⟩, .wo, 0⟩, ⟨⟨1, 1⟩, .wo, 0⟩, ⟨⟨2, 2⟩, .wo, 0⟩, ⟨⟨3, 3⟩, .wo, 0⟩, ⟨⟨4, 4⟩, .wo, 0⟩]⟩ [n.val] := by
  constructor <;> revert n <;> decide

theorem regAt_PL_CTL (n : Fin 32) : RegAt (PL_CTL n.val) 17 (PL_CTL 0) ⟨0x0, [(0x40, 32)], [⟨⟨0, 0⟩, .wo, 0⟩, ⟨⟨1, 1⟩, .wo, 0⟩, ⟨⟨2, 2⟩, .wo, 0⟩, ⟨⟨3, 3⟩, .wo, 0⟩, ⟨⟨4, 4⟩, .wo, 0⟩]⟩ [n.val] := by
  constructor <;> revert n <;> decide

theorem regAt_BERTH_CTL (n : Fin 24) : RegAt (BERTH_CTL n.val) 10 (BERTH_CTL 0) ⟨0x800C, [(0x20, 24)], [⟨⟨0, 0⟩, .wo, 0⟩, ⟨⟨1, 1⟩, .wo, 0⟩, ⟨⟨2, 2⟩, .wo, 0⟩, ⟨⟨3, 3⟩, .wo, 0⟩]⟩ [n.val] := by
  constructor <;> revert n <;> decide

theorem regAt_LOG_CMD : RegAt LOG_CMD 19 LOG_CMD ⟨0x24, [], [⟨⟨1, 0⟩, .wo, 0⟩, ⟨⟨31, 31⟩, .ro, 0⟩]⟩ [] := by
  constructor <;> decide

theorem regAt_PORT_CTL (n : Fin 6) : RegAt (PORT_CTL n.val) 8 (PORT_CTL 0) ⟨0x0, [(0x2000, 6)], [⟨⟨0, 0⟩, .wo, 0⟩, ⟨⟨2, 2⟩, .wo, 0⟩, ⟨⟨6, 4⟩, .rw, 0⟩, ⟨⟨12, 12⟩, .rw, 0x1⟩]⟩ [n.val] := by
  constructor <;> revert n <;> decide

theorem regAt_TIDE_HB_CMD : RegAt TIDE_HB_CMD 5 TIDE_HB_CMD ⟨0x80, [], [⟨⟨7, 0⟩, .wo, 0⟩, ⟨⟨9, 8⟩, .wo, 0⟩]⟩ [] := by
  constructor <;> decide

theorem regAt_TIDE_CTL : RegAt TIDE_CTL 5 TIDE_CTL ⟨0x0, [], [⟨⟨0, 0⟩, .rw, 0⟩, ⟨⟨1, 1⟩, .rwl, 0⟩, ⟨⟨4, 4⟩, .ro, 0⟩, ⟨⟨5, 5⟩, .ro, 0⟩]⟩ [] := by
  constructor <;> decide

theorem regAt_SYS_RESET : RegAt SYS_RESET 0 SYS_RESET ⟨0x24, [], [⟨⟨0, 0⟩, .wo, 0⟩, ⟨⟨1, 1⟩, .wo, 0⟩]⟩ [] := by
  constructor <;> decide

theorem regAt_SW_VLAN_CMD : RegAt SW_VLAN_CMD 6 SW_VLAN_CMD ⟨0x50, [], [⟨⟨11, 0⟩, .rw, 0⟩, ⟨⟨17, 16⟩, .wo, 0⟩]⟩ [] := by
  constructor <;> decide

theorem regAt_STOW_CMD : RegAt STOW_CMD 9 STOW_CMD ⟨0x4, [], [⟨⟨7, 0⟩, .wo, 0⟩, ⟨⟨9, 8⟩, .wo, 0⟩, ⟨⟨31, 31⟩, .ro, 0⟩]⟩ [] := by
  constructor <;> decide

theorem regAt_LH_CTL : RegAt LH_CTL 1 LH_CTL ⟨0x0, [], [⟨⟨0, 0⟩, .w1s, 0⟩, ⟨⟨1, 1⟩, .wo, 0⟩]⟩ [] := by
  constructor <;> decide

theorem regAt_TTRIG_CTL (n : Fin 16) : RegAt (TTRIG_CTL n.val) 4 (TTRIG_CTL 0) ⟨0x200, [(0x20, 16)], [⟨⟨1, 0⟩, .rw, 0⟩, ⟨⟨2, 2⟩, .rw, 0⟩, ⟨⟨3, 3⟩, .rw, 0⟩, ⟨⟨4, 4⟩, .wo, 0⟩, ⟨⟨16, 16⟩, .w1c, 0⟩]⟩ [n.val] := by
  constructor <;> revert n <;> decide

theorem regAt_PS_CTL (n : Fin 8) : RegAt (PS_CTL n.val) 17 (PS_CTL 0) ⟨0x80C, [(0x10, 8)], [⟨⟨3, 0⟩, .wo, 0⟩, ⟨⟨7, 4⟩, .wo, 0⟩, ⟨⟨8, 8⟩, .wo, 0⟩]⟩ [n.val] := by
  constructor <;> revert n <;> decide

theorem regAt_MB_CTL (n : Fin 32) : RegAt (MB_CTL n.val) 2 (MB_CTL 0) ⟨0x40, [(0x80, 32)], [⟨⟨0, 0⟩, .wo, 0⟩, ⟨⟨1, 1⟩, .wo, 0⟩, ⟨⟨8, 8⟩, .ro, 0⟩, ⟨⟨9, 9⟩, .ro, 0⟩]⟩ [n.val] := by
  constructor <;> revert n <;> decide

theorem regAt_DMA_CTL (n : Fin 32) : RegAt (DMA_CTL n.val) 12 (DMA_CTL 0) ⟨0x0, [(0x20, 32)], [⟨⟨0, 0⟩, .w1s, 0⟩, ⟨⟨1, 1⟩, .wo, 0⟩]⟩ [n.val] := by
  constructor <;> revert n <;> decide

theorem regAt_TT_CTL : RegAt TT_CTL 13 TT_CTL ⟨0x8000, [], [⟨⟨0, 0⟩, .rw, 0⟩, ⟨⟨1, 1⟩, .rwl, 0⟩, ⟨⟨2, 2⟩, .rwl, 0⟩, ⟨⟨3, 3⟩, .rwl, 0⟩, ⟨⟨4, 4⟩, .rwl, 0⟩, ⟨⟨7, 5⟩, .rwl, 0⟩, ⟨⟨10, 8⟩, .rwl, 0⟩, ⟨⟨12, 12⟩, .rwl, 0⟩]⟩ [] := by
  constructor <;> decide

theorem regAt_TIME_WDOG : RegAt TIME_WDOG 4 TIME_WDOG ⟨0x50, [], [⟨⟨23, 0⟩, .rw, 0⟩]⟩ [] := by
  constructor <;> decide

theorem regAt_TIME_CTL : RegAt TIME_CTL 4 TIME_CTL ⟨0x0, [], [⟨⟨1, 0⟩, .rw, 0⟩]⟩ [] := by
  constructor <;> decide

theorem regAt_SYS_CLK_CFG : RegAt SYS_CLK_CFG 0 SYS_CLK_CFG ⟨0x18, [], [⟨⟨1, 0⟩, .rw, 0⟩, ⟨⟨4, 4⟩, .ro, 0⟩, ⟨⟨8, 8⟩, .rw, 0⟩, ⟨⟨12, 12⟩, .ro, 0⟩]⟩ [] := by
  constructor <;> decide

theorem regAt_PORT_MDIO_CMD : RegAt PORT_MDIO_CMD 8 PORT_MDIO_CMD ⟨0xC000, [], [⟨⟨1, 0⟩, .wo, 0⟩, ⟨⟨2, 2⟩, .rw, 0⟩, ⟨⟨7, 3⟩, .rw, 0⟩, ⟨⟨12, 8⟩, .rw, 0⟩, ⟨⟨31, 31⟩, .ro, 0⟩]⟩ [] := by
  constructor <;> decide

theorem regAt_MB_DB_OUT_SET : RegAt MB_DB_OUT_SET 2 MB_DB_OUT_SET ⟨0x102C, [], [⟨⟨31, 0⟩, .wo, 0⟩]⟩ [] := by
  constructor <;> decide

theorem regAt_MB_DB_IN_SET : RegAt MB_DB_IN_SET 2 MB_DB_IN_SET ⟨0x1024, [], [⟨⟨31, 0⟩, .wo, 0⟩]⟩ [] := by
  constructor <;> decide

theorem regAt_LOG_EVENT : RegAt LOG_EVENT 19 LOG_EVENT ⟨0x10, [], [⟨⟨7, 0⟩, .wo, 0⟩, ⟨⟨31, 8⟩, .wo, 0⟩]⟩ [] := by
  constructor <;> decide

theorem regAt_LOG_CTL : RegAt LOG_CTL 19 LOG_CTL ⟨0x0, [], [⟨⟨0, 0⟩, .rw, 0⟩, ⟨⟨1, 1⟩, .ro, 0⟩, ⟨⟨2, 2⟩, .ro, 0⟩]⟩ [] := by
  constructor <;> decide

theorem regAt_LH_KICK : RegAt LH_KICK 1 LH_KICK ⟨0x24, [], [⟨⟨4, 0⟩, .wo, 0⟩]⟩ [] := by
  constructor <;> decide

theorem regAt_HOSTIF_MSIX_REARM : RegAt HOSTIF_MSIX_REARM 23 HOSTIF_MSIX_REARM ⟨0x120, [], [⟨⟨5, 0⟩, .wo, 0⟩]⟩ [] := by
  constructor <;> decide

theorem regAt_FERRY_Q_CTL : RegAt FERRY_Q_CTL 11 FERRY_Q_CTL ⟨0x34, [], [⟨⟨0, 0⟩, .wo, 0⟩]⟩ [] := by
  constructor <;> decide

theorem regAt_FERRY_FLUSH : RegAt FERRY_FLUSH 11 FERRY_FLUSH ⟨0x8, [], [⟨⟨8, 0⟩, .wo, 0⟩]⟩ [] := by
  constructor <;> decide

theorem regAt_CW_PWLOG_CTL : RegAt CW_PWLOG_CTL 3 CW_PWLOG_CTL ⟨0x30, [], [⟨⟨0, 0⟩, .wo, 0⟩, ⟨⟨20, 16⟩, .ro, 0⟩]⟩ [] := by
  constructor <;> decide

theorem regAt_TT_ABUF_CTL (n : Fin 16) : RegAt (TT_ABUF_CTL n.val) 13 (TT_ABUF_CTL 0) ⟨0x907C, [(0x80, 16)], [⟨⟨0, 0⟩, .w1s, 0⟩, ⟨⟨1, 1⟩, .ro, 0⟩]⟩ [n.val] := by
  constructor <;> revert n <;> decide

set_option maxRecDepth 20000 in
theorem regAt_TIDE_HB_CFG (n : Fin 256) : RegAt (TIDE_HB_CFG n.val) 5 (TIDE_HB_CFG 0) ⟨0x1000, [(0x8, 256)], [⟨⟨15, 0⟩, .rw, 0⟩, ⟨⟨23, 16⟩, .rw, 0⟩, ⟨⟨24, 24⟩, .rw, 0⟩, ⟨⟨25, 25⟩, .rw, 0⟩, ⟨⟨31, 31⟩, .rw, 0⟩]⟩ [n.val] := by
  constructor <;> revert n <;> decide

theorem regAt_TEST_LINK_CTL (n : Fin 64) : RegAt (TEST_LINK_CTL n.val) 21 (TEST_LINK_CTL 0) ⟨0x100, [(0x20, 64)], [⟨⟨3, 0⟩, .rw, 0⟩, ⟨⟨4, 4⟩, .rw, 0⟩, ⟨⟨5, 5⟩, .rw, 0⟩, ⟨⟨6, 6⟩, .rw, 0⟩, ⟨⟨7, 7⟩, .rw, 0⟩, ⟨⟨10, 8⟩, .rw, 0⟩, ⟨⟨23, 16⟩, .rw, 0⟩]⟩ [n.val] := by
  constructor <;> revert n <;> decide

theorem regAt_QE_WDOG (n : Fin 25) : RegAt (QE_WDOG n.val) 10 (QE_WDOG 0) ⟨0x30, [(0x400, 25)], [⟨⟨19, 0⟩, .rw, 0⟩, ⟨⟨31, 31⟩, .wo, 0⟩]⟩ [n.val] := by
  constructor <;> revert n <;> decide

theorem regAt_QE_EVENT_SET (n : Fin 25) : RegAt (QE_EVENT_SET n.val) 10 (QE_EVENT_SET 0) ⟨0x14, [(0x400, 25)], [⟨⟨27, 20⟩, .wo, 0⟩]⟩ [n.val] := by
  constructor <;> revert n <;> decide

theorem regAt_PORT_MM_CTL (n : Fin 6) : RegAt (PORT_MM_CTL n.val) 8 (PORT_MM_CTL 0) ⟨0x80, [(0x2000, 6)], [⟨⟨0, 0⟩, .rw, 0⟩, ⟨⟨1, 1⟩, .rw, 0⟩, ⟨⟨2, 2⟩, .rw, 0⟩, ⟨⟨10, 3⟩, .rw, 0xA⟩, ⟨⟨13, 12⟩, .rw, 0⟩]⟩ [n.val] := by
  constructor <;> revert n <;> decide

theorem regAt_PORT_FC_TX (n : Fin 6) : RegAt (PORT_FC_TX n.val) 8 (PORT_FC_TX 0) ⟨0x64, [(0x2000, 6)], [⟨⟨15, 0⟩, .rw, 0⟩, ⟨⟨23, 16⟩, .rw, 0⟩, ⟨⟨24, 24⟩, .w1s, 0⟩]⟩ [n.val] := by
  constructor <;> revert n <;> decide

theorem regAt_PL_TXDATA (n : Fin 32) : RegAt (PL_TXDATA n.val) 17 (PL_TXDATA 0) ⟨0x24, [(0x40, 32)], [⟨⟨31, 0⟩, .wo, 0⟩]⟩ [n.val] := by
  constructor <;> revert n <;> decide

theorem regAt_MB_DATA (n : Fin 32) (m : Fin 16) : RegAt (MB_DATA n.val m.val) 2 (MB_DATA 0 0) ⟨0x0, [(0x80, 32), (0x4, 16)], [⟨⟨31, 0⟩, .rw, 0⟩]⟩ [n.val, m.val] := by
  constructor <;> revert n m <;> decide

set_option maxRecDepth 20000 in
theorem regAt_FQ_TAG (n : Fin 512) : RegAt (FQ_TAG n.val) 11 (FQ_TAG 0) ⟨0x2004, [(0x8, 512)], [⟨⟨0, 0⟩, .ro, 0⟩, ⟨⟨1, 1⟩, .ro, 0⟩, ⟨⟨2, 2⟩, .ro, 0⟩, ⟨⟨3, 3⟩, .ro, 0⟩, ⟨⟨5, 4⟩, .ro, 0⟩]⟩ [n.val] := by
  constructor <;> revert n <;> decide

set_option maxRecDepth 20000 in
theorem regAt_FQ_DATA (n : Fin 512) : RegAt (FQ_DATA n.val) 11 (FQ_DATA 0) ⟨0x2000, [(0x8, 512)], [⟨⟨31, 0⟩, .rw, 0⟩]⟩ [n.val] := by
  constructor <;> revert n <;> decide

theorem regAt_ENC_COUNT_LO (n : Fin 32) : RegAt (ENC_COUNT_LO n.val) 16 (ENC_COUNT_LO 0) ⟨0x4, [(0x20, 32)], [⟨⟨31, 0⟩, .rw, 0⟩]⟩ [n.val] := by
  constructor <;> revert n <;> decide

theorem regAt_ENC_COUNT_HI (n : Fin 32) : RegAt (ENC_COUNT_HI n.val) 16 (ENC_COUNT_HI 0) ⟨0x8, [(0x20, 32)], [⟨⟨15, 0⟩, .rw, 0⟩]⟩ [n.val] := by
  constructor <;> revert n <;> decide

theorem regAt_CAN_TX_CANCEL (n : Fin 4) : RegAt (CAN_TX_CANCEL n.val) 13 (CAN_TX_CANCEL 0) ⟨0x24, [(0x2000, 4)], [⟨⟨2, 0⟩, .wo, 0⟩]⟩ [n.val] := by
  constructor <;> revert n <;> decide

theorem regAt_CAN_CTL (n : Fin 4) : RegAt (CAN_CTL n.val) 13 (CAN_CTL 0) ⟨0x0, [(0x2000, 4)], [⟨⟨1, 0⟩, .rw, 0⟩, ⟨⟨2, 2⟩, .rw, 0x1⟩, ⟨⟨3, 3⟩, .rw, 0⟩, ⟨⟨4, 4⟩, .rw, 0⟩, ⟨⟨5, 5⟩, .rw, 0⟩, ⟨⟨6, 6⟩, .rw, 0⟩, ⟨⟨7, 7⟩, .rw, 0⟩, ⟨⟨8, 8⟩, .rw, 0⟩]⟩ [n.val] := by
  constructor <;> revert n <;> decide

theorem regAt_AX_POS_LO (n : Fin 32) : RegAt (AX_POS_LO n.val) 14 (AX_POS_LO 0) ⟨0x10, [(0x200, 32)], [⟨⟨31, 0⟩, .rwl, 0⟩]⟩ [n.val] := by
  constructor <;> revert n <;> decide

theorem regAt_AX_POS_HI (n : Fin 32) : RegAt (AX_POS_HI n.val) 14 (AX_POS_HI 0) ⟨0x14, [(0x200, 32)], [⟨⟨15, 0⟩, .rwl, 0⟩]⟩ [n.val] := by
  constructor <;> revert n <;> decide

theorem regAt_ADC_CMD (n : Fin 2) : RegAt (ADC_CMD n.val) 16 (ADC_CMD 0) ⟨0x8000, [(0x400, 2)], [⟨⟨3, 0⟩, .wo, 0⟩, ⟨⟨4, 4⟩, .wo, 0⟩]⟩ [n.val] := by
  constructor <;> revert n <;> decide

theorem regAt_TIME_NOW_FRAC : RegAt TIME_NOW_FRAC 4 TIME_NOW_FRAC ⟨0x10, [], [⟨⟨15, 0⟩, .ro, 0⟩]⟩ [] := by
  constructor <;> decide

theorem regAt_MB_ARRIVAL : RegAt MB_ARRIVAL 2 MB_ARRIVAL ⟨0x1004, [], [⟨⟨3, 0⟩, .ro, 0⟩, ⟨⟨31, 31⟩, .ro, 0⟩]⟩ [] := by
  constructor <;> decide

theorem regAt_TIME_PTP_TXTS_KEY (n : Fin 6) : RegAt (TIME_PTP_TXTS_KEY n.val) 4 (TIME_PTP_TXTS_KEY 0) ⟨0x108, [(0x20, 6)], [⟨⟨31, 31⟩, .ro, 0⟩, ⟨⟨27, 24⟩, .ro, 0⟩, ⟨⟨23, 16⟩, .ro, 0⟩, ⟨⟨15, 0⟩, .ro, 0⟩]⟩ [n.val] := by
  constructor <;> revert n <;> decide

theorem regAt_TCAP_TS_NS (n : Fin 16) : RegAt (TCAP_TS_NS n.val) 4 (TCAP_TS_NS 0) ⟨0x404, [(0x20, 16)], [⟨⟨31, 31⟩, .ro, 0⟩, ⟨⟨30, 30⟩, .ro, 0⟩, ⟨⟨29, 0⟩, .ro, 0⟩]⟩ [n.val] := by
  constructor <;> revert n <;> decide

theorem regAt_PL_RXDATA (n : Fin 32) : RegAt (PL_RXDATA n.val) 17 (PL_RXDATA 0) ⟨0x28, [(0x40, 32)], [⟨⟨31, 0⟩, .ro, 0⟩]⟩ [n.val] := by
  constructor <;> revert n <;> decide

set_option maxRecDepth 20000 in
theorem regAt_SOUND_SEL (n : Fin 216) : RegAt (SOUND_SEL n.val) 18 (SOUND_SEL 0) ⟨0x0, [(0x4, 216)], [⟨⟨7, 0⟩, .rw, 0⟩, ⟨⟨8, 8⟩, .rw, 0⟩, ⟨⟨9, 9⟩, .rw, 0⟩, ⟨⟨10, 10⟩, .rw, 0⟩]⟩ [n.val] := by
  constructor <;> revert n <;> decide

theorem regAt_TIDE_BANK_CYCLE (n : Fin 2) : RegAt (TIDE_BANK_CYCLE n.val) 5 (TIDE_BANK_CYCLE 0) ⟨0x40, [(0x10, 2)], [⟨⟨29, 0⟩, .rw, 0⟩]⟩ [n.val] := by
  constructor <;> revert n <;> decide

theorem regAt_TIDE_BANK_LEN (n : Fin 2) : RegAt (TIDE_BANK_LEN n.val) 5 (TIDE_BANK_LEN 0) ⟨0x44, [(0x10, 2)], [⟨⟨13, 0⟩, .rw, 0⟩]⟩ [n.val] := by
  constructor <;> revert n <;> decide

end Sys2Proof.Machine
end

