-- ==== Sys2Proof/Laws/State.lean ====
section
/-! SUPPORT. What each update of the state leaves in every field, one lemma for each field and update. -/
namespace Sys2Proof.Machine

variable (s : State)

/-! ## setReg -/

@[simp] theorem State.setReg_mem (a : Nat) (w : Word) : (s.setReg a w).mem = s.mem := rfl
@[simp] theorem State.setReg_latch (a : Nat) (w : Word) : (s.setReg a w).latch = s.latch := rfl
@[simp] theorem State.setReg_held (a : Nat) (w : Word) : (s.setReg a w).held = s.held := rfl
@[simp] theorem State.setReg_mm (a : Nat) (w : Word) : (s.setReg a w).mm = s.mm := rfl
@[simp] theorem State.setReg_access (a : Nat) (w : Word) : (s.setReg a w).access = s.access := rfl
@[simp] theorem State.setReg_free (a : Nat) (w : Word) : (s.setReg a w).free = s.free := rfl
@[simp] theorem State.setReg_time (a : Nat) (w : Word) : (s.setReg a w).time = s.time := rfl
@[simp] theorem State.setReg_log (a : Nat) (w : Word) : (s.setReg a w).log = s.log := rfl
@[simp] theorem State.setReg_tide (a : Nat) (w : Word) : (s.setReg a w).tide = s.tide := rfl
@[simp] theorem State.setReg_hb (a : Nat) (w : Word) : (s.setReg a w).hb = s.hb := rfl
@[simp] theorem State.setReg_sw (a : Nat) (w : Word) : (s.setReg a w).sw = s.sw := rfl
@[simp] theorem State.setReg_port (a : Nat) (w : Word) : (s.setReg a w).port = s.port := rfl
@[simp] theorem State.setReg_mdio (a : Nat) (w : Word) : (s.setReg a w).mdio = s.mdio := rfl
@[simp] theorem State.setReg_qe (a : Nat) (w : Word) : (s.setReg a w).qe = s.qe := rfl
@[simp] theorem State.setReg_fq (a : Nat) (w : Word) : (s.setReg a w).fq = s.fq := rfl
@[simp] theorem State.setReg_txRR (a : Nat) (w : Word) : (s.setReg a w).txRR = s.txRR := rfl
@[simp] theorem State.setReg_dma (a : Nat) (w : Word) : (s.setReg a w).dma = s.dma := rfl
@[simp] theorem State.setReg_dreq (a : Nat) (w : Word) : (s.setReg a w).dreq = s.dreq := rfl
@[simp] theorem State.setReg_can (a : Nat) (w : Word) : (s.setReg a w).can = s.can := rfl
@[simp] theorem State.setReg_tt (a : Nat) (w : Word) : (s.setReg a w).tt = s.tt := rfl
@[simp] theorem State.setReg_tickAt (a : Nat) (w : Word) : (s.setReg a w).tickAt = s.tickAt := rfl
@[simp] theorem State.setReg_tickBegan (a : Nat) (w : Word) : (s.setReg a w).tickBegan = s.tickBegan := rfl
@[simp] theorem State.setReg_ax (a : Nat) (w : Word) : (s.setReg a w).ax = s.ax := rfl
@[simp] theorem State.setReg_grp (a : Nat) (w : Word) : (s.setReg a w).grp = s.grp := rfl
@[simp] theorem State.setReg_chop (a : Nat) (w : Word) : (s.setReg a w).chop = s.chop := rfl
@[simp] theorem State.setReg_enc (a : Nat) (w : Word) : (s.setReg a w).enc = s.enc := rfl
@[simp] theorem State.setReg_adc (a : Nat) (w : Word) : (s.setReg a w).adc = s.adc := rfl
@[simp] theorem State.setReg_mio (a : Nat) (w : Word) : (s.setReg a w).mio = s.mio := rfl
@[simp] theorem State.setReg_pilot (a : Nat) (w : Word) : (s.setReg a w).pilot = s.pilot := rfl
@[simp] theorem State.setReg_pset (a : Nat) (w : Word) : (s.setReg a w).pset = s.pset := rfl
@[simp] theorem State.setReg_cw (a : Nat) (w : Word) : (s.setReg a w).cw = s.cw := rfl
@[simp] theorem State.setReg_mb (a : Nat) (w : Word) : (s.setReg a w).mb = s.mb := rfl
@[simp] theorem State.setReg_arrival (a : Nat) (w : Word) : (s.setReg a w).arrival = s.arrival := rfl
@[simp] theorem State.setReg_hm (a : Nat) (w : Word) : (s.setReg a w).hm = s.hm := rfl
@[simp] theorem State.setReg_nv (a : Nat) (w : Word) : (s.setReg a w).nv = s.nv := rfl
@[simp] theorem State.setReg_lh (a : Nat) (w : Word) : (s.setReg a w).lh = s.lh := rfl
@[simp] theorem State.setReg_tap (a : Nat) (w : Word) : (s.setReg a w).tap = s.tap := rfl
@[simp] theorem State.setReg_rst (a : Nat) (w : Word) : (s.setReg a w).rst = s.rst := rfl
@[simp] theorem State.setReg_pending (a : Nat) (w : Word) : (s.setReg a w).pending = s.pending := rfl
@[simp] theorem State.setReg_regs (a : Nat) (w : Word) : (s.setReg a w).regs = tput resetWord s.regs a w := rfl

/-! ## putF -/

@[simp] theorem State.putF_mem (a : Nat) (f : Fld) (v : Nat) : (s.putF a f v).mem = s.mem := rfl
@[simp] theorem State.putF_latch (a : Nat) (f : Fld) (v : Nat) : (s.putF a f v).latch = s.latch := rfl
@[simp] theorem State.putF_held (a : Nat) (f : Fld) (v : Nat) : (s.putF a f v).held = s.held := rfl
@[simp] theorem State.putF_mm (a : Nat) (f : Fld) (v : Nat) : (s.putF a f v).mm = s.mm := rfl
@[simp] theorem State.putF_access (a : Nat) (f : Fld) (v : Nat) : (s.putF a f v).access = s.access := rfl
@[simp] theorem State.putF_free (a : Nat) (f : Fld) (v : Nat) : (s.putF a f v).free = s.free := rfl
@[simp] theorem State.putF_time (a : Nat) (f : Fld) (v : Nat) : (s.putF a f v).time = s.time := rfl
@[simp] theorem State.putF_log (a : Nat) (f : Fld) (v : Nat) : (s.putF a f v).log = s.log := rfl
@[simp] theorem State.putF_tide (a : Nat) (f : Fld) (v : Nat) : (s.putF a f v).tide = s.tide := rfl
@[simp] theorem State.putF_hb (a : Nat) (f : Fld) (v : Nat) : (s.putF a f v).hb = s.hb := rfl
@[simp] theorem State.putF_sw (a : Nat) (f : Fld) (v : Nat) : (s.putF a f v).sw = s.sw := rfl
@[simp] theorem State.putF_port (a : Nat) (f : Fld) (v : Nat) : (s.putF a f v).port = s.port := rfl
@[simp] theorem State.putF_mdio (a : Nat) (f : Fld) (v : Nat) : (s.putF a f v).mdio = s.mdio := rfl
@[simp] theorem State.putF_qe (a : Nat) (f : Fld) (v : Nat) : (s.putF a f v).qe = s.qe := rfl
@[simp] theorem State.putF_fq (a : Nat) (f : Fld) (v : Nat) : (s.putF a f v).fq = s.fq := rfl
@[simp] theorem State.putF_txRR (a : Nat) (f : Fld) (v : Nat) : (s.putF a f v).txRR = s.txRR := rfl
@[simp] theorem State.putF_dma (a : Nat) (f : Fld) (v : Nat) : (s.putF a f v).dma = s.dma := rfl
@[simp] theorem State.putF_dreq (a : Nat) (f : Fld) (v : Nat) : (s.putF a f v).dreq = s.dreq := rfl
@[simp] theorem State.putF_can (a : Nat) (f : Fld) (v : Nat) : (s.putF a f v).can = s.can := rfl
@[simp] theorem State.putF_tt (a : Nat) (f : Fld) (v : Nat) : (s.putF a f v).tt = s.tt := rfl
@[simp] theorem State.putF_tickAt (a : Nat) (f : Fld) (v : Nat) : (s.putF a f v).tickAt = s.tickAt := rfl
@[simp] theorem State.putF_tickBegan (a : Nat) (f : Fld) (v : Nat) : (s.putF a f v).tickBegan = s.tickBegan := rfl
@[simp] theorem State.putF_ax (a : Nat) (f : Fld) (v : Nat) : (s.putF a f v).ax = s.ax := rfl
@[simp] theorem State.putF_grp (a : Nat) (f : Fld) (v : Nat) : (s.putF a f v).grp = s.grp := rfl
@[simp] theorem State.putF_chop (a : Nat) (f : Fld) (v : Nat) : (s.putF a f v).chop = s.chop := rfl
@[simp] theorem State.putF_enc (a : Nat) (f : Fld) (v : Nat) : (s.putF a f v).enc = s.enc := rfl
@[simp] theorem State.putF_adc (a : Nat) (f : Fld) (v : Nat) : (s.putF a f v).adc = s.adc := rfl
@[simp] theorem State.putF_mio (a : Nat) (f : Fld) (v : Nat) : (s.putF a f v).mio = s.mio := rfl
@[simp] theorem State.putF_pilot (a : Nat) (f : Fld) (v : Nat) : (s.putF a f v).pilot = s.pilot := rfl
@[simp] theorem State.putF_pset (a : Nat) (f : Fld) (v : Nat) : (s.putF a f v).pset = s.pset := rfl
@[simp] theorem State.putF_cw (a : Nat) (f : Fld) (v : Nat) : (s.putF a f v).cw = s.cw := rfl
@[simp] theorem State.putF_mb (a : Nat) (f : Fld) (v : Nat) : (s.putF a f v).mb = s.mb := rfl
@[simp] theorem State.putF_arrival (a : Nat) (f : Fld) (v : Nat) : (s.putF a f v).arrival = s.arrival := rfl
@[simp] theorem State.putF_hm (a : Nat) (f : Fld) (v : Nat) : (s.putF a f v).hm = s.hm := rfl
@[simp] theorem State.putF_nv (a : Nat) (f : Fld) (v : Nat) : (s.putF a f v).nv = s.nv := rfl
@[simp] theorem State.putF_lh (a : Nat) (f : Fld) (v : Nat) : (s.putF a f v).lh = s.lh := rfl
@[simp] theorem State.putF_tap (a : Nat) (f : Fld) (v : Nat) : (s.putF a f v).tap = s.tap := rfl
@[simp] theorem State.putF_rst (a : Nat) (f : Fld) (v : Nat) : (s.putF a f v).rst = s.rst := rfl
@[simp] theorem State.putF_pending (a : Nat) (f : Fld) (v : Nat) : (s.putF a f v).pending = s.pending := rfl
@[simp] theorem State.putF_regs (a : Nat) (f : Fld) (v : Nat) : (s.putF a f v).regs = tput resetWord s.regs a (f.put (s.reg a) v) := rfl

/-! ## setB -/

@[simp] theorem State.setB_mem (a : Nat) (f : Fld) : (s.setB a f).mem = s.mem := rfl
@[simp] theorem State.setB_latch (a : Nat) (f : Fld) : (s.setB a f).latch = s.latch := rfl
@[simp] theorem State.setB_held (a : Nat) (f : Fld) : (s.setB a f).held = s.held := rfl
@[simp] theorem State.setB_mm (a : Nat) (f : Fld) : (s.setB a f).mm = s.mm := rfl
@[simp] theorem State.setB_access (a : Nat) (f : Fld) : (s.setB a f).access = s.access := rfl
@[simp] theorem State.setB_free (a : Nat) (f : Fld) : (s.setB a f).free = s.free := rfl
@[simp] theorem State.setB_time (a : Nat) (f : Fld) : (s.setB a f).time = s.time := rfl
@[simp] theorem State.setB_log (a : Nat) (f : Fld) : (s.setB a f).log = s.log := rfl
@[simp] theorem State.setB_tide (a : Nat) (f : Fld) : (s.setB a f).tide = s.tide := rfl
@[simp] theorem State.setB_hb (a : Nat) (f : Fld) : (s.setB a f).hb = s.hb := rfl
@[simp] theorem State.setB_sw (a : Nat) (f : Fld) : (s.setB a f).sw = s.sw := rfl
@[simp] theorem State.setB_port (a : Nat) (f : Fld) : (s.setB a f).port = s.port := rfl
@[simp] theorem State.setB_mdio (a : Nat) (f : Fld) : (s.setB a f).mdio = s.mdio := rfl
@[simp] theorem State.setB_qe (a : Nat) (f : Fld) : (s.setB a f).qe = s.qe := rfl
@[simp] theorem State.setB_fq (a : Nat) (f : Fld) : (s.setB a f).fq = s.fq := rfl
@[simp] theorem State.setB_txRR (a : Nat) (f : Fld) : (s.setB a f).txRR = s.txRR := rfl
@[simp] theorem State.setB_dma (a : Nat) (f : Fld) : (s.setB a f).dma = s.dma := rfl
@[simp] theorem State.setB_dreq (a : Nat) (f : Fld) : (s.setB a f).dreq = s.dreq := rfl
@[simp] theorem State.setB_can (a : Nat) (f : Fld) : (s.setB a f).can = s.can := rfl
@[simp] theorem State.setB_tt (a : Nat) (f : Fld) : (s.setB a f).tt = s.tt := rfl
@[simp] theorem State.setB_tickAt (a : Nat) (f : Fld) : (s.setB a f).tickAt = s.tickAt := rfl
@[simp] theorem State.setB_tickBegan (a : Nat) (f : Fld) : (s.setB a f).tickBegan = s.tickBegan := rfl
@[simp] theorem State.setB_ax (a : Nat) (f : Fld) : (s.setB a f).ax = s.ax := rfl
@[simp] theorem State.setB_grp (a : Nat) (f : Fld) : (s.setB a f).grp = s.grp := rfl
@[simp] theorem State.setB_chop (a : Nat) (f : Fld) : (s.setB a f).chop = s.chop := rfl
@[simp] theorem State.setB_enc (a : Nat) (f : Fld) : (s.setB a f).enc = s.enc := rfl
@[simp] theorem State.setB_adc (a : Nat) (f : Fld) : (s.setB a f).adc = s.adc := rfl
@[simp] theorem State.setB_mio (a : Nat) (f : Fld) : (s.setB a f).mio = s.mio := rfl
@[simp] theorem State.setB_pilot (a : Nat) (f : Fld) : (s.setB a f).pilot = s.pilot := rfl
@[simp] theorem State.setB_pset (a : Nat) (f : Fld) : (s.setB a f).pset = s.pset := rfl
@[simp] theorem State.setB_cw (a : Nat) (f : Fld) : (s.setB a f).cw = s.cw := rfl
@[simp] theorem State.setB_mb (a : Nat) (f : Fld) : (s.setB a f).mb = s.mb := rfl
@[simp] theorem State.setB_arrival (a : Nat) (f : Fld) : (s.setB a f).arrival = s.arrival := rfl
@[simp] theorem State.setB_hm (a : Nat) (f : Fld) : (s.setB a f).hm = s.hm := rfl
@[simp] theorem State.setB_nv (a : Nat) (f : Fld) : (s.setB a f).nv = s.nv := rfl
@[simp] theorem State.setB_lh (a : Nat) (f : Fld) : (s.setB a f).lh = s.lh := rfl
@[simp] theorem State.setB_tap (a : Nat) (f : Fld) : (s.setB a f).tap = s.tap := rfl
@[simp] theorem State.setB_rst (a : Nat) (f : Fld) : (s.setB a f).rst = s.rst := rfl
@[simp] theorem State.setB_pending (a : Nat) (f : Fld) : (s.setB a f).pending = s.pending := rfl
@[simp] theorem State.setB_regs (a : Nat) (f : Fld) : (s.setB a f).regs = tput resetWord s.regs a (f.put (s.reg a) 1) := rfl

/-! ## clrB -/

@[simp] theorem State.clrB_mem (a : Nat) (f : Fld) : (s.clrB a f).mem = s.mem := rfl
@[simp] theorem State.clrB_latch (a : Nat) (f : Fld) : (s.clrB a f).latch = s.latch := rfl
@[simp] theorem State.clrB_held (a : Nat) (f : Fld) : (s.clrB a f).held = s.held := rfl
@[simp] theorem State.clrB_mm (a : Nat) (f : Fld) : (s.clrB a f).mm = s.mm := rfl
@[simp] theorem State.clrB_access (a : Nat) (f : Fld) : (s.clrB a f).access = s.access := rfl
@[simp] theorem State.clrB_free (a : Nat) (f : Fld) : (s.clrB a f).free = s.free := rfl
@[simp] theorem State.clrB_time (a : Nat) (f : Fld) : (s.clrB a f).time = s.time := rfl
@[simp] theorem State.clrB_log (a : Nat) (f : Fld) : (s.clrB a f).log = s.log := rfl
@[simp] theorem State.clrB_tide (a : Nat) (f : Fld) : (s.clrB a f).tide = s.tide := rfl
@[simp] theorem State.clrB_hb (a : Nat) (f : Fld) : (s.clrB a f).hb = s.hb := rfl
@[simp] theorem State.clrB_sw (a : Nat) (f : Fld) : (s.clrB a f).sw = s.sw := rfl
@[simp] theorem State.clrB_port (a : Nat) (f : Fld) : (s.clrB a f).port = s.port := rfl
@[simp] theorem State.clrB_mdio (a : Nat) (f : Fld) : (s.clrB a f).mdio = s.mdio := rfl
@[simp] theorem State.clrB_qe (a : Nat) (f : Fld) : (s.clrB a f).qe = s.qe := rfl
@[simp] theorem State.clrB_fq (a : Nat) (f : Fld) : (s.clrB a f).fq = s.fq := rfl
@[simp] theorem State.clrB_txRR (a : Nat) (f : Fld) : (s.clrB a f).txRR = s.txRR := rfl
@[simp] theorem State.clrB_dma (a : Nat) (f : Fld) : (s.clrB a f).dma = s.dma := rfl
@[simp] theorem State.clrB_dreq (a : Nat) (f : Fld) : (s.clrB a f).dreq = s.dreq := rfl
@[simp] theorem State.clrB_can (a : Nat) (f : Fld) : (s.clrB a f).can = s.can := rfl
@[simp] theorem State.clrB_tt (a : Nat) (f : Fld) : (s.clrB a f).tt = s.tt := rfl
@[simp] theorem State.clrB_tickAt (a : Nat) (f : Fld) : (s.clrB a f).tickAt = s.tickAt := rfl
@[simp] theorem State.clrB_tickBegan (a : Nat) (f : Fld) : (s.clrB a f).tickBegan = s.tickBegan := rfl
@[simp] theorem State.clrB_ax (a : Nat) (f : Fld) : (s.clrB a f).ax = s.ax := rfl
@[simp] theorem State.clrB_grp (a : Nat) (f : Fld) : (s.clrB a f).grp = s.grp := rfl
@[simp] theorem State.clrB_chop (a : Nat) (f : Fld) : (s.clrB a f).chop = s.chop := rfl
@[simp] theorem State.clrB_enc (a : Nat) (f : Fld) : (s.clrB a f).enc = s.enc := rfl
@[simp] theorem State.clrB_adc (a : Nat) (f : Fld) : (s.clrB a f).adc = s.adc := rfl
@[simp] theorem State.clrB_mio (a : Nat) (f : Fld) : (s.clrB a f).mio = s.mio := rfl
@[simp] theorem State.clrB_pilot (a : Nat) (f : Fld) : (s.clrB a f).pilot = s.pilot := rfl
@[simp] theorem State.clrB_pset (a : Nat) (f : Fld) : (s.clrB a f).pset = s.pset := rfl
@[simp] theorem State.clrB_cw (a : Nat) (f : Fld) : (s.clrB a f).cw = s.cw := rfl
@[simp] theorem State.clrB_mb (a : Nat) (f : Fld) : (s.clrB a f).mb = s.mb := rfl
@[simp] theorem State.clrB_arrival (a : Nat) (f : Fld) : (s.clrB a f).arrival = s.arrival := rfl
@[simp] theorem State.clrB_hm (a : Nat) (f : Fld) : (s.clrB a f).hm = s.hm := rfl
@[simp] theorem State.clrB_nv (a : Nat) (f : Fld) : (s.clrB a f).nv = s.nv := rfl
@[simp] theorem State.clrB_lh (a : Nat) (f : Fld) : (s.clrB a f).lh = s.lh := rfl
@[simp] theorem State.clrB_tap (a : Nat) (f : Fld) : (s.clrB a f).tap = s.tap := rfl
@[simp] theorem State.clrB_rst (a : Nat) (f : Fld) : (s.clrB a f).rst = s.rst := rfl
@[simp] theorem State.clrB_pending (a : Nat) (f : Fld) : (s.clrB a f).pending = s.pending := rfl
@[simp] theorem State.clrB_regs (a : Nat) (f : Fld) : (s.clrB a f).regs = tput resetWord s.regs a (f.put (s.reg a) 0) := rfl

/-! ## putB -/

@[simp] theorem State.putB_mem (a : Nat) (f : Fld) (b : Bool) : (s.putB a f b).mem = s.mem := rfl
@[simp] theorem State.putB_latch (a : Nat) (f : Fld) (b : Bool) : (s.putB a f b).latch = s.latch := rfl
@[simp] theorem State.putB_held (a : Nat) (f : Fld) (b : Bool) : (s.putB a f b).held = s.held := rfl
@[simp] theorem State.putB_mm (a : Nat) (f : Fld) (b : Bool) : (s.putB a f b).mm = s.mm := rfl
@[simp] theorem State.putB_access (a : Nat) (f : Fld) (b : Bool) : (s.putB a f b).access = s.access := rfl
@[simp] theorem State.putB_free (a : Nat) (f : Fld) (b : Bool) : (s.putB a f b).free = s.free := rfl
@[simp] theorem State.putB_time (a : Nat) (f : Fld) (b : Bool) : (s.putB a f b).time = s.time := rfl
@[simp] theorem State.putB_log (a : Nat) (f : Fld) (b : Bool) : (s.putB a f b).log = s.log := rfl
@[simp] theorem State.putB_tide (a : Nat) (f : Fld) (b : Bool) : (s.putB a f b).tide = s.tide := rfl
@[simp] theorem State.putB_hb (a : Nat) (f : Fld) (b : Bool) : (s.putB a f b).hb = s.hb := rfl
@[simp] theorem State.putB_sw (a : Nat) (f : Fld) (b : Bool) : (s.putB a f b).sw = s.sw := rfl
@[simp] theorem State.putB_port (a : Nat) (f : Fld) (b : Bool) : (s.putB a f b).port = s.port := rfl
@[simp] theorem State.putB_mdio (a : Nat) (f : Fld) (b : Bool) : (s.putB a f b).mdio = s.mdio := rfl
@[simp] theorem State.putB_qe (a : Nat) (f : Fld) (b : Bool) : (s.putB a f b).qe = s.qe := rfl
@[simp] theorem State.putB_fq (a : Nat) (f : Fld) (b : Bool) : (s.putB a f b).fq = s.fq := rfl
@[simp] theorem State.putB_txRR (a : Nat) (f : Fld) (b : Bool) : (s.putB a f b).txRR = s.txRR := rfl
@[simp] theorem State.putB_dma (a : Nat) (f : Fld) (b : Bool) : (s.putB a f b).dma = s.dma := rfl
@[simp] theorem State.putB_dreq (a : Nat) (f : Fld) (b : Bool) : (s.putB a f b).dreq = s.dreq := rfl
@[simp] theorem State.putB_can (a : Nat) (f : Fld) (b : Bool) : (s.putB a f b).can = s.can := rfl
@[simp] theorem State.putB_tt (a : Nat) (f : Fld) (b : Bool) : (s.putB a f b).tt = s.tt := rfl
@[simp] theorem State.putB_tickAt (a : Nat) (f : Fld) (b : Bool) : (s.putB a f b).tickAt = s.tickAt := rfl
@[simp] theorem State.putB_tickBegan (a : Nat) (f : Fld) (b : Bool) : (s.putB a f b).tickBegan = s.tickBegan := rfl
@[simp] theorem State.putB_ax (a : Nat) (f : Fld) (b : Bool) : (s.putB a f b).ax = s.ax := rfl
@[simp] theorem State.putB_grp (a : Nat) (f : Fld) (b : Bool) : (s.putB a f b).grp = s.grp := rfl
@[simp] theorem State.putB_chop (a : Nat) (f : Fld) (b : Bool) : (s.putB a f b).chop = s.chop := rfl
@[simp] theorem State.putB_enc (a : Nat) (f : Fld) (b : Bool) : (s.putB a f b).enc = s.enc := rfl
@[simp] theorem State.putB_adc (a : Nat) (f : Fld) (b : Bool) : (s.putB a f b).adc = s.adc := rfl
@[simp] theorem State.putB_mio (a : Nat) (f : Fld) (b : Bool) : (s.putB a f b).mio = s.mio := rfl
@[simp] theorem State.putB_pilot (a : Nat) (f : Fld) (b : Bool) : (s.putB a f b).pilot = s.pilot := rfl
@[simp] theorem State.putB_pset (a : Nat) (f : Fld) (b : Bool) : (s.putB a f b).pset = s.pset := rfl
@[simp] theorem State.putB_cw (a : Nat) (f : Fld) (b : Bool) : (s.putB a f b).cw = s.cw := rfl
@[simp] theorem State.putB_mb (a : Nat) (f : Fld) (b : Bool) : (s.putB a f b).mb = s.mb := rfl
@[simp] theorem State.putB_arrival (a : Nat) (f : Fld) (b : Bool) : (s.putB a f b).arrival = s.arrival := rfl
@[simp] theorem State.putB_hm (a : Nat) (f : Fld) (b : Bool) : (s.putB a f b).hm = s.hm := rfl
@[simp] theorem State.putB_nv (a : Nat) (f : Fld) (b : Bool) : (s.putB a f b).nv = s.nv := rfl
@[simp] theorem State.putB_lh (a : Nat) (f : Fld) (b : Bool) : (s.putB a f b).lh = s.lh := rfl
@[simp] theorem State.putB_tap (a : Nat) (f : Fld) (b : Bool) : (s.putB a f b).tap = s.tap := rfl
@[simp] theorem State.putB_rst (a : Nat) (f : Fld) (b : Bool) : (s.putB a f b).rst = s.rst := rfl
@[simp] theorem State.putB_pending (a : Nat) (f : Fld) (b : Bool) : (s.putB a f b).pending = s.pending := rfl
@[simp] theorem State.putB_regs (a : Nat) (f : Fld) (b : Bool) : (s.putB a f b).regs = tput resetWord s.regs a (f.put (s.reg a) (b2n b)) := rfl

/-! ## wr8 -/

@[simp] theorem State.wr8_regs (a v : Nat) : (s.wr8 a v).regs = s.regs := rfl
@[simp] theorem State.wr8_latch (a v : Nat) : (s.wr8 a v).latch = s.latch := rfl
@[simp] theorem State.wr8_held (a v : Nat) : (s.wr8 a v).held = s.held := rfl
@[simp] theorem State.wr8_mm (a v : Nat) : (s.wr8 a v).mm = s.mm := rfl
@[simp] theorem State.wr8_access (a v : Nat) : (s.wr8 a v).access = s.access := rfl
@[simp] theorem State.wr8_free (a v : Nat) : (s.wr8 a v).free = s.free := rfl
@[simp] theorem State.wr8_time (a v : Nat) : (s.wr8 a v).time = s.time := rfl
@[simp] theorem State.wr8_log (a v : Nat) : (s.wr8 a v).log = s.log := rfl
@[simp] theorem State.wr8_tide (a v : Nat) : (s.wr8 a v).tide = s.tide := rfl
@[simp] theorem State.wr8_hb (a v : Nat) : (s.wr8 a v).hb = s.hb := rfl
@[simp] theorem State.wr8_sw (a v : Nat) : (s.wr8 a v).sw = s.sw := rfl
@[simp] theorem State.wr8_port (a v : Nat) : (s.wr8 a v).port = s.port := rfl
@[simp] theorem State.wr8_mdio (a v : Nat) : (s.wr8 a v).mdio = s.mdio := rfl
@[simp] theorem State.wr8_qe (a v : Nat) : (s.wr8 a v).qe = s.qe := rfl
@[simp] theorem State.wr8_fq (a v : Nat) : (s.wr8 a v).fq = s.fq := rfl
@[simp] theorem State.wr8_txRR (a v : Nat) : (s.wr8 a v).txRR = s.txRR := rfl
@[simp] theorem State.wr8_dma (a v : Nat) : (s.wr8 a v).dma = s.dma := rfl
@[simp] theorem State.wr8_dreq (a v : Nat) : (s.wr8 a v).dreq = s.dreq := rfl
@[simp] theorem State.wr8_can (a v : Nat) : (s.wr8 a v).can = s.can := rfl
@[simp] theorem State.wr8_tt (a v : Nat) : (s.wr8 a v).tt = s.tt := rfl
@[simp] theorem State.wr8_tickAt (a v : Nat) : (s.wr8 a v).tickAt = s.tickAt := rfl
@[simp] theorem State.wr8_tickBegan (a v : Nat) : (s.wr8 a v).tickBegan = s.tickBegan := rfl
@[simp] theorem State.wr8_ax (a v : Nat) : (s.wr8 a v).ax = s.ax := rfl
@[simp] theorem State.wr8_grp (a v : Nat) : (s.wr8 a v).grp = s.grp := rfl
@[simp] theorem State.wr8_chop (a v : Nat) : (s.wr8 a v).chop = s.chop := rfl
@[simp] theorem State.wr8_enc (a v : Nat) : (s.wr8 a v).enc = s.enc := rfl
@[simp] theorem State.wr8_adc (a v : Nat) : (s.wr8 a v).adc = s.adc := rfl
@[simp] theorem State.wr8_mio (a v : Nat) : (s.wr8 a v).mio = s.mio := rfl
@[simp] theorem State.wr8_pilot (a v : Nat) : (s.wr8 a v).pilot = s.pilot := rfl
@[simp] theorem State.wr8_pset (a v : Nat) : (s.wr8 a v).pset = s.pset := rfl
@[simp] theorem State.wr8_cw (a v : Nat) : (s.wr8 a v).cw = s.cw := rfl
@[simp] theorem State.wr8_mb (a v : Nat) : (s.wr8 a v).mb = s.mb := rfl
@[simp] theorem State.wr8_arrival (a v : Nat) : (s.wr8 a v).arrival = s.arrival := rfl
@[simp] theorem State.wr8_hm (a v : Nat) : (s.wr8 a v).hm = s.hm := rfl
@[simp] theorem State.wr8_nv (a v : Nat) : (s.wr8 a v).nv = s.nv := rfl
@[simp] theorem State.wr8_lh (a v : Nat) : (s.wr8 a v).lh = s.lh := rfl
@[simp] theorem State.wr8_tap (a v : Nat) : (s.wr8 a v).tap = s.tap := rfl
@[simp] theorem State.wr8_rst (a v : Nat) : (s.wr8 a v).rst = s.rst := rfl
@[simp] theorem State.wr8_pending (a v : Nat) : (s.wr8 a v).pending = s.pending := rfl
@[simp] theorem State.wr8_mem (a v : Nat) : (s.wr8 a v).mem = tput memDefault s.mem a (BitVec.ofNat 8 v) := rfl

/-! ## tickFree -/

@[simp] theorem State.tickFree_regs : (s.tickFree).regs = s.regs := rfl
@[simp] theorem State.tickFree_mem : (s.tickFree).mem = s.mem := rfl
@[simp] theorem State.tickFree_latch : (s.tickFree).latch = s.latch := rfl
@[simp] theorem State.tickFree_held : (s.tickFree).held = s.held := rfl
@[simp] theorem State.tickFree_mm : (s.tickFree).mm = s.mm := rfl
@[simp] theorem State.tickFree_access : (s.tickFree).access = s.access := rfl
@[simp] theorem State.tickFree_time : (s.tickFree).time = s.time := rfl
@[simp] theorem State.tickFree_log : (s.tickFree).log = s.log := rfl
@[simp] theorem State.tickFree_tide : (s.tickFree).tide = s.tide := rfl
@[simp] theorem State.tickFree_hb : (s.tickFree).hb = s.hb := rfl
@[simp] theorem State.tickFree_sw : (s.tickFree).sw = s.sw := rfl
@[simp] theorem State.tickFree_port : (s.tickFree).port = s.port := rfl
@[simp] theorem State.tickFree_mdio : (s.tickFree).mdio = s.mdio := rfl
@[simp] theorem State.tickFree_qe : (s.tickFree).qe = s.qe := rfl
@[simp] theorem State.tickFree_fq : (s.tickFree).fq = s.fq := rfl
@[simp] theorem State.tickFree_txRR : (s.tickFree).txRR = s.txRR := rfl
@[simp] theorem State.tickFree_dma : (s.tickFree).dma = s.dma := rfl
@[simp] theorem State.tickFree_dreq : (s.tickFree).dreq = s.dreq := rfl
@[simp] theorem State.tickFree_can : (s.tickFree).can = s.can := rfl
@[simp] theorem State.tickFree_tt : (s.tickFree).tt = s.tt := rfl
@[simp] theorem State.tickFree_tickAt : (s.tickFree).tickAt = s.tickAt := rfl
@[simp] theorem State.tickFree_tickBegan : (s.tickFree).tickBegan = s.tickBegan := rfl
@[simp] theorem State.tickFree_ax : (s.tickFree).ax = s.ax := rfl
@[simp] theorem State.tickFree_grp : (s.tickFree).grp = s.grp := rfl
@[simp] theorem State.tickFree_chop : (s.tickFree).chop = s.chop := rfl
@[simp] theorem State.tickFree_enc : (s.tickFree).enc = s.enc := rfl
@[simp] theorem State.tickFree_adc : (s.tickFree).adc = s.adc := rfl
@[simp] theorem State.tickFree_mio : (s.tickFree).mio = s.mio := rfl
@[simp] theorem State.tickFree_pilot : (s.tickFree).pilot = s.pilot := rfl
@[simp] theorem State.tickFree_pset : (s.tickFree).pset = s.pset := rfl
@[simp] theorem State.tickFree_cw : (s.tickFree).cw = s.cw := rfl
@[simp] theorem State.tickFree_mb : (s.tickFree).mb = s.mb := rfl
@[simp] theorem State.tickFree_arrival : (s.tickFree).arrival = s.arrival := rfl
@[simp] theorem State.tickFree_hm : (s.tickFree).hm = s.hm := rfl
@[simp] theorem State.tickFree_nv : (s.tickFree).nv = s.nv := rfl
@[simp] theorem State.tickFree_lh : (s.tickFree).lh = s.lh := rfl
@[simp] theorem State.tickFree_tap : (s.tickFree).tap = s.tap := rfl
@[simp] theorem State.tickFree_rst : (s.tickFree).rst = s.rst := rfl
@[simp] theorem State.tickFree_pending : (s.tickFree).pending = s.pending := rfl
@[simp] theorem State.tickFree_free : (s.tickFree).free = s.free + 1 := rfl

/-! ## modMm -/

@[simp] theorem State.modMm_regs (f : MemSt → MemSt) : (s.modMm f).regs = s.regs := rfl
@[simp] theorem State.modMm_mem (f : MemSt → MemSt) : (s.modMm f).mem = s.mem := rfl
@[simp] theorem State.modMm_latch (f : MemSt → MemSt) : (s.modMm f).latch = s.latch := rfl
@[simp] theorem State.modMm_held (f : MemSt → MemSt) : (s.modMm f).held = s.held := rfl
@[simp] theorem State.modMm_access (f : MemSt → MemSt) : (s.modMm f).access = s.access := rfl
@[simp] theorem State.modMm_free (f : MemSt → MemSt) : (s.modMm f).free = s.free := rfl
@[simp] theorem State.modMm_time (f : MemSt → MemSt) : (s.modMm f).time = s.time := rfl
@[simp] theorem State.modMm_log (f : MemSt → MemSt) : (s.modMm f).log = s.log := rfl
@[simp] theorem State.modMm_tide (f : MemSt → MemSt) : (s.modMm f).tide = s.tide := rfl
@[simp] theorem State.modMm_hb (f : MemSt → MemSt) : (s.modMm f).hb = s.hb := rfl
@[simp] theorem State.modMm_sw (f : MemSt → MemSt) : (s.modMm f).sw = s.sw := rfl
@[simp] theorem State.modMm_port (f : MemSt → MemSt) : (s.modMm f).port = s.port := rfl
@[simp] theorem State.modMm_mdio (f : MemSt → MemSt) : (s.modMm f).mdio = s.mdio := rfl
@[simp] theorem State.modMm_qe (f : MemSt → MemSt) : (s.modMm f).qe = s.qe := rfl
@[simp] theorem State.modMm_fq (f : MemSt → MemSt) : (s.modMm f).fq = s.fq := rfl
@[simp] theorem State.modMm_txRR (f : MemSt → MemSt) : (s.modMm f).txRR = s.txRR := rfl
@[simp] theorem State.modMm_dma (f : MemSt → MemSt) : (s.modMm f).dma = s.dma := rfl
@[simp] theorem State.modMm_dreq (f : MemSt → MemSt) : (s.modMm f).dreq = s.dreq := rfl
@[simp] theorem State.modMm_can (f : MemSt → MemSt) : (s.modMm f).can = s.can := rfl
@[simp] theorem State.modMm_tt (f : MemSt → MemSt) : (s.modMm f).tt = s.tt := rfl
@[simp] theorem State.modMm_tickAt (f : MemSt → MemSt) : (s.modMm f).tickAt = s.tickAt := rfl
@[simp] theorem State.modMm_tickBegan (f : MemSt → MemSt) : (s.modMm f).tickBegan = s.tickBegan := rfl
@[simp] theorem State.modMm_ax (f : MemSt → MemSt) : (s.modMm f).ax = s.ax := rfl
@[simp] theorem State.modMm_grp (f : MemSt → MemSt) : (s.modMm f).grp = s.grp := rfl
@[simp] theorem State.modMm_chop (f : MemSt → MemSt) : (s.modMm f).chop = s.chop := rfl
@[simp] theorem State.modMm_enc (f : MemSt → MemSt) : (s.modMm f).enc = s.enc := rfl
@[simp] theorem State.modMm_adc (f : MemSt → MemSt) : (s.modMm f).adc = s.adc := rfl
@[simp] theorem State.modMm_mio (f : MemSt → MemSt) : (s.modMm f).mio = s.mio := rfl
@[simp] theorem State.modMm_pilot (f : MemSt → MemSt) : (s.modMm f).pilot = s.pilot := rfl
@[simp] theorem State.modMm_pset (f : MemSt → MemSt) : (s.modMm f).pset = s.pset := rfl
@[simp] theorem State.modMm_cw (f : MemSt → MemSt) : (s.modMm f).cw = s.cw := rfl
@[simp] theorem State.modMm_mb (f : MemSt → MemSt) : (s.modMm f).mb = s.mb := rfl
@[simp] theorem State.modMm_arrival (f : MemSt → MemSt) : (s.modMm f).arrival = s.arrival := rfl
@[simp] theorem State.modMm_hm (f : MemSt → MemSt) : (s.modMm f).hm = s.hm := rfl
@[simp] theorem State.modMm_nv (f : MemSt → MemSt) : (s.modMm f).nv = s.nv := rfl
@[simp] theorem State.modMm_lh (f : MemSt → MemSt) : (s.modMm f).lh = s.lh := rfl
@[simp] theorem State.modMm_tap (f : MemSt → MemSt) : (s.modMm f).tap = s.tap := rfl
@[simp] theorem State.modMm_rst (f : MemSt → MemSt) : (s.modMm f).rst = s.rst := rfl
@[simp] theorem State.modMm_pending (f : MemSt → MemSt) : (s.modMm f).pending = s.pending := rfl
@[simp] theorem State.modMm_mm (f : MemSt → MemSt) : (s.modMm f).mm = f s.mm := rfl

/-! ## modTime -/

@[simp] theorem State.modTime_regs (f : TimeSt → TimeSt) : (s.modTime f).regs = s.regs := rfl
@[simp] theorem State.modTime_mem (f : TimeSt → TimeSt) : (s.modTime f).mem = s.mem := rfl
@[simp] theorem State.modTime_latch (f : TimeSt → TimeSt) : (s.modTime f).latch = s.latch := rfl
@[simp] theorem State.modTime_held (f : TimeSt → TimeSt) : (s.modTime f).held = s.held := rfl
@[simp] theorem State.modTime_mm (f : TimeSt → TimeSt) : (s.modTime f).mm = s.mm := rfl
@[simp] theorem State.modTime_access (f : TimeSt → TimeSt) : (s.modTime f).access = s.access := rfl
@[simp] theorem State.modTime_free (f : TimeSt → TimeSt) : (s.modTime f).free = s.free := rfl
@[simp] theorem State.modTime_log (f : TimeSt → TimeSt) : (s.modTime f).log = s.log := rfl
@[simp] theorem State.modTime_tide (f : TimeSt → TimeSt) : (s.modTime f).tide = s.tide := rfl
@[simp] theorem State.modTime_hb (f : TimeSt → TimeSt) : (s.modTime f).hb = s.hb := rfl
@[simp] theorem State.modTime_sw (f : TimeSt → TimeSt) : (s.modTime f).sw = s.sw := rfl
@[simp] theorem State.modTime_port (f : TimeSt → TimeSt) : (s.modTime f).port = s.port := rfl
@[simp] theorem State.modTime_mdio (f : TimeSt → TimeSt) : (s.modTime f).mdio = s.mdio := rfl
@[simp] theorem State.modTime_qe (f : TimeSt → TimeSt) : (s.modTime f).qe = s.qe := rfl
@[simp] theorem State.modTime_fq (f : TimeSt → TimeSt) : (s.modTime f).fq = s.fq := rfl
@[simp] theorem State.modTime_txRR (f : TimeSt → TimeSt) : (s.modTime f).txRR = s.txRR := rfl
@[simp] theorem State.modTime_dma (f : TimeSt → TimeSt) : (s.modTime f).dma = s.dma := rfl
@[simp] theorem State.modTime_dreq (f : TimeSt → TimeSt) : (s.modTime f).dreq = s.dreq := rfl
@[simp] theorem State.modTime_can (f : TimeSt → TimeSt) : (s.modTime f).can = s.can := rfl
@[simp] theorem State.modTime_tt (f : TimeSt → TimeSt) : (s.modTime f).tt = s.tt := rfl
@[simp] theorem State.modTime_tickAt (f : TimeSt → TimeSt) : (s.modTime f).tickAt = s.tickAt := rfl
@[simp] theorem State.modTime_tickBegan (f : TimeSt → TimeSt) : (s.modTime f).tickBegan = s.tickBegan := rfl
@[simp] theorem State.modTime_ax (f : TimeSt → TimeSt) : (s.modTime f).ax = s.ax := rfl
@[simp] theorem State.modTime_grp (f : TimeSt → TimeSt) : (s.modTime f).grp = s.grp := rfl
@[simp] theorem State.modTime_chop (f : TimeSt → TimeSt) : (s.modTime f).chop = s.chop := rfl
@[simp] theorem State.modTime_enc (f : TimeSt → TimeSt) : (s.modTime f).enc = s.enc := rfl
@[simp] theorem State.modTime_adc (f : TimeSt → TimeSt) : (s.modTime f).adc = s.adc := rfl
@[simp] theorem State.modTime_mio (f : TimeSt → TimeSt) : (s.modTime f).mio = s.mio := rfl
@[simp] theorem State.modTime_pilot (f : TimeSt → TimeSt) : (s.modTime f).pilot = s.pilot := rfl
@[simp] theorem State.modTime_pset (f : TimeSt → TimeSt) : (s.modTime f).pset = s.pset := rfl
@[simp] theorem State.modTime_cw (f : TimeSt → TimeSt) : (s.modTime f).cw = s.cw := rfl
@[simp] theorem State.modTime_mb (f : TimeSt → TimeSt) : (s.modTime f).mb = s.mb := rfl
@[simp] theorem State.modTime_arrival (f : TimeSt → TimeSt) : (s.modTime f).arrival = s.arrival := rfl
@[simp] theorem State.modTime_hm (f : TimeSt → TimeSt) : (s.modTime f).hm = s.hm := rfl
@[simp] theorem State.modTime_nv (f : TimeSt → TimeSt) : (s.modTime f).nv = s.nv := rfl
@[simp] theorem State.modTime_lh (f : TimeSt → TimeSt) : (s.modTime f).lh = s.lh := rfl
@[simp] theorem State.modTime_tap (f : TimeSt → TimeSt) : (s.modTime f).tap = s.tap := rfl
@[simp] theorem State.modTime_rst (f : TimeSt → TimeSt) : (s.modTime f).rst = s.rst := rfl
@[simp] theorem State.modTime_pending (f : TimeSt → TimeSt) : (s.modTime f).pending = s.pending := rfl
@[simp] theorem State.modTime_time (f : TimeSt → TimeSt) : (s.modTime f).time = f s.time := rfl

/-! ## modTide -/

@[simp] theorem State.modTide_regs (f : TideSt → TideSt) : (s.modTide f).regs = s.regs := rfl
@[simp] theorem State.modTide_mem (f : TideSt → TideSt) : (s.modTide f).mem = s.mem := rfl
@[simp] theorem State.modTide_latch (f : TideSt → TideSt) : (s.modTide f).latch = s.latch := rfl
@[simp] theorem State.modTide_held (f : TideSt → TideSt) : (s.modTide f).held = s.held := rfl
@[simp] theorem State.modTide_mm (f : TideSt → TideSt) : (s.modTide f).mm = s.mm := rfl
@[simp] theorem State.modTide_access (f : TideSt → TideSt) : (s.modTide f).access = s.access := rfl
@[simp] theorem State.modTide_free (f : TideSt → TideSt) : (s.modTide f).free = s.free := rfl
@[simp] theorem State.modTide_time (f : TideSt → TideSt) : (s.modTide f).time = s.time := rfl
@[simp] theorem State.modTide_log (f : TideSt → TideSt) : (s.modTide f).log = s.log := rfl
@[simp] theorem State.modTide_hb (f : TideSt → TideSt) : (s.modTide f).hb = s.hb := rfl
@[simp] theorem State.modTide_sw (f : TideSt → TideSt) : (s.modTide f).sw = s.sw := rfl
@[simp] theorem State.modTide_port (f : TideSt → TideSt) : (s.modTide f).port = s.port := rfl
@[simp] theorem State.modTide_mdio (f : TideSt → TideSt) : (s.modTide f).mdio = s.mdio := rfl
@[simp] theorem State.modTide_qe (f : TideSt → TideSt) : (s.modTide f).qe = s.qe := rfl
@[simp] theorem State.modTide_fq (f : TideSt → TideSt) : (s.modTide f).fq = s.fq := rfl
@[simp] theorem State.modTide_txRR (f : TideSt → TideSt) : (s.modTide f).txRR = s.txRR := rfl
@[simp] theorem State.modTide_dma (f : TideSt → TideSt) : (s.modTide f).dma = s.dma := rfl
@[simp] theorem State.modTide_dreq (f : TideSt → TideSt) : (s.modTide f).dreq = s.dreq := rfl
@[simp] theorem State.modTide_can (f : TideSt → TideSt) : (s.modTide f).can = s.can := rfl
@[simp] theorem State.modTide_tt (f : TideSt → TideSt) : (s.modTide f).tt = s.tt := rfl
@[simp] theorem State.modTide_tickAt (f : TideSt → TideSt) : (s.modTide f).tickAt = s.tickAt := rfl
@[simp] theorem State.modTide_tickBegan (f : TideSt → TideSt) : (s.modTide f).tickBegan = s.tickBegan := rfl
@[simp] theorem State.modTide_ax (f : TideSt → TideSt) : (s.modTide f).ax = s.ax := rfl
@[simp] theorem State.modTide_grp (f : TideSt → TideSt) : (s.modTide f).grp = s.grp := rfl
@[simp] theorem State.modTide_chop (f : TideSt → TideSt) : (s.modTide f).chop = s.chop := rfl
@[simp] theorem State.modTide_enc (f : TideSt → TideSt) : (s.modTide f).enc = s.enc := rfl
@[simp] theorem State.modTide_adc (f : TideSt → TideSt) : (s.modTide f).adc = s.adc := rfl
@[simp] theorem State.modTide_mio (f : TideSt → TideSt) : (s.modTide f).mio = s.mio := rfl
@[simp] theorem State.modTide_pilot (f : TideSt → TideSt) : (s.modTide f).pilot = s.pilot := rfl
@[simp] theorem State.modTide_pset (f : TideSt → TideSt) : (s.modTide f).pset = s.pset := rfl
@[simp] theorem State.modTide_cw (f : TideSt → TideSt) : (s.modTide f).cw = s.cw := rfl
@[simp] theorem State.modTide_mb (f : TideSt → TideSt) : (s.modTide f).mb = s.mb := rfl
@[simp] theorem State.modTide_arrival (f : TideSt → TideSt) : (s.modTide f).arrival = s.arrival := rfl
@[simp] theorem State.modTide_hm (f : TideSt → TideSt) : (s.modTide f).hm = s.hm := rfl
@[simp] theorem State.modTide_nv (f : TideSt → TideSt) : (s.modTide f).nv = s.nv := rfl
@[simp] theorem State.modTide_lh (f : TideSt → TideSt) : (s.modTide f).lh = s.lh := rfl
@[simp] theorem State.modTide_tap (f : TideSt → TideSt) : (s.modTide f).tap = s.tap := rfl
@[simp] theorem State.modTide_rst (f : TideSt → TideSt) : (s.modTide f).rst = s.rst := rfl
@[simp] theorem State.modTide_pending (f : TideSt → TideSt) : (s.modTide f).pending = s.pending := rfl
@[simp] theorem State.modTide_tide (f : TideSt → TideSt) : (s.modTide f).tide = f s.tide := rfl

/-! ## modSw -/

@[simp] theorem State.modSw_regs (f : SwSt → SwSt) : (s.modSw f).regs = s.regs := rfl
@[simp] theorem State.modSw_mem (f : SwSt → SwSt) : (s.modSw f).mem = s.mem := rfl
@[simp] theorem State.modSw_latch (f : SwSt → SwSt) : (s.modSw f).latch = s.latch := rfl
@[simp] theorem State.modSw_held (f : SwSt → SwSt) : (s.modSw f).held = s.held := rfl
@[simp] theorem State.modSw_mm (f : SwSt → SwSt) : (s.modSw f).mm = s.mm := rfl
@[simp] theorem State.modSw_access (f : SwSt → SwSt) : (s.modSw f).access = s.access := rfl
@[simp] theorem State.modSw_free (f : SwSt → SwSt) : (s.modSw f).free = s.free := rfl
@[simp] theorem State.modSw_time (f : SwSt → SwSt) : (s.modSw f).time = s.time := rfl
@[simp] theorem State.modSw_log (f : SwSt → SwSt) : (s.modSw f).log = s.log := rfl
@[simp] theorem State.modSw_tide (f : SwSt → SwSt) : (s.modSw f).tide = s.tide := rfl
@[simp] theorem State.modSw_hb (f : SwSt → SwSt) : (s.modSw f).hb = s.hb := rfl
@[simp] theorem State.modSw_port (f : SwSt → SwSt) : (s.modSw f).port = s.port := rfl
@[simp] theorem State.modSw_mdio (f : SwSt → SwSt) : (s.modSw f).mdio = s.mdio := rfl
@[simp] theorem State.modSw_qe (f : SwSt → SwSt) : (s.modSw f).qe = s.qe := rfl
@[simp] theorem State.modSw_fq (f : SwSt → SwSt) : (s.modSw f).fq = s.fq := rfl
@[simp] theorem State.modSw_txRR (f : SwSt → SwSt) : (s.modSw f).txRR = s.txRR := rfl
@[simp] theorem State.modSw_dma (f : SwSt → SwSt) : (s.modSw f).dma = s.dma := rfl
@[simp] theorem State.modSw_dreq (f : SwSt → SwSt) : (s.modSw f).dreq = s.dreq := rfl
@[simp] theorem State.modSw_can (f : SwSt → SwSt) : (s.modSw f).can = s.can := rfl
@[simp] theorem State.modSw_tt (f : SwSt → SwSt) : (s.modSw f).tt = s.tt := rfl
@[simp] theorem State.modSw_tickAt (f : SwSt → SwSt) : (s.modSw f).tickAt = s.tickAt := rfl
@[simp] theorem State.modSw_tickBegan (f : SwSt → SwSt) : (s.modSw f).tickBegan = s.tickBegan := rfl
@[simp] theorem State.modSw_ax (f : SwSt → SwSt) : (s.modSw f).ax = s.ax := rfl
@[simp] theorem State.modSw_grp (f : SwSt → SwSt) : (s.modSw f).grp = s.grp := rfl
@[simp] theorem State.modSw_chop (f : SwSt → SwSt) : (s.modSw f).chop = s.chop := rfl
@[simp] theorem State.modSw_enc (f : SwSt → SwSt) : (s.modSw f).enc = s.enc := rfl
@[simp] theorem State.modSw_adc (f : SwSt → SwSt) : (s.modSw f).adc = s.adc := rfl
@[simp] theorem State.modSw_mio (f : SwSt → SwSt) : (s.modSw f).mio = s.mio := rfl
@[simp] theorem State.modSw_pilot (f : SwSt → SwSt) : (s.modSw f).pilot = s.pilot := rfl
@[simp] theorem State.modSw_pset (f : SwSt → SwSt) : (s.modSw f).pset = s.pset := rfl
@[simp] theorem State.modSw_cw (f : SwSt → SwSt) : (s.modSw f).cw = s.cw := rfl
@[simp] theorem State.modSw_mb (f : SwSt → SwSt) : (s.modSw f).mb = s.mb := rfl
@[simp] theorem State.modSw_arrival (f : SwSt → SwSt) : (s.modSw f).arrival = s.arrival := rfl
@[simp] theorem State.modSw_hm (f : SwSt → SwSt) : (s.modSw f).hm = s.hm := rfl
@[simp] theorem State.modSw_nv (f : SwSt → SwSt) : (s.modSw f).nv = s.nv := rfl
@[simp] theorem State.modSw_lh (f : SwSt → SwSt) : (s.modSw f).lh = s.lh := rfl
@[simp] theorem State.modSw_tap (f : SwSt → SwSt) : (s.modSw f).tap = s.tap := rfl
@[simp] theorem State.modSw_rst (f : SwSt → SwSt) : (s.modSw f).rst = s.rst := rfl
@[simp] theorem State.modSw_pending (f : SwSt → SwSt) : (s.modSw f).pending = s.pending := rfl
@[simp] theorem State.modSw_sw (f : SwSt → SwSt) : (s.modSw f).sw = f s.sw := rfl

/-! ## modTt -/

@[simp] theorem State.modTt_regs (f : TtSt → TtSt) : (s.modTt f).regs = s.regs := rfl
@[simp] theorem State.modTt_mem (f : TtSt → TtSt) : (s.modTt f).mem = s.mem := rfl
@[simp] theorem State.modTt_latch (f : TtSt → TtSt) : (s.modTt f).latch = s.latch := rfl
@[simp] theorem State.modTt_held (f : TtSt → TtSt) : (s.modTt f).held = s.held := rfl
@[simp] theorem State.modTt_mm (f : TtSt → TtSt) : (s.modTt f).mm = s.mm := rfl
@[simp] theorem State.modTt_access (f : TtSt → TtSt) : (s.modTt f).access = s.access := rfl
@[simp] theorem State.modTt_free (f : TtSt → TtSt) : (s.modTt f).free = s.free := rfl
@[simp] theorem State.modTt_time (f : TtSt → TtSt) : (s.modTt f).time = s.time := rfl
@[simp] theorem State.modTt_log (f : TtSt → TtSt) : (s.modTt f).log = s.log := rfl
@[simp] theorem State.modTt_tide (f : TtSt → TtSt) : (s.modTt f).tide = s.tide := rfl
@[simp] theorem State.modTt_hb (f : TtSt → TtSt) : (s.modTt f).hb = s.hb := rfl
@[simp] theorem State.modTt_sw (f : TtSt → TtSt) : (s.modTt f).sw = s.sw := rfl
@[simp] theorem State.modTt_port (f : TtSt → TtSt) : (s.modTt f).port = s.port := rfl
@[simp] theorem State.modTt_mdio (f : TtSt → TtSt) : (s.modTt f).mdio = s.mdio := rfl
@[simp] theorem State.modTt_qe (f : TtSt → TtSt) : (s.modTt f).qe = s.qe := rfl
@[simp] theorem State.modTt_fq (f : TtSt → TtSt) : (s.modTt f).fq = s.fq := rfl
@[simp] theorem State.modTt_txRR (f : TtSt → TtSt) : (s.modTt f).txRR = s.txRR := rfl
@[simp] theorem State.modTt_dma (f : TtSt → TtSt) : (s.modTt f).dma = s.dma := rfl
@[simp] theorem State.modTt_dreq (f : TtSt → TtSt) : (s.modTt f).dreq = s.dreq := rfl
@[simp] theorem State.modTt_can (f : TtSt → TtSt) : (s.modTt f).can = s.can := rfl
@[simp] theorem State.modTt_tickAt (f : TtSt → TtSt) : (s.modTt f).tickAt = s.tickAt := rfl
@[simp] theorem State.modTt_tickBegan (f : TtSt → TtSt) : (s.modTt f).tickBegan = s.tickBegan := rfl
@[simp] theorem State.modTt_ax (f : TtSt → TtSt) : (s.modTt f).ax = s.ax := rfl
@[simp] theorem State.modTt_grp (f : TtSt → TtSt) : (s.modTt f).grp = s.grp := rfl
@[simp] theorem State.modTt_chop (f : TtSt → TtSt) : (s.modTt f).chop = s.chop := rfl
@[simp] theorem State.modTt_enc (f : TtSt → TtSt) : (s.modTt f).enc = s.enc := rfl
@[simp] theorem State.modTt_adc (f : TtSt → TtSt) : (s.modTt f).adc = s.adc := rfl
@[simp] theorem State.modTt_mio (f : TtSt → TtSt) : (s.modTt f).mio = s.mio := rfl
@[simp] theorem State.modTt_pilot (f : TtSt → TtSt) : (s.modTt f).pilot = s.pilot := rfl
@[simp] theorem State.modTt_pset (f : TtSt → TtSt) : (s.modTt f).pset = s.pset := rfl
@[simp] theorem State.modTt_cw (f : TtSt → TtSt) : (s.modTt f).cw = s.cw := rfl
@[simp] theorem State.modTt_mb (f : TtSt → TtSt) : (s.modTt f).mb = s.mb := rfl
@[simp] theorem State.modTt_arrival (f : TtSt → TtSt) : (s.modTt f).arrival = s.arrival := rfl
@[simp] theorem State.modTt_hm (f : TtSt → TtSt) : (s.modTt f).hm = s.hm := rfl
@[simp] theorem State.modTt_nv (f : TtSt → TtSt) : (s.modTt f).nv = s.nv := rfl
@[simp] theorem State.modTt_lh (f : TtSt → TtSt) : (s.modTt f).lh = s.lh := rfl
@[simp] theorem State.modTt_tap (f : TtSt → TtSt) : (s.modTt f).tap = s.tap := rfl
@[simp] theorem State.modTt_rst (f : TtSt → TtSt) : (s.modTt f).rst = s.rst := rfl
@[simp] theorem State.modTt_pending (f : TtSt → TtSt) : (s.modTt f).pending = s.pending := rfl
@[simp] theorem State.modTt_tt (f : TtSt → TtSt) : (s.modTt f).tt = f s.tt := rfl

/-! ## modCw -/

@[simp] theorem State.modCw_regs (f : CwSt → CwSt) : (s.modCw f).regs = s.regs := rfl
@[simp] theorem State.modCw_mem (f : CwSt → CwSt) : (s.modCw f).mem = s.mem := rfl
@[simp] theorem State.modCw_latch (f : CwSt → CwSt) : (s.modCw f).latch = s.latch := rfl
@[simp] theorem State.modCw_held (f : CwSt → CwSt) : (s.modCw f).held = s.held := rfl
@[simp] theorem State.modCw_mm (f : CwSt → CwSt) : (s.modCw f).mm = s.mm := rfl
@[simp] theorem State.modCw_access (f : CwSt → CwSt) : (s.modCw f).access = s.access := rfl
@[simp] theorem State.modCw_free (f : CwSt → CwSt) : (s.modCw f).free = s.free := rfl
@[simp] theorem State.modCw_time (f : CwSt → CwSt) : (s.modCw f).time = s.time := rfl
@[simp] theorem State.modCw_log (f : CwSt → CwSt) : (s.modCw f).log = s.log := rfl
@[simp] theorem State.modCw_tide (f : CwSt → CwSt) : (s.modCw f).tide = s.tide := rfl
@[simp] theorem State.modCw_hb (f : CwSt → CwSt) : (s.modCw f).hb = s.hb := rfl
@[simp] theorem State.modCw_sw (f : CwSt → CwSt) : (s.modCw f).sw = s.sw := rfl
@[simp] theorem State.modCw_port (f : CwSt → CwSt) : (s.modCw f).port = s.port := rfl
@[simp] theorem State.modCw_mdio (f : CwSt → CwSt) : (s.modCw f).mdio = s.mdio := rfl
@[simp] theorem State.modCw_qe (f : CwSt → CwSt) : (s.modCw f).qe = s.qe := rfl
@[simp] theorem State.modCw_fq (f : CwSt → CwSt) : (s.modCw f).fq = s.fq := rfl
@[simp] theorem State.modCw_txRR (f : CwSt → CwSt) : (s.modCw f).txRR = s.txRR := rfl
@[simp] theorem State.modCw_dma (f : CwSt → CwSt) : (s.modCw f).dma = s.dma := rfl
@[simp] theorem State.modCw_dreq (f : CwSt → CwSt) : (s.modCw f).dreq = s.dreq := rfl
@[simp] theorem State.modCw_can (f : CwSt → CwSt) : (s.modCw f).can = s.can := rfl
@[simp] theorem State.modCw_tt (f : CwSt → CwSt) : (s.modCw f).tt = s.tt := rfl
@[simp] theorem State.modCw_tickAt (f : CwSt → CwSt) : (s.modCw f).tickAt = s.tickAt := rfl
@[simp] theorem State.modCw_tickBegan (f : CwSt → CwSt) : (s.modCw f).tickBegan = s.tickBegan := rfl
@[simp] theorem State.modCw_ax (f : CwSt → CwSt) : (s.modCw f).ax = s.ax := rfl
@[simp] theorem State.modCw_grp (f : CwSt → CwSt) : (s.modCw f).grp = s.grp := rfl
@[simp] theorem State.modCw_chop (f : CwSt → CwSt) : (s.modCw f).chop = s.chop := rfl
@[simp] theorem State.modCw_enc (f : CwSt → CwSt) : (s.modCw f).enc = s.enc := rfl
@[simp] theorem State.modCw_adc (f : CwSt → CwSt) : (s.modCw f).adc = s.adc := rfl
@[simp] theorem State.modCw_mio (f : CwSt → CwSt) : (s.modCw f).mio = s.mio := rfl
@[simp] theorem State.modCw_pilot (f : CwSt → CwSt) : (s.modCw f).pilot = s.pilot := rfl
@[simp] theorem State.modCw_pset (f : CwSt → CwSt) : (s.modCw f).pset = s.pset := rfl
@[simp] theorem State.modCw_mb (f : CwSt → CwSt) : (s.modCw f).mb = s.mb := rfl
@[simp] theorem State.modCw_arrival (f : CwSt → CwSt) : (s.modCw f).arrival = s.arrival := rfl
@[simp] theorem State.modCw_hm (f : CwSt → CwSt) : (s.modCw f).hm = s.hm := rfl
@[simp] theorem State.modCw_nv (f : CwSt → CwSt) : (s.modCw f).nv = s.nv := rfl
@[simp] theorem State.modCw_lh (f : CwSt → CwSt) : (s.modCw f).lh = s.lh := rfl
@[simp] theorem State.modCw_tap (f : CwSt → CwSt) : (s.modCw f).tap = s.tap := rfl
@[simp] theorem State.modCw_rst (f : CwSt → CwSt) : (s.modCw f).rst = s.rst := rfl
@[simp] theorem State.modCw_pending (f : CwSt → CwSt) : (s.modCw f).pending = s.pending := rfl
@[simp] theorem State.modCw_cw (f : CwSt → CwSt) : (s.modCw f).cw = f s.cw := rfl

/-! ## modHm -/

@[simp] theorem State.modHm_regs (f : HmSt → HmSt) : (s.modHm f).regs = s.regs := rfl
@[simp] theorem State.modHm_mem (f : HmSt → HmSt) : (s.modHm f).mem = s.mem := rfl
@[simp] theorem State.modHm_latch (f : HmSt → HmSt) : (s.modHm f).latch = s.latch := rfl
@[simp] theorem State.modHm_held (f : HmSt → HmSt) : (s.modHm f).held = s.held := rfl
@[simp] theorem State.modHm_mm (f : HmSt → HmSt) : (s.modHm f).mm = s.mm := rfl
@[simp] theorem State.modHm_access (f : HmSt → HmSt) : (s.modHm f).access = s.access := rfl
@[simp] theorem State.modHm_free (f : HmSt → HmSt) : (s.modHm f).free = s.free := rfl
@[simp] theorem State.modHm_time (f : HmSt → HmSt) : (s.modHm f).time = s.time := rfl
@[simp] theorem State.modHm_log (f : HmSt → HmSt) : (s.modHm f).log = s.log := rfl
@[simp] theorem State.modHm_tide (f : HmSt → HmSt) : (s.modHm f).tide = s.tide := rfl
@[simp] theorem State.modHm_hb (f : HmSt → HmSt) : (s.modHm f).hb = s.hb := rfl
@[simp] theorem State.modHm_sw (f : HmSt → HmSt) : (s.modHm f).sw = s.sw := rfl
@[simp] theorem State.modHm_port (f : HmSt → HmSt) : (s.modHm f).port = s.port := rfl
@[simp] theorem State.modHm_mdio (f : HmSt → HmSt) : (s.modHm f).mdio = s.mdio := rfl
@[simp] theorem State.modHm_qe (f : HmSt → HmSt) : (s.modHm f).qe = s.qe := rfl
@[simp] theorem State.modHm_fq (f : HmSt → HmSt) : (s.modHm f).fq = s.fq := rfl
@[simp] theorem State.modHm_txRR (f : HmSt → HmSt) : (s.modHm f).txRR = s.txRR := rfl
@[simp] theorem State.modHm_dma (f : HmSt → HmSt) : (s.modHm f).dma = s.dma := rfl
@[simp] theorem State.modHm_dreq (f : HmSt → HmSt) : (s.modHm f).dreq = s.dreq := rfl
@[simp] theorem State.modHm_can (f : HmSt → HmSt) : (s.modHm f).can = s.can := rfl
@[simp] theorem State.modHm_tt (f : HmSt → HmSt) : (s.modHm f).tt = s.tt := rfl
@[simp] theorem State.modHm_tickAt (f : HmSt → HmSt) : (s.modHm f).tickAt = s.tickAt := rfl
@[simp] theorem State.modHm_tickBegan (f : HmSt → HmSt) : (s.modHm f).tickBegan = s.tickBegan := rfl
@[simp] theorem State.modHm_ax (f : HmSt → HmSt) : (s.modHm f).ax = s.ax := rfl
@[simp] theorem State.modHm_grp (f : HmSt → HmSt) : (s.modHm f).grp = s.grp := rfl
@[simp] theorem State.modHm_chop (f : HmSt → HmSt) : (s.modHm f).chop = s.chop := rfl
@[simp] theorem State.modHm_enc (f : HmSt → HmSt) : (s.modHm f).enc = s.enc := rfl
@[simp] theorem State.modHm_adc (f : HmSt → HmSt) : (s.modHm f).adc = s.adc := rfl
@[simp] theorem State.modHm_mio (f : HmSt → HmSt) : (s.modHm f).mio = s.mio := rfl
@[simp] theorem State.modHm_pilot (f : HmSt → HmSt) : (s.modHm f).pilot = s.pilot := rfl
@[simp] theorem State.modHm_pset (f : HmSt → HmSt) : (s.modHm f).pset = s.pset := rfl
@[simp] theorem State.modHm_cw (f : HmSt → HmSt) : (s.modHm f).cw = s.cw := rfl
@[simp] theorem State.modHm_mb (f : HmSt → HmSt) : (s.modHm f).mb = s.mb := rfl
@[simp] theorem State.modHm_arrival (f : HmSt → HmSt) : (s.modHm f).arrival = s.arrival := rfl
@[simp] theorem State.modHm_nv (f : HmSt → HmSt) : (s.modHm f).nv = s.nv := rfl
@[simp] theorem State.modHm_lh (f : HmSt → HmSt) : (s.modHm f).lh = s.lh := rfl
@[simp] theorem State.modHm_tap (f : HmSt → HmSt) : (s.modHm f).tap = s.tap := rfl
@[simp] theorem State.modHm_rst (f : HmSt → HmSt) : (s.modHm f).rst = s.rst := rfl
@[simp] theorem State.modHm_pending (f : HmSt → HmSt) : (s.modHm f).pending = s.pending := rfl
@[simp] theorem State.modHm_hm (f : HmSt → HmSt) : (s.modHm f).hm = f s.hm := rfl

/-! ## modLh -/

@[simp] theorem State.modLh_regs (f : LhSt → LhSt) : (s.modLh f).regs = s.regs := rfl
@[simp] theorem State.modLh_mem (f : LhSt → LhSt) : (s.modLh f).mem = s.mem := rfl
@[simp] theorem State.modLh_latch (f : LhSt → LhSt) : (s.modLh f).latch = s.latch := rfl
@[simp] theorem State.modLh_held (f : LhSt → LhSt) : (s.modLh f).held = s.held := rfl
@[simp] theorem State.modLh_mm (f : LhSt → LhSt) : (s.modLh f).mm = s.mm := rfl
@[simp] theorem State.modLh_access (f : LhSt → LhSt) : (s.modLh f).access = s.access := rfl
@[simp] theorem State.modLh_free (f : LhSt → LhSt) : (s.modLh f).free = s.free := rfl
@[simp] theorem State.modLh_time (f : LhSt → LhSt) : (s.modLh f).time = s.time := rfl
@[simp] theorem State.modLh_log (f : LhSt → LhSt) : (s.modLh f).log = s.log := rfl
@[simp] theorem State.modLh_tide (f : LhSt → LhSt) : (s.modLh f).tide = s.tide := rfl
@[simp] theorem State.modLh_hb (f : LhSt → LhSt) : (s.modLh f).hb = s.hb := rfl
@[simp] theorem State.modLh_sw (f : LhSt → LhSt) : (s.modLh f).sw = s.sw := rfl
@[simp] theorem State.modLh_port (f : LhSt → LhSt) : (s.modLh f).port = s.port := rfl
@[simp] theorem State.modLh_mdio (f : LhSt → LhSt) : (s.modLh f).mdio = s.mdio := rfl
@[simp] theorem State.modLh_qe (f : LhSt → LhSt) : (s.modLh f).qe = s.qe := rfl
@[simp] theorem State.modLh_fq (f : LhSt → LhSt) : (s.modLh f).fq = s.fq := rfl
@[simp] theorem State.modLh_txRR (f : LhSt → LhSt) : (s.modLh f).txRR = s.txRR := rfl
@[simp] theorem State.modLh_dma (f : LhSt → LhSt) : (s.modLh f).dma = s.dma := rfl
@[simp] theorem State.modLh_dreq (f : LhSt → LhSt) : (s.modLh f).dreq = s.dreq := rfl
@[simp] theorem State.modLh_can (f : LhSt → LhSt) : (s.modLh f).can = s.can := rfl
@[simp] theorem State.modLh_tt (f : LhSt → LhSt) : (s.modLh f).tt = s.tt := rfl
@[simp] theorem State.modLh_tickAt (f : LhSt → LhSt) : (s.modLh f).tickAt = s.tickAt := rfl
@[simp] theorem State.modLh_tickBegan (f : LhSt → LhSt) : (s.modLh f).tickBegan = s.tickBegan := rfl
@[simp] theorem State.modLh_ax (f : LhSt → LhSt) : (s.modLh f).ax = s.ax := rfl
@[simp] theorem State.modLh_grp (f : LhSt → LhSt) : (s.modLh f).grp = s.grp := rfl
@[simp] theorem State.modLh_chop (f : LhSt → LhSt) : (s.modLh f).chop = s.chop := rfl
@[simp] theorem State.modLh_enc (f : LhSt → LhSt) : (s.modLh f).enc = s.enc := rfl
@[simp] theorem State.modLh_adc (f : LhSt → LhSt) : (s.modLh f).adc = s.adc := rfl
@[simp] theorem State.modLh_mio (f : LhSt → LhSt) : (s.modLh f).mio = s.mio := rfl
@[simp] theorem State.modLh_pilot (f : LhSt → LhSt) : (s.modLh f).pilot = s.pilot := rfl
@[simp] theorem State.modLh_pset (f : LhSt → LhSt) : (s.modLh f).pset = s.pset := rfl
@[simp] theorem State.modLh_cw (f : LhSt → LhSt) : (s.modLh f).cw = s.cw := rfl
@[simp] theorem State.modLh_mb (f : LhSt → LhSt) : (s.modLh f).mb = s.mb := rfl
@[simp] theorem State.modLh_arrival (f : LhSt → LhSt) : (s.modLh f).arrival = s.arrival := rfl
@[simp] theorem State.modLh_hm (f : LhSt → LhSt) : (s.modLh f).hm = s.hm := rfl
@[simp] theorem State.modLh_nv (f : LhSt → LhSt) : (s.modLh f).nv = s.nv := rfl
@[simp] theorem State.modLh_tap (f : LhSt → LhSt) : (s.modLh f).tap = s.tap := rfl
@[simp] theorem State.modLh_rst (f : LhSt → LhSt) : (s.modLh f).rst = s.rst := rfl
@[simp] theorem State.modLh_pending (f : LhSt → LhSt) : (s.modLh f).pending = s.pending := rfl
@[simp] theorem State.modLh_lh (f : LhSt → LhSt) : (s.modLh f).lh = f s.lh := rfl

/-! ## modRst -/

@[simp] theorem State.modRst_regs (f : RstSt → RstSt) : (s.modRst f).regs = s.regs := rfl
@[simp] theorem State.modRst_mem (f : RstSt → RstSt) : (s.modRst f).mem = s.mem := rfl
@[simp] theorem State.modRst_latch (f : RstSt → RstSt) : (s.modRst f).latch = s.latch := rfl
@[simp] theorem State.modRst_held (f : RstSt → RstSt) : (s.modRst f).held = s.held := rfl
@[simp] theorem State.modRst_mm (f : RstSt → RstSt) : (s.modRst f).mm = s.mm := rfl
@[simp] theorem State.modRst_access (f : RstSt → RstSt) : (s.modRst f).access = s.access := rfl
@[simp] theorem State.modRst_free (f : RstSt → RstSt) : (s.modRst f).free = s.free := rfl
@[simp] theorem State.modRst_time (f : RstSt → RstSt) : (s.modRst f).time = s.time := rfl
@[simp] theorem State.modRst_log (f : RstSt → RstSt) : (s.modRst f).log = s.log := rfl
@[simp] theorem State.modRst_tide (f : RstSt → RstSt) : (s.modRst f).tide = s.tide := rfl
@[simp] theorem State.modRst_hb (f : RstSt → RstSt) : (s.modRst f).hb = s.hb := rfl
@[simp] theorem State.modRst_sw (f : RstSt → RstSt) : (s.modRst f).sw = s.sw := rfl
@[simp] theorem State.modRst_port (f : RstSt → RstSt) : (s.modRst f).port = s.port := rfl
@[simp] theorem State.modRst_mdio (f : RstSt → RstSt) : (s.modRst f).mdio = s.mdio := rfl
@[simp] theorem State.modRst_qe (f : RstSt → RstSt) : (s.modRst f).qe = s.qe := rfl
@[simp] theorem State.modRst_fq (f : RstSt → RstSt) : (s.modRst f).fq = s.fq := rfl
@[simp] theorem State.modRst_txRR (f : RstSt → RstSt) : (s.modRst f).txRR = s.txRR := rfl
@[simp] theorem State.modRst_dma (f : RstSt → RstSt) : (s.modRst f).dma = s.dma := rfl
@[simp] theorem State.modRst_dreq (f : RstSt → RstSt) : (s.modRst f).dreq = s.dreq := rfl
@[simp] theorem State.modRst_can (f : RstSt → RstSt) : (s.modRst f).can = s.can := rfl
@[simp] theorem State.modRst_tt (f : RstSt → RstSt) : (s.modRst f).tt = s.tt := rfl
@[simp] theorem State.modRst_tickAt (f : RstSt → RstSt) : (s.modRst f).tickAt = s.tickAt := rfl
@[simp] theorem State.modRst_tickBegan (f : RstSt → RstSt) : (s.modRst f).tickBegan = s.tickBegan := rfl
@[simp] theorem State.modRst_ax (f : RstSt → RstSt) : (s.modRst f).ax = s.ax := rfl
@[simp] theorem State.modRst_grp (f : RstSt → RstSt) : (s.modRst f).grp = s.grp := rfl
@[simp] theorem State.modRst_chop (f : RstSt → RstSt) : (s.modRst f).chop = s.chop := rfl
@[simp] theorem State.modRst_enc (f : RstSt → RstSt) : (s.modRst f).enc = s.enc := rfl
@[simp] theorem State.modRst_adc (f : RstSt → RstSt) : (s.modRst f).adc = s.adc := rfl
@[simp] theorem State.modRst_mio (f : RstSt → RstSt) : (s.modRst f).mio = s.mio := rfl
@[simp] theorem State.modRst_pilot (f : RstSt → RstSt) : (s.modRst f).pilot = s.pilot := rfl
@[simp] theorem State.modRst_pset (f : RstSt → RstSt) : (s.modRst f).pset = s.pset := rfl
@[simp] theorem State.modRst_cw (f : RstSt → RstSt) : (s.modRst f).cw = s.cw := rfl
@[simp] theorem State.modRst_mb (f : RstSt → RstSt) : (s.modRst f).mb = s.mb := rfl
@[simp] theorem State.modRst_arrival (f : RstSt → RstSt) : (s.modRst f).arrival = s.arrival := rfl
@[simp] theorem State.modRst_hm (f : RstSt → RstSt) : (s.modRst f).hm = s.hm := rfl
@[simp] theorem State.modRst_nv (f : RstSt → RstSt) : (s.modRst f).nv = s.nv := rfl
@[simp] theorem State.modRst_lh (f : RstSt → RstSt) : (s.modRst f).lh = s.lh := rfl
@[simp] theorem State.modRst_tap (f : RstSt → RstSt) : (s.modRst f).tap = s.tap := rfl
@[simp] theorem State.modRst_pending (f : RstSt → RstSt) : (s.modRst f).pending = s.pending := rfl
@[simp] theorem State.modRst_rst (f : RstSt → RstSt) : (s.modRst f).rst = f s.rst := rfl

/-! ## modTap -/

@[simp] theorem State.modTap_regs (f : TapSt → TapSt) : (s.modTap f).regs = s.regs := rfl
@[simp] theorem State.modTap_mem (f : TapSt → TapSt) : (s.modTap f).mem = s.mem := rfl
@[simp] theorem State.modTap_latch (f : TapSt → TapSt) : (s.modTap f).latch = s.latch := rfl
@[simp] theorem State.modTap_held (f : TapSt → TapSt) : (s.modTap f).held = s.held := rfl
@[simp] theorem State.modTap_mm (f : TapSt → TapSt) : (s.modTap f).mm = s.mm := rfl
@[simp] theorem State.modTap_access (f : TapSt → TapSt) : (s.modTap f).access = s.access := rfl
@[simp] theorem State.modTap_free (f : TapSt → TapSt) : (s.modTap f).free = s.free := rfl
@[simp] theorem State.modTap_time (f : TapSt → TapSt) : (s.modTap f).time = s.time := rfl
@[simp] theorem State.modTap_log (f : TapSt → TapSt) : (s.modTap f).log = s.log := rfl
@[simp] theorem State.modTap_tide (f : TapSt → TapSt) : (s.modTap f).tide = s.tide := rfl
@[simp] theorem State.modTap_hb (f : TapSt → TapSt) : (s.modTap f).hb = s.hb := rfl
@[simp] theorem State.modTap_sw (f : TapSt → TapSt) : (s.modTap f).sw = s.sw := rfl
@[simp] theorem State.modTap_port (f : TapSt → TapSt) : (s.modTap f).port = s.port := rfl
@[simp] theorem State.modTap_mdio (f : TapSt → TapSt) : (s.modTap f).mdio = s.mdio := rfl
@[simp] theorem State.modTap_qe (f : TapSt → TapSt) : (s.modTap f).qe = s.qe := rfl
@[simp] theorem State.modTap_fq (f : TapSt → TapSt) : (s.modTap f).fq = s.fq := rfl
@[simp] theorem State.modTap_txRR (f : TapSt → TapSt) : (s.modTap f).txRR = s.txRR := rfl
@[simp] theorem State.modTap_dma (f : TapSt → TapSt) : (s.modTap f).dma = s.dma := rfl
@[simp] theorem State.modTap_dreq (f : TapSt → TapSt) : (s.modTap f).dreq = s.dreq := rfl
@[simp] theorem State.modTap_can (f : TapSt → TapSt) : (s.modTap f).can = s.can := rfl
@[simp] theorem State.modTap_tt (f : TapSt → TapSt) : (s.modTap f).tt = s.tt := rfl
@[simp] theorem State.modTap_tickAt (f : TapSt → TapSt) : (s.modTap f).tickAt = s.tickAt := rfl
@[simp] theorem State.modTap_tickBegan (f : TapSt → TapSt) : (s.modTap f).tickBegan = s.tickBegan := rfl
@[simp] theorem State.modTap_ax (f : TapSt → TapSt) : (s.modTap f).ax = s.ax := rfl
@[simp] theorem State.modTap_grp (f : TapSt → TapSt) : (s.modTap f).grp = s.grp := rfl
@[simp] theorem State.modTap_chop (f : TapSt → TapSt) : (s.modTap f).chop = s.chop := rfl
@[simp] theorem State.modTap_enc (f : TapSt → TapSt) : (s.modTap f).enc = s.enc := rfl
@[simp] theorem State.modTap_adc (f : TapSt → TapSt) : (s.modTap f).adc = s.adc := rfl
@[simp] theorem State.modTap_mio (f : TapSt → TapSt) : (s.modTap f).mio = s.mio := rfl
@[simp] theorem State.modTap_pilot (f : TapSt → TapSt) : (s.modTap f).pilot = s.pilot := rfl
@[simp] theorem State.modTap_pset (f : TapSt → TapSt) : (s.modTap f).pset = s.pset := rfl
@[simp] theorem State.modTap_cw (f : TapSt → TapSt) : (s.modTap f).cw = s.cw := rfl
@[simp] theorem State.modTap_mb (f : TapSt → TapSt) : (s.modTap f).mb = s.mb := rfl
@[simp] theorem State.modTap_arrival (f : TapSt → TapSt) : (s.modTap f).arrival = s.arrival := rfl
@[simp] theorem State.modTap_hm (f : TapSt → TapSt) : (s.modTap f).hm = s.hm := rfl
@[simp] theorem State.modTap_nv (f : TapSt → TapSt) : (s.modTap f).nv = s.nv := rfl
@[simp] theorem State.modTap_lh (f : TapSt → TapSt) : (s.modTap f).lh = s.lh := rfl
@[simp] theorem State.modTap_tap (f : TapSt → TapSt) : (s.modTap f).tap = f s.tap := rfl
@[simp] theorem State.modTap_pending (f : TapSt → TapSt) : (s.modTap f).pending = s.pending := rfl
@[simp] theorem State.modTap_rst (f : TapSt → TapSt) : (s.modTap f).rst = s.rst := rfl

/-! ## setHbHeld -/

@[simp] theorem State.setHbHeld_regs (n : Nat) (x : List HeldOp) : (s.setHbHeld n x).regs = s.regs := rfl
@[simp] theorem State.setHbHeld_mem (n : Nat) (x : List HeldOp) : (s.setHbHeld n x).mem = s.mem := rfl
@[simp] theorem State.setHbHeld_latch (n : Nat) (x : List HeldOp) : (s.setHbHeld n x).latch = s.latch := rfl
@[simp] theorem State.setHbHeld_held (n : Nat) (x : List HeldOp) : (s.setHbHeld n x).held = s.held := rfl
@[simp] theorem State.setHbHeld_mm (n : Nat) (x : List HeldOp) : (s.setHbHeld n x).mm = s.mm := rfl
@[simp] theorem State.setHbHeld_access (n : Nat) (x : List HeldOp) : (s.setHbHeld n x).access = s.access := rfl
@[simp] theorem State.setHbHeld_free (n : Nat) (x : List HeldOp) : (s.setHbHeld n x).free = s.free := rfl
@[simp] theorem State.setHbHeld_time (n : Nat) (x : List HeldOp) : (s.setHbHeld n x).time = s.time := rfl
@[simp] theorem State.setHbHeld_log (n : Nat) (x : List HeldOp) : (s.setHbHeld n x).log = s.log := rfl
@[simp] theorem State.setHbHeld_tide (n : Nat) (x : List HeldOp) : (s.setHbHeld n x).tide = s.tide := rfl
@[simp] theorem State.setHbHeld_sw (n : Nat) (x : List HeldOp) : (s.setHbHeld n x).sw = s.sw := rfl
@[simp] theorem State.setHbHeld_port (n : Nat) (x : List HeldOp) : (s.setHbHeld n x).port = s.port := rfl
@[simp] theorem State.setHbHeld_mdio (n : Nat) (x : List HeldOp) : (s.setHbHeld n x).mdio = s.mdio := rfl
@[simp] theorem State.setHbHeld_qe (n : Nat) (x : List HeldOp) : (s.setHbHeld n x).qe = s.qe := rfl
@[simp] theorem State.setHbHeld_fq (n : Nat) (x : List HeldOp) : (s.setHbHeld n x).fq = s.fq := rfl
@[simp] theorem State.setHbHeld_txRR (n : Nat) (x : List HeldOp) : (s.setHbHeld n x).txRR = s.txRR := rfl
@[simp] theorem State.setHbHeld_dma (n : Nat) (x : List HeldOp) : (s.setHbHeld n x).dma = s.dma := rfl
@[simp] theorem State.setHbHeld_dreq (n : Nat) (x : List HeldOp) : (s.setHbHeld n x).dreq = s.dreq := rfl
@[simp] theorem State.setHbHeld_can (n : Nat) (x : List HeldOp) : (s.setHbHeld n x).can = s.can := rfl
@[simp] theorem State.setHbHeld_tt (n : Nat) (x : List HeldOp) : (s.setHbHeld n x).tt = s.tt := rfl
@[simp] theorem State.setHbHeld_tickAt (n : Nat) (x : List HeldOp) : (s.setHbHeld n x).tickAt = s.tickAt := rfl
@[simp] theorem State.setHbHeld_tickBegan (n : Nat) (x : List HeldOp) : (s.setHbHeld n x).tickBegan = s.tickBegan := rfl
@[simp] theorem State.setHbHeld_ax (n : Nat) (x : List HeldOp) : (s.setHbHeld n x).ax = s.ax := rfl
@[simp] theorem State.setHbHeld_grp (n : Nat) (x : List HeldOp) : (s.setHbHeld n x).grp = s.grp := rfl
@[simp] theorem State.setHbHeld_chop (n : Nat) (x : List HeldOp) : (s.setHbHeld n x).chop = s.chop := rfl
@[simp] theorem State.setHbHeld_enc (n : Nat) (x : List HeldOp) : (s.setHbHeld n x).enc = s.enc := rfl
@[simp] theorem State.setHbHeld_adc (n : Nat) (x : List HeldOp) : (s.setHbHeld n x).adc = s.adc := rfl
@[simp] theorem State.setHbHeld_mio (n : Nat) (x : List HeldOp) : (s.setHbHeld n x).mio = s.mio := rfl
@[simp] theorem State.setHbHeld_pilot (n : Nat) (x : List HeldOp) : (s.setHbHeld n x).pilot = s.pilot := rfl
@[simp] theorem State.setHbHeld_pset (n : Nat) (x : List HeldOp) : (s.setHbHeld n x).pset = s.pset := rfl
@[simp] theorem State.setHbHeld_cw (n : Nat) (x : List HeldOp) : (s.setHbHeld n x).cw = s.cw := rfl
@[simp] theorem State.setHbHeld_mb (n : Nat) (x : List HeldOp) : (s.setHbHeld n x).mb = s.mb := rfl
@[simp] theorem State.setHbHeld_arrival (n : Nat) (x : List HeldOp) : (s.setHbHeld n x).arrival = s.arrival := rfl
@[simp] theorem State.setHbHeld_hm (n : Nat) (x : List HeldOp) : (s.setHbHeld n x).hm = s.hm := rfl
@[simp] theorem State.setHbHeld_nv (n : Nat) (x : List HeldOp) : (s.setHbHeld n x).nv = s.nv := rfl
@[simp] theorem State.setHbHeld_lh (n : Nat) (x : List HeldOp) : (s.setHbHeld n x).lh = s.lh := rfl
@[simp] theorem State.setHbHeld_tap (n : Nat) (x : List HeldOp) : (s.setHbHeld n x).tap = s.tap := rfl
@[simp] theorem State.setHbHeld_rst (n : Nat) (x : List HeldOp) : (s.setHbHeld n x).rst = s.rst := rfl
@[simp] theorem State.setHbHeld_pending (n : Nat) (x : List HeldOp) : (s.setHbHeld n x).pending = s.pending := rfl
@[simp] theorem State.setHbHeld_hb (n : Nat) (x : List HeldOp) : (s.setHbHeld n x).hb = tput (fun _ => []) s.hb n x := rfl

/-! ## setPort -/

@[simp] theorem State.setPort_regs (n : Nat) (x : PortSt) : (s.setPort n x).regs = s.regs := rfl
@[simp] theorem State.setPort_mem (n : Nat) (x : PortSt) : (s.setPort n x).mem = s.mem := rfl
@[simp] theorem State.setPort_latch (n : Nat) (x : PortSt) : (s.setPort n x).latch = s.latch := rfl
@[simp] theorem State.setPort_held (n : Nat) (x : PortSt) : (s.setPort n x).held = s.held := rfl
@[simp] theorem State.setPort_mm (n : Nat) (x : PortSt) : (s.setPort n x).mm = s.mm := rfl
@[simp] theorem State.setPort_access (n : Nat) (x : PortSt) : (s.setPort n x).access = s.access := rfl
@[simp] theorem State.setPort_free (n : Nat) (x : PortSt) : (s.setPort n x).free = s.free := rfl
@[simp] theorem State.setPort_time (n : Nat) (x : PortSt) : (s.setPort n x).time = s.time := rfl
@[simp] theorem State.setPort_log (n : Nat) (x : PortSt) : (s.setPort n x).log = s.log := rfl
@[simp] theorem State.setPort_tide (n : Nat) (x : PortSt) : (s.setPort n x).tide = s.tide := rfl
@[simp] theorem State.setPort_hb (n : Nat) (x : PortSt) : (s.setPort n x).hb = s.hb := rfl
@[simp] theorem State.setPort_sw (n : Nat) (x : PortSt) : (s.setPort n x).sw = s.sw := rfl
@[simp] theorem State.setPort_mdio (n : Nat) (x : PortSt) : (s.setPort n x).mdio = s.mdio := rfl
@[simp] theorem State.setPort_qe (n : Nat) (x : PortSt) : (s.setPort n x).qe = s.qe := rfl
@[simp] theorem State.setPort_fq (n : Nat) (x : PortSt) : (s.setPort n x).fq = s.fq := rfl
@[simp] theorem State.setPort_txRR (n : Nat) (x : PortSt) : (s.setPort n x).txRR = s.txRR := rfl
@[simp] theorem State.setPort_dma (n : Nat) (x : PortSt) : (s.setPort n x).dma = s.dma := rfl
@[simp] theorem State.setPort_dreq (n : Nat) (x : PortSt) : (s.setPort n x).dreq = s.dreq := rfl
@[simp] theorem State.setPort_can (n : Nat) (x : PortSt) : (s.setPort n x).can = s.can := rfl
@[simp] theorem State.setPort_tt (n : Nat) (x : PortSt) : (s.setPort n x).tt = s.tt := rfl
@[simp] theorem State.setPort_tickAt (n : Nat) (x : PortSt) : (s.setPort n x).tickAt = s.tickAt := rfl
@[simp] theorem State.setPort_tickBegan (n : Nat) (x : PortSt) : (s.setPort n x).tickBegan = s.tickBegan := rfl
@[simp] theorem State.setPort_ax (n : Nat) (x : PortSt) : (s.setPort n x).ax = s.ax := rfl
@[simp] theorem State.setPort_grp (n : Nat) (x : PortSt) : (s.setPort n x).grp = s.grp := rfl
@[simp] theorem State.setPort_chop (n : Nat) (x : PortSt) : (s.setPort n x).chop = s.chop := rfl
@[simp] theorem State.setPort_enc (n : Nat) (x : PortSt) : (s.setPort n x).enc = s.enc := rfl
@[simp] theorem State.setPort_adc (n : Nat) (x : PortSt) : (s.setPort n x).adc = s.adc := rfl
@[simp] theorem State.setPort_mio (n : Nat) (x : PortSt) : (s.setPort n x).mio = s.mio := rfl
@[simp] theorem State.setPort_pilot (n : Nat) (x : PortSt) : (s.setPort n x).pilot = s.pilot := rfl
@[simp] theorem State.setPort_pset (n : Nat) (x : PortSt) : (s.setPort n x).pset = s.pset := rfl
@[simp] theorem State.setPort_cw (n : Nat) (x : PortSt) : (s.setPort n x).cw = s.cw := rfl
@[simp] theorem State.setPort_mb (n : Nat) (x : PortSt) : (s.setPort n x).mb = s.mb := rfl
@[simp] theorem State.setPort_arrival (n : Nat) (x : PortSt) : (s.setPort n x).arrival = s.arrival := rfl
@[simp] theorem State.setPort_hm (n : Nat) (x : PortSt) : (s.setPort n x).hm = s.hm := rfl
@[simp] theorem State.setPort_nv (n : Nat) (x : PortSt) : (s.setPort n x).nv = s.nv := rfl
@[simp] theorem State.setPort_lh (n : Nat) (x : PortSt) : (s.setPort n x).lh = s.lh := rfl
@[simp] theorem State.setPort_tap (n : Nat) (x : PortSt) : (s.setPort n x).tap = s.tap := rfl
@[simp] theorem State.setPort_rst (n : Nat) (x : PortSt) : (s.setPort n x).rst = s.rst := rfl
@[simp] theorem State.setPort_pending (n : Nat) (x : PortSt) : (s.setPort n x).pending = s.pending := rfl
@[simp] theorem State.setPort_port (n : Nat) (x : PortSt) : (s.setPort n x).port = tput (fun _ => {}) s.port n x := rfl

/-! ## setQe -/

@[simp] theorem State.setQe_regs (n : Nat) (x : QeSt) : (s.setQe n x).regs = s.regs := rfl
@[simp] theorem State.setQe_mem (n : Nat) (x : QeSt) : (s.setQe n x).mem = s.mem := rfl
@[simp] theorem State.setQe_latch (n : Nat) (x : QeSt) : (s.setQe n x).latch = s.latch := rfl
@[simp] theorem State.setQe_held (n : Nat) (x : QeSt) : (s.setQe n x).held = s.held := rfl
@[simp] theorem State.setQe_mm (n : Nat) (x : QeSt) : (s.setQe n x).mm = s.mm := rfl
@[simp] theorem State.setQe_access (n : Nat) (x : QeSt) : (s.setQe n x).access = s.access := rfl
@[simp] theorem State.setQe_free (n : Nat) (x : QeSt) : (s.setQe n x).free = s.free := rfl
@[simp] theorem State.setQe_time (n : Nat) (x : QeSt) : (s.setQe n x).time = s.time := rfl
@[simp] theorem State.setQe_log (n : Nat) (x : QeSt) : (s.setQe n x).log = s.log := rfl
@[simp] theorem State.setQe_tide (n : Nat) (x : QeSt) : (s.setQe n x).tide = s.tide := rfl
@[simp] theorem State.setQe_hb (n : Nat) (x : QeSt) : (s.setQe n x).hb = s.hb := rfl
@[simp] theorem State.setQe_sw (n : Nat) (x : QeSt) : (s.setQe n x).sw = s.sw := rfl
@[simp] theorem State.setQe_port (n : Nat) (x : QeSt) : (s.setQe n x).port = s.port := rfl
@[simp] theorem State.setQe_mdio (n : Nat) (x : QeSt) : (s.setQe n x).mdio = s.mdio := rfl
@[simp] theorem State.setQe_fq (n : Nat) (x : QeSt) : (s.setQe n x).fq = s.fq := rfl
@[simp] theorem State.setQe_txRR (n : Nat) (x : QeSt) : (s.setQe n x).txRR = s.txRR := rfl
@[simp] theorem State.setQe_dma (n : Nat) (x : QeSt) : (s.setQe n x).dma = s.dma := rfl
@[simp] theorem State.setQe_dreq (n : Nat) (x : QeSt) : (s.setQe n x).dreq = s.dreq := rfl
@[simp] theorem State.setQe_can (n : Nat) (x : QeSt) : (s.setQe n x).can = s.can := rfl
@[simp] theorem State.setQe_tt (n : Nat) (x : QeSt) : (s.setQe n x).tt = s.tt := rfl
@[simp] theorem State.setQe_tickAt (n : Nat) (x : QeSt) : (s.setQe n x).tickAt = s.tickAt := rfl
@[simp] theorem State.setQe_tickBegan (n : Nat) (x : QeSt) : (s.setQe n x).tickBegan = s.tickBegan := rfl
@[simp] theorem State.setQe_ax (n : Nat) (x : QeSt) : (s.setQe n x).ax = s.ax := rfl
@[simp] theorem State.setQe_grp (n : Nat) (x : QeSt) : (s.setQe n x).grp = s.grp := rfl
@[simp] theorem State.setQe_chop (n : Nat) (x : QeSt) : (s.setQe n x).chop = s.chop := rfl
@[simp] theorem State.setQe_enc (n : Nat) (x : QeSt) : (s.setQe n x).enc = s.enc := rfl
@[simp] theorem State.setQe_adc (n : Nat) (x : QeSt) : (s.setQe n x).adc = s.adc := rfl
@[simp] theorem State.setQe_mio (n : Nat) (x : QeSt) : (s.setQe n x).mio = s.mio := rfl
@[simp] theorem State.setQe_pilot (n : Nat) (x : QeSt) : (s.setQe n x).pilot = s.pilot := rfl
@[simp] theorem State.setQe_pset (n : Nat) (x : QeSt) : (s.setQe n x).pset = s.pset := rfl
@[simp] theorem State.setQe_cw (n : Nat) (x : QeSt) : (s.setQe n x).cw = s.cw := rfl
@[simp] theorem State.setQe_mb (n : Nat) (x : QeSt) : (s.setQe n x).mb = s.mb := rfl
@[simp] theorem State.setQe_arrival (n : Nat) (x : QeSt) : (s.setQe n x).arrival = s.arrival := rfl
@[simp] theorem State.setQe_hm (n : Nat) (x : QeSt) : (s.setQe n x).hm = s.hm := rfl
@[simp] theorem State.setQe_nv (n : Nat) (x : QeSt) : (s.setQe n x).nv = s.nv := rfl
@[simp] theorem State.setQe_lh (n : Nat) (x : QeSt) : (s.setQe n x).lh = s.lh := rfl
@[simp] theorem State.setQe_tap (n : Nat) (x : QeSt) : (s.setQe n x).tap = s.tap := rfl
@[simp] theorem State.setQe_rst (n : Nat) (x : QeSt) : (s.setQe n x).rst = s.rst := rfl
@[simp] theorem State.setQe_pending (n : Nat) (x : QeSt) : (s.setQe n x).pending = s.pending := rfl
@[simp] theorem State.setQe_qe (n : Nat) (x : QeSt) : (s.setQe n x).qe = tput (fun _ => {}) s.qe n x := rfl

/-! ## setFq -/

@[simp] theorem State.setFq_regs (n : Nat) (x : FqSt) : (s.setFq n x).regs = s.regs := rfl
@[simp] theorem State.setFq_mem (n : Nat) (x : FqSt) : (s.setFq n x).mem = s.mem := rfl
@[simp] theorem State.setFq_latch (n : Nat) (x : FqSt) : (s.setFq n x).latch = s.latch := rfl
@[simp] theorem State.setFq_held (n : Nat) (x : FqSt) : (s.setFq n x).held = s.held := rfl
@[simp] theorem State.setFq_mm (n : Nat) (x : FqSt) : (s.setFq n x).mm = s.mm := rfl
@[simp] theorem State.setFq_access (n : Nat) (x : FqSt) : (s.setFq n x).access = s.access := rfl
@[simp] theorem State.setFq_free (n : Nat) (x : FqSt) : (s.setFq n x).free = s.free := rfl
@[simp] theorem State.setFq_time (n : Nat) (x : FqSt) : (s.setFq n x).time = s.time := rfl
@[simp] theorem State.setFq_log (n : Nat) (x : FqSt) : (s.setFq n x).log = s.log := rfl
@[simp] theorem State.setFq_tide (n : Nat) (x : FqSt) : (s.setFq n x).tide = s.tide := rfl
@[simp] theorem State.setFq_hb (n : Nat) (x : FqSt) : (s.setFq n x).hb = s.hb := rfl
@[simp] theorem State.setFq_sw (n : Nat) (x : FqSt) : (s.setFq n x).sw = s.sw := rfl
@[simp] theorem State.setFq_port (n : Nat) (x : FqSt) : (s.setFq n x).port = s.port := rfl
@[simp] theorem State.setFq_mdio (n : Nat) (x : FqSt) : (s.setFq n x).mdio = s.mdio := rfl
@[simp] theorem State.setFq_qe (n : Nat) (x : FqSt) : (s.setFq n x).qe = s.qe := rfl
@[simp] theorem State.setFq_txRR (n : Nat) (x : FqSt) : (s.setFq n x).txRR = s.txRR := rfl
@[simp] theorem State.setFq_dma (n : Nat) (x : FqSt) : (s.setFq n x).dma = s.dma := rfl
@[simp] theorem State.setFq_dreq (n : Nat) (x : FqSt) : (s.setFq n x).dreq = s.dreq := rfl
@[simp] theorem State.setFq_can (n : Nat) (x : FqSt) : (s.setFq n x).can = s.can := rfl
@[simp] theorem State.setFq_tt (n : Nat) (x : FqSt) : (s.setFq n x).tt = s.tt := rfl
@[simp] theorem State.setFq_tickAt (n : Nat) (x : FqSt) : (s.setFq n x).tickAt = s.tickAt := rfl
@[simp] theorem State.setFq_tickBegan (n : Nat) (x : FqSt) : (s.setFq n x).tickBegan = s.tickBegan := rfl
@[simp] theorem State.setFq_ax (n : Nat) (x : FqSt) : (s.setFq n x).ax = s.ax := rfl
@[simp] theorem State.setFq_grp (n : Nat) (x : FqSt) : (s.setFq n x).grp = s.grp := rfl
@[simp] theorem State.setFq_chop (n : Nat) (x : FqSt) : (s.setFq n x).chop = s.chop := rfl
@[simp] theorem State.setFq_enc (n : Nat) (x : FqSt) : (s.setFq n x).enc = s.enc := rfl
@[simp] theorem State.setFq_adc (n : Nat) (x : FqSt) : (s.setFq n x).adc = s.adc := rfl
@[simp] theorem State.setFq_mio (n : Nat) (x : FqSt) : (s.setFq n x).mio = s.mio := rfl
@[simp] theorem State.setFq_pilot (n : Nat) (x : FqSt) : (s.setFq n x).pilot = s.pilot := rfl
@[simp] theorem State.setFq_pset (n : Nat) (x : FqSt) : (s.setFq n x).pset = s.pset := rfl
@[simp] theorem State.setFq_cw (n : Nat) (x : FqSt) : (s.setFq n x).cw = s.cw := rfl
@[simp] theorem State.setFq_mb (n : Nat) (x : FqSt) : (s.setFq n x).mb = s.mb := rfl
@[simp] theorem State.setFq_arrival (n : Nat) (x : FqSt) : (s.setFq n x).arrival = s.arrival := rfl
@[simp] theorem State.setFq_hm (n : Nat) (x : FqSt) : (s.setFq n x).hm = s.hm := rfl
@[simp] theorem State.setFq_nv (n : Nat) (x : FqSt) : (s.setFq n x).nv = s.nv := rfl
@[simp] theorem State.setFq_lh (n : Nat) (x : FqSt) : (s.setFq n x).lh = s.lh := rfl
@[simp] theorem State.setFq_tap (n : Nat) (x : FqSt) : (s.setFq n x).tap = s.tap := rfl
@[simp] theorem State.setFq_rst (n : Nat) (x : FqSt) : (s.setFq n x).rst = s.rst := rfl
@[simp] theorem State.setFq_pending (n : Nat) (x : FqSt) : (s.setFq n x).pending = s.pending := rfl
@[simp] theorem State.setFq_fq (n : Nat) (x : FqSt) : (s.setFq n x).fq = tput (fun _ => {}) s.fq n x := rfl

/-! ## setDma -/

@[simp] theorem State.setDma_regs (n : Nat) (x : DmaSt) : (s.setDma n x).regs = s.regs := rfl
@[simp] theorem State.setDma_mem (n : Nat) (x : DmaSt) : (s.setDma n x).mem = s.mem := rfl
@[simp] theorem State.setDma_latch (n : Nat) (x : DmaSt) : (s.setDma n x).latch = s.latch := rfl
@[simp] theorem State.setDma_held (n : Nat) (x : DmaSt) : (s.setDma n x).held = s.held := rfl
@[simp] theorem State.setDma_mm (n : Nat) (x : DmaSt) : (s.setDma n x).mm = s.mm := rfl
@[simp] theorem State.setDma_access (n : Nat) (x : DmaSt) : (s.setDma n x).access = s.access := rfl
@[simp] theorem State.setDma_free (n : Nat) (x : DmaSt) : (s.setDma n x).free = s.free := rfl
@[simp] theorem State.setDma_time (n : Nat) (x : DmaSt) : (s.setDma n x).time = s.time := rfl
@[simp] theorem State.setDma_log (n : Nat) (x : DmaSt) : (s.setDma n x).log = s.log := rfl
@[simp] theorem State.setDma_tide (n : Nat) (x : DmaSt) : (s.setDma n x).tide = s.tide := rfl
@[simp] theorem State.setDma_hb (n : Nat) (x : DmaSt) : (s.setDma n x).hb = s.hb := rfl
@[simp] theorem State.setDma_sw (n : Nat) (x : DmaSt) : (s.setDma n x).sw = s.sw := rfl
@[simp] theorem State.setDma_port (n : Nat) (x : DmaSt) : (s.setDma n x).port = s.port := rfl
@[simp] theorem State.setDma_mdio (n : Nat) (x : DmaSt) : (s.setDma n x).mdio = s.mdio := rfl
@[simp] theorem State.setDma_qe (n : Nat) (x : DmaSt) : (s.setDma n x).qe = s.qe := rfl
@[simp] theorem State.setDma_fq (n : Nat) (x : DmaSt) : (s.setDma n x).fq = s.fq := rfl
@[simp] theorem State.setDma_txRR (n : Nat) (x : DmaSt) : (s.setDma n x).txRR = s.txRR := rfl
@[simp] theorem State.setDma_dreq (n : Nat) (x : DmaSt) : (s.setDma n x).dreq = s.dreq := rfl
@[simp] theorem State.setDma_can (n : Nat) (x : DmaSt) : (s.setDma n x).can = s.can := rfl
@[simp] theorem State.setDma_tt (n : Nat) (x : DmaSt) : (s.setDma n x).tt = s.tt := rfl
@[simp] theorem State.setDma_tickAt (n : Nat) (x : DmaSt) : (s.setDma n x).tickAt = s.tickAt := rfl
@[simp] theorem State.setDma_tickBegan (n : Nat) (x : DmaSt) : (s.setDma n x).tickBegan = s.tickBegan := rfl
@[simp] theorem State.setDma_ax (n : Nat) (x : DmaSt) : (s.setDma n x).ax = s.ax := rfl
@[simp] theorem State.setDma_grp (n : Nat) (x : DmaSt) : (s.setDma n x).grp = s.grp := rfl
@[simp] theorem State.setDma_chop (n : Nat) (x : DmaSt) : (s.setDma n x).chop = s.chop := rfl
@[simp] theorem State.setDma_enc (n : Nat) (x : DmaSt) : (s.setDma n x).enc = s.enc := rfl
@[simp] theorem State.setDma_adc (n : Nat) (x : DmaSt) : (s.setDma n x).adc = s.adc := rfl
@[simp] theorem State.setDma_mio (n : Nat) (x : DmaSt) : (s.setDma n x).mio = s.mio := rfl
@[simp] theorem State.setDma_pilot (n : Nat) (x : DmaSt) : (s.setDma n x).pilot = s.pilot := rfl
@[simp] theorem State.setDma_pset (n : Nat) (x : DmaSt) : (s.setDma n x).pset = s.pset := rfl
@[simp] theorem State.setDma_cw (n : Nat) (x : DmaSt) : (s.setDma n x).cw = s.cw := rfl
@[simp] theorem State.setDma_mb (n : Nat) (x : DmaSt) : (s.setDma n x).mb = s.mb := rfl
@[simp] theorem State.setDma_arrival (n : Nat) (x : DmaSt) : (s.setDma n x).arrival = s.arrival := rfl
@[simp] theorem State.setDma_hm (n : Nat) (x : DmaSt) : (s.setDma n x).hm = s.hm := rfl
@[simp] theorem State.setDma_nv (n : Nat) (x : DmaSt) : (s.setDma n x).nv = s.nv := rfl
@[simp] theorem State.setDma_lh (n : Nat) (x : DmaSt) : (s.setDma n x).lh = s.lh := rfl
@[simp] theorem State.setDma_tap (n : Nat) (x : DmaSt) : (s.setDma n x).tap = s.tap := rfl
@[simp] theorem State.setDma_rst (n : Nat) (x : DmaSt) : (s.setDma n x).rst = s.rst := rfl
@[simp] theorem State.setDma_pending (n : Nat) (x : DmaSt) : (s.setDma n x).pending = s.pending := rfl
@[simp] theorem State.setDma_dma (n : Nat) (x : DmaSt) : (s.setDma n x).dma = tput (fun _ => {}) s.dma n x := rfl

/-! ## setCan -/

@[simp] theorem State.setCan_regs (n : Nat) (x : CanSt) : (s.setCan n x).regs = s.regs := rfl
@[simp] theorem State.setCan_mem (n : Nat) (x : CanSt) : (s.setCan n x).mem = s.mem := rfl
@[simp] theorem State.setCan_latch (n : Nat) (x : CanSt) : (s.setCan n x).latch = s.latch := rfl
@[simp] theorem State.setCan_held (n : Nat) (x : CanSt) : (s.setCan n x).held = s.held := rfl
@[simp] theorem State.setCan_mm (n : Nat) (x : CanSt) : (s.setCan n x).mm = s.mm := rfl
@[simp] theorem State.setCan_access (n : Nat) (x : CanSt) : (s.setCan n x).access = s.access := rfl
@[simp] theorem State.setCan_free (n : Nat) (x : CanSt) : (s.setCan n x).free = s.free := rfl
@[simp] theorem State.setCan_time (n : Nat) (x : CanSt) : (s.setCan n x).time = s.time := rfl
@[simp] theorem State.setCan_log (n : Nat) (x : CanSt) : (s.setCan n x).log = s.log := rfl
@[simp] theorem State.setCan_tide (n : Nat) (x : CanSt) : (s.setCan n x).tide = s.tide := rfl
@[simp] theorem State.setCan_hb (n : Nat) (x : CanSt) : (s.setCan n x).hb = s.hb := rfl
@[simp] theorem State.setCan_sw (n : Nat) (x : CanSt) : (s.setCan n x).sw = s.sw := rfl
@[simp] theorem State.setCan_port (n : Nat) (x : CanSt) : (s.setCan n x).port = s.port := rfl
@[simp] theorem State.setCan_mdio (n : Nat) (x : CanSt) : (s.setCan n x).mdio = s.mdio := rfl
@[simp] theorem State.setCan_qe (n : Nat) (x : CanSt) : (s.setCan n x).qe = s.qe := rfl
@[simp] theorem State.setCan_fq (n : Nat) (x : CanSt) : (s.setCan n x).fq = s.fq := rfl
@[simp] theorem State.setCan_txRR (n : Nat) (x : CanSt) : (s.setCan n x).txRR = s.txRR := rfl
@[simp] theorem State.setCan_dma (n : Nat) (x : CanSt) : (s.setCan n x).dma = s.dma := rfl
@[simp] theorem State.setCan_dreq (n : Nat) (x : CanSt) : (s.setCan n x).dreq = s.dreq := rfl
@[simp] theorem State.setCan_tt (n : Nat) (x : CanSt) : (s.setCan n x).tt = s.tt := rfl
@[simp] theorem State.setCan_tickAt (n : Nat) (x : CanSt) : (s.setCan n x).tickAt = s.tickAt := rfl
@[simp] theorem State.setCan_tickBegan (n : Nat) (x : CanSt) : (s.setCan n x).tickBegan = s.tickBegan := rfl
@[simp] theorem State.setCan_ax (n : Nat) (x : CanSt) : (s.setCan n x).ax = s.ax := rfl
@[simp] theorem State.setCan_grp (n : Nat) (x : CanSt) : (s.setCan n x).grp = s.grp := rfl
@[simp] theorem State.setCan_chop (n : Nat) (x : CanSt) : (s.setCan n x).chop = s.chop := rfl
@[simp] theorem State.setCan_enc (n : Nat) (x : CanSt) : (s.setCan n x).enc = s.enc := rfl
@[simp] theorem State.setCan_adc (n : Nat) (x : CanSt) : (s.setCan n x).adc = s.adc := rfl
@[simp] theorem State.setCan_mio (n : Nat) (x : CanSt) : (s.setCan n x).mio = s.mio := rfl
@[simp] theorem State.setCan_pilot (n : Nat) (x : CanSt) : (s.setCan n x).pilot = s.pilot := rfl
@[simp] theorem State.setCan_pset (n : Nat) (x : CanSt) : (s.setCan n x).pset = s.pset := rfl
@[simp] theorem State.setCan_cw (n : Nat) (x : CanSt) : (s.setCan n x).cw = s.cw := rfl
@[simp] theorem State.setCan_mb (n : Nat) (x : CanSt) : (s.setCan n x).mb = s.mb := rfl
@[simp] theorem State.setCan_arrival (n : Nat) (x : CanSt) : (s.setCan n x).arrival = s.arrival := rfl
@[simp] theorem State.setCan_hm (n : Nat) (x : CanSt) : (s.setCan n x).hm = s.hm := rfl
@[simp] theorem State.setCan_nv (n : Nat) (x : CanSt) : (s.setCan n x).nv = s.nv := rfl
@[simp] theorem State.setCan_lh (n : Nat) (x : CanSt) : (s.setCan n x).lh = s.lh := rfl
@[simp] theorem State.setCan_tap (n : Nat) (x : CanSt) : (s.setCan n x).tap = s.tap := rfl
@[simp] theorem State.setCan_rst (n : Nat) (x : CanSt) : (s.setCan n x).rst = s.rst := rfl
@[simp] theorem State.setCan_pending (n : Nat) (x : CanSt) : (s.setCan n x).pending = s.pending := rfl
@[simp] theorem State.setCan_can (n : Nat) (x : CanSt) : (s.setCan n x).can = tput (fun _ => {}) s.can n x := rfl

/-! ## setAx -/

@[simp] theorem State.setAx_regs (n : Nat) (x : AxSt) : (s.setAx n x).regs = s.regs := rfl
@[simp] theorem State.setAx_mem (n : Nat) (x : AxSt) : (s.setAx n x).mem = s.mem := rfl
@[simp] theorem State.setAx_latch (n : Nat) (x : AxSt) : (s.setAx n x).latch = s.latch := rfl
@[simp] theorem State.setAx_held (n : Nat) (x : AxSt) : (s.setAx n x).held = s.held := rfl
@[simp] theorem State.setAx_mm (n : Nat) (x : AxSt) : (s.setAx n x).mm = s.mm := rfl
@[simp] theorem State.setAx_access (n : Nat) (x : AxSt) : (s.setAx n x).access = s.access := rfl
@[simp] theorem State.setAx_free (n : Nat) (x : AxSt) : (s.setAx n x).free = s.free := rfl
@[simp] theorem State.setAx_time (n : Nat) (x : AxSt) : (s.setAx n x).time = s.time := rfl
@[simp] theorem State.setAx_log (n : Nat) (x : AxSt) : (s.setAx n x).log = s.log := rfl
@[simp] theorem State.setAx_tide (n : Nat) (x : AxSt) : (s.setAx n x).tide = s.tide := rfl
@[simp] theorem State.setAx_hb (n : Nat) (x : AxSt) : (s.setAx n x).hb = s.hb := rfl
@[simp] theorem State.setAx_sw (n : Nat) (x : AxSt) : (s.setAx n x).sw = s.sw := rfl
@[simp] theorem State.setAx_port (n : Nat) (x : AxSt) : (s.setAx n x).port = s.port := rfl
@[simp] theorem State.setAx_mdio (n : Nat) (x : AxSt) : (s.setAx n x).mdio = s.mdio := rfl
@[simp] theorem State.setAx_qe (n : Nat) (x : AxSt) : (s.setAx n x).qe = s.qe := rfl
@[simp] theorem State.setAx_fq (n : Nat) (x : AxSt) : (s.setAx n x).fq = s.fq := rfl
@[simp] theorem State.setAx_txRR (n : Nat) (x : AxSt) : (s.setAx n x).txRR = s.txRR := rfl
@[simp] theorem State.setAx_dma (n : Nat) (x : AxSt) : (s.setAx n x).dma = s.dma := rfl
@[simp] theorem State.setAx_dreq (n : Nat) (x : AxSt) : (s.setAx n x).dreq = s.dreq := rfl
@[simp] theorem State.setAx_can (n : Nat) (x : AxSt) : (s.setAx n x).can = s.can := rfl
@[simp] theorem State.setAx_tt (n : Nat) (x : AxSt) : (s.setAx n x).tt = s.tt := rfl
@[simp] theorem State.setAx_tickAt (n : Nat) (x : AxSt) : (s.setAx n x).tickAt = s.tickAt := rfl
@[simp] theorem State.setAx_tickBegan (n : Nat) (x : AxSt) : (s.setAx n x).tickBegan = s.tickBegan := rfl
@[simp] theorem State.setAx_grp (n : Nat) (x : AxSt) : (s.setAx n x).grp = s.grp := rfl
@[simp] theorem State.setAx_chop (n : Nat) (x : AxSt) : (s.setAx n x).chop = s.chop := rfl
@[simp] theorem State.setAx_enc (n : Nat) (x : AxSt) : (s.setAx n x).enc = s.enc := rfl
@[simp] theorem State.setAx_adc (n : Nat) (x : AxSt) : (s.setAx n x).adc = s.adc := rfl
@[simp] theorem State.setAx_mio (n : Nat) (x : AxSt) : (s.setAx n x).mio = s.mio := rfl
@[simp] theorem State.setAx_pilot (n : Nat) (x : AxSt) : (s.setAx n x).pilot = s.pilot := rfl
@[simp] theorem State.setAx_pset (n : Nat) (x : AxSt) : (s.setAx n x).pset = s.pset := rfl
@[simp] theorem State.setAx_cw (n : Nat) (x : AxSt) : (s.setAx n x).cw = s.cw := rfl
@[simp] theorem State.setAx_mb (n : Nat) (x : AxSt) : (s.setAx n x).mb = s.mb := rfl
@[simp] theorem State.setAx_arrival (n : Nat) (x : AxSt) : (s.setAx n x).arrival = s.arrival := rfl
@[simp] theorem State.setAx_hm (n : Nat) (x : AxSt) : (s.setAx n x).hm = s.hm := rfl
@[simp] theorem State.setAx_nv (n : Nat) (x : AxSt) : (s.setAx n x).nv = s.nv := rfl
@[simp] theorem State.setAx_lh (n : Nat) (x : AxSt) : (s.setAx n x).lh = s.lh := rfl
@[simp] theorem State.setAx_tap (n : Nat) (x : AxSt) : (s.setAx n x).tap = s.tap := rfl
@[simp] theorem State.setAx_rst (n : Nat) (x : AxSt) : (s.setAx n x).rst = s.rst := rfl
@[simp] theorem State.setAx_pending (n : Nat) (x : AxSt) : (s.setAx n x).pending = s.pending := rfl
@[simp] theorem State.setAx_ax (n : Nat) (x : AxSt) : (s.setAx n x).ax = tput (fun _ => {}) s.ax n x := rfl

/-! ## setGrp -/

@[simp] theorem State.setGrp_regs (n : Nat) (x : GrpSt) : (s.setGrp n x).regs = s.regs := rfl
@[simp] theorem State.setGrp_mem (n : Nat) (x : GrpSt) : (s.setGrp n x).mem = s.mem := rfl
@[simp] theorem State.setGrp_latch (n : Nat) (x : GrpSt) : (s.setGrp n x).latch = s.latch := rfl
@[simp] theorem State.setGrp_held (n : Nat) (x : GrpSt) : (s.setGrp n x).held = s.held := rfl
@[simp] theorem State.setGrp_mm (n : Nat) (x : GrpSt) : (s.setGrp n x).mm = s.mm := rfl
@[simp] theorem State.setGrp_access (n : Nat) (x : GrpSt) : (s.setGrp n x).access = s.access := rfl
@[simp] theorem State.setGrp_free (n : Nat) (x : GrpSt) : (s.setGrp n x).free = s.free := rfl
@[simp] theorem State.setGrp_time (n : Nat) (x : GrpSt) : (s.setGrp n x).time = s.time := rfl
@[simp] theorem State.setGrp_log (n : Nat) (x : GrpSt) : (s.setGrp n x).log = s.log := rfl
@[simp] theorem State.setGrp_tide (n : Nat) (x : GrpSt) : (s.setGrp n x).tide = s.tide := rfl
@[simp] theorem State.setGrp_hb (n : Nat) (x : GrpSt) : (s.setGrp n x).hb = s.hb := rfl
@[simp] theorem State.setGrp_sw (n : Nat) (x : GrpSt) : (s.setGrp n x).sw = s.sw := rfl
@[simp] theorem State.setGrp_port (n : Nat) (x : GrpSt) : (s.setGrp n x).port = s.port := rfl
@[simp] theorem State.setGrp_mdio (n : Nat) (x : GrpSt) : (s.setGrp n x).mdio = s.mdio := rfl
@[simp] theorem State.setGrp_qe (n : Nat) (x : GrpSt) : (s.setGrp n x).qe = s.qe := rfl
@[simp] theorem State.setGrp_fq (n : Nat) (x : GrpSt) : (s.setGrp n x).fq = s.fq := rfl
@[simp] theorem State.setGrp_txRR (n : Nat) (x : GrpSt) : (s.setGrp n x).txRR = s.txRR := rfl
@[simp] theorem State.setGrp_dma (n : Nat) (x : GrpSt) : (s.setGrp n x).dma = s.dma := rfl
@[simp] theorem State.setGrp_dreq (n : Nat) (x : GrpSt) : (s.setGrp n x).dreq = s.dreq := rfl
@[simp] theorem State.setGrp_can (n : Nat) (x : GrpSt) : (s.setGrp n x).can = s.can := rfl
@[simp] theorem State.setGrp_tt (n : Nat) (x : GrpSt) : (s.setGrp n x).tt = s.tt := rfl
@[simp] theorem State.setGrp_tickAt (n : Nat) (x : GrpSt) : (s.setGrp n x).tickAt = s.tickAt := rfl
@[simp] theorem State.setGrp_tickBegan (n : Nat) (x : GrpSt) : (s.setGrp n x).tickBegan = s.tickBegan := rfl
@[simp] theorem State.setGrp_ax (n : Nat) (x : GrpSt) : (s.setGrp n x).ax = s.ax := rfl
@[simp] theorem State.setGrp_chop (n : Nat) (x : GrpSt) : (s.setGrp n x).chop = s.chop := rfl
@[simp] theorem State.setGrp_enc (n : Nat) (x : GrpSt) : (s.setGrp n x).enc = s.enc := rfl
@[simp] theorem State.setGrp_adc (n : Nat) (x : GrpSt) : (s.setGrp n x).adc = s.adc := rfl
@[simp] theorem State.setGrp_mio (n : Nat) (x : GrpSt) : (s.setGrp n x).mio = s.mio := rfl
@[simp] theorem State.setGrp_pilot (n : Nat) (x : GrpSt) : (s.setGrp n x).pilot = s.pilot := rfl
@[simp] theorem State.setGrp_pset (n : Nat) (x : GrpSt) : (s.setGrp n x).pset = s.pset := rfl
@[simp] theorem State.setGrp_cw (n : Nat) (x : GrpSt) : (s.setGrp n x).cw = s.cw := rfl
@[simp] theorem State.setGrp_mb (n : Nat) (x : GrpSt) : (s.setGrp n x).mb = s.mb := rfl
@[simp] theorem State.setGrp_arrival (n : Nat) (x : GrpSt) : (s.setGrp n x).arrival = s.arrival := rfl
@[simp] theorem State.setGrp_hm (n : Nat) (x : GrpSt) : (s.setGrp n x).hm = s.hm := rfl
@[simp] theorem State.setGrp_nv (n : Nat) (x : GrpSt) : (s.setGrp n x).nv = s.nv := rfl
@[simp] theorem State.setGrp_lh (n : Nat) (x : GrpSt) : (s.setGrp n x).lh = s.lh := rfl
@[simp] theorem State.setGrp_tap (n : Nat) (x : GrpSt) : (s.setGrp n x).tap = s.tap := rfl
@[simp] theorem State.setGrp_rst (n : Nat) (x : GrpSt) : (s.setGrp n x).rst = s.rst := rfl
@[simp] theorem State.setGrp_pending (n : Nat) (x : GrpSt) : (s.setGrp n x).pending = s.pending := rfl
@[simp] theorem State.setGrp_grp (n : Nat) (x : GrpSt) : (s.setGrp n x).grp = tput (fun _ => {}) s.grp n x := rfl

/-! ## setChop -/

@[simp] theorem State.setChop_regs (n : Nat) (x : ChopSt) : (s.setChop n x).regs = s.regs := rfl
@[simp] theorem State.setChop_mem (n : Nat) (x : ChopSt) : (s.setChop n x).mem = s.mem := rfl
@[simp] theorem State.setChop_latch (n : Nat) (x : ChopSt) : (s.setChop n x).latch = s.latch := rfl
@[simp] theorem State.setChop_held (n : Nat) (x : ChopSt) : (s.setChop n x).held = s.held := rfl
@[simp] theorem State.setChop_mm (n : Nat) (x : ChopSt) : (s.setChop n x).mm = s.mm := rfl
@[simp] theorem State.setChop_access (n : Nat) (x : ChopSt) : (s.setChop n x).access = s.access := rfl
@[simp] theorem State.setChop_free (n : Nat) (x : ChopSt) : (s.setChop n x).free = s.free := rfl
@[simp] theorem State.setChop_time (n : Nat) (x : ChopSt) : (s.setChop n x).time = s.time := rfl
@[simp] theorem State.setChop_log (n : Nat) (x : ChopSt) : (s.setChop n x).log = s.log := rfl
@[simp] theorem State.setChop_tide (n : Nat) (x : ChopSt) : (s.setChop n x).tide = s.tide := rfl
@[simp] theorem State.setChop_hb (n : Nat) (x : ChopSt) : (s.setChop n x).hb = s.hb := rfl
@[simp] theorem State.setChop_sw (n : Nat) (x : ChopSt) : (s.setChop n x).sw = s.sw := rfl
@[simp] theorem State.setChop_port (n : Nat) (x : ChopSt) : (s.setChop n x).port = s.port := rfl
@[simp] theorem State.setChop_mdio (n : Nat) (x : ChopSt) : (s.setChop n x).mdio = s.mdio := rfl
@[simp] theorem State.setChop_qe (n : Nat) (x : ChopSt) : (s.setChop n x).qe = s.qe := rfl
@[simp] theorem State.setChop_fq (n : Nat) (x : ChopSt) : (s.setChop n x).fq = s.fq := rfl
@[simp] theorem State.setChop_txRR (n : Nat) (x : ChopSt) : (s.setChop n x).txRR = s.txRR := rfl
@[simp] theorem State.setChop_dma (n : Nat) (x : ChopSt) : (s.setChop n x).dma = s.dma := rfl
@[simp] theorem State.setChop_dreq (n : Nat) (x : ChopSt) : (s.setChop n x).dreq = s.dreq := rfl
@[simp] theorem State.setChop_can (n : Nat) (x : ChopSt) : (s.setChop n x).can = s.can := rfl
@[simp] theorem State.setChop_tt (n : Nat) (x : ChopSt) : (s.setChop n x).tt = s.tt := rfl
@[simp] theorem State.setChop_tickAt (n : Nat) (x : ChopSt) : (s.setChop n x).tickAt = s.tickAt := rfl
@[simp] theorem State.setChop_tickBegan (n : Nat) (x : ChopSt) : (s.setChop n x).tickBegan = s.tickBegan := rfl
@[simp] theorem State.setChop_ax (n : Nat) (x : ChopSt) : (s.setChop n x).ax = s.ax := rfl
@[simp] theorem State.setChop_grp (n : Nat) (x : ChopSt) : (s.setChop n x).grp = s.grp := rfl
@[simp] theorem State.setChop_enc (n : Nat) (x : ChopSt) : (s.setChop n x).enc = s.enc := rfl
@[simp] theorem State.setChop_adc (n : Nat) (x : ChopSt) : (s.setChop n x).adc = s.adc := rfl
@[simp] theorem State.setChop_mio (n : Nat) (x : ChopSt) : (s.setChop n x).mio = s.mio := rfl
@[simp] theorem State.setChop_pilot (n : Nat) (x : ChopSt) : (s.setChop n x).pilot = s.pilot := rfl
@[simp] theorem State.setChop_pset (n : Nat) (x : ChopSt) : (s.setChop n x).pset = s.pset := rfl
@[simp] theorem State.setChop_cw (n : Nat) (x : ChopSt) : (s.setChop n x).cw = s.cw := rfl
@[simp] theorem State.setChop_mb (n : Nat) (x : ChopSt) : (s.setChop n x).mb = s.mb := rfl
@[simp] theorem State.setChop_arrival (n : Nat) (x : ChopSt) : (s.setChop n x).arrival = s.arrival := rfl
@[simp] theorem State.setChop_hm (n : Nat) (x : ChopSt) : (s.setChop n x).hm = s.hm := rfl
@[simp] theorem State.setChop_nv (n : Nat) (x : ChopSt) : (s.setChop n x).nv = s.nv := rfl
@[simp] theorem State.setChop_lh (n : Nat) (x : ChopSt) : (s.setChop n x).lh = s.lh := rfl
@[simp] theorem State.setChop_tap (n : Nat) (x : ChopSt) : (s.setChop n x).tap = s.tap := rfl
@[simp] theorem State.setChop_rst (n : Nat) (x : ChopSt) : (s.setChop n x).rst = s.rst := rfl
@[simp] theorem State.setChop_pending (n : Nat) (x : ChopSt) : (s.setChop n x).pending = s.pending := rfl
@[simp] theorem State.setChop_chop (n : Nat) (x : ChopSt) : (s.setChop n x).chop = tput (fun _ => {}) s.chop n x := rfl

/-! ## setEnc -/

@[simp] theorem State.setEnc_regs (n : Nat) (x : EncSt) : (s.setEnc n x).regs = s.regs := rfl
@[simp] theorem State.setEnc_mem (n : Nat) (x : EncSt) : (s.setEnc n x).mem = s.mem := rfl
@[simp] theorem State.setEnc_latch (n : Nat) (x : EncSt) : (s.setEnc n x).latch = s.latch := rfl
@[simp] theorem State.setEnc_held (n : Nat) (x : EncSt) : (s.setEnc n x).held = s.held := rfl
@[simp] theorem State.setEnc_mm (n : Nat) (x : EncSt) : (s.setEnc n x).mm = s.mm := rfl
@[simp] theorem State.setEnc_access (n : Nat) (x : EncSt) : (s.setEnc n x).access = s.access := rfl
@[simp] theorem State.setEnc_free (n : Nat) (x : EncSt) : (s.setEnc n x).free = s.free := rfl
@[simp] theorem State.setEnc_time (n : Nat) (x : EncSt) : (s.setEnc n x).time = s.time := rfl
@[simp] theorem State.setEnc_log (n : Nat) (x : EncSt) : (s.setEnc n x).log = s.log := rfl
@[simp] theorem State.setEnc_tide (n : Nat) (x : EncSt) : (s.setEnc n x).tide = s.tide := rfl
@[simp] theorem State.setEnc_hb (n : Nat) (x : EncSt) : (s.setEnc n x).hb = s.hb := rfl
@[simp] theorem State.setEnc_sw (n : Nat) (x : EncSt) : (s.setEnc n x).sw = s.sw := rfl
@[simp] theorem State.setEnc_port (n : Nat) (x : EncSt) : (s.setEnc n x).port = s.port := rfl
@[simp] theorem State.setEnc_mdio (n : Nat) (x : EncSt) : (s.setEnc n x).mdio = s.mdio := rfl
@[simp] theorem State.setEnc_qe (n : Nat) (x : EncSt) : (s.setEnc n x).qe = s.qe := rfl
@[simp] theorem State.setEnc_fq (n : Nat) (x : EncSt) : (s.setEnc n x).fq = s.fq := rfl
@[simp] theorem State.setEnc_txRR (n : Nat) (x : EncSt) : (s.setEnc n x).txRR = s.txRR := rfl
@[simp] theorem State.setEnc_dma (n : Nat) (x : EncSt) : (s.setEnc n x).dma = s.dma := rfl
@[simp] theorem State.setEnc_dreq (n : Nat) (x : EncSt) : (s.setEnc n x).dreq = s.dreq := rfl
@[simp] theorem State.setEnc_can (n : Nat) (x : EncSt) : (s.setEnc n x).can = s.can := rfl
@[simp] theorem State.setEnc_tt (n : Nat) (x : EncSt) : (s.setEnc n x).tt = s.tt := rfl
@[simp] theorem State.setEnc_tickAt (n : Nat) (x : EncSt) : (s.setEnc n x).tickAt = s.tickAt := rfl
@[simp] theorem State.setEnc_tickBegan (n : Nat) (x : EncSt) : (s.setEnc n x).tickBegan = s.tickBegan := rfl
@[simp] theorem State.setEnc_ax (n : Nat) (x : EncSt) : (s.setEnc n x).ax = s.ax := rfl
@[simp] theorem State.setEnc_grp (n : Nat) (x : EncSt) : (s.setEnc n x).grp = s.grp := rfl
@[simp] theorem State.setEnc_chop (n : Nat) (x : EncSt) : (s.setEnc n x).chop = s.chop := rfl
@[simp] theorem State.setEnc_adc (n : Nat) (x : EncSt) : (s.setEnc n x).adc = s.adc := rfl
@[simp] theorem State.setEnc_mio (n : Nat) (x : EncSt) : (s.setEnc n x).mio = s.mio := rfl
@[simp] theorem State.setEnc_pilot (n : Nat) (x : EncSt) : (s.setEnc n x).pilot = s.pilot := rfl
@[simp] theorem State.setEnc_pset (n : Nat) (x : EncSt) : (s.setEnc n x).pset = s.pset := rfl
@[simp] theorem State.setEnc_cw (n : Nat) (x : EncSt) : (s.setEnc n x).cw = s.cw := rfl
@[simp] theorem State.setEnc_mb (n : Nat) (x : EncSt) : (s.setEnc n x).mb = s.mb := rfl
@[simp] theorem State.setEnc_arrival (n : Nat) (x : EncSt) : (s.setEnc n x).arrival = s.arrival := rfl
@[simp] theorem State.setEnc_hm (n : Nat) (x : EncSt) : (s.setEnc n x).hm = s.hm := rfl
@[simp] theorem State.setEnc_nv (n : Nat) (x : EncSt) : (s.setEnc n x).nv = s.nv := rfl
@[simp] theorem State.setEnc_lh (n : Nat) (x : EncSt) : (s.setEnc n x).lh = s.lh := rfl
@[simp] theorem State.setEnc_tap (n : Nat) (x : EncSt) : (s.setEnc n x).tap = s.tap := rfl
@[simp] theorem State.setEnc_rst (n : Nat) (x : EncSt) : (s.setEnc n x).rst = s.rst := rfl
@[simp] theorem State.setEnc_pending (n : Nat) (x : EncSt) : (s.setEnc n x).pending = s.pending := rfl
@[simp] theorem State.setEnc_enc (n : Nat) (x : EncSt) : (s.setEnc n x).enc = tput (fun _ => {}) s.enc n x := rfl

/-! ## setAdc -/

@[simp] theorem State.setAdc_regs (n : Nat) (x : AdcSt) : (s.setAdc n x).regs = s.regs := rfl
@[simp] theorem State.setAdc_mem (n : Nat) (x : AdcSt) : (s.setAdc n x).mem = s.mem := rfl
@[simp] theorem State.setAdc_latch (n : Nat) (x : AdcSt) : (s.setAdc n x).latch = s.latch := rfl
@[simp] theorem State.setAdc_held (n : Nat) (x : AdcSt) : (s.setAdc n x).held = s.held := rfl
@[simp] theorem State.setAdc_mm (n : Nat) (x : AdcSt) : (s.setAdc n x).mm = s.mm := rfl
@[simp] theorem State.setAdc_access (n : Nat) (x : AdcSt) : (s.setAdc n x).access = s.access := rfl
@[simp] theorem State.setAdc_free (n : Nat) (x : AdcSt) : (s.setAdc n x).free = s.free := rfl
@[simp] theorem State.setAdc_time (n : Nat) (x : AdcSt) : (s.setAdc n x).time = s.time := rfl
@[simp] theorem State.setAdc_log (n : Nat) (x : AdcSt) : (s.setAdc n x).log = s.log := rfl
@[simp] theorem State.setAdc_tide (n : Nat) (x : AdcSt) : (s.setAdc n x).tide = s.tide := rfl
@[simp] theorem State.setAdc_hb (n : Nat) (x : AdcSt) : (s.setAdc n x).hb = s.hb := rfl
@[simp] theorem State.setAdc_sw (n : Nat) (x : AdcSt) : (s.setAdc n x).sw = s.sw := rfl
@[simp] theorem State.setAdc_port (n : Nat) (x : AdcSt) : (s.setAdc n x).port = s.port := rfl
@[simp] theorem State.setAdc_mdio (n : Nat) (x : AdcSt) : (s.setAdc n x).mdio = s.mdio := rfl
@[simp] theorem State.setAdc_qe (n : Nat) (x : AdcSt) : (s.setAdc n x).qe = s.qe := rfl
@[simp] theorem State.setAdc_fq (n : Nat) (x : AdcSt) : (s.setAdc n x).fq = s.fq := rfl
@[simp] theorem State.setAdc_txRR (n : Nat) (x : AdcSt) : (s.setAdc n x).txRR = s.txRR := rfl
@[simp] theorem State.setAdc_dma (n : Nat) (x : AdcSt) : (s.setAdc n x).dma = s.dma := rfl
@[simp] theorem State.setAdc_dreq (n : Nat) (x : AdcSt) : (s.setAdc n x).dreq = s.dreq := rfl
@[simp] theorem State.setAdc_can (n : Nat) (x : AdcSt) : (s.setAdc n x).can = s.can := rfl
@[simp] theorem State.setAdc_tt (n : Nat) (x : AdcSt) : (s.setAdc n x).tt = s.tt := rfl
@[simp] theorem State.setAdc_tickAt (n : Nat) (x : AdcSt) : (s.setAdc n x).tickAt = s.tickAt := rfl
@[simp] theorem State.setAdc_tickBegan (n : Nat) (x : AdcSt) : (s.setAdc n x).tickBegan = s.tickBegan := rfl
@[simp] theorem State.setAdc_ax (n : Nat) (x : AdcSt) : (s.setAdc n x).ax = s.ax := rfl
@[simp] theorem State.setAdc_grp (n : Nat) (x : AdcSt) : (s.setAdc n x).grp = s.grp := rfl
@[simp] theorem State.setAdc_chop (n : Nat) (x : AdcSt) : (s.setAdc n x).chop = s.chop := rfl
@[simp] theorem State.setAdc_enc (n : Nat) (x : AdcSt) : (s.setAdc n x).enc = s.enc := rfl
@[simp] theorem State.setAdc_mio (n : Nat) (x : AdcSt) : (s.setAdc n x).mio = s.mio := rfl
@[simp] theorem State.setAdc_pilot (n : Nat) (x : AdcSt) : (s.setAdc n x).pilot = s.pilot := rfl
@[simp] theorem State.setAdc_pset (n : Nat) (x : AdcSt) : (s.setAdc n x).pset = s.pset := rfl
@[simp] theorem State.setAdc_cw (n : Nat) (x : AdcSt) : (s.setAdc n x).cw = s.cw := rfl
@[simp] theorem State.setAdc_mb (n : Nat) (x : AdcSt) : (s.setAdc n x).mb = s.mb := rfl
@[simp] theorem State.setAdc_arrival (n : Nat) (x : AdcSt) : (s.setAdc n x).arrival = s.arrival := rfl
@[simp] theorem State.setAdc_hm (n : Nat) (x : AdcSt) : (s.setAdc n x).hm = s.hm := rfl
@[simp] theorem State.setAdc_nv (n : Nat) (x : AdcSt) : (s.setAdc n x).nv = s.nv := rfl
@[simp] theorem State.setAdc_lh (n : Nat) (x : AdcSt) : (s.setAdc n x).lh = s.lh := rfl
@[simp] theorem State.setAdc_tap (n : Nat) (x : AdcSt) : (s.setAdc n x).tap = s.tap := rfl
@[simp] theorem State.setAdc_rst (n : Nat) (x : AdcSt) : (s.setAdc n x).rst = s.rst := rfl
@[simp] theorem State.setAdc_pending (n : Nat) (x : AdcSt) : (s.setAdc n x).pending = s.pending := rfl
@[simp] theorem State.setAdc_adc (n : Nat) (x : AdcSt) : (s.setAdc n x).adc = tput (fun _ => {}) s.adc n x := rfl

/-! ## setPilot -/

@[simp] theorem State.setPilot_regs (n : Nat) (x : PilotSt) : (s.setPilot n x).regs = s.regs := rfl
@[simp] theorem State.setPilot_mem (n : Nat) (x : PilotSt) : (s.setPilot n x).mem = s.mem := rfl
@[simp] theorem State.setPilot_latch (n : Nat) (x : PilotSt) : (s.setPilot n x).latch = s.latch := rfl
@[simp] theorem State.setPilot_held (n : Nat) (x : PilotSt) : (s.setPilot n x).held = s.held := rfl
@[simp] theorem State.setPilot_mm (n : Nat) (x : PilotSt) : (s.setPilot n x).mm = s.mm := rfl
@[simp] theorem State.setPilot_access (n : Nat) (x : PilotSt) : (s.setPilot n x).access = s.access := rfl
@[simp] theorem State.setPilot_free (n : Nat) (x : PilotSt) : (s.setPilot n x).free = s.free := rfl
@[simp] theorem State.setPilot_time (n : Nat) (x : PilotSt) : (s.setPilot n x).time = s.time := rfl
@[simp] theorem State.setPilot_log (n : Nat) (x : PilotSt) : (s.setPilot n x).log = s.log := rfl
@[simp] theorem State.setPilot_tide (n : Nat) (x : PilotSt) : (s.setPilot n x).tide = s.tide := rfl
@[simp] theorem State.setPilot_hb (n : Nat) (x : PilotSt) : (s.setPilot n x).hb = s.hb := rfl
@[simp] theorem State.setPilot_sw (n : Nat) (x : PilotSt) : (s.setPilot n x).sw = s.sw := rfl
@[simp] theorem State.setPilot_port (n : Nat) (x : PilotSt) : (s.setPilot n x).port = s.port := rfl
@[simp] theorem State.setPilot_mdio (n : Nat) (x : PilotSt) : (s.setPilot n x).mdio = s.mdio := rfl
@[simp] theorem State.setPilot_qe (n : Nat) (x : PilotSt) : (s.setPilot n x).qe = s.qe := rfl
@[simp] theorem State.setPilot_fq (n : Nat) (x : PilotSt) : (s.setPilot n x).fq = s.fq := rfl
@[simp] theorem State.setPilot_txRR (n : Nat) (x : PilotSt) : (s.setPilot n x).txRR = s.txRR := rfl
@[simp] theorem State.setPilot_dma (n : Nat) (x : PilotSt) : (s.setPilot n x).dma = s.dma := rfl
@[simp] theorem State.setPilot_dreq (n : Nat) (x : PilotSt) : (s.setPilot n x).dreq = s.dreq := rfl
@[simp] theorem State.setPilot_can (n : Nat) (x : PilotSt) : (s.setPilot n x).can = s.can := rfl
@[simp] theorem State.setPilot_tt (n : Nat) (x : PilotSt) : (s.setPilot n x).tt = s.tt := rfl
@[simp] theorem State.setPilot_tickAt (n : Nat) (x : PilotSt) : (s.setPilot n x).tickAt = s.tickAt := rfl
@[simp] theorem State.setPilot_tickBegan (n : Nat) (x : PilotSt) : (s.setPilot n x).tickBegan = s.tickBegan := rfl
@[simp] theorem State.setPilot_ax (n : Nat) (x : PilotSt) : (s.setPilot n x).ax = s.ax := rfl
@[simp] theorem State.setPilot_grp (n : Nat) (x : PilotSt) : (s.setPilot n x).grp = s.grp := rfl
@[simp] theorem State.setPilot_chop (n : Nat) (x : PilotSt) : (s.setPilot n x).chop = s.chop := rfl
@[simp] theorem State.setPilot_enc (n : Nat) (x : PilotSt) : (s.setPilot n x).enc = s.enc := rfl
@[simp] theorem State.setPilot_adc (n : Nat) (x : PilotSt) : (s.setPilot n x).adc = s.adc := rfl
@[simp] theorem State.setPilot_mio (n : Nat) (x : PilotSt) : (s.setPilot n x).mio = s.mio := rfl
@[simp] theorem State.setPilot_pset (n : Nat) (x : PilotSt) : (s.setPilot n x).pset = s.pset := rfl
@[simp] theorem State.setPilot_cw (n : Nat) (x : PilotSt) : (s.setPilot n x).cw = s.cw := rfl
@[simp] theorem State.setPilot_mb (n : Nat) (x : PilotSt) : (s.setPilot n x).mb = s.mb := rfl
@[simp] theorem State.setPilot_arrival (n : Nat) (x : PilotSt) : (s.setPilot n x).arrival = s.arrival := rfl
@[simp] theorem State.setPilot_hm (n : Nat) (x : PilotSt) : (s.setPilot n x).hm = s.hm := rfl
@[simp] theorem State.setPilot_nv (n : Nat) (x : PilotSt) : (s.setPilot n x).nv = s.nv := rfl
@[simp] theorem State.setPilot_lh (n : Nat) (x : PilotSt) : (s.setPilot n x).lh = s.lh := rfl
@[simp] theorem State.setPilot_tap (n : Nat) (x : PilotSt) : (s.setPilot n x).tap = s.tap := rfl
@[simp] theorem State.setPilot_rst (n : Nat) (x : PilotSt) : (s.setPilot n x).rst = s.rst := rfl
@[simp] theorem State.setPilot_pending (n : Nat) (x : PilotSt) : (s.setPilot n x).pending = s.pending := rfl
@[simp] theorem State.setPilot_pilot (n : Nat) (x : PilotSt) : (s.setPilot n x).pilot = tput (fun _ => {}) s.pilot n x := rfl

/-! ## setPset -/

@[simp] theorem State.setPset_regs (n : Nat) (x : PsetSt) : (s.setPset n x).regs = s.regs := rfl
@[simp] theorem State.setPset_mem (n : Nat) (x : PsetSt) : (s.setPset n x).mem = s.mem := rfl
@[simp] theorem State.setPset_latch (n : Nat) (x : PsetSt) : (s.setPset n x).latch = s.latch := rfl
@[simp] theorem State.setPset_held (n : Nat) (x : PsetSt) : (s.setPset n x).held = s.held := rfl
@[simp] theorem State.setPset_mm (n : Nat) (x : PsetSt) : (s.setPset n x).mm = s.mm := rfl
@[simp] theorem State.setPset_access (n : Nat) (x : PsetSt) : (s.setPset n x).access = s.access := rfl
@[simp] theorem State.setPset_free (n : Nat) (x : PsetSt) : (s.setPset n x).free = s.free := rfl
@[simp] theorem State.setPset_time (n : Nat) (x : PsetSt) : (s.setPset n x).time = s.time := rfl
@[simp] theorem State.setPset_log (n : Nat) (x : PsetSt) : (s.setPset n x).log = s.log := rfl
@[simp] theorem State.setPset_tide (n : Nat) (x : PsetSt) : (s.setPset n x).tide = s.tide := rfl
@[simp] theorem State.setPset_hb (n : Nat) (x : PsetSt) : (s.setPset n x).hb = s.hb := rfl
@[simp] theorem State.setPset_sw (n : Nat) (x : PsetSt) : (s.setPset n x).sw = s.sw := rfl
@[simp] theorem State.setPset_port (n : Nat) (x : PsetSt) : (s.setPset n x).port = s.port := rfl
@[simp] theorem State.setPset_mdio (n : Nat) (x : PsetSt) : (s.setPset n x).mdio = s.mdio := rfl
@[simp] theorem State.setPset_qe (n : Nat) (x : PsetSt) : (s.setPset n x).qe = s.qe := rfl
@[simp] theorem State.setPset_fq (n : Nat) (x : PsetSt) : (s.setPset n x).fq = s.fq := rfl
@[simp] theorem State.setPset_txRR (n : Nat) (x : PsetSt) : (s.setPset n x).txRR = s.txRR := rfl
@[simp] theorem State.setPset_dma (n : Nat) (x : PsetSt) : (s.setPset n x).dma = s.dma := rfl
@[simp] theorem State.setPset_dreq (n : Nat) (x : PsetSt) : (s.setPset n x).dreq = s.dreq := rfl
@[simp] theorem State.setPset_can (n : Nat) (x : PsetSt) : (s.setPset n x).can = s.can := rfl
@[simp] theorem State.setPset_tt (n : Nat) (x : PsetSt) : (s.setPset n x).tt = s.tt := rfl
@[simp] theorem State.setPset_tickAt (n : Nat) (x : PsetSt) : (s.setPset n x).tickAt = s.tickAt := rfl
@[simp] theorem State.setPset_tickBegan (n : Nat) (x : PsetSt) : (s.setPset n x).tickBegan = s.tickBegan := rfl
@[simp] theorem State.setPset_ax (n : Nat) (x : PsetSt) : (s.setPset n x).ax = s.ax := rfl
@[simp] theorem State.setPset_grp (n : Nat) (x : PsetSt) : (s.setPset n x).grp = s.grp := rfl
@[simp] theorem State.setPset_chop (n : Nat) (x : PsetSt) : (s.setPset n x).chop = s.chop := rfl
@[simp] theorem State.setPset_enc (n : Nat) (x : PsetSt) : (s.setPset n x).enc = s.enc := rfl
@[simp] theorem State.setPset_adc (n : Nat) (x : PsetSt) : (s.setPset n x).adc = s.adc := rfl
@[simp] theorem State.setPset_mio (n : Nat) (x : PsetSt) : (s.setPset n x).mio = s.mio := rfl
@[simp] theorem State.setPset_pilot (n : Nat) (x : PsetSt) : (s.setPset n x).pilot = s.pilot := rfl
@[simp] theorem State.setPset_cw (n : Nat) (x : PsetSt) : (s.setPset n x).cw = s.cw := rfl
@[simp] theorem State.setPset_mb (n : Nat) (x : PsetSt) : (s.setPset n x).mb = s.mb := rfl
@[simp] theorem State.setPset_arrival (n : Nat) (x : PsetSt) : (s.setPset n x).arrival = s.arrival := rfl
@[simp] theorem State.setPset_hm (n : Nat) (x : PsetSt) : (s.setPset n x).hm = s.hm := rfl
@[simp] theorem State.setPset_nv (n : Nat) (x : PsetSt) : (s.setPset n x).nv = s.nv := rfl
@[simp] theorem State.setPset_lh (n : Nat) (x : PsetSt) : (s.setPset n x).lh = s.lh := rfl
@[simp] theorem State.setPset_tap (n : Nat) (x : PsetSt) : (s.setPset n x).tap = s.tap := rfl
@[simp] theorem State.setPset_rst (n : Nat) (x : PsetSt) : (s.setPset n x).rst = s.rst := rfl
@[simp] theorem State.setPset_pending (n : Nat) (x : PsetSt) : (s.setPset n x).pending = s.pending := rfl
@[simp] theorem State.setPset_pset (n : Nat) (x : PsetSt) : (s.setPset n x).pset = tput (fun _ => {}) s.pset n x := rfl

/-! ## setMb -/

@[simp] theorem State.setMb_regs (n : Nat) (x : MbSt) : (s.setMb n x).regs = s.regs := rfl
@[simp] theorem State.setMb_mem (n : Nat) (x : MbSt) : (s.setMb n x).mem = s.mem := rfl
@[simp] theorem State.setMb_latch (n : Nat) (x : MbSt) : (s.setMb n x).latch = s.latch := rfl
@[simp] theorem State.setMb_held (n : Nat) (x : MbSt) : (s.setMb n x).held = s.held := rfl
@[simp] theorem State.setMb_mm (n : Nat) (x : MbSt) : (s.setMb n x).mm = s.mm := rfl
@[simp] theorem State.setMb_access (n : Nat) (x : MbSt) : (s.setMb n x).access = s.access := rfl
@[simp] theorem State.setMb_free (n : Nat) (x : MbSt) : (s.setMb n x).free = s.free := rfl
@[simp] theorem State.setMb_time (n : Nat) (x : MbSt) : (s.setMb n x).time = s.time := rfl
@[simp] theorem State.setMb_log (n : Nat) (x : MbSt) : (s.setMb n x).log = s.log := rfl
@[simp] theorem State.setMb_tide (n : Nat) (x : MbSt) : (s.setMb n x).tide = s.tide := rfl
@[simp] theorem State.setMb_hb (n : Nat) (x : MbSt) : (s.setMb n x).hb = s.hb := rfl
@[simp] theorem State.setMb_sw (n : Nat) (x : MbSt) : (s.setMb n x).sw = s.sw := rfl
@[simp] theorem State.setMb_port (n : Nat) (x : MbSt) : (s.setMb n x).port = s.port := rfl
@[simp] theorem State.setMb_mdio (n : Nat) (x : MbSt) : (s.setMb n x).mdio = s.mdio := rfl
@[simp] theorem State.setMb_qe (n : Nat) (x : MbSt) : (s.setMb n x).qe = s.qe := rfl
@[simp] theorem State.setMb_fq (n : Nat) (x : MbSt) : (s.setMb n x).fq = s.fq := rfl
@[simp] theorem State.setMb_txRR (n : Nat) (x : MbSt) : (s.setMb n x).txRR = s.txRR := rfl
@[simp] theorem State.setMb_dma (n : Nat) (x : MbSt) : (s.setMb n x).dma = s.dma := rfl
@[simp] theorem State.setMb_dreq (n : Nat) (x : MbSt) : (s.setMb n x).dreq = s.dreq := rfl
@[simp] theorem State.setMb_can (n : Nat) (x : MbSt) : (s.setMb n x).can = s.can := rfl
@[simp] theorem State.setMb_tt (n : Nat) (x : MbSt) : (s.setMb n x).tt = s.tt := rfl
@[simp] theorem State.setMb_tickAt (n : Nat) (x : MbSt) : (s.setMb n x).tickAt = s.tickAt := rfl
@[simp] theorem State.setMb_tickBegan (n : Nat) (x : MbSt) : (s.setMb n x).tickBegan = s.tickBegan := rfl
@[simp] theorem State.setMb_ax (n : Nat) (x : MbSt) : (s.setMb n x).ax = s.ax := rfl
@[simp] theorem State.setMb_grp (n : Nat) (x : MbSt) : (s.setMb n x).grp = s.grp := rfl
@[simp] theorem State.setMb_chop (n : Nat) (x : MbSt) : (s.setMb n x).chop = s.chop := rfl
@[simp] theorem State.setMb_enc (n : Nat) (x : MbSt) : (s.setMb n x).enc = s.enc := rfl
@[simp] theorem State.setMb_adc (n : Nat) (x : MbSt) : (s.setMb n x).adc = s.adc := rfl
@[simp] theorem State.setMb_mio (n : Nat) (x : MbSt) : (s.setMb n x).mio = s.mio := rfl
@[simp] theorem State.setMb_pilot (n : Nat) (x : MbSt) : (s.setMb n x).pilot = s.pilot := rfl
@[simp] theorem State.setMb_pset (n : Nat) (x : MbSt) : (s.setMb n x).pset = s.pset := rfl
@[simp] theorem State.setMb_cw (n : Nat) (x : MbSt) : (s.setMb n x).cw = s.cw := rfl
@[simp] theorem State.setMb_arrival (n : Nat) (x : MbSt) : (s.setMb n x).arrival = s.arrival := rfl
@[simp] theorem State.setMb_hm (n : Nat) (x : MbSt) : (s.setMb n x).hm = s.hm := rfl
@[simp] theorem State.setMb_nv (n : Nat) (x : MbSt) : (s.setMb n x).nv = s.nv := rfl
@[simp] theorem State.setMb_lh (n : Nat) (x : MbSt) : (s.setMb n x).lh = s.lh := rfl
@[simp] theorem State.setMb_tap (n : Nat) (x : MbSt) : (s.setMb n x).tap = s.tap := rfl
@[simp] theorem State.setMb_rst (n : Nat) (x : MbSt) : (s.setMb n x).rst = s.rst := rfl
@[simp] theorem State.setMb_pending (n : Nat) (x : MbSt) : (s.setMb n x).pending = s.pending := rfl
@[simp] theorem State.setMb_mb (n : Nat) (x : MbSt) : (s.setMb n x).mb = tput (fun _ => {}) s.mb n x := rfl

end Sys2Proof.Machine
end

