-- ==== Sys2Proof/Laws/Tap.lean ====
section
/-! SUPPORT. The controller of the TAP (IEEE 1149.1): five TCK cycles with TMS high reach Test-Logic-Reset from every state, and a scan that begins
in Test-Logic-Reset or Run-Test/Idle ends in Run-Test/Idle. -/
namespace Sys2Proof.Machine

/-- Five cycles with TMS high reset the controller from every state (R453). -/
theorem TapCtl.walk_reset (c : TapCtl) : c.walk (List.replicate 5 true) = .reset := by cases c <;> rfl

/-- Shift states stay while TMS is low. -/
theorem TapCtl.walk_shift (n : Nat) : TapCtl.shiftDr.walk (List.replicate n false) = .shiftDr ∧ TapCtl.shiftIr.walk (List.replicate n false) = .shiftIr := by
  induction n with
  | zero => exact ⟨rfl, rfl⟩
  | succ n ih => exact ih

/-- A scan ends in Run-Test/Idle. -/
theorem TapCtl.walk_scan {c : TapCtl} (h : c = .reset ∨ c = .idle) (ir : Bool) (n : Nat) : c.walk (scanTms ir n) = .idle := by
  obtain ⟨hd, hi⟩ := TapCtl.walk_shift (n - 1)
  simp only [TapCtl.walk] at hd hi
  rcases h with rfl | rfl <;> cases ir <;> simp [scanTms, TapCtl.walk, TapCtl.next, hd, hi]

end Sys2Proof.Machine
end

