-- ==== Sys2Proof/Tests/Slice0.lean ====
section
/-! SUPPORT. Tests: ill-formed commands that WellFormed refuses, one step of some commands with results worked out from the spec, and a
witness for the hypotheses of every statement that has any. -/
namespace Sys2Proof.Tests
set_option Elab.async false
open Sys2Proof Sys2Proof.Machine

/-! ## Ill-formed commands are refused -/

theorem test_wf_read_width : (Instr.interconnectAccess .pcie 0 (.read 3) 0 0).wf = false := by decide
theorem test_wf_write_width : (Instr.interconnectAccess .pcie 0 (.write 32 0) 0 0).wf = false := by decide
theorem test_wf_swap_width : (Instr.interconnectAccess .pcie 0 (.swap 2 0) 0 0).wf = false := by decide
theorem test_wf_tas_width : (Instr.busTimeout .pcie 0 (.tas 16)).wf = false := by decide
theorem test_wf_cas_width : (Instr.interconnectAccess .pcie 0 (.cas 1 0 0) 0 0).wf = false := by decide
theorem test_wf_outbound_width : (Instr.outboundRequest .pcie 0x80000000 (.read 5)).wf = false := by decide
theorem test_wf_outbound_address : (Instr.outboundRequest .pcie 0x7FFFFFFF (.read 4)).wf = false := by decide
theorem test_wf_line : (Instr.correctionWriteBack (2 ^ 28)).wf = false := by decide
theorem test_wf_dredger_soft : (Instr.dredgerPass [2 ^ 28] []).wf = false := by decide
theorem test_wf_dredger_hard : (Instr.dredgerPass [] [2 ^ 28]).wf = false := by decide
theorem test_wf_frame_start : (Instr.frameReceive 0 (.start 0 [256] 0)).wf = false := by decide
theorem test_wf_frame_more : (Instr.frameReceive 0 (.more [0, 300])).wf = false := by decide
theorem test_wf_frame_whole : (Instr.frameReceive 0 (.whole 0 [256] 0 .ok)).wf = false := by decide
theorem test_wf_link_up : (Instr.linkUp 0 (.up 0 65536 false)).wf = false := by decide
theorem test_wf_link_half : (Instr.linkUp 0 (.halfDuplex 65536)).wf = false := by decide
theorem test_wf_pfc_times : (Instr.pfcFrame 0 0 [0]).wf = false := by decide
theorem test_wf_can_lost : (Instr.canTransmit 0 (.lost 2048 false)).wf = false := by decide
theorem test_wf_can_start : (Instr.canReceive 0 (.start 2048 false)).wf = false := by decide
theorem test_wf_can_bytes : (Instr.canReceive 0 (.valid ⟨1, false, false, false, 1, false, false, [256]⟩)).wf = false := by decide
theorem test_wf_can_length : (Instr.canReceive 0 (.valid ⟨1, false, false, false, 2, false, false, [1]⟩)).wf = false := by decide
theorem test_wf_can_remote_fd : (Instr.canReceive 0 (.valid ⟨1, false, true, true, 0, false, false, []⟩)).wf = false := by decide
theorem test_wf_can_brs : (Instr.canReceive 0 (.valid ⟨1, false, false, false, 0, true, false, []⟩)).wf = false := by decide
theorem test_wf_can_identifier : (Instr.canReceive 0 (.valid ⟨2048, false, false, false, 0, false, false, []⟩)).wf = false := by decide
theorem test_wf_mwr_empty : (Instr.pcieMwr 0 0 [] ⟨false, none⟩).wf = false := by decide
theorem test_wf_mwr_long : (Instr.pcieMwr 0 0 (List.replicate 65 (15, 0)) ⟨false, none⟩).wf = false := by decide
theorem test_wf_mrd_empty : (Instr.pcieMrd 0 0 ⟨[], none⟩).wf = false := by decide
theorem test_wf_mrd_long : ∀ b : List (BitVec 4), b.length = 1025 → (Instr.pcieMrd 0 0 ⟨b, none⟩).wf = false := by
  intro b h; simp only [Instr.wf, h]; decide
theorem test_wf_atomicop_width : (Instr.pcieAtomicop 0 0 16 ⟨.swap, none⟩ 0 0).wf = false := by decide
theorem test_wf_muster_count : ∀ b : List (BitVec 8), b.length = 1501 → (Instr.musterCount 0 b).wf = false := by
  intro b h; simp only [Instr.wf, h]; decide
theorem test_wf_muster_block : ∀ b : List (BitVec 8), b.length = 1501 → (Instr.musterBlock 0 b).wf = false := by
  intro b h; simp only [Instr.wf, h]; decide
theorem test_wf_muster_done : ∀ b : List (BitVec 8), b.length = 1501 → (Instr.musterDone 0 b).wf = false := by
  intro b h; simp only [Instr.wf, h]; decide
theorem test_wf_muster_request : ∀ b : List (BitVec 8), b.length = 1501 → (Instr.musterRequest 0 b).wf = false := by
  intro b h; simp only [Instr.wf, h]; decide
theorem test_wf_accepts : (Instr.interconnectAccess .pcie 0x10000000 (.write 16 0) 0 0).wf = true := by decide

/-! ## Single commands -/

/-- What holds of the state that a command leaves. -/
def leaves (c : Instr) (s : State) (p : State → Bool) : Bool := match exec c s with | .next t => p t | _ => false

/-- 00, after R9: the registers of AX5 begin at 0x400E_0A00. -/
theorem test_ax5_address : AX_CFG 5 = 0x400E0A00 := by decide
/-- R1, R3: SYS_ID of a BI part. -/
theorem test_sys_id : State.reset.reg SYS_ID = 0x32241110 := by decide
/-- R38, R24: a limit of 0 is discarded, with CFG_REJECT and the address. -/
theorem test_jump_limit_zero : leaves (.registerWrite .pcie 0x40040040 0) State.reset (fun t => t.reg TIME_JUMP_LIMIT == 1000 &&
    t.bit SYS_STATUS SYS_STATUS_CFG_REJECT && t.reg SYS_REJECT_ADDR == 0x40040040) = true := by decide
/-- R38: a limit of 1,000,000,000 is taken. -/
theorem test_jump_limit_top : leaves (.registerWrite .pcie 0x40040040 1000000000) State.reset (fun t => t.reg TIME_JUMP_LIMIT == 1000000000 &&
    !t.bit SYS_STATUS SYS_STATUS_CFG_REJECT) = true := by decide
/-- R31, R32: one tick at 4.0 ns past 999,999,998 ns carries into SEC and leaves 2 ns. -/
theorem test_second_carries : leaves .timeAdvance { State.reset with time := { State.reset.time with tod := instant 7 999999998 } }
    (fun t => t.time.tod == instant 8 2) = true := by decide +kernel
/-- R31: SEC wraps from 2^48 - 1 to 0. -/
theorem test_sec_wraps : leaves .timeAdvance { State.reset with time := { State.reset.time with tod := instant (2 ^ 48 - 1) 999999996 } }
    (fun t => todSec t.time.tod == 0 && todNs t.time.tod == 0) = true := by decide +kernel
/-- R13: a register block answers an 8-bit access with a bus error. -/
theorem test_byte_of_register : leaves (.interconnectAccess .pcie 0x40040040 (.read 1) 0 0) State.reset
    (fun t => t.access == some ⟨.pcie, 0x40040040, .busError, 0⟩) = true := by decide
/-- R7: memory is little-endian. -/
theorem test_little_endian : leaves (.interconnectAccess .pcie 0x10000000 (.write 4 0x11223344) 0 0) State.reset
    (fun t => t.rd8 0x10000000 == 0x44 && t.rd8 0x10000003 == 0x11 && t.rd8 0x10000004 == 0) = true := by decide
/-- R20, R8: a sticky bit is cleared by writing 1 and kept by writing 0. -/
theorem test_w1c : leaves (.registerWrite .pcie 0x40040008 1) (State.reset.setReg TIME_STATUS 3) (fun t => t.reg TIME_STATUS == 2) = true := by decide
/-- An engine that runs, with the word `w` at its PC. -/
def engineWith (n : Nat) (w : Nat) : State := (State.reset.setQe n { State.reset.qeOf n with run := .running }).store (if n = 24 then 0x08000000 else 0x20000000 + n * 0x20000) (leBytes 8 w)
/-- R206 to R209, R219: ADD of 32 bits, word at 0x0100 := 5 + (-7): OPCODE 0x08 * 4 + 2; A is mode 1, FIELD 0x40; B and C are immediates. -/
theorem test_add : leaves (.add 0) (engineWith 0 (0x22 * 2 ^ 54 + (0x4000 + 0x40) * 2 ^ 36 + 5 * 2 ^ 18 + 0x3FF9))
    (fun t => t.rdN 0x20010100 4 == 0xFFFFFFFE && (t.qeOf 0).pc == 1) = true := by decide
/-- A command moves from the queue's front, and no other. -/
theorem test_queue : (match step { State.reset with pending := [.timeAdvance, .kickApply] } with | .next t => t.pending | _ => []) = [.kickApply] := by decide +kernel
/-- The table gives no row bits, so no word spells a command. -/
theorem test_no_word : decodeTableWord 32 0 = none := by decide

/-! ## Witnesses: states and operands that meet the hypotheses of each statement -/

/-- Reset with other register words. -/
def withRegs (l : List (Nat × Word)) : State := l.foldl (fun s p => s.setReg p.1 p.2) State.reset
/-- A write by PCIe at reset that is taken. -/
def taken (a : Nat) (w : Word) : Bool := State.reset.writeTaken .pcie a w
/-- Functional input i follows pin P0 to P63 number `p` of the pilots (R329). -/
def soundOn (i p : Nat) : State := withRegs [(SOUND_SEL i, SOUND_SEL_EN.put (SOUND_SEL_PIN.put 0 (192 + p)) 1)]
/-- A canonical state other than reset: one free value has been used. -/
def later : State := { State.reset with free := 1 }
theorem later_inv : later.Inv := by unfold State.Inv State.storeOk State.unitsOk; decide

theorem witness_StepRunsTheFrontCommand : ({ later with pending := [.timeAdvance] } : State).pending = .timeAdvance :: [] := rfl
theorem witness_StepIdlesOnAnEmptyQueue : later.pending = [] := rfl
theorem witness_StepKeepsTablesCanonical : later.Inv ∧ ∃ t, step later = .next t := ⟨later_inv, _, rfl⟩
theorem witness_SettlingTouchesOnlyPortWaitsRegionsLinksVectorsAndWatchdogs : later.Inv := later_inv
theorem witness_WholeWordWritesClearPoison : (later.setPoison 0x10000010).Inv ∧ (1 + 0x1000000) ∈ (later.setPoison 0x10000010).mm.poison := by
  unfold State.Inv State.storeOk State.unitsOk; decide
/-- A sum within the second, one that carries, one that borrows. -/
theorem witness_TimeOfDayCarriesIntoSeconds : 0 < todMod ∧ (0 ≤ ((0 : Nat) % secUnits : Int) + 5 ∧ ((0 : Nat) % secUnits : Int) + 5 < secUnits)
    ∧ (secUnits ≤ ((1 : Nat) % secUnits : Int) + (secUnits - 1) ∧ ((1 : Nat) % secUnits : Int) + (secUnits - 1) < 2 * secUnits)
    ∧ (-secUnits ≤ ((0 : Nat) % secUnits : Int) + (-1) ∧ ((0 : Nat) % secUnits : Int) + (-1) < 0) := by decide
theorem witness_CounterFieldsSaturate : later.Inv ∧ (⟨7, 0⟩ : Fld).ok ∧ (⟨15, 8⟩ : Fld).ok ∧ TIME_WDOG ≠ SUMMARY (blockOf TIME_WDOG)
    ∧ later.fld TIME_WDOG ⟨7, 0⟩ < 255 ∧ 255 ≤ later.fld TIME_WDOG ⟨7, 0⟩ + 255 := by
  refine ⟨later_inv, ?_⟩; unfold Fld.ok; decide
theorem witness_CsumIsTheOnesComplementSum : 65535 < 65536 ∧ [255, 255].length ≤ 8 ∧ ∀ b ∈ [255, 255], b < 256 := by decide
theorem witness_BitFieldsAreTakenAndReplaced : (2 ^ 64 - 1 : Nat) < 2 ^ 64 := by decide
theorem witness_HandoverSlotsStayApart : later.Inv ∧ 255 < 256 ∧ later.slotsApart 255 := by
  refine ⟨later_inv, ?_⟩; unfold State.slotsApart; decide
theorem witness_SysEventIsTheOrOfEnabledBits : later.Inv := later_inv
theorem witness_JumpLimitTakesOnlyItsRange : State.reset.answers .pcie TIME_JUMP_LIMIT = true ∧ TIME_JUMP_LIMIT_LIMIT.get 1 = 1
    ∧ TIME_JUMP_LIMIT_LIMIT.get 1000000000 = 1000000000 ∧ TIME_JUMP_LIMIT_LIMIT.get 0 = 0 ∧ 1000000000 < TIME_JUMP_LIMIT_LIMIT.get 1000000001 := by
  decide
theorem witness_OctetCountersLatchTheirHighWord : later.Inv ∧ PORT_OCTETS_TX_LO 5 ∈ [PORT_OCTETS_TX_LO 5, PORT_OCTETS_RX_LO 5] := ⟨later_inv, by decide⟩
theorem witness_DiscardedWritesChangeNothingElse : later.Inv ∧ ∃ row, findReg TIME_JUMP_LIMIT = some (row, [])
    ∧ later.wrErr .pcie 4 TIME_JUMP_LIMIT [] 0 = false ∧ later.wrReject .pcie 4 TIME_JUMP_LIMIT 0 0 = none
    ∧ later.wrBad .pcie TIME_JUMP_LIMIT 4 TIME_JUMP_LIMIT row [] 0 = true := ⟨later_inv, _, rfl, by decide⟩
theorem witness_WritesFollowTheAccessCodes : ∃ row f, findReg TIME_JUMP_LIMIT = some (row, []) ∧ f ∈ row.flds := ⟨_, _, rfl, .head _⟩
theorem witness_UnservedAccessesEndWithBusErrors : regionOf 0x70000000 = none ∧ State.reset.ended .pcie 0x70000000 = none
    ∧ State.reset.ended .pcie 0x70000000 true = none ∧ regionOf 0x3C000000 = some (.dmaBuf, 0x3C000000) ∧ Region.dmaBuf ≠ .pim
    ∧ regionOf 0x40000000 = some (.regs 0, 0x40000000) ∧ (Region.regs 0).atomics = false := by decide
theorem witness_TimeRegisterWritesAct : (taken TIME_CMD (TIME_CMD_STEP.put 0 1) && taken TIME_CMD (TIME_CMD_SET.put 0 1)
    && taken TIME_CMD (TIME_CMD_INC.put 0 1) && taken TIME_CMD (TIME_CMD_KICK.put 0 1) && taken TIME_CMD (TIME_CMD_FORCE_JUMP.put 0 1)
    && taken TIME_CMD (TIME_CMD_DISARM.put 0 1) && taken TIME_CTL 1 && taken TIME_WDOG 5
    && (withRegs [(TTRIG_WIDTH 15, 1)]).writeTaken .pcie (TTRIG_CTL 15) 1
    && (withRegs [(TTRIG_WIDTH 15, 1), (TTRIG_CTL 15, 3)]).writeTaken .pcie (TTRIG_CTL 15) (TTRIG_CTL_PULSE.put 3 1)
    && TTRIG_CTL_PULSE.get (TTRIG_CTL_PULSE.put 3 1) != 0 && TTRIG_CTL_MODE.get (TTRIG_CTL_PULSE.put 3 1) == 3
    && (withRegs [(TTRIG_CTL 15, 3)]).fld (TTRIG_CTL 15) TTRIG_CTL_MODE == 3) = true := by decide
theorem witness_TimeEventsMoveTheTime : State.reset.rst.chip = false ∧ (withRegs [(TIME_CMD, 1)]).bit TIME_CMD TIME_CMD_STEP = true
    ∧ (withRegs [(TIME_CMD, 2)]).bit TIME_CMD TIME_CMD_SET = true ∧ (withRegs [(TIME_CMD, 4)]).bit TIME_CMD TIME_CMD_INC = true
    ∧ (State.reset.modTime fun t => { t with kick := 1 }).time.kick = 1
    ∧ ((withRegs [(TIME_CTL, 1)]).modTime fun t => { t with wdogEnd := some 0 }).fld TIME_CTL TIME_CTL_STATE = 1
    ∧ ((withRegs [(TTRIG_CTL 15, 2)]).fld (TTRIG_CTL 15) TTRIG_CTL_MODE = 2 ∧ (State.reset.trigOf 15).next ≤ State.reset.time.tod)
    ∧ ((State.reset.setTrig 15 { endTick := some 0 }).trigOf 15).endTick = some 0
    ∧ (State.reset.pinSeen (0xC0 + 15) true).inputLevel (0xC0 + 15) = (State.reset.pinSeen (0xC0 + 15) true).inputSeen (0xC0 + 15)
    ∧ ((soundOn (0xC0 + 15) 0).pinSeen (0xC0 + 15) true).inputLevel (0xC0 + 15) = true
    ∧ ((soundOn (0xC0 + 15) 0).pinSeen (0xC0 + 15) true).inputSeen (0xC0 + 15) = !true := by decide
theorem witness_TimeReadsLatchTheInstant : State.reset.readTaken .pcie TIME_NOW_FRAC = true ∧ State.reset.readTaken .pcie (TIME_PTP_TXTS_KEY 5) = true
    ∧ State.reset.txtsOf 5 = [] ∧ (State.reset.setTxts 5 [⟨0, 0, 0, 0, 0, 0⟩]).txtsOf 5 = [⟨0, 0, 0, 0, 0, 0⟩]
    ∧ (State.reset.setTxts 5 [⟨0, 0, 0, 0, 0, 0⟩]).readTaken .pcie (TIME_PTP_TXTS_KEY 5) = true
    ∧ State.reset.readTaken .pcie (TCAP_TS_NS 15) = true ∧ State.reset.tcapOf 15 = []
    ∧ (State.reset.setTcap 15 [⟨true, 0, 0⟩]).tcapOf 15 = [⟨true, 0, 0⟩]
    ∧ (State.reset.setTcap 15 [⟨true, 0, 0⟩]).readTaken .pcie (TCAP_TS_NS 15) = true := by decide
theorem witness_TideRegisterWritesAct : (taken TIDE_CTL (TIDE_CTL_RUN.put 0 1) && taken TIDE_CTL (TIDE_CTL_RUN.put 0 0)
    && taken TIDE_CMD (TIDE_CMD_VALIDATE_A.put 0 1) && taken TIDE_CMD (TIDE_CMD_VALIDATE_B.put 0 1) && taken TIDE_CMD (TIDE_CMD_SWAP_ARM.put 0 1)
    && taken TIDE_CMD (TIDE_CMD_SWAP_DISARM.put 0 1)) = true
    ∧ TIDE_CMD_VALIDATE_A.get 0 = 0 ∧ TIDE_CMD_VALIDATE_B.get 0 = 0 ∧ TIDE_CMD_SWAP_ARM.get 0 = 0 ∧ TIDE_CMD_SWAP_DISARM.get 0 = 0 := by decide

/-- A tide engine that runs bank A at instant 0 with an empty table and a cycle of `len` ns. -/
def tideRunning (len : Nat) (l : List (Nat × Word)) : State :=
  withRegs ((TIDE_CTL, (TIDE_CTL_RUN.put (TIDE_CTL_RUNNING.put 0 1) 1)) :: (TIDE_CYCLE, w32 len) :: l)
/-- A state in which an entry with these words is the next to land, buffer 0 enabled, trigger 0 in TIDE mode. -/
def landingOf (w1 arg0 arg1 : Nat) : State :=
  (withRegs [(TIDE_HB_CFG 0, 0x80000000), (TTRIG_CTL 0, 1)]).modTide fun t => { t with flight := [⟨0, 0, 0, false, w1, arg0, arg1, some ⟨0, 0, 0, 0, []⟩⟩] }
/-- Its entry. -/
def landed (w1 arg0 arg1 : Nat) : Issued := ⟨0, 0, 0, false, w1, arg0, arg1, some ⟨0, 0, 0, 0, []⟩⟩
/-- The common hypotheses of a landing. -/
def lands (w1 arg0 arg1 : Nat) : Bool :=
  !(landingOf w1 arg0 arg1).rst.chip && (landingOf w1 arg0 arg1).landing == some (landed w1 arg0 arg1) && !(landingOf w1 arg0 arg1).issueFirst (landed w1 arg0 arg1) && (landed w1 arg0 arg1).lands == 0
theorem witness_TideEntriesRunAndLand :
    ((tideRunning 0 []).bit TIDE_CTL TIDE_CTL_RUNNING && (tideRunning 0 []).bit TIDE_CTL TIDE_CTL_RUN
      && decide ((tideRunning 0 []).curCycle.fin ≤ (tideRunning 0 []).time.tod) && (tideRunning 0 []).cycleServed && !(tideRunning 0 []).swapHere) = true
    ∧ (let s := tideRunning 62500 [(TIDE_BANK_LEN 0, 1)]
      let u := (s.modTide fun t => { t with issued := ninsert 0 t.issued }).eccRead (bankAddr s.curCycle.bank 0) 16
      s.bit TIDE_CTL TIDE_CTL_RUNNING = true ∧ (match s.nextIssue with | some (t, next, i) => decide (t ≤ s.time.tod) && !next && i == 0 | none => false) = true ∧ u.entryPoison s.curCycle.bank 0 = false
        ∧ parityActs (w1Parity (s.entryWord s.curCycle.bank 0 1)) s.curCycle.cnt = true ∧ w1Action (s.entryWord s.curCycle.bank 0 1) ≤ 10)
    ∧ (lands 0 0 0 && lands 1 0 0 && lands 2 0 0 && lands 3 1 0 && lands 3 0 0 && lands 4 0 0 && lands 5 0 0 && lands 6 0 0 && lands 7 0 0 && lands 8 0 0
      && lands 9 0 0 && lands 10 0 0 && lands 0x1004 1 0 && lands 0x104 0 0 && lands 5 0 0x10000) = true
    ∧ ((landed 0x1004 1 0).act = 4 ∧ 16 ≤ (landed 0x1004 1 0).tgt ∧ (landed 0x104 0 0).tgt = 1
      ∧ (landingOf 0x104 0 0).fld (TTRIG_CTL 1) TTRIG_CTL_MODE ≠ 1)
    ∧ (let s := withRegs [(TIDE_CTL, TIDE_CTL_RUNNING.put 0 1), (TIDE_CYCLE, 0)]
      s.bit TIDE_CTL TIDE_CTL_RUNNING = true ∧ s.bit TIDE_CTL TIDE_CTL_RUN = false ∧ s.curCycle.fin ≤ s.time.tod ∧ s.cycleServed = true ∧ s.swapHere = false)
    ∧ (let s := landingOf 0 0 0
      s.portHeld 0 = false ∧ s.hbLineW 0 = true ∧ s.hbLineR 0 = true ∧ s.fld (TTRIG_CTL 0) TTRIG_CTL_MODE = 1 ∧ s.rst.core = false
        ∧ s.dmaActive 0 = false ∧ s.engineHeld 0 = false ∧ (s.adcOf 0).busy = false) := by
  refine ⟨by decide, by decide, by decide, by decide, by decide, by decide⟩

theorem witness_TideBanksAndHandoverBuffersAct :
    (withRegs [(TIDE_BANK_STATE 1, 1)]).bankState 1 = 1
    ∧ (State.reset.answers .pcie 0x3A03FFFC = true ∧ memFits 0x3A03FFFC 4 = true ∧ State.reset.bankHeld 1 = false)
    ∧ taken (TIDE_BANK_CYCLE 1) 62500 = true ∧ taken (TIDE_BANK_LEN 1) 1 = true
    ∧ (let s := (tideRunning 3000 [(TIDE_CMD, TIDE_CMD_SWAP_ARM.put 0 1)]).modTime fun t => { t with tod := 2600 * 2 ^ 32 }
      s.bit TIDE_CTL TIDE_CTL_RUNNING = true ∧ s.swapHere = true ∧ s.curCycle.fin ≤ s.time.tod + 400 * 2 ^ 32)
    ∧ taken (TIDE_HB_CFG 255) 0x80000000 = true
    ∧ (withRegs [(TIDE_HB_CFG 255, 0x80000000)]).writeTaken .pcie TIDE_HB_CMD (TIDE_HB_CMD_OP.put 255 1) = true
    ∧ (withRegs [(TIDE_HB_CFG 255, 0x80000000)]).writeTaken .pcie TIDE_HB_CMD (TIDE_HB_CMD_OP.put 255 2) = true
    ∧ (let s := (withRegs [(TIDE_HB_CFG 255, 0x80000000)]).setHbHeld 255 [{ publish := true, by' := .soft }]
      s.hbHeld 255 = [{ publish := true, by' := .soft }] ∧ s.hbEn 255 = true ∧ s.hbWriting 255 = false)
    ∧ (let s := (withRegs [(TIDE_WIN_TOL, 0)]).setWin 5 (some { copy := ⟨0, 0, 0, 0, []⟩, opens := 0, closes := 0, bank := 0, idx := 0 })
      let s := s.modTime fun t => { t with tod := t.tod + 1 }
      (∃ w, s.winOf 5 = some w ∧ w.closes + s.fld TIDE_WIN_TOL TIDE_WIN_TOL_TOL * 2 ^ 32 < s.time.tod) ∧ (s.portOf 5).rx = none) := by
  refine ⟨by decide, by decide, by decide, by decide, by decide, by decide, by decide, by decide, by decide, ⟨_, rfl, by decide⟩, by decide⟩
theorem witness_SwitchTablesTakeOperations : (taken SW_MAC_CMD (SW_MAC_CMD_OP.put 0 1) && taken SW_MAC_CMD (SW_MAC_CMD_OP.put 0 2)
    && taken SW_MAC_CMD (SW_MAC_CMD_OP.put 0 3) && taken SW_MAC_CMD (SW_MAC_CMD_OP.put 0 4) && taken SW_MAC_CMD (SW_MAC_CMD_OP.put 0 5)
    && taken SW_VLAN_CMD (SW_VLAN_CMD_OP.put 0 1) && (withRegs [(SW_VLAN_DATA, 0x80010000)]).writeTaken .pcie SW_VLAN_CMD (SW_VLAN_CMD_OP.put 1 2)
    && taken STREAM_CMD (STREAM_CMD_OP.put 0 1) && taken STREAM_CMD (STREAM_CMD_OP.put 0 2) && taken STREAM_CMD (STREAM_CMD_OP.put 0 3)
    && taken STREAM_CMD (STREAM_CMD_OP.put 0 4)) = true := by decide
/-! ### Instructions of the quay engines -/

/-- A specifier that fits an operand of a kind: 5, the scratchpad word at 0x0100, a table, or nothing. -/
def specFor (k : OpKind) (i : Nat) : Nat :=
  match k with
  | .none => 0 | .free => 0 | .fqFlags => 0 | .cond => 0 | .scope => 0
  | .src _ => i | .field _ => 5 | .target => 3 | .table => 0x400
  | _ => 0x4040
/-- A word of instruction `i` whose sources are `a` (operand A), `b` and `c`. -/
def wordOf (i : QInstr) (a b c : Nat) : Nat :=
  let z := 2 ^ (i.sizes.headD 0 + 3)
  (i.base * 4 + i.sizes.headD 0) * 2 ^ 54 + specFor (i.a z) a * 2 ^ 36 + specFor (i.b z) b * 2 ^ 18 + specFor (i.c z) c
/-- In `s`, engine n reads the operands of instruction `i` at its PC, they satisfy `p`, and the writes of the operation's result land. -/
def runs (s : State) (n : Nat) (i : QInstr) (p : OpsIn → Bool) : Bool :=
  !s.rst.chip && !s.rst.core && s.qeReady n && s.qeBase n == i.base && (n == 24 || decide (i.base < 0xF0)) &&
    match s.qeFetch n (s.qeOf n).pc with
    | .ok (s1, w) => match s1.readAll n i w ((s.qeOf n).pc + 1) with
      | .ok o => p o && match i.body n o.st o.v with
        | .ok r => (match s1.commitAll n i o r with | .ok _ => true | _ => false)
        | _ => false
      | _ => false
    | _ => false
/-- An instruction without a condition on its operands runs on engine n. -/
def plain (n : Nat) (i : QInstr) : Bool := runs (engineWith n (wordOf i 5 5 5)) n i fun _ => true

theorem witness_EngineMovesAndAddsComplete : [iNop, iMov, iSext, iZext, iBswap, iAdd, iAdc, iSub, iSbb, iNeg, iMul, iMulhu, iMulhs, iMac].all (plain 23)
    = true := by decide
theorem witness_EngineLogicAndShiftsComplete : [iAnd, iOr, iXor, iAndn, iNot, iShl, iShr, iSar, iRol, iRor].all (plain 23) = true := by decide +kernel
theorem witness_EngineBitFieldsComplete : [iBfx, iBfxs, iBfi, iBset, iBclr].all (plain 23) = true := by decide +kernel
/-- An engine whose time of day has passed 5 ns. -/
def engineAt5 (i : QInstr) : State := (engineWith 23 (wordOf i 5 5 5)).modTime fun t => { t with tod := instant 0 5 }
theorem witness_EngineBranchesComplete : ([iBeq, iBne, iBlt, iBge, iBltu, iBgeu, iBbs, iBbc, iJmp, iBf, iDjnz, iRett, iYield].all (plain 23)
    && plain 24 iIfence && runs (engineAt5 iWaitt) 23 iWaitt fun o => (o.st.qeOf 23).wait == .none
      && decide (o.st.instantNow (o.v.b / 2 ^ 32) (min (o.v.b % 2 ^ 30) 999999999) ≤ o.st.time.tod)) = true := by decide
/-- An engine that is to execute instruction `i`, queue 5 enabled with room and holding `l`, streams on queue 5. -/
def engineQ (i : QInstr) (l : List FqWord) : State :=
  ((engineWith 23 (wordOf i 5 5 5)).setFq 5 { en := true, limit := 8, words := l, cells := [0] }).setReg (QE_CFG 23)
    (QE_CFG_RXQ.put (QE_CFG_TXQ.put 0 5) 5)
theorem witness_EngineAccessInstructionsComplete : ([iCrc32, iCsum, iCrc16r, iCrc16n, iSwap, iTas, iCas, iFqpkt, iSstat].all (plain 23)
    && runs (engineWith 23 (wordOf iLea 5 5 5)) 23 iLea (fun o => match o.v.eb with | .sp _ => true | _ => false)
    && runs (engineQ iFqpush []) 23 iFqpush (fun o => o.st.fqRoom (o.v.a % 512))
    && runs (engineQ iFqpop [⟨7, true, false, 0, false, false⟩]) 23 iFqpop (fun o => (o.st.fqHead (o.v.b % 512)).isSome)
    && runs ((engineQ iSclose []).setQe 23 { run := .running, txBuf := [1] }) 23 iSclose (fun o => (o.st.qeOf 23).txBuf != [] && o.st.txRoom 23 1)
    && runs ((engineQ iSnext []).setQe 23 { run := .running, ended := true }) 23 iSnext (fun o => (o.st.qeOf 23).ended)
    && runs ((engineWith 23 (wordOf iWaite 5 5 0)).setReg (QE_EVENT 23) 1) 23 iWaite
      (fun o => (o.st.qeOf 23).wait == .none && (o.st.qevents 23 &&& o.v.b) != 0)) = true := by decide

/-- An engine that executes `w` and then `w2`. -/
def engineWith2 (w w2 : Nat) : State := (engineWith 23 w).store 0x202E0008 (leBytes 8 w2)
/-- The hypotheses of REP and REPI: the prefix `i` and the repeated instruction `j` are read, and the count's writes land. -/
def repeats (s : State) (i j : QInstr) (cnt : OpsIn → Nat) : Bool :=
  s.qeReady 23 && s.qeBase 23 == i.base && (s.qeOf 23).rep.isNone && !bitOf flRPT (s.qflags 23) &&
    match s.qeFetch 23 0 with
    | .ok (s1, w) => i.static 23 w && match s1.qeFetch 23 1 with
      | .ok (s2, w2) => (qLookup 23 (baseOf w2)).any (fun k => k.base == j.base) && repeatable (baseOf w2) && j.static 23 w2 &&
        match s2.readAll 23 i w 1 with
        | .ok o => (match s2.commitAll 23 i o { st := o.st, count := cnt o } with | .ok _ => true | _ => false)
        | _ => false
      | _ => false
    | _ => false
/-- The hypotheses of the end of a wait: in `s` the instruction `i` at the PC reads its operands, and the writes of `r` land. -/
def endsWait (s : State) (i : QInstr) (p : State → Bool) (r : OpsIn → Res) : Bool :=
  !s.rst.chip && !s.rst.core && s.qeWaiting 23 && p s &&
    match s.qeFetch 23 0 with
    | .ok (s1, w) => match s1.readAll 23 i w 1 with
      | .ok o => p o.st && (match s1.commitAll 23 i o (r o) with | .ok _ => true | _ => false)
      | _ => false
    | _ => false
/-- An engine that waits in instruction `i`, event 0 pending. -/
def waitingIn (i : QInstr) (q : QWait) : State := ((engineWith 23 (wordOf i 5 5 0)).setQe 23 { run := .running, wait := q }).setReg (QE_EVENT 23) 1
/-- Engine 23 is about to execute a CALL whose push would go below its limit. -/
def overflows (s : State) : Bool :=
  s.qeReady 23 && s.qeBase 23 == iCall.base &&
    match s.qeFetch 23 0 with
    | .ok (s1, w) => iCall.static 23 w && match s1.formOp 23 .target (specC w) [] with
      | .ok fc => (fc.2.2.badExtent .target).isNone && match fc.1.spWord 23 0x40 with
        | .ok x => x.2 % 8 == 0 && match x.1.spWord 23 0x50 with
          | .ok l => decide ((x.2 + 65528) % 65536 < l.2)
          | _ => false
        | _ => false
      | _ => false
    | _ => false
theorem witness_EngineCallsRepeatsAndWaitsComplete : (plain 23 iCall && plain 23 iRet
    && runs (engineWith 24 (wordOf iScope 5 5 5)) 24 iScope (fun o => !decide ((o.v.a = 2 ∧ 24 ≤ o.v.b) ∨ (o.v.a = 4 ∧ 6 ≤ o.v.b)))
    && runs (engineWith 24 (wordOf iLogev 0x80 5 5)) 24 iLogev (fun o => decide (0x80 ≤ o.v.a))
    && (match (engineWith 23 (wordOf iTrap 5 5 5)).qeFetch 23 0 with
      | .ok (s1, w) => (match s1.readAll 23 iTrap w 1 with | .ok _ => (engineWith 23 (wordOf iTrap 5 5 5)).qeReady 23 | _ => false)
      | _ => false)
    && (engineWith 23 0).qeReady 23 && (qLookup 23 ((engineWith 23 0).qeBase 23)).isNone
    && (match (engineWith 23 0).qeFetch 23 0 with | .ok _ => true | _ => false)
    && repeats (engineWith2 (wordOf iRep 5 5 5) (wordOf iNop 5 5 5)) iRep iNop (fun o => o.v.b + 1)
    && repeats (engineWith2 (wordOf iRepi 5 5 5) (wordOf iNop 5 5 5)) iRepi iNop (fun o => o.v.b)
    && overflows (engineWith 23 (wordOf iCall 5 5 5) |>.store (spBase 23 + 0x40) [16] |>.store (spBase 23 + 0x50) [16])
    && endsWait (waitingIn iWaite (.events 1 0)) iWaite (fun s => (s.qeOf 23).wait == .events 1 0 && (s.qevents 23 &&& 1) != 0)
      (fun o => { st := o.st.clearEv 23 (putBits 15 8 (o.st.qevents 23 &&& 1) 0), wa := some (o.st.qevents 23 &&& 1),
                  fl := some (withBit (withBit o.v.fl flZ (o.st.qevents 23 &&& 1 == 0)) flN (bitOf 31 (o.st.qevents 23 &&& 1))) })
    && endsWait (waitingIn iWaite (.events 2 1)) iWaiteTimeout (fun s => (s.qeOf 23).wait == .events 2 1)
      (fun o => { st := o.st, wa := some 0, fl := some (withBit (withBit o.v.fl flZ true) flN false) })
    && endsWait (waitingIn iWaitt (.until 0)) iWaitt (fun s => (s.qeOf 23).wait == .until 0 && decide (0 ≤ s.time.tod)) (fun o => { st := o.st })) = true := by
  decide
/-! ### Frames and ports -/

/-- Port 5 up at 1000 Mbit/s in MODE 4, port 0 at the same speed. -/
def portOn (p : PortSt) (l : List (Nat × Word)) : State :=
  (withRegs ([(PORT_CTL 5, PORT_CTL_MODE.put 0 4), (PORT_LINK 5, PORT_LINK_SPEED.put (PORT_LINK_UP.put 0 1) 2), (PORT_LINK 0, PORT_LINK_SPEED.put 0 2)]
    ++ l)).modPort 5 fun _ => p
/-- A frame of 64 zero octets (the CRC is another matter) for port 5. -/
def heldFrame (done : Bool) : Frame := { port := 0, ts := 0, bytes := List.replicate 64 0, done := done, egress := [5] }
/-- Frame 0 is held in queue `c` of port 5. -/
def withFrame (c : Nat) (f : Frame) (s : State) : State := { s with sw := { s.sw with frames := [(0, some f)], q := [(40 + c, [0])] } }
/-- Frame 0 leaves port 5. -/
def sending (ct : Bool) : TxFrame := { frame := 0, ts := 0, cls := 0, ct := ct }
/-- Port 5 receives a frame whose bytes so far are these. -/
def receiving (bs : List Nat) : State := portOn { line := true, rx := some { bytes := bs, ts := 0, front := some { vid := 0, vlanOk := false, stream := none, cfg := [], cls := 0 } } } []
theorem witness_FramesPassPortsAndStowagePlans :
    (let bs := addFcs (List.replicate 60 0) false
      let s := receiving bs
      [!s.rst.chip, decide (64 ≤ bs.length), decide (bs.length ≤ s.fld (PORT_MAX_FRAME 5) PORT_MAX_FRAME_BYTES), fcsGood bs, beAt bs 12 2 != 0x8808].all id) = true
    ∧ (let s := portOn { line := true } []
      [s.portLive 5, (s.portOf 5).rx.isNone, decide (13 ≤ s.fld (PORT_MAX_FRAME 5) PORT_MAX_FRAME_BYTES)].all id) = true
    ∧ (((List.range 8).map fun k => 7 - k).findSome? (({ State.reset with sw := { frames := [(0, some { heldFrame true with egress := [7] })], q := [(63, [0])] } } : State).handHead 7)).isSome = true
    ∧ (let s := withFrame 7 { heldFrame false with proc := true, ct := true } (portOn { line := true } [])
      s.lineFree 5 && (s.ctHead 5).isSome) = true
    ∧ (let s := withFrame 7 (heldFrame true) (portOn { line := true, tx := some (sending true) } [])
      [(s.portOf 5).tx == some (sending true), !(sending true).sfd, (sending true).ct, s.frameAt 0 == some (heldFrame true), (heldFrame true).done,
        !(heldFrame true).oversize].all id) = true
    ∧ (let s := withFrame 7 { heldFrame true with oversize := true } (portOn { line := true, tx := some (sending true) } [])
      match s.frameAt 0 with | some f => f.oversize && f.done | none => false) = true
    ∧ (let s := (withFrame 7 (heldFrame true) (portOn { line := true } [])).fcDefer 5
      match s.eligible 5 7 s.time.tod with | some (_, f) => s.lineFree 5 && decide (s.leaveLen f 5 ≤ 9216) | none => false) = true
    ∧ (let s := (withFrame 7 { heldFrame false with proc := true, ct := true } (portOn { line := true } [])).fcDefer 5
      (s.eligible 5 7 s.time.tod).isNone && (s.ctHead 5).isSome) = true
    ∧ (let s := (withFrame 0 (heldFrame true) (portOn { line := true } [])).fcDefer 5
      s.lineFree 5 && (s.eligible 5 7 s.time.tod).isNone && (s.ctHead 5).isNone && !s.controlOk 5 s.time.tod
        && match s.selectFrom 5 s.time.tod 0 with | some (_, f) => decide (s.leaveLen f 5 ≤ 9216) | none => false) = true
    ∧ (let s := (portOn { line := true } [(PORT_FC_TX 5, PORT_FC_TX_SEND.put 0 1)]).fcDefer 5
      s.lineFree 5 && (s.eligible 5 7 s.time.tod).isNone && (s.ctHead 5).isNone && s.controlOk 5 s.time.tod) = true
    ∧ (let s := (withFrame 0 { heldFrame true with bytes := List.replicate 128 0 } (portOn { line := true, tx := some { sending false with pre := true } } [])).modTide
        fun t => { t with holds := [5] }
      match (s.portOf 5).tx, s.frameAt 0 with
      | some t, some f => [t.pre, decide (t.base < 60), decide (t.fmin ≤ 60 - t.base + 4), decide (60 + 64 ≤ s.leaveLen f 5),
          s.tideHold 5 || s.paused 5 t.cls || s.expressReady 5 t.c6].all id
      | _, _ => false) = true
    ∧ (let s := portOn { line := true, cut := some (sending false) } []
      (s.portOf 5).cut.isSome && s.lineFree 5 && !s.tideHold 5 && !s.paused 5 0 && !s.expressReady 5 (sending false).c6) = true
    ∧ (taken STOW_CMD (STOW_CMD_OP.put 0 1) && taken STOW_CMD (STOW_CMD_OP.put 0 2)) = true
    ∧ (let s := withRegs [(STOW_CMD, 0x80000100)]
      s.bit STOW_CMD STOW_CMD_BUSY && s.fld STOW_CMD STOW_CMD_OP == 1 && !s.copying (s.fld STOW_CMD STOW_CMD_PLAN) && !s.copyDue (s.fld STOW_CMD STOW_CMD_PLAN)) = true := by
  decide +kernel
theorem witness_FramesPass_inv : (receiving (addFcs (List.replicate 60 0) false)).Inv ∧ (portOn { line := true } []).Inv := by unfold State.Inv State.storeOk State.unitsOk; decide +kernel
theorem witness_PortControlWrites : (taken (PORT_CTL 5) (PORT_CTL_MODE.put 0 4) && PORT_CTL_RESET.get (PORT_CTL_MODE.put 0 4) == 0
      && PORT_CTL_MODE.get (PORT_CTL_MODE.put 0 4) != State.reset.fld (PORT_CTL 5) PORT_CTL_MODE
    && taken (PORT_CTL 5) (PORT_CTL_RESET.put 0 1) && PORT_CTL_MODE.get 0 == State.reset.fld (PORT_CTL 5) PORT_CTL_MODE
    && (portOn {} []).writeTaken .pcie (PORT_CTL 5) (PORT_CTL_RESTART_AN.put (PORT_CTL_MODE.put 0 4) 1)
      && PORT_CTL_MODE.get (PORT_CTL_MODE.put 0 4) == (portOn {} []).fld (PORT_CTL 5) PORT_CTL_MODE
    && taken (PORT_FC_TX 5) (PORT_FC_TX_SEND.put 0 1) && taken (PORT_MM_CTL 5) 0x50 && taken PORT_MDIO_CMD 1) = true := by decide
theorem witness_PortEventsAct : ((portOn { reset := true } []).portOf 5).reset = true
    ∧ (let s := withRegs [(PORT_CTL 5, PORT_CTL_MODE.put 0 4)]
      [s.portMode 5 != 0, !(s.portOf 5).reset, !s.portTest 5, speedOffered (s.portMode 5) (PORT_AN_ADV_SPEED_FORCE.get (w32 (s.portOf 5).adv)),
        !(s.portOf 5).filter, !s.portUp 5, speedAllowed (s.portMode 5) (PORT_AN_ADV_SPEED_FORCE.get (w32 (s.portOf 5).adv)) 2].all id) = true
    ∧ (portOn { line := true } []).portLive 5 = true ∧ ((portOn { filter := true } []).portOf 5).filter = true
    ∧ (portOn { line := true } [(PORT_FC_CTL 5, PORT_FC_CTL_PAUSE_EN.put 0 1)]).bit (PORT_FC_CTL 5) PORT_FC_CTL_PAUSE_EN = true
    ∧ (portOn { line := true } [(PORT_FC_CTL 5, PORT_FC_CTL_PFC_EN.put 0 1)]).bit (PORT_FC_CTL 5) PORT_FC_CTL_PFC_EN = true
    ∧ (let s := portOn { line := true } [(PORT_EEE_CTL 5, PORT_EEE_CTL_EEE_EN.put 0 1), (PORT_AN_LP 5, 0x80)]
      [s.portLive 5, s.bit (PORT_EEE_CTL 5) PORT_EEE_CTL_EEE_EN, (s.eeeMin 5).isSome, s.eeePartner 5, s.portIdle 5, (s.portOf 5).lpi == .awake].all id) = true
    ∧ (let s := withFrame 0 (heldFrame true) (portOn { lpi := .asleep } [(PORT_EEE_CTL 5, PORT_EEE_CTL_WAKE_ON_QUEUE.put 0 1)])
      [s.bit (PORT_EEE_CTL 5) PORT_EEE_CTL_WAKE_ON_QUEUE, !(List.range 8).all (fun c => (s.swq (8 * 5 + c)).isEmpty), (s.portOf 5).lpi == .asleep].all id) = true
    ∧ ((portOn { lpi := .waking } []).portOf 5).lpi = .waking
    ∧ (portOn { line := true } []).bit (PORT_LINK 5) PORT_LINK_LPI_RX = false
    ∧ (let s := portOn { line := true } [(PORT_LINK 5, PORT_LINK_LPI_RX.put (PORT_LINK_SPEED.put (PORT_LINK_UP.put 0 1) 2) 1)]
      s.portLive 5 && s.bit (PORT_LINK 5) PORT_LINK_LPI_RX) = true
    ∧ (withRegs [(PORT_MM_STATUS 5, PORT_MM_STATUS_VERIFY_STATE.put 0 2)]).fld (PORT_MM_STATUS 5) PORT_MM_STATUS_VERIFY_STATE = 2
    ∧ ({ State.reset with mdio := [2] } : State).mdio = 2 :: [] := by
  refine ⟨by decide, by decide, by decide, by decide, by decide, by decide, by decide, by decide, by decide, by decide, by decide, by decide, rfl⟩
/-! ### Engines, queues, channels, CAN -/

/-- Engine 23 in a state. -/
def eng (q : QeSt) (l : List (Nat × Word)) : State := (withRegs l).setQe 23 q
theorem witness_EngineControlWrites : (taken (QE_EVENT_SET 23) 5 && taken (QE_CTL 23) (QE_CTL_START.put 0 1) && taken (QE_CTL 23) (QE_CTL_STOP.put 0 1)
    && taken (QE_CTL 23) (QE_CTL_HALT.put 0 1) && taken (QE_CTL 23) (QE_CTL_RESUME.put 0 1)
    && (eng { run := .halted } []).writeTaken .pcie (QE_CTL 23) (QE_CTL_STEP.put 0 1) && ((eng { run := .halted } []).qeOf 23).run == .halted
    && taken (QE_WDOG 23) (QE_WDOG_KICK.put 0 1) && taken (BERTH_CTL 23) (BERTH_CTL_START.put 0 1) && taken (BERTH_CTL 23) (BERTH_CTL_STOP.put 0 1)
    && taken (BERTH_CTL 23) (BERTH_CTL_NOTIFY.put 0 1) && taken (BERTH_CTL 23) (BERTH_CTL_RESET.put 0 1)
    && State.reset.writeTaken .debug (QE_CTL 24) (QE_CTL_START.put 0 1)) = true := by decide +kernel
theorem witness_EngineControlWrites_inv : (eng { run := .halted } []).Inv := by unfold State.Inv State.storeOk State.unitsOk; decide
theorem witness_EngineEventsAct : (let s := eng { run := .running, wait := .stream } []
      (s.qeOf 23).wait == .stream && s.qeWaiting 23) = true
    ∧ (let s := (eng { run := .running } [(QE_EVENT 23, 1), (QE_EVENT_IE 23, 1)]).setQflags 23 (2 ^ flIE)
      (s.qeOf 23).run == .running && !s.qeStalled 23 && !(s.qeOf 23).inRep && (s.qeIrq 23).isSome) = true
    ∧ (let s := eng { run := .running } [(QE_BP01 23, QE_BP01_MODE0.put 0 1)]
      (s.qeOf 23).wait == .none && !s.qeStalled 23 && s.bpMode 23 == 1 && (match s.qeFetch 23 0 with | .ok _ => true | _ => false)
        && (match (s.setPoison (iramBase 23)).qeFetch 23 0 with | .fault _ _ _ => true | _ => false) && (s.setPoison (iramBase 23)).bpMode 23 == 1) = true
    ∧ (let s := eng { run := .running } [(QE_BP01 23, QE_BP01_MODE0.put 0 2)]
      (s.qeOf 23).wait == .none && !s.qeStalled 23 && s.bpMode 23 == 2) = true
    ∧ (withRegs [(QE_TIMER 23, 1)]).fld (QE_TIMER 23) QE_TIMER_PERIOD ≠ 0
    ∧ (let s := eng { run := .stopping } []
      (s.qeOf 23).run == .stopping && !s.qeStalled 23 && !(s.qeOf 23).inRep) = true
    ∧ (let s := eng { run := .running } [(QE_WDOG 23, 1)]
      (s.qeOf 23).run == .running && !s.qeStalled 23 && !(s.qeOf 23).inRep && s.fld (QE_WDOG 23) QE_WDOG_TIMEOUT != 0) = true
    ∧ (withRegs [(BERTH_STATE 23, BERTH_STATE_RESETTING.put 0 1)]).bit (BERTH_STATE 23) BERTH_STATE_RESETTING = true := by
  decide +kernel

/-- Ferry queue 511 enabled, with room, holding `l`. -/
def fqWith (l : List FqWord) : State := State.reset.setFq 511 { en := true, limit := 8, words := l, cells := if l.isEmpty then [] else [0] }
/-- The packet of words `l`. -/
def packetOf (l : List Nat) : List FqWord := l.zipIdx.map fun x => ⟨x.1, x.2 + 1 == l.length, false, 0, false, false⟩
/-- Queue 511 is the first transmit queue of P6 and holds the packet of words `l`. -/
def txWith (l : List Nat) : State := (withRegs [(FERRY_TXQ 0, 0x800001FF)]).setFq 511 { en := true, limit := 64, words := packetOf l, cells := [0] }
/-- What SWITCH_PORT_TRANSMIT asks of its packet: whether it is bad, and whether it names an egress but its own. -/
def txCheck (l : List Nat) : Option (Bool × Bool) := match (txWith l).txqNext 6 with
  | some (_, q) =>
    let ws := (headPacket ((txWith l).fqOf q).words).map (fun x => { x with poison := x.poison || x.bad })
    let bs := ws.flatMap FqWord.bytes
    let hd := leAt bs 0 4
    some (ws.any (fun x => x.trunc) || hd / 2 ^ 26 != 0 || decide (bitsOf 13 0 hd < 14) || decide (9212 < bitsOf 13 0 hd)
      || bitsOf 13 0 hd != (bs.drop 4).length, !decide (bitsOf 25 18 hd ≠ 0 ∧ putBits 6 6 (bitsOf 25 18 hd) 0 = 0))
  | none => none
theorem witness_FerryQueuesPushPopAndFlush : ((fqWith []).writeTaken .pcie (FQ_DATA 511) 7 && (fqWith []).writeTaken .pcie (FQ_TAG 511) 7
    && (fqWith []).readTaken .pcie (FQ_DATA 511) && (fqWith []).fqHead 511 == none
    && (fqWith (packetOf [7])).readTaken .pcie (FQ_DATA 511) && ((fqWith (packetOf [7])).fqHead 511).isSome
    && taken FERRY_FLUSH 511 && taken FERRY_Q_CTL (FERRY_Q_CTL_FLUSH.put 0 1)
    && txCheck [16, 0, 0, 0, 0] == some (false, true) && (txCheck [16]).any (fun r => r.1)) = true := by decide +kernel

/-- DMA channel 31 active at descriptor 0x1000_0020, its progress `x`. -/
def dmaWith (x : DmaSt) : State := (withRegs [(DMA_STATE 31, 1), (DMA_NEXT 31, 0x10000020)]).setDma 31 x
/-- The channel's descriptor has these words. -/
def dmaDesc (l : List Nat) : State := (dmaWith {}).store 0x10000020 (l.flatMap (leBytes 4))
theorem witness_DmaChannelsRunDescriptors : (taken (DMA_CTL 31) (DMA_CTL_START.put 0 1) && taken (DMA_CTL 31) (DMA_CTL_ABORT.put 0 1)
    && (let s := dmaDesc [0x80000004, 0x10001000, 0x10002000, 0, 0, 0, 0, 0]
      s.dmaActive 31 && !(s.dmaOf 31).fetched && (match s.dmaGets s 31 false [(s.dmaNext 31, 16), (s.dmaNext 31 + 16, 16)] with
        | .ok t bs => !({ skipQ := (t.dmaOf 31).skipQ, desc := (List.range 8).map (fun i => leAt bs (4 * i) 4) } : DmaSt).badDesc | _ => false))
    && (let s := dmaDesc [0x80000000, 0, 0, 0, 0, 0, 0, 0]
      match s.dmaGets s 31 false [(s.dmaNext 31, 16), (s.dmaNext 31 + 16, 16)] with
        | .ok t bs => ({ skipQ := (t.dmaOf 31).skipQ, desc := (List.range 8).map (fun i => leAt bs (4 * i) 4) } : DmaSt).badDesc | _ => false)
    && (let d := [0x80000004, 0x10001000, 0x10002000, 0, 0, 0, 0, 0]
      let seven (s : State) : State := s.forN 8 fun u k => (u.setReg (DMA_STATE k) 1).setDma k { desc := d, region := true }
      [(dmaWith { desc := d, region := true }, true, false), (dmaWith { desc := d }, false, true), (seven (dmaWith { desc := d }), false, false)].all fun p =>
        let u := (p.1.dmaSkip 31).1
        p.1.dmaActive 31 && (p.1.dmaOf 31).fetched && (p.1.dmaSkip 31).2 && u.dmaSize 31 != 0 && u.dmaHolds 31 == p.2.1 && u.dmaWins 31 == p.2.2)
    && [0x28, 0x20].all (fun sel =>
      let s := (({ dmaWith { desc := [0x80000004, 0x10001000, 0x10002000, 0, 0, 0, sel, 0] } with dreq := [7] } : State).putF (DMA_STATE 31) DMA_STATE_PENDING 1)
      (s.dmaOf 31).sel == sel && (s.dmaOf 31).burst == 0 && s.dmaWins 31)
    && [true, false].all (fun l =>
      let s := (soundOn (0xD0 + 7) 0).modTime fun t => { t with seen := if l then [] else [0xD0 + 7] }
      (s.pinSeen (0xD0 + 7) l).inputLevel (0xD0 + 7) == l && (s.pinSeen (0xD0 + 7) l).inputSeen (0xD0 + 7) == !l)
    && State.reset.inputLevel (0xD0 + 7) == State.reset.inputSeen (0xD0 + 7)
    && [0x80000004, 0x90000004].all (fun w => let s := dmaWith { desc := [w, 0x10001000, 0x10002000, 0, 0, 0, 0, 0], moved := 4 }
      s.dmaActive 31 && (s.dmaOf 31).fetched && (s.dmaOf 31).goal == 0 && (s.dmaOf 31).moved == (s.dmaOf 31).len && (s.dmaExcess 31).2 && ((s.dmaExcess 31).1.dmaClose 31).2
        && ((s.dmaOf 31).wb == false || (let u := ((s.dmaExcess 31).1.dmaClose 31).1
          match u.dmaPuts u 31 false [(u.dmaNext 31 + 0x1C, leBytes 4 (u.dmaOf 31).status)] with | .ok _ _ => true | _ => false)))) = true := by
  decide +kernel

/-- CAN controller 3 in a state. -/
def canWith (x : CanSt) (l : List (Nat × Word)) : State := (withRegs l).setCan 3 x
/-- A frame of no data in transmit buffer 0. -/
def canBuf0 : CanBuf := { w0 := 1, w1 := 0, data := [], tries := 1 }
/-- The SOF of a frame. -/
def sof0 : CanSof := ⟨0, 0, 0, 0, none, false⟩
/-- Controller 3 sends buffer 0. -/
def canSending : State := canWith { mode := 1, bufs := [(0, some canBuf0)], tx := some ⟨.buf 0, 1, 0, [], sof0, none⟩ } []
/-- The time-triggered unit on CAN0 in a schedule, with a trigger at mark 0. -/
def ttWith (ctl st : Nat) : State := { withRegs [(TT_CTL, w32 ctl), (TT_STATE, w32 st), (TT_CYCLE_LEN, 1), (TT_TRIG_CNT, 1), (TT_TRIG_A 0, 0x80020000)] with
  tt := { begun := true }, time := { tick := 1000000000 } }
theorem witness_CanControllersAndScheduleAct : (taken (CAN_CTL 3) 0 && taken (CAN_TX_CANCEL 3) 7 && taken TT_CTL (TT_CTL_EN.put 0 1)
    && taken (TT_ABUF_CTL 15) (TT_ABUF_CTL_UPDATE.put 0 1)
    && (let s := canWith {} [(CAN_CTL 3, CAN_CTL_MODE.put 0 1)]
      !(s.canOf 3).busy && s.fld (CAN_CTL 3) CAN_CTL_MODE != 0 && (s.canOf 3).mode == 0 && !(s.canOf 3).drain && !s.canKept 3)
    && (let s := canWith { mode := 1, integ := true } [(CAN_CTL 3, CAN_CTL_MODE.put 0 1)]
      !(s.canOf 3).busy && s.fld (CAN_CTL 3) CAN_CTL_MODE != 0 && (s.canOf 3).mode != 0 && !s.canKept 3)
    && [([1, 0], true), ([1], false)].all (fun p =>
      let s := (canWith { mode := 1 } [(CAN_FQ 3, CAN_FQ_TXQ.put 0 511)]).setFq 511 { en := true, limit := 8, words := packetOf p.1, cells := [0] }
      ((s.canOf 3).slot (s.bit (CAN_CTL 3) CAN_CTL_TXPRIO)).isSome && (s.canOf 3).mode != 0 && !s.canTest 3 && !s.ttPair && s.fqComplete (s.fld (CAN_FQ 3) CAN_FQ_TXQ)
        && (txPacket (s.bit (CAN_CTL 3) CAN_CTL_FD_EN) (headPacket (s.fqOf (s.fld (CAN_FQ 3) CAN_FQ_TXQ)).words)).isSome == p.2)
    && (let s := canWith { mode := 1, bufs := [(0, some canBuf0)] } []
      s.canMay 3 && (s.canOf 3).spec.isNone && (s.canOf 3).nextTx == some (0, canBuf0) && s.ttAllows 3 canBuf0)
    && (match (canSending.canOf 3).tx with | some o => o.src == .buf 0 && !canSending.canDelayBad 3 o (some 0) | none => false)
    && (let s := canWith { boff := true, recov := true } []
      (s.canOf 3).boff && (s.canOf 3).recov && !s.canKept 3)
    && (let s := canWith { mode := 1 } []
      (s.canOf 3).mode != 0 && !(s.canOf 3).boff && !(s.canOf 3).integ && !(s.canOf 3).busy && !s.canKept 3 && !s.canTest 3 && (s.canOf 3).tx.isNone)
    && ((canWith { mode := 1, rx := some sof0 } []).canOf 3).rx == some sof0
    && (let s := ttWith 1 0x12
      s.ttOn && decide (2 ≤ s.ttState) && s.ttRole == 1 && s.tt.begun && !s.tt.refOn && decide (s.ttLevel < 3)
        && decide (s.tt.cycAt + s.ttLen ≤ s.ttNow) && s.ttNext == some 0 && decide (s.tt.cycAt + taMark (s.trigA 0) * s.ttNtu ≤ s.ttNow)
        && decide (s.tt.cycAt + (s.ttPrio + 1) * s.fld TT_BACKUP_DELAY TT_BACKUP_DELAY_NTU * s.ttNtu ≤ s.ttNow)
        && (List.range 2).all (fun n => (s.canOf n).spec.isNone))
    && (let s := withRegs [(TT_ABUF_CTL 15, TT_ABUF_CTL_UPDATE.put 0 1)]
      s.bit (TT_ABUF_CTL 15) TT_ABUF_CTL_UPDATE && !s.abufRead 15)) = true := by decide +kernel
/-! ### Motion, choppers, encoders, converters, pilots -/

theorem witness_MotionCommandsWaitForTheTick : ([AX_CMD_START, AX_CMD_STOP, AX_CMD_ESTOP, AX_CMD_HOME, AX_CMD_ARM_NEXT, AX_CMD_CLEAR].all (fun f =>
      taken (AX_CMD 31) (f.put 0 1))
    && [GRP_CMD_START, GRP_CMD_STOP, GRP_CMD_ESTOP, GRP_CMD_CLEAR, GRP_CMD_LATCH].all (fun f => taken (GRP_CMD 7) (f.put 0 1))
    && (GRP_CMD_LATCH.put 0 1).toNat % 64 == 8) = true := by decide +kernel
theorem witness_AxesMoveAtTheTick : (!later.rst.chip && decide (later.tickAt * 1000 * 2 ^ 32 ≤ later.time.tod) && taken (AX_POS_LO 31) 1 && taken (AX_POS_HI 31) 1
    && State.reset.readTaken .pcie (AX_POS_LO 31) && (State.reset.axOf 31).raw 2 == (State.reset.pinSeen 95 true).inputLevel 95
    && ((soundOn 95 0).pinSeen 95 true).inputLevel 95 && !(((soundOn 95 0).pinSeen 95 true).axOf 31).raw 2
    && decide ((State.reset.axOf 31).edgeAt 2 + 250 * State.reset.filtOf 31 2 ≤ State.reset.time.tick)
    && (let s := State.reset.setAx 31 { filts := AX_FILT_LIM_FILT.put 0 1 }
      decide (s.time.tick < (s.axOf 31).edgeAt 1 + 250 * s.filtOf 31 1))) = true := by decide +kernel
/-- Both phases of chopper 7 stand at `ph`. -/
def chopAt (ph : ChopPh) (l : List (Nat × Word)) : State := (withRegs l).setChop 7 { a := { ph := ph }, b := { ph := ph } }
theorem witness_ChoppersRegulateTheCurrent : ((let s := (chopAt .off [(CHOP_CTL 7, 1), (LH_STATE, 0)]).setAx 7 { outp := 2 }
      s.energised 7 && (s.phaseOf 7 1).ph == .off)
    && ((chopAt .dead []).phaseOf 7 1).ph == .dead && ((chopAt .blank []).phaseOf 7 1).ph == .blank && ((chopAt .on []).phaseOf 7 1).ph == .on
    && !(chopAt .blank []).ampExceeds 7 ((chopAt .blank []).chopCode 7 1 ((chopAt .blank []).phaseOf 7 1).cur) 0
    && (chopAt .blank []).ampExceeds 7 ((chopAt .blank []).chopCode 7 1 ((chopAt .blank []).phaseOf 7 1).cur) 1000000000
    && (chopAt .on []).ampExceeds 7 ((chopAt .on []).chopCode 7 1 ((chopAt .on []).phaseOf 7 1).cur) 1000000000
    && ((chopAt .decay []).phaseOf 7 1).ph == .decay && (chopAt .decay []).fld (CHOP_CTL 7) CHOP_CTL_DECAY != 3
    && (chopAt .decay [(CHOP_CTL 7, CHOP_CTL_DECAY.put 0 3)]).fld (CHOP_CTL 7) CHOP_CTL_DECAY == 3
    && ((chopAt .on []).phaseOf 7 0).onPhase
    && (chopAt .on []).ampExceeds 7 (max (2 * (chopAt .on []).chopCode 7 0 ((chopAt .on []).phaseOf 7 0).cur) 128) 1000000000
    && (let s : State := { withRegs [(CHOP_REST 7, 1)] with time := { tick := 250 } }
      s.fld (CHOP_REST 7) CHOP_REST_REST_DELAY != 0
        && decide ((s.axOf 7).movedAt + 250 * s.fld (CHOP_REST 7) CHOP_REST_REST_DELAY ≤ s.time.tick))) = true := by decide +kernel
/-- Encoder 31 in a mode, its inputs following pins. -/
def encAt (mode : Nat) : State := withRegs [(ENC_CFG 31, ENC_CFG_MODE.put 0 mode), (SOUND_SEL (0x60 + 31), 512 + 192), (SOUND_SEL (0x80 + 31), 512 + 193),
  (SOUND_SEL (0xA0 + 31), 512 + 194)]
/-- What its filters take at an edge to levels `a` and `b`: channel A, channel B. -/
def encTakes (mode : Nat) (a b : Bool) : Bool × Bool :=
  let r := ((encAt mode).pinSeen (0x60 + 31) a).pinSeen (0x80 + 31) b
  let e := r.encOf 31
  let la := r.inputLevel (0x60 + 31)
  let lb := r.inputLevel (0x80 + 31)
  let u := r.setEnc 31 { e with rawA := la, rawB := lb, sinceA := if la = e.rawA then e.sinceA else r.time.tick,
                                sinceB := if lb = e.rawB then e.sinceB else r.time.tick }
  let x := u.encOf 31
  (e.rawA == e.a && e.rawB == e.b && e.rawZ == e.z && x.sinceA == x.sinceB && u.fld (ENC_CFG 31) ENC_CFG_MODE == mode && x.rawA != x.a && u.encStable 31 x.sinceA,
    x.rawB != x.b && u.encStable 31 x.sinceB)
/-- Converter 1 has the results of sequence 0 to deliver. -/
def adcOut (l : List (Nat × Word)) : State := (withRegs l).setAdc 1 { out := [(0, [5], 0)] }
theorem witness_EncodersCountAndConvertersSample : ([0, 1, 2, 3].all (fun m => encTakes m true false == (true, false)) && encTakes 1 false false == (false, false)
    && encTakes 1 true true == (true, true) && encTakes 3 false true == (false, true)
    && (let r := (encAt 0).pinSeen (0xA0 + 31) true
      let e := r.encOf 31
      let z := r.inputLevel (0xA0 + 31)
      let u := r.setEnc 31 { e with rawZ := z, sinceZ := if z = e.rawZ then e.sinceZ else r.time.tick }
      let x := u.encOf 31
      e.rawA == e.a && e.rawB == e.b && e.rawZ == e.z && x.rawZ != x.z && u.encStable 31 x.sinceZ
        && x.rawZ != u.bit (ENC_CFG 31) ENC_CFG_IDX_EDGE && !u.bit (ENC_CFG 31) ENC_CFG_IDX_GATE)
    && taken (ENC_COUNT_LO 31) 1 && taken (ENC_COUNT_HI 31) 1 && State.reset.readTaken .pcie (ENC_COUNT_LO 31) && taken (ADC_CMD 1) (ADC_CMD_START.put 0 1)
    && (let s := (withRegs [(ADC_SEQ_CFG 1 0, 1)]).setAdc 1 { busy := true }
      (s.adcOf 1).busy && decide ((s.adcOf 1).res.length < s.fld (ADC_SEQ_CFG 1 (s.adcOf 1).seq) ADC_SEQ_CFG_LEN_M1))
    && (let s := (withRegs [(ADC_SEQ_CFG 1 0, 0)]).setAdc 1 { busy := true }
      decide (s.fld (ADC_SEQ_CFG 1 (s.adcOf 1).seq) ADC_SEQ_CFG_LEN_M1 ≤ (s.adcOf 1).res.length))
    && (let u := ((adcOut [(TIDE_HB_CFG 0, 0x80000000)]).setAdc 1 {}).setB (ADC_STATUS 1) ADC_STATUS_DONE
      u.fld (ADC_SEQ_CFG 1 0) ADC_SEQ_CFG_DEST == 0 && u.hbLineW (u.fld (ADC_SEQ_CFG 1 0) ADC_SEQ_CFG_BUF)
        && decide (u.fld (ADC_SEQ_BOFF 1 0) ADC_SEQ_BOFF_BOFF + 2 ≤ u.hbSize (u.fld (ADC_SEQ_CFG 1 0) ADC_SEQ_CFG_BUF)))
    && [true, false].all (fun room =>
      let u := (((adcOut [(ADC_SEQ_CFG 1 0, ADC_SEQ_CFG_FQ.put (ADC_SEQ_CFG_DEST.put 0 1) 511)]).setFq 511 { en := room, limit := 8 }).setAdc 1 {}).setB
        (ADC_STATUS 1) ADC_STATUS_DONE
      u.fld (ADC_SEQ_CFG 1 0) ADC_SEQ_CFG_DEST != 0 && u.fqRoomN (u.fld (ADC_SEQ_CFG 1 0) ADC_SEQ_CFG_FQ)
        (packWords (leBytes 4 (0 + 16 * 1 + 2 ^ 16 * 1) ++ leBytes 4 (todNs 0) ++ leBytes 2 5)).length == room)
    && ((adcOut []).adcOf 1).out == [(0, [5], 0)]
    && (State.reset.setOutside (SOUND_SEL_PIN.get 0) true).writeTaken .pcie (SOUND_SEL 215) 0) = true := by decide +kernel

/-- Pilot 31 in a state, its set's word 0 being `w`. -/
def pilotAt (x : PilotSt) (w : Nat) (l : List (Nat × Word)) : State := ((withRegs l).setPilot 31 x).store (pilotAddr 7 0) (leBytes 3 w)
/-- Pilot 31 runs opcode `op` with the argument `arg`. -/
theorem pilot_runs (op arg : Nat) (h : (let s := pilotAt { run := 1 } (op * 4096 + arg) []
      !s.rst.chip && s.pilotExecutes 31 && s.pilotWord 31 == op * 4096 + arg && plOp (op * 4096 + arg) == op
        && !(s.psetOf (31 / 4)).bad.contains (s.pilotOf 31).pc && !s.plIllegal 31 (op * 4096 + arg)) = true) :
    (pilotAt { run := 1 } (op * 4096 + arg) []).pilotRuns 31 op (op * 4096 + arg) := by
  simp only [Bool.and_eq_true, Bool.not_eq_true', beq_iff_eq] at h
  exact ⟨h.1.1.1.1.1, h.1.1.1.1.2, h.1.1.1.2, h.1.1.2, h.1.2, h.2⟩
theorem witness_PilotInstructionsComplete :
    (∀ p ∈ [(1, 0), (2, 0), (3, 0), (4, 0), (5, 0), (6, 0), (7, 1), (8, 0)],
      (pilotAt { run := 1 } (p.1 * 4096 + p.2) []).pilotRuns 31 p.1 (p.1 * 4096 + p.2) ∧ (pilotAt { run := 1 } (p.1 * 4096 + p.2) []).Inv)
    ∧ (let s := pilotAt { run := 1 } 0 []
      s.pilotExecutes 31 && !(s.psetOf (31 / 4)).bad.contains (s.pilotOf 31).pc && s.plIllegal 31 (s.pilotWord 31)) = true := by
  refine ⟨fun p h => ?_, by decide +kernel⟩
  constructor
  · simp only [List.mem_cons, List.not_mem_nil, or_false] at h
    rcases h with rfl | rfl | rfl | rfl | rfl | rfl | rfl | rfl <;> exact pilot_runs _ _ (by decide +kernel)
  · simp only [List.mem_cons, List.not_mem_nil, or_false] at h
    unfold State.Inv State.storeOk State.unitsOk
    rcases h with rfl | rfl | rfl | rfl | rfl | rfl | rfl | rfl <;> decide +kernel
theorem witness_PilotEventsAndCommandsAct : ((let s := pilotAt { run := 1, phase := .await 4 0 0 [] false } 0 []
      (s.pilotOf 31).run == 1 && (s.pilotOf 31).phase == .await 4 0 0 [] false && awaitHolds 4 [] false && !awaitHolds 5 [] false)
    && (let s := pilotAt { run := 1, phase := .load false 0, tx := [1] } 0 []
      (s.pilotOf 31).phase == .load false 0 && (s.pilotOf 31).tx != [])
    && (let s := pilotAt { run := 1, phase := .store false 0 } 0 [(PL_CFG 31, PL_CFG_TXDEPTH.put 0 0)]
      (s.pilotOf 31).phase == .store false 0 && decide ((s.pilotOf 31).rx.length < s.rxDepth 31))
    && ((pilotAt { run := 1, phase := .dwell } 0 []).pilotOf 31).phase == .dwell
    && [PL_CTL_START, PL_CTL_STOP, PL_CTL_KICK, PL_CTL_FLUSH].all (fun f => taken (PL_CTL 31) (f.put 0 1))
    && taken (PS_CTL 7) 1 && taken (PS_CTL 7) (PS_CTL_STOP.put 0 1) && taken (PL_TXDATA 31) 1 && State.reset.readTaken .pcie (PL_RXDATA 31) && (State.reset.pilotOf 31).rx == []
    && (let s := pilotAt { rx := [1] } 0 []
      s.readTaken .pcie (PL_RXDATA 31) && (s.pilotOf 31).rx == [1])) = true := by decide +kernel
/-! ### Host interfaces, mailboxes, logbook -/

/-- The causeway in a state. -/
def cwWith (f : CwSt → CwSt) (l : List (Nat × Word)) : State := (withRegs l).modCw f
/-- An interface holds these operations. -/
def opsAt (k : Nat) (l : List CwOp) : State := State.reset.modIf k fun x => { x with ops := l }
/-- An access of PCIe address 0x8000_0000 by engine 23 waits, sent or not. -/
def waiting (sent : Bool) : State := cwWith (fun c => { c with waits := [{ who := .qe 23, addr := 0x80000000, buf := true, sent := sent }] }) []
theorem witness_PcieRequestsAreTaken : (!later.rst.chip && !later.rst.cw && decide (4 * 0 + 4 * 1 ≤ (later.barOf 0).2) && toRegs 0 ((later.barOf 0).1 + 4 * 0)
    && !toRegs 2 ((later.barOf 2).1 + 4 * 0) && decide (4 * 0 + 8 ≤ (later.barOf 2).2)
    && later.cw.aer.check == false && (cwWith (fun c => { c with aer := { check := true } }) []).cw.aer.check
    && (let s := opsAt 0 [.read 0x10000000 [15]]
      (s.ifOf 0).ops == [.read 0x10000000 [15]] && (s.ifOf 0).mute == 0 && !s.fenced 0
        && match s.readCpls (cplSplit 0x10000000 1 [15]) with | (_, e, _, _) => e != .waiting)
    && (let s := withRegs [(HOSTIF_MAP 55, HOSTIF_MAP_VECTOR.put (HOSTIF_MAP_MSIX_EN.put 0 1) 63), (HOSTIF_PCIE_STATE, HOSTIF_PCIE_STATE_BME.put
        (HOSTIF_PCIE_STATE_MSIX_EN.put 0 1) 1), (MSIX_VCTL 63, 0), (MB_DB_OUT, 0x80000000)]
      s.vecPending 63 && s.msixOpen 63 && !s.cw.sent.contains 63)
    && taken HOSTIF_MSIX_REARM 63 && !later.cw.perst && !later.rst.banks.contains 6
    && ({ State.reset with rst := { chip := true } } : State).rst.chip && ({ State.reset with rst := { cw := true } } : State).rst.cw) = true := by decide +kernel
/-- An access of 32 engines waits with a buffer each, none on the link. -/
def allHeld : State := cwWith (fun c => { c with waits := List.replicate 32 { who := .qe 23, addr := 0x80000000, buf := true } }) []
theorem witness_OutboundRoom : (isRegister 0x40040040 && allHeld.mayAccess .pcie 0x40040040 && allHeld.isNext .pcie && allHeld.needsRoom .pcie 0x40040040
    && !allHeld.inboundRoom.takesBack && !allHeld.fenceMet .pcie 0x40040040) = true := by decide +kernel
theorem witness_OutboundDelayedAndPostedTransactionsEnd : (!((later.cw.strays ++ later.cw.waits).any fun x =>
      x.isOf (.qe 23) 0x80000000 (busWrites (.read 4)) && x.result.isNone && !x.sent)
    && (((waiting false).cw.strays ++ (waiting false).cw.waits).any fun x => x.isOf (.qe 23) 0x80000000 (busWrites (.read 4)) && x.result.isNone && !x.sent)
    && (waiting true).readSent (.qe 23) 0x80000000
    && (cwWith (fun c => { c with strays := [{ who := .qe 23, addr := 0x80000000, buf := true, sent := true }] }) []).readSent (.qe 23) 0x80000000
    && (let s := cwWith (fun c => { c with late := [(.qe 23, 0x80000000)] }) []
      !s.readSent (.qe 23) 0x80000000 && s.cw.late.contains (.qe 23, 0x80000000))
    && (let s := cwWith (fun c => { c with waits := [{ who := .qe 23, addr := 0x80000000, buf := false }] }) []
      ((s.cw.strays ++ s.cw.waits).find? (fun x => x.who == .qe 23 && x.addr == 0x80000000 && !x.buf && x.result.isNone
        && decide (0x80000000 ≤ x.addr))).isSome)
    && (let s := State.reset.modIf 2 fun x => { x with ops := [.delayed 0], dl := [{ id := 0, write := false, addr := 0x10000000, ben := 15, data := 0 }] }
      (s.ifOf (1 + 1)).ops == [.delayed 0] && (s.ifOf (1 + 1)).mute == 0 && ((s.ifOf (1 + 1)).dl.find? (fun x => x.id == 0)).isSome)
    && ((opsAt 2 [.write 0 0x10000000 [] 1 false false]).ifOf 2).ops == [.write 0 0x10000000 [] 1 false false]
    && taken CW_PWLOG_CTL (CW_PWLOG_CTL_CLEAR.put 0 1)) = true := by decide +kernel
theorem witness_Outbound_inv : (opsAt 2 [.write 0 0x10000000 [] 1 false false]).Inv := by unfold State.Inv State.storeOk State.unitsOk; decide +kernel
/-- The host bus on, 32 bits wide. -/
def hbWith (f : CwSt → CwSt) : State := cwWith f [(HOSTIF_HB_CFG, HOSTIF_HB_CFG_WIDTH.put (HOSTIF_HB_CFG_MODE.put 0 1) 1), (HOSTIF_HB_PAGE, HOSTIF_HB_PAGE_PAGE.put 0 0x10)]
theorem witness_HostBusAndQspiCyclesEnd : (!(hbWith id).rst.banks.contains 0 && !later.rst.banks.contains 6 && (let s := hbWith id
      s.hbOn && !s.hbNarrow && decide ((0 : Nat) < 0xFFFFF0) && decide (0xFFFFFC / 4 = 0xFFFFFC / 4) && decide (0xFFFFF0 / 4 = 0xFFFFF0 / 4)
        && (let u := s.lockSample true
          let v := u.dropHalf
          let wa := (u.fld HOSTIF_HB_PAGE HOSTIF_HB_PAGE_PAGE * 2 ^ 24 + 0) / 4 * 4
          !v.isSide wa && (v.heldWrite wa 15 0).isNone && decide (v.bufferedWords 1 < 16)))
    && (let v := ((hbWith fun c => { c with ifs := [(1, { ops := List.replicate 16 (.write 0 0x10000000 [some 1] 0 false false) })] }).lockSample true).dropHalf
      !v.isSide 0x10000000 && (v.heldWrite 0x10000000 15 0).isNone && decide (16 ≤ v.bufferedWords 1))
    && (let u := (cwWith id [(HOSTIF_HB_CFG, HOSTIF_HB_CFG_WIDTH.put (HOSTIF_HB_CFG_MODE.put 0 1) 1), (HOSTIF_HB_PAGE, HOSTIF_HB_PAGE_PAGE.put 0 0x40)]).lockSample true
      u.dropHalf.isSide ((u.fld HOSTIF_HB_PAGE HOSTIF_HB_PAGE_PAGE * 2 ^ 24 + 0x40040) / 4 * 4))
    && (let l : HbLock := { region := 0x10000000, taken := some 0 }
      let s : State := { cwWith (fun c => { c with lock := some l }) [] with time := { tick := 500 } }
      s.cw.lock == some l && decide (0 + 500 ≤ s.time.tick))
    && State.reset.bufferedWords 2 == 0 && (opsAt 2 [.write 0 0x10000000 [some 1] 0 false false]).bufferedWords 2 != 0
    && !(hbWith id).lockedSeq && (hbWith fun c => { c with lock := some { region := 0x10000000, taken := some 0 } }).lockedSeq) = true := by decide +kernel
theorem witness_MailboxesFillAndEmpty : (taken (MB_DATA 15 15) 1 && State.reset.writeTaken .hm (MB_DATA 31 15) 1 && taken (MB_CTL 15) (MB_CTL_GO.put 0 1) && taken (MB_CTL 31) (MB_CTL_RELEASE.put 0 1)
    && State.reset.writeTaken .hm (MB_CTL 31) (MB_CTL_GO.put 0 1)
    && (let s : State := { State.reset.setMb 31 { claim := some (0, 0) } with time := { tick := 2 ^ 32 } }
      (s.mbOf 31).claim.isSome && decide ((s.mbOf 31).at' + 250 * s.fld MB_CLAIM_TIME MB_CLAIM_TIME_US ≤ s.time.tick))
    && (let s : State := { State.reset with arrival := [15] }
      s.readTaken .hm MB_ARRIVAL && s.arrival == [15])
    && taken MB_DB_IN_SET 1 && State.reset.writeTaken .hm MB_DB_OUT_SET 1) = true := by decide +kernel
theorem witness_LogbookRecordsAndFreezes : (taken LOG_EVENT 0x80 && taken LOG_CTL 1 && taken LOG_CMD (LOG_CMD_OP.put 0 1) && taken LOG_CMD (LOG_CMD_OP.put 0 2)
    && taken LOG_CMD (LOG_CMD_OP.put 0 3)
    && ({ State.reset with log := { dirty := [255] } } : State).log.dirty.contains 255
    && (let s : State := { State.reset with log := { win := [(255, some { count := 1, limit := 1, span := 1, opened := {} })] }, time := { tick := 250000 } }
      match s.bwOpen 255 with | some x => decide (x.opened.hi + x.span * 25000000 ≤ s.lhNow.hi) | none => false)
    && (let s := withRegs [(LOG_CTL, LOG_CTL_FREEZE.put 0 1)]
      s.logFrozen && !s.bit LOG_CTL LOG_CTL_FROZEN && !s.rst.vinBad)
    && (let s : State := { withRegs [(LOG_CTL, LOG_CTL_FREEZE.put 0 1)] with log := { dirty := [255] }, rst := { vinBad := true } }
      s.logFrozen && !s.bit LOG_CTL LOG_CTL_FROZEN && s.rst.vinBad && s.log.dirty != [])
    && !State.reset.logFrozen && !State.reset.rst.lhOff && !State.reset.rst.vinBad && (State.reset.reg LH_OPSEC).toNat != 0xFFFFFFFF) = true := by
  decide +kernel
/-! ### Lighthouse, tests, debug port, supplies, resets -/

/-- The lighthouse in a state. -/
def lhWith (f : LhSt → LhSt) : State := State.reset.modLh f
/-- A watchdog of 1 ms with ACTION 1, long after its restart; engine 0 belongs to berth 23 and runs. -/
def wdogAt (k : Nat) : State := { withRegs [(LH_WDOG k, LH_WDOG_TIMEOUT.put (LH_WDOG_ACTION.put 0 1) 1), (BERTH_CFG 23, 1)] with
  time := { tick := 1000000 }, qe := [(0, { run := .running })] }
/-- A frame with this code, 0 after it, and a CRC that is right or one off. -/
def lhFrameOf (code off : Nat) : LhFrame :=
  let b := code :: List.replicate 6 0
  { clocks := 64, bytes := (b ++ [(crc8 b + off) % 256]).map (BitVec.ofNat 8) }
/-- The frame is good (R446). -/
def frameGood (f : LhFrame) : Bool :=
  let b := f.bytes.map BitVec.toNat
  decide (f.clocks = 64) && crc8 (b.take 7) == b.getD 7 0
theorem witness_LighthouseAndItsPortAct : (!later.rst.lhOff && !later.bit LH_STATE LH_STATE_SAFEN && taken LH_CTL (LH_CTL_SAFE_REQ.put 0 1)
    && LH_CTL_RELEASE.get (LH_CTL_SAFE_REQ.put 0 1) == 0 && taken LH_CTL (LH_CTL_RELEASE.put 0 1)
    && LH_CTL_SAFE_REQ.get (LH_CTL_RELEASE.put 0 1) == 0
    && (let s := withRegs [(LH_STATE, LH_STATE_LATCH.put 0 1)]
      s.safeDue && !s.safe)
    && (let s := withRegs [(LH_STATE, LH_STATE_SAFE.put 0 1)]
      !s.safeDue && s.safe)
    && [23, 24].all (fun k => (wdogAt k).fld (LH_WDOG k) LH_WDOG_ACTION == 1 && (wdogAt k).fld (LH_WDOG k) LH_WDOG_TIMEOUT != 0 && (wdogAt k).wdogRuns k
      && (wdogAt k).wdogDue k)
    && State.reset.writeTaken .hm LH_KICK 24
    && (lhWith fun l => { l with freeze := true, busy := true }).lh.busy && (lhWith fun l => { l with freeze := true, busy := true }).lh.freeze
    && frameGood (lhFrameOf 0 0) && frameGood (lhFrameOf 0x33 0) && !frameGood (lhFrameOf 0 1) && !frameGood { clocks := 63, bytes := [] }
    && (lhWith fun l => { l with busy := true }).lh.busy
    && !later.rst.banks.contains 7 && !later.lh.busy && lhOffset 0x40010000 0 && lhOffset 0x40020000 0
    && (State.reset.regWrite .lhPort (0x40010000 + 0) (w32 0)).2 == .done
    && (({ State.reset with rst := { chip := true } } : State).regWrite .lhPort (0x40010000 + 0) (w32 0)).2 == .done && (State.reset.busRead .lhPort (0x40020000 + 0) 4).2.1 == .done
    && (State.reset.busWrite .lhPort (0x40020000 + 0) (leBytes 4 0)).2 == .done && decide (27 % 256 ≤ 27)) = true := by decide +kernel
theorem witness_LinkTestsAndDebugPortAct : (taken (TEST_LINK_CTL 63) 0 && decide (6 ≤ 63)
    && (let s := withRegs [(TEST_LINK_CTL 0, TEST_LINK_CTL_CHK.put 0 1), (TEST_LINK_STATE 0, TEST_LINK_STATE_LOCKED.put 0 1)]
      s.laneOn 0 0 && s.laneLocked 0 0 && !s.bit (TEST_LINK_CTL 0) TEST_LINK_CTL_LOOP)
    && (let s := withRegs [(TEST_LINK_CTL 0, TEST_LINK_CTL_PATTERN.put (TEST_LINK_CTL_LOOP.put (TEST_LINK_CTL_GEN.put (TEST_LINK_CTL_CHK.put 0 1) 1) 1) 1)]
      s.laneOn 0 0 && s.bit (TEST_LINK_CTL 0) TEST_LINK_CTL_LOOP && s.linkSends 0)
    && !State.reset.rst.lhOff && !State.reset.rst.banks.contains 7
    && (let s : State := { State.reset with tap := { ir := .debug } }
      s.tap.ir == .debug && !s.tapBusy)
    && State.reset.writeTaken .debug SYS_RESET (SYS_RESET_CHIP.put 0 1) && State.reset.writeTaken .debug SYS_RESET (SYS_RESET_CORE.put 0 1)
    && SYS_RESET_CHIP.get (SYS_RESET_CORE.put 0 1) == 0) = true := by decide +kernel
theorem witness_SuppliesAndClocksAct : (!later.rst.vinBad && !later.rst.banks.contains 5 && !later.rst.pin && !later.rst.banks.contains 7 && taken SYS_CLK_CFG 0
    && ({ State.reset with rst := { banks := [7] } } : State).rst.banks.contains 7 && later.fld SYS_CLK_CFG SYS_CLK_CFG_TS_SRC == 0
    && (let s := withRegs [(SYS_CLK_CFG, SYS_CLK_CFG_CAN_ACTIVE.put (SYS_CLK_CFG_TS_ACTIVE.put 0 1) 1)]
      s.bit SYS_CLK_CFG SYS_CLK_CFG_TS_ACTIVE && s.bit SYS_CLK_CFG SYS_CLK_CFG_CAN_ACTIVE)) = true := by decide +kernel
/-- Resets in a state. -/
def rstWith (r : RstSt) : State := { State.reset with rst := r }
/-- The harbourmaster in a state. -/
def hmWith (h : HmSt) : State := { State.reset with hm := h }
/-- A muster frame of a type with an INDEX and a SPAN, padded with zeros. -/
def musterFrame (type index span : Nat) : List (BitVec 8) :=
  (List.replicate 6 255 ++ List.replicate 6 0 ++ [0x88, 0xB6, type, 1] ++ List.replicate 12 0 ++ beBytes 2 index ++ beBytes 2 span ++ List.replicate 32 0).map
    (BitVec.ofNat 8)
/-- A node in the muster that has adopted originator 0 and is locked, block 0 of session 0 staged. -/
def mustered : State := { withRegs [(SYS_MUSTER, 0x88B6), (SYS_NODE_ADDR, SYS_NODE_ADDR_LOCKED.put 0 1)] with
  hm := { run := .muster, muster := { adopted := some (0, 0), session := some 0, blocks := [(0, 1)] } } }
/-- The frame is taken for one of its type from the adopted originator. -/
def musterTakes (type index span : Nat) (q : Nat) (up : Bool) : Bool :=
  let u := mustered.modMuster fun x => { x with sent := [] }
  match u.mframe ((musterFrame type index span).map BitVec.toNat) with
  | some f => f.type == type && u.musterPort q && u.musterLocked && u.adoptedIs f && (q == u.upstream) == up
  | none => false
theorem witness_ResetsBootAndMusterAct : ((rstWith { req := [(.chip, 3)] }).reqSources .chip == [3]
    && (let s := rstWith { chip := true }
      s.rst.chip && !s.rst.pin && !s.rst.vinBad && !s.rst.lhOff && !s.rst.banks.contains 7)
    && (let s := rstWith { req := [(.core, 3)] }
      s.reqSources .core == [3] && s.reqSources .chip == [])
    && (rstWith { core := true }).rst.core
    && (let s := rstWith { req := [(.causeway, 4)] }
      s.reqSources .causeway == [4] && s.reqSources .chip == [])
    && (hmWith { run := .rom }).hm.run == .rom
    && (let s := hmWith { run := .waitHost, start := some ([], 0, 0) }
      s.hm.run == .waitHost && s.hm.start == some ([], 0, 0) && !(s.mbOf (16 + 0)).full && s.cw.lock.isNone)
    && (let s := hmWith { run := .muster, start := some ([], 0, 0) }
      s.hm.run == .muster && s.hm.start == some ([], 0, 0))
    && (let s := (hmWith { run := .firmware }).setQe 24 { run := .running }
      s.hm.run == .firmware && !s.hm.loaded && (s.qeOf 24).run == .running && s.cw.lock.isNone
        && (s.applySlots ((List.range (32 - s.hm.next)).map (· + s.hm.next))).1.hm.muster.rest == [])
    && musterTakes 1 0 0 0 true && musterTakes 2 0 4 0 true && musterTakes 3 1 0 0 true && musterTakes 4 0 0 1 false
    && (let b := (musterFrame 3 1 0).map BitVec.toNat
      let u := mustered.modMuster fun x => { x with sent := [] }
      match u.mframe b with
      | some f =>
        let v := (u.musterSend (otherPort 0) (u.fromHere b)).newSession f.session
        let w := v.modMuster fun x => { x with dones := x.dones + 1 }
        let r := w.eccRead 0x10000000 (beAt f.data 4 4)
        !v.hm.muster.failed && v.hm.start.isNone && (List.range f.index).all w.blockHeld && decide (beAt f.data 4 4 ≤ f.index * 1024)
          && !r.poisonedN 0x10000000 (beAt f.data 4 4) && crc32 (r.rdBytes 0x10000000 (beAt f.data 4 4)) == beAt f.data 0 4
      | none => false)) = true := by decide +kernel
/-! ### Commands of the harbourmaster -/

/-- Mailbox 15 holds a request of code `c` with these words, and the firmware serves. -/
def asked (c : Nat) (ws : List Nat) (s : State) : State :=
  let s := ((c * 2 ^ 24 + ws.length * 2 ^ 16 + 0x3300) :: ws).zipIdx.foldl (fun u x => u.setReg (MB_DATA 15 x.2) (w32 x.1)) s
  ({ s with hm := { s.hm with run := .firmware, loaded := true }, arrival := [15] } : State).setMb 15 { full := true } |>.setQe 24 { run := .running }
/-- Conditions of State.hmTakes. -/
def takesAsked (s : State) (c n : Nat) (long : Bool) : Bool :=
  !s.rst.chip && (!s.rst.core && (s.takes 15 && ((s.reqOf 15).code == c && ((s.reqOf 15).len == n && (decide (n ≤ 15)
    && ((s.take 15).served.contains c && (decide ((s.reqOf 15).flags < 2) && (!(s.take 15).deniedTo (s.reqOf 15)
    && (!((s.take 15).objsOf c (s.reqOf 15).ws).any (s.take 15).heldObjs.contains && (!long || decide ((s.take 15).longRuns.length < 4)))))))))))
theorem hm_takes {s : State} {c n : Nat} {long : Bool} (h : takesAsked s c n long = true) : s.hmTakes 15 c n long := by
  simp only [takesAsked, Bool.and_eq_true, Bool.not_eq_true', beq_iff_eq, decide_eq_true_eq, Bool.or_eq_true, Bool.not_eq_true'] at h
  obtain ⟨h1, h2, h3, h4, h5, h6, h7, h8, h9, h10, h11⟩ := h
  exact ⟨h1, h2, h3, h4, h5, h6, h7, h8, h9, h10, fun hl => by simpa [hl] using h11⟩
/-- Reset, asked. -/
def ask (c : Nat) (ws : List Nat) : State := asked c ws State.reset
/-- A request is taken as its code, LENGTH and kind. -/
def okAsk (c : Nat) (ws : List Nat) (long : Bool) : Bool := takesAsked (ask c ws) c ws.length long
/-- A QE_CODE image of one instruction for engine 23. -/
def imageBytes : List Nat :=
  let head := leBytes 4 0x554D464C ++ leBytes 4 0x101 ++ leBytes 4 0x800000 ++ leBytes 4 0 ++ leBytes 4 8 ++ leBytes 4 0 ++ leBytes 4 1
  head ++ leBytes 4 (crc32 (head ++ List.replicate 8 0)) ++ List.replicate 40 0
/-- The image stands at the start of PIM. -/
def withImage : State := State.reset.store 0x10000000 imageBytes
/-- The words of an image request for it. -/
def imageAsk : List Nat := [0, 0x10000000, 0, 72]
/-- MRAM slot 0 holds an image. -/
def withSlot : State := State.reset.slotPut 0 (imageBytes.take 64 ++ leBytes 4 0 ++ leBytes 4 72) 1
/-- A long command of mailbox 3 or 15. -/
def longOf (m code : Nat) (ws : List Nat) (st : Nat) : LongCmd := { m := m, code := code, tag := 0, flags := 0, words := ws, stage := st }
/-- The firmware serves and this long command runs. -/
def longRuns (l : LongCmd) (r : List (Nat × Word)) : State :=
  { withRegs r with hm := { run := .firmware, loaded := true, long := [l] }, qe := [(24, { run := .running })], time := { tick := 10 } }
/-- The long command runs and the firmware serves it. -/
def longServed (l : LongCmd) (r : List (Nat × Word)) : Bool :=
  (longRuns l r).firmwareServes && (longRuns l r).longOf l.m == some l && (longRuns l r).cw.lock.isNone
theorem witness_HarbourmasterAnswersHousekeeping : (okAsk 0x01 [] false && !((ask 1 []).take 15).romServes && okAsk 0x02 [1, 2] false
    && [[0], [1], [0x1702], [3], [0x504]].all (fun ws => okAsk 0x03 ws false) && bitsOf 12 8 0x504 == 5 && bitsOf 12 8 0x1702 == 23
    && (let s := asked 0x04 [3] { State.reset with hm := { long := [longOf 3 0x11 [] 0] } }
      takesAsked s 0x04 1 false && (s.take 15).longOf (bitsOf 3 0 ((s.reqOf 15).w 1)) == some (longOf 3 0x11 [] 0))
    && (let s := asked 0x04 [3] ({ State.reset with hm := { long := [longOf 3 0x60 [31] 0] } } |>.setAx 31 { st := .moving })
      takesAsked s 0x04 1 false && (s.take 15).longOf (bitsOf 3 0 ((s.reqOf 15).w 1)) == some (longOf 3 0x60 [31] 0)
        && ((s.take 15).axOf 31).st == .moving)
    && (let s := asked 0x03 [0x1702] (withRegs [(BERTH_CFG 23, 1)] |>.setQe 0 { run := .running } |>.modCw fun c => { c with waits := [{ who := .qe 0, addr := 0x10000000 }] })
      takesAsked s 0x03 1 false && (berthResetEnd 23 ((s.take 15).scopeReset 2 23)).bit (BERTH_STATE 23) BERTH_STATE_RESETTING)
    && !State.reset.rst.vinBad && okAsk 0x05 [1] false && !bitOf 15 ((ask 0x05 [1]).reqOf 15 |>.w 1)
    && okAsk 0x05 (0x8000 :: List.replicate 8 1) false && bitOf 15 (((ask 0x05 (0x8000 :: List.replicate 8 1)).reqOf 15).w 1)
    && okAsk 0x70 [] false && okAsk 0x72 [] false && okAsk 0x71 [0x1B02] false
    && decide (bitsOf 15 8 (((ask 0x71 [0x1B02]).reqOf 15).w 1) < 28) && logCodeUsed (bitsOf 7 0 (((ask 0x71 [0x1B02]).reqOf 15).w 1))
    && okAsk 0x80 [63, 0] false && linkExists (((ask 0x80 [63, 0]).reqOf 15).w 1)
    && (((ask 0x80 [63, 0]).take 15).cmdWrites [(TEST_LINK_CTL (((ask 0x80 [63, 0]).reqOf 15).w 1), ((ask 0x80 [63, 0]).reqOf 15).w 2, 2)]).2.isNone
    && okAsk 0x81 [63] false && linkExists (((ask 0x81 [63]).reqOf 15).w 1)
    && (let s : State := { State.reset with hm := { resets := [(.core, 15, 0)] } }
      (s.hm.resets.find? (fun r => r.2.1 == 15)).isSome && !(s.mbOf (16 + 15)).full)) = true := by decide +kernel
/-- The image of the request is fetched and passes every check. -/
def fetches (s : State) (use : ImgUse) (ws : List Nat) : Bool := s.cw.lock.isNone && ((s.take 15).imgFetch use (imgReqOf ws) none).2.detail == 0
theorem witness_HarbourmasterTakesImagesAndBerths : ([(0x10, ImgUse.load), (0x11, .keep), (0x12, .keep)].all (fun p => let s := asked p.1 imageAsk withImage
      takesAsked s p.1 4 true && (imgReqBad (s.reqOf 15).ws 1).isNone && !(s.take 15).romServes && (imgReqOf (s.reqOf 15).ws).source != 2
        && fetches s p.2 (s.reqOf 15).ws)
    && [0x13, 0x14].all (fun c => let s := asked c [0] withSlot
      takesAsked s c 1 false && (((s.take 15).slotRead (bitsOf 5 0 ((s.reqOf 15).w 1))).slotValid (bitsOf 5 0 ((s.reqOf 15).w 1))).isSome)
    && (let s := ask 0x20 [23, 1, 0]
      let r := s.reqOf 15
      let u := s.take 15
      let b := bitsOf 4 0 (r.w 1)
      takesAsked s 0x20 3 false && b == 23 && !u.discards (BERTH_CFG b) (w32 (r.w 2)) && !(u.hmW (BERTH_CFG b) (r.w 2)).discards (BERTH_FQ b) (w32 (r.w 3)))
    && (let s := ask 0x21 [23, 0]
      takesAsked s 0x21 2 false && !(s.take 15).discards (BERTH_RES (bitsOf 4 0 ((s.reqOf 15).w 1))) (w32 ((s.reqOf 15).w 2)))
    && (let s := asked 0x22 [23] (withRegs [(BERTH_CFG 23, 0x800000)])
      takesAsked s 0x22 1 false && bitsOf 4 0 ((s.reqOf 15).w 1) == 23 && (s.take 15).berthEngines 23 == [23]
        && ((s.take 15).berthEngines 23).all (fun n => decide (((s.take 15).qeOf n).run = .stopped)))
    && (let s := ask 0x23 [23]
      takesAsked s 0x23 1 true && bitsOf 4 0 ((s.reqOf 15).w 1) == 23 && (((s.take 15).addLong (s.reqOf 15) id).longOf 15).isSome)
    && (let l := longOf 15 0x23 [23] 1
      let s := (longRuns l [(BERTH_CFG 23, 1)]).setQe 0 { run := .running }
      s.longOf 15 == some l && s.firmwareServes && !s.berthStopped 23 && decide (l.since + 250 * bitsOf 31 16 23 ≤ s.time.tick))
    && (let s := asked 0x24 (23 :: imageAsk) (withImage.setReg (BERTH_CFG 23) 0x800000)
      takesAsked s 0x24 5 true && (imgReqBad ((s.reqOf 15).ws.drop 1) 2).isNone
        && fetches s (.reload ((s.take 15).fld (BERTH_CFG (bitsOf 4 0 ((s.reqOf 15).w 1))) BERTH_CFG_ENGINES)) ((s.reqOf 15).ws.drop 1))) = true := by
  decide +kernel
/-- The writes that a command makes into registers are all served. -/
def served (s : State) (l : List (Nat × Nat × Nat)) : Bool := (s.cmdWrites l).2.isNone
theorem witness_HarbourmasterDrivesTideAndPorts : (okAsk 0x30 [1] true && !((ask 0x30 [1]).take 15).bankHeld 1
    && okAsk 0x31 [0, 0] true && served ((ask 0x31 [0, 0]).take 15) [(TIDE_SWAP_AT_NS, 0, 1), (TIDE_SWAP_AT_SEC, 0, 2)]
    && (let s := asked 0x32 [1, 1024, 0] (withRegs [(TIDE_BANK_STATE 1, 2), (TIDE_BANK_CYCLE 1, 62500)])
      let p := (s.take 15).cmdWrites [(TIDE_BASE_NS, 1024, 2), (TIDE_BASE_SEC, 0, 3)]
      let c := 1 + 2 * bitsOf 0 0 ((s.reqOf 15).w 1)
      takesAsked s 0x32 3 false && p.2.isNone && served p.1 [(TIDE_CTL, c, 1)] && !p.1.setsBit TIDE_CTL c TIDE_STATUS TIDE_STATUS_START_REFUSED)
    && okAsk 0x33 [] false
    && (let s := ask 0x40 [5, 0x40, 0, 0, 0, 0x50]
      let u := s.take 15
      let ctl := w32 ((s.reqOf 15).w 2)
      takesAsked s 0x40 6 false && bitsOf 2 0 ((s.reqOf 15).w 1) == 5 && u.fld (PORT_CTL 5) PORT_CTL_MODE == 0
        && served u [(PORT_AN_ADV 5, 0, 3), (PORT_FC_CTL 5, 0, 4), (PORT_EEE_CTL 5, 0, 5), (PORT_MM_CTL 5, 0x50, 6), (PORT_CTL 5, (PORT_CTL_RESTART_AN.put ctl 1).toNat, 2)])
    && okAsk 0x41 [5] false && bitsOf 2 0 5 == 5
    && (let s := ask 0x42 (1023 :: List.replicate 8 0)
      takesAsked s 0x42 9 false && served ((s.take 15).clrB STREAM_CMD STREAM_CMD_BUSY)
        ((STREAM_SEL, bitsOf 9 0 ((s.reqOf 15).w 1), 1) :: strWinRegs.mapIdx (fun i a => (a, (s.reqOf 15).w (i + 2), i + 2))))
    && okAsk 0x43 [1023] false) = true := by decide +kernel
theorem witness_HarbourmasterDrivesTimeAndMotion : (okAsk 0x50 [] false
    && (let s := ask 0x51 [1, 0, 0, 0, 4, 0, 0, 0, 0]
      let p := (s.take 15).cmdWrites [(TIME_STEP_LO, 0, 2), (TIME_STEP_HI, 0, 3), (TIME_INC_LO, 0, 4), (TIME_INC_HI, 4, 5), (TIME_SET_FRAC, 0, 6), (TIME_SET_NS, 0, 7),
        (TIME_SET_SEC_LO, 0, 8), (TIME_SET_SEC_HI, 0, 9)]
      let q := p.1.cmdWrites [(TIME_CMD, 1, 1)]
      takesAsked s 0x51 9 false && p.2.isNone && q.2.isNone
        && !(q.1.clrB TIME_STATUS TIME_STATUS_JUMP_REFUSED).timeApplied.bit TIME_STATUS TIME_STATUS_JUMP_REFUSED)
    && okAsk 0x52 [1, 5] false && served ((ask 0x52 [1, 5]).take 15) [(TIME_CTL, 1, 1), (TIME_WDOG, 5, 2)]
    && (let s := asked 0x60 [31, 5, 0, 5, 5, 5] (withRegs [(AX_CFG 31, 1)])
      let p := (s.take 15).cmdWrites [(AX_TARGET_LO 31, 5, 2), (AX_TARGET_HI 31, 0, 3), (AX_VMAX 31, 5, 4), (AX_ACC 31, 5, 5), (AX_DEC 31, 5, 6)]
      takesAsked s 0x60 6 true && bitsOf 4 0 ((s.reqOf 15).w 1) == 31 && p.2.isNone && !p.1.setsBit (AX_CMD 31) 1 (AX_STATUS 31) AX_STATUS_REFUSED)
    && okAsk 0x61 [31] true && !((ask 0x61 [31]).take 15).setsBit (AX_CMD 31) 8 (AX_STATUS 31) AX_STATUS_REFUSED && okAsk 0x62 [31] false
    && okAsk 0x63 [7] true && !((ask 0x63 [7]).take 15).setsBit (GRP_CMD 7) 1 (GRP_STATUS 7) GRP_STATUS_REFUSED
    && longServed (longOf 15 0x23 [23] 0) [] && (longRuns (longOf 15 0x23 [23] 0) []).berthStopped 23
    && longServed (longOf 15 0x11 [] 0) [] && longServed (longOf 15 0x60 [31] 0) [] && ((longRuns (longOf 15 0x60 [31] 0) []).axOf 31).st == .idle
    && (longOf 15 0x60 [31] 0).aborters.isEmpty && !(longRuns (longOf 15 0x60 [31] 0) []).axWaits 31 1 && !((longRuns (longOf 15 0x60 [31] 0) []).axOf 31).refused
    && (let l := { longOf 15 0x60 [31] 0 with aborters := [(3, 0, 0)] }
      longServed l [] && !(longRuns l []).axWaits 31 2 && !((longRuns l []).axOf 31).refused)
    && (let l := { longOf 15 0x31 [] 0 with index := 1 }
      longServed l [] && !(longRuns l []).swapArmed && !(longRuns l []).tide.commit && (longRuns l []).activeBank != l.index)) = true := by decide +kernel
/-! ### The interconnect -/

theorem witness_InterconnectServesAccesses : (State.reset.writeTaken .pcie 0x40040040 1 && (findReg 0x40040040).isSome && isRegister 0x40040040
    && decide (0x40040040 % 4 = 0) && (match findReg 0x40040040 with
      | some (row, _) => !isCount64 (0x40000000 + blockOf 0x40040040 * 0x10000 + row.off) | none => false)
    && later.mayAccess (.qe 0) 0x10000000 && (ifNum (.qe 0)).isNone && later.mayAccess .pcie 0x10000000 && (later.ifOf 0).ops == []
    && (withRegs [(CW_FENCE, 1)]).fenceMet .pcie 0x10000000 && !later.fenceMet .pcie 0x10000000
    && (let made (a : Nat) (l : Option HbLock) : BusEnd := (((later.modCw fun c => { c with lock := l }).admitWrite .pcie a 4).accessOp .pcie a
        (.write 4 1) 0).2.1
      later.posts .pcie 0x10000000 && made 0x10000000 none == .done && made 0x70000000 none == .busError
        && made 0x10000000 (some { region := 0x10000000, taken := some 0 }) == .waiting)
    && !(withRegs [(HOSTIF_HB_CFG, HOSTIF_HB_CFG_WIDTH.put (HOSTIF_HB_CFG_MODE.put 0 1) 1)]).posts .hostBus 0x40040040
    && (let s := (later.modCw fun c => { c with waits := [{ who := .qe 0, addr := 0x10000000 }] })
      reaches (.qe 0) 0x10000000 && (regionOf 0x10000000).isSome && (bankedOf 0x10000000).isNone
        && (s.cw.waits.any fun x => x.who == .qe 0 && x.addr == 0x10000000 && x.result.isNone))
    && (later.modMm fun m => { m with wback := [7] }).mm.wback.contains 7) = true := by decide +kernel

end Sys2Proof.Tests
end

section
/-! Proofs for 01 (architecture): what a memory write does to poison (R29), and SYS_EVENT as a live view of the summaries (R21). -/
namespace Sys2Proof.Machine

variable {s : State}

/-! ## Poison under a memory write (R29) -/

/-- Writing bytes leaves the memory marks, the poison among them. -/
@[simp] theorem State.wrBytes_mm (s : State) (a : Nat) (bs : List Nat) : (s.wrBytes a bs).mm = s.mm := by
  induction bs generalizing s a with
  | nil => rfl
  | cons b t ih => rw [State.wrBytes, ih, State.wr8_mm]

@[simp] theorem mem_nerase {k j : Nat} {l : List Nat} : j ∈ nerase k l ↔ j ∈ l ∧ j ≠ k := by
  simp [nerase]

/-- The lines covered whole are those that begin and end within the bytes. -/
theorem mem_wholeLines {a n l : Nat} : l ∈ wholeLines a n ↔ a ≤ 16 * l ∧ 16 * l + 16 ≤ a + n := by
  simp only [wholeLines, List.mem_filter, List.mem_map, List.mem_range, decide_eq_true_eq]
  constructor
  · rintro ⟨⟨k, -, rfl⟩, hend⟩
    omega
  · rintro ⟨hstart, hend⟩
    exact ⟨⟨l - (a + 15) / 16, by omega, by omega⟩, hend⟩

/-- Clearing lines takes just those lines out of the poison. -/
theorem State.mem_poison_clearLines (ls : List Nat) (s : State) (l : Nat) :
    l ∈ (ls.foldl State.clearLine s).mm.poison ↔ l ∈ s.mm.poison ∧ l ∉ ls := by
  induction ls generalizing s with
  | nil => simp
  | cons x t ih =>
    have hx : l ∈ (s.clearLine x).mm.poison ↔ l ∈ s.mm.poison ∧ l ≠ x := mem_nerase
    rw [List.foldl_cons, ih, hx, List.mem_cons, not_or, and_assoc]

/-- A store takes the lines that it covers whole out of the poison, and no other (R29). -/
theorem State.mem_poison_store (s : State) (a : Nat) (bs : List Nat) (l : Nat) :
    l ∈ (s.store a bs).mm.poison ↔ l ∈ s.mm.poison ∧ ¬(a ≤ 16 * l ∧ 16 * l + 16 ≤ a + bs.length) := by
  rw [State.store, State.mem_poison_clearLines, State.wrBytes_mm, mem_wholeLines]

/-- Settles O6: the bytes by `State.rd8_store`, the poison by the lines that the write covers whole. -/
theorem wholeWordWritesClearPoison : Obligations.WholeWordWritesClearPoison :=
  fun s a bs h => ⟨fun b => State.rd8_store h a b bs, State.mem_poison_store s a bs⟩

/-! ## SYS_EVENT (R21) -/

/-- Bit i of a packed number is the i-th truth value, 0 past the last one. -/
theorem packBits_testBit (l : List Bool) (i : Nat) : (packBits l).testBit i = l.getD i false := by
  induction l generalizing i with
  | nil => simp [packBits]
  | cons b t ih =>
    have hb : b2n b < 2 := by cases b <;> decide
    cases i with
    | zero => cases b <;> simp [packBits, b2n]
    | succ i =>
      have hd : packBits (b :: t) / 2 = packBits t := by simp only [packBits]; omega
      rw [Nat.testBit_succ, hd, ih, List.getD_cons_succ]

/-- A number and a word have a 1 in common when some bit of the word's width is 1 in both. -/
theorem land_toNat_ne_zero_iff (n : Nat) (w : Word) :
    Nat.land n w.toNat ≠ 0 ↔ ∃ i < 32, n.testBit i = true ∧ w.getLsbD i = true := by
  have hbit (i : Nat) : (Nat.land n w.toNat).testBit i = (n.testBit i && w.getLsbD i) := Nat.testBit_and ..
  constructor
  · intro hne
    obtain ⟨i, hi⟩ := Nat.exists_testBit_of_ne_zero hne
    rw [hbit, Bool.and_eq_true] at hi
    exact ⟨i, BitVec.lt_of_getLsbD hi.2, hi⟩
  · rintro ⟨i, -, hn, hw⟩ h0
    have hi := hbit i
    rw [h0, Nat.zero_testBit, hn, hw] at hi
    contradiction

/-- SYS_EVENT bit k is 1 when a bit is 1 in both the summary and the mask of block k (R21). -/
theorem State.sysEventBit_iff (s : State) (k : Nat) :
    s.sysEventBit k = true ↔ ∃ i < 32, (s.summary k).testBit i = true ∧ (s.reg (SUMMARY_MASK k)).getLsbD i = true := by
  rw [← land_toNat_ne_zero_iff]
  simp only [State.sysEventBit, Bool.and_eq_true, bne_iff_ne, and_iff_right_iff_imp]
  intro hne hmask
  exact hne (by rw [hmask]; exact Nat.and_zero _)

/-- SYS_EVENT holds its 24 bits from bit 0 on, and 0 above. -/
theorem State.sysEvent_getLsbD (s : State) (k : Nat) : s.sysEvent.getLsbD k = (decide (k < 24) && s.sysEventBit k) := by
  rw [State.sysEvent, BitVec.getLsbD, w32_toNat_eq, Nat.testBit_mod_two_pow, packBits_testBit]
  by_cases hk : k < 24
  · simp [hk, show k < 32 by omega]
  · simp [hk]

/-- A register reads as it is stored, so storing what it reads changes nothing. -/
theorem State.setReg_self (h : s.Inv) (a : Nat) : s.setReg a (s.reg a) = s := by
  rw [State.setReg, State.reg, tput_self h.regsOk]

/-- The row of SYS_EVENT: one field, read-only (R493). -/
def sysEventRow : RegRow := ⟨0xC, [], [⟨⟨23, 0⟩, .ro, 0⟩]⟩

theorem regAt_SYS_EVENT : RegAt SYS_EVENT 0 SYS_EVENT sysEventRow [] := by
  constructor <;> decide

/-- A read of SYS_EVENT gives the live word and changes nothing (R21). -/
theorem State.regRead_SYS_EVENT (s : State) (who : Initiator) : s.regRead who SYS_EVENT = (s, .done, s.sysEvent.toNat) := by
  have hlo : isCount64 SYS_EVENT = false := rfl
  have hhi : isCount64Hi SYS_EVENT = false := rfl
  have hview : s.blockView 0 SYS_EVENT 0 = some s.sysEvent := rfl
  have hread : blockRead who 0 SYS_EVENT 0 s = s := rfl
  have hsum : sysEventRow.off ≠ 0xFFF0 := by decide
  simp [State.regRead, regAt_SYS_EVENT.find, regAt_SYS_EVENT.block, regAt_SYS_EVENT.first, hsum, hlo, hhi, hview, hread]

/-- SYS_EVENT is read-only: a write of it is taken and changes nothing (R8, R21). -/
theorem State.regWrite_SYS_EVENT (h : s.Inv) (who : Initiator) (w : Word) : s.regWrite who SYS_EVENT w = (s, .done) := by
  have herr : s.wrErr who 0 SYS_EVENT [] w = false := rfl
  have hrej : s.wrReject who 0 SYS_EVENT 0 w = none := rfl
  have hbad : s.wrBad who SYS_EVENT 0 SYS_EVENT sysEventRow [] w = false := rfl
  have hstored : s.stored SYS_EVENT SYS_EVENT sysEventRow w = s := State.setReg_self h SYS_EVENT
  have hhook : blockHook who 0 SYS_EVENT 0 (s.reg SYS_EVENT) w s = s := rfl
  simp [State.regWrite, regAt_SYS_EVENT.find, regAt_SYS_EVENT.block, regAt_SYS_EVENT.first, herr, hrej, hbad, hstored, hhook]

/-- Settles O12: each bit by `State.sysEventBit_iff`, the accesses by the register's row, whose one field is read-only. -/
theorem sysEventIsTheOrOfEnabledBits : Obligations.SysEventIsTheOrOfEnabledBits := by
  intro s
  refine ⟨fun k hk => ?_, fun k hk => ?_, State.regRead_SYS_EVENT s, fun h => State.regWrite_SYS_EVENT h⟩
  · simp only [State.sysEvent_getLsbD, hk, decide_true, Bool.true_and, State.sysEventBit_iff]
  · simp only [State.sysEvent_getLsbD, Nat.not_lt.mpr hk, decide_false, Bool.false_and]

end Sys2Proof.Machine
end

section
/-! Proofs for 02 (time base): the time of day carries into seconds and wraps (R31), and the range that TIME_JUMP_LIMIT takes (R38). -/
namespace Sys2Proof.Machine

/-! ## The time of day (R31) -/

/-- NS stays below one second. -/
theorem todNs_lt (t : Nat) : todNs t < 1000000000 :=
  Nat.div_lt_of_lt_mul (Nat.mod_lt t (by decide))

/-- FRAC stays below 2^16. -/
theorem todFrac_lt (t : Nat) : todFrac t < 2 ^ 16 :=
  Nat.div_lt_of_lt_mul (Nat.mod_lt t (by decide))

/-- A move reaches the sum, or the same instant one turn of the seconds up. -/
theorem todAdd_cast (t : Nat) (d : Int) (h : -(todMod : Int) ≤ t + d) :
    ∃ turns : Int, (todAdd t d : Int) = t + d + turns * todMod := by
  unfold todAdd
  split
  · exact ⟨1, by omega⟩
  · exact ⟨0, by omega⟩

/-- An instant of q whole seconds and the part r below a second: its SEC is q wrapped at 2^48. -/
theorem todSec_of_split {x : Nat} {q r : Int} (hx : (x : Int) = secUnits * q + r) (h0 : 0 ≤ r) (h1 : r < secUnits) :
    (todSec x : Int) = q % 2 ^ 48 ∧ ((x % secUnits : Nat) : Int) = r := by
  have hsum : r + secUnits * q = x := by rw [hx, Int.add_comm]
  obtain ⟨hdiv, hmod⟩ := (Int.ediv_emod_unique (by decide)).mpr ⟨hsum, h0, h1⟩
  constructor
  · rw [todSec]
    push_cast
    rw [hdiv]
  · rw [Int.natCast_emod, hmod]

/-- A move whose sum with the part below a second is c whole seconds and r carries c into SEC, which wraps at 2^48; one second is the most that it
may borrow. -/
theorem todAdd_carry {t : Nat} {d : Int} (c r : Int) (hsum : ((t % secUnits : Nat) : Int) + d = secUnits * c + r) (h0 : 0 ≤ r) (h1 : r < secUnits)
    (hc : -1 ≤ c) : (todSec (todAdd t d) : Int) = (todSec t + c) % 2 ^ 48 ∧ ((todAdd t d % secUnits : Nat) : Int) = r := by
  have ht : (t : Int) = secUnits * (t / secUnits : Nat) + (t % secUnits : Nat) := by exact_mod_cast (Nat.div_add_mod t secUnits).symm
  have hlow : -(todMod : Int) ≤ t + d := by
    have hborrow : (secUnits : Int) * -1 ≤ secUnits * c := Int.mul_le_mul_of_nonneg_left hc (by decide)
    have hturn : secUnits ≤ todMod := by decide
    have hpart : t % secUnits ≤ t := Nat.mod_le ..
    omega
  obtain ⟨turns, hadd⟩ := todAdd_cast t d hlow
  have hsplit : (todAdd t d : Int) = secUnits * ((t / secUnits : Nat) + c + turns * 2 ^ 48) + r := by
    have hm : (todMod : Int) = 2 ^ 48 * secUnits := rfl
    rw [hadd, hm]
    linear_combination ht + hsum
  obtain ⟨hsec, hrest⟩ := todSec_of_split hsplit h0 h1
  refine ⟨?_, hrest⟩
  rw [hsec, Int.add_mul_emod_self_right, todSec]
  push_cast
  rw [Int.emod_add_emod]

/-- Settles O7: `todAdd_carry` with the carry 0, 1 or -1. -/
theorem timeOfDayCarriesIntoSeconds : Obligations.TimeOfDayCarriesIntoSeconds := by
  refine ⟨by decide, fun t => ⟨Nat.mod_lt _ (by decide), todNs_lt t, todFrac_lt t, fun d => ?_⟩⟩
  have hsec : todSec t < 2 ^ 48 := Nat.mod_lt _ (by decide)
  refine ⟨fun ⟨h0, h1⟩ => ?within, fun ⟨h0, h1⟩ => ?carry, fun ⟨h0, h1⟩ => ?borrow⟩
  case within =>
    obtain ⟨hs, hr⟩ := todAdd_carry 0 _ (by rw [Int.mul_zero, Int.zero_add, Int.natCast_emod]) h0 h1 (by decide)
    exact ⟨by omega, hr⟩
  case carry =>
    obtain ⟨hs, hr⟩ := todAdd_carry (t := t) (d := d) 1 ((t % secUnits : Nat) + d - secUnits) (by omega) (by omega) (by omega) (by decide)
    exact ⟨by omega, hr⟩
  case borrow =>
    obtain ⟨hs, hr⟩ := todAdd_carry (t := t) (d := d) (-1) ((t % secUnits : Nat) + d + secUnits) (by omega) (by omega) (by omega) (by decide)
    exact ⟨by omega, hr⟩

/-! ## A register write that ends well (R24) -/

section
variable {s t : State} {who : Initiator} {a k a0 : Nat} {w : Word} {row : RegRow} {l : List Nat}

/-- A register write that is answered and ends well leaves what its block makes of it, and its record. -/
theorem State.rowWrite_done (h : s.answers who a = true) (r : RegAt a k a0 row l) (hw : (s.atWrite who a).regWrite who a w = (t, .done)) :
    s.rowWrite who a w = t.noted who a 0 := by
  have hserves : (s.admitWrite who a 4).serves who a = true := State.admitWrite_serves (State.answers_room h) 4 (State.answers_serves h)
  have hbus : (s.admitWrite who a 4).busWrite who a (leBytes 4 w.toNat) = (t, .done) := by
    rw [State.busWrite_register w hserves r.isReg r.align, ← hw, State.atWrite]
  have hmade (seq : Nat) (bs : List Nat) : State.writeMade who a seq bs (t, .done, 0) = (t, .done, 0) := by
    unfold State.writeMade
    split <;> trivial
  rw [State.rowWrite, State.inTurn_write h (by rfl), leBytes_length]
  simp only [hbus, hmade, ite_self, State.noted]

/-- A write that the register's block takes for bad is discarded (R24). -/
theorem State.regWrite_bad (r : RegAt a k a0 row l) (herr : s.wrErr who k a0 l w = false) (hrej : s.wrReject who k a0 (l.headD 0) w = none)
    (hbad : s.wrBad who a k a0 row l w = true) : s.regWrite who a w = (s.cfgReject a, .done) := by
  simp only [State.regWrite, r.find, r.block, r.first, herr, hrej, hbad, Option.isSome_none, Bool.false_eq_true, if_false, if_true]

end

/-! ## TIME_JUMP_LIMIT (R38) -/

/-- The row of TIME_JUMP_LIMIT: one field of 30 bits, 1,000 at reset. -/
def jumpLimitRow : RegRow := ⟨0x40, [], [⟨⟨29, 0⟩, .rw, 0x3E8⟩]⟩

theorem regAt_TIME_JUMP_LIMIT : RegAt TIME_JUMP_LIMIT 4 TIME_JUMP_LIMIT jumpLimitRow [] := by
  constructor <;> decide

/-- What makes a write of TIME_JUMP_LIMIT bad is its value alone (R38). -/
theorem State.wrBad_TIME_JUMP_LIMIT (s : State) (who : Initiator) (w : Word) :
    s.wrBad who TIME_JUMP_LIMIT 4 TIME_JUMP_LIMIT jumpLimitRow [] w = true
      ↔ TIME_JUMP_LIMIT_LIMIT.get w = 0 ∨ 1000000000 < TIME_JUMP_LIMIT_LIMIT.get w := by
  have hvalue : s.blockBad who 4 TIME_JUMP_LIMIT 0 0 w
      = (decide (TIME_JUMP_LIMIT_LIMIT.get w = 0) || decide (1000000000 < TIME_JUMP_LIMIT_LIMIT.get w)) := rfl
  have hcount : jumpLimitRow.countBad w = false := rfl
  have hlock : jumpLimitRow.lockBad (s.reg TIME_JUMP_LIMIT) w = false := rfl
  simp [State.wrBad, hvalue, hcount, hlock]

/-- A write of TIME_JUMP_LIMIT that is answered is taken when its value is not bad. -/
theorem State.writeTaken_TIME_JUMP_LIMIT {s : State} {who : Initiator} {w : Word} (h : s.answers who TIME_JUMP_LIMIT = true)
    (hv : ¬(TIME_JUMP_LIMIT_LIMIT.get w = 0 ∨ 1000000000 < TIME_JUMP_LIMIT_LIMIT.get w)) : s.writeTaken who TIME_JUMP_LIMIT w = true := by
  have r := regAt_TIME_JUMP_LIMIT
  have herr (u : State) : u.wrErr who 4 TIME_JUMP_LIMIT [] w = false := rfl
  have hrej (u : State) : u.wrReject who 4 TIME_JUMP_LIMIT 0 w = none := rfl
  rw [← State.wrBad_TIME_JUMP_LIMIT (s.atWrite who TIME_JUMP_LIMIT) who, Bool.not_eq_true] at hv
  simp [State.writeTaken, r.find, r.block, r.first, h, herr, hrej, hv]

/-- The command REGISTER_WRITE at TIME_JUMP_LIMIT. -/
theorem exec_registerWrite_TIME_JUMP_LIMIT (s : State) (who : Initiator) (w : Word) :
    exec (.registerWrite who 0x40040040 w) s = writeReg who TIME_JUMP_LIMIT w s := rfl

/-- Settles O13: the value alone decides whether the write is taken (`State.rowWrite_did`) or discarded (`State.regWrite_bad`). -/
theorem jumpLimitTakesOnlyItsRange : Obligations.JumpLimitTakesOnlyItsRange := by
  have r := regAt_TIME_JUMP_LIMIT
  refine ⟨by decide, fun s who w ha => ⟨fun ⟨h1, h2⟩ => ?taken, fun hv => ?discarded⟩⟩
  case taken =>
    have hw := State.writeTaken_TIME_JUMP_LIMIT (w := w) ha (by omega)
    rw [exec_registerWrite_TIME_JUMP_LIMIT, writeReg_did hw r rfl]
    rfl
  case discarded =>
    have hdisc := State.regWrite_bad (s := s.atWrite who TIME_JUMP_LIMIT) r rfl rfl ((State.wrBad_TIME_JUMP_LIMIT _ who w).mpr hv)
    rw [exec_registerWrite_TIME_JUMP_LIMIT]
    simp only [writeReg, chipOn, answer, State.answers_chip ha, Bool.false_eq_true, if_false, State.rowWrite_done ha r hdisc]

end Sys2Proof.Machine
end

section
/-! Proofs for 08 (engine instruction set): CSUM is the ones' complement sum of A and the words of B (R226). -/
namespace Sys2Proof.Machine

/-! ## Folding the carries back in -/

/-- Two folds are enough for a sum of 32 bits: the first leaves at most one carry, and with it less than 0xFFFF. -/
theorem onesFold_lt {n : Nat} (h : n < 65536 * 65536) : onesFold n < 65536 := by
  simp only [onesFold]
  omega

/-- A carry out of bit 15 is worth 65,536, which is 1 modulo 65,535. -/
theorem onesFold_mod (n : Nat) : onesFold n % 65535 = n % 65535 := by
  simp only [onesFold]
  omega

/-- The end-around carry never turns a sum into 0. -/
theorem onesFold_eq_zero {n : Nat} : onesFold n = 0 ↔ n = 0 := by
  simp only [onesFold]
  omega

/-! ## The words of the bytes -/

/-- A byte at an even place is the high half of its word, one at an odd place the low half. -/
theorem csumWords_eq_sum (bs : List Nat) :
    csumWords bs = ((List.range bs.length).map fun i => bs.getD i 0 * (if i % 2 = 0 then 256 else 1)).sum := by
  induction bs using csumWords.induct with
  | case1 => rfl
  | case2 a => simp [csumWords]
  | case3 a b t ih =>
    have hplace (i : Nat) : (i + 1 + 1) % 2 = i % 2 := by omega
    simp [csumWords, ih, List.range_succ_eq_map, Function.comp_def, hplace, Nat.add_assoc]

/-- The words are all 0 exactly when the bytes are. -/
theorem csumWords_eq_zero (bs : List Nat) : csumWords bs = 0 ↔ ∀ b ∈ bs, b = 0 := by
  induction bs using csumWords.induct with
  | case1 => simp [csumWords]
  | case2 a => simp [csumWords]
  | case3 a b t ih => simp [csumWords, ih, and_assoc]

/-- Each word of bytes is at most 0xFFFF. -/
theorem csumWords_le (bs : List Nat) (h : ∀ b ∈ bs, b < 256) : 2 * csumWords bs ≤ 65535 * (bs.length + 1) := by
  induction bs using csumWords.induct with
  | case1 => simp [csumWords]
  | case2 a =>
    have ha := h a (by simp)
    simp only [csumWords, List.length_singleton]
    omega
  | case3 a b t ih =>
    have ha := h a (by simp)
    have hb := h b (by simp)
    have ht := ih fun c hc => h c (by simp [hc])
    simp only [csumWords, List.length_cons]
    omega

/-- Settles O9: A and four words of bytes make a sum of less than 32 bits, which `onesFold` takes to 16 bits and keeps modulo 65,535. -/
theorem csumIsTheOnesComplementSum : Obligations.CsumIsTheOnesComplementSum := by
  refine ⟨fun a bs ha hlen hbyte => ⟨onesFold_lt ?_, ?_, ?_⟩, fun _ _ _ => rfl⟩
  · have hwords := csumWords_le bs hbyte
    omega
  · rw [onesFold_mod, csumWords_eq_sum]
  · rw [onesFold_eq_zero, Nat.add_eq_zero_iff, csumWords_eq_zero]

end Sys2Proof.Machine
end

section
/-! Proofs about the step: it runs the command at the front of the queue, idles on an empty one, and keeps the tables of the state canonical. -/
namespace Sys2Proof.Machine

/-! ## What a step does -/

/-- A step runs the command at the front of the queue. -/
theorem step_cons {s : State} {c : Instr} {q : List Instr} (h : s.pending = c :: q) : step s = exec c { s with pending := q } := by
  rw [step, h]

/-- A step idles on an empty queue. -/
theorem step_nil {s : State} (h : s.pending = []) : step s = .next s := by
  rw [step, h]

/-- Taking a command off the queue leaves the tables as they are. -/
theorem State.Inv.withPending {s : State} (h : s.Inv) (q : List Instr) : State.Inv { s with pending := q } := h

/-- Settles O4: an empty queue leaves the state, and every command keeps the tables (`exec_inv`). -/
theorem stepKeepsTablesCanonical : Obligations.StepKeepsTablesCanonical := by
  intro s t hs hstep
  cases hq : s.pending with
  | nil =>
    rw [step_nil hq] at hstep
    cases hstep
    exact hs
  | cons c q =>
    obtain ⟨u, hexec, hu⟩ := exec_inv c { s with pending := q } (hs.withPending q)
    rw [step_cons hq, hexec] at hstep
    cases hstep
    exact hu

/-- Settles O1. -/
theorem stepRunsTheFrontCommand : Obligations.StepRunsTheFrontCommand := fun _ _ _ h => step_cons h

/-- Settles O2. -/
theorem stepIdlesOnAnEmptyQueue : Obligations.StepIdlesOnAnEmptyQueue := fun _ h => step_nil h

/-- Settles O3: each command answers in one of the modes `anyTime`, `chipOn`, `coreOn`, `hostOn`, `tapOn`, `powerOn`, which are all `answer`. -/
theorem everyCommandAnswersANextState : Obligations.EveryCommandAnswersANextState := by
  intro c s
  cases c <;> exact ⟨_, rfl⟩

/-! ## Reset -/

/-- Every table is empty at reset, so canonical. -/
theorem State.reset_inv : State.reset.Inv := State.Inv_iff.mpr (by decide)

/-- Settles O5: the tables are empty, so each register reads its reset word. -/
theorem resetIsCanonicalAndReadsItsValues : Obligations.ResetIsCanonicalAndReadsItsValues :=
  ⟨⟨State.reset_inv, rfl⟩, by decide, by decide, rfl⟩

end Sys2Proof.Machine
end

section
/-! Proofs for 01 (architecture): counter fields saturate (R22), discarded writes (R24), access codes (R8), and accesses that nothing serves (R13, R16). -/
namespace Sys2Proof.Machine

variable {s : State}

/-! ## Counters (R22) -/

/-- SAT of a block's summary after it is set. -/
theorem State.bit_setSat (h : s.Inv) (a : Nat) : (s.setSat a).bit (SUMMARY (blockOf a)) SUMMARY_SAT = true :=
  State.bit_setB_self h ⟨by decide, by decide⟩ _

/-- Setting SAT leaves every register but the block's summary. -/
theorem State.reg_setSat_ne (h : s.Inv) {a b : Nat} (e : b ≠ SUMMARY (blockOf a)) : (s.setSat a).reg b = s.reg b :=
  State.reg_setReg_ne h _ e

/-- What counting n events comes to: the counter stays at all ones, rises by n below it, or reaches it and SAT is set. -/
theorem State.countN_cases (s : State) (a n : Nat) (f : Fld) :
    (s.fld a f = 2 ^ (f.hi - f.lo + 1) - 1 ∧ s.countN a f n = s)
    ∨ (s.fld a f + n < 2 ^ (f.hi - f.lo + 1) - 1 ∧ s.countN a f n = s.putF a f (s.fld a f + n))
    ∨ (s.fld a f < 2 ^ (f.hi - f.lo + 1) - 1 ∧ 2 ^ (f.hi - f.lo + 1) - 1 ≤ s.fld a f + n
        ∧ s.countN a f n = (s.putF a f (2 ^ (f.hi - f.lo + 1) - 1)).setSat a) := by
  have hlt : s.fld a f < 2 ^ (f.hi - f.lo + 1) := bitsOf_lt ..
  unfold State.countN
  dsimp only
  split
  · exact .inl ⟨‹_›, rfl⟩
  · split
    · exact .inr (.inl ⟨‹_›, rfl⟩)
    · exact .inr (.inr ⟨by omega, by omega, rfl⟩)

/-- Counting leaves every register but the counter's and the summary of its block. -/
theorem State.reg_countN_ne (h : s.Inv) {a b : Nat} (f : Fld) (n : Nat) (ha : b ≠ a) (hs : b ≠ SUMMARY (blockOf a)) :
    (s.countN a f n).reg b = s.reg b := by
  rcases State.countN_cases s a n f with ⟨-, e⟩ | ⟨-, e⟩ | ⟨-, -, e⟩ <;> rw [e]
  · exact State.reg_setReg_ne h _ ha
  · rw [State.reg_setSat_ne (h.putF ..) hs]
    exact State.reg_setReg_ne h _ ha

/-- Settles O8: in each case of `State.countN_cases` the field is what was put into it, and SAT is set in the case that reaches the top. -/
theorem counterFieldsSaturate : Obligations.CounterFieldsSaturate := by
  intro s a n f h hf ha top
  have hlt : s.fld a f < 2 ^ (f.hi - f.lo + 1) := bitsOf_lt ..
  refine ⟨?value, ?sat, fun g hg hd => ?field, fun b hb hs => State.reg_countN_ne h f n hb hs⟩
  case value =>
    rcases State.countN_cases s a n f with ⟨hv, e⟩ | ⟨hv, e⟩ | ⟨hv, ht, e⟩ <;> rw [e]
    · omega
    · rw [State.fld_putF_self h hf, Nat.mod_eq_of_lt (by omega), Nat.min_eq_right (Nat.le_of_lt hv)]
    · rw [State.fld, State.reg_setSat_ne (h.putF ..) ha, ← State.fld, State.fld_putF_self h hf, Nat.mod_eq_of_lt (by omega), Nat.min_eq_left ht]
  case sat =>
    intro hv ht
    rcases State.countN_cases s a n f with ⟨hv', -⟩ | ⟨hv', -⟩ | ⟨-, -, e⟩
    · omega
    · omega
    · rw [e]
      exact State.bit_setSat (h.putF ..) a
  case field =>
    have hput (v : Nat) : (s.putF a f v).fld a g = s.fld a g := State.fld_putF_other h hg hf hd.symm a v
    rcases State.countN_cases s a n f with ⟨-, e⟩ | ⟨-, e⟩ | ⟨-, -, e⟩ <;> rw [e]
    · exact hput _
    · rw [State.fld, State.reg_setSat_ne (h.putF ..) ha, ← State.fld, hput]

end Sys2Proof.Machine
end

section
/-! Proofs for 08 (engine instruction set): bit fields are taken and replaced (R224). -/
namespace Sys2Proof.Machine

/-! ## Bit fields (R224) -/

/-- Bit by bit, the field that BFX takes: bits at or above w - 1 read 0. -/
theorem bfx_testBit (w b c i : Nat) :
    (bfx w b c).testBit i = (decide (i < (fieldOf c).2 ∧ (fieldOf c).1 + i < w - 1) && b.testBit ((fieldOf c).1 + i)) := by
  rw [bfx, Nat.testBit_mod_two_pow, Nat.testBit_div_two_pow, Nat.testBit_mod_two_pow, Nat.add_comm i, Bool.decide_and, Bool.and_assoc]

/-- Bit by bit, n low bits of b in place of those of a from p on. -/
theorem spliceBits_testBit (a b p n i : Nat) :
    (a / 2 ^ (p + n) * 2 ^ (p + n) + b % 2 ^ n * 2 ^ p + a % 2 ^ p).testBit i
      = if p ≤ i ∧ i < p + n then b.testBit (i - p) else a.testBit i := by
  have hlow : a % 2 ^ p < 2 ^ p := Nat.mod_lt _ (Nat.two_pow_pos p)
  have hfield : b % 2 ^ n < 2 ^ n := Nat.mod_lt _ (Nat.two_pow_pos n)
  have hshape : a / 2 ^ (p + n) * 2 ^ (p + n) + b % 2 ^ n * 2 ^ p + a % 2 ^ p
      = 2 ^ p * (2 ^ n * (a / 2 ^ (p + n)) + b % 2 ^ n) + a % 2 ^ p := by ring
  rw [hshape, Nat.testBit_two_pow_mul_add _ hlow, Nat.testBit_two_pow_mul_add _ hfield]
  by_cases hp : i < p
  · rw [if_pos hp, if_neg (by omega), Nat.testBit_mod_two_pow]
    simp [hp]
  · by_cases hn : i - p < n
    · rw [if_neg hp, if_pos hn, if_pos (by omega), Nat.testBit_mod_two_pow]
      simp [hn]
    · rw [if_neg hp, if_neg hn, if_neg (by omega), Nat.testBit_div_two_pow]
      congr 1
      omega

/-- Bit by bit, what BFI leaves: the field's bits below w - 1 come from b, the others from a. -/
theorem bfi_testBit (w a b c i : Nat) :
    (bfi w a b c).testBit i = (decide (i < w) &&
      if (fieldOf c).1 ≤ i ∧ i < (fieldOf c).1 + (fieldOf c).2 ∧ i < w - 1 then b.testBit (i - (fieldOf c).1) else a.testBit i) := by
  have hfield : ((fieldOf c).1 ≤ i ∧ i < (fieldOf c).1 + min (fieldOf c).2 (w - 1 - (fieldOf c).1))
      ↔ ((fieldOf c).1 ≤ i ∧ i < (fieldOf c).1 + (fieldOf c).2 ∧ i < w - 1) := by omega
  rw [bfi, Nat.testBit_mod_two_pow]
  rw [spliceBits_testBit, if_congr hfield rfl rfl]

/-- Settles O10: `bfx_testBit` and `bfi_testBit`, the position and width of the field being those of `fieldOf`. -/
theorem bitFieldsAreTakenAndReplaced : Obligations.BitFieldsAreTakenAndReplaced :=
  fun w a b c _ => ⟨bfx_testBit w b c, bfi_testBit w a b c⟩

end Sys2Proof.Machine
end

section
/-! Proofs for 03 (tide tables): the slots of a handover buffer keep three different roles (R79, R81, R82). -/
namespace Sys2Proof.Machine

variable {s : State}

/-! ## The slots in a word of TIDE_HB_STATE -/

/-- The roles that a word of TIDE_HB_STATE gives: writer, published and reader. -/
def hbRoles (w : Word) : Nat × Nat × Nat := (TIDE_HB_STATE_W.get w, TIDE_HB_STATE_P.get w, TIDE_HB_STATE_R.get w)

/-- Three different roles (R79). -/
def rolesApart (r : Nat × Nat × Nat) : Prop := r.1 ≠ r.2.1 ∧ r.2.1 ≠ r.2.2 ∧ r.2.2 ≠ r.1

theorem State.slotsApart_iff (s : State) (n : Nat) : s.slotsApart n ↔ rolesApart (hbRoles (s.reg (TIDE_HB_STATE n))) := Iff.rfl

/-- A field above the roles is put without changing them. -/
theorem hbRoles_put {f : Fld} (hf : 6 ≤ f.lo ∧ f.lo ≤ f.hi) (w : Word) (v : Nat) : hbRoles (f.put w v) = hbRoles w := by
  have hother {g : Fld} (hg : g.lo ≤ g.hi ∧ g.hi < 6) : g.get (f.put w v) = g.get w :=
    Fld.get_put_other w v hf.2 (by omega) hg.1 (.inl (by omega))
  rw [hbRoles, hother (by decide), hother (by decide), hother (by decide), hbRoles]

theorem hb_get_lt (f : Fld) (hf : f.hi - f.lo = 1) (w : Word) : f.get w < 4 := by
  have := bitsOf_lt f.hi f.lo w.toNat
  rw [hf] at this
  exact this

/-- W and P exchanged. -/
theorem hbRoles_exchangeW (w : Word) :
    hbRoles (TIDE_HB_STATE_P.put (TIDE_HB_STATE_W.put w (TIDE_HB_STATE_P.get w)) (TIDE_HB_STATE_W.get w))
      = (TIDE_HB_STATE_P.get w, TIDE_HB_STATE_W.get w, TIDE_HB_STATE_R.get w) := by
  simp only [hbRoles, Prod.mk.injEq]
  refine ⟨?_, ?_, ?_⟩
  · rw [Fld.get_put_other _ _ (by decide) (by decide) (by decide) (by decide), Fld.get_put _ _ (by decide) (by decide)]
    exact Nat.mod_eq_of_lt (hb_get_lt _ rfl w)
  · rw [Fld.get_put _ _ (by decide) (by decide)]
    exact Nat.mod_eq_of_lt (hb_get_lt _ rfl w)
  · rw [Fld.get_put_other _ _ (by decide) (by decide) (by decide) (by decide),
      Fld.get_put_other _ _ (by decide) (by decide) (by decide) (by decide)]

/-- R and P exchanged. -/
theorem hbRoles_exchangeR (w : Word) :
    hbRoles (TIDE_HB_STATE_P.put (TIDE_HB_STATE_R.put w (TIDE_HB_STATE_P.get w)) (TIDE_HB_STATE_R.get w))
      = (TIDE_HB_STATE_W.get w, TIDE_HB_STATE_R.get w, TIDE_HB_STATE_P.get w) := by
  simp only [hbRoles, Prod.mk.injEq]
  refine ⟨?_, ?_, ?_⟩
  · rw [Fld.get_put_other _ _ (by decide) (by decide) (by decide) (by decide),
      Fld.get_put_other _ _ (by decide) (by decide) (by decide) (by decide)]
  · rw [Fld.get_put _ _ (by decide) (by decide)]
    exact Nat.mod_eq_of_lt (hb_get_lt _ rfl w)
  · rw [Fld.get_put_other _ _ (by decide) (by decide) (by decide) (by decide), Fld.get_put _ _ (by decide) (by decide)]
    exact Nat.mod_eq_of_lt (hb_get_lt _ rfl w)

/-! ## Publish and acquire -/

/-- The exchange of a publish keeps the slots apart (R81). -/
theorem State.slotsApart_exchangeW (h : s.Inv) {n : Nat} (ha : s.slotsApart n) : (s.hbExchangeW n).slotsApart n := by
  obtain ⟨hwp, hpr, hrw⟩ := ha
  rw [State.slotsApart_iff, State.hbExchangeW, State.reg_setReg_self h, hbRoles_put (by decide), hbRoles_put (by decide), hbRoles_put (by decide),
    hbRoles_put (by decide), hbRoles_exchangeW]
  exact ⟨hwp.symm, hrw.symm, hpr.symm⟩

/-- Putting a field above the roles keeps the slots apart. -/
theorem State.slotsApart_putF (h : s.Inv) {n : Nat} {f : Fld} (hf : 6 ≤ f.lo ∧ f.lo ≤ f.hi) (v : Nat) :
    (s.putF (TIDE_HB_STATE n) f v).slotsApart n ↔ s.slotsApart n := by
  rw [State.slotsApart_iff, State.putF, State.reg_setReg_self h, hbRoles_put hf, State.slotsApart_iff]

/-- What leaves TIDE_HB_STATE of the buffer leaves its slots. -/
theorem State.slotsApart_congr {t : State} {n : Nat} (e : t.reg (TIDE_HB_STATE n) = s.reg (TIDE_HB_STATE n)) : t.slotsApart n ↔ s.slotsApart n := by
  rw [State.slotsApart_iff, State.slotsApart_iff, e]

/-- Setting a bit of TIDE_STATUS and counting in a counter of the TIDE block leaves the slots. -/
theorem State.slotsApart_note (h : s.Inv) {n a : Nat} (f : Fld) (hn : n < 256) (ha : a = TIDE_HAND_SKIP ∨ a = TIDE_STALE) :
    ((s.setB TIDE_STATUS f).count a).slotsApart n ↔ s.slotsApart n := by
  have hstate : TIDE_HB_STATE n = 0x40051004 + n * 8 := rfl
  have hsum : SUMMARY (blockOf a) = 0x4005FFF0 := by rcases ha with rfl | rfl <;> rfl
  have hcount : TIDE_HB_STATE n ≠ a := by rcases ha with rfl | rfl <;> simp only [hstate, TIDE_HAND_SKIP, TIDE_STALE] <;> omega
  have hstatus : TIDE_HB_STATE n ≠ TIDE_STATUS := by simp only [hstate, TIDE_STATUS]; omega
  refine State.slotsApart_congr ?_
  rw [State.count, State.reg_countN_ne (h.setB ..) _ _ hcount (by omega), State.setB, State.putF, State.reg_setReg_ne h _ hstatus]

/-- A publish exchanges W and P, or leaves the roles (R81). -/
theorem State.slotsApart_hbPublish (h : s.Inv) {n : Nat} (hn : n < 256) (soft : Bool) (ha : s.slotsApart n) : (s.hbPublish n soft).slotsApart n := by
  unfold State.hbPublish
  dsimp only
  split
  · exact State.slotsApart_exchangeW h ha
  · split
    · have h1 := h.clrB (TIDE_HB_STATE n) TIDE_HB_STATE_WRITTEN
      rw [State.slotsApart_note (h1.clrB ..) _ hn (.inl rfl)]
      exact (State.slotsApart_putF h1 (by decide) 0).mpr ((State.slotsApart_putF h (by decide) 0).mpr ha)
    · split
      · exact State.slotsApart_exchangeW h ha
      · exact (State.slotsApart_note h _ hn (.inl rfl)).mpr ha

/-- An acquire exchanges R and P, or leaves the roles (R82). -/
theorem State.slotsApart_hbAcquire (h : s.Inv) {n : Nat} (hn : n < 256) (ha : s.slotsApart n) : (s.hbAcquire n).slotsApart n := by
  unfold State.hbAcquire
  split
  · obtain ⟨hwp, hpr, hrw⟩ := ha
    rw [State.slotsApart_iff, State.reg_setReg_self h, hbRoles_put (by decide), hbRoles_exchangeR]
    exact ⟨hrw.symm, hpr.symm, hwp.symm⟩
  · exact (State.slotsApart_note h _ hn (.inr rfl)).mpr ha

/-- Settles O11: a publish exchanges W and P and an acquire R and P, or the roles stay. -/
theorem handoverSlotsStayApart : Obligations.HandoverSlotsStayApart :=
  fun _ _ soft h hn ha => ⟨State.slotsApart_hbPublish h hn soft ha, State.slotsApart_hbAcquire h hn ha⟩

end Sys2Proof.Machine
end

section
/-! Proofs for 05 (Ethernet ports): the octet counters of a port (R23, R142). That a read of the high word returns what the latest read of the low
word latched is the model's choice (log 122). -/
namespace Sys2Proof.Machine

variable {s : State} {who : Initiator} {a k a0 : Nat} {w : Word} {row : RegRow} {l : List Nat}

/-! ## 64-bit counters (R23) -/

/-- A read of the low word returns it and latches the high word. -/
theorem State.regRead_count64 (r : RegAt a k a0 row l) (hk : k ≠ 21) (ho : row.off ≠ 0xFFF0) (hc : isCount64 a0 = true) :
    s.regRead who a = ({ s with latch := tput (fun _ => 0) s.latch (a + 4) (s.reg (a + 4)) }, .done, (s.reg a).toNat) := by
  simp only [State.regRead, r.find, r.block, r.first, hk, ho, hc, false_and, if_false, if_true]

/-- A read of the high word returns the latch. -/
theorem State.regRead_count64Hi (r : RegAt a k a0 row l) (hk : k ≠ 21) (ho : row.off ≠ 0xFFF0) (h0 : isCount64 a0 = false) (hc : isCount64Hi a0 = true) :
    s.regRead who a = (s, .done, (tget (fun _ => 0) s.latch a).toNat) := by
  simp only [State.regRead, r.find, r.block, r.first, hk, ho, h0, hc, false_and, if_false, if_true, Bool.false_eq_true]

/-- A register write that its block neither refuses nor takes for bad. -/
theorem State.regWrite_taken (r : RegAt a k a0 row l) (herr : s.wrErr who k a0 l w = false) (hrej : s.wrReject who k a0 (l.headD 0) w = none)
    (hbad : s.wrBad who a k a0 row l w = false) :
    s.regWrite who a w = (blockHook who k a0 (l.headD 0) (s.reg a) w (s.stored a a0 row w), .done) := by
  simp only [State.regWrite, r.find, r.block, r.first, herr, hrej, hbad, Option.isSome_none, Bool.false_eq_true, if_false]

/-! ## The octet counters -/

/-- The rows of an octet counter at the offset `off` of its port: a counter, and above it the word that is read only. -/
def octetLoRow (off : Nat) : RegRow := ⟨off, [(0x2000, 6)], [⟨⟨31, 0⟩, .cnt, 0⟩]⟩
def octetHiRow (off : Nat) : RegRow := ⟨off, [(0x2000, 6)], [⟨⟨31, 0⟩, .ro, 0⟩]⟩

theorem regAt_PORT_OCTETS_TX_LO (n : Fin 6) : RegAt (PORT_OCTETS_TX_LO n) 8 (PORT_OCTETS_TX_LO 0) (octetLoRow 0x200) [n.val] := by
  constructor <;> revert n <;> decide

theorem regAt_PORT_OCTETS_TX_HI (n : Fin 6) : RegAt (PORT_OCTETS_TX_LO n + 4) 8 (PORT_OCTETS_TX_HI 0) (octetHiRow 0x204) [n.val] := by
  constructor <;> revert n <;> decide

theorem regAt_PORT_OCTETS_RX_LO (n : Fin 6) : RegAt (PORT_OCTETS_RX_LO n) 8 (PORT_OCTETS_RX_LO 0) (octetLoRow 0x220) [n.val] := by
  constructor <;> revert n <;> decide

theorem regAt_PORT_OCTETS_RX_HI (n : Fin 6) : RegAt (PORT_OCTETS_RX_LO n + 4) 8 (PORT_OCTETS_RX_HI 0) (octetHiRow 0x224) [n.val] := by
  constructor <;> revert n <;> decide

/-- A counter of a whole word that is written with 0 is 0. -/
theorem octetLoRow_written (off : Nat) (old : Word) : (octetLoRow off).written old 0 = 0 := by
  have hall (v : Word) : wholeReg.put v 0 = wholeReg.put 0 0 := by
    refine BitVec.eq_of_toNat_eq (Nat.eq_of_testBit_eq fun i => ?_)
    simp only [Fld.put, w32_toNat_eq, Nat.testBit_mod_two_pow, putBits_testBit (show 0 ≤ 31 by decide), wholeReg]
    by_cases hi : i < 32
    · rw [if_pos (by omega), if_pos (by omega)]
    · simp [hi]
  exact (hall old).trans (by decide)

/-- Port n counts octets in the two words at `lo`. -/
def isOctetCounter (lo n : Nat) : Prop :=
  ∃ off a0 a1, RegAt lo 8 a0 (octetLoRow off) [n] ∧ RegAt (lo + 4) 8 a1 (octetHiRow (off + 4)) [n]
    ∧ (a0 = PORT_OCTETS_TX_LO 0 ∧ a1 = PORT_OCTETS_TX_HI 0 ∨ a0 = PORT_OCTETS_RX_LO 0 ∧ a1 = PORT_OCTETS_RX_HI 0)

theorem isOctetCounter_of_mem (n : Fin 6) {lo : Nat} (h : lo ∈ [PORT_OCTETS_TX_LO n, PORT_OCTETS_RX_LO n]) : isOctetCounter lo n := by
  simp only [List.mem_cons, List.not_mem_nil, or_false] at h
  rcases h with rfl | rfl
  · exact ⟨_, _, _, regAt_PORT_OCTETS_TX_LO n, regAt_PORT_OCTETS_TX_HI n, .inl ⟨rfl, rfl⟩⟩
  · exact ⟨_, _, _, regAt_PORT_OCTETS_RX_LO n, regAt_PORT_OCTETS_RX_HI n, .inr ⟨rfl, rfl⟩⟩

variable {lo n : Nat}

/-- The latch of a read of the low word is what a read of the high word returns while it stands. -/
theorem State.regRead_octets (h : s.Inv) (hc : isOctetCounter lo n) :
    ∃ s1, s.regRead who lo = (s1, .done, (s.reg lo).toNat)
      ∧ ∀ t : State, t.latch = s1.latch → (t.regRead who (lo + 4)).2 = (.done, (s.reg (lo + 4)).toNat) := by
  obtain ⟨off, a0, a1, rlo, rhi, ha⟩ := hc
  have hlo : isCount64 a0 = true := by rcases ha with ⟨rfl, -⟩ | ⟨rfl, -⟩ <;> rfl
  have hhi : isCount64 a1 = false ∧ isCount64Hi a1 = true := by rcases ha with ⟨-, rfl⟩ | ⟨-, rfl⟩ <;> exact ⟨rfl, rfl⟩
  have hoff : off + 4 < 0x2000 := by
    have hfirst := rhi.first
    rcases ha with ⟨-, rfl⟩ | ⟨-, rfl⟩ <;> simp only [octetHiRow, PORT_OCTETS_TX_HI, PORT_OCTETS_RX_HI] at hfirst <;> omega
  have hsum {x : Nat} (hx : x < 0x2000) : x ≠ 0xFFF0 := by omega
  refine ⟨_, State.regRead_count64 rlo (by decide) (hsum (x := off) (by omega)) hlo, fun t ht => ?_⟩
  rw [State.regRead_count64Hi rhi (by decide) (hsum hoff) hhi.1 hhi.2, ht]
  exact congrArg (fun v : Word => (BusEnd.done, v.toNat)) (tget_tput_self h.latchOk ..)

/-- A write of 0 to the low word clears both words. -/
theorem State.regWrite_octets_zero (h : s.Inv) (hc : isOctetCounter lo n) :
    ∃ s2, s.regWrite who lo 0 = (s2, .done) ∧ s2.reg lo = 0 ∧ s2.reg (lo + 4) = 0 := by
  obtain ⟨off, a0, a1, rlo, -, ha⟩ := hc
  have herr : s.wrErr who 8 a0 [n] 0 = false := by rcases ha with ⟨rfl, -⟩ | ⟨rfl, -⟩ <;> rfl
  have hbad : s.wrBad who lo 8 a0 (octetLoRow off) [n] 0 = false := by rcases ha with ⟨rfl, -⟩ | ⟨rfl, -⟩ <;> rfl
  have hhook (u : State) : blockHook who 8 a0 n (s.reg lo) 0 u = u := by rcases ha with ⟨rfl, -⟩ | ⟨rfl, -⟩ <;> rfl
  have hlo : isCount64 a0 = true := by rcases ha with ⟨rfl, -⟩ | ⟨rfl, -⟩ <;> rfl
  have hstored : s.stored lo a0 (octetLoRow off) 0 = (s.setReg lo 0).setReg (lo + 4) 0 := by
    simp only [State.stored, hlo, if_true, octetLoRow_written]
  refine ⟨_, State.regWrite_taken rlo herr rfl hbad, ?_⟩
  rw [show [n].headD 0 = n from rfl, hhook, hstored]
  exact ⟨by rw [State.reg_setReg_ne (h.setReg ..) _ (by omega), State.reg_setReg_self h], State.reg_setReg_self (h.setReg ..) ..⟩

/-- A write of the high word changes nothing. -/
theorem State.regWrite_octets_hi (h : s.Inv) (hc : isOctetCounter lo n) (w : Word) : s.regWrite who (lo + 4) w = (s, .done) := by
  obtain ⟨off, a0, a1, -, rhi, ha⟩ := hc
  have herr : s.wrErr who 8 a1 [n] w = false := by rcases ha with ⟨-, rfl⟩ | ⟨-, rfl⟩ <;> rfl
  have hbad : s.wrBad who (lo + 4) 8 a1 (octetHiRow (off + 4)) [n] w = false := by rcases ha with ⟨-, rfl⟩ | ⟨-, rfl⟩ <;> rfl
  have hhook (u : State) : blockHook who 8 a1 n (s.reg (lo + 4)) w u = u := by rcases ha with ⟨-, rfl⟩ | ⟨-, rfl⟩ <;> rfl
  have hhi : isCount64 a1 = false := by rcases ha with ⟨-, rfl⟩ | ⟨-, rfl⟩ <;> rfl
  have hstored : s.stored (lo + 4) a1 (octetHiRow (off + 4)) w = s := by
    simp only [State.stored, hhi, Bool.false_eq_true, if_false]
    exact State.setReg_self h (lo + 4)
  rw [State.regWrite_taken rhi herr rfl hbad, show [n].headD 0 = n from rfl, hhook, hstored]

/-- Settles O14: a read of the low word latches, a write of 0 clears both words (`State.stored`), and the field of the high word is read-only. -/
theorem octetCountersLatchTheirHighWord : Obligations.OctetCountersLatchTheirHighWord :=
  fun _ _ n h _ hlo =>
    have hc := isOctetCounter_of_mem n hlo
    ⟨State.regRead_octets h hc, State.regWrite_octets_zero h hc, State.regWrite_octets_hi h hc⟩

end Sys2Proof.Machine
end

section
/-! Proofs for 01 (architecture): discarded writes (R24), the access codes (R8) and the accesses that nothing serves (R13, R16). -/
namespace Sys2Proof.Machine

variable {s : State}

/-! ## Discarded writes (R24) -/

theorem SYS_REJECT_ADDR_ne_SYS_STATUS : SYS_REJECT_ADDR ≠ SYS_STATUS := by decide

/-- A discard leaves every register but SYS_STATUS and SYS_REJECT_ADDR. -/
theorem State.reg_cfgReject_ne (h : s.Inv) (a : Nat) {b : Nat} (h1 : b ≠ SYS_STATUS) (h2 : b ≠ SYS_REJECT_ADDR) :
    (s.cfgReject a).reg b = s.reg b := by
  unfold State.cfgReject
  split
  · rfl
  · rw [State.reg_setReg_ne (h.setB ..) _ h2, State.setB, State.putF, State.reg_setReg_ne h _ h1]

/-- A discard sets CFG_REJECT. -/
theorem State.bit_cfgReject (h : s.Inv) (a : Nat) : (s.cfgReject a).bit SYS_STATUS SYS_STATUS_CFG_REJECT = true := by
  unfold State.cfgReject
  split
  · assumption
  · rw [State.bit_setReg_ne (h.setB ..) SYS_REJECT_ADDR_ne_SYS_STATUS.symm]
    exact State.bit_setB_self h ⟨by decide, by decide⟩ _

/-- The first discard latches its address. -/
theorem State.reg_cfgReject_addr (h : s.Inv) (a : Nat) :
    (s.cfgReject a).reg SYS_REJECT_ADDR = if s.bit SYS_STATUS SYS_STATUS_CFG_REJECT then s.reg SYS_REJECT_ADDR else w32 a := by
  unfold State.cfgReject
  split
  · rfl
  · exact State.reg_setReg_self (h.setB ..) ..

/-- A discard changes registers only. -/
theorem State.cfgReject_eq (s : State) (a : Nat) : s.cfgReject a = { s with regs := (s.cfgReject a).regs } := by
  unfold State.cfgReject
  split <;> rfl

/-- Settles O15: a write that its block takes for bad comes to `State.cfgReject`. -/
theorem discardedWritesChangeNothingElse : Obligations.DiscardedWritesChangeNothingElse := by
  intro s who a w row l h hfind k a0 herr hrej hbad
  have hw : s.regWrite who a w = (s.cfgReject a, .done) := by
    simp only [State.regWrite, hfind]
    change (if s.wrErr who k a0 l w then _ else if (s.wrReject who k a0 (l.headD 0) w).isSome then _
      else if s.wrBad who a k a0 row l w then _ else _) = _
    rw [herr, hrej, hbad]
    rfl
  exact ⟨_, hw, fun b => State.reg_cfgReject_ne h a, State.bit_cfgReject h a, State.reg_cfgReject_addr h a, State.cfgReject_eq s a⟩

/-! ## Writes by the access codes (R8) -/

/-- What a field reads after a write of `w` over `old`, by its access code. -/
def FldRow.after (f : FldRow) (old w : Word) : Nat :=
  match f.acc with
  | .rw | .rwl => f.fld.get w
  | .w1c => f.fld.get old - Nat.land (f.fld.get old) (f.fld.get w)
  | .w1s => Nat.lor (f.fld.get old) (f.fld.get w)
  | .cnt => 0
  | .ro | .wo => f.fld.get old

/-- Fields of a row lie in the word and do not overlap. -/
def fldsApart : List FldRow → Bool
  | [] => true
  | f :: t => decide (f.fld.lo ≤ f.fld.hi ∧ f.fld.hi < 32) && t.all (fun g => decide (f.fld.hi < g.fld.lo ∨ g.fld.hi < f.fld.lo)) && fldsApart t

theorem fldsApart_cons {f : FldRow} {t : List FldRow} :
    fldsApart (f :: t) = true ↔ f.fld.ok ∧ (∀ g ∈ t, f.fld.hi < g.fld.lo ∨ g.fld.hi < f.fld.lo) ∧ fldsApart t = true := by
  simp [fldsApart, Fld.ok, and_assoc]

/-- Fields of a row lie in the word. -/
theorem fldsApart_ok {t : List FldRow} (h : fldsApart t = true) {g : FldRow} (hg : g ∈ t) : g.fld.ok := by
  induction t with
  | nil => contradiction
  | cons f t ih =>
    obtain ⟨hf, -, ht⟩ := fldsApart_cons.mp h
    rcases List.mem_cons.mp hg with rfl | hg
    · exact hf
    · exact ih ht hg

/-- Storing one field leaves the field that its code says. -/
theorem storeField_get {f : FldRow} (hf : f.fld.ok) (old w new : Word) (hnew : f.fld.get new = f.fld.get old) :
    f.fld.get (storeField old w new f) = f.after old w := by
  have hput (v : Nat) (hv : v < 2 ^ (f.fld.hi - f.fld.lo + 1)) : f.fld.get (f.fld.put new v) = v := by
    rw [Fld.get_put _ _ hf.1 hf.2, Nat.mod_eq_of_lt hv]
  have hlt (x : Word) : f.fld.get x < 2 ^ (f.fld.hi - f.fld.lo + 1) := bitsOf_lt ..
  unfold storeField FldRow.after
  cases f.acc with
  | rw | rwl => exact hput _ (hlt w)
  | w1c => exact hput _ (Nat.lt_of_le_of_lt (Nat.sub_le ..) (hlt old))
  | w1s => exact hput _ (Nat.or_lt_two_pow (hlt old) (hlt w))
  | cnt => exact hput 0 (Nat.two_pow_pos _)
  | ro | wo => exact hnew

/-- Storing one field leaves every field apart from it. -/
theorem storeField_get_other {f g : FldRow} (hf : f.fld.ok) (hg : g.fld.ok) (hd : f.fld.hi < g.fld.lo ∨ g.fld.hi < f.fld.lo) (old w new : Word) :
    f.fld.get (storeField old w new g) = f.fld.get new := by
  have hput (v : Nat) : f.fld.get (g.fld.put new v) = f.fld.get new := Fld.get_put_other new v hg.1 hf.2 hf.1 hd
  unfold storeField
  cases g.acc with
  | ro | wo => rfl
  | rw | rwl | w1c | w1s | cnt => exact hput _

/-- Storing fields apart from one leaves it. -/
theorem storeFields_get_other {f : FldRow} (hf : f.fld.ok) (old w : Word) {t : List FldRow} (ht : fldsApart t = true)
    (hd : ∀ g ∈ t, f.fld.hi < g.fld.lo ∨ g.fld.hi < f.fld.lo) (new : Word) : f.fld.get (t.foldl (storeField old w) new) = f.fld.get new := by
  induction t generalizing new with
  | nil => rfl
  | cons g t ih =>
    obtain ⟨hg, -, ht'⟩ := fldsApart_cons.mp ht
    rw [List.foldl_cons, ih ht' (fun x hx => hd x (List.mem_cons_of_mem _ hx)), storeField_get_other hf hg (hd g (List.mem_cons_self ..))]

/-- Each of the fields stored reads as its code says. -/
theorem storeFields_get {t : List FldRow} (ht : fldsApart t = true) {f : FldRow} (hf : f ∈ t) (old w new : Word)
    (hnew : ∀ g ∈ t, g.fld.get new = g.fld.get old) : f.fld.get (t.foldl (storeField old w) new) = f.after old w := by
  induction t generalizing new with
  | nil => contradiction
  | cons g t ih =>
    obtain ⟨hg, hd, ht'⟩ := fldsApart_cons.mp ht
    rw [List.foldl_cons]
    rcases List.mem_cons.mp hf with rfl | hf
    · rw [storeFields_get_other hg old w ht' hd, storeField_get hg old w new (hnew f (List.mem_cons_self ..))]
    · refine ih ht' hf _ fun x hx => ?_
      rw [storeField_get_other (fldsApart_ok ht' hx) hg (hd x hx).symm, hnew x (List.mem_cons_of_mem _ hx)]

/-- The fields of every row of every block lie apart. -/
theorem blockRows_fldsApart {k : Nat} (hk : k < 24) : ∀ row ∈ blockRows k, fldsApart row.flds = true := by
  have hall : ∀ k < 24, (blockRows k).all (fun row => fldsApart row.flds) = true := by decide +kernel
  exact List.all_eq_true.mp (hall k hk)

/-- A row that is found is one of the rows. -/
theorem mem_of_findIn {rows : List RegRow} {off : Nat} {row : RegRow} {l : List Nat} (h : findIn rows off = some (row, l)) : row ∈ rows := by
  induction rows with
  | nil => contradiction
  | cons r t ih =>
    rw [findIn] at h
    split at h
    · exact List.mem_cons_of_mem _ (ih h)
    · split at h
      · cases h
        exact List.mem_cons_self ..
      · exact List.mem_cons_of_mem _ (ih h)

/-- The fields of the row of a register lie apart. -/
theorem findReg_fldsApart {a : Nat} {row : RegRow} {l : List Nat} (h : findReg a = some (row, l)) : fldsApart row.flds = true := by
  unfold findReg at h
  split at h
  · contradiction
  split at h
  · contradiction
  · next hk =>
    split at h
    · cases h
      decide
    split at h
    · cases h
      decide
    split at h
    · contradiction
    · exact blockRows_fldsApart (Nat.not_le.mp hk) row (mem_of_findIn h)

/-- Settles O16: the fields of a row lie apart, so each is stored by its own code alone. -/
theorem writesFollowTheAccessCodes : Obligations.WritesFollowTheAccessCodes :=
  fun _ _ _ _ old w hfind hf => storeFields_get (findReg_fldsApart hfind) hf old w old fun _ _ => rfl

/-! ## Accesses that nothing serves (R13, R16) -/

/-- An access that no region covers ends with a bus error. -/
theorem State.busRead_noRegion {a : Nat} (hr : regionOf a = none) {who : Initiator} (he : s.ended who a = none) (n : Nat) :
    s.busRead who a n = (s, .busError, 0) := by
  simp only [State.busRead, he, hr, ite_self]

theorem State.busWrite_noRegion {a : Nat} (hr : regionOf a = none) {who : Initiator} (he : s.ended who a true = none) (bs : List Nat) :
    s.busWrite who a bs = (s, .busError) := by
  simp only [State.busWrite, he, hr, ite_self]

/-- An atomic operation where no region takes one, or of PCIe outside PIM, ends with a bus error. -/
theorem State.busAtomic_refused {a : Nat} {r : Region × Nat} {who : Initiator} (hr : regionOf a = some r)
    (h : r.1.atomics = false ∨ (who = .pcie ∧ r.1 ≠ .pim)) (n : Nat) (f : Nat → Option Nat) : s.busAtomic who a n f = (s, .busError, 0) := by
  have hno : (!r.1.atomics || !(n == 4 || n == 8) || (who == .pcie && r.1 != .pim)) = true := by
    rcases h with h | ⟨rfl, h⟩
    · simp [h]
    · simp [h]
  simp only [State.busAtomic, hr, hno, if_true]

/-- Settles O17. -/
theorem unservedAccessesEndWithBusErrors : Obligations.UnservedAccessesEndWithBusErrors := by
  refine ⟨fun s who a n bs hr => ⟨fun he => State.busRead_noRegion hr he n, fun he => State.busWrite_noRegion hr he bs⟩,
    fun s who a n f => ⟨fun hr _ => ?_, fun r hr h => State.busAtomic_refused hr h n f⟩⟩
  simp only [State.busAtomic, hr]

end Sys2Proof.Machine
end

section
/-! Proofs about what settles after every command (`State.after`): each of its five steps with what it touches. -/
namespace Sys2Proof.Machine

variable {s : State}

/-! ## What each step touches -/

/-- The debug port takes up the end of its access: RESULT, DATA and the waiting accesses. -/
theorem State.tapTake_eq (s : State) :
    ∃ r d waits, s.tapTake = { s with tap := { s.tap with result := r, data := d }, cw := { s.cw with waits := waits } } := by
  unfold State.tapTake
  split
  · exact ⟨_, _, _, rfl⟩
  · split <;> exact ⟨_, _, _, rfl⟩

/-- A channel that gives its region up: the table of channels. -/
theorem State.dmaYield_eq (s : State) : ∃ dma, s.dmaYield = { s with dma := dma } := by
  unfold State.dmaYield
  split
  · refine List.foldlRecOn (motive := fun u : State => ∃ dma, u = { s with dma := dma }) _ _ ⟨s.dma, rfl⟩ fun t ⟨dma, ht⟩ n _ => ?_
    split
    · exact ⟨_, by rw [ht]; rfl⟩
    · exact ⟨dma, ht⟩
  · exact ⟨_, rfl⟩

/-- Counting in a register: the registers. -/
theorem State.countN_eq (s : State) (a n : Nat) (f : Fld) : ∃ regs, s.countN a f n = { s with regs := regs } := by
  rcases State.countN_cases s a n f with ⟨-, e⟩ | ⟨-, e⟩ | ⟨-, -, e⟩ <;> rw [e] <;> exact ⟨_, rfl⟩

/-- The bits of link tests are counted: the tests' progress and the registers. -/
theorem State.testCount_eq (s : State) : ∃ links regs, s.testCount = { s with tap := { s.tap with links := links }, regs := regs } :=
  List.foldlRecOn (motive := fun u => ∃ links regs, u = { s with tap := { s.tap with links := links }, regs := regs }) _ _ ⟨_, _, rfl⟩
    fun t ⟨links, regs, ht⟩ l _ => by
      obtain ⟨regs', hc⟩ := State.countN_eq (t.modTap fun x => { x with links := _ }) (TEST_LINK_BITS l) _ wholeReg
      exact ⟨_, regs', hc.trans (by rw [ht]; rfl)⟩

/-- A vector that has ceased to be pending: the list of those sent. -/
theorem State.settle_eq (s : State) : ∃ sent, s.settle = { s with cw := { s.cw with sent := sent } } := by
  unfold State.settle
  split <;> exact ⟨_, rfl⟩

/-- The watchdogs that run again: their restarts and holds. -/
theorem State.wdogWake_eq (s : State) : ∃ wat held, s.wdogWake = { s with lh := { s.lh with wdogAt := wat, held := held } } := by
  unfold State.wdogWake
  dsimp only
  split
  · exact ⟨_, _, rfl⟩
  · have hfold (ws : List Nat) : ∃ wat, ws.foldl State.wdogRestart s = { s with lh := { s.lh with wdogAt := wat } } :=
      List.foldlRecOn (motive := fun u => ∃ wat, u = { s with lh := { s.lh with wdogAt := wat } }) ws _ ⟨_, rfl⟩
        fun t ⟨wat, ht⟩ w _ => ⟨_, by rw [ht, State.wdogRestart]; rfl⟩
    obtain ⟨wat, hw⟩ := hfold _
    exact ⟨wat, _, by rw [hw]; rfl⟩

/-! ## The channels and the registers -/

/-- A channel keeps its record, or gives its region up. -/
theorem State.dmaYield_dmaOf (h : s.Inv) (n : Nat) :
    s.dmaYield.dmaOf n = s.dmaOf n ∨ s.dmaYield.dmaOf n = { s.dmaOf n with region := false } := by
  unfold State.dmaYield
  split
  · refine (List.foldlRecOn (motive := fun u : State => u.Inv ∧ (u.dmaOf n = s.dmaOf n ∨ u.dmaOf n = { s.dmaOf n with region := false }))
      _ _ ⟨h, .inl rfl⟩ fun t ⟨hi, ht⟩ m _ => ?_).2
    split
    · refine ⟨State.setDma_inv _ _ _ hi, ?_⟩
      rw [State.dmaOf, State.setDma_dma, tget_tput hi.dmaOk]
      by_cases hm : n = m
      · subst hm
        rw [if_pos rfl]
        rcases ht with ht | ht <;> rw [ht] <;> exact .inr rfl
      · rw [if_neg hm]
        exact ht
    · exact ⟨hi, ht⟩
  · exact .inl rfl

/-- Counting the bits of link tests leaves every register but their BITS counters and the summaries of the counters' block. -/
theorem State.testCount_reg (h : s.Inv) {b : Nat} (hb : ∀ l, b ≠ TEST_LINK_BITS l ∧ b ≠ SUMMARY (blockOf (TEST_LINK_BITS l))) :
    s.testCount.reg b = s.reg b :=
  (List.foldlRecOn (motive := fun u : State => u.Inv ∧ u.reg b = s.reg b) _ _ ⟨h, rfl⟩ fun t ⟨hi, ht⟩ l _ =>
    ⟨State.linkCount_inv t l hi, (State.reg_countN_ne (State.modTap_inv _ _ hi) _ _ (hb l).1 (hb l).2).trans ht⟩).2

/-! ## All of it -/

/-- Settles O18: the five steps one after the other. -/
theorem settlingTouchesOnlyPortWaitsRegionsLinksVectorsAndWatchdogs : Obligations.SettlingTouchesOnlyPortWaitsRegionsLinksVectorsAndWatchdogs := by
  intro s h
  obtain ⟨r, d, waits, h1⟩ := State.tapTake_eq s
  obtain ⟨dma, h2⟩ := State.dmaYield_eq s.tapTake
  obtain ⟨links, regs, h3⟩ := State.testCount_eq s.tapTake.dmaYield
  obtain ⟨sent, h4⟩ := State.settle_eq s.tapTake.dmaYield.testCount
  obtain ⟨wat, held, h5⟩ := State.wdogWake_eq s.tapTake.dmaYield.testCount.settle
  have i1 := State.tapTake_inv s h
  have i2 := State.dmaYield_inv _ i1
  refine ⟨r, d, links, waits, sent, wat, held, dma, regs, ?state, fun n => ?channel, fun b hb => ?register⟩
  case state =>
    have e2 : s.tapTake.dmaYield = { s with tap := { s.tap with result := r, data := d }, cw := { s.cw with waits := waits }, dma := dma } := by
      rw [h2, h1]
    have e3 : s.tapTake.dmaYield.testCount = { s with tap := { s.tap with result := r, data := d, links := links }
                                                      cw := { s.cw with waits := waits }, dma := dma, regs := regs } := by
      rw [h3, e2]
    have e4 : s.tapTake.dmaYield.testCount.settle = { s with tap := { s.tap with result := r, data := d, links := links }
                                                             cw := { s.cw with sent := sent, waits := waits }, dma := dma, regs := regs } := by
      rw [h4, e3]
    rw [State.after, h5, e4]
  case channel =>
    have hdma : s.after.dmaOf n = s.tapTake.dmaYield.dmaOf n := by rw [State.after, h5, h4, h3]; rfl
    have htake : s.tapTake.dmaOf n = s.dmaOf n := by rw [h1]; rfl
    rw [hdma, ← htake]
    exact State.dmaYield_dmaOf i1 n
  case register =>
    have hreg : s.after.reg b = s.tapTake.dmaYield.testCount.reg b := by rw [State.after, h5, h4]; rfl
    rw [hreg, State.testCount_reg i2 hb, h2, h1]
    rfl

end Sys2Proof.Machine
end

section
/-! Proofs about the commands: what each mode of a command comes to (R470 to R472), and a register write that is taken with what its block does. -/
namespace Sys2Proof.Machine

/-! ## The modes -/

section
variable {f : State → State} {s t : State}

/-- A command of a unit that CHIP reset holds, outside it. -/
theorem chipOn_next (h : s.rst.chip = false) (ht : f s = t) : chipOn f s = .next t.after := by
  rw [chipOn, answer, h, ht]; rfl

/-- A command of a unit that CORE reset holds too, outside both. -/
theorem coreOn_next (h : s.rst.chip = false) (hc : s.rst.core = false) (ht : f s = t) : coreOn f s = .next t.after := by
  rw [coreOn, answer, h, hc, ht]; rfl

/-- A command of a host interface, outside a CHIP and a CAUSEWAY reset. -/
theorem hostOn_next (h : s.rst.chip = false) (hc : s.rst.cw = false) (ht : f s = t) : hostOn f s = .next t.after := by
  rw [hostOn, answer, h, hc, ht]; rfl

/-- A command on balls of a bank that is up. -/
theorem bankOn_next {b : Nat} (h : s.rst.chip = false) (hc : s.rst.cw = false) (hb : s.rst.banks.contains b = false) (ht : f s = t) :
    bankOn b f s = .next t.after := hostOn_next h hc (by rw [hb]; exact ht)

/-- A command on the balls of the TAP. -/
theorem tapOn_next (h : s.rst.lhOff = false) (hb : s.rst.banks.contains 7 = false) (ht : f s = t) : tapOn f s = .next t.after := by
  rw [tapOn, answer, h, hb, ht]; rfl

/-- A command of a unit that works while the lighthouse has power. -/
theorem powerOn_next (h : s.rst.lhOff = false) (ht : f s = t) : powerOn f s = .next t.after := by
  rw [powerOn, answer, h, ht]; rfl

/-- A command that acts at any time. -/
theorem anyTime_next (ht : f s = t) : anyTime f s = .next t.after := by
  rw [anyTime, answer, ht]

end

/-! ## Register writes -/

/-- A field reads the value put into it, where that fits. -/
theorem Fld.get_put_of_lt {f : Fld} {v : Nat} (w : Word) (hlo : f.lo ≤ f.hi) (hhi : f.hi < 32) (hv : v < 2 ^ (f.hi - f.lo + 1)) :
    f.get (f.put w v) = v := by
  rw [Fld.get_put w v hlo hhi, Nat.mod_eq_of_lt hv]

section
variable {s : State} {who : Initiator} {a k a0 : Nat} {w : Word} {row : RegRow} {l : List Nat}

/-- A register write that is taken does `f` where its block does, in the state with the register set. -/
theorem writeReg_next (h : s.writeTaken who a w = true) (r : RegAt a k a0 row l) (hc : isCount64 a0 = false) {f : State → State}
    (hf : ∀ u, blockHook who k a0 (l.headD 0) (s.reg a) w u = f u) : writeReg who a w s = .next (s.did who a w f) := by
  rw [writeReg_did h r hc]
  exact congrArg (fun g => Host.Outcome.next (s.did who a w g)) (funext hf)

/-- The write itself, within a command that does more. -/
theorem State.rowWrite_next (h : s.writeTaken who a w = true) (r : RegAt a k a0 row l) (hc : isCount64 a0 = false) {f : State → State}
    (hf : ∀ u, blockHook who k a0 (l.headD 0) (s.reg a) w u = f u) :
    s.rowWrite who a w = (f ((s.atWrite who a).setReg a (s.wordAfter a w))).noted who a 0 := by
  rw [State.rowWrite_did h r hc, hf]

/-- The same where `f` is what the block does in that one state. -/
theorem writeReg_next_at (h : s.writeTaken who a w = true) (r : RegAt a k a0 row l) (hc : isCount64 a0 = false) {f : State → State}
    (hf : let u := (s.atWrite who a).setReg a (s.wordAfter a w)
      blockHook who k a0 (l.headD 0) (s.reg a) w u = f u) : writeReg who a w s = .next (s.did who a w f) := by
  rw [writeReg_did h r hc]
  exact congrArg (fun u : State => Host.Outcome.next (u.noted who a 0).after) hf

/-- A register read that is taken returns `v` and does `f`. -/
theorem readReg_next (h : s.readTaken who a = true) (r : RegAt a k a0 row l) (hk : k ≠ 21) (ho : row.off ≠ 0xFFF0) (h1 : isCount64 a0 = false)
    (h2 : isCount64Hi a0 = false) {v : Nat} {f : State → State} (hv : (((s.atRead who a).blockView k a0 (l.headD 0)).getD (s.reg a)).toNat = v)
    (hf : blockRead who k a0 (l.headD 0) (s.atRead who a) = f (s.atRead who a)) : readReg who a s = .next (s.gave who a v f) := by
  rw [readReg_gave h r hk ho h1 h2, hv]
  exact congrArg (fun u : State => Host.Outcome.next (u.noted who a v).after) hf

/-- A state in which a write is made differs in the causeway's record alone. -/
theorem State.atWrite_of_taken (h : s.writeTaken who a w = true) : s.atWrite who a = { s with cw := (s.atWrite who a).cw } :=
  State.atWrite_eq (State.answers_room (State.writeTaken_answers h))

/-- A state in which a read is made differs in the causeway's record alone. -/
theorem State.atRead_of_taken (h : s.readTaken who a = true) : s.atRead who a = { s with cw := (s.atRead who a).cw } :=
  State.atRead_eq (State.answers_room (State.readTaken_answers h))

end

end Sys2Proof.Machine
end

section
/-! Proofs for 02 (time base): writes, events and reads of the TIME block. -/
namespace Sys2Proof.Machine

variable {s : State} {who : Initiator} {w : Word}

/-- What a write of TIME_CMD does beside: KICK counts, DISARM clears FORCE_JUMP (R34, R36). -/
def timeCmdEffect (w : Word) (u : State) : State :=
  let u := if TIME_CMD_KICK.get w ≠ 0 then u.modTime fun t => { t with kick := t.kick + 1 } else u
  if TIME_CMD_DISARM.get w ≠ 0 then u.clrB TIME_CMD TIME_CMD_FORCE_JUMP else u

/-- A write of TIME_CMD that is taken. -/
theorem writeReg_TIME_CMD (h : s.writeTaken who TIME_CMD w = true) : writeReg who TIME_CMD w s = .next (s.did who TIME_CMD w (timeCmdEffect w)) :=
  writeReg_next h regAt_TIME_CMD rfl fun u => by
    change (if TIME_CMD_DISARM.get w != 0 then _ else _) = _
    simp only [timeCmdEffect, bne_iff_ne, ne_eq]

/-- The state watchdog restarts in SYNC with an interval, else it stops (R40). -/
theorem State.restartWdogAt_eq (u : State) (ahead : Nat) : u.restartWdogAt ahead = u.modTime fun t => { t with
    wdogEnd := if u.fld TIME_CTL TIME_CTL_STATE = 1 ∧ u.fld TIME_WDOG TIME_WDOG_INTERVAL ≠ 0
      then some (t.tick + ahead + 250 * u.fld TIME_WDOG TIME_WDOG_INTERVAL) else none } := by
  simp only [State.restartWdogAt, Bool.and_eq_true, beq_iff_eq, bne_iff_ne]

theorem State.restartWdog_eq (u : State) : u.restartWdog = u.modTime fun t => { t with
    wdogEnd := if u.fld TIME_CTL TIME_CTL_STATE = 1 ∧ u.fld TIME_WDOG TIME_WDOG_INTERVAL ≠ 0
      then some (t.tick + 250 * u.fld TIME_WDOG TIME_WDOG_INTERVAL) else none } := State.restartWdogAt_eq u 0

/-- A pulse of a trigger starts or restarts, but for safe state (R51, R53). -/
theorem State.trigPulse_eq (u : State) (n : Nat) : u.trigPulse n = if u.safe then u else
    u.setTrig n { u.trigOf n with active := true, endTick := some (u.time.tick + u.fld (TTRIG_WIDTH n) TTRIG_WIDTH_WIDTH) } := rfl

/-- What a write of TTRIGn_CTL does beside: a change of MODE, then PULSE in SOFT (R51, R52). -/
theorem timeHook_TTRIG_CTL (n : Nat) (old w : Word) (u : State) : timeHook (TTRIG_CTL 0) n old w u =
    (let u := if TTRIG_CTL_MODE.get w ≠ TTRIG_CTL_MODE.get old then u.trigModeChange n else u
     if TTRIG_CTL_PULSE.get w ≠ 0 ∧ TTRIG_CTL_MODE.get w = 3 then u.trigPulse n else u) := rfl

/-- Settles O19: each write through its block's hook `timeHook`. -/
theorem timeRegisterWritesAct : Obligations.TimeRegisterWritesAct := by
  refine ⟨fun s who w => ?commands, fun s who w h => ?state, fun s who w h => ?wdog, fun s who n w h => ?mode, fun s who n w h hp hm hold => ?pulse⟩
  case commands =>
    exact ⟨writeReg_TIME_CMD, writeReg_TIME_CMD, writeReg_TIME_CMD, writeReg_TIME_CMD, writeReg_TIME_CMD, writeReg_TIME_CMD⟩
  case state => exact writeReg_next h regAt_TIME_CTL rfl fun u => State.restartWdog_eq _
  case wdog => exact writeReg_next h regAt_TIME_WDOG rfl fun u => State.restartWdog_eq u
  case mode =>
    refine writeReg_next h (regAt_TTRIG_CTL n) rfl fun u => (timeHook_TTRIG_CTL n _ w u).trans ?_
    simp only [ne_eq, ite_not]
    rfl
  case pulse =>
    have hsame : TTRIG_CTL_MODE.get (TTRIG_CTL_PULSE.put w 1) = TTRIG_CTL_MODE.get (s.reg (TTRIG_CTL n)) := hm.trans hold.symm
    refine writeReg_next h (regAt_TTRIG_CTL n) rfl fun u => (timeHook_TTRIG_CTL n _ _ u).trans ?_
    rw [if_neg (not_not_intro hsame), if_pos ⟨hp, hm⟩, State.trigPulse_eq]

/-- A level that the unit has seen makes no edge; another one is seen and acts (R54). -/
theorem State.inputEdge_same {i : Nat} {l : Bool} {f : Bool → State → State} (h : (s.pinSeen i l).inputLevel i = (s.pinSeen i l).inputSeen i) :
    s.inputEdge i l f = s.pinSeen i l := by
  rw [State.inputEdge]
  exact if_pos h

theorem State.inputEdge_new {i : Nat} {l x : Bool} {f : Bool → State → State} (h : (s.pinSeen i l).inputLevel i = x)
    (hs : (s.pinSeen i l).inputSeen i = !x) : s.inputEdge i l f = f x ((s.pinSeen i l).seeInput i x) := by
  rw [State.inputEdge, h, hs, if_neg (by cases x <;> decide)]

/-- A pulse whose end has come ends (R52). -/
theorem pulseEnd_due {n e : Nat} (he : (s.trigOf n).endTick = some e) (hd : e ≤ s.time.tick) : pulseEnd n s = s.trigRelease n := by
  rw [pulseEnd, he]
  exact if_pos hd

/-- Settles O20. -/
theorem timeEventsMoveTheTime : Obligations.TimeEventsMoveTheTime := by
  refine ⟨fun s h => ?advance, fun s h hb => ?step, fun s h hb => ?set, fun s h hb => ?inc, fun s h hk => ?kick, fun s e h he hd hs => ?watchdog,
    fun s n h hm hn => ?rise, fun s n e h he hd => ?fall, fun s n level h => ⟨fun hl => ?noEdge, fun rising hl hs => ?edge⟩⟩
  case advance => exact chipOn_next h rfl
  case step => exact chipOn_next h (if_pos hb)
  case set => exact chipOn_next h (if_pos hb)
  case inc => exact chipOn_next h (if_pos hb)
  case kick => exact chipOn_next h (if_pos hk)
  case watchdog =>
    have hdue : s.stateWdogDue = true := by simp only [State.stateWdogDue, he, hd, decide_true]
    exact chipOn_next h (if_pos ⟨hdue, hs⟩)
  case rise => exact chipOn_next h (if_pos ⟨hm, hn⟩)
  case fall => exact chipOn_next h (pulseEnd_due he hd)
  case noEdge => exact chipOn_next (f := fun s => s.inputEdge (0xC0 + n.val) level (captureEdge n.val)) h (State.inputEdge_same hl)
  case edge =>
    refine chipOn_next (f := fun s => s.inputEdge (0xC0 + n.val) level (captureEdge n.val)) h ((State.inputEdge_new hl hs).trans ?_)
    simp only [captureEdge, Bool.not_eq_true', ← Bool.not_eq_true, ite_not]
    rfl

/-- TIME_PTPn_TXTS_KEY shows the head of the egress timestamp FIFO, 0 where it is empty (R46). -/
theorem timeView_TXTS_KEY (n : Nat) : timeView s (TIME_PTP_TXTS_KEY 0) n = some (match s.txtsOf n with
    | [] => 0
    | e :: _ => w32 (2 ^ 31 + e.msgType % 16 * 2 ^ 24 + e.domain % 256 * 2 ^ 16 + e.seqId % 65536)) := rfl

/-- TCAPn_TS_NS shows the head of the capture FIFO, 0 where it is empty (R55). -/
theorem timeView_TCAP_TS_NS (n : Nat) : timeView s (TCAP_TS_NS 0) n = some (match s.tcapOf n with
    | [] => 0
    | e :: _ => w32 (2 ^ 31 + b2n e.rising * 2 ^ 30 + e.ns)) := rfl

/-- A read of TIME_PTPn_TXTS_KEY pops the head and latches its NS and SEC (R46). -/
theorem State.popTxts_cons {n : Nat} {e : TxtsEntry} {l : List TxtsEntry} (h : s.txtsOf n = e :: l) :
    s.popTxts n = ((s.setTxts n l).setReg (TIME_PTP_TXTS_NS n) (w32 (e.ns * 4 + e.quarter))).setReg (TIME_PTP_TXTS_SEC n) (w32 e.sec) := by
  rw [State.popTxts, h]

theorem State.popTxts_nil {n : Nat} (h : s.txtsOf n = []) : s.popTxts n = s := by
  rw [State.popTxts, h]

/-- A read of TCAPn_TS_NS pops the head and latches its SEC (R55). -/
theorem State.popTcap_cons {n : Nat} {e : TcapEntry} {l : List TcapEntry} (h : s.tcapOf n = e :: l) :
    s.popTcap n = (s.setTcap n l).setReg (TCAP_TS_SEC n) (w32 e.sec) := by
  rw [State.popTcap, h]

theorem State.popTcap_nil {n : Nat} (h : s.tcapOf n = []) : s.popTcap n = s := by
  rw [State.popTcap, h]

/-- What a read of TIME_NOW_FRAC latches is the instant of its tick (R33). -/
theorem State.latchNow_eq {tod : Nat} (h : s.time.tod = tod) : s.latchNow =
    ((s.setReg TIME_NOW_NS (w32 (todNs tod))).setReg TIME_NOW_SEC_LO (w32 (todSec tod))).setReg TIME_NOW_SEC_HI (w32 (todSec tod / 2 ^ 32)) := by
  rw [State.latchNow, h]

/-- Settles O21: the acceptance of a read leaves the time record (`State.atRead_of_taken`), so view and effect are those of the state before. -/
theorem timeReadsLatchTheInstant : Obligations.TimeReadsLatchTheInstant := by
  refine ⟨fun s who h => ?now, fun s who n h => ?stamp, fun s who n h => ?capture⟩
  case now =>
    have htod : (s.atRead who TIME_NOW_FRAC).time.tod = s.time.tod := by rw [State.atRead_of_taken h]
    refine readReg_next h regAt_TIME_NOW_FRAC (by decide) (by decide) rfl rfl ?_ (State.latchNow_eq htod)
    exact congrArg (fun t => (w32 (todFrac t)).toNat) htod
  case stamp =>
    have hfifo : (s.atRead who (TIME_PTP_TXTS_KEY n)).txtsOf n = s.txtsOf n := by rw [State.atRead_of_taken h]; rfl
    refine ⟨fun he => ?_, fun e l he => ?_⟩ <;> rw [he] at hfifo
    · refine readReg_next h (regAt_TIME_PTP_TXTS_KEY n) (by decide) (by decide) rfl rfl ?_ (State.popTxts_nil hfifo)
      change ((timeView _ (TIME_PTP_TXTS_KEY 0) n).getD _).toNat = _
      rw [timeView_TXTS_KEY, hfifo]
      rfl
    · refine readReg_next h (regAt_TIME_PTP_TXTS_KEY n) (by decide) (by decide) rfl rfl ?_ (State.popTxts_cons hfifo)
      change ((timeView _ (TIME_PTP_TXTS_KEY 0) n).getD _).toNat = _
      rw [timeView_TXTS_KEY, hfifo]
      rfl
  case capture =>
    have hfifo : (s.atRead who (TCAP_TS_NS n)).tcapOf n = s.tcapOf n := by rw [State.atRead_of_taken h]; rfl
    refine ⟨fun he => ?_, fun e l he => ?_⟩ <;> rw [he] at hfifo
    · refine readReg_next h (regAt_TCAP_TS_NS n) (by decide) (by decide) rfl rfl ?_ (State.popTcap_nil hfifo)
      change ((timeView _ (TCAP_TS_NS 0) n).getD _).toNat = _
      rw [timeView_TCAP_TS_NS, hfifo]
      rfl
    · refine readReg_next h (regAt_TCAP_TS_NS n) (by decide) (by decide) rfl rfl ?_ (State.popTcap_cons hfifo)
      change ((timeView _ (TCAP_TS_NS 0) n).getD _).toNat = _
      rw [timeView_TCAP_TS_NS, hfifo]
      rfl

end Sys2Proof.Machine
end

section
/-! Proofs for 03 (tide tables): writes of TIDE_CTL and TIDE_CMD (R63, R85, R87, R88). -/
namespace Sys2Proof.Machine

variable {s : State} {who : Initiator} {w : Word}

/-- The engine starts when the start bank is VALID and the base lies far enough ahead (R63). -/
theorem State.tideStartOk_iff (u : State) :
    u.tideStartOk = true ↔ u.bankState (u.fld TIDE_CTL TIDE_CTL_START_BANK) = 2 ∧ u.time.tod + 1024 * 2 ^ 32 ≤ u.tideBase := by
  simp only [State.tideStartOk, Bool.and_eq_true, beq_iff_eq, decide_eq_true_eq]
  rfl

/-- RUN written 1 (R63). -/
theorem State.tideRun_set (u : State) (old : Word) {w : Word} (h : TIDE_CTL_RUN.get w = 1) : u.tideRun old w =
    if u.bit TIDE_CTL TIDE_CTL_RUNNING then u.putF TIDE_CTL TIDE_CTL_RUN (TIDE_CTL_RUN.get old)
    else if u.bankState (u.fld TIDE_CTL TIDE_CTL_START_BANK) = 2 ∧ u.time.tod + 1024 * 2 ^ 32 ≤ u.tideBase then u.tideStart
    else (u.clrB TIDE_CTL TIDE_CTL_RUN).setB TIDE_STATUS TIDE_STATUS_START_REFUSED := by
  simp only [State.tideRun, h, Nat.one_ne_zero, if_false, State.tideStartOk_iff]
  rfl

/-- RUN written 0 asks for a stop, and nothing more at once (R63). -/
theorem State.tideRun_clear (u : State) (old : Word) {w : Word} (h : TIDE_CTL_RUN.get w = 0) : u.tideRun old w = u := if_pos h

/-- The swap decision is due (R87). -/
theorem State.swapDue_iff (u : State) : u.swapDue = true ↔
    u.bit TIDE_CTL TIDE_CTL_RUNNING ∧ u.swapHere ∧ u.curCycle.fin ≤ u.time.tod + 400 * 2 ^ 32 := by
  simp only [State.swapDue, State.tideRuns, Bool.and_eq_true, decide_eq_true_eq, and_assoc]

/-- SWAP_DISARM comes after a decision of the same clock (R88). -/
theorem State.swapDisarm_eq (u : State) : u.swapDisarm =
    let due := u.bit TIDE_CTL TIDE_CTL_RUNNING ∧ u.swapHere ∧ u.curCycle.fin ≤ u.time.tod + 400 * 2 ^ 32
    if u.bit TIDE_CMD TIDE_CMD_SWAP_ARM ∧ ¬due then u.clrB TIDE_CMD TIDE_CMD_SWAP_ARM
    else
      let v := if due then u.swapDecide else u
      if v.tide.commit ∧ v.tide.committed = v.time.tick then v.setB TIDE_STATUS TIDE_STATUS_DISARM_LATE else v := by
  simp only [State.swapDisarm, State.setIf, State.swapArmed, Bool.and_eq_true, Bool.not_eq_true', ← Bool.not_eq_true, State.swapDue_iff, beq_iff_eq]

/-- VALIDATE of bank b: ignored where the bank is held (R85). -/
theorem State.validate_eq (u : State) (b : Nat) : u.validate b =
    if u.bankHeld b then u.clrB TIDE_CMD (validateBit b)
    else ((u.setB TIDE_CMD (validateBit b)).putF (TIDE_BANK_STATE b) TIDE_BANK_STATE_STATE 1).setReg (TIDE_BANK_FAIL b) 0 := rfl

/-- Settles O22: the hook reads the bit written (`Fld.get_put_of_lt`) and the others as they were (`Fld.get_put_other`). -/
theorem tideRegisterWritesAct : Obligations.TideRegisterWritesAct := by
  refine ⟨fun s who w h => ?start, fun s who w h => ?stop, fun s who w h hvb ha hd => ?validateA, fun s who w h hva ha hd => ?validateB,
    fun s who w h hva hvb hd => ?arm, fun s who w h hva hvb ha => ?disarm⟩
  case start =>
    exact writeReg_next h regAt_TIDE_CTL rfl fun u => u.tideRun_set _ (Fld.get_put_of_lt w (by decide) (by decide) (by decide))
  case stop =>
    exact writeReg_next h regAt_TIDE_CTL rfl fun u => u.tideRun_clear _ (Fld.get_put_of_lt w (by decide) (by decide) (by decide))
  case validateA =>
    refine writeReg_next h regAt_TIDE_CMD rfl fun u => (?_ : u.tideCommand _ _ = _)
    simp (disch := decide) only [State.tideCommand, Fld.get_put_of_lt, Fld.get_put_other, hvb, ha, hd, ne_eq, not_true_eq_false, Nat.one_ne_zero,
      not_false_eq_true, if_true, if_false, State.validate_eq]
    rfl
  case validateB =>
    refine writeReg_next h regAt_TIDE_CMD rfl fun u => (?_ : u.tideCommand _ _ = _)
    simp (disch := decide) only [State.tideCommand, Fld.get_put_of_lt, Fld.get_put_other, hva, ha, hd, ne_eq, not_true_eq_false, Nat.one_ne_zero,
      not_false_eq_true, if_true, if_false, State.validate_eq]
    rfl
  case arm =>
    refine writeReg_next h regAt_TIDE_CMD rfl fun u => (?_ : u.tideCommand _ _ = _)
    simp (disch := decide) only [State.tideCommand, Fld.get_put_of_lt, Fld.get_put_other, hva, hvb, hd, ne_eq, not_true_eq_false, Nat.one_ne_zero,
      not_false_eq_true, if_true, if_false]
    rfl
  case disarm =>
    refine writeReg_next h regAt_TIDE_CMD rfl fun u => (?_ : u.tideCommand _ _ = _)
    simp (disch := decide) only [State.tideCommand, Fld.get_put_of_lt, Fld.get_put_other, hva, hvb, ha, ne_eq, not_true_eq_false, Nat.one_ne_zero,
      not_false_eq_true, if_true, if_false, State.swapDisarm_eq]

end Sys2Proof.Machine
end

section
/-! Proofs for 03 (tide tables): boundaries, and the issue and landing of entries (R62, R63, R67 to R73). -/
namespace Sys2Proof.Machine

variable {s : State}

/-! ## Boundaries (R62, R63) -/

/-- At its instant the boundary comes, once the cycle is served and no decision is due. -/
theorem cycleBoundary_due (hr : s.bit TIDE_CTL TIDE_CTL_RUNNING = true) (ht : s.curCycle.fin ≤ s.time.tod) (hs : s.cycleServed = true)
    (hw : s.swapHere = false) : cycleBoundary s = s.boundary := by
  simp only [cycleBoundary, State.tideRuns, hr, ht, hs, hw, decide_true, Bool.and_self, Bool.not_false, if_true]

/-- A boundary of an engine that goes on: the next cycle begins, by a committed swap in the other bank. -/
theorem State.boundary_runs (hr : s.bit TIDE_CTL TIDE_CTL_RUN = true) : s.boundary =
    (let e := s.curCycle.fin
     let c := (s.reg TIDE_CYCLE_CNT).toNat
     let u := s.setReg TIDE_CYCLE_CNT (w32 (c + 1))
     let u := if c + 1 = 2 ^ 32 then u.setB TIDE_STATUS TIDE_STATUS_WRAP else u
     let u := if u.tide.commit then u.swapTake e else u
     u.modTide fun t => { t with
       start := e, issued := t.issuedN, issuedN := [], flight := t.flight.map fun x => { x with next := false } }) := by
  have hstop : s.tideStopping = false := by simp only [State.tideStopping, hr, Bool.not_true, Bool.and_false]
  simp only [State.boundary, hstop, Bool.false_eq_true, if_false, State.setIf, beq_iff_eq]

/-- A boundary of an engine that is to stop: a committed swap is made first (log 16). -/
theorem State.boundary_stops (hr : s.bit TIDE_CTL TIDE_CTL_RUNNING = true) (h0 : s.bit TIDE_CTL TIDE_CTL_RUN = false) :
    s.boundary = (if s.tide.commit then s.swapTake s.curCycle.fin else s).tideStopLands := by
  have hstop : s.tideStopping = true := by simp only [State.tideStopping, State.tideRuns, hr, h0, Bool.not_false, Bool.and_true]
  simp only [State.boundary, hstop, if_true]

/-! ## Issue (R68) -/

/-- The earliest entry whose instant of issue has come is issued. -/
theorem entryIssue_due {t i : Nat} {next : Bool} (hr : s.bit TIDE_CTL TIDE_CTL_RUNNING = true) (hn : s.nextIssue = some (t, next, i))
    (ht : t ≤ s.time.tod) : entryIssue s = s.issue (if next then s.nextCycle else s.curCycle) next i := by
  rw [entryIssue, hn]
  exact if_pos ⟨hr, ht⟩

/-! ## Landing (R67, R70) -/

section
variable {x : Issued} {p : Issued → Bool}

/-- The state in which entry x lands: it has left the flight. -/
def State.landed (s : State) (x : Issued) : State := s.modTide fun t => { t with flight := t.flight.erase x }

/-- What an entry leaves that has been performed at its instant: MARK notes it (R66). -/
def State.landDone (x : Issued) (r : State) : State := (if bitOf 18 x.w1 then
  (r.setB TIDE_STATUS TIDE_STATUS_MARK).setReg TIDE_MARK_IDX (w32 (x.idx % 2 ^ 13 + 2 ^ 13 * (x.bank % 2))) else r).stowHeldClear

/-- What landing comes to at its instant, by the outcome of the action. -/
def Landed.result (x : Issued) (u : State) : Landed → State
  | .performed r => State.landDone x r
  | .held r => r.stowHeldClear
  | .dropped k => (u.tideDrop x.bank x.idx k).stowHeldClear

/-- The entry that lands next lands at its instant, when it is one of the command's action and no entry to be issued goes ahead of it. -/
theorem tideLand_next (hc : s.rst.chip = false) (hl : s.landing = some x) (ht : x.lands ≤ s.time.tod) (hf : s.issueFirst x = false)
    (hp : p x = true) {r : Landed} (hr : (s.landed x).landAct x false = r) : chipOn (tideLand p) s = .next (r.result x (s.landed x)).after := by
  refine chipOn_next hc ?_
  simp only [tideLand, hl, hp, ht, hf, decide_true, Bool.and_self, Bool.not_false, if_true, State.land]
  rw [show (s.modTide fun t => { t with flight := t.flight.erase x }) = s.landed x from rfl, hr]
  cases r <;> rfl

/-! Each action code with what lands (R67). -/

section
variable (u : State) {late : Bool}

theorem State.landAct_nop (h : x.act = 0) : u.landAct x late = .performed u := by simp only [State.landAct, h]
theorem State.landAct_gate (h : x.act = 1) : u.landAct x late = u.landGate x := by simp only [State.landAct, h]
theorem State.landAct_stow (h : x.act = 2) : u.landAct x late = u.landStow x := by simp only [State.landAct, h]
theorem State.landAct_hand (h : x.act = 3) : u.landAct x late = u.landHand x late := by simp only [State.landAct, h]
theorem State.landAct_trig (h : x.act = 4) : u.landAct x late = u.landTrig x late := by simp only [State.landAct, h]
theorem State.landAct_capt (h : x.act = 5) : u.landAct x late = u.landCapt x := by simp only [State.landAct, h]
theorem State.landAct_motn (h : x.act = 6) : u.landAct x late = u.landMotn x late := by simp only [State.landAct, h]
theorem State.landAct_dmas (h : x.act = 7) : u.landAct x late = u.landDmas x := by simp only [State.landAct, h]
theorem State.landAct_evnt (h : x.act = 8) : u.landAct x late = u.landEvnt x := by simp only [State.landAct, h]
theorem State.landAct_wake (h : x.act = 9) : u.landAct x late = u.landWake x := by simp only [State.landAct, h]
theorem State.landAct_adcs (h : x.act = 10) : u.landAct x late = u.landAdcs x := by simp only [State.landAct, h]

end

/-- Counting frames that a closing gate overruns leaves the gates. -/
theorem State.gates_overruns (u : State) (n : Nat) {α : Type} (l : List α) (m : Nat) :
    (l.foldl (fun (r : State) _ => (r.count (TIDE_WIN_OVERRUN n)).setB TIDE_STATUS TIDE_STATUS_OVERRUN) u).gates m = u.gates m :=
  List.foldlRecOn (motive := fun r : State => r.gates m = u.gates m) l _ rfl fun r hr _ _ => by
    obtain ⟨regs, h⟩ := State.countN_eq r (TIDE_WIN_OVERRUN n) 1 wholeReg
    rw [State.count, h]
    exact hr

/-- A publish or an acquire of entry x on buffer n: held while the line side is at the buffer or other operations wait (R83). -/
theorem State.landHb_result (u : State) (n : Nat) (publish : Bool) (by' : HbBy) :
    ((u.landHb x false n publish by').result x u).after =
      (let o : HeldOp := { publish := publish, by' := by', mark := bitOf 18 x.w1 }
       if u.hbHeld n ≠ [] ∨ u.hbBlocked n o = true then
         ((u.setHbHeld n (u.hbHeld n ++ [o])).setB TIDE_STATUS TIDE_STATUS_HAND_DEFER).stowHeldClear.after
       else (State.landDone x (u.hbApply n o)).after) := by
  have hw (o : HeldOp) : u.hbWaits n o = true ↔ u.hbHeld n ≠ [] ∨ u.hbBlocked n o = true := by
    simp only [State.hbWaits, Bool.or_eq_true, bne_iff_ne]
  simp only [State.landHb, State.hbOp, ← hw]
  split <;> rfl

end

/-- Settles O23. -/
theorem tideEntriesRunAndLand : Obligations.TideEntriesRunAndLand := by
  refine ⟨fun s hc hr h1 ht hs hw => ?boundary, fun s hc hr h0 ht hs hw => ?stop, fun s t i next hc hr hn ht => ?issue, fun s x hc hl ht hf => ?land⟩
  case boundary => exact chipOn_next hc ((cycleBoundary_due hr ht hs hw).trans (State.boundary_runs h1))
  case stop => exact chipOn_next hc ((cycleBoundary_due hr ht hs hw).trans (State.boundary_stops hr h0))
  case issue =>
    intro c hpar hact stow p u x hpoison
    have hskip : ¬(!parityActs (w1Parity (s.entryWord c.bank i 1)) c.cnt ∨ 10 < w1Action (s.entryWord c.bank i 1)) := by
      rw [hpar]
      exact not_or.mpr ⟨Bool.false_ne_true, Nat.not_lt.mpr hact⟩
    exact chipOn_next hc ((entryIssue_due hr hn ht).trans ((if_neg (Bool.eq_false_iff.mp hpoison)).trans (if_neg hskip)))
  case land =>
    intro u done n op hand
    refine ⟨fun ha => ?nop, fun ha hp => ?gate, fun c ha hp hcopy => ?stow, fun ha h1 hw => ?publish, fun ha h1 hw => ?acquire, fun ha hn hm => ?trig,
      fun ha hn => ?window, fun ha hn hm => ?noMode, fun ha hw => ?capt, fun ha hw => ?motn, fun ha h1 h2 => ?dmas, fun ha h1 h2 => ?evnt,
      fun ha hp => ?wake, fun ha hb => ?adcs⟩
    case nop => exact tideLand_next hc hl ht hf (by rw [ha]; rfl) (r := .performed u) (State.landAct_nop u ha)
    case gate =>
      refine tideLand_next hc hl ht hf (by rw [ha]; rfl) (r := .performed _) ?_
      rw [State.landAct_gate _ ha]
      refine (if_neg (Bool.eq_false_iff.mp hp)).trans ?_
      rw [State.gates_overruns]
      rfl
    case stow =>
      refine tideLand_next hc hl ht hf (by rw [ha]; rfl) (r := .performed _) ?_
      rw [State.landAct_stow _ ha]
      refine (if_neg (Bool.eq_false_iff.mp hp)).trans ?_
      rw [hcopy]
      rfl
    case publish =>
      have hpub : (x.arg0 % 4 == 1) = true := by rw [h1]; rfl
      refine (tideLand_next hc hl ht hf (by rw [ha]; exact hpub) ?_).trans (congrArg _ (State.landHb_result u n true _))
      rw [State.landAct_hand _ ha]
      simp only [State.landHand, hpub, if_true]
      exact if_pos hw
    case acquire =>
      have hpub : (x.arg0 % 4 == 1) = false := beq_false_of_ne h1
      refine (tideLand_next hc hl ht hf (by rw [ha]; simp [h1]) ?_).trans (congrArg _ (State.landHb_result u n false _))
      rw [State.landAct_hand _ ha]
      simp only [State.landHand, hpub, Bool.false_eq_true, if_false]
      exact if_pos hw
    case trig =>
      refine tideLand_next hc hl ht hf (by rw [ha]; rfl) (r := .performed _) ?_
      rw [State.landAct_trig _ ha]
      exact (if_neg (Nat.not_le.mpr hn)).trans (if_neg (not_not_intro hm))
    case window =>
      refine tideLand_next hc hl ht hf (by rw [ha]; rfl) (r := .performed _) ?_
      rw [State.landAct_trig _ ha]
      exact if_pos hn
    case noMode =>
      refine tideLand_next hc hl ht hf (by rw [ha]; rfl) (r := .dropped 5) ?_
      rw [State.landAct_trig _ ha]
      exact (if_neg (Nat.not_le.mpr hn)).trans (if_pos hm)
    case capt =>
      refine tideLand_next hc hl ht hf (by rw [ha]; rfl) (r := .performed _) ?_
      rw [State.landAct_capt _ ha]
      exact if_pos hw
    case motn =>
      refine (tideLand_next hc hl ht hf (by rw [ha]; rfl) ?_).trans (congrArg _ (State.landHb_result u (bitsOf 7 0 x.arg0) false _))
      rw [State.landAct_motn _ ha]
      exact if_pos hw
    case dmas =>
      refine tideLand_next hc hl ht hf (by rw [ha]; rfl) (r := .performed _) ?_
      rw [State.landAct_dmas _ ha]
      exact (if_neg (Bool.eq_false_iff.mp h1)).trans (if_neg (Bool.eq_false_iff.mp h2))
    case evnt =>
      refine tideLand_next hc hl ht hf (by rw [ha]; rfl) (r := .performed _) ?_
      rw [State.landAct_evnt _ ha]
      exact if_neg (by rw [Bool.or_eq_true, not_or]; exact ⟨Bool.eq_false_iff.mp h1, Bool.eq_false_iff.mp h2⟩)
    case wake =>
      refine tideLand_next hc hl ht hf (by rw [ha]; rfl) (r := .performed _) ?_
      rw [State.landAct_wake _ ha]
      exact if_neg (Bool.eq_false_iff.mp hp)
    case adcs =>
      refine tideLand_next hc hl ht hf (by rw [ha]; rfl) (r := .performed _) ?_
      rw [State.landAct_adcs _ ha]
      exact if_neg (Bool.eq_false_iff.mp hb)

end Sys2Proof.Machine
end

section
/-! Proofs for 03 (tide tables): banks (R85 to R87) and handover buffers (R78 to R83). -/
namespace Sys2Proof.Machine

variable {s : State} {who : Initiator} {w : Word}

/-! ## Writes of a bank (R86) -/

/-- A write that is answered and that the interconnect ends well leaves what that made of it, and its record. -/
theorem State.rowWrite_bus {a : Nat} {t : State} (h : s.answers who a = true)
    (hw : (s.admitWrite who a 4).busWrite who a (leBytes 4 w.toNat) = (t, .done)) : s.rowWrite who a w = t.noted who a 0 := by
  have hmade (seq : Nat) (bs : List Nat) : State.writeMade who a seq bs (t, .done, 0) = (t, .done, 0) := by
    unfold State.writeMade
    split <;> trivial
  rw [State.rowWrite, State.inTurn_write h (by rfl), leBytes_length]
  simp only [hw, hmade, ite_self, State.noted]

/-- A write into a bank that is not held lands there and empties it. -/
theorem State.busWrite_tideBank {a b base : Nat} {bs : List Nat} (h : s.serves who a = true) (hr : regionOf a = some (.tideBank b, base))
    (ha : a < 0x80000000) (hm : memFits a bs.length = true) (hh : (s.lockPassed who a).bankHeld b = false) :
    s.busWrite who a bs = (((s.lockPassed who a).store a bs).bankTouch b, .done) := by
  simp only [State.serves, hr, Bool.and_eq_true, Bool.not_eq_true', Option.isNone_iff_eq_none] at h
  obtain ⟨⟨h1, h2⟩, h3, h5⟩ := h
  have hfit : accessFits who a bs.length = true := by simp only [accessFits, hm, Bool.true_or]
  have h3' : ¬(s.rst.core = true ∧ (Region.tideBank b).coreHeld = true) := by simpa using h3
  simp only [State.busWrite, h1, State.ended_write s who ha, h2, hr, h3', h5, hfit, hh, Bool.not_true, Bool.false_eq_true, if_false]

/-- The tables of the two banks (R65). -/
theorem regionOf_tideBank {a : Nat} (b : Fin 2) (h1 : 0x3A000000 + b.val * 0x20000 ≤ a) (h2 : a < 0x3A020000 + b.val * 0x20000) :
    regionOf a = some (.tideBank b.val, 0x3A000000 + b.val * 0x20000) := by
  have hlow : ¬a < 0x10000 ∧ ¬(0x08000000 ≤ a ∧ a < 0x08020000) ∧ ¬(0x08100000 ≤ a ∧ a < 0x08140000) ∧ ¬(0x10000000 ≤ a ∧ a < 0x10100000)
      ∧ ¬(0x20000000 ≤ a ∧ (a - 0x20000000) / 0x20000 < 24) ∧ ¬(0x30000000 ≤ a ∧ a < 0x30200000) ∧ ¬(0x38000000 ≤ a ∧ a < 0x38040000)
      ∧ ¬(0x39000000 ≤ a ∧ a < 0x39040000) := by omega
  obtain ⟨n1, n2, n3, n4, n5, n6, n7, n8⟩ := hlow
  simp only [regionOf, n1, n2, n3, n4, n5, n6, n7, n8, if_false]
  have hb : b.val = 0 ∨ b.val = 1 := by omega
  rcases hb with hb | hb <;> rw [hb] at h1 h2 ⊢
  · exact if_pos ⟨h1, h2⟩
  · exact (if_neg (by omega)).trans (if_pos ⟨h1, h2⟩)

/-- A write of TIDE_BANKb_CYCLE or TIDE_BANKb_LEN that is taken empties the bank. -/
theorem exec_tideBankWrite_register {b a0 : Nat} {a : Nat} {row : RegRow} (r : RegAt a 5 a0 row [b]) (ha : (w32 a).toNat = a) (hb : isBank a = true)
    (h0 : a0 = TIDE_BANK_CYCLE 0 ∨ a0 = TIDE_BANK_LEN 0) (h : s.writeTaken who a w = true) :
    exec (.tideBankWrite who (w32 a) w) s = .next (s.did who a w fun u => u.bankTouch b) := by
  have hhook (u : State) : blockHook who 5 a0 b (s.reg a) w u = u.bankTouch b := by rcases h0 with rfl | rfl <;> rfl
  have hcount : isCount64 a0 = false := by rcases h0 with rfl | rfl <;> rfl
  refine chipOn_next (f := fun s => if isBank (w32 a).toNat then s.rowWrite who (w32 a).toNat w else s) (State.writeTaken_chip h) ?_
  rw [ha, hb, if_pos rfl, State.rowWrite_next h r hcount hhook]

/-- The registers of a bank, as addresses. -/
theorem isBank_registers (b : Fin 2) : ((w32 (TIDE_BANK_CYCLE b)).toNat = TIDE_BANK_CYCLE b ∧ isBank (TIDE_BANK_CYCLE b) = true)
    ∧ (w32 (TIDE_BANK_LEN b)).toNat = TIDE_BANK_LEN b ∧ isBank (TIDE_BANK_LEN b) = true := by
  revert b
  decide

/-! ## Handover buffers -/

/-- A write of TIDE_HBn_CFG: EN written 0 disables the buffer, EN set anew resets its slot roles (R78). -/
theorem tideHook_HB_CFG (n : Nat) (old w : Word) (u : State) : tideHook (TIDE_HB_CFG 0) n old w u =
    if TIDE_HB_CFG_EN.get w = 0 then u.hbDisable n else if TIDE_HB_CFG_EN.get old = 0 then u.hbEnable n else u := by
  change (if TIDE_HB_CFG_EN.get old = 0 ∧ TIDE_HB_CFG_EN.get w ≠ 0 then u.hbEnable n
    else if TIDE_HB_CFG_EN.get w = 0 then u.hbDisable n else u) = _
  by_cases hw : TIDE_HB_CFG_EN.get w = 0 <;> by_cases hold : TIDE_HB_CFG_EN.get old = 0 <;> simp only [hw, hold, ne_eq, not_true_eq_false,
    not_false_eq_true, and_true, and_false, and_self, if_true, if_false]

/-- An operation of software on buffer n is held behind others or the line side, else applied (R83). -/
theorem State.hbOp_eq (u : State) (n : Nat) (o : HeldOp) : u.hbOp n o =
    if u.hbHeld n ≠ [] ∨ u.hbBlocked n o = true then (u.setHbHeld n (u.hbHeld n ++ [o])).setB TIDE_STATUS TIDE_STATUS_HAND_DEFER
    else u.hbApply n o := by
  have hw : u.hbWaits n o = true ↔ u.hbHeld n ≠ [] ∨ u.hbBlocked n o = true := by
    simp only [State.hbWaits, Bool.or_eq_true, bne_iff_ne]
  simp only [State.hbOp, hw]

/-- One operation held on an enabled buffer that nothing blocks any more is done (R83). -/
theorem heldOperationApply_one {n : Nat} {o : HeldOp} (hh : s.hbHeld n = [o]) (he : s.hbEn n = true) (hl : o.lost = false)
    (hb : s.hbBlocked n o = false) : heldOperationApply n s = (s.hbDone n o).setHbHeld n [] := by
  simp only [heldOperationApply, hh, hbDrain, hb, hl, he, Bool.not_true, Bool.or_self, Bool.false_eq_true, if_false]

/-- A window whose tolerance has ended is dropped where no frame is in reception (R73). -/
theorem windowExpiry_due {n : Nat} {x : Window} (hw : s.winOf n = some x) (ht : x.closes + s.winTol < s.time.tod) (hr : (s.portOf n).rx = none) :
    windowExpiry n s = s.setWin n none := by
  have hnone : s.rxUnjudged n (x.closes + s.winTol) = false := by rw [State.rxUnjudged, hr]
  rw [windowExpiry, hw]
  exact if_pos ⟨ht, by rw [hnone]; rfl⟩
/-- Settles O24. -/
theorem tideBanksAndHandoverBuffersAct : Obligations.TideBanksAndHandoverBuffersAct := by
  refine ⟨fun s b hc hv => ?validation, fun a b => regionOf_tideBank b, fun s who a w b h1 h2 ha hm hh => ?write, fun s who b w => ⟨fun h => ?cycle, fun h => ?len⟩,
    fun s hc hr hw ht => ?decision, fun s who n w h => ?config, fun s who w h => ?publish, fun s who w h => ?acquire, fun s n o hc hh he hl hb => ?held,
    fun s n w hc hw ht hr => ?window⟩
  case validation => exact chipOn_next hc (if_pos hv)
  case write =>
    have hbank : isBank a.toNat = true := by
      simp only [isBank, Bool.or_eq_true, Bool.and_eq_true, decide_eq_true_eq]
      exact .inl (by omega)
    have hserves := State.admitWrite_serves (State.answers_room ha) 4 (State.answers_serves ha)
    have hheld : (s.atWrite who a.toNat).bankHeld b = false := by
      rw [State.atWrite_eq (State.answers_room ha)]
      exact hh
    have hbus := State.busWrite_tideBank (bs := leBytes 4 w.toNat) hserves (regionOf_tideBank b h1 h2) (by omega) hm hheld
    refine chipOn_next (f := fun s => if isBank a.toNat then s.rowWrite who a.toNat w else s) (State.answers_chip ha) ?_
    rw [hbank, if_pos rfl, State.rowWrite_bus ha hbus]
    rfl
  case cycle =>
    exact exec_tideBankWrite_register (regAt_TIDE_BANK_CYCLE b) (isBank_registers b).1.1 (isBank_registers b).1.2 (.inl rfl) h
  case len =>
    exact exec_tideBankWrite_register (regAt_TIDE_BANK_LEN b) (isBank_registers b).2.1 (isBank_registers b).2.2 (.inr rfl) h
  case decision =>
    have hdue : (s.tideRuns && s.swapHere && decide (s.curCycle.fin ≤ s.time.tod + 400 * 2 ^ 32)) = true := by
      simp only [State.tideRuns, hr, hw, ht, decide_true, Bool.and_self]
    exact chipOn_next hc (if_pos hdue)
  case config => exact writeReg_next h (regAt_TIDE_HB_CFG n) rfl fun u => tideHook_HB_CFG n _ w u
  case publish =>
    refine writeReg_next h regAt_TIDE_HB_CMD rfl fun u => (?_ : u.hbCommand _ = _)
    simp (disch := decide) only [State.hbCommand, Fld.get_put_of_lt, Fld.get_put_other, State.hbOp_eq]
    rfl
  case acquire =>
    refine writeReg_next h regAt_TIDE_HB_CMD rfl fun u => (?_ : u.hbCommand _ = _)
    simp (disch := decide) only [State.hbCommand, Fld.get_put_of_lt, Fld.get_put_other, State.hbOp_eq]
    rfl
  case held =>
    refine chipOn_next hc ((heldOperationApply_one hh he hl hb).trans ?_)
    unfold State.hbDone
    cases o.by' <;> rfl
  case window => exact chipOn_next hc (windowExpiry_due hw ht hr)

end Sys2Proof.Machine
end

section
/-! Proofs for 04 (switch core): the MAC, VLAN and stream tables (R101, R103, R105, R126). -/
namespace Sys2Proof.Machine

variable {s : State} {who : Initiator} {w : Word}

/-- A write of SW_MAC_CMD that is taken performs the operation of its code. -/
theorem writeReg_SW_MAC_CMD {op : Nat} (ho : op < 8) (h : s.writeTaken who SW_MAC_CMD (SW_MAC_CMD_OP.put w op) = true) {f : State → State}
    (hf : ∀ u, State.macOp u op = f u) :
    writeReg who SW_MAC_CMD (SW_MAC_CMD_OP.put w op) s = .next (s.did who SW_MAC_CMD (SW_MAC_CMD_OP.put w op) f) := by
  refine writeReg_next h regAt_SW_MAC_CMD rfl fun u => (?_ : u.macOp _ = _)
  rw [Fld.get_put_of_lt w (by decide) (by decide) ho]
  exact hf u

/-- A write of STREAM_CMD that is taken performs the operation of its code. -/
theorem writeReg_STREAM_CMD {op : Nat} (ho : op < 8) (h : s.writeTaken who STREAM_CMD (STREAM_CMD_OP.put w op) = true) {f : State → State}
    (hf : ∀ u, State.strOp u op = f u) :
    writeReg who STREAM_CMD (STREAM_CMD_OP.put w op) s = .next (s.did who STREAM_CMD (STREAM_CMD_OP.put w op) f) := by
  refine writeReg_next h regAt_STREAM_CMD rfl fun u => (?_ : u.strOp _ = _)
  rw [Fld.get_put_of_lt w (by decide) (by decide) ho]
  exact hf u

/-- A write of SW_VLAN_CMD reads the entry of its VID with the code 1, and writes it with another (R101). -/
theorem State.vlanOp_eq (u : State) (w : Word) : u.vlanOp w =
    if SW_VLAN_CMD_OP.get w = 1 then u.setReg SW_VLAN_DATA (w32 (u.vlanAt (SW_VLAN_CMD_VID.get w)))
    else u.modSw fun x => { x with vlan := tput vlanReset x.vlan (SW_VLAN_CMD_VID.get w) (u.reg SW_VLAN_DATA).toNat } := rfl

/-- Settles O25. -/
theorem switchTablesTakeOperations : Obligations.SwitchTablesTakeOperations := by
  refine ⟨fun s who w h => ?lookup, fun s who w h => ?write, fun s who w h => ?delete, fun s who w h => ?flush, fun s who w h => ?index,
    fun s hc => ?macEnd, fun s hc => ?age, fun s who w h => ?vlanRead, fun s who w h => ?vlanWrite, fun s who w h => ?read, fun s who w h => ?strWrite,
    fun s who w h => ?clear, fun s who w h => ?unblock, fun s hc => ?strEnd⟩
  case lookup => exact writeReg_SW_MAC_CMD (by decide) h fun u => rfl
  case write => exact writeReg_SW_MAC_CMD (by decide) h fun u => rfl
  case delete => exact writeReg_SW_MAC_CMD (by decide) h fun u => rfl
  case flush => exact writeReg_SW_MAC_CMD (by decide) h fun u => rfl
  case index => exact writeReg_SW_MAC_CMD (by decide) h fun u => rfl
  case macEnd => exact chipOn_next (f := fun s => s.clrB SW_MAC_CMD SW_MAC_CMD_BUSY) hc rfl
  case age => exact chipOn_next hc rfl
  case vlanRead =>
    refine writeReg_next h regAt_SW_VLAN_CMD rfl fun u => (u.vlanOp_eq _).trans ?_
    simp (disch := decide) only [Fld.get_put_of_lt, Fld.get_put_other, if_true]
  case vlanWrite =>
    refine writeReg_next h regAt_SW_VLAN_CMD rfl fun u => (u.vlanOp_eq _).trans ?_
    simp (disch := decide) only [Fld.get_put_of_lt, Fld.get_put_other, show (2 : Nat) ≠ 1 by decide, if_false]
  case read => exact writeReg_STREAM_CMD (by decide) h fun u => rfl
  case strWrite => exact writeReg_STREAM_CMD (by decide) h fun u => rfl
  case clear => exact writeReg_STREAM_CMD (by decide) h fun u => rfl
  case unblock => exact writeReg_STREAM_CMD (by decide) h fun u => rfl
  case strEnd => exact chipOn_next hc rfl

end Sys2Proof.Machine
end

section
/-! Proofs for 04 (switch core) and 06 (stowage plans): frames in and out (R98, R106, R111, R112, R141, R142), commits and clears (R165, R166). -/
namespace Sys2Proof.Machine

variable {s : State}

/-! ## Ports -/

/-- The port that was set reads what it was set to. -/
theorem State.portOf_modPort (h : s.Inv) (n : Nat) (f : PortSt → PortSt) : (s.modPort n f).portOf n = f (s.portOf n) :=
  tget_tput_self h.portOk n _

/-- Of two frames put into reception on a port the second stands. -/
theorem State.setRx_setRx (h : s.Inv) (n : Nat) (r r' : Option RxFrame) : (s.setRx n r).setRx n r' = s.setRx n r' := by
  have hp : (s.setRx n r).portOf n = { s.portOf n with rx := r } := s.portOf_modPort h n _
  rw [State.setRx, State.modPort, hp, State.setPort, show (s.setRx n r).port = tput (fun _ => {}) s.port n { s.portOf n with rx := r } from rfl,
    tput_tput h.portOk]
  rfl

/-- A frame put into reception is read there. -/
theorem State.rx_setRx (h : s.Inv) (n : Nat) (r : Option RxFrame) : ((s.setRx n r).portOf n).rx = r :=
  congrArg PortSt.rx (s.portOf_modPort h n _)

/-! ## Reception -/

/-- A frame whose head has been classified is not classified again. -/
theorem State.classify_of_front {n : Nat} {r : RxFrame} (hr : (s.portOf n).rx = some r) (hf : r.front.isSome = true) (c : Bool) :
    s.classify n c = s := by
  rw [State.classify, hr]
  exact if_pos (Or.inl hf)

/-- Fewer than 14 bytes end before the EtherType, so nothing can be classified. -/
theorem State.classify_of_short {n : Nat} {r : RxFrame} (hr : (s.portOf n).rx = some r) (hl : r.bytes.length < 14) (c : Bool) :
    s.classify n c = s := by
  have hh : r.bytes.length < headLen r.bytes := by
    simp only [headLen, if_neg (Nat.not_le.mpr hl)]
    split <;> omega
  rw [State.classify, hr]
  exact if_pos (Or.inr (Or.inl hh))

/-- Further bytes of a frame that is not stored yet, where they give no class. -/
theorem rxMore_of_unclassified {n : Nat} {r : RxFrame} (bs : List Nat) (hr : (s.portOf n).rx = some r) (hn : r.frame = none)
    (hc : let r' := { r with bytes := (r.bytes ++ bs.map fun b => b % 256).take (s.fld (PORT_MAX_FRAME n) PORT_MAX_FRAME_BYTES + 1) }
      (s.setRx n (some r')).classify n false = s.setRx n (some r')) :
    rxMore n bs s = s.setRx n (some { r with
      bytes := (r.bytes ++ bs.map fun b => b % 256).take (s.fld (PORT_MAX_FRAME n) PORT_MAX_FRAME_BYTES + 1) }) := by
  simpa only [rxMore, hr, hn] using hc

/-- The counters leave every port as it is. -/
theorem State.portOf_countN (s : State) (a n k : Nat) (f : Fld) : (s.countN a f n).portOf k = s.portOf k := by
  obtain ⟨regs, e⟩ := s.countN_eq a n f
  rw [e]; rfl

theorem State.portOf_count64 (s : State) (lo hi n k : Nat) : (s.count64 lo hi n).portOf k = s.portOf k := by
  unfold State.count64
  simp only
  split <;> rfl

/-- The counters of a good frame of no more than MAX_FRAME bytes that came in one piece (R142). -/
theorem State.rxStats_good (s : State) (n : Nat) {r : RxFrame} (hl : 64 ≤ r.bytes.length) (hf : r.frags = 0) (ht : beAt r.bytes 12 2 ≠ 0x8808) :
    s.rxStats n r .ok false true =
      let u := (s.count (PORT_FRAMES_RX n)).count64 (PORT_OCTETS_RX_LO n) (PORT_OCTETS_RX_HI n) (r.bytes.length - 18)
      if daOf r.bytes = 0xFFFFFFFFFFFF then u.count (PORT_BCAST_RX n)
      else if r.bytes.getD 0 0 % 2 = 1 then u.count (PORT_MCAST_RX n) else u := by
  have hr : ¬r.bytes.length < 64 := by omega
  simp only [State.rxStats, State.countIf, hf, hr, ht, decide_false, Bool.false_eq_true, Bool.not_true, or_self, if_true, if_false, beq_iff_eq]

/-- They leave the ports as they are. -/
theorem State.portOf_rxStats_good (s : State) (n k : Nat) {r : RxFrame} (hl : 64 ≤ r.bytes.length) (hf : r.frags = 0) (ht : beAt r.bytes 12 2 ≠ 0x8808) :
    (s.rxStats n r .ok false true).portOf k = s.portOf k := by
  rw [s.rxStats_good n hl hf ht]
  have h (u : State) (a : Nat) : (u.count a).portOf k = u.portOf k := u.portOf_countN ..
  simp only
  split
  · rw [h, State.portOf_count64, h]
  · split
    · rw [h, State.portOf_count64, h]
    · rw [State.portOf_count64, h]

/-- The end of a good frame that waited for it (R98). -/
theorem rxFinish_good {n : Nat} {r : RxFrame} {fr : Front} (hr : (s.portOf n).rx = some r) (hn : r.frame = none) (hfr : r.front = some fr)
    (hl : 64 ≤ r.bytes.length) (hm : r.bytes.length ≤ s.fld (PORT_MAX_FRAME n) PORT_MAX_FRAME_BYTES) (hg : fcsGood r.bytes = true)
    (hc : r.cutOff = false) (hf : r.frags = 0) (ht : beAt r.bytes 12 2 ≠ 0x8808) :
    rxFinish n .ok s = ((s.rxStats n r .ok false true).switchIn n r.ts r.bytes fr 0 r.demoted false []).setRx n none := by
  have hu := (congrArg PortSt.rx (s.portOf_rxStats_good n n hl hf ht)).trans hr
  have hcl : (s.rxStats n r .ok false true).classify n true = s.rxStats n r .ok false true :=
    State.classify_of_front hu (by rw [hfr]; rfl) true
  have hlong : decide (s.fld (PORT_MAX_FRAME n) PORT_MAX_FRAME_BYTES < r.bytes.length) = false := decide_eq_false (by omega)
  have hrunt : decide (r.bytes.length < 64) = false := decide_eq_false (by omega)
  have hend : (RxEnd.ok == RxEnd.assembly || RxEnd.ok == RxEnd.smd) = false := rfl
  have hbad : (RxEnd.ok != RxEnd.ok || false || false || !true) = false := rfl
  simp only [rxFinish, hr, hlong, hrunt, hg, hend, hbad, Bool.false_eq_true, if_false, hcl, hu, hn, hfr, hc, ht, Bool.or_self]

/-! ## Transmission -/

/-- The first bytes of the frame in transmission leave. -/
theorem State.txSent_of {n : Nat} {t : TxFrame} {f : Frame} (ht : (s.portOf n).tx = some t) (hf : s.frameAt t.frame = some f) (k : Nat) :
    s.txSent n k =
      let k' := if f.done then k else min k (min 2048 f.sendable)
      let r := s.txJudge n k'
      let j := r.txNow n t
      let body := if f.done then r.copyBody f n else bodyOf f.bytes
      let u := r.insertEcc (j.acts f) j.head.length (min k' body.length)
      let t' := j.sentTo ((u.leave f n j.ts body j.skips).2.take k')
        (u.insertPoison (j.acts f) j.head.length (min k' body.length) || u.framePoison f j.head.length k')
      let v := u.modPort n fun p => { p with tx := some t' }
      if f.done = false ∧ 2048 ≤ t'.head.length then v.txFinish n else v := by
  simp only [State.txSent, ht, hf, Bool.not_eq_true']

/-- The end of a transmission whose reception is over. -/
theorem State.txFinish_of_done {n : Nat} {t : TxFrame} {f : Frame} (ht : (s.portOf n).tx = some t) (hf : s.frameAt t.frame = some f)
    (hd : f.done = true) : s.txFinish n =
      if f.oversize then ((s.count (SW_PORT_CT_OVERSIZE n)).setB SW_STATUS SW_STATUS_CT_OVERSIZE).txSend n t f f.bytes true
      else s.txSend n t f (s.copyBody f n) f.bad := by
  simp only [State.txFinish, State.txEnd, State.ctOver, ht, hf, hd, Bool.not_true, Bool.false_eq_true, false_and, if_false, if_true]

/-- A frame that is not too long starts whole. -/
theorem State.txWhole_of_fits {n i : Nat} {f : Frame} (bad : List Nat) (h : s.leaveLen f n ≤ 9216) :
    s.txWhole n (i, f) bad = s.txBegin n i f false bad := if_neg (Nat.not_lt.mpr h)

/-- The finish of a cut-through is that of the transmission. -/
theorem cutThrough_finish {n : Nat} {t : TxFrame} (ht : (s.portOf n).tx = some t) (hc : t.ct = true) : cutThrough n .finish s = s.txFinish n := by
  simp only [cutThrough, ht, hc, if_true]

/-- What port n sends next, its line being free (R106). -/
theorem frameTransmit_start {n : Nat} (hl : s.lineFree n = true) (bad : List Nat) :
    frameTransmit n (.start bad) s = (s.fcDefer n).txNext n bad := if_pos hl

/-- A port takes up a frame in one piece, or with PREEMPT_EN one in fragments (R141). -/
theorem State.rxTakes_of {n k : Nat} (hl : s.portLive n = true) (hr : (s.portOf n).rx = none)
    (hk : k = 0 ∨ s.bit (PORT_MM_CTL n) PORT_MM_CTL_PREEMPT_EN = true) : s.rxTakes n k = true := by
  simp only [State.rxTakes, hl, hr, Option.isNone_none, Bool.and_self, Bool.true_and, Bool.or_eq_true, beq_iff_eq, hk]

/-- Bytes that do not reach the EtherType give no class. -/
theorem rxMore_short {n : Nat} {r : RxFrame} {bs : List Nat} (hi : s.Inv) (hr : (s.portOf n).rx = some r) (hn : r.frame = none)
    (hlen : (r.bytes ++ bs.map fun b => b % 256).length < 14)
    (hm : (r.bytes ++ bs.map fun b => b % 256).length ≤ s.fld (PORT_MAX_FRAME n) PORT_MAX_FRAME_BYTES) :
    rxMore n bs s = s.setRx n (some { r with bytes := r.bytes ++ bs.map fun b => b % 256 }) := by
  have htake := List.take_of_length_le (Nat.le_succ_of_le hm)
  refine (rxMore_of_unclassified bs hr hn (State.classify_of_short (s.rx_setRx hi n _) ?_ false)).trans (by rw [htake])
  rw [htake]
  exact hlen

/-- The first bytes of a frame. -/
theorem rxStart_short {n q k : Nat} {bs : List Nat} (hi : s.Inv) (ht : s.rxTakes n k = true) (hlen : bs.length < 14)
    (hm : bs.length ≤ s.fld (PORT_MAX_FRAME n) PORT_MAX_FRAME_BYTES) :
    rxStart n q bs k s = s.setRx n (some { bytes := bs.map fun b => b % 256, ts := s.stamp q (s.reg (PORT_TS_ADJ_RX n)), frags := k }) := by
  rw [← List.length_map (f := fun b => b % 256)] at hlen hm
  exact (if_pos ht).trans ((rxMore_short (r := { bytes := [], ts := s.stamp q (s.reg (PORT_TS_ADJ_RX n)), frags := k })
    (State.setRx_inv s n _ hi) (s.rx_setRx hi n _) rfl hlen hm).trans (s.setRx_setRx hi n _ _))

/-- The timestamp point of a frame in transmission that it has not passed. -/
theorem State.txSfd_of {n q : Nat} {t : TxFrame} (ht : (s.portOf n).tx = some t) (hs : t.sfd = false) :
    s.txSfd n q = s.modPort n fun p => { p with tx := some { t with ts := s.stamp q (s.reg (PORT_TS_ADJ_TX n)), sfd := true } } := by
  simp only [State.txSfd, ht, hs, Bool.false_eq_true, if_false]

/-- A commit of a plan that no copy holds ends (R166). -/
theorem commitEnd_of (hb : s.bit STOW_CMD STOW_CMD_BUSY = true) (ho : s.fld STOW_CMD STOW_CMD_OP = 1)
    (hh : s.copyHolds (s.fld STOW_CMD STOW_CMD_PLAN) = false) :
    commitEnd s = (s.commit (s.fld STOW_CMD STOW_CMD_PLAN)).setReg STOW_CMD 0 :=
  if_pos ⟨hb, ho, by rw [hh]; rfl⟩

/-- Settles O26. -/
theorem framesPassPortsAndStowagePlans : Obligations.FramesPassPortsAndStowagePlans := by
  refine ⟨fun s n r fr hc hr hn hfr hi => ⟨fun bs => ?more, fun hl hm hg hcut hf ht => ?good⟩, fun s n q bs k hc hl hr => ⟨fun hk hp => ?notTaken,
      fun hk => ⟨fun hi hlen hm => ?start, fun e => ?whole⟩⟩, fun s n e i f hc hh => ?hand,
    fun s n t f hc ht => ⟨fun q hs => ?sfd, fun k hf => ?sent, fun hf hd ho => ?finish, fun hf ho hd => ?cut⟩,
    fun s n bad hc hl => ⟨fun i f h => ?ctStart, fun i f he hlen => ?express, fun he => ⟨fun i f h => ?ctNext, fun h hk => ?control,
      fun i f h hk hf hlen => ?next⟩⟩, fun s n hc => ⟨fun k t f ht hf hpre hb hmin hlen hx => ?preempt, fun t ht hl htd hp he => ?resume⟩,
    fun s who w h => ?commit, fun s hc hb ho h1 h2 => ?commitEnd, fun s who w h => ?clear⟩
  case more =>
    exact chipOn_next hc (rxMore_of_unclassified bs hr hn (State.classify_of_front (s.rx_setRx hi n _) (by rw [hfr]; rfl) false))
  case good =>
    refine chipOn_next hc ((rxFinish_good hr hn hfr hl hm hg hcut hf ht).trans ?_)
    rw [s.rxStats_good n hl hf ht]
  case notTaken =>
    have hno : s.rxTakes n k = false := by simp only [State.rxTakes, hp, beq_eq_false_iff_ne.mpr hk, Bool.or_self, Bool.and_false]
    exact ⟨chipOn_next hc (if_neg (Bool.eq_false_iff.mp hno)), fun e => chipOn_next hc (if_neg (Bool.eq_false_iff.mp hno))⟩
  case start => exact chipOn_next hc (rxStart_short hi (State.rxTakes_of hl hr hk) hlen hm)
  case whole => exact chipOn_next hc (if_pos (State.rxTakes_of hl hr hk))
  case hand => exact chipOn_next hc (by simp only [frameReceive, handOver, hh])
  case sfd => exact ⟨chipOn_next hc (State.txSfd_of ht hs), chipOn_next hc (State.txSfd_of ht hs)⟩
  case sent => exact ⟨chipOn_next hc (State.txSent_of ht hf k), chipOn_next hc (State.txSent_of ht hf k)⟩
  case finish =>
    have e := (State.txFinish_of_done ht hf hd).trans (if_neg (Bool.eq_false_iff.mp ho))
    exact ⟨fun hct => chipOn_next hc ((cutThrough_finish ht hct).trans e), chipOn_next hc e⟩
  case cut =>
    have e := (State.txFinish_of_done ht hf hd).trans (if_pos ho)
    exact ⟨fun hct => chipOn_next hc ((cutThrough_finish ht hct).trans e), chipOn_next hc e⟩
  case ctStart => exact chipOn_next hc (by simp only [cutThrough, hl, h, Bool.not_true, Bool.false_eq_true, if_false])
  case express =>
    refine chipOn_next hc ((frameTransmit_start hl bad).trans ?_)
    simp only [State.txNext, he]
    exact State.txWhole_of_fits bad hlen
  case ctNext =>
    refine chipOn_next hc ((frameTransmit_start hl bad).trans ?_)
    simp only [State.txNext, he, h]
  case control =>
    refine chipOn_next hc ((frameTransmit_start hl bad).trans ?_)
    simp only [State.txNext, he, h, hk, if_true]
  case next =>
    refine chipOn_next hc ((frameTransmit_start hl bad).trans ?_)
    simp only [State.txNext, he, h, hk, hf, Bool.false_eq_true, if_false]
    exact State.txWhole_of_fits bad hlen
  case preempt =>
    have hgo : (t.pre && decide (t.base < k) && decide (t.fmin ≤ k - t.base + 4) && decide (k + 64 ≤ s.leaveLen f n)
        && (s.tideHold n || s.paused n t.cls || s.expressReady n t.c6)) = true := by
      rw [hpre, decide_eq_true hb, decide_eq_true hmin, decide_eq_true hlen, hx]; rfl
    exact chipOn_next hc (by simp only [frameTransmit, State.txCut, ht, hf, hgo, if_true])
  case resume =>
    exact chipOn_next hc (by simp only [frameTransmit, State.txResume, ht, hl, htd, hp, he, Bool.not_false, Bool.and_self, if_true])
  case commit =>
    refine writeReg_next h regAt_STOW_CMD rfl fun u => (?_ : stowHook STOW_CMD _ u = _)
    simp (disch := decide) only [stowHook, State.commitStart, Fld.get_put_of_lt, Fld.get_put_other, if_true]
  case commitEnd => exact chipOn_next hc (commitEnd_of hb ho (Bool.or_eq_false_iff.mpr ⟨h1, h2⟩))
  case clear =>
    refine writeReg_next h regAt_STOW_CMD rfl fun u => (?_ : stowHook STOW_CMD _ u = _)
    simp (disch := decide) only [stowHook, State.stowClear, State.copyHolds, State.clearPlan, Fld.get_put_of_lt, Fld.get_put_other, if_true,
      show (2 : Nat) ≠ 1 by decide, if_false, Bool.or_eq_true]

end Sys2Proof.Machine
end

section
/-! Proofs for 05 (Ethernet ports): writes of the port control registers (R129, R130, R132, R136, R138, R141), and the events of links, flow control,
energy, verification and MDIO (R130 to R142). -/
namespace Sys2Proof.Machine

variable {s : State}

/-- Verification starts again (R141). -/
theorem State.verifyRestart_eq (u : State) (n : Nat) : u.verifyRestart n =
    let st := if (!u.bit (PORT_MM_CTL n) PORT_MM_CTL_PREEMPT_EN || u.bit (PORT_MM_CTL n) PORT_MM_CTL_VERIFY_DIS) = true then 0
      else if u.bit (PORT_LINK n) PORT_LINK_UP then 2 else 1
    (u.modPort n fun p => { p with tries := if st = 2 then 1 else 0 }).putF (PORT_MM_STATUS n) PORT_MM_STATUS_VERIFY_STATE st := by
  simp only [State.verifyRestart, Bool.not_and, Bool.not_not]
  rfl

/-- Settles O27. -/
theorem portControlWrites : Obligations.PortControlWrites := by
  refine ⟨fun s who n w h hr hm => ?mode, fun s who n w h hm ha => ?reset, fun s who n w h hm h0 hr => ?restart, fun s who n w h => ?send,
    fun s who n w h => ?verify, fun s who w h => ?mdio⟩
  case mode =>
    refine writeReg_next h (regAt_PORT_CTL n) rfl fun u => (?_ : u.portCtl n _ w = _)
    simp only [State.portCtl, hr, ne_eq, not_true_eq_false, if_false]
    exact if_pos hm
  case reset =>
    refine writeReg_next h (regAt_PORT_CTL n) rfl fun u => (?_ : u.portCtl n _ _ = _)
    simp (disch := decide) only [State.portCtl, Fld.get_put_of_lt, Fld.get_put_other, ha, show PORT_CTL_MODE.get (s.reg (PORT_CTL n)) = PORT_CTL_MODE.get w from hm.symm,
      ne_eq, not_true_eq_false, false_and, if_false, one_ne_zero, not_false_iff, if_true]
    rfl
  case restart =>
    refine writeReg_next h (regAt_PORT_CTL n) rfl fun u => (?_ : u.portCtl n _ _ = _)
    simp (disch := decide) only [State.portCtl, Fld.get_put_of_lt, Fld.get_put_other, hr, show PORT_CTL_MODE.get (s.reg (PORT_CTL n)) = PORT_CTL_MODE.get w from hm.symm,
      ne_eq, not_true_eq_false, if_false, one_ne_zero, not_false_iff, true_and, h0, if_true]
    rfl
  case send => exact writeReg_next h (regAt_PORT_FC_TX n) rfl fun u => rfl
  case verify => exact writeReg_next h (regAt_PORT_MM_CTL n) rfl fun u => u.verifyRestart_eq n
  case mdio => exact writeReg_next h regAt_PORT_MDIO_CMD rfl fun u => rfl

/-- Settles O28. -/
theorem portEventsAct : Obligations.PortEventsAct := by
  refine ⟨fun s n hc h => ?resetEnd, fun s n sp a par hc hm hr ht ho hf hu ha => ?linkUp, fun s n hc h => ?linkLoss, fun s n hc h => ?filter,
    fun s n q hc hl h => ?pause, fun s n v ts hc hl h => ?pfc, fun s n hc hl => ?unsup, fun s n hc => ?expiry, fun s n hc hl he hm hp hi h => ?lpiEntry,
    fun s n hc hw hq h => ?wake, fun s n hc h => ?woken, fun s n hc hl => ⟨fun h => ?lpiIn, fun h => ?lpiOut⟩, fun s n hc h => ?verifyTimer,
    fun s n hc h => ?verified, fun s d op l hc h => ?mdio⟩
  case resetEnd => exact chipOn_next hc (if_pos h)
  case linkUp =>
    refine chipOn_next hc ?_
    simp only [linkUp, hm, hr, ht, ho, hf, hu, ha, Bool.not_true, Bool.not_false, Bool.false_eq_true, or_self, and_true, if_false]
    rfl
  case linkLoss =>
    exact chipOn_next hc (by simp only [linkLoss, h, Bool.not_true, Bool.false_eq_true, if_false])
  case filter => exact chipOn_next hc (if_pos h)
  case pause =>
    refine chipOn_next hc ?_
    simp only [pauseFrame, hl, h, Bool.not_true, Bool.false_eq_true, if_false, if_true, Nat.mod_eq_of_lt (show q.toNat < 65536 from q.isLt)]
  case pfc =>
    exact chipOn_next hc (by simp only [pfcFrame, hl, h, Bool.not_true, Bool.false_eq_true, if_false, if_true])
  case unsup => exact chipOn_next hc (if_pos hl)
  case expiry => exact ⟨chipOn_next hc rfl, fun q => chipOn_next hc rfl⟩
  case lpiEntry => exact chipOn_next hc (by simp only [lpiEntry, hl, he, hm, hp, hi, h, Bool.and_self, beq_self_eq_true, if_true])
  case wake =>
    refine chipOn_next hc ?_
    simp only [wakeOnQueue, hw, hq, Bool.not_false, Bool.and_self, if_true, State.portWake, h]
    rfl
  case woken => exact chipOn_next hc (by simp only [wakeComplete, State.modPort, h, if_true])
  case lpiIn =>
    exact chipOn_next hc (by simp only [lpiRx, hl, h, Bool.not_true, Bool.false_eq_true, if_false, if_true])
  case lpiOut =>
    refine chipOn_next hc ?_
    simp only [lpiRx, hl, h, Bool.not_true, Bool.false_eq_true, if_false, if_true]
    rfl
  case verifyTimer => exact chipOn_next hc (if_pos h)
  case verified => exact chipOn_next hc (if_pos h)
  case mdio =>
    refine chipOn_next hc ?_
    simp only [mdioEnd, h, Nat.mod_eq_of_lt (show d.toNat < 65536 from d.isLt)]

end Sys2Proof.Machine
end

section
/-! Proofs for 08 (quay engine instruction set): each instruction completes with the result and flags of its row (R206 to R219, R222 to R235). -/
namespace Sys2Proof.Machine

/-- Settles O29: the result of each of these is its operation's by definition. -/
theorem engineMovesAndAddsComplete : Obligations.EngineMovesAndAddsComplete := by
  refine ⟨?nop, ?mov, ?sext, ?zext, ?bswap, ?add, ?adc, ?sub, ?sbb, ?neg, ?mul, ?mulhu, ?mulhs, ?mac⟩ <;>
    exact fun _ _ => State.completes_of rfl fun _ _ => rfl

/-- Settles O30: the result of each of these is its operation's by definition. -/
theorem engineLogicAndShiftsComplete : Obligations.EngineLogicAndShiftsComplete := by
  refine ⟨?and, ?or, ?xor, ?andn, ?not, ?shl, ?shr, ?sar, ?rol, ?ror⟩ <;> exact fun _ _ => State.completes_of rfl fun _ _ => rfl

/-- Settles O31: the result of each of these is its operation's by definition. -/
theorem engineBitFieldsComplete : Obligations.EngineBitFieldsComplete := by
  refine ⟨?bfx, ?bfxs, ?bfi, ?bset, ?bclr⟩ <;> exact fun _ _ => State.completes_of rfl fun _ _ => rfl

/-- Settles O32: RETT and WAITT complete by what their conditions say of the state, the others by definition. -/
theorem engineBranchesComplete : Obligations.EngineBranchesComplete := by
  refine ⟨?beq, ?bne, ?blt, ?bge, ?bltu, ?bgeu, ?bbs, ?bbc, ?jmp, ?bf, ?djnz, fun s n x => ?rett, fun s n => ?waitt, ?yield, ?ifence⟩
  case rett =>
    refine State.completes_of rfl fun o h => (?_ : (o.st.spRead n 0x68 8).bind _ = _)
    rw [h]
    rfl
  case waitt =>
    refine State.completes_of rfl fun o ⟨hw, ht⟩ => ?_
    simp only [iWaitt, State.waittInstant, hw, ht, if_true]
  all_goals exact fun _ _ => State.completes_of rfl fun _ _ => rfl

/-- Settles O33. -/
theorem engineAccessInstructionsComplete : Obligations.EngineAccessInstructionsComplete := by
  refine ⟨fun s n a => ?lea, ?crc32, ?csum, fun s n x => ?crc16r, fun s n x => ?crc16n, ?swap, ?tas, fun s n => ?cas, fun s n => ?fqpush,
    fun s n x => ?fqpop, ?fqpkt, fun s n => ?sclose, ?sstat, fun s n => ?snext, fun s n => ?waite⟩
  case lea =>
    refine State.completes_of rfl fun o h => ?_
    rcases h with h | h | h | h <;> simp only [iLea, Ea.address, h]
  case crc16r =>
    refine State.completes_of rfl fun o h => (?_ : (crc16Bytes _ _ _ _ _ _ _).bind _ = _)
    rw [h]
    rfl
  case crc16n =>
    refine State.completes_of rfl fun o h => (?_ : (crc16Bytes _ _ _ _ _ _ _).bind _ = _)
    rw [h]
    rfl
  case cas =>
    refine State.completes_of rfl fun o _ => ?_
    simp only [iCas]
    split <;> rfl
  case fqpush =>
    refine State.completes_of rfl fun o h => if_pos ?_
    rwa [Bool.or_eq_true, Bool.and_eq_true]
  case fqpop =>
    refine State.completes_of rfl fun o h => ?_
    simp only [iFqpop, fqpopBody, h]
  case sclose =>
    refine State.completes_of rfl fun o ⟨hb, hr⟩ => ?_
    simp only [iSclose, scloseBody, List.isEmpty_eq_false_iff.mpr hb, hr, Bool.not_true, Bool.false_eq_true, if_false]
    rfl
  case snext =>
    refine State.completes_of rfl fun o ⟨hn, he⟩ => ?_
    simp only [iSnext, snextBody, Nat.not_le.mpr hn, he, if_true, if_false]
    rfl
  case waite =>
    refine State.completes_of rfl fun o ⟨hw, he⟩ => ?_
    have hm : o.v.b ≠ 0 := fun h => he (by rw [h, Nat.and_zero])
    simp only [iWaite, waiteBody, waiteDone, edgeEvents, hw, he, hm, if_false]
  all_goals exact fun _ _ => State.completes_of rfl fun _ _ => rfl

end Sys2Proof.Machine
end

section
/-! Proofs for 08 (quay engine instruction set): calls, returns, traps, privileged instructions, repeats and the ends of waits (R186, R190, R221,
R227 to R229, R233, R234, R236). -/
namespace Sys2Proof.Machine

variable {s s1 s2 : State} {n w w2 : Nat} {i j : QInstr} {o : OpsIn} {r t : Res}

/-- An instruction whose operands read, whose operation gives a result and whose writes land. -/
theorem State.runInstr_done {next : Nat} (ho : s.readAll n i w next = .ok o) (hb : i.body n o.st o.v = .ok r)
    (hw : s.commitAll n i o r = .ok t) : s.runInstr n i w next = .ok t := by
  simp only [State.runInstr, ho, QR.bind, hb, hw, QR.giveBack]

/-- An instruction that is fetched and faults traps (R186). -/
theorem State.qeDo_fault {u : State} {c a : Nat} (hf : s.qeFetch n (s.qeOf n).pc = .ok (s1, w))
    (hr : s1.runInstr n i w ((s.qeOf n).pc + 1) = .fault u c a) : s.qeDo n i = u.qeFault n c a w false := by
  simp only [State.qeDo, hf, hr]

/-- A CALL whose SP − 8 lies below the limit faults with cause 2 before it pushes (R190, R237). -/
theorem readAll_call_below_limit {next : Nat} {fc : Formed} {x l : State × Nat} (hst : iCall.static n w = true)
    (hfc : s1.formOp n .target (specC w) [] = .ok fc) (he : fc.2.2.badExtent .target = none) (hx : fc.1.spWord n 0x40 = .ok x)
    (h8 : x.2 % 8 = 0) (hl : x.1.spWord n 0x50 = .ok l) (hlt : (x.2 + 65528) % 65536 < l.2) :
    s1.readAll n iCall w next = .fault l.1 2 ((x.2 + 65528) % 65536) := by
  have hcheck : stackCheck n iCall.base fc.1 = .fault l.1 2 ((x.2 + 65528) % 65536) := by
    simp only [stackCheck, iCall, hx, hl, h8, hlt, QR.bind, true_or, ne_eq, not_true_eq_false, if_true, if_false, show (0x34 : Nat) ≠ 0x35 by decide]
  have hform (u : State) (x : Nat) (ups : Ups) : u.formOp n .none x ups = .ok (u, ups, .imm 0) := rfl
  have hk (z : Nat) : iCall.a z = .none ∧ iCall.b z = .none ∧ iCall.c z = .target := ⟨rfl, rfl, rfl⟩
  simp only [State.readAll, hst, (hk _).1, (hk _).2.1, (hk _).2.2, hform, QR.bind, hfc, he, hcheck, Bool.not_true, Bool.false_eq_true, if_false]
  rfl

/-- The word after a REP or REPI may be repeated (R229). -/
theorem State.qePrefix_of (int : Bool) (hrep : (s.qeOf n).rep = none) (hf : s.qeFetch n (s.qeOf n).pc = .ok (s1, w))
    (hi : (if !int then iRep else if bitOf flRPT (s.qflags n) && !bitOf flTRAP (s.qflags n) then iRepiSaved else iRepi) = i)
    (hst : (if int then iRepi else iRep).static n w = true) (hf2 : s1.qeFetch n ((s.qeOf n).pc + 1) = .ok (s2, w2))
    (hj : qLookup n (baseOf w2) = some j) (hb : repeatable (baseOf w2) = true) (hst2 : j.static n w2 = true)
    (hr : s2.runInstr n i w ((s.qeOf n).pc + 1) = .ok t) :
    s.qePrefix n int = if t.count = 0 then t.st.qeRetire n ((s.qeOf n).pc + 2) false
      else (t.st.setQe n { t.st.qeOf n with rep := some ⟨int, t.count, w2⟩, wait := .none }).repGo n := by
  simp only [State.qePrefix, hrep, Option.isSome_none, hi, hf, hst, hf2, hj, hb, hst2, hr, Bool.and_self, Bool.not_true, Bool.false_eq_true, if_false]

/-- A REP or REPI at its PC is executed. -/
theorem qePrefixRow_of {int : Bool} (hr : s.qeReady n = true) (hb : s.qeBase n = if int then 0x3D else 0x3C) :
    qePrefixRow int n s = s.qePrefix n int := by
  simp only [qePrefixRow, hr, hb, beq_self_eq_true, Bool.and_self, if_true]

/-- Settles O34. -/
theorem engineCallsRepeatsAndWaitsComplete : Obligations.EngineCallsRepeatsAndWaitsComplete := by
  refine ⟨fun s n x => ?call, fun s s1 n w fc x l hc hco hr hb hf hst hfc he hx h8 hl hlt => ?belowLimit, fun s n x y => ?ret, fun s n => ?scope,
    fun s n => ?logev, fun s s1 n w o h => ?trap, fun s s1 n w hc hco hr hl hf => ?emu,
    fun s s1 s2 n w w2 o t j hc hco hr hb hrep hf hst hf2 hj hrb hst2 ho hw => ?rep,
    fun s s1 s2 n w w2 o t j hc hco hr hb hrep hf hrpt hst hf2 hj hrb hst2 ho hw => ?repi,
    fun s s1 n w m k o t hc hco hwait hq he hf ho hwait' he' hw => ?waite,
    fun s s1 n w m k o t hc hco hwait hq hk he hf ho hw => ?timeout,
    fun s s1 n w k o t hc hco hwait hq hk hf ho hwait' hk' hw => ?waitt⟩
  case call =>
    refine State.completes_of rfl fun o h => (?_ : (o.st.spWord n 0x40).bind _ = _)
    rw [h]
    rfl
  case belowLimit =>
    have hrow : qeRow iCall n s = s.qeDo n iCall := if_pos (by
      rw [hr, hb, show decide (iCall.base < 0xF0) = true from rfl, Bool.or_true]
      rfl)
    refine coreOn_next hc hco (hrow.trans (State.qeDo_fault hf ?_))
    rw [State.runInstr, readAll_call_below_limit hst hfc he hx h8 hl hlt]
    rfl
  case ret =>
    refine State.completes_of rfl fun o ⟨hx, hy⟩ => (?_ : (o.st.spWord n 0x40).bind _ = _)
    rw [hx]
    refine (?_ : (x.1.spRead n x.2 8).bind _ = _)
    rw [hy]
    rfl
  case scope => exact State.completes_of rfl fun o h => if_neg h
  case logev => exact State.completes_of rfl fun o h => if_neg (Nat.not_lt.mpr h)
  case trap =>
    refine coreOn_next h.chip h.core (h.row.trans (State.qeDo_fault h.fetch ?_))
    rw [State.runInstr, h.reads]
    rfl
  case emu =>
    have hq : s.qeEmu n = s1.qeFault n 1 0 w false := by simp only [State.qeEmu, hf]
    refine coreOn_next hc hco (Eq.trans (if_pos ?_) hq)
    rw [hr, hl]
    rfl
  case rep =>
    have hrun := State.runInstr_done ho (show iRep.body n o.st o.v = _ from rfl) hw
    have hcount : t.count = o.v.b + 1 := State.commitAll_count hw
    refine coreOn_next hc hco ((qePrefixRow_of (int := false) hr hb).trans ((State.qePrefix_of false hrep hf rfl hst hf2 hj hrb hst2 hrun).trans ?_))
    rw [hcount]
    exact if_neg (Nat.succ_ne_zero _)
  case repi =>
    have hrun := State.runInstr_done ho (show iRepi.body n o.st o.v = _ from rfl) hw
    have hcount : t.count = o.v.b := State.commitAll_count hw
    refine coreOn_next hc hco ((qePrefixRow_of (int := true) hr hb).trans ((State.qePrefix_of true hrep hf ?_ hst hf2 hj hrb hst2 hrun).trans ?_))
    · rw [hrpt]; rfl
    · rw [hcount]
  case waite =>
    have hm : m ≠ 0 := fun h => he (by rw [h, Nat.and_zero])
    have hdo := State.qeDo_done hf ho (by simp only [iWaite, waiteBody, waiteDone, edgeEvents, hwait', he', hm, if_false]) hw
    refine coreOn_next hc hco ?_
    simp only [waiteComplete, hwait, hq, he, ne_eq, not_false_iff, and_self, if_true]
    exact hdo
  case timeout =>
    have hdo := State.qeDo_done hf ho (show iWaiteTimeout.body n o.st o.v = _ from rfl) hw
    refine coreOn_next hc hco ?_
    simp only [waiteTimeout, hwait, hq, hk, he, ne_eq, not_false_iff, and_self, if_true]
    exact hdo
  case waitt =>
    have hdo := State.qeDo_done hf ho (by simp only [iWaitt, hwait', hk', if_true]) hw
    refine coreOn_next hc hco ?_
    simp only [waittComplete, hwait, hq, hk, and_self, if_true]
    exact hdo

end Sys2Proof.Machine
end

section
/-! Proofs for 07 (quay engines and berths): writes of the control registers (R183, R191, R192, R194, R199) and the engines' events (R183, R184, R192,
R194, R195, R199, R215). -/
namespace Sys2Proof.Machine

variable {s : State}

/-- The engine that was set reads what it was set to. -/
theorem State.qeOf_setQe (h : s.Inv) (n : Nat) (q : QeSt) : (s.setQe n q).qeOf n = q := tget_tput_self h.qeOk n q

/-- A STEP of a halted engine runs the instruction at its PC (R191). -/
theorem qeStepRow_of {n : Nat} {t : State} (hs : (s.qeOf n).run = .halted) (ht : (t.qeOf n).run = .running) (hst : (t.qeOf n).step = true) :
    qeStepRow n s t = t.qeAny n := if_pos ⟨hs, ht, hst⟩

/-- What a write of QEn_WDOG does (R194): a KICK leaves TIMEOUT as it was, `old` being the register's word. -/
theorem blockHook_QE_WDOG (who : Initiator) (n : Nat) (old w : Word) (u : State) : blockHook who 10 (QE_WDOG 0) n old w u =
    if QE_WDOG_KICK.get w ≠ 0 then (u.setReg (QE_WDOG n) old).setQe n { u.qeOf n with wdogHit := false } else u := rfl

/-- A KICK. -/
theorem blockHook_kick (who : Initiator) (n : Nat) (old w : Word) (u : State) : blockHook who 10 (QE_WDOG 0) n old (QE_WDOG_KICK.put w 1) u =
    (u.setReg (QE_WDOG n) old).setQe n { u.qeOf n with wdogHit := false } := by
  rw [blockHook_QE_WDOG, Fld.get_put_of_lt w (by decide) (by decide) (by decide)]
  exact if_pos one_ne_zero

/-- Settles O35. -/
theorem engineControlWrites : Obligations.EngineControlWrites := by
  refine ⟨fun s who n w h => ?event, fun s who n w h => ?start, fun s who n w h h1 => ?stop, fun s who n w h h1 h2 => ?halt,
    fun s who n w h h1 h2 h3 => ?resume, fun s who n w h hc hr hi h1 h2 h3 h4 => ?step, fun s who n w h => ?kick, fun s who b w h => ?berthStart,
    fun s who b w h h1 => ?berthStop, fun s who b w h h1 h2 h3 => ?notify, fun s who b w h h1 h2 => ?reset⟩
  case event => exact writeReg_next h (regAt_QE_EVENT_SET n) rfl fun u => rfl
  case start =>
    refine writeReg_next h (regAt_QE_CTL n) rfl fun u => (?_ : u.qeCtl n _ = _)
    simp (disch := decide) only [State.qeCtl, Fld.get_put_of_lt, one_ne_zero, not_false_iff, ne_eq, if_true]
    rfl
  case stop =>
    refine writeReg_next h (regAt_QE_CTL n) rfl fun u => (?_ : u.qeCtl n _ = _)
    simp (disch := decide) only [State.qeCtl, Fld.get_put_of_lt, Fld.get_put_other, h1, one_ne_zero, not_true_eq_false, not_false_iff, ne_eq, if_true,
      if_false]
    rfl
  case halt =>
    refine writeReg_next h (regAt_QE_CTL n) rfl fun u => (?_ : u.qeCtl n _ = _)
    simp (disch := decide) only [State.qeCtl, Fld.get_put_of_lt, Fld.get_put_other, h1, h2, one_ne_zero, not_true_eq_false, not_false_iff, ne_eq,
      if_true, if_false]
    rfl
  case resume =>
    refine writeReg_next h (regAt_QE_CTL n) rfl fun u => (?_ : u.qeCtl n _ = _)
    simp (disch := decide) only [State.qeCtl, Fld.get_put_of_lt, Fld.get_put_other, h1, h2, h3, one_ne_zero, not_true_eq_false, not_false_iff, ne_eq,
      if_true, if_false]
    rfl
  case step =>
    have hctl (u : State) : u.qeCtl n (QE_CTL_STEP.put w 1) = u.qeStepArm n := by
      simp (disch := decide) only [State.qeCtl, Fld.get_put_of_lt, Fld.get_put_other, h1, h2, h3, h4, one_ne_zero, not_true_eq_false, not_false_iff,
        ne_eq, if_true, if_false]
    have hwrite : s.rowWrite who (QE_CTL n) (QE_CTL_STEP.put w 1) =
        (((s.atWrite who (QE_CTL n)).setReg (QE_CTL n) (s.wordAfter (QE_CTL n) (QE_CTL_STEP.put w 1))).setQe n
          { s.qeOf n with run := .running, cause := 0, step := true, skipBp := true, wait := .none }).noted who (QE_CTL n) 0 := by
      rw [State.rowWrite_next h (regAt_QE_CTL n) rfl hctl, State.atWrite_of_taken h]
      exact congrArg (State.noted · who (QE_CTL n) 0) (if_pos hr)
    have hqe : (s.rowWrite who (QE_CTL n) (QE_CTL_STEP.put w 1)).qeOf n =
        { s.qeOf n with run := .running, cause := 0, step := true, skipBp := true, wait := .none } := by
      rw [hwrite, State.atWrite_of_taken h]
      exact tget_tput_self hi.qeOk n _
    refine coreOn_next (f := fun s => qeStepRow n s (s.rowWrite who (QE_CTL n) (QE_CTL_STEP.put w 1))) (State.writeTaken_chip h) hc ?_
    exact (qeStepRow_of hr (by rw [hqe]) (by rw [hqe])).trans (congrArg (State.qeAny · n) hwrite)
  case kick => exact writeReg_next h (regAt_QE_WDOG n) rfl fun u => blockHook_kick who n _ w u
  case berthStart =>
    refine writeReg_next h (regAt_BERTH_CTL b) rfl fun u => (?_ : u.berthCtl b _ = _)
    simp (disch := decide) only [State.berthCtl, Fld.get_put_of_lt, one_ne_zero, not_false_iff, ne_eq, if_true]
    rfl
  case berthStop =>
    refine writeReg_next h (regAt_BERTH_CTL b) rfl fun u => (?_ : u.berthCtl b _ = _)
    simp (disch := decide) only [State.berthCtl, Fld.get_put_of_lt, Fld.get_put_other, h1, one_ne_zero, not_true_eq_false, not_false_iff, ne_eq, if_true,
      if_false]
    rfl
  case notify =>
    refine writeReg_next h (regAt_BERTH_CTL b) rfl fun u => (?_ : u.berthCtl b _ = _)
    simp (disch := decide) only [State.berthCtl, Fld.get_put_of_lt, Fld.get_put_other, h1, h2, h3, one_ne_zero, not_true_eq_false, not_false_iff, ne_eq,
      if_true, if_false]
    rfl
  case reset =>
    refine writeReg_next h (regAt_BERTH_CTL b) rfl fun u => (?_ : u.berthCtl b _ = _)
    simp (disch := decide) only [State.berthCtl, Fld.get_put_of_lt, Fld.get_put_other, h1, h2, one_ne_zero, not_true_eq_false, not_false_iff, ne_eq,
      if_true, if_false]
    rfl

/-- Settles O36. -/
theorem engineEventsAct : Obligations.EngineEventsAct := by
  refine ⟨fun s n hc hco hw hq => ?stream, fun s n e hc hco ho he => ?interrupt, fun s n hc hco hr hw hs => ⟨fun hm => ⟨fun u w hf => ?brk, fun u c a hf => ?fetchFault⟩,
      fun hm => ?halt⟩, fun s n hc hco h => ?timer, fun s n hc hco hr hs hp => ?lands, fun s n hc hco hr hs hp ht => ?watchdog,
    fun s b hc hco h => ⟨fun he => ?resetGoesOn, fun he => ?resetEnds⟩⟩
  case stream => exact coreOn_next hc hco (if_pos ⟨hw, hq⟩)
  case interrupt => exact coreOn_next hc hco (by simp only [eventInterrupt, ho, he, if_true]; rfl)
  case brk => exact coreOn_next hc hco (by simp only [breakpoint, hr, hw, hs, hm, hf, Bool.not_false, and_self, if_true])
  case fetchFault => exact coreOn_next hc hco (by simp only [breakpoint, hr, hw, hs, hm, hf, Bool.not_false, and_self, if_true])
  case halt =>
    exact coreOn_next hc hco (by simp only [breakpoint, hr, hw, hs, hm, Bool.not_false, and_self, if_true, show (2 : Nat) ≠ 1 by decide, if_false])
  case timer => exact coreOn_next hc hco (if_pos h)
  case lands => exact coreOn_next hc hco (if_pos ⟨hr, by rw [hs]; rfl, by rw [hp]; rfl⟩)
  case watchdog => exact coreOn_next hc hco (if_pos ⟨.inl hr, by rw [hs]; rfl, by rw [hp]; rfl, ht⟩)
  case resetGoesOn => exact coreOn_next hc hco ((if_pos h).trans (if_neg (Bool.eq_false_iff.mp he)))
  case resetEnds => exact coreOn_next hc hco ((if_pos h).trans (if_pos he))

end Sys2Proof.Machine
end

section
/-! Proofs for 09 (ferry queues and DMA): the registers of the queues, the switch ports' packets (R243, R245, R249), and the channels (R251 to R260). -/
namespace Sys2Proof.Machine

variable {s t : State}

/-! ## Queues -/

/-- The head of queue q is read as its word, or as 0. -/
theorem ferryView_FQ_DATA (u : State) (q : Nat) : ferryView u (FQ_DATA 0) q = some (match u.fqHead q with | some x => w32 x.data | none => 0) := rfl

/-- The head of a queue in the state in which a read is made. -/
theorem State.fqHead_atRead {who : Initiator} {a : Nat} (h : s.readTaken who a = true) (q : Nat) : (s.atRead who a).fqHead q = s.fqHead q := by
  rw [State.atRead_of_taken h]
  rfl

/-- What makes a packet from P6 or P7 bad (R249). -/
def badTxPacket (ws : List FqWord) : Bool :=
  let bs := ws.flatMap FqWord.bytes
  let h := leAt bs 0 4
  ws.any (fun w => w.trunc) || h / 2 ^ 26 != 0 || decide (bitsOf 13 0 h < 14) || decide (9212 < bitsOf 13 0 h) || bitsOf 13 0 h != (bs.drop 4).length

theorem State.txAccept_bad (u : State) (e : Nat) {ws : List FqWord} (h : badTxPacket ws = true) :
    u.txAccept e ws = (u.count FERRY_TX_BAD).setB FERRY_STATUS FERRY_STATUS_TX_BAD := if_pos h

theorem State.txAccept_good (u : State) (e : Nat) {ws : List FqWord} (h : badTxPacket ws = false) : u.txAccept e ws =
    let bs := ws.flatMap FqWord.bytes
    let hd := leAt bs 0 4
    let fs := addFcs (padTo60 (bs.drop 4)) false
    u.switchIn e u.time.tod fs (u.frontOf e fs (if bitOf 17 hd then some (bitsOf 16 14 hd) else none)) (putBits e e (bitsOf 25 18 hd) 0) false false
      (poisonBytes ws) := if_neg (Bool.eq_false_iff.mp h)

/-- Settles O37. -/
theorem ferryQueuesPushPopAndFlush : Obligations.FerryQueuesPushPopAndFlush := by
  refine ⟨fun s who q w h => ?dataWrite, fun s who q w h => ?tagWrite, fun s who q h => ⟨fun hq => ?empty, fun x hq => ?pop⟩, fun s who w h => ?flush,
    fun s who w h => ?qFlush, fun s p hc hco j q hq => ⟨fun hb => ?bad, fun hb => ?good⟩⟩
  case dataWrite => exact writeReg_next h (regAt_FQ_DATA q) rfl fun u => rfl
  case tagWrite => exact writeReg_next h (regAt_FQ_TAG q) rfl fun u => rfl
  case empty =>
    have hu := (State.fqHead_atRead h q).trans hq
    refine readReg_next h (regAt_FQ_DATA q) (by decide) (by decide) rfl rfl ?_ (?_ : (s.atRead who (FQ_DATA q)).fqDataRead q = _)
    · refine (?_ : ((ferryView _ (FQ_DATA 0) q).getD _).toNat = _)
      rw [ferryView_FQ_DATA, hu]
      rfl
    · rw [State.fqDataRead, hu]
  case pop =>
    have hu := (State.fqHead_atRead h q).trans hq
    refine readReg_next h (regAt_FQ_DATA q) (by decide) (by decide) rfl rfl ?_ (?_ : (s.atRead who (FQ_DATA q)).fqDataRead q = _)
    · refine (?_ : ((ferryView _ (FQ_DATA 0) q).getD _).toNat = _)
      rw [ferryView_FQ_DATA, hu]
      rfl
    · rw [State.fqDataRead, hu]
      rfl
  case flush => exact writeReg_next h regAt_FERRY_FLUSH rfl fun u => rfl
  case qFlush =>
    refine writeReg_next h regAt_FERRY_Q_CTL rfl fun u => (?_ : (if FERRY_Q_CTL_FLUSH.get _ ≠ 0 then u.fqFlush u.fqSel else u) = _)
    rw [Fld.get_put_of_lt w (by decide) (by decide) (by decide)]
    exact if_pos one_ne_zero
  case bad => exact coreOn_next hc hco (by rw [switchPortTransmit, hq]; exact State.txAccept_bad _ _ hb)
  case good => exact coreOn_next hc hco (by rw [switchPortTransmit, hq]; exact State.txAccept_good _ _ hb)

/-! ## Channels -/

/-- What a write of DMAn_CTL does (R258, R260), `old` being the register's word: its bits are read as they stand. -/
theorem dmaHook_CTL (n : Nat) (old w : Word) (u : State) : dmaHook (DMA_CTL 0) n old w u =
    let v := u.setReg (DMA_CTL n) old
    let v := if DMA_CTL_START.get w ≠ 0 then v.dmaStart n else v
    if DMA_CTL_ABORT.get w ≠ 0 then v.dmaAbort n else v := rfl

/-- A descriptor that is read is taken up, or halts the channel (R254). -/
theorem descriptorFetch_of {n : Nat} {bs : List Nat} (hc : s.rst.core = false) (ha : s.dmaActive n = true) (hf : (s.dmaOf n).fetched = false)
    (hg : s.dmaGets s n false [(s.dmaNext n, 16), (s.dmaNext n + 16, 16)] = .ok t bs) : descriptorFetch n s =
      let x : DmaSt := { skipQ := (t.dmaOf n).skipQ, desc := (List.range 8).map fun i => leAt bs (4 * i) 4 }
      let u := (t.count (DMA_HOPS n)).clrB (DMA_CTL n) DMA_CTL_START
      if x.badDesc then u.dmaHalt n 4 (s.dmaNext n) 0 (s.dmaNext n) else u.setDma n x := by
  simp only [descriptorFetch, hc, ha, hf, hg, Bool.not_true, Bool.or_self, Bool.false_eq_true, if_false, DmaR.bind]
  split <;> rfl

/-- A segment that is all read drains, and ends once it has drained. -/
theorem State.dmaDrained_eq (v : State) (n : Nat) :
    (if (v.dmaOf n).drain then match v.dmaDrain n with | (x, true) => x.dmaEnd n | (x, false) => x else v) =
    if (v.dmaOf n).drain = false then v else if (v.dmaDrain n).2 = false then (v.dmaDrain n).1 else (v.dmaDrain n).1.dmaEnd n := by
  cases (v.dmaOf n).drain with
  | false => rfl
  | true => rcases v.dmaDrain n with ⟨x, _ | _⟩ <;> rfl

/-- A channel with its region moves a segment on (R251, R252, R256). -/
theorem State.dmaSegment_eq (u : State) (n : Nat) : u.dmaSegment n =
    let u := if (u.dmaOf n).goal = 0 then u.setDma n { u.dmaOf n with goal := u.dmaSize n } else u
    let u := u.dmaRead n
    if (u.dmaOf n).drain = false then u
    else if (u.dmaDrain n).2 = false then (u.dmaDrain n).1
    else (u.dmaDrain n).1.dmaEnd n := State.dmaDrained_eq _ n

/-- A channel with data to move, once a packet to be skipped is gone. -/
theorem segmentTransfer_of {n : Nat} (hc : s.rst.core = false) (ha : s.dmaActive n = true) (hf : (s.dmaOf n).fetched = true)
    (hs : s.dmaSkip n = (t, true)) (hd : (t.dmaOf n).goal ≠ 0 ∨ t.dmaSize n ≠ 0) : segmentTransfer n s =
      if t.dmaHolds n then t.dmaSegment n else if t.dmaWins n then (t.dmaTake n).dmaSegment n else t := by
  have hidle : ¬((t.dmaOf n).goal = 0 ∧ t.dmaSize n = 0) := fun h => hd.elim (· h.1) (· h.2)
  simp only [segmentTransfer, hc, ha, hf, hs, hidle, Bool.not_true, Bool.or_self, Bool.false_eq_true, if_false]

/-- A request that is present is granted where the channel wins a region (R257). -/
theorem burstGrant_of {n : Nat} (hsel : (s.dmaOf n).sel ≠ 0) (hb : (s.dmaOf n).burst = 0) (hw : s.dmaWins n = true)
    (hu : (if (s.dmaOf n).sel ≤ 0x20 then s.putF (DMA_STATE n) DMA_STATE_PENDING (s.fld (DMA_STATE n) DMA_STATE_PENDING - 1) else s) = t) :
    burstGrant n s = (t.dmaTake n).setDma n
      { (t.dmaTake n).dmaOf n with burst := min (s.dmaOf n).burstLen ((s.dmaOf n).len - (s.dmaOf n).moved) } := by
  subst hu
  exact if_pos (by rw [bne_iff_ne.mpr hsel, hb, hw]; rfl)

/-- A descriptor whose data have moved completes (R255). -/
theorem descriptorComplete_of {n : Nat} {u : State} (late : Bool) (hc : s.rst.core = false) (ha : s.dmaActive n = true)
    (hf : (s.dmaOf n).fetched = true) (hg : (s.dmaOf n).goal = 0) (hd : ((s.dmaOf n).srcDone || (s.dmaOf n).moved == (s.dmaOf n).len) = true)
    (he : s.dmaExcess n = (t, true)) (hcl : t.dmaClose n = (u, true)) : descriptorComplete n late s =
      if (s.dmaOf n).wb then
        match u.dmaPuts u n false [(u.dmaNext n + 0x1C, leBytes 4 (u.dmaOf n).status)] with
        | .ok v _ => v.dmaDone n late
        | r => r.state
      else u.dmaDone n late := by
  simp only [descriptorComplete, hc, ha, hf, hg, hd, he, hcl, bne_self_eq_false, Bool.not_true, Bool.or_self, Bool.false_eq_true, if_false] <;>
    rfl

/-- Settles O38. -/
theorem dmaChannelsRunDescriptors : Obligations.DmaChannelsRunDescriptors := by
  refine ⟨fun s who n w h ha => ?start, fun s who n w h hs => ?abort, fun s t n bs hc hco ha hf hg => ⟨fun hb => ?fetch, fun hb => ?badDesc⟩,
    fun s t n hc hco ha hf hs hd => ⟨fun hh => ?holds, fun hh hw => ?wins, fun hh hw => ?waits⟩,
    fun s n hc hco hsel hb hw => ⟨fun hk => ?signal, fun hk => ?line⟩, fun s k l hc => ⟨fun hl => ?noEdge, fun hl hs => ?rise, fun hl hs => ?fall⟩,
    fun s t u n late hc hco ha hf hg hd he hcl => ⟨fun hw => ?complete, fun v hw hp => ?writeBack⟩⟩
  case start =>
    refine writeReg_next h (regAt_DMA_CTL n) rfl fun u => (dmaHook_CTL n _ _ u).trans ?_
    simp (disch := decide) only [Fld.get_put_of_lt, Fld.get_put_other, ha, one_ne_zero, not_true_eq_false, not_false_iff, ne_eq, if_true, if_false]
  case abort =>
    refine writeReg_next h (regAt_DMA_CTL n) rfl fun u => (dmaHook_CTL n _ _ u).trans ?_
    simp (disch := decide) only [Fld.get_put_of_lt, Fld.get_put_other, hs, one_ne_zero, not_true_eq_false, not_false_iff, ne_eq, if_true, if_false]
  case fetch => exact coreOn_next hc hco ((descriptorFetch_of hco ha hf hg).trans (if_neg (Bool.eq_false_iff.mp hb)))
  case badDesc => exact coreOn_next hc hco ((descriptorFetch_of hco ha hf hg).trans (if_pos hb))
  case holds => exact coreOn_next hc hco ((segmentTransfer_of hco ha hf hs hd).trans ((if_pos hh).trans (t.dmaSegment_eq n)))
  case wins =>
    exact coreOn_next hc hco ((segmentTransfer_of hco ha hf hs hd).trans
      ((if_neg (Bool.eq_false_iff.mp hh)).trans ((if_pos hw).trans ((t.dmaTake n).dmaSegment_eq n))))
  case waits =>
    exact coreOn_next hc hco ((segmentTransfer_of hco ha hf hs hd).trans
      ((if_neg (Bool.eq_false_iff.mp hh)).trans (if_neg (Bool.eq_false_iff.mp hw))))
  case signal => exact coreOn_next hc hco (burstGrant_of hsel hb hw (if_pos hk))
  case line => exact coreOn_next hc hco (burstGrant_of hsel hb hw (if_neg (Nat.not_le.mpr hk)))
  case noEdge => exact chipOn_next (f := fun s => s.inputEdge (0xD0 + k.val) l (dreqLevel k.val)) hc (State.inputEdge_same hl)
  case rise =>
    refine chipOn_next (f := fun s => s.inputEdge (0xD0 + k.val) l (dreqLevel k.val)) hc ((State.inputEdge_new hl hs).trans ?_)
    simp only [dreqLevel, if_true]
  case fall =>
    refine chipOn_next (f := fun s => s.inputEdge (0xD0 + k.val) l (dreqLevel k.val)) hc ((State.inputEdge_new hl hs).trans ?_)
    simp only [dreqLevel, Bool.false_eq_true, if_false]
  case complete =>
    exact coreOn_next hc hco ((descriptorComplete_of late hco ha hf hg hd he hcl).trans (if_neg (Bool.eq_false_iff.mp hw)))
  case writeBack => exact coreOn_next hc hco ((descriptorComplete_of late hco ha hf hg hd he hcl).trans (by rw [if_pos hw, hp]))

end Sys2Proof.Machine
end

section
/-! Proofs for 10 (CAN FD and time-triggered bus): the controllers (R268 to R279) and the time-triggered unit's schedule (R281 to R288). -/
namespace Sys2Proof.Machine

variable {s : State}

/-! ## The controllers -/

/-- The MODE of a controller takes effect while its bus is idle (R268). -/
theorem canModeEffect_of {n : Nat} (hb : (s.canOf n).busy = false) (hm : s.fld (CAN_CTL n) CAN_CTL_MODE ≠ 0) (hk : s.canKept n = false) :
    canModeEffect n s = if (s.canOf n).mode = 0 then
        (if (s.canOf n).drain then s else s.setCan n { s.canOf n with mode := s.fld (CAN_CTL n) CAN_CTL_MODE })
      else s.setCan n { s.canOf n with integ := false } := by
  simp only [canModeEffect, hb, hm, hk, Bool.false_eq_true, if_false]

/-- A packet of the TX queue goes into a free buffer of a controller outside a redundant pair (R273, R274). -/
theorem txBufferLoad_of {n b : Nat} (hs : (s.canOf n).slot (s.bit (CAN_CTL n) CAN_CTL_TXPRIO) = some b) (hm : (s.canOf n).mode ≠ 0)
    (ht : s.canTest n = false) (hp : s.ttPair = false) (hq : s.fqComplete (s.fld (CAN_FQ n) CAN_FQ_TXQ) = true) : txBufferLoad n s =
      match txPacket (s.bit (CAN_CTL n) CAN_CTL_FD_EN) (headPacket (s.fqOf (s.fld (CAN_FQ n) CAN_FQ_TXQ)).words) with
      | none => ((s.fqSkip (s.fld (CAN_FQ n) CAN_FQ_TXQ)).1.count (CAN_TX_BAD_CNT n)).setB (CAN_STATUS n) CAN_STATUS_TX_BAD
      | some (w0, w1, d) => (s.fqSkip (s.fld (CAN_FQ n) CAN_FQ_TXQ)).1.canFill n b
          { w0 := w0, w1 := w1, data := d, fifo := s.bit (CAN_CTL n) CAN_CTL_TXPRIO } := by
  simp only [txBufferLoad, hs, hm, ht, hp, hq, Bool.not_true, Bool.false_eq_true, or_self, false_and, if_false] <;> rfl

/-- A transmission starts from a buffer where no frame of the schedule waits (R272, R275). -/
theorem State.canStart_of {n b : Nat} {f : CanBuf} (hm : s.canMay n = true) (hs : (s.canOf n).spec = none) (hn : (s.canOf n).nextTx = some (b, f))
    (ha : s.ttAllows n f = true) : s.canStart n =
      (s.modCan n fun x => x.setBuf b (some { f with tries := f.tries + 1, sof := some s.time.tod })).canPut n (.buf b) f.w0 f.w1 f.data none := by
  simp only [State.canStart, hm, hs, hn, ha, Bool.not_true, Bool.false_eq_true, if_true, if_false]

/-- A frame of a buffer was sent (R271, R274). -/
theorem State.canSent_buf (n : Nat) {o : CanOut} {b : Nat} (h : o.src = .buf b) :
    s.canSent n o = (((s.canOff n).canTxOk n).canBufSent n b).canSettle n := by
  simp only [State.canSent, h]

/-- An error ends the transmission of a buffer's frame (R275). -/
theorem State.canTxError_buf (n : Nat) {o : CanOut} {b : Nat} (ex : Bool) (h : o.src = .buf b) :
    s.canTxError n o ex = (((s.canOff n).canTxErr n ex).canFailed n b).canSettle n := by
  simp only [State.canTxError, h]

/-- A frame of a buffer lost arbitration (R275). -/
theorem State.canTxLost_buf (n : Nat) {o : CanOut} {b : Nat} (id : Nat) (ide : Bool) (h : o.src = .buf b) : s.canTxLost n o id ide =
    ((((s.canOff n).count (CAN_ARB_LOST n)).modCan n fun x => { x with
      rx := some { o.sof with ref := (s.refPrio id ide).isSome && s.ttUses n } }).ttRefStart n id ide).canFailed n b := by
  simp only [State.canTxLost, h]

/-! ## The schedule -/

/-- A cycle that is under way and that no other master begins is followed by the next at its end (R282). -/
theorem ttCycleStart_of {l : Nat} (hon : s.ttOn = true) (hst : 2 ≤ s.ttState) (hr : s.ttRole ≠ 2) (hb : s.tt.begun = true)
    (hd : s.tt.cycAt + s.ttLen ≤ s.ttNow) : ttCycleStart l s = (s.ttRaise l).ttBegin (s.tt.cycAt + s.ttLen) (s.ttCycle + 1) := by
  have hmaster : (s.ttRole == 2 || (s.ttState == 1 && s.bit TT_CTL TT_CTL_TM_EN)) = false := by
    rw [beq_eq_false_iff_ne.mpr hr, beq_eq_false_iff_ne.mpr (show s.ttState ≠ 1 by omega)]
    rfl
  simp only [ttCycleStart, hmaster, hon, hst, hb, decide_eq_true hd, Bool.and_false, Bool.not_true, Bool.or_true, Bool.false_eq_true, true_or, and_self,
    if_true, if_false]

/-- The backup sends its own reference message where none has started and no frame of the schedule waits (R287). -/
theorem backupReference_of (hon : s.ttOn = true) (hr : s.ttRole = 1) (hst : 2 ≤ s.ttState) (hb : s.tt.begun = true) (hf : s.tt.refOn = false)
    (hl : s.ttLevel < 3) (hd : s.tt.cycAt + (s.ttPrio + 1) * s.fld TT_BACKUP_DELAY TT_BACKUP_DELAY_NTU * s.ttNtu ≤ s.ttNow)
    (hw : ∀ n, n < 2 → s.ttUses n = true → (s.canOf n).spec = none) : backupReference s = s.sendRef none := by
  have hnone : (anyN 2 fun n => s.ttUses n && (s.canOf n).spec.isSome) = false := by
    refine List.any_eq_false.mpr fun n hn => ?_
    cases hu : s.ttUses n with
    | false => exact Bool.false_ne_true
    | true => rw [hw n (List.mem_range.mp hn) hu]; exact Bool.false_ne_true
  exact if_pos ⟨hon, hr, hst, hb, by rw [hf]; rfl, hl, hd, by rw [hnone]; rfl⟩

/-- Settles O39. -/
theorem canControllersAndScheduleAct : Obligations.CanControllersAndScheduleAct := by
  refine ⟨fun s who n w h => ?mode, fun s n hc hb hm hk => ⟨fun h0 hd => ?starts, fun h0 => ?integrates⟩,
    fun s n b hc hs hm ht hp hq => ⟨fun w0 w1 d h => ?load, fun h => ?bad⟩,
    fun s n hc => ⟨fun b f hm hs hn ha => ?start, fun d o b ht hb hd => ?sent, fun id ide o b ht hb => ?lost, fun ex d o b ht hb => ?error⟩,
    fun s n hc hb hr hk => ?recovery, fun s who n w h => ?cancel,
    fun s n hc => ⟨fun id ide hm hb hi hbusy hk => ?rxStart, fun f v hv hf => ?rxValid, fun p hm hb ht htest => ?rxError⟩,
    fun s who w h => ?enable, fun s l hc hon hst hr hb hd => ?cycle, fun s k hc hk hon hb hd => ?trigger,
    fun s hc hon hr hst hb hf hl hd hw => ?backup, fun s who m w h => ?update, fun s m hc hu hr => ?exchange⟩
  case mode => exact writeReg_next h (regAt_CAN_CTL n) rfl fun u => rfl
  case starts => exact chipOn_next hc ((canModeEffect_of hb hm hk).trans (by rw [if_pos h0, hd]; rfl))
  case integrates => exact chipOn_next hc ((canModeEffect_of hb hm hk).trans (if_neg h0))
  case load => exact chipOn_next hc ((txBufferLoad_of hs hm ht hp hq).trans (by rw [h]))
  case bad => exact chipOn_next hc ((txBufferLoad_of hs hm ht hp hq).trans (by rw [h]))
  case start => exact chipOn_next hc (State.canStart_of hm hs hn ha)
  case sent =>
    refine chipOn_next hc ?_
    simp only [canTransmit, ht, hd, Bool.false_eq_true, if_false, State.canSent_buf n hb]
  case lost =>
    refine chipOn_next hc ?_
    simp only [canTransmit, ht, State.canTxLost_buf n id ide hb]
  case error =>
    refine chipOn_next hc ?_
    simp only [canTransmit, ht, State.canTxError_buf n ex hb]
  case recovery => exact chipOn_next hc (if_pos ⟨hb, hr, by rw [hk]; rfl⟩)
  case cancel => exact writeReg_next h (regAt_CAN_TX_CANCEL n) rfl fun u => rfl
  case rxStart =>
    refine chipOn_next hc (if_neg ?_)
    simp only [hm, hb, hi, hbusy, hk, Bool.false_eq_true, or_self, not_false_iff]
  case rxValid =>
    have hfits : (!f.fdf || s.bit (CAN_CTL n) CAN_CTL_FD_EN) = true := by
      rw [← Bool.not_not (s.bit _ _), ← Bool.not_and, hf]
      rfl
    refine chipOn_next hc ?_
    simp only [canReceive, hv, hfits, Bool.true_and, Bool.not_true, Bool.false_eq_true, if_false]
  case rxError =>
    refine chipOn_next hc (if_neg ?_)
    simp only [hm, hb, ht, htest, Option.isSome_none, Bool.false_eq_true, or_self, not_false_iff]
  case enable => exact writeReg_next h regAt_TT_CTL rfl fun u => rfl
  case cycle => exact chipOn_next hc (ttCycleStart_of hon hst hr hb hd)
  case trigger =>
    refine chipOn_next hc ?_
    simp only [ttTrigger, hk, hon, hb, hd, and_self, if_true]
  case backup => exact chipOn_next hc (backupReference_of hon hr hst hb hf hl hd hw)
  case update => exact writeReg_next h (regAt_TT_ABUF_CTL m) rfl fun u => rfl
  case exchange => exact chipOn_next hc (if_pos ⟨hu, by rw [hr]; rfl⟩)

end Sys2Proof.Machine
end

section
/-! Proofs for 11 (axes, profiles, groups and homing): commands held for the tick (R295, R315, R326), the tick (R295), positions (R325), and the inputs'
edges and debounce (R307, R309, R319). -/
namespace Sys2Proof.Machine

variable {s : State} {who : Initiator} {w : Word}

/-! ## Commands -/

/-- A write of AXn_CMD waits for the tick (R295). -/
theorem writeReg_AX_CMD (n : Fin 32) (h : s.writeTaken who (AX_CMD n) w = true) : writeReg who (AX_CMD n) w s = .next (s.did who (AX_CMD n) w fun u =>
    u.setAx n { u.axOf n with acts := (u.axOf n).acts ++ [.cmd w] }) := writeReg_next h (regAt_AX_CMD n) rfl fun _ => rfl

/-- A write of GRPg_CMD that is no LATCH waits for the tick (R295). -/
theorem writeReg_GRP_CMD (g : Fin 8) (h : s.writeTaken who (GRP_CMD g) w = true) (hl : GRP_CMD_LATCH.get w = 0) :
    writeReg who (GRP_CMD g) w s = .next (s.did who (GRP_CMD g) w fun u => u.setGrp g { u.grpOf g with acts := (u.grpOf g).acts ++ [w] }) := by
  have hbit : (w.toNat >>> 3) % 2 ^ 1 = 0 := hl
  have hcmd : grpCmd w ≠ 8 := by
    rw [Nat.shiftRight_eq_div_pow] at hbit
    unfold grpCmd
    omega
  refine writeReg_next h (regAt_GRP_CMD g) rfl fun u => ?_
  exact (if_neg fun hc => hcmd hc.2).trans (if_neg (not_not_intro hl))

/-- Settles O40. -/
theorem motionCommandsWaitForTheTick : Obligations.MotionCommandsWaitForTheTick := by
  refine ⟨fun s who n w => writeReg_AX_CMD n, fun s who n w => writeReg_AX_CMD n, fun s who n w => writeReg_AX_CMD n, fun s who n w => writeReg_AX_CMD n,
    fun s who n w => writeReg_AX_CMD n, fun s who n w => writeReg_AX_CMD n, fun s who g w h hl => ?start, fun s who g w h hl => ?stop,
    fun s who g w h hl => ?estop, fun s who g w h hl => ?clear, fun s who g w h hl => ?latch⟩
  case start => exact writeReg_GRP_CMD g h ((Fld.get_put_other w 1 (by decide) (by decide) (by decide) (by decide)).trans hl)
  case stop => exact writeReg_GRP_CMD g h ((Fld.get_put_other w 1 (by decide) (by decide) (by decide) (by decide)).trans hl)
  case estop => exact writeReg_GRP_CMD g h ((Fld.get_put_other w 1 (by decide) (by decide) (by decide) (by decide)).trans hl)
  case clear => exact writeReg_GRP_CMD g h ((Fld.get_put_other w 1 (by decide) (by decide) (by decide) (by decide)).trans hl)
  case latch => exact writeReg_next h (regAt_GRP_CMD g) rfl fun u => if_pos ⟨rfl, hl⟩

/-! ## The tick, positions and inputs -/

/-- The axes in the state in which a write is made. -/
theorem State.axOf_atWrite {a : Nat} (h : s.writeTaken who a w = true) (v : Word) (n : Nat) : ((s.atWrite who a).setReg a v).axOf n = s.axOf n := by
  rw [State.atWrite_of_taken h]
  rfl

/-- The position issued, in the state in which a read is made. -/
theorem State.axPosBits_atRead {a : Nat} (h : s.readTaken who a = true) (n : Nat) : (s.atRead who a).axPosBits n = unsgn 48 (s.axIssued n) := by
  rw [State.atRead_of_taken h]
  rfl

/-- An edge of an input: its position and instant are latched, and HOME's APPROACH takes a candidate (R309, R319). -/
theorem rawInputEdge_new {n i : Nat} {l : Bool} (h : (s.axOf n).raw i ≠ l) : rawInputEdge n i l s =
    let appr := s.approaching n i (s.axOf n)
    let y := ((s.axOf n).latch i (s.axIssued n) s.time.tod s.time.tick).setRaw i l
    let v := (s.setAx n (if appr ∧ l ∧ (s.axOf n).cand = none then { y with cand := some (s.axIssued n) } else y)).countIf
      (appr && (s.axOf n).cand.isSome) (AX_HOME_CHATTER n)
    if v.filtOf n i = 0 then v.setFiltered n i l else v := if_neg h

/-- A filtered level (R307, R319). -/
theorem State.setFiltered_eq (s : State) (n i : Nat) (l : Bool) : s.setFiltered n i l =
    let x := s.axOf n
    let y := x.setFilt i l
    let u := s.setAx n (if s.approaching n i x = true ∧ x.ref = none then
        (if l then (if x.filt i then y else { y with ref := y.cand }) else { y with cand := none }) else y)
    let into := match x.arrived with
      | some v => v != 0 && decide (v > 0) == (i == 0)
      | none => false
    if l = true ∧ x.filt i = false ∧ i < 2 ∧ into = true ∧ u.bit (AX_CFG n) AX_CFG_LIMIT_EN = true then u.setLimitFlag n (i == 0) else u := by
  cases l <;> simp only [State.setFiltered, Bool.and_eq_true, Bool.not_eq_true', decide_eq_true_eq, and_assoc, Bool.not_true, Bool.not_false,
    Bool.false_eq_true, if_true, if_false, true_and, false_and] <;> rfl

/-- Settles O41. -/
theorem axesMoveAtTheTick : Obligations.AxesMoveAtTheTick := by
  refine ⟨fun s hc ht => ?tick, fun s who n w h => ?low, fun s who n w h => ?high, fun s who n h => ?read,
    fun s n k level hc => ⟨fun hl => ?noEdge, fun hl => ?edge⟩, fun s n k hc => ⟨fun ht => ?waits, fun ht => ?debounced⟩⟩
  case tick =>
    refine chipOn_next hc (?_ : profileTick s = _)
    rw [profileTick, if_pos (show s.tickDue = true from decide_eq_true ht)]
    simp only [State.tickTaken, State.motionTick]
  case low =>
    refine writeReg_next_at h (regAt_AX_POS_LO n) rfl (f := fun u => if (s.axOf n).st ≠ .idle then u.setReg (AX_POS_LO n) 0 else
      { u.setReg (AX_POS_LO n) 0 with held := tput (fun _ => 0) u.held (AX_POS_LO n) w }) ?_
    rw [← State.axOf_atWrite h (s.wordAfter (AX_POS_LO n) w) n]
    rfl
  case high =>
    refine writeReg_next_at h (regAt_AX_POS_HI n) rfl (f := fun u => if (s.axOf n).st ≠ .idle then u.setReg (AX_POS_HI n) 0 else
      u.setReg (AX_POS_HI n) 0 |>.axWait n (.load (max (-posMax) (sgn 48 ((tget (fun _ => 0) u.held (AX_POS_LO n)).toNat + 2 ^ 32 * AX_POS_HI_POS.get w))))) ?_
    rw [← State.axOf_atWrite h (s.wordAfter (AX_POS_HI n) w) n]
    rfl
  case read =>
    refine readReg_next h (regAt_AX_POS_LO n) (by decide) (by decide) rfl rfl ?_ ?_
    · exact congrArg (fun v => (w32 v).toNat) (State.axPosBits_atRead h n)
    · rw [← State.axPosBits_atRead h n]
      rfl
  case noEdge =>
    exact chipOn_next (f := fun s => let s := s.pinSeen (32 * k.val + n.val) level; rawInputEdge n.val k.val (s.inputLevel (32 * k.val + n.val)) s) hc
      (if_pos hl)
  case edge =>
    exact chipOn_next (f := fun s => let s := s.pinSeen (32 * k.val + n.val) level; rawInputEdge n.val k.val (s.inputLevel (32 * k.val + n.val)) s) hc
      (rawInputEdge_new hl)
  case waits => exact chipOn_next hc (if_neg fun hd => absurd (of_decide_eq_true hd) (Nat.not_le.mpr ht))
  case debounced => exact chipOn_next hc ((if_pos (decide_eq_true ht)).trans (s.setFiltered_eq n k _))

end Sys2Proof.Machine
end

section
/-! Proofs for 12 (current regulation, encoders and measurement): the choppers' cycle (R330 to R336), and a state in which an encoder's edge does more
than is stated of it. -/
namespace Sys2Proof.Machine

variable {s : State}

/-- Settles O42. -/
theorem choppersRegulateTheCurrent : Obligations.ChoppersRegulateTheCurrent := by
  refine ⟨fun s n ph hc he hp => ?start, fun s n ph hc hp => ?dead, fun s n ph v hc hp => ⟨fun ht => ?blank, fun ht => ?overshoot⟩,
    fun s n ph v hc hp ht => ?trip, fun s n ph hc hp => ⟨fun hd => ?off, fun hd => ?auto⟩, fun s n va vb hc h => ?bothPhases, fun s n hc hd ht => ?rest⟩
  case start => exact chipOn_next hc (if_pos ⟨he, hp⟩)
  case dead => exact chipOn_next hc (if_pos hp)
  case blank => exact chipOn_next hc ((if_pos hp).trans (if_neg (Bool.eq_false_iff.mp ht)))
  case overshoot => exact chipOn_next hc ((if_pos hp).trans (if_pos ht))
  case trip => exact chipOn_next hc (if_pos ⟨hp, ht⟩)
  case off => exact chipOn_next hc ((if_pos hp).trans (congrArg (State.chopEvent1 · n ph) (if_neg hd)))
  case auto => exact chipOn_next hc ((if_pos hp).trans (congrArg (State.chopEvent1 · n ph) (if_pos hd)))
  case bothPhases => exact chipOn_next hc (if_pos h)
  case rest => exact chipOn_next hc (if_pos ⟨hd, ht⟩)

/-! ## Encoders -/

/-- What settles after a command leaves the encoders alone. -/
theorem State.after_enc (s : State) : s.after.enc = s.enc := by
  obtain ⟨r, d, waits, h1⟩ := State.tapTake_eq s
  obtain ⟨dma, h2⟩ := State.dmaYield_eq s.tapTake
  obtain ⟨links, regs, h3⟩ := State.testCount_eq s.tapTake.dmaYield
  obtain ⟨sent, h4⟩ := State.settle_eq s.tapTake.dmaYield.testCount
  obtain ⟨wat, held, h5⟩ := State.wdogWake_eq s.tapTake.dmaYield.testCount.settle
  rw [State.after, h5, h4, h3, h2, h1]

/-- A state whose table of encoders names encoder 0 twice, so that it is in no canonical form: at rest, and behind that with its index input filtered
at 1. -/
def twoRecordsOfEncoder : State := { State.reset with enc := [(0, {}), (0, { z := true })] }

/-- Refutes O43: the clause of ENCODER_EDGE that finds nothing stable speaks of every state, not of those in canonical form alone. In
`twoRecordsOfEncoder` the record read before the edge has its index input at rest; the one read after it has not, so the edge moves the index input. -/
theorem not_encodersCountAndConvertersSample : ¬ Obligations.EncodersCountAndConvertersSample := by
  intro h
  obtain ⟨hedge, hquiet⟩ := h.1 twoRecordsOfEncoder 0 false false rfl
  have hstay := (hquiet rfl rfl rfl).1 rfl rfl
  have hmove := hedge.symm.trans hstay
  injection hmove with hstate
  have henc := congrArg State.enc hstate
  rw [State.after_enc, State.after_enc] at henc
  exact absurd henc (by decide)

end Sys2Proof.Machine
end

section
/-! Proofs for 13 (pilots): the execute clock with its instructions (R354 to R367), and the events and commands of a pilot (R358 to R371). -/
namespace Sys2Proof.Machine

variable {s : State} {n op w : Nat}

/-! ## The execute clock -/

/-- The words that a pilot set's memory marks as bad stay marked when its pins bring levels from outside. -/
theorem State.psetOf_presentPins (h : s.Inv) (k ext : Nat) :
    (s.presentPins k ext).psetOf k = { s.psetOf k with ext := ext % 256 } := tget_tput_self h.psetOk k _

/-- The levels at its pins leave the word at a pilot's PC. -/
theorem State.pilotWord_presentPins (s : State) (n k ext : Nat) : (s.presentPins k ext).pilotWord n = s.pilotWord n := rfl

/-- The levels at its pins leave a word as legal as it was. -/
theorem State.plIllegal_presentPins (s : State) (n w k ext : Nat) : (s.presentPins k ext).plIllegal n w = s.plIllegal n w := rfl

/-- A pilot that is to execute a word drives its pins and carries out the instruction. -/
theorem State.pilotStep_runs (h : s.pilotRuns n op w) (hs : s.Inv) (ext clash : Nat) (drive : State → Nat → List (Nat × Bool))
    (body : State → Nat → Nat → State) : s.pilotStep n op ext clash false drive body =
      body (s.pilotDrove n w ext clash fun u => drive u w) w ((s.presentPins (n / 4) ext).syncLevels (n / 4)) := by
  obtain ⟨-, hready, hword, hop, hgood, hlegal⟩ := h
  have hbad : ((s.presentPins (n / 4) ext).psetOf (n / 4)).bad.contains ((s.presentPins (n / 4) ext).pilotOf n).pc = false := by
    rw [State.psetOf_presentPins hs]
    exact hgood
  have hw : (s.presentPins (n / 4) ext).pilotWord n = w := (State.pilotWord_presentPins s n _ ext).trans hword
  have hl : (s.presentPins (n / 4) ext).plIllegal n w = false := (State.plIllegal_presentPins s n w _ ext).trans hlegal
  simp only [State.pilotStep, hready, Bool.not_true, Bool.false_eq_true, if_false, hw, hop, ne_eq, not_true_eq_false, hbad, hl]
  rfl

/-- The command of an instruction whose word the pilot is to execute. -/
theorem State.pilotStep_next (h : s.pilotRuns n op w) (hs : s.Inv) {ext clash : Nat} {drive : State → Nat → List (Nat × Bool)}
    {body : State → Nat → Nat → State} :
    chipOn (fun u => u.pilotStep n op ext clash false drive body) s =
      .next (body (s.pilotDrove n w ext clash fun u => drive u w) w ((s.presentPins (n / 4) ext).syncLevels (n / 4))).after :=
  chipOn_next (f := fun u => u.pilotStep n op ext clash false drive body) h.chip (State.pilotStep_runs h hs ext clash drive body)

/-- Settles O44. -/
theorem pilotInstructionsComplete : Obligations.PilotInstructionsComplete := by
  refine ⟨fun s n w ext clash h hs => ?drive, fun s n w ext clash h hs => ?sample, fun s n w ext clash h hs => ?load,
    fun s n w ext clash h hs => ?store, fun s n w ext clash h hs => ?await, fun s n w ext clash h hs => ?count,
    fun s n w ext clash h hs => ?signal, fun s n w ext clash h hs => ?move, fun s n hc hx hg hi => ?illegal⟩
  case drive => exact State.pilotStep_next h hs
  case sample => exact State.pilotStep_next h hs
  case load => exact State.pilotStep_next h hs
  case store => exact State.pilotStep_next h hs
  case await => exact State.pilotStep_next h hs
  case count => exact State.pilotStep_next h hs
  case signal => exact State.pilotStep_next h hs
  case move => exact State.pilotStep_next h hs
  case illegal =>
    refine chipOn_next hc ?_
    simp only [pilotIllegal, hx, Bool.not_true, Bool.false_eq_true, if_false, hg, hi, if_true]
    rfl

/-! ## Events and commands -/

/-- No position of 0 is set. -/
theorem bitOf_zero (i : Nat) : bitOf i 0 = false := by
  simp [bitOf]

/-- The word at the head of a pilot's receive queue is the same where it is read. -/
theorem State.pilotOf_atRead {who : Initiator} {a : Nat} (h : s.readTaken who a = true) (n : Nat) :
    (s.atRead who a).pilotOf n = s.pilotOf n := by
  rw [State.atRead_of_taken h]
  rfl

/-- What a read of PL_RXDATA returns and does. -/
theorem readReg_PL_RXDATA {who : Initiator} {n : Fin 32} (h : s.readTaken who (PL_RXDATA n) = true) {f : State → State}
    (hf : pilotRead (PL_RXDATA 0) n (s.atRead who (PL_RXDATA n)) = f (s.atRead who (PL_RXDATA n))) :
    readReg who (PL_RXDATA n) s = .next (s.gave who (PL_RXDATA n) (w32 ((s.pilotOf n).rx.headD 0)).toNat f) := by
  refine readReg_next h (regAt_PL_RXDATA n) (by decide) (by decide) rfl rfl ?_ hf
  rw [← State.pilotOf_atRead h]
  rfl

/-- Settles O45. -/
theorem pilotEventsAndCommandsAct : Obligations.PilotEventsAndCommandsAct := by
  refine ⟨fun s n ext c pin dw seen k hc hr hp => ⟨fun hh => ?awaitOver, fun hh => ?awaitOn⟩,
    fun s n wa dw hc hr => ⟨fun hp hx => ?loadEnd, fun hp hx => ?storeEnd⟩, fun s n hc hr hp => ?dwellOver,
    fun s who n w h => ?start, fun s who n w h hs => ?stop, fun s who n w h hs ht => ?kick, fun s who n w h hs ht hk => ?flush,
    fun s who k w h ht => ?psStart, fun s who k w h hs => ?psStop, fun s who n w h => ?push, fun s who n h => ⟨fun hx => ?empty, fun v t hx => ?pop⟩⟩
  case awaitOver =>
    refine chipOn_next hc ?_
    simp only [awaitComplete, hr, hp]
    exact if_pos hh
  case awaitOn =>
    refine chipOn_next hc ?_
    simp only [awaitComplete, hr, hp]
    exact if_neg (Bool.eq_false_iff.mp hh)
  case loadEnd =>
    refine chipOn_next hc ?_
    simp only [pilotQueueWaitEnd, hp]
    exact if_pos ⟨hr, hx⟩
  case storeEnd =>
    refine chipOn_next hc ?_
    simp only [pilotQueueWaitEnd, hp]
    exact if_pos ⟨hr, hx⟩
  case dwellOver => exact chipOn_next hc (if_pos ⟨hr, hp⟩)
  case start =>
    refine writeReg_next h (regAt_PL_CTL n) rfl fun u => (?_ : pilotHook (PL_CTL 0) n _ _ u = _)
    simp (disch := decide) only [pilotHook, Fld.get_put_of_lt, Fld.get_put_other, ne_eq, one_ne_zero, not_false_iff, if_true]
    rfl
  case stop =>
    refine writeReg_next h (regAt_PL_CTL n) rfl fun u => (?_ : pilotHook (PL_CTL 0) n _ _ u = _)
    simp (disch := decide) only [pilotHook, Fld.get_put_of_lt, Fld.get_put_other, hs, ne_eq, one_ne_zero, not_true_eq_false, not_false_iff, if_true,
      if_false]
    rfl
  case kick =>
    refine writeReg_next h (regAt_PL_CTL n) rfl fun u => (?_ : pilotHook (PL_CTL 0) n _ _ u = _)
    simp (disch := decide) only [pilotHook, Fld.get_put_of_lt, Fld.get_put_other, hs, ht, ne_eq, one_ne_zero, not_true_eq_false, not_false_iff, if_true,
      if_false]
    rfl
  case flush =>
    refine writeReg_next h (regAt_PL_CTL n) rfl fun u => (?_ : pilotHook (PL_CTL 0) n _ _ u = _)
    simp (disch := decide) only [pilotHook, Fld.get_put_of_lt, Fld.get_put_other, hs, ht, hk, ne_eq, one_ne_zero, not_true_eq_false, not_false_iff,
      if_true, if_false]
    rfl
  case psStart =>
    refine writeReg_next h (regAt_PS_CTL k) rfl fun u => (?_ : pilotHook (PS_CTL 0) k _ _ u = _)
    rw [pilotHook, if_neg (by decide), if_pos rfl, ht]
    simp only [bitOf_zero, Bool.false_eq_true, if_false]
  case psStop =>
    refine writeReg_next h (regAt_PS_CTL k) rfl fun u => (?_ : pilotHook (PS_CTL 0) k _ _ u = _)
    rw [pilotHook, if_neg (by decide), if_pos rfl, hs]
    simp only [bitOf_zero, Bool.false_eq_true, if_false]
  case push => exact writeReg_next h (regAt_PL_TXDATA n) rfl fun u => rfl
  case empty =>
    refine (readReg_PL_RXDATA (f := fun u => u.setB (PL_STATUS n) PL_STATUS_EMPTY_READ) h ?_).trans (by rw [hx]; rfl)
    rw [pilotRead, if_pos rfl, State.pilotOf_atRead h, hx]
  case pop =>
    refine (readReg_PL_RXDATA (f := fun u => u.modPilot n fun x => { x with rx := t }) h ?_).trans (by rw [hx]; rfl)
    rw [pilotRead, if_pos rfl, State.pilotOf_atRead h, hx]

end Sys2Proof.Machine
end

section
/-! Proofs for 14 (host interfaces and the causeway), PCIe: what a request, a message, a reset and a configuration write do (R373 to R386). -/
namespace Sys2Proof.Machine

variable {s : State}

/-! ## Requests -/

/-- A memory write within its BAR (R375, R376, R394). -/
theorem pcieMwr_within {bar dw : Nat} {l : List (Nat × Nat)} (h : 4 * dw + 4 * l.length ≤ (s.barOf bar).2) (ep : Bool) :
    pcieMwr bar dw l ep s =
      let a := (s.barOf bar).1 + 4 * dw
      if ep then ((s.inboundRoom.postWrite 0 a (l.flatMap fun d => dwBytes d.1 d.2) 2).setB HOSTIF_STATUS HOSTIF_STATUS_POISON_RX).aer .poisonedTlp
        (some ⟨.memWrite, a, 4 * l.length⟩)
      else if toRegs bar a then s.inboundRoom.postDws a l
      else s.inboundRoom.postWrite 0 a (l.flatMap fun d => dwBytes d.1 d.2) 0 := if_neg (Nat.not_lt.mpr h)

/-- A memory read within its BAR (R375, R376). -/
theorem pcieMrd_within {bar dw : Nat} {l : List Nat} (h : 4 * dw + 4 * l.length ≤ (s.barOf bar).2) :
    pcieMrd bar dw l s =
      let a := (s.barOf bar).1 + 4 * dw
      let bad := toRegs bar a && !(l == [15] || (l == [15, 15] && a % 8 == 0 && isMsixTable a))
      s.inboundRoom.modIf 0 fun x => { x with ops := x.ops ++ [.read a (if bad then [] else l)] } := if_neg (Nat.not_lt.mpr h)

/-- An AtomicOp of 4 or 8 bytes within its BAR (R375, R376, R378). -/
theorem pcieAtomicop_within {bar dw n : Nat} {k : AtomicKind} {x y : Nat} (h : 4 * dw + n ≤ (s.barOf bar).2) (hn : n = 4 ∨ n = 8) :
    pcieAtomicop bar dw n k x y s =
      let a := (s.barOf bar).1 + 4 * dw
      s.inboundRoom.modIf 0 fun i => { i with
        ops := i.ops ++ [if 0x10000000 ≤ a ∧ a < 0x10100000 then .atomic a n k x y else .read a []] } :=
  if_neg fun hbad => hbad.elim (Nat.not_lt.mpr h) fun hw => hn.elim hw.1 hw.2

/-- A PCIe read that reaches its turn with no fence and no request for an abort ends as its completions end (R377, R393). -/
theorem State.doRead_ends {a : Nat} {bes : List Nat} (hf : s.fenced 0 = false) (hb : bes ≠ []) {t : State} {e : BusEnd} {cs : List (List Nat × Bool)}
    {all : List Nat} (hr : s.readCpls (cplSplit a bes.length bes) = (t, e, cs, all)) (he : e ≠ .waiting) :
    s.doRead a bes = if e = .done then (t.popOp 0).sendCpls .done cs else (t.popOp 0).sendCa ⟨.memRead, a, 4 * bes.length⟩ cs := by
  simp only [State.doRead, State.pcieFetch, hf, hb, hr, Bool.false_eq_true, if_false]
  cases e with
  | waiting => exact absurd rfl he
  | done => rfl
  | poisoned => rfl
  | busError => rfl

/-- With a read in front, the next operation of an interface is that read, and then the lines to fetch ahead behind it (R374, R393). -/
theorem State.serveNext_read {k a : Nat} {bes : List Nat} {l : List CwOp} (ho : (s.ifOf k).ops = .read a bes :: l) (hm : (s.ifOf k).mute = 0) :
    s.serveNext k = fetchAhead k ((s.doRead a bes).ifOf k).ops.length (s.doRead a bes) := by
  have hop : s.serveOp k = s.doRead a bes := by rw [State.serveOp, ho]
  rw [State.serveNext, serveThrough, ho]
  simp only [CwOp.isWrite, Bool.false_eq_true, if_false]
  simp only [State.serve, hm, if_true, hop]

/-- Settles O46. -/
theorem pcieRequestsAreTaken : Obligations.PcieRequestsAreTaken := by
  refine ⟨fun s bar dw dws hc hw hfit => ?write, fun s bar dw bes hc hw hfit => ?read, fun s bar dw n k x y hc hw hfit hn => ?atomic,
    fun s k hc hw hk => ?unsupported, fun s a bes l hc hw ho hm hf hb t e cs all hr he => ?completion, fun s v hc hw hp ho hs => ?message,
    fun s who w h => ?rearm, fun s hc hw => ?reset, fun s h => ?resetHeld, fun s hb => ?perst, fun s v w hc hw hp => ?link, fun s hc hw => ?config⟩
  case write =>
    intro a l h
    have hlen : l.length = dws.length := List.length_map _
    have hrun (ep : Tlp Bool) : exec (.pcieMwr bar dw dws ep) s = .next (s.tlpIn ep.flaw h (pcieMwr bar dw l ep.val)).after :=
      hostOn_next (f := fun u => u.tlpIn ep.flaw ⟨.memWrite, (u.barOf bar).1 + 4 * dw, 4 * dws.length⟩ (pcieMwr bar dw l ep.val)) hc hw rfl
    have hin (ep : Bool) := pcieMwr_within (l := l) (by rw [hlen]; exact hfit) ep
    refine ⟨?poisoned, fun ht => ?registers, fun ht => ?memory, fun ep => hrun _, fun ep hk => ?ecrc⟩
    case poisoned =>
      rw [hrun, State.tlpIn, hin, hlen]
      rfl
    case registers =>
      rw [hrun, State.tlpIn, hin]
      exact congrArg (fun u : State => Host.Outcome.next u.after) (if_pos ht)
    case memory =>
      rw [hrun, State.tlpIn, hin]
      exact congrArg (fun u : State => Host.Outcome.next u.after) (if_neg (Bool.eq_false_iff.mp ht))
    case ecrc =>
      rw [hrun, State.tlpIn, if_pos hk]
  case read =>
    rw [← List.length_map (f := BitVec.toNat)] at hfit
    exact hostOn_next (f := fun u => u.tlpIn none _ (pcieMrd bar dw (bes.map BitVec.toNat))) hc hw (pcieMrd_within hfit)
  case atomic => exact hostOn_next (f := fun u => u.tlpIn none _ (pcieAtomicop bar dw n k x.toNat y.toNat)) hc hw (pcieAtomicop_within hfit hn)
  case unsupported =>
    cases k with
    | vendorMessage1 => exact absurd rfl hk
    | _ => exact hostOn_next hc hw rfl
  case completion =>
    refine hostOn_next (f := fun u => u.serveNext 0) hc hw ?_
    rw [State.serveNext_read ho hm, State.doRead_ends hf hb hr he]
    rfl
  case message =>
    refine hostOn_next hc hw ?_
    simp only [msixMessage, hp, ho, hs, Bool.not_false, and_self, if_true]
    rfl
  case rearm => exact writeReg_next h regAt_HOSTIF_MSIX_REARM rfl fun u => rfl
  case reset =>
    have hup : ¬(s.rst.chip = true ∨ s.rst.cw = true) := by simp [hc, hw]
    exact ⟨anyTime_next (if_neg hup), anyTime_next (if_neg hup), anyTime_next (if_neg hup), anyTime_next (if_neg hup)⟩
  case resetHeld => exact ⟨anyTime_next (if_pos h), anyTime_next (if_pos h), anyTime_next (if_pos h), anyTime_next (if_pos h)⟩
  case perst => exact anyTime_next (if_neg (Bool.eq_false_iff.mp hb))
  case link => exact hostOn_next hc hw (if_neg (Bool.eq_false_iff.mp hp))
  case config =>
    exact ⟨fun b => hostOn_next hc hw rfl, fun b => hostOn_next hc hw rfl, fun b => hostOn_next hc hw rfl, fun b => hostOn_next hc hw rfl,
      fun b => hostOn_next hc hw rfl, fun e => ⟨hostOn_next hc hw rfl, hostOn_next hc hw rfl, hostOn_next hc hw rfl, hostOn_next hc hw rfl,
        hostOn_next hc hw rfl⟩, fun d w => hostOn_next hc hw rfl⟩

end Sys2Proof.Machine
end

section
/-! Proofs for 14 (host interfaces and the causeway): outbound requests, delayed transactions and posted writes that end (R391 to R397). -/
namespace Sys2Proof.Machine

variable {s : State}

/-! ## A register that counts, whatever its state's table -/

/-- Setting a key to another value than its default one leaves every other key as it reads, in a table of any form. -/
theorem tget_tput_of_ne_default {α : Type} [DecidableEq α] {d : Nat → α} {k i : Nat} {v : α} (hv : v ≠ d k) (hi : i ≠ k) (t : Tbl α) :
    tget d (tput d t k v) i = tget d t i := by
  induction t with
  | nil =>
    rw [tput, if_neg hv]
    exact (if_neg hi).trans (ite_self _)
  | cons p t ih =>
    obtain ⟨j, u⟩ := p
    rcases Nat.lt_trichotomy k j with h | h | h
    · rw [tput, if_pos h, if_neg hv, tget, if_neg hi]
      split
      · rw [tget, if_neg (by omega), if_pos (by omega)]
      · rfl
    · subst h
      rw [tput, if_neg (lt_irrefl k), if_pos rfl, if_neg hv, tget, tget, if_neg hi, if_neg hi]
    · rw [tput, if_neg (by omega), if_neg (by omega), tget, tget, ih]

/-- What a register reads at reset, but for the sine table (R336). -/
theorem resetWord_of_findReg {a : Nat} {row : RegRow} {l : List Nat} (h : ¬(CHOP_SINE 0 ≤ a ∧ a < CHOP_SINE 1024)) (hf : findReg a = some (row, l)) :
    resetWord a = w32 row.reset := by
  rw [resetWord, if_neg h, hf]

/-- A field put to another value than it has at reset leaves every other register. -/
theorem State.reg_putF_of_ne_reset {a b v : Nat} {f : Fld} (hf : f.ok) (hv : v % 2 ^ (f.hi - f.lo + 1) ≠ f.get (resetWord a)) (e : b ≠ a) :
    (s.putF a f v).reg b = s.reg b := by
  refine tget_tput_of_ne_default (fun h => hv ?_) e s.regs
  rw [← h, Fld.get_put _ _ hf.1 hf.2]

/-- Counting an event in a register that a reset clears leaves every register but that one and the summary of its block. -/
theorem State.reg_count_of_ne {a b : Nat} (ha : b ≠ a) (hs : b ≠ SUMMARY (blockOf a)) (hr : wholeReg.get (resetWord a) = 0)
    (hsum : SUMMARY_SAT.get (resetWord (SUMMARY (blockOf a))) = 0) : (s.count a).reg b = s.reg b := by
  have htop {n : Nat} (hn : n ≠ 0) (hlt : n < 2 ^ 32) : n % 2 ^ (wholeReg.hi - wholeReg.lo + 1) ≠ wholeReg.get (resetWord a) := by
    rw [hr]
    exact fun h => hn ((Nat.mod_eq_of_lt hlt).symm.trans h)
  rw [State.count]
  rcases State.countN_cases s a 1 wholeReg with ⟨-, e⟩ | ⟨hlt, e⟩ | ⟨-, -, e⟩ <;> rw [e]
  · exact State.reg_putF_of_ne_reset ⟨by decide, by decide⟩ (htop (Nat.succ_ne_zero _) (hlt.trans (by decide))) ha
  · rw [State.setSat]
    refine (State.reg_putF_of_ne_reset ⟨by decide, by decide⟩ ?_ hs).trans (State.reg_putF_of_ne_reset ⟨by decide, by decide⟩ (htop (by decide) (by decide)) ha)
    rw [hsum]
    decide

/-! ## A buffer taken back from an outbound request (R397) -/

/-- What a change of the first element that it applies to does not change, it does not change of the list. -/
theorem any_updFirst {α : Type} {p q : α → Bool} {f : α → α} (h : ∀ x, q (f x) = q x) (l : List α) : (updFirst p f l).any q = l.any q := by
  induction l with
  | nil => rfl
  | cons x l ih =>
    rw [updFirst]
    split
    · rw [List.any_cons, List.any_cons, h]
    · rw [List.any_cons, List.any_cons, ih]

/-- A buffer taken back changes the waiting accesses and a counter alone. -/
theorem State.inboundRoom_eq (s : State) : ∃ waits strays regs,
    s.inboundRoom = { s with regs := regs, cw := { s.cw with waits := waits, strays := strays } } := by
  rw [State.inboundRoom]
  split
  · exact ⟨_, _, _, rfl⟩
  · obtain ⟨regs, h⟩ := State.countN_eq (s.modCw _) CW_OUT_RETRY 1 wholeReg
    rw [State.count, h]
    dsimp only [State.modCw]
    split
    · exact ⟨_, _, _, rfl⟩
    · exact ⟨_, _, _, rfl⟩

/-- It leaves an access of the initiator waiting or not. -/
theorem State.waitsAt_inboundRoom (s : State) (who : Initiator) (a : Nat) : s.inboundRoom.waitsAt who a = s.waitsAt who a := by
  rw [State.inboundRoom]
  split
  · rfl
  · obtain ⟨regs, h⟩ := State.countN_eq (s.modCw _) CW_OUT_RETRY 1 wholeReg
    rw [State.count, h, State.waitsAt, State.waitsAt]
    dsimp only [State.modCw]
    split
    · rw [List.any_reverse]
      refine (any_updFirst (p := WaitAcc.mayLose) (f := fun x => { x with buf := false }) ?_ _).trans List.any_reverse
      exact fun _ => rfl
    · rfl

/-- The register that counts the buffers taken back (R397). -/
theorem regAt_CW_OUT_RETRY : RegAt CW_OUT_RETRY 3 CW_OUT_RETRY ⟨0x28, [], [⟨⟨31, 0⟩, .cnt, 0⟩]⟩ [] :=
  ⟨rfl, rfl, rfl, rfl, rfl⟩

/-- It leaves the fences. -/
theorem State.fenced_inboundRoom (s : State) (k : Nat) : s.inboundRoom.fenced k = s.fenced k := by
  have hcount : wholeReg.get (resetWord CW_OUT_RETRY) = 0 := by
    rw [resetWord_of_findReg (by decide) regAt_CW_OUT_RETRY.find]
    rfl
  have hsum : SUMMARY_SAT.get (resetWord (SUMMARY (blockOf CW_OUT_RETRY))) = 0 := by
    rw [resetWord_of_findReg (row := summaryRow) (l := []) (by decide) rfl]
    rfl
  have hreg : s.inboundRoom.reg CW_FENCE = s.reg CW_FENCE := by
    rw [State.inboundRoom]
    split
    · rfl
    · exact State.reg_count_of_ne (by decide) (by decide) hcount hsum
  simp only [State.fenced, State.bit, State.fld, hreg]

/-- An access in its turn, of the first that its host interface has to make room for, is the same access with the room made (R397). -/
theorem State.inTurn_inboundRoom {who : Initiator} {a : Nat} (hr : isRegister a = true) (hm : s.mayAccess who a = true) (hn : s.isNext who = true)
    (hneed : s.needsRoom who a = true) (hroom : s.inboundRoom.takesBack = false) {bs : List Nat} (h : TlpHead)
    (hfence : bs = [] → s.fenceMet who a = false) (f : State → State × BusEnd × Nat) :
    s.inTurn who a bs h f = s.inboundRoom.inTurn who a bs h f := by
  obtain ⟨hk, hw⟩ : (ifNum who).isSome = true ∧ s.waitsAt who a = false := by
    simp only [State.needsRoom, Bool.and_eq_true, Bool.not_eq_true'] at hneed
    exact hneed.1
  obtain ⟨k, hk⟩ := Option.isSome_iff_exists.mp hk
  have hw' : s.inboundRoom.waitsAt who a = false := (State.waitsAt_inboundRoom s who a).trans hw
  have htwice : s.inboundRoom.inboundRoom = s.inboundRoom := if_pos (by rw [hroom]; rfl)
  have hfinds : s.findsRoom who a = s.inboundRoom.findsRoom who a := by
    rw [State.findsRoom, State.findsRoom, hw, hw', if_neg Bool.false_ne_true, if_neg Bool.false_ne_true, htwice]
  obtain ⟨waits, strays, regs, he⟩ := s.inboundRoom_eq
  have hm' : s.inboundRoom.mayAccess who a = true := by rw [he]; exact hm
  have hn' : s.inboundRoom.isNext who = true := by rw [he]; exact hn
  have hposts : s.inboundRoom.posts who a = s.posts who a := by
    have hside (u : State) : u.isSide a = true := by
      rw [State.isSide, regionOf_register hr]
      rfl
    have hlock : s.inboundRoom.lockedSeq = s.lockedSeq := by
      rw [he]
      rfl
    rw [State.posts, State.posts, hside, hside, hlock]
  have hseq : s.inboundRoom.writeSeq who = s.writeSeq who := by rw [he]; rfl
  simp only [State.inTurn, hm, hm', hn, hn', Bool.not_true, Bool.false_eq_true, if_false, if_true]
  cases bs with
  | nil =>
    have hf : s.fenceMet who a = false := hfence rfl
    have hf' : s.inboundRoom.fenceMet who a = false := by
      simp only [State.fenceMet, hk, hw, hw', State.fenced_inboundRoom] at hf ⊢
      exact hf
    simp only [List.isEmpty_nil, if_true, hk, hf, hf', Bool.false_eq_true, if_false, State.admitRead, hfinds]
  | cons b bs =>
    simp only [List.isEmpty_cons, Bool.false_eq_true, if_false, State.admitWrite, hk, hposts, hw, hw', Bool.not_false, Bool.or_true, if_true, hfinds, hseq]

/-! ## What ends -/

/-- A posted write that fails sets the fence of its interface (R394, R395). -/
theorem State.bit_fence_pwFail (h : s.Inv) {k : Nat} (hk : k < 32) (q a c : Nat) : (s.pwFail k q a c).bit CW_FENCE (fenceBit k) = true := by
  have hok : (fenceBit k).ok := ⟨le_refl k, hk⟩
  have hset := State.bit_setB_self (h.setB CW_STATUS CW_STATUS_PW_FAIL) hok CW_FENCE
  have hinv := (h.setB CW_STATUS CW_STATUS_PW_FAIL).setB CW_FENCE (fenceBit k)
  rw [State.pwFail]
  split
  next i _ =>
    have haddr : CW_FENCE ≠ CW_PWLOG_ADDR i := by unfold CW_FENCE CW_PWLOG_ADDR; omega
    have hinfo : CW_FENCE ≠ CW_PWLOG_INFO i := by unfold CW_FENCE CW_PWLOG_INFO; omega
    rw [State.bit_setReg_ne (hinv.setReg _ _) hinfo, State.bit_setReg_ne hinv haddr]
    exact hset
  next =>
    have hstat : CW_FENCE ≠ CW_STATUS := by decide
    exact (State.bit_putF_ne hinv hstat _ _ _).trans hset

/-- With a delayed transaction in front, an interface performs it, and then the lines to fetch ahead behind it (R374, R391, R393). -/
theorem State.serveNext_delayed {k i : Nat} {l : List CwOp} {d : Delayed} (ho : (s.ifOf k).ops = .delayed i :: l) (hm : (s.ifOf k).mute = 0)
    (hd : (s.ifOf k).dl.find? (fun x => x.id == i) = some d) :
    s.serveNext k = fetchAhead k ((s.doDelayed k d).ifOf k).ops.length (s.doDelayed k d) := by
  have hop : s.serveOp k = s.doDelayed k d := by simp only [State.serveOp, ho, hd]
  rw [State.serveNext, serveThrough, ho]
  simp only [CwOp.isWrite, Bool.false_eq_true, if_false]
  simp only [State.serve, hm, if_true, hop]

/-- Settles O47. -/
theorem outboundDelayedAndPostedTransactionsEnd : Obligations.OutboundDelayedAndPostedTransactionsEnd := by
  refine ⟨fun s who a op hc hw ha => ⟨fun hmade => ?makes, fun hmade => ?made⟩, fun s who a hc hw => ⟨fun hr => ⟨fun v p => ?data, ?unsupported, ?abort⟩,
    fun hr hl e => ?late⟩, fun s who a hc hr => ?timeout, fun s who a x hc hx => ?starved,
    fun s who a w hc hreg hm hn hneed hroom => ⟨?writeRoom, fun ln hf => ?readRoom⟩, fun s k i l d hc hw ho hm hd => ?delayed, fun s k hc hw => ?expiry,
    fun s k hc hw => ?prefetch, fun s k q a c bs more l hc hw ho hcause hs => ?posted, fun s who w h => ?clear⟩
  case makes => exact hostOn_next hc hw ((if_neg (Nat.not_lt.mpr ha)).trans (congrArg (State.outSend · who a.toNat) (if_neg (Bool.eq_false_iff.mp hmade))))
  case made => exact hostOn_next hc hw ((if_neg (Nat.not_lt.mpr ha)).trans (congrArg (State.outSend · who a.toNat) (if_pos hmade)))
  case data =>
    refine hostOn_next (f := fun u => u.tlpIn none _ (outboundCompletion who a.toNat (outEnd (.data v p)))) hc hw ((if_pos hr).trans ?_)
    cases p <;> rfl
  case unsupported =>
    exact hostOn_next (f := fun u => u.tlpIn none _ (outboundCompletion who a.toNat (outEnd .unsupported))) hc hw ((if_pos hr).trans rfl)
  case abort => exact hostOn_next (f := fun u => u.tlpIn none _ (outboundCompletion who a.toNat (outEnd .abort))) hc hw ((if_pos hr).trans rfl)
  case late =>
    exact hostOn_next (f := fun u => u.tlpIn none _ (outboundCompletion who a.toNat (outEnd e))) hc hw
      ((if_neg (Bool.eq_false_iff.mp hr)).trans (if_pos hl))
  case timeout => exact chipOn_next hc (if_pos hr)
  case starved =>
    refine chipOn_next hc ?_
    rw [outStarved, hx]
    rfl
  case writeRoom =>
    have hchip : s.inboundRoom.rst.chip = false := by
      obtain ⟨waits, strays, regs, he⟩ := s.inboundRoom_eq
      rw [he]
      exact hc
    refine (chipOn_next (f := fun u => if isRegister a.toNat then u.rowWrite who a.toNat w else u) hc rfl).trans
      (chipOn_next (f := fun u => if isRegister a.toNat then u.rowWrite who a.toNat w else u) hchip ?_).symm
    rw [if_pos hreg, if_pos hreg]
    exact (State.inTurn_inboundRoom hreg hm hn hneed hroom _ (fun h => absurd h (List.cons_ne_nil _ _)) _).symm
  case readRoom =>
    have hchip : s.inboundRoom.rst.chip = false := by
      obtain ⟨waits, strays, regs, he⟩ := s.inboundRoom_eq
      rw [he]
      exact hc
    refine (chipOn_next hc rfl).trans (chipOn_next hchip ?_).symm
    exact (State.inTurn_inboundRoom hreg hm hn hneed hroom _ (fun _ => hf) _).symm
  case delayed => exact hostOn_next (f := fun u => u.serveNext (k + 1)) hc hw (State.serveNext_delayed ho hm hd)
  case expiry => exact hostOn_next hc hw rfl
  case prefetch => exact hostOn_next hc hw rfl
  case posted =>
    have hland : s.landWrite k q a bs c more false = (s.popOp k).pwFail k q a c := if_pos hcause
    have hfence := State.bit_fence_pwFail (State.popOp_inv s k hs) (k.isLt.trans (by decide)) q a c
    refine hostOn_next hc hw ?_
    simp only [postedWriteFailure, ho, hland, hfence]
    exact if_pos ⟨trivial, rfl, Or.inl hcause⟩
  case clear =>
    refine writeReg_next h regAt_CW_PWLOG_CTL rfl fun u => (?_ : causewayHook CW_PWLOG_CTL _ u = _)
    simp (disch := decide) only [causewayHook, Fld.get_put_of_lt, ne_eq, one_ne_zero, not_false_iff, if_true]

end Sys2Proof.Machine
end

section
/-! Proofs for 14 (host interfaces and the causeway), the host bus: a state in which a posted write takes a buffer back (R397). -/
namespace Sys2Proof.Machine

/-- What settles after a command leaves the outbound requests of those that are gone. -/
theorem State.after_strays (s : State) : s.after.cw.strays = s.cw.strays := by
  obtain ⟨r, d, waits, h1⟩ := State.tapTake_eq s
  obtain ⟨dma, h2⟩ := State.dmaYield_eq s.tapTake
  obtain ⟨links, regs, h3⟩ := State.testCount_eq s.tapTake.dmaYield
  obtain ⟨sent, h4⟩ := State.settle_eq s.tapTake.dmaYield.testCount
  obtain ⟨wat, held, h5⟩ := State.wdogWake_eq s.tapTake.dmaYield.testCount.settle
  rw [State.after, h5, h4, h3, h2, h1]

/-- An outbound request that holds a buffer and has not been sent, so that it may lose it (R397). -/
def bufferHolder : WaitAcc := { who := .hm, addr := 0x80000000, buf := true }

/-- The host bus is on, 32 bits wide and at the page of PIM, and unsent outbound requests hold all 32 buffers. -/
def allBuffersHeld : State :=
  { State.reset with
    regs := [(HOSTIF_HB_CFG, 0x500), (HOSTIF_HB_PAGE, 0x10)]
    cw := { strays := List.replicate 32 bufferHolder } }

/-- Refutes O48: the clause of HB_WRITE_CYCLE for a posted write leaves out that a write which finds no buffer takes one back from an outbound request
(R397). In `allBuffersHeld` a write to PIM does so: the last of the requests holds none after it. -/
theorem not_hostBusAndQspiCyclesEnd : ¬ Obligations.HostBusAndQspiCyclesEnd := by
  intro h
  obtain ⟨-, hwrite, -⟩ := h
  have hsaid := (hwrite allBuffersHeld 0 15 0 rfl rfl rfl rfl rfl (by decide)).1 (by decide) (by decide) (by decide)
  have hdone : exec (.hbWriteCycle 0 15 0 true) allBuffersHeld = .next (hbWriteCycle 0 15 0 true allBuffersHeld).after := bankOn_next rfl rfl rfl rfl
  have hsame := hsaid.symm.trans hdone
  injection hsame with hstate
  have hstrays := congrArg (fun u : State => u.cw.strays) hstate
  simp only [State.after_strays] at hstrays
  exact absurd hstrays (by decide)

end Sys2Proof.Machine
end

section
/-! Proofs for 15 (mailboxes and harbourmaster): the mailboxes' registers and the doorbells (R400 to R411). -/
namespace Sys2Proof.Machine

/-- MB_ARRIVAL reads the mailbox that arrived first. -/
theorem mbView_MB_ARRIVAL (u : State) : mbView u MB_ARRIVAL 0 = some (match u.arrival with | [] => 0 | m :: _ => w32 (m + 2 ^ 31)) := rfl

/-- Settles O49. -/
theorem mailboxesFillAndEmpty : Obligations.MailboxesFillAndEmpty := by
  refine ⟨fun s who m k w h => ?data, fun s who m w h => ?go, fun s who m w h hgo => ?release, fun s m hc hcore hx ht => ?lapsed,
    fun s m l h ha => ?arrival, fun s who w h hw => ?ringIn, fun s who w h => ?ringOut⟩
  case data => exact writeReg_next h (regAt_MB_DATA m k) rfl fun u => rfl
  case go =>
    refine writeReg_next h (regAt_MB_CTL m) rfl fun u => (?_ : mbHook who (MB_CTL 0) m _ u = _)
    simp (disch := decide) only [mbHook, Fld.get_put_of_lt, ne_eq, one_ne_zero, not_false_iff, if_true]
    rfl
  case release =>
    refine writeReg_next h (regAt_MB_CTL m) rfl fun u => (?_ : mbHook who (MB_CTL 0) m _ u = _)
    simp (disch := decide) only [mbHook, Fld.get_put_of_lt, Fld.get_put_other, hgo, ne_eq, one_ne_zero, not_true_eq_false, not_false_iff, if_true,
      if_false]
    rfl
  case lapsed => exact coreOn_next hc hcore (if_pos ⟨hx, ht⟩)
  case arrival =>
    have harr : (s.atRead .hm MB_ARRIVAL).arrival = m :: l := by
      rw [State.atRead_of_taken h]
      exact ha
    refine readReg_next h regAt_MB_ARRIVAL (by decide) (by decide) rfl rfl (v := (w32 (m + 2 ^ 31)).toNat) ?_ ?_
    · refine (?_ : ((mbView _ MB_ARRIVAL 0).getD _).toNat = _)
      rw [mbView_MB_ARRIVAL, harr]
      rfl
    · refine (if_pos ⟨rfl, rfl⟩ : mbRead .hm MB_ARRIVAL _ = _).trans ?_
      rw [harr]
      rfl
  case ringIn => exact writeReg_next h regAt_MB_DB_IN_SET rfl fun u => if_neg hw
  case ringOut => exact writeReg_next h regAt_MB_DB_OUT_SET rfl fun u => rfl

end Sys2Proof.Machine
end

section
/-! Proofs for 16 (the logbook): events, records, freezing and the commands of its registers (R431 to R438). -/
namespace Sys2Proof.Machine

variable {s : State}

/-! ## Writing the changed records -/

/-- Bytes stored: the memory and its marks. -/
theorem State.store_eq (s : State) (a : Nat) (bs : List Nat) : ∃ mem mm, s.store a bs = { s with mem := mem, mm := mm } := by
  have hbytes : ∃ mem, s.wrBytes a bs = { s with mem := mem } := by
    induction bs generalizing s a with
    | nil => exact ⟨_, rfl⟩
    | cons b bs ih =>
      obtain ⟨mem, h⟩ := ih (s.wr8 a b) (a + 1)
      exact ⟨mem, h⟩
  obtain ⟨mem, h⟩ := hbytes
  refine List.foldlRecOn (motive := fun u : State => ∃ mem mm, u = { s with mem := mem, mm := mm }) _ _ ⟨mem, s.mm, h⟩ ?_
  rintro t ⟨mem, mm, rfl⟩ l -
  exact ⟨_, _, rfl⟩

/-- A line of MRAM read for a merge: the marks of the memories and the registers. -/
theorem State.mramCorrect_eq (s : State) (l : Nat) : ∃ regs mm, s.mramCorrect l = { s with regs := regs, mm := mm } := by
  have hcount (a : Nat) : ∃ regs, s.count a = { s with regs := regs } := State.countN_eq s a 1 wholeReg
  have hcorr : ∃ regs, (if s.rst.chip then s else (s.count NVM_CORR_CNT).setB NVM_STATUS NVM_STATUS_CORR) = { s with regs := regs } := by
    obtain ⟨regs, h⟩ := hcount NVM_CORR_CNT
    split
    · exact ⟨_, rfl⟩
    · exact ⟨_, by rw [h]; rfl⟩
  obtain ⟨regs, hcorr⟩ := hcorr
  rw [State.mramCorrect]
  split
  · rw [hcorr]
    dsimp only
    split
    · exact ⟨_, _, rfl⟩
    · exact ⟨_, _, rfl⟩
  · split
    · obtain ⟨regs, h⟩ := hcount NVM_UNCORR_CNT
      exact ⟨_, _, by rw [h]; rfl⟩
    · exact ⟨_, _, rfl⟩

/-- Bytes written to MRAM: the memory, the marks of the memories and the registers. -/
theorem State.mramStore_eq (s : State) (a : Nat) (bs : List Nat) :
    ∃ regs mem mm, s.mramStore a bs = { s with regs := regs, mem := mem, mm := mm } := by
  have hmerge (l : List Nat) : ∃ regs mm, l.foldl State.mramCorrect s = { s with regs := regs, mm := mm } := by
    refine List.foldlRecOn (motive := fun u : State => ∃ regs mm, u = { s with regs := regs, mm := mm }) _ _ ⟨_, _, rfl⟩ ?_
    rintro t ⟨regs, mm, rfl⟩ i -
    obtain ⟨regs', mm', h⟩ := State.mramCorrect_eq { s with regs := regs, mm := mm } i
    exact ⟨regs', mm', h⟩
  rw [State.mramStore]
  split
  · exact ⟨_, _, _, rfl⟩
  · dsimp only
    split
    · obtain ⟨mem, mm, h⟩ := s.store_eq a bs
      exact ⟨_, mem, mm, h⟩
    · obtain ⟨regs, mm, hm⟩ := hmerge ((linesOf a bs.length).filter fun l => !(wholeLines a bs.length).contains l)
      rw [hm]
      obtain ⟨mem, mm', h⟩ := State.store_eq { s with regs := regs, mm := mm } a bs
      exact ⟨regs, mem, mm', h⟩

/-- One record written is no longer to be written; VIN stays as it is. -/
theorem State.writeRecord_dirty (hv : s.rst.vinBad = false) (c : Nat) :
    (s.writeRecord c).log.dirty = nerase c s.log.dirty ∧ (s.writeRecord c).rst.vinBad = false := by
  rw [State.writeRecord, hv, if_neg Bool.false_ne_true]
  obtain ⟨regs, mem, mm, h1⟩ := s.mramStore_eq (recAddrA c) ((s.work c).flatMap (leBytes 4) ++ leBytes 4 (crc32 ((s.work c).flatMap (leBytes 4))) ++ [0, 0, 0, 0])
  obtain ⟨regs', mem', mm', h2⟩ := State.mramStore_eq { s with regs := regs, mem := mem, mm := mm } (recAddrB c)
    ((s.work c).flatMap (leBytes 4) ++ leBytes 4 (crc32 ((s.work c).flatMap (leBytes 4))) ++ [0, 0, 0, 0])
  rw [h1, h2]
  exact ⟨rfl, hv⟩

/-- The records of a list written are no longer to be written. -/
theorem foldl_writeRecord_dirty (l : List Nat) (hv : s.rst.vinBad = false) :
    (l.foldl State.writeRecord s).log.dirty = s.log.dirty.filter fun j => !l.contains j := by
  induction l generalizing s with
  | nil => simp
  | cons c l ih =>
    obtain ⟨hd, hv'⟩ := State.writeRecord_dirty hv c
    rw [List.foldl_cons, ih hv', hd, nerase, List.filter_filter]
    refine List.filter_congr fun j _ => ?_
    rw [List.contains_cons, Bool.not_or, Bool.and_comm]
    rfl

/-- While VIN is valid every changed record is written. -/
theorem State.writeDirty_dirty (hv : s.rst.vinBad = false) : s.writeDirty.log.dirty = [] := by
  rw [State.writeDirty, foldl_writeRecord_dirty _ hv]
  exact List.filter_eq_nil_iff.mpr fun j hj => by simp [hj]

/-- While it is not, none is. -/
theorem State.writeDirty_vinBad (hv : s.rst.vinBad = true) : s.writeDirty = s := by
  have hone (c : Nat) : s.writeRecord c = s := if_pos hv
  refine List.foldlRecOn (motive := fun u => u = s) s.log.dirty _ rfl ?_
  rintro t rfl c -
  exact hone c

/-- Settles O50. -/
theorem logbookRecordsAndFreezes : Obligations.LogbookRecordsAndFreezes := by
  refine ⟨fun s who w h => ?event, fun s c hc hv hd => ?record, fun s c hc hw => ?window, fun s who w h => ?freeze,
    fun s hc hz hf => ⟨fun hv => ?frozen, fun hv hd => ?waits⟩, fun s hc hz => ?staged, fun s who w h => ?read, fun s who w h => ?config,
    fun s who w h => ?clear, fun s hc => ?opEnd, fun s hl hv => ?save, fun s hl hv => ?second⟩
  case event => exact writeReg_next h regAt_LOG_EVENT rfl fun u => rfl
  case record => exact chipOn_next hc ((if_pos hd).trans (if_neg (Bool.eq_false_iff.mp hv)))
  case window =>
    refine chipOn_next hc (if_neg ?_)
    cases hx : s.bwOpen c.toNat with
    | none => exact Bool.false_ne_true
    | some x =>
      have hend : s.bwMayEnd x = true := decide_eq_true (hw x hx)
      rw [Option.any_some, hend]
      exact Bool.false_ne_true
  case freeze => exact writeReg_next h regAt_LOG_CTL rfl fun u => rfl
  case frozen =>
    have hd : s.writeDirty.log.dirty = [] := by
      cases hb : s.rst.vinBad with
      | true => rw [State.writeDirty_vinBad hb, hv.resolve_left (by simp [hb])]
      | false => exact State.writeDirty_dirty hb
    refine chipOn_next hc ((if_pos ⟨hz, by rw [hf]; rfl⟩).trans ((if_pos (by rw [hd]; rfl)).trans ?_))
    refine congrArg (fun u : State => (u.setB LOG_CTL LOG_CTL_FROZEN).lhDone) ?_
    cases hb : s.rst.vinBad with
    | true => exact State.writeDirty_vinBad hb
    | false => exact congrArg (fun d => ({ s.writeDirty with log := { s.writeDirty.log with dirty := d } } : State)) hd
  case waits =>
    refine chipOn_next hc ((if_pos ⟨hz, by rw [hf]; rfl⟩).trans ?_)
    rw [State.writeDirty_vinBad hv]
    exact if_neg (by rw [List.isEmpty_iff]; exact hd)
  case staged => exact chipOn_next hc (if_neg (Bool.eq_false_iff.mp hz))
  case read =>
    refine writeReg_next h regAt_LOG_CMD rfl fun u => (?_ : u.logCmd _ = _)
    simp (disch := decide) only [State.logCmd, Fld.get_put_of_lt]
  case config =>
    refine writeReg_next h regAt_LOG_CMD rfl fun u => (?_ : u.logCmd _ = _)
    simp (disch := decide) only [State.logCmd, Fld.get_put_of_lt]
  case clear =>
    refine writeReg_next h regAt_LOG_CMD rfl fun u => (?_ : u.logCmd _ = _)
    simp (disch := decide) only [State.logCmd, Fld.get_put_of_lt]
  case opEnd => exact chipOn_next hc rfl
  case save => exact powerOn_next hl (if_neg (by simp [hl, hv]))
  case second => exact powerOn_next hl (if_neg (by simp [hl, hv]))

end Sys2Proof.Machine
end

section
/-! Proofs for 16 (the lighthouse and its port): the record of resets and supplies, which recorded events and safe state leave alone; safe state,
watchdogs and the requests of the port (R440 to R447). -/
namespace Sys2Proof.Machine

variable {s : State}

/-! ## What leaves the record of resets and supplies alone -/

/-- What each step of a fold leaves alone, the fold does. -/
theorem foldl_rst {α : Type} {f : State → α → State} (h : ∀ u x, (f u x).rst = u.rst) (l : List α) (s : State) : (l.foldl f s).rst = s.rst :=
  List.foldlRecOn (motive := fun u : State => u.rst = s.rst) l f rfl fun u hu x _ => (h u x).trans hu

/-- What both branches of a choice leave alone, the choice does. -/
theorem ite_rst {p : Prop} [Decidable p] {t u : State} {r : RstSt} (ht : t.rst = r) (hu : u.rst = r) : (if p then t else u).rst = r := by
  split
  · exact ht
  · exact hu

@[simp] theorem State.setIf_rst (s : State) (c : Bool) (a : Nat) (f : Fld) : (s.setIf c a f).rst = s.rst := by
  rw [State.setIf]
  split <;> rfl

@[simp] theorem State.countN_rst (s : State) (a n : Nat) (f : Fld) : (s.countN a f n).rst = s.rst := by
  obtain ⟨regs, h⟩ := s.countN_eq a n f
  rw [h]

@[simp] theorem State.count_rst (s : State) (a : Nat) : (s.count a).rst = s.rst := State.countN_rst s a 1 wholeReg

@[simp] theorem State.mramRead_rst (s : State) (a n : Nat) : (s.mramRead a n).rst = s.rst := by
  rw [State.mramRead]
  split
  · rfl
  · refine foldl_rst (fun u l => ?_) _ s
    obtain ⟨regs, mm, h⟩ := u.mramCorrect_eq l
    rw [h]

@[simp] theorem State.recFetch_rst (s : State) (c : Nat) : (s.recFetch c).rst = s.rst :=
  ite_rst (State.mramRead_rst ..) ((State.mramRead_rst ..).trans (State.mramRead_rst ..))

@[simp] theorem State.loadRec_rst (s : State) (c : Nat) : (s.loadRec c).rst = s.rst :=
  ite_rst ((State.setIf_rst ..).trans (ite_rst (State.recFetch_rst s c) (State.recFetch_rst s c))) rfl

@[simp] theorem State.breakwater_rst (s : State) (c : Nat) : (s.breakwater c).2.rst = s.rst := by
  rw [State.breakwater]
  split
  · split <;> rfl
  · split <;> rfl

@[simp] theorem State.recCount_rst (s : State) (c i : Nat) : (s.recCount c i).rst = s.rst := ite_rst rfl (ite_rst rfl rfl)

theorem State.markDirty_rst (s : State) (c : Nat) : (s.markDirty c).rst = s.rst := rfl

theorem State.recPut_rst (s : State) (c i v : Nat) : (s.recPut c i v).rst = s.rst := rfl

theorem State.recordEvent_rst (s : State) (c v sec pcc : Nat) : (s.recordEvent c v sec pcc).rst = s.rst := by
  rw [State.recordEvent]
  rw [State.markDirty_rst, State.recCount_rst, State.recPut_rst, State.recPut_rst, State.recPut_rst, State.recPut_rst]
  exact ite_rst (State.recCount_rst s c 0) (State.recCount_rst s c 0)

@[simp] theorem State.applyEvent_rst (s : State) (e : Staged) : (s.applyEvent e).rst = s.rst :=
  ite_rst (State.recCount_rst s e.code 6) (State.recordEvent_rst ..)

@[simp] theorem State.applyStaged_rst (s : State) : s.applyStaged.rst = s.rst := foldl_rst State.applyEvent_rst s.log.staged _

/-- An event recorded. -/
@[simp] theorem State.logEv_rst (s : State) (c v : Nat) : (s.logEv c v).rst = s.rst := by
  have hin : ((s.loadRec c).breakwater c).2.rst = s.rst := (State.breakwater_rst _ c).trans (State.loadRec_rst s c)
  have hset := (State.setIf_rst _ (!((s.loadRec c).breakwater c).1) LOG_STATUS LOG_STATUS_SUPPRESSED).trans hin
  exact ite_rst (ite_rst hset ((State.count_rst ..).trans hset)) ((State.applyEvent_rst ..).trans ((State.applyStaged_rst _).trans hset))

/-! ## Safe state -/

theorem State.stallEnd_rst (s : State) (n : Nat) : (s.stallEnd n).rst = s.rst := ite_rst rfl rfl

theorem State.chopOff_rst (s : State) (n : Nat) : (s.chopOff n).rst = s.rst := ite_rst rfl rfl

theorem State.chopSafe_rst (s : State) (n : Nat) : (s.chopSafe n).rst = s.rst := State.chopOff_rst _ n

theorem State.axFault_rst (s : State) (n : Nat) : (s.axFault n).rst = s.rst := (State.stallEnd_rst _ n).trans (State.chopOff_rst _ n)

theorem State.axSafe_rst (s : State) (n : Nat) : (s.axSafe n).rst = s.rst := by
  rw [State.axSafe]
  split
  · exact State.stallEnd_rst _ n
  · exact (State.axFault_rst _ n).trans (ite_rst rfl rfl)

theorem State.grpDropSets_rst (s : State) (g : Nat) : (s.grpDropSets g).rst = s.rst := by
  rw [State.grpDropSets]
  refine ite_rst rfl ?_
  exact foldl_rst (f := fun u n => u.setAx n { u.axOf n with spNew := none }) (fun _ _ => rfl) _ _

theorem State.grpSafe_rst (s : State) (g : Nat) : (s.grpSafe g).rst = s.rst := ite_rst (State.grpDropSets_rst _ g) rfl

theorem State.trigSafe_rst (s : State) (n : Nat) : (s.trigSafe n).rst = s.rst := ite_rst rfl rfl

@[simp] theorem State.pilotIllegal_rst (n : Nat) (parity : Bool) (s : State) : (pilotIllegal n parity s).rst = s.rst := by
  have hp : (if parity then s.setPset (n / 4) { s.psetOf (n / 4) with bad := ninsert (s.pilotOf n).pc (s.psetOf (n / 4)).bad } else s).rst = s.rst :=
    ite_rst rfl rfl
  exact ite_rst rfl (ite_rst ((State.logEv_rst ..).trans hp) (ite_rst hp hp))

theorem State.pilotStop_rst (s : State) (n : Nat) : (s.pilotStop n).rst = s.rst :=
  ite_rst rfl (ite_rst (State.pilotIllegal_rst n false s) rfl)

theorem State.pilotSafe_rst (s : State) (n : Nat) : (s.pilotSafe n).rst = s.rst := ite_rst (State.pilotStop_rst s n) rfl

/-- What safe state does to the blocks. -/
theorem State.safeBlocks_rst (s : State) : s.safeBlocks.rst = s.rst := by
  rw [State.safeBlocks]
  simp only [State.forN, foldl_rst State.chopSafe_rst, foldl_rst State.axSafe_rst, foldl_rst State.grpSafe_rst, foldl_rst State.trigSafe_rst,
    foldl_rst State.pilotSafe_rst]

/-- A source of safe state. -/
theorem State.safeSource_rst (s : State) (k : Nat) : (s.safeSource k).rst = s.rst := ite_rst rfl rfl

/-! ## The port -/

/-- A frame is good as R446 says. -/
theorem lhFrameGood_iff (n : Nat) (b : List Nat) : lhFrameGood n b = true ↔ n = 64 ∧ crc8 (b.take 7) = b.getD 7 0 := by
  simp [lhFrameGood]

/-- The command codes of R447. -/
theorem lhKnown_iff (c : Nat) : lhKnown c = true ↔ c ≤ 4 ∨ (0x10 ≤ c ∧ c ≤ 0x12) ∨ (0x20 ≤ c ∧ c ≤ 0x22) := by
  simp [lhKnown, or_assoc]

/-- A request that comes while none is in progress, with ADDR and DATA as its row requires, is accepted (R446). -/
theorem State.lhRequest_accepts (hl : s.rst.lhOff = false) (hb : s.rst.banks.contains 7 = false) (hi : s.lh.busy = false) (c : Nat)
    (f : State → State × Nat × Nat) :
    s.lhRequest c true f =
      (s.modLh fun l => { l with miso := l.resp.bytes }).lhAccept c (f (s.modLh fun l => { l with miso := l.resp.bytes })) := by
  have hout : s.lhOut = s.modLh fun l => { l with miso := l.resp.bytes } := by simp [State.lhOut, State.modLh, hi]
  have hbusy : (s.modLh fun l => { l with miso := l.resp.bytes }).lh.busy = false := hi
  simp only [State.lhRequest, hl, hb, Bool.or_self, Bool.false_eq_true, if_false, hout, hbusy, if_true]

/-- Settles O51. -/
theorem lighthouseAndItsPortAct : Obligations.LighthouseAndItsPortAct := by
  refine ⟨fun s hl hb => ⟨fun hs => ?safeLow, ?safeHigh⟩, fun s who w h hr => ?safeReq, fun s who w h hs => ?release, fun s hl hc hd hs => ?enters,
    fun s hl hd hs => ?leaves, fun s k hl ha ht hr hd => ?expires, fun s who w h => ?kick, fun s on hl => powerOn_next hl rfl,
    fun s hl hz hb => ?timeout, fun s hl hb => ?refused, fun s0 hl hb hi => ?requests⟩
  case safeLow =>
    refine powerOn_next hl ((if_neg (Bool.eq_false_iff.mp hl)).trans (if_pos ⟨rfl, ?_⟩))
    rw [hs]
    rfl
  case safeHigh =>
    refine powerOn_next hl ?_
    simp only [lhSafen, hl, hb, Bool.or_self, Bool.false_eq_true, if_false, false_and]
  case safeReq =>
    refine writeReg_next h regAt_LH_CTL rfl fun u => (?_ : lhHook LH_CTL 0 _ _ u = _)
    simp (disch := decide) only [lhHook, Fld.get_put_of_lt, Fld.get_put_other, hr, ne_eq, one_ne_zero, not_true_eq_false, not_false_iff, if_true,
      false_and, if_false]
    rfl
  case release =>
    refine writeReg_next h regAt_LH_CTL rfl fun u => (?_ : lhHook LH_CTL 0 _ _ u = _)
    simp (disch := decide) only [lhHook, Fld.get_put_of_lt, Fld.get_put_other, hs, ne_eq, one_ne_zero, not_true_eq_false, not_false_iff, if_true,
      true_and, if_false]
    rfl
  case enters =>
    refine powerOn_next hl ((if_pos ⟨hd, by rw [hs]; rfl⟩).trans ?_)
    have hset : (((s.setB LH_STATE LH_STATE_SAFE).modLh fun l => { l with srcs := [] } : State)).rst.chip = false := hc
    have hin := congrArg RstSt.chip ((foldl_rst State.safeSource_rst s.lh.srcs _).trans
      (State.safeBlocks_rst ((s.setB LH_STATE LH_STATE_SAFE).modLh fun l => { l with srcs := [] })))
    rw [hset] at hin
    simp only [hset, State.lhEv, Bool.false_eq_true, if_false, hin]
    rfl
  case leaves => exact powerOn_next hl (if_pos ⟨hs, by rw [hd]; rfl⟩)
  case expires =>
    refine powerOn_next hl ?_
    simp only [lhWatchdogExpiry, ha, ht, hr, hd, one_ne_zero, Bool.not_true, Bool.false_eq_true, or_self, if_false]
    rfl
  case kick => exact writeReg_next h regAt_LH_KICK rfl fun u => rfl
  case timeout => exact powerOn_next hl ((if_pos ⟨hz, hb⟩).trans (if_pos hb))
  case refused =>
    intro u f b good c
    have hon : (s.rst.lhOff || s.rst.banks.contains 7) = false := by rw [hl, hb]; rfl
    refine ⟨fun hg => powerOn_next hl ?_, fun hg hi => powerOn_next hl ?_, fun hg hi hk => powerOn_next hl ?_⟩
    · have hbad : lhFrameGood f.clocks b = false := Bool.eq_false_iff.mpr fun h => hg ((lhFrameGood_iff ..).mp h)
      exact (if_neg (Bool.eq_false_iff.mp hon)).trans (if_pos (by rw [hbad]; rfl))
    · have hgood : lhFrameGood f.clocks (f.bytes.map BitVec.toNat) = true := (lhFrameGood_iff ..).mpr hg
      have hbusy : s.lhOut.lh.busy = true := hi
      simp only [lhFrameRefused, hon, hgood, hi, Bool.not_true, Bool.and_false, Bool.false_eq_true, if_false, State.lhRequest, hbusy, if_true]
      rfl
    · have hgood : lhFrameGood f.clocks (f.bytes.map BitVec.toNat) = true := (lhFrameGood_iff ..).mpr hg
      have hnew : lhKnown ((f.bytes.map BitVec.toNat).getD 0 0) = false := Bool.eq_false_iff.mpr fun h => hk ((lhKnown_iff c).mp h)
      have hidle : s.lhOut.lh.busy = false := hi
      simp only [lhFrameRefused, hon, hgood, hnew, Bool.not_true, Bool.false_and, Bool.false_eq_true, if_false, State.lhRequest, hidle]
      rfl
  case requests =>
    intro s
    have hask (c : Nat) (f : State → State × Nat × Nat) : s0.lhRequest c true f = s.lhAccept c (f s) := State.lhRequest_accepts hl hb hi c f
    clear_value s
    refine ⟨powerOn_next hl (hask _ _), fun a ha => powerOn_next hl ((hask _ _).trans ?readLh), fun a d ha hc t ht => powerOn_next hl ((hask _ _).trans ?writeLh),
      fun a d ha hc t ht => powerOn_next hl ((hask _ _).trans ?writeLhHeld), fun a ha t v ht => powerOn_next hl ((hask _ _).trans ?readMb),
      fun a d ha t ht => powerOn_next hl ((hask _ _).trans ?writeMb), powerOn_next hl (hask _ _), powerOn_next hl (hask _ _),
      powerOn_next hl (hask _ _), powerOn_next hl (hask _ _), powerOn_next hl (hask _ _), fun a ha => powerOn_next hl ((hask _ _).trans ?logRead)⟩
    case readLh =>
      simp only [ha, Bool.not_true, Bool.false_eq_true, if_false]
      rfl
    case writeLh =>
      simp only [ha, Bool.not_true, Bool.false_eq_true, if_false, ht, hc]
      rfl
    case writeLhHeld =>
      simp only [ha, Bool.not_true, Bool.false_eq_true, if_false, if_true, ht, hc]
      rfl
    case readMb =>
      simp only [ha, Bool.not_true, Bool.false_eq_true, if_false, ht]
      rfl
    case writeMb =>
      simp only [ha, Bool.not_true, Bool.false_eq_true, if_false, ht]
      rfl
    case logRead =>
      rw [if_neg (Nat.not_lt.mpr ha)]
      rfl

end Sys2Proof.Machine
end

section
/-! Proofs for 16 (link tests and the debug port): the checkers of the links (R449 to R452), the TAP and its accesses (R453 to R456). -/
namespace Sys2Proof.Machine

variable {s : State}

/-! ## Link tests -/

/-- A link is taken by its generator or its checker. -/
theorem linkTaken_iff (w : Word) : linkTaken w = true ↔ TEST_LINK_CTL_GEN.get w ≠ 0 ∨ TEST_LINK_CTL_CHK.get w ≠ 0 := by
  simp [linkTaken]

/-- It is taken by neither. -/
theorem not_linkTaken_iff (w : Word) : (!linkTaken w) = true ↔ ¬(TEST_LINK_CTL_GEN.get w ≠ 0 ∨ TEST_LINK_CTL_CHK.get w ≠ 0) := by
  rw [← linkTaken_iff, Bool.not_eq_true', Bool.not_eq_true]

/-- Wrong bits on a locked lane of a link that does not loop (R451). -/
theorem laneErr_locked {l k n : Nat} (hon : s.laneOn l k = true) (hk : s.laneLocked l k = true)
    (hl : s.bit (TEST_LINK_CTL l) TEST_LINK_CTL_LOOP = false) :
    laneErr l k n s = if n = 0 then s else
      let u := s.countN (TEST_LINK_ERR l) wholeReg n
      u.putF (TEST_LINK_STATE l) TEST_LINK_STATE_LANE_ERR (withBit (u.fld (TEST_LINK_STATE l) TEST_LINK_STATE_LANE_ERR) k true) := by
  have hl : s.linkLoops l = false := hl
  by_cases hn : n = 0
  · rw [if_pos hn]
    exact if_neg fun h => h.2.2.2 hn
  · rw [if_neg hn]
    exact if_pos ⟨hon, hk, by rw [hl]; rfl, hn⟩

/-! ## The debug port -/

/-- While no access of the debug port is in progress, one is made as its operation says (R455). -/
theorem accessUpdate_idle (hi : s.tap.ir = .debug) (hb : s.tapBusy = false) (op z a d : Nat) :
    accessUpdate op z a d s =
      if op = 0 then s.tapScan 104
      else
        let t := (s.tapScan 104).modTap fun t => { t with addr := a }
        if op = 3 then t.modTap fun t => { t with result := 3 }
        else
          let r := (t.setB DBG_STATUS DBG_STATUS_USED).accessOp .debug a (if op = 1 then .read (2 ^ z) else .write (2 ^ z) (BitVec.ofNat 128 d)) 0
          State.tapEnd (State.record .debug a r, r.2) := by
  have hb : (s.tapScan 104).tapBusy = false := hb
  simp only [accessUpdate, hi, ne_eq, not_true_eq_false, if_false, hb, Bool.false_eq_true, false_or]

/-- Settles O52. -/
theorem linkTestsAndDebugPortAct : Obligations.LinkTestsAndDebugPortAct := by
  refine ⟨fun s who l w h => ?control, fun s l k hc hon hs => ?locked, fun s l k n hc hon hk hl hn => ?wrong, fun s l k n hc hon hk hl => ?lost,
    fun s hl hb => ?tap, fun s z a d hl hb hi hbusy => ?access, fun s w h => ?resetChip, fun s w h hchip => ?resetCore⟩
  case control =>
    refine writeReg_next h (regAt_TEST_LINK_CTL l) rfl fun u => (?_ : u.linkCtl l _ _ = _)
    simp only [State.linkCtl, linkTaken_iff, not_linkTaken_iff]
    rfl
  case locked =>
    refine chipOn_next hc (if_pos ⟨hon, hs.imp (fun hl => ?_) id⟩)
    rw [State.linkLoops, hl]
    rfl
  case wrong => exact chipOn_next hc ((laneErr_locked hon hk hl).trans (if_neg hn))
  case lost =>
    have hl' : s.linkLoops l = false := hl
    refine chipOn_next hc ((if_pos ⟨hon, hk, by rw [hl']; rfl⟩).trans ?_)
    rw [laneErr_locked hon hk hl]
  case tap =>
    have hselect (c n : Nat) : tapOn (fun u => u.tapSelect c n) s = .next (s.tapSelect c n).after := tapOn_next (f := fun u => u.tapSelect c n) hl hb rfl
    refine ⟨tapOn_next hl hb ?_, hselect 0x00 _, hselect 0x01 _, hselect 0x3F _, hselect 0x04 _, hselect 0x05 _, hselect 0x06 _, hselect 0x07 _,
      tapOn_next (f := fun u => u.tapLoad 0x20) hl hb rfl, fun l => tapOn_next hl hb rfl⟩
    rw [tapReset, State.modTap]
    simp only [TapCtl.walk_reset]
  case access =>
    exact ⟨tapOn_next hl hb (accessUpdate_idle hi hbusy ..), tapOn_next hl hb (accessUpdate_idle hi hbusy ..),
      tapOn_next hl hb (accessUpdate_idle hi hbusy ..), tapOn_next hl hb (accessUpdate_idle hi hbusy ..)⟩
  case resetChip =>
    refine writeReg_next h regAt_SYS_RESET rfl fun u => (?_ : sysHook SYS_RESET _ _ u = _)
    simp (disch := decide) only [sysHook, Fld.get_put_of_lt, ne_eq, one_ne_zero, not_false_iff, if_true]
    rfl
  case resetCore =>
    refine writeReg_next h regAt_SYS_RESET rfl fun u => (?_ : sysHook SYS_RESET _ _ u = _)
    simp (disch := decide) only [sysHook, Fld.get_put_of_lt, Fld.get_put_other, hchip, ne_eq, one_ne_zero, not_true_eq_false, not_false_iff, if_true,
      if_false]
    rfl

end Sys2Proof.Machine
end

section
/-! Proofs for 17 (power, clocks, reset and start-up): supplies, pin banks and clocks (R461 to R470, R474). -/
namespace Sys2Proof.Machine

variable {s : State}

/-- The lighthouse gaining power leaves the record of resets and supplies. -/
theorem State.lhPowerUp_rst (s : State) : s.lhPowerUp.rst = s.rst := State.count_rst ..

/-- A bank that goes down, of those that were up (R463, R500). -/
theorem bankDown_goes {b : Nat} (h : s.rst.banks.contains b = false) :
    bankDown b false s =
      let u := (s.modRst fun r => { r with banks := ninsert b r.banks }).setIf (!s.rst.chip) SYS_STATUS SYS_STATUS_BANK_DOWN
      if b = 7 then resetn true (lhSafen true (tapReset u)) else if b = 6 then pcieInterfaceReset .perstnLow u else u := by
  rw [bankDown, if_neg Bool.false_ne_true, h, if_neg Bool.false_ne_true]
  rfl

/-- Settles O53. -/
theorem suppliesAndClocksAct : Obligations.SuppliesAndClocksAct := by
  refine ⟨fun s => ?valid, fun s => ⟨anyTime_next rfl, anyTime_next rfl⟩, fun s hv => ?rail,
    fun s b => ⟨anyTime_next rfl, fun hb => ?stays, fun hb => ⟨fun h => ?small, fun h => ?perst, fun h => ?lighthouse⟩⟩, fun s => anyTime_next rfl,
    fun s hc h => chipOn_next hc (if_pos h), fun s hc h => chipOn_next hc (if_pos h), fun s who w h => ?source, fun s hc h => ?locks,
    fun s => ⟨fun h => ?resetLow, fun h => ?resetHigh⟩⟩
  case valid =>
    intro u hb
    have hbanks : (u.lhPowerUp.modRst fun r => { r with lhOff := false }).rst.banks.contains 7 = false := by
      rw [State.modRst, State.lhPowerUp_rst]
      exact hb
    refine anyTime_next ?_
    simp only [vinValid, u] at hbanks ⊢
    rw [hbanks]
    rfl
  case rail => exact anyTime_next (if_neg (Bool.eq_false_iff.mp hv))
  case stays => exact anyTime_next ((if_neg Bool.false_ne_true).trans (if_pos hb))
  case small =>
    refine anyTime_next ((bankDown_goes hb).trans ?_)
    rw [if_neg (by omega), if_neg (by omega)]
  case perst =>
    refine anyTime_next ((bankDown_goes hb).trans ?_)
    rw [if_neg (by omega), if_pos h]
  case lighthouse =>
    refine anyTime_next ((bankDown_goes hb).trans ?_)
    rw [if_pos h]
  case source => exact writeReg_next h regAt_SYS_CLK_CFG rfl fun u => rfl
  case locks =>
    refine chipOn_next hc (if_neg fun hno => ?_)
    obtain ⟨hsrc, hfell, hbank⟩ := hno
    rcases h with h | h | h
    · exact hsrc h
    · rw [h] at hfell
      exact Bool.false_ne_true hfell
    · exact Bool.eq_false_iff.mp h hbank
  case resetLow => exact anyTime_next (if_pos ⟨rfl, by rw [h]; rfl⟩)
  case resetHigh =>
    refine anyTime_next ?_
    rw [resetn, if_neg (by simp), if_neg Bool.false_ne_true, h, if_neg Bool.false_ne_true]

end Sys2Proof.Machine
end

section
/-! Proofs for 17 (power, clocks, reset and start-up): the resets, the boot ROM and the muster (R471 to R494). -/
namespace Sys2Proof.Machine

variable {s : State}

/-! ## What the harbourmaster's own code does -/

/-- While no locked sequence is in progress on the host bus, the harbourmaster's code waits for none. -/
theorem State.fwWaits_of_unlocked (h : s.cw.lock = none) (f : State → State) : s.fwWaits f = false := by
  rw [State.fwWaits, h]
  rfl

/-- A command of the harbourmaster's code, outside a reset and a locked sequence. -/
theorem fwOn_next {f : State → State} {t : State} (h : s.rst.chip = false) (hc : s.rst.core = false) (hl : s.cw.lock = none) (ht : f s = t) :
    fwOn f s = .next t.after :=
  coreOn_next (f := fun u => if u.fwWaits f then u else f u) h hc ((if_neg (Bool.eq_false_iff.mp (State.fwWaits_of_unlocked hl f))).trans ht)

/-- It then goes to PIM without waiting. -/
theorem State.fwTouch_of_unlocked (h : s.cw.lock = none) : s.fwTouch = s := by
  have hout : s.lockedOut .hm 0x10000000 = false := by
    rw [State.lockedOut, h]
  exact if_neg (Bool.eq_false_iff.mp hout)

/-- A new session leaves the causeway. -/
theorem State.newSession_cw (s : State) (n : Nat) : (s.newSession n).cw = s.cw := by
  rw [State.newSession]
  split <;> rfl

/-! ## A CORE reset -/

/-- What initiators that are reset had asked for is forgotten, but for requests already on their way out. -/
theorem State.forget_splits (s : State) (p : WaitAcc → Bool) :
    s.forget p = { s with cw := { s.cw with
      waits := s.cw.waits.filter (fun x => !p x), strays := s.cw.strays ++ s.cw.waits.filter (fun x => p x && x.strays) } } := by
  rw [State.forget]
  split
  next => rfl
  next h =>
    have hno : ∀ x ∈ s.cw.waits, p x = false := fun x hx => Bool.eq_false_iff.mpr fun hp => h (List.any_eq_true.mpr ⟨x, hx, hp⟩)
    have hkeep : s.cw.waits.filter (fun x => !p x) = s.cw.waits := List.filter_eq_self.mpr fun x hx => by rw [hno x hx]; rfl
    have hdrop : s.cw.waits.filter (fun x => p x && x.strays) = [] := List.filter_eq_nil_iff.mpr fun x hx => by rw [hno x hx]; exact Bool.false_ne_true
    rw [hkeep, hdrop, List.append_nil]

/-! ## The muster -/

section
variable {u : State} {q : Nat} {b : List Nat} {f : MFrame} (hu : s.modMuster (fun x => { x with sent := [] }) = u) (hm : u.mframe b = some f)
  (hp : u.musterPort q = true) (ha : u.adoptedIs f = true)
include hu hm hp ha

/-- A count of the originator that a locked node has adopted (R488). -/
theorem musterCount_locked (ht : f.type = 1) (hl : u.musterLocked = true) (hq : q = u.upstream) : musterCount q b s = u.countOn q b f.flags := by
  simp only [musterCount, hu, hm, ht, hp, hl, ha, ← hq, ne_eq, not_true_eq_false, Bool.not_true, Bool.false_eq_true, or_self, if_false, and_self,
    if_true]

/-- A block of the image (R490). -/
theorem musterBlock_takes (ht : f.type = 2) (hq : q = u.upstream) (hlock : s.cw.lock = none) :
    musterBlock q b s =
      let v := (u.setB SYS_NODE_ADDR SYS_NODE_ADDR_LOCKED).newSession f.session
      let v := if v.hm.muster.failed then v else v.hmStage .muster stDOWNLOAD
      let v := (v.store (0x10000000 + f.index * 1024) (f.data.take f.span)).modMuster fun x => { x with blocks := tput (fun _ => 0) x.blocks f.index f.span }
      v.musterSend (otherPort q) (v.fromHere b) := by
  have hcw : ((u.setB SYS_NODE_ADDR SYS_NODE_ADDR_LOCKED).newSession f.session).cw.lock = none := by
    rw [State.newSession_cw, ← hu]
    exact hlock
  have htouch : (if ((u.setB SYS_NODE_ADDR SYS_NODE_ADDR_LOCKED).newSession f.session).hm.muster.failed then
      (u.setB SYS_NODE_ADDR SYS_NODE_ADDR_LOCKED).newSession f.session
      else ((u.setB SYS_NODE_ADDR SYS_NODE_ADDR_LOCKED).newSession f.session).hmStage .muster stDOWNLOAD).cw.lock = none := by
    split
    · exact hcw
    · exact hcw
  simp only [musterBlock, hu, hm, ht, hp, ha, ← hq, ne_eq, not_true_eq_false, Bool.not_true, Bool.false_eq_true, or_self, if_false,
    State.fwTouch_of_unlocked htouch]

/-- The end of an image that is whole and good (R491). -/
theorem musterDone_good (ht : f.type = 3) (hq : q = u.upstream) (hlock : s.cw.lock = none) {v w r : State}
    (hv : (u.musterSend (otherPort q) (u.fromHere b)).newSession f.session = v) (hw : v.modMuster (fun x => { x with dones := x.dones + 1 }) = w)
    (hr : w.eccRead 0x10000000 (beAt f.data 4 4) = r) (hf : v.hm.muster.failed = false) (hs : v.hm.start = none)
    (hheld : ∀ i, i < f.index → w.blockHeld i = true) (hlen : beAt f.data 4 4 ≤ f.index * 1024)
    (hpoison : r.poisonedN 0x10000000 (beAt f.data 4 4) = false) (hcrc : crc32 (r.rdBytes 0x10000000 (beAt f.data 4 4)) = beAt f.data 0 4) :
    musterDone q b s = (r.musterSend q (r.requestFrame f 0 0 fun i => decide (i < f.index) && !w.blockHeld i)).modHm fun x =>
      { x with start := some ([], 0, beAt f.data 4 4) } := by
  have htouch : w.fwTouch = w := by
    refine State.fwTouch_of_unlocked ?_
    have hcw : w.cw = s.cw := by
      rw [← hw, ← hv, ← hu]
      exact State.newSession_cw ..
    rw [hcw, hlock]
  have hall : (List.range f.index).find? (fun i => decide (i < f.index) && !w.blockHeld i) = none := by
    refine List.find?_eq_none.mpr fun i hi => ?_
    rw [hheld i (List.mem_range.mp hi)]
    simp
  simp only [musterDone, hu, hm, ht, hp, ha, ← hq, hv, hw, hf, hs, hall, htouch, hr, hlen, hpoison, hcrc, ne_eq, not_true_eq_false, Bool.not_true,
    Bool.false_eq_true, or_self, if_false, Option.isSome_none, Bool.not_false, and_self, if_true]

/-- A request from below goes up (R492). -/
theorem musterRequest_goesUp (ht : f.type = 4) (hq : q ≠ u.upstream) : musterRequest q b s = u.musterSend u.upstream b := by
  simp only [musterRequest, hu, hm, ht, hp, ha, hq, ne_eq, not_true_eq_false, Bool.not_true, Bool.false_eq_true, or_self, if_false]

end

/-- How autoload goes on when the slots that it applies have ended in one way (R485, R486). -/
def State.autoloadAfter (s : State) : LoadEnd → State
  | .waits => s
  | .failed v => ((s.logEv 0x80 v).ringOut 16).modHm fun h => { h with loaded := true }
  | .done => (s.ringOut 16).modHm fun h => { h with loaded := true }

/-- Autoload whose slots have been applied, with no stream left to go on with. -/
theorem autoload_ends {t : State} {r : LoadEnd} (hcore : s.rst.core = false) (hr : s.hm.run = .firmware) (hn : s.hm.loaded = false)
    (hq : (s.qeOf 24).run = .running) (hrest : t.hm.muster.rest = [])
    (hsl : s.applySlots ((List.range (32 - s.hm.next)).map (· + s.hm.next)) = (t, r)) : autoload s = t.autoloadAfter r := by
  cases r <;>
    simp only [autoload, hr, hn, hq, hcore, ne_eq, not_true_eq_false, Bool.false_eq_true, or_self, if_false, hsl, hrest, State.autoloadAfter]

/-- Settles O54. -/
theorem resetsBootAndMusterAct : Obligations.ResetsBootAndMusterAct := by
  refine ⟨fun s k l hk => ?chip, fun s boot mode wide hc hp hv hl hb => ?release, fun s k l hc hk hno => ?core, fun s hc => ?coreEnd,
    fun s k l hk hno => ?causeway, fun s => anyTime_next rfl, fun s hc hcore hlock => ⟨fun hr => ?bootRom, fun b m t hr hs ht => ?bootHost,
    fun b m n hr hs => ?bootStream⟩, fun s t hc hcore hr hn hq hlock hrest r hsl => ?autoload, fun s q bytes f hc hcore => ?count,
    fun s q bytes f hc hcore => ?block, fun s q bytes f hc hcore => ?done, fun s q bytes f hc hcore => ?request⟩
  case chip =>
    refine anyTime_next ?_
    rw [chipReset, hk]
  case release =>
    refine anyTime_next ?_
    simp only [chipResetRelease, hc, hp, hv, hl, hb, Bool.not_true, Bool.or_self, Bool.false_eq_true, if_false, Bool.not_false, if_true, Bool.true_and]
  case core =>
    refine anyTime_next ?_
    simp only [coreReset, hk, hno, hc, List.isEmpty_nil, Bool.not_true, Bool.or_self, Bool.false_eq_true, if_false, State.forget_splits]
    rfl
  case coreEnd => exact anyTime_next (if_pos hc)
  case causeway =>
    refine anyTime_next (if_neg ?_)
    simp [hk, hno]
  case bootRom =>
    refine fwOn_next hc hcore hlock ?_
    rw [bootImageStart, hr]
  case bootHost =>
    refine fwOn_next hc hcore hlock ?_
    simp only [bootImageStart, hr, hs]
    refine if_neg fun h => ht.elim (fun hf => ?_) fun ht => absurd h.2 (Nat.not_lt.mpr ht)
    exact Bool.eq_false_iff.mp hf h.1
  case bootStream =>
    refine fwOn_next hc hcore hlock ?_
    simp only [bootImageStart, hr, hs]
  case autoload =>
    have hload := autoload_ends hcore hr hn hq hrest hsl
    refine ⟨fun h => fwOn_next hc hcore hlock ?_, fun h => fwOn_next hc hcore hlock ?_, fun v h => fwOn_next hc hcore hlock ?_⟩ <;> rw [hload, h, State.autoloadAfter]
  case count =>
    intro b u hm ht hp hl ha hq
    exact coreOn_next hc hcore (musterCount_locked rfl hm hp ha ht hl hq)
  case block =>
    intro b u hlock hm ht hp ha hq
    exact fwOn_next hc hcore hlock (musterBlock_takes rfl hm hp ha ht hq hlock)
  case done =>
    intro b u v w r hlock hm ht hp ha hq hf hs hheld hlen hpoison hcrc
    exact fwOn_next hc hcore hlock (musterDone_good rfl hm hp ha ht hq hlock rfl rfl rfl hf hs hheld hlen hpoison hcrc)
  case request =>
    intro b u hm ht hp ha hq
    exact coreOn_next hc hcore (musterRequest_goesUp rfl hm hp ha ht hq)

end Sys2Proof.Machine
end

section
/-! Proofs for 01 (architecture), the interconnect: accesses in their turn, time-outs, write-backs and dredger passes (R12, R13, R27, R374). -/
namespace Sys2Proof.Machine

variable {s : State} {who : Initiator} {a k : Nat} {bs : List Nat} {h : TlpHead} {f : State → State × BusEnd × Nat}

/-! ## An access whose turn it is -/

/-- An access through no host interface is made at once. -/
theorem State.inTurn_direct (hm : s.mayAccess who a = true) (hk : ifNum who = none) : s.inTurn who a bs h f = State.record who a (f s) := by
  have hn : s.isNext who = true := by rw [State.isNext, hk]
  have hadmit : s.admitWrite who a bs.length = s := by rw [State.admitWrite, hk]
  have hposts : s.posts who a = false := by rw [State.posts, hk]; rfl
  simp only [State.inTurn, hm, hn, hk, hadmit, hposts, Bool.not_true, Bool.false_eq_true, if_false, if_true, ite_self]

section
variable (hm : s.mayAccess who a = true) (hk : ifNum who = some k) (ho : (s.ifOf k).ops = [])
include hk ho

/-- With nothing of its interface left to perform, it is the access's turn (R374). -/
theorem State.isNext_of_empty : s.isNext who = true := by
  simp only [State.isNext, hk, ho, List.isEmpty_nil]

include hm

/-- A read through a host interface: the fence of the interface goes before it (R377, R395). -/
theorem State.inTurn_hostRead (hb : bs = []) : s.inTurn who a bs h f =
    State.record who a (State.readMade who h (if s.fenceMet who a then (s.clrB CW_FENCE (fenceBit k), .busError, 0) else f (s.admitRead who a))) := by
  subst hb
  have hn := State.isNext_of_empty hk ho
  simp only [State.inTurn, hm, hn, hk, List.isEmpty_nil, Bool.not_true, Bool.false_eq_true, if_false, if_true]

/-- A write through a host interface: a posted one that fails or waits is taken care of (R374, R394). -/
theorem State.inTurn_hostWrite (hb : bs ≠ []) : s.inTurn who a bs h f =
    State.record who a (if s.posts who a then State.writeMade who a (s.ifOf k).seq bs (f (s.admitWrite who a bs.length))
      else f (s.admitWrite who a bs.length)) := by
  have hn := State.isNext_of_empty hk ho
  have hb' : bs.isEmpty = false := List.isEmpty_eq_false_iff.mpr hb
  have hseq : s.writeSeq who = (s.ifOf k).seq := by rw [State.writeSeq, hk]
  simp only [State.inTurn, hm, hn, hb', hseq, Bool.not_true, Bool.false_eq_true, if_false, if_true]

end

/-- A posted write of interface k that failed is logged (R394). -/
theorem State.writeMade_failed {seq : Nat} {r : State × BusEnd × Nat} (hk : ifNum who = some k) (hr : r.2.1 = .busError) :
    State.writeMade who a seq bs r = (r.1.pwFail k seq a 1, r.2) := by
  rw [State.writeMade, hk, hr]

/-- One that waits stays in its interface's order (R374). -/
theorem State.writeMade_waits {seq : Nat} {r : State × BusEnd × Nat} (hk : ifNum who = some k) (hr : r.2.1 = .waiting) :
    State.writeMade who a seq bs r = (r.1.modIf k fun x => { x with ops := [.write seq a (bs.map some) 0 false false] }, r.2) := by
  rw [State.writeMade, hk, hr]

/-- One that ended otherwise has been made. -/
theorem State.writeMade_done {seq : Nat} {r : State × BusEnd × Nat} (h1 : r.2.1 ≠ .busError) (h2 : r.2.1 ≠ .waiting) :
    State.writeMade who a seq bs r = r := by
  rw [State.writeMade]
  split
  next hr => exact absurd hr h1
  next hr => exact absurd hr h2
  next => rfl

/-- An access that is not the debug port's, in its turn. -/
theorem interconnectAccess_of_ne_debug (hd : who ≠ .debug) (op : BusOp) (ln up : Nat) (s : State) :
    interconnectAccess who a op ln up s = s.inTurn who a (opBytes op) (opHead a op) fun u => (u.upsetAt a up).accessOp who a op ln := by
  simp only [interconnectAccess, hd, false_and, if_false]

/-- Settles O55. -/
theorem interconnectServesAccesses : Obligations.InterconnectServesAccesses := by
  refine ⟨fun s who a w row l h hfind hreg hal hcount => ?write, fun s who a op ln up hc hd hm => ⟨fun hk => ?direct, fun k hk ho =>
    ⟨fun hb => ?read, fun hb => ⟨fun hr => ?made, fun hp hr => ?failed, fun hp hr => ?waits⟩⟩⟩, fun s who a op hc ha hreach r hr hbank hw => ?timeout,
    fun s l hc hl => chipOn_next hc (if_pos hl), fun s soft hard hc => chipOn_next hc rfl, fun s hc => chipOn_next hc rfl⟩
  case write =>
    have hrow : (fun u : State => if isRegister a.toNat then u.rowWrite who a.toNat w else u) = fun u => u.rowWrite who a.toNat w :=
      funext fun u => if_pos hreg
    refine (congrArg (chipOn · s) hrow).trans ?_
    exact writeReg_next h ⟨hfind, rfl, rfl, hreg, hal⟩ hcount fun u => rfl
  case direct => exact chipOn_next hc ((interconnectAccess_of_ne_debug hd ..).trans (State.inTurn_direct hm hk))
  case read => exact chipOn_next hc ((interconnectAccess_of_ne_debug hd ..).trans (State.inTurn_hostRead hm hk ho hb))
  case made =>
    refine chipOn_next hc ((interconnectAccess_of_ne_debug hd ..).trans ((State.inTurn_hostWrite hm hk ho hb).trans ?_))
    rcases hr with hp | ⟨h1, h2⟩
    · rw [if_neg (Bool.eq_false_iff.mp hp)]
    · rw [State.writeMade_done h1 h2, ite_self]
  case failed =>
    refine chipOn_next hc ((interconnectAccess_of_ne_debug hd ..).trans ((State.inTurn_hostWrite hm hk ho hb).trans ?_))
    rw [if_pos hp, State.writeMade_failed hk hr]
  case waits =>
    refine chipOn_next hc ((interconnectAccess_of_ne_debug hd ..).trans ((State.inTurn_hostWrite hm hk ho hb).trans ?_))
    rw [if_pos hp, State.writeMade_waits hk hr]
  case timeout =>
    refine chipOn_next hc ?_
    have hno : ¬(0x80000000 ≤ a.toNat ∨ (!reaches who a.toNat) = true) := by
      rw [hreach]
      simpa using ha
    rw [busTimeout, if_neg hno, hr, hbank]
    simp only [hw, if_true]
    rfl

end Sys2Proof.Machine
end

section
/-! Proofs for 15 (the harbourmaster): what a command that is taken comes to, and identification, echo, reset, abort, security, logbook and test
commands (R412 to R418, R423). -/
namespace Sys2Proof.Machine

variable {s : State} {m c n : Nat} {k : CmdSpec}

/-! ## A command that is taken -/

/-- A command that is taken, passes its checks and is answered at once. -/
theorem State.hmTakes.answers (h : s.hmTakes m c n k.long) (hl : k.lens (s.reqOf m) = true) (hp : k.param (s.reqOf m) = none) {u : State} {a : Answer}
    (hr : k.run (s.take m) (s.reqOf m) = (u, some a)) : coreOn (hmCommand m c k) s = .next (s.hmAnswers m u a) := by
  rw [h.runs hl hp, hr]

/-- One that goes on without an answer. -/
theorem State.hmTakes.goesOn (h : s.hmTakes m c n k.long) (hl : k.lens (s.reqOf m) = true) (hp : k.param (s.reqOf m) = none) {u : State}
    (hr : k.run (s.take m) (s.reqOf m) = (u, none)) : coreOn (hmCommand m c k) s = .next u.after := by
  rw [h.runs hl hp, hr]

/-- The LENGTH of the request is as its row says. -/
theorem State.hmTakes.len_beq {b : Bool} (h : s.hmTakes m c n b) : ((s.reqOf m).len == n) = true := beq_iff_eq.mpr h.len

/-- Register writes of which none is refused, and then an action. -/
theorem State.writesThen_ok {u : State} {l : List (Nat × Nat × Nat)} (h : s.cmdWrites l = (u, none)) (f : State → State × Option Answer) :
    s.writesThen l f = f u := by
  rw [State.writesThen, h]

/-- What the MAILBOX block does at a write leaves the record of resets and supplies. -/
theorem mbHook_rst (who : Initiator) (a0 i : Nat) (w : Word) (s : State) : (mbHook who a0 i w s).rst = s.rst := by
  have hrel : (s.mbRelease i).rst = s.rst := ite_rst rfl (ite_rst rfl rfl)
  exact ite_rst rfl (ite_rst (ite_rst (ite_rst rfl rfl) (ite_rst hrel rfl)) (ite_rst (ite_rst rfl rfl) (ite_rst rfl rfl)))

/-- A register write in the MAILBOX block leaves it too, taken or not. -/
theorem State.regWrite_MAILBOX_rst {a a0 : Nat} {row : RegRow} {l : List Nat} (r : RegAt a 2 a0 row l) (s : State) (who : Initiator) (w : Word) :
    (s.regWrite who a w).1.rst = s.rst := by
  rw [State.regWrite, r.find]
  dsimp only
  rw [r.block]
  split
  · rfl
  · split
    · exact ite_rst (State.count_rst ..) (State.count_rst ..)
    · split
      · exact ite_rst rfl rfl
      · exact (mbHook_rst ..).trans (ite_rst rfl rfl)

/-- Taking a request leaves it. -/
theorem State.take_rst (s : State) (m : Fin 16) : (s.take m).rst = s.rst :=
  State.regWrite_MAILBOX_rst (regAt_MB_CTL (m.castLE (by decide))) { s with arrival := s.arrival.erase m } .hm (w32 2)

/-! ## RESET -/

/-- RESET of a scope that there is, and of a berth or a port that there is (R418). -/
theorem cReset_param {r : Req} {sc : Fin 5} (h : bitsOf 2 0 (r.w 1) = sc.val) (hi : bitsOf 12 8 (r.w 1) < if sc = 4 then 6 else 24) :
    cReset.param r = none := by
  refine if_neg ?_
  rw [h]
  fin_cases sc <;> simp at hi ⊢ <;> omega

/-! ## ABORT -/

/-- ABORT of a long command, other than a RESET of a berth, that mailbox n has under way (R416). -/
theorem cAbort_run {r : Req} {l : LongCmd} (h : s.longOf (bitsOf 3 0 (r.w 1)) = some l) (hc : l.code ≠ 0x03) : cAbort.run s r = s.abortOf l r := by
  have hf : (some l).filter (fun l => l.code != 0x03) = some l := Option.filter_some_pos (bne_iff_ne.mpr hc)
  simp only [cAbort, h, hf]

/-- An image command that is aborted ends (R416). -/
theorem State.abortOf_image {l : LongCmd} (hc : l.code = 0x10 ∨ l.code = 0x11 ∨ l.code = 0x12) (r : Req) :
    s.abortOf l r = (s.endLong l (11, imgWords { bytes := l.image }), some (0, [])) := by
  rcases hc with hc | hc | hc <;> simp only [State.abortOf, State.aborted, State.abortWords, hc] <;> rfl

/-- A move or homing that goes on is stopped (R416). -/
theorem State.abortOf_axis {l : LongCmd} (hc : l.code = 0x60 ∨ l.code = 0x61) {r : Req} (hx : s.axRuns (bitsOf 4 0 (l.words.headD 0)) = true) :
    s.abortOf l r = s.abortStop l r (AX_CMD (bitsOf 4 0 (l.words.headD 0))) := by
  rcases hc with hc | hc <;> simp only [State.abortOf, hc] <;> exact if_pos hx

/-- An axis runs while a command that starts it waits, and while it moves. -/
theorem State.axRuns_of {n : Nat} (h : s.axWaits n 9 = true ∨ ((s.axOf n).st ≠ .idle ∧ (s.axOf n).st ≠ .fault)) : s.axRuns n = true := by
  simpa [State.axRuns] using h

/-- Settles O56. -/
theorem harbourmasterAnswersHousekeeping : Obligations.HarbourmasterAnswersHousekeeping := by
  refine ⟨fun s m h hrom => ?identify, fun s m n h => ?echo, fun s m sc h hsc hi => ?reset, fun s m l h hl hc => ?abortImage,
    fun s m l h hl hc => ?abortAxis, fun s m h hv hb => ?security, fun s m h hv hb => ?securityKey, fun s m h => ?freeze, fun s m h => ?thaw,
    fun s m h ho hu => ?readLog, fun s m u h hl hw => ?pattern, fun s m h hl => ?result, fun s m r hc hcore hr ht => ?begins⟩
  case identify =>
    refine h.answers (k := cIdentify) h.len_beq rfl ?_
    simp only [cIdentify, hrom]
    rfl
  case echo => exact h.answers (k := cEcho) rfl rfl rfl
  case reset =>
    intro u i posted b
    have hp : cReset.param (s.reqOf m) = none := cReset_param hsc hi
    refine ⟨fun h2 hb => h.goesOn (k := cReset) h.len_beq hp ?_, fun hno => h.answers (k := cReset) h.len_beq hp ?_⟩
    · subst h2
      simp only [cReset, hsc]
      exact if_pos hb
    · simp only [cReset, hsc]
      fin_cases sc
      · rfl
      · rfl
      · exact if_neg fun hb => hno ⟨rfl, hb⟩
      · rfl
      · rfl
  case abortImage =>
    have hrun := (cAbort_run (r := s.reqOf m) hl (by omega)).trans (State.abortOf_image hc _)
    exact h.answers (k := cAbort) h.len_beq rfl hrun
  case abortAxis =>
    intro n u hx
    have hrun := (cAbort_run (r := s.reqOf m) hl (by omega)).trans (State.abortOf_axis hc (State.axRuns_of hx))
    exact h.goesOn (k := cAbort) h.len_beq rfl hrun
  case security =>
    have hlen : cSecuritySet.lens (s.reqOf m) = true := by
      simp only [cSecuritySet, hb]
      exact h.len_beq
    refine h.answers (k := cSecuritySet) hlen rfl ?_
    simp only [cSecuritySet, hb, State.take_rst, hv]
    rfl
  case securityKey =>
    have hlen : cSecuritySet.lens (s.reqOf m) = true := by
      simp only [cSecuritySet, hb]
      exact h.len_beq
    refine h.answers (k := cSecuritySet) hlen rfl ?_
    simp only [cSecuritySet, hb, State.take_rst, hv]
    rfl
  case freeze => exact h.answers (k := cLogFreeze) h.len_beq rfl rfl
  case thaw => exact h.answers (k := cLogThaw) h.len_beq rfl rfl
  case readLog =>
    refine h.answers (k := cLogRead) h.len_beq (if_pos ho) ?_
    simp only [cLogRead, hu]
    rfl
  case pattern => exact h.answers (k := cTestPattern) h.len_beq (if_pos hl) (State.writesThen_ok hw _)
  case result => exact h.answers (k := cTestResult) h.len_beq (if_pos hl) rfl
  case begins =>
    refine coreOn_next hc hcore ?_
    simp only [resetBegin, hr]
    refine if_neg fun hno => ?_
    rcases hno with h1 | h1 | ⟨h1, h2⟩
    · exact Bool.eq_false_iff.mp hc h1
    · exact Bool.eq_false_iff.mp hcore h1
    · exact ht.elim (fun hf => Bool.eq_false_iff.mp hf h1) fun hle => absurd h2 (Nat.not_lt.mpr hle)

end Sys2Proof.Machine
end

section
/-! Proofs for 15 (the harbourmaster): images, MRAM slots and berths (R419 to R426). -/
namespace Sys2Proof.Machine

variable {s : State}

/-- While no locked sequence is in progress, a command that may wait for one is like any other. -/
theorem fwOn_eq_coreOn (h : s.cw.lock = none) (f : State → State) : fwOn f s = coreOn f s := by
  simp only [fwOn, coreOn, State.fwWaits_of_unlocked h, Bool.false_eq_true, if_false]

/-- An image read and checked without fault: its command goes on with the bytes. -/
theorem imgGoOn_good {r : Req} {p : State × ImgOut} (h : p.2.detail = 0) (words : ImgOut → List Nat) :
    imgGoOn r words p = (p.1.addLong r fun l => { l with image := p.2.bytes }, none) := if_neg (not_not_intro h)

/-- A berth that there is. -/
theorem berthParam_none {r : Req} (h : bitsOf 4 0 (r.w 1) < 24) : berthParam r = none := if_pos h

/-- A word of a berth's configuration that is not discarded is written. -/
theorem State.berthPut_taken {b a v k : Nat} (h : s.discards a (w32 v) = false) (range : Bool) (f : State → State × Option Answer) :
    s.berthPut b a v k range f = f (s.hmW a v) := if_neg (Bool.eq_false_iff.mp h)

/-- A berth of which neither word is discarded is created (R424). -/
theorem cBerthCreate_run {r : Req} (h1 : s.discards (BERTH_CFG (berthArg r)) (w32 (r.w 2)) = false)
    (h2 : (s.hmW (BERTH_CFG (berthArg r)) (r.w 2)).discards (BERTH_FQ (berthArg r)) (w32 (r.w 3)) = false) :
    cBerthCreate.run s r = ((s.hmW (BERTH_CFG (berthArg r)) (r.w 2)).hmW (BERTH_FQ (berthArg r)) (r.w 3), some (0, [])) := by
  simp only [cBerthCreate, State.berthPut_taken h1, State.berthPut_taken h2]
  rfl

/-- A berth whose engines are all STOPPED starts (R424). -/
theorem State.berthGo_stopped {b : Nat} (h : ∀ n ∈ s.berthEngines b, (s.qeOf n).run = .stopped) (ws : List Nat) :
    s.berthGo b ws = (s.hmW (BERTH_CTL b) 1, some (0, ws)) := by
  have hall : (s.berthEngines b).all (fun n => decide ((s.qeOf n).run = .stopped)) = true :=
    List.all_eq_true.mpr fun n hn => decide_eq_true (h n hn)
  simp only [State.berthGo, hall, if_true]
  rfl

/-- Settles O57. -/
theorem harbourmasterTakesImagesAndBerths : Obligations.HarbourmasterTakesImagesAndBerths := by
  refine ⟨fun s m ext u o h hlock hp hrom hf hd => ?load, fun s m ext u o h hlock hp hf hd => ?verify, fun s m ext u o h hlock hp hsrc hf hd => ?store,
    fun s m a h => ?erase, fun s m a h => ?lists, fun s m h => ?create, fun s m h => ?assign, fun s m h => ?start, fun s m l h hb hl => ?stop,
    fun s m l hc hcore hl => ?grace, fun s m ext u o h hlock hb hp hf hd => ?reload⟩
  case load =>
    refine (fwOn_eq_coreOn hlock _).trans (h.goesOn (k := cImageLoad _) h.len_beq hp ?_)
    simp only [cImageLoad, hrom]
    exact (congrArg (imgGoOn (s.reqOf m) imgWords) hf).trans (imgGoOn_good hd imgWords)
  case verify =>
    refine (fwOn_eq_coreOn hlock _).trans (h.goesOn (k := cImageVerify _) h.len_beq hp ?_)
    exact (congrArg (imgGoOn (s.reqOf m) imgWords) hf).trans (imgGoOn_good hd imgWords)
  case store =>
    refine (fwOn_eq_coreOn hlock _).trans (h.goesOn (k := cMramStore _) h.len_beq ((if_neg hsrc).trans hp) ?_)
    exact (congrArg (imgGoOn (s.reqOf m) imgWords) hf).trans (imgGoOn_good hd imgWords)
  case erase =>
    intro u ha
    refine h.answers (k := cMramErase) h.len_beq rfl ?_
    have ha : ((s.take m).slotRead (bitsOf 5 0 ((s.reqOf m).w 1))).slotValid (bitsOf 5 0 ((s.reqOf m).w 1)) = some a := ha
    simp only [cMramErase, ha]
    rfl
  case lists =>
    intro u ha
    refine h.answers (k := cMramList) h.len_beq rfl ?_
    have ha : ((s.take m).slotRead (bitsOf 5 0 ((s.reqOf m).w 1))).slotValid (bitsOf 5 0 ((s.reqOf m).w 1)) = some a := ha
    simp only [cMramList, ha]
    rfl
  case create =>
    intro r b u v hb h1 h2
    refine h.answers (k := cBerthCreate) h.len_beq (berthParam_none (r := s.reqOf m) hb) ?_
    exact cBerthCreate_run h1 h2
  case assign =>
    intro r b u hb h1
    exact h.answers (k := cBerthAssign) h.len_beq (berthParam_none (r := s.reqOf m) hb) (State.berthPut_taken h1 _ _)
  case start =>
    intro b u hb hs
    exact h.answers (k := cBerthStart) h.len_beq (berthParam_none (r := s.reqOf m) hb) (State.berthGo_stopped hs [])
  case stop =>
    refine h.goesOn (k := cBerthStop) h.len_beq (berthParam_none (r := s.reqOf m) hb) ?_
    have hl : ((s.take m).addLong (s.reqOf m) id).longOf (s.reqOf m).m = some l := hl
    simp only [cBerthStop, hl]
  case grace =>
    intro w b hcode hstage hfw hstop hdue
    refine coreOn_next hc hcore ?_
    simp only [graceExpiry, hl]
    exact if_pos ⟨hcode, hstage, hfw, by rw [hstop]; rfl, hdue⟩
  case reload =>
    have hparam : (cBerthReload (ext.map fun l => l.map BitVec.toNat)).param (s.reqOf m) = none := by
      simp only [cBerthReload, berthParam_none hb]
      exact hp
    refine (fwOn_eq_coreOn hlock _).trans (h.goesOn (k := cBerthReload _) h.len_beq hparam ?_)
    exact (congrArg (imgGoOn (s.reqOf m) (reloadWords false)) hf).trans (imgGoOn_good hd _)

end Sys2Proof.Machine
end

section
/-! Proofs for 15 (the harbourmaster): the tide engine, the ports and the stream contexts, through their registers (R417). -/
namespace Sys2Proof.Machine

variable {s : State}

/-! ## Tide and ports -/

/-- TIDE_VALIDATE of a bank that is not the active one begins. -/
theorem cTideValidate_run {r : Req} (h : s.bankHeld (bitsOf 0 0 (r.w 1)) = false) :
    cTideValidate.run s r = ((s.hmW TIDE_CMD (2 ^ bitsOf 0 0 (r.w 1))).addLong r id, none) := if_neg (Bool.eq_false_iff.mp h)

/-- TIDE_START that the device does not refuse. -/
theorem cTideStart_run {r : Req} {u v : State} (h1 : s.cmdWrites [(TIDE_BASE_NS, r.w 2, 2), (TIDE_BASE_SEC, r.w 3, 3)] = (u, none))
    (h2 : u.cmdWrites [(TIDE_CTL, 1 + 2 * bitsOf 0 0 (r.w 1), 1)] = (v, none))
    (h3 : u.setsBit TIDE_CTL (1 + 2 * bitsOf 0 0 (r.w 1)) TIDE_STATUS TIDE_STATUS_START_REFUSED = false) :
    cTideStart.run s r = (v, some (0, [])) := by
  simp only [cTideStart, State.writesThen_ok h1, State.writesThen_ok h2, h3]
  rfl

/-- PORT_SET of a port that keeps its mode, or goes to or comes from OFF, writes no MODE between (R129). -/
theorem cPortSet_run {r : Req} {v : State}
    (hmode : s.fld (PORT_CTL (bitsOf 2 0 (r.w 1))) PORT_CTL_MODE = PORT_CTL_MODE.get (w32 (r.w 2)) ∨
      s.fld (PORT_CTL (bitsOf 2 0 (r.w 1))) PORT_CTL_MODE = 0 ∨ PORT_CTL_MODE.get (w32 (r.w 2)) = 0)
    (hw : s.cmdWrites [(PORT_AN_ADV (bitsOf 2 0 (r.w 1)), r.w 3, 3), (PORT_FC_CTL (bitsOf 2 0 (r.w 1)), r.w 4, 4),
      (PORT_EEE_CTL (bitsOf 2 0 (r.w 1)), r.w 5, 5), (PORT_MM_CTL (bitsOf 2 0 (r.w 1)), r.w 6, 6),
      (PORT_CTL (bitsOf 2 0 (r.w 1)), (PORT_CTL_RESTART_AN.put (w32 (r.w 2)) 1).toNat, 2)] = (v, none)) :
    cPortSet.run s r = (v, some (0, [])) := by
  have hno : ¬(s.fld (PORT_CTL (bitsOf 2 0 (r.w 1))) PORT_CTL_MODE ≠ PORT_CTL_MODE.get (w32 (r.w 2)) ∧
      s.fld (PORT_CTL (bitsOf 2 0 (r.w 1))) PORT_CTL_MODE ≠ 0 ∧ PORT_CTL_MODE.get (w32 (r.w 2)) ≠ 0) :=
    fun ⟨h1, h2, h3⟩ => hmode.elim h1 fun h => h.elim h2 h3
  simp only [cPortSet, hno, if_false]
  exact State.writesThen_ok hw _

/-- PORT_STATUS reads three registers. -/
theorem cPortStatus_run (s : State) (r : Req) :
    let p := s.hmRs [PORT_LINK (bitsOf 2 0 (r.w 1)), PORT_STATUS (bitsOf 2 0 (r.w 1)), PORT_MM_STATUS (bitsOf 2 0 (r.w 1))]
    cPortStatus.run s r = (p.1, some (0, p.2)) := rfl

/-- Settles O58. -/
theorem harbourmasterDrivesTideAndPorts : Obligations.HarbourmasterDrivesTideAndPorts := by
  refine ⟨fun s m h => ?validate, fun s m u h hw => ?swap, fun s m u v h h1 => ?start, fun s m h => ?stop, fun s m v h => ?portSet, fun s m h => ?portStatus,
    fun s m u h hw => ?streamSet, fun s m h => ?streamGet⟩
  case validate =>
    intro b hb
    exact h.goesOn (k := cTideValidate) h.len_beq rfl (cTideValidate_run hb)
  case swap => exact h.goesOn (k := cTideSwap) h.len_beq rfl (State.writesThen_ok hw _)
  case start =>
    intro c h2 h3
    exact h.answers (k := cTideStart) h.len_beq rfl (cTideStart_run h1 h2 h3)
  case stop => exact h.answers (k := cTideStop) h.len_beq rfl rfl
  case portSet =>
    intro r n u ctl hn hmode hw
    exact h.answers (k := cPortSet) h.len_beq (if_pos hn) (cPortSet_run (s := s.take m) (r := s.reqOf m) hmode hw)
  case portStatus =>
    intro n hn
    exact h.answers (k := cPortStatus) h.len_beq (if_pos hn) (cPortStatus_run ..)
  case streamSet => exact h.answers (k := cStreamSet) h.len_beq rfl (State.writesThen_ok hw _)
  case streamGet => exact h.answers (k := cStreamGet) h.len_beq rfl rfl

end Sys2Proof.Machine
end

section
/-! Proofs for 15 (the harbourmaster): time, axes and groups through their registers, and the ends of long commands (R414 to R417). -/
namespace Sys2Proof.Machine

variable {s : State}

/-! ## Time and motion -/

/-- TIME_CORRECT whose writes are taken and whose change is not refused (R34). -/
theorem cTimeCorrect_run {r : Req} {u v : State}
    (h1 : s.cmdWrites [(TIME_STEP_LO, r.w 2, 2), (TIME_STEP_HI, r.w 3, 3), (TIME_INC_LO, r.w 4, 4), (TIME_INC_HI, r.w 5, 5), (TIME_SET_FRAC, r.w 6, 6),
      (TIME_SET_NS, r.w 7, 7), (TIME_SET_SEC_LO, r.w 8, 8), (TIME_SET_SEC_HI, r.w 9, 9)] = (u, none))
    (h2 : u.cmdWrites [(TIME_CMD, r.w 1, 1)] = (v, none))
    (h3 : (v.clrB TIME_STATUS TIME_STATUS_JUMP_REFUSED).timeApplied.bit TIME_STATUS TIME_STATUS_JUMP_REFUSED = false) :
    cTimeCorrect.run s r = ((v.timeApplied.hmR TIME_STATUS).1, some (0, [(v.timeApplied.hmR TIME_STATUS).2])) := by
  simp only [cTimeCorrect, State.writesThen_ok h1, State.writesThen_ok h2, h3]
  rfl

/-- AXIS_MOVE whose writes are taken begins. -/
theorem cAxisMove_run {r : Req} {u : State}
    (h : s.cmdWrites [(AX_TARGET_LO (bitsOf 4 0 (r.w 1)), r.w 2, 2), (AX_TARGET_HI (bitsOf 4 0 (r.w 1)), r.w 3, 3), (AX_VMAX (bitsOf 4 0 (r.w 1)), r.w 4, 4),
      (AX_ACC (bitsOf 4 0 (r.w 1)), r.w 5, 5), (AX_DEC (bitsOf 4 0 (r.w 1)), r.w 6, 6)] = (u, none)) :
    cAxisMove.run s r = ((u.hmW (AX_CMD (bitsOf 4 0 (r.w 1))) 1).addLong r id, none) := State.writesThen_ok h _

/-! ## The end of a long command -/

section
variable {m : Nat} {l : LongCmd} (hf : s.firmwareServes = true) (hl : s.longOf m = some l)
include hf hl

/-- A long command that is not being aborted ends with its answer (R414). -/
theorem longCommandEnd_ends (ha : l.aborters = []) {u : State} {a : Answer} (he : s.longEnds l = (u, some a)) :
    longCommandEnd m s = u.endLong l a := by
  simp only [longCommandEnd, hf, hl, ha, he, List.isEmpty_nil, Bool.not_true, Bool.false_eq_true, if_false]

/-- One that is being aborted ends by the STOP (R416). -/
theorem longCommandEnd_aborted (ha : l.aborters ≠ []) : longCommandEnd m s = s.abortEnds l := by
  have hne : l.aborters.isEmpty = false := List.isEmpty_eq_false_iff.mpr ha
  simp only [longCommandEnd, hf, hl, hne, Bool.not_true, Bool.not_false, Bool.false_eq_true, if_false, if_true]

end

section
variable {l : LongCmd} (hc : l.code = 0x60)
include hc

/-- A move ends well when its axis is IDLE (R417). -/
theorem State.longEnds_idle (h1 : s.axWaits (bitsOf 4 0 (l.words.headD 0)) 1 = false) (h2 : (s.axOf (bitsOf 4 0 (l.words.headD 0))).refused = false)
    (h3 : (s.axOf (bitsOf 4 0 (l.words.headD 0))).st = .idle) :
    s.longEnds l = ((s.axWords (bitsOf 4 0 (l.words.headD 0))).1, some (0, (s.axWords (bitsOf 4 0 (l.words.headD 0))).2)) := by
  have h61 : ¬(0x60 = 0x61) := by decide
  simp only [State.longEnds, State.axEnds, hc, h61, h1, h2, h3, if_false, Bool.false_eq_true, true_or, or_true, if_true]
  rfl

/-- A move that a STOP has ended: the command and the ABORTs are answered, by whether the STOP came too late (R416). -/
theorem State.abortEnds_move (h1 : s.axWaits (bitsOf 4 0 (l.words.headD 0)) 2 = false) (h2 : (s.axOf (bitsOf 4 0 (l.words.headD 0))).refused = false) :
    s.abortEnds l =
      let n := bitsOf 4 0 (l.words.headD 0)
      let p := s.axWords n
      l.aborters.foldl (fun u x => u.mbPost x.1 0x04 x.2.1 x.2.2 (if (s.axOf n).late then 12 else 0, []))
        (p.1.endLong l (if (s.axOf n).late then 0 else 11, p.2)) := by
  have h63 : ¬(0x60 = 0x63) := by decide
  have hstop : s.stopCame l = some (s.axOf (bitsOf 4 0 (l.words.headD 0))).late := by
    simp only [State.stopCame, hc, h63, if_false, h1, Bool.false_eq_true]
  have hstart : s.startRefused l = false := by
    simp only [State.startRefused, hc, h63, if_false, h2]
  have hwords : s.abortWords l = s.axWords (bitsOf 4 0 (l.words.headD 0)) := by
    simp only [State.abortWords, hc]
  rw [State.abortEnds, hstop]
  simp only [hstart, Bool.false_eq_true, if_false]
  cases (s.axOf (bitsOf 4 0 (l.words.headD 0))).late with
  | true =>
    simp only [if_true, State.tooLate, hwords]
    rfl
  | false =>
    simp only [Bool.false_eq_true, if_false, State.aborted, hwords]
    rfl

end

/-- Settles O59. -/
theorem harbourmasterDrivesTimeAndMotion : Obligations.HarbourmasterDrivesTimeAndMotion := by
  refine ⟨fun s m h => ?get, fun s m u v h h1 h2 h3 => ?correct, fun s m u h hw => ?timeState, fun s m u h => ?move, fun s m h => ?home, fun s m h => ?stop,
    fun s m h => ?group, fun s m l hc hcore hf hl hlock ha hcode hst => ?berthEnds, fun s m l hc hcore hf hl hlock ha hcode => ?verifyEnds,
    fun s m l hc hcore hf hl hlock ha hcode h1 h2 h3 => ?swapEnds, fun s m l hc hcore hf hl hlock ha hcode => ?moveEnds,
    fun s m l q qs hc hcore hf hl hlock ha hcode => ?moveStopped⟩
  case get => exact h.answers (k := cTimeGet) h.len_beq rfl rfl
  case correct => exact h.answers (k := cTimeCorrect) h.len_beq rfl (cTimeCorrect_run h1 h2 h3)
  case timeState => exact h.answers (k := cTimeState) h.len_beq rfl (State.writesThen_ok hw _)
  case move =>
    intro r n hw
    exact h.goesOn (k := cAxisMove) h.len_beq rfl (cAxisMove_run (s := s.take m) (r := s.reqOf m) hw)
  case home => exact h.goesOn (k := cAxisHome) h.len_beq rfl rfl
  case stop => exact h.answers (k := cAxisStop) h.len_beq rfl rfl
  case group => exact h.goesOn (k := cGroupMove) h.len_beq rfl rfl
  case berthEnds =>
    refine fwOn_next hc hcore hlock (longCommandEnd_ends hf hl ha ?_)
    simp only [State.longEnds, hcode]
    exact if_pos hst
  case verifyEnds =>
    refine fwOn_next hc hcore hlock (longCommandEnd_ends hf hl ha ?_)
    simp only [State.longEnds, State.imageEnds, hcode, if_true]
    rfl
  case swapEnds =>
    refine fwOn_next hc hcore hlock (longCommandEnd_ends hf hl ha ?_)
    simp only [State.longEnds, hcode, h1, h2, h3, Bool.false_eq_true, or_self, if_false]
    rfl
  case moveEnds =>
    intro n h1 h2 h3
    exact fwOn_next hc hcore hlock (longCommandEnd_ends hf hl ha (State.longEnds_idle hcode h1 h2 h3))
  case moveStopped =>
    intro n h1 h2
    have hne : l.aborters ≠ [] := ha ▸ List.cons_ne_nil q qs
    refine fwOn_next hc hcore hlock ((longCommandEnd_aborted hf hl hne).trans ((State.abortEnds_move hcode h1 h2).trans ?_))
    rw [ha]
    rfl

end Sys2Proof.Machine
end
